-- ==== Sys2Proof/Word.lean ====
section
/-! DEFINITION. The word and byte types of the device: every register is 32 bits wide (00 R4) and memory is made of
bytes (01 R19). -/
namespace Sys2Proof

/-- A 32-bit register, operand or literal (00 R4, 02 R29). -/
abbrev Word := BitVec 32

/-- A byte of memory (01 R19). -/
abbrev Byte := BitVec 8

end Sys2Proof
end

