-- ==== Sys2Proof/Syntax.lean ====
section
/-! DEFINITION. The commands: one constructor per row of spec/opcode_table.json, with the operands the sender gives. -/
namespace Sys2Proof

/-- 07 R171: what the array and the memories answer while a flash descriptor is checked: an error while the source is read, an
uncorrectable error in a lower page that safe mode saves, a journal record that could not be written. -/
structure FlashEnv where
  srcErr : Bool := false
  lowerErr : Bool := false
  jErr : Bool := false
  deriving DecidableEq, Repr

/-- What the error correction of a memory finds on a read (06 R143, 07 R167, R179, 20 R482): nothing, a correctable error, or an
uncorrectable one. -/
inductive Ecc where
  | ok | ce | ue
  deriving DecidableEq, Repr

/-- 06 R143, R144: what a read of a DRAM word meets on its path: nothing, flipped bits with their syndrome, or a command or address error
that brings the word at another channel-local address in place of it. -/
inductive DramPath where
  | clean
  | syndrome (x : BitVec 8)
  | misread (l : Nat)
  deriving DecidableEq, Repr

/-- 08 R200 to R202, 10 R259: what a demodulator measures when it finds the sync word: the ticks since the sampling instant of the
last sync symbol was at its output, the frame RSSI, the frequency offset, the RX DC offset and I/Q image of the frame, and on the SUN-FSK path
the SFD found, first bit in bit 15 (08 R207). -/
structure SyncMeas where
  back : Nat
  rssi : Fin 341
  fofs : BitVec 16
  dc : Word
  iq : Word
  sfd : BitVec 16 := 0
  deriving DecidableEq, Repr

/-- 10 R254 to R259: what the coupler and the monitors find over a transmission: the averaged spectrum, the bins of 12.5 kHz from −1.6 MHz
up in 0.5 dB, |Γ|, and the TX LO, TX I/Q and predistortion values of the band. -/
structure TxMeas where
  spectrum : List Int := []
  gamma : BitVec 8 := 0
  txlo : Word := 0
  txiq : Word := 0
  dpd : List Word := []
  deriving DecidableEq, Repr

/-- 09 R229 to R231: a codeword captured by a demodulator: the order of its last symbol in time, and the LLRs of its transmitted bits at each
sampling instant that the demodulator keeps (the nominal one first). -/
structure Captured where
  demod : Fin 64
  time : Nat
  llr : List (List Int)
  deriving DecidableEq, Repr

/-- 16 R383, R384: an address on a two-wire bus: its value, whether it has 10 bits, and the READ bit. -/
structure TwbAddr where
  addr : BitVec 10
  ten : Bool
  read : Bool
  deriving DecidableEq, Repr

/-- 13 R322, R327, R329, R330: how a bus or converter step of the hub ends: the bytes received, no acknowledge, a bus error, the
input voltage at each conversion of the ADC in µV, or the differential input at each averaged output of a DSM channel in nV, both as the
converter sees them, its own errors (R512) included, with the voltage of the `VREF` pin in µV. -/
inductive ResEnd where
  | bytes (bs : List Byte)
  | nack
  | busErr
  | volts (uv : List Int) (vref : Nat)
  | diffs (nv : List Int) (vref : Nat)
  deriving DecidableEq, Repr

/-- 14 R350, R351, R356: who takes an event: a consumer, interrupt input `j` of core `p`, or input `j` of logic cell `k`. -/
inductive Taker where
  | cons (k : Fin 41)
  | irq (p : Fin 6) (j : Fin 16)
  | cell (k : Fin 16) (j : Fin 4)
  deriving DecidableEq, Repr

/-- The commands of the device, in the order of the table.  The docstring of each names the rule the table cites. -/
inductive Instr where
  /-- REGISTER_WRITE (R7). -/
  | registerWrite (who : Nat) (a : Nat) (v : Word)
  /-- DOMAIN_POWER_UP (R11). -/
  | domainPowerUp (d : Fin 28)
  /-- DOMAIN_POWER_DOWN (R442). -/
  | domainPowerDown (d : Fin 28)
  /-- APPDIV_WRITE (R14). -/
  | appdivWrite (who : Nat) (v : Word)
  /-- VCORE_SLEW_DONE (R14). -/
  | vcoreSlewDone
  /-- BUNDLE_EXECUTE (R50). -/
  | bundleExecute (p : Fin 6) (f e : Ecc)
  /-- INTERRUPT_ENTRY (R76). -/
  | interruptEntry (p : Fin 6)
  /-- IMPRECISE_BUS_ERROR (R80). -/
  | impreciseBusError (p : Fin 6)
  /-- UNIT_RESULT_WRITE (R52). -/
  | unitResultWrite (p : Fin 6)
  /-- ITERATIVE_MUL_DONE (R56). -/
  | iterativeMulDone (p : Fin 6)
  /-- DIVIDE_DONE (R59). -/
  | divideDone (p : Fin 6)
  /-- LOAD_RETURN (R54). -/
  | loadReturn (p : Fin 6) (e mirror : Ecc) (syn : BitVec 8) (wait : Nat)
  /-- FETCH_COMPLETE (R54). -/
  | fetchComplete (p : Fin 6) (e mirror : Ecc) (syn : BitVec 8) (wait : Nat)
  /-- WRITE_BUFFER_DRAIN (R65). -/
  | writeBufferDrain (p : Fin 6) (syn : BitVec 8)
  /-- ALU_ADD (R55). -/
  | aluAdd (p : Fin 6) (alu1 : Bool) (g : Fin 8) (src : BitVec 13)
  /-- ALU_SUB (R55). -/
  | aluSub (p : Fin 6) (alu1 : Bool) (g : Fin 8) (src : BitVec 13)
  /-- ALU_AND (R55). -/
  | aluAnd (p : Fin 6) (alu1 : Bool) (g : Fin 8) (src : BitVec 13)
  /-- ALU_OR (R55). -/
  | aluOr (p : Fin 6) (alu1 : Bool) (g : Fin 8) (src : BitVec 13)
  /-- ALU_XOR (R55). -/
  | aluXor (p : Fin 6) (alu1 : Bool) (g : Fin 8) (src : BitVec 13)
  /-- ALU_EQ (R55). -/
  | aluEq (p : Fin 6) (alu1 : Bool) (g : Fin 8) (src : BitVec 13)
  /-- ALU_LT (R55). -/
  | aluLt (p : Fin 6) (alu1 : Bool) (g : Fin 8) (src : BitVec 13)
  /-- ALU_LTU (R55). -/
  | aluLtu (p : Fin 6) (alu1 : Bool) (g : Fin 8) (src : BitVec 13)
  /-- ALU_NE (R55). -/
  | aluNe (p : Fin 6) (alu1 : Bool) (g : Fin 8) (src : BitVec 13)
  /-- ALU_GE (R55). -/
  | aluGe (p : Fin 6) (alu1 : Bool) (g : Fin 8) (src : BitVec 13)
  /-- ALU_GEU (R55). -/
  | aluGeu (p : Fin 6) (alu1 : Bool) (g : Fin 8) (src : BitVec 13)
  /-- ALU_MIN (R55). -/
  | aluMin (p : Fin 6) (alu1 : Bool) (g : Fin 8) (src : BitVec 13)
  /-- ALU_MAX (R55). -/
  | aluMax (p : Fin 6) (alu1 : Bool) (g : Fin 8) (src : BitVec 13)
  /-- ALU_MINU (R55). -/
  | aluMinu (p : Fin 6) (alu1 : Bool) (g : Fin 8) (src : BitVec 13)
  /-- ALU_MAXU (R55). -/
  | aluMaxu (p : Fin 6) (alu1 : Bool) (g : Fin 8) (src : BitVec 13)
  /-- ALU_SXB (R55). -/
  | aluSxb (p : Fin 6) (alu1 : Bool) (g : Fin 8) (src : BitVec 13)
  /-- ALU_SXH (R55). -/
  | aluSxh (p : Fin 6) (alu1 : Bool) (g : Fin 8) (src : BitVec 13)
  /-- ALU_ZXB (R55). -/
  | aluZxb (p : Fin 6) (alu1 : Bool) (g : Fin 8) (src : BitVec 13)
  /-- ALU_ZXH (R55). -/
  | aluZxh (p : Fin 6) (alu1 : Bool) (g : Fin 8) (src : BitVec 13)
  /-- ALU_MUL (R56). -/
  | aluMul (p : Fin 6) (g : Fin 8) (src : BitVec 13)
  /-- ALU_MULH (R56). -/
  | aluMulh (p : Fin 6) (g : Fin 8) (src : BitVec 13)
  /-- MUL_MUL (R57). -/
  | mulMul (p : Fin 6) (g : Fin 8) (src : BitVec 13)
  /-- MUL_MULH (R57). -/
  | mulMulh (p : Fin 6) (g : Fin 8) (src : BitVec 13)
  /-- MUL_MULHU (R57). -/
  | mulMulhu (p : Fin 6) (g : Fin 8) (src : BitVec 13)
  /-- MUL_MAC (R57). -/
  | mulMac (p : Fin 6) (g : Fin 8) (src : BitVec 13)
  /-- MUL_MACU (R57). -/
  | mulMacu (p : Fin 6) (g : Fin 8) (src : BitVec 13)
  /-- MUL_ACCW (R57). -/
  | mulAccw (p : Fin 6) (g : Fin 8) (src : BitVec 13)
  /-- MUL_DIV (R60). -/
  | mulDiv (p : Fin 6) (g : Fin 8) (src : BitVec 13)
  /-- MUL_DIVU (R60). -/
  | mulDivu (p : Fin 6) (g : Fin 8) (src : BitVec 13)
  /-- MUL_REM (R60). -/
  | mulRem (p : Fin 6) (g : Fin 8) (src : BitVec 13)
  /-- MUL_REMU (R60). -/
  | mulRemu (p : Fin 6) (g : Fin 8) (src : BitVec 13)
  /-- SHF_SLL (R61). -/
  | shfSll (p : Fin 6) (g : Fin 8) (src : BitVec 13)
  /-- SHF_SRL (R61). -/
  | shfSrl (p : Fin 6) (g : Fin 8) (src : BitVec 13)
  /-- SHF_SRA (R61). -/
  | shfSra (p : Fin 6) (g : Fin 8) (src : BitVec 13)
  /-- SHF_ROR (R61). -/
  | shfRor (p : Fin 6) (g : Fin 8) (src : BitVec 13)
  /-- SHF_EXT (R61). -/
  | shfExt (p : Fin 6) (g : Fin 8) (src : BitVec 13)
  /-- SHF_EXTS (R61). -/
  | shfExts (p : Fin 6) (g : Fin 8) (src : BitVec 13)
  /-- SHF_INS (R61). -/
  | shfIns (p : Fin 6) (g : Fin 8) (src : BitVec 13)
  /-- SHF_FSR (R61). -/
  | shfFsr (p : Fin 6) (g : Fin 8) (src : BitVec 13)
  /-- SHF_CLZ (R61). -/
  | shfClz (p : Fin 6) (g : Fin 8) (src : BitVec 13)
  /-- SHF_POP (R61). -/
  | shfPop (p : Fin 6) (g : Fin 8) (src : BitVec 13)
  /-- SHF_REV (R61). -/
  | shfRev (p : Fin 6) (g : Fin 8) (src : BitVec 13)
  /-- SHF_BSWAP (R61). -/
  | shfBswap (p : Fin 6) (g : Fin 8) (src : BitVec 13)
  /-- SIMD_ADD_B (R62). -/
  | simdAddB (p : Fin 6) (g : Fin 8) (src : BitVec 13)
  /-- SIMD_SUB_B (R62). -/
  | simdSubB (p : Fin 6) (g : Fin 8) (src : BitVec 13)
  /-- SIMD_ADDS_B (R62). -/
  | simdAddsB (p : Fin 6) (g : Fin 8) (src : BitVec 13)
  /-- SIMD_ADDUS_B (R62). -/
  | simdAddusB (p : Fin 6) (g : Fin 8) (src : BitVec 13)
  /-- SIMD_AVGU_B (R62). -/
  | simdAvguB (p : Fin 6) (g : Fin 8) (src : BitVec 13)
  /-- SIMD_ABSD_B (R62). -/
  | simdAbsdB (p : Fin 6) (g : Fin 8) (src : BitVec 13)
  /-- SIMD_SAD_B (R62). -/
  | simdSadB (p : Fin 6) (g : Fin 8) (src : BitVec 13)
  /-- SIMD_CMPEQ_B (R62). -/
  | simdCmpeqB (p : Fin 6) (g : Fin 8) (src : BitVec 13)
  /-- SIMD_SHUF_B (R62). -/
  | simdShufB (p : Fin 6) (g : Fin 8) (src : BitVec 13)
  /-- SIMD_ADD_H (R62). -/
  | simdAddH (p : Fin 6) (g : Fin 8) (src : BitVec 13)
  /-- SIMD_SUB_H (R62). -/
  | simdSubH (p : Fin 6) (g : Fin 8) (src : BitVec 13)
  /-- SIMD_ADDS_H (R62). -/
  | simdAddsH (p : Fin 6) (g : Fin 8) (src : BitVec 13)
  /-- SIMD_SUBS_H (R62). -/
  | simdSubsH (p : Fin 6) (g : Fin 8) (src : BitVec 13)
  /-- SIMD_MUL_H (R62). -/
  | simdMulH (p : Fin 6) (g : Fin 8) (src : BitVec 13)
  /-- SIMD_DOT_H (R62). -/
  | simdDotH (p : Fin 6) (g : Fin 8) (src : BitVec 13)
  /-- SIMD_MAX_H (R62). -/
  | simdMaxH (p : Fin 6) (g : Fin 8) (src : BitVec 13)
  /-- SIMD_MIN_H (R62). -/
  | simdMinH (p : Fin 6) (g : Fin 8) (src : BitVec 13)
  /-- LSU_LD_W (R63). -/
  | lsuLdW (p : Fin 6) (g : Fin 8) (src : BitVec 13) (e : Ecc)
  /-- LSU_LD_H (R63). -/
  | lsuLdH (p : Fin 6) (g : Fin 8) (src : BitVec 13) (e : Ecc)
  /-- LSU_LD_HU (R63). -/
  | lsuLdHu (p : Fin 6) (g : Fin 8) (src : BitVec 13) (e : Ecc)
  /-- LSU_LD_B (R63). -/
  | lsuLdB (p : Fin 6) (g : Fin 8) (src : BitVec 13) (e : Ecc)
  /-- LSU_LD_BU (R63). -/
  | lsuLdBu (p : Fin 6) (g : Fin 8) (src : BitVec 13) (e : Ecc)
  /-- LSU_LR_W (R67). -/
  | lsuLrW (p : Fin 6) (g : Fin 8) (src : BitVec 13) (e : Ecc)
  /-- LSU_ST_W (R65). -/
  | lsuStW (p : Fin 6) (g : Fin 8) (src : BitVec 13)
  /-- LSU_ST_H (R65). -/
  | lsuStH (p : Fin 6) (g : Fin 8) (src : BitVec 13)
  /-- LSU_ST_B (R65). -/
  | lsuStB (p : Fin 6) (g : Fin 8) (src : BitVec 13)
  /-- LSU_SC_W (R68). -/
  | lsuScW (p : Fin 6) (g : Fin 8) (src : BitVec 13)
  /-- LSU_FENCE (R66). -/
  | lsuFence (p : Fin 6) (g : Fin 8) (src : BitVec 13)
  /-- QU_ENQ (R69). -/
  | quEnq (p : Fin 6) (g : Fin 8) (src : BitVec 13)
  /-- QU_DEQ (R69). -/
  | quDeq (p : Fin 6) (g : Fin 8) (src : BitVec 13)
  /-- QU_DEQNB (R69). -/
  | quDeqnb (p : Fin 6) (g : Fin 8) (src : BitVec 13)
  /-- QU_CNT (R69). -/
  | quCnt (p : Fin 6) (g : Fin 8) (src : BitVec 13)
  /-- QU_SIG (R353). -/
  | quSig (p : Fin 6) (g : Fin 8) (src : BitVec 13)
  /-- QU_WFE (R71). -/
  | quWfe (p : Fin 6) (g : Fin 8) (src : BitVec 13)
  /-- DEQ_ENTRY_ARRIVES (R70). -/
  | deqEntryArrives (q : Fin 128)
  /-- WFE_WAKE (R71). -/
  | wfeWake (p : Fin 6)
  /-- CU_JMP (R72). -/
  | cuJmp (p : Fin 6) (g : Fin 8) (src : BitVec 13)
  /-- CU_BR (R72). -/
  | cuBr (p : Fin 6) (g : Fin 8) (src : BitVec 13)
  /-- CU_CALL (R72). -/
  | cuCall (p : Fin 6) (g : Fin 8) (src : BitVec 13)
  /-- CU_CALLR (R72). -/
  | cuCallr (p : Fin 6) (g : Fin 8) (src : BitVec 13)
  /-- CU_RET (R72). -/
  | cuRet (p : Fin 6) (g : Fin 8) (src : BitVec 13)
  /-- CU_LOOP (R73). -/
  | cuLoop (p : Fin 6) (g : Fin 8) (src : BitVec 13)
  /-- CU_TRAP (R80). -/
  | cuTrap (p : Fin 6) (g : Fin 8) (src : BitVec 13)
  /-- CU_ERET (R79). -/
  | cuEret (p : Fin 6) (g : Fin 8) (src : BitVec 13)
  /-- CU_WFE (R72). -/
  | cuWfe (p : Fin 6) (g : Fin 8) (src : BitVec 13)
  /-- CU_LIMM (R47). -/
  | cuLimm (p : Fin 6) (g : Fin 8) (lit : Word)
  /-- LOCKSTEP_CHECKPOINT (R89). -/
  | lockstepCheckpoint
  /-- LOCKSTEP_MISMATCH (R90). -/
  | lockstepMismatch
  /-- LOCKSTEP_RESTORE_DONE (R90). -/
  | lockstepRestoreDone
  /-- LOCKSTEP_REPLAY_END (R90). -/
  | lockstepReplayEnd
  /-- BACKUP_DOMAIN_POR (R98). -/
  | backupDomainPor (pwrDef : Bool)
  /-- MAIN_POR (R98). -/
  | mainPor (brownout : Bool)
  /-- PIN_RESET (R98). -/
  | pinReset
  /-- SOFTWARE_RESET (R98). -/
  | softwareReset (who : Nat) (v : Word)
  /-- PLAYER_RESET (R98). -/
  | playerReset (who : Nat) (n : Fin 5) (v : Word)
  /-- PLAYER_HOLD_SET (R107). -/
  | playerHoldSet (who : Nat) (n : Fin 5) (v : Word)
  /-- PLAYER_HOLD_RELEASE (R87). -/
  | playerHoldRelease (who : Nat) (n : Fin 5) (v : Word)
  /-- PLAYER_POWERED (R87). -/
  | playerPowered (n : Fin 4)
  /-- BOOT_SEQUENCER_START (R99). -/
  | bootSequencerStart (svcReq : Bool) (eui : BitVec 64) (trialLim : Fin 4) (tampEn tampPol : Bool)
  /-- CLOCKS_LOCKED (R99). -/
  | clocksLocked
  /-- ROM_IMAGE_VERIFIED (R99). -/
  | romImageVerified (burnOk : Bool)
  /-- BOOTSEL_NEXT (R102). -/
  | bootselNext (who : Nat) (v : Word)
  /-- RECOVERY_UNLOCK_WINDOW_END (R104). -/
  | recoveryUnlockWindowEnd
  /-- HEALTH_START (R103). -/
  | healthStart (who : Nat) (v : Word)
  /-- HEALTH_STOP (R103). -/
  | healthStop (who : Nat) (v : Word)
  /-- HEALTH_DEADLINE (R103). -/
  | healthDeadline (served : Bool)
  /-- HEALTH_GRACE_END (R103). -/
  | healthGraceEnd
  /-- PHASE_WRITE (R105). -/
  | phaseWrite (who : Nat) (v : Word)
  /-- REQ_ALLOC (R121). -/
  | reqAlloc (base index acl : Nat) (fs tables : List (Nat × Nat))
  /-- REQ_FREE (R121). -/
  | reqFree
  /-- REQ_HINT (R121). -/
  | reqHint
  /-- REQ_PIN (R119). -/
  | reqPin
  /-- REQ_UNPIN (R121). -/
  | reqUnpin
  /-- REQ_QUERY (R121). -/
  | reqQuery
  /-- REQ_SEAL (R121). -/
  | reqSeal
  /-- REQ_UNSEAL (R121). -/
  | reqUnseal (fs : List Nat)
  /-- REQ_DONE (R127). -/
  | reqDone
  /-- REQ_BAD_KIND (R120). -/
  | reqBadKind
  /-- PAGE_WALK (R113). -/
  | pageWalk (who a : Nat) (write : Bool) (e : Ecc)
  /-- MIGRATION_GO (R115). -/
  | migrationGo (who : Nat) (c : Fin 2) (v : Word)
  /-- MIGRATION_COPY_DONE (R115). -/
  | migrationCopyDone (c : Fin 2)
  /-- MIGRATION_PASS_DONE (R115). -/
  | migrationPassDone (c : Fin 2)
  /-- MIGRATION_FINAL_DONE (R115). -/
  | migrationFinalDone (c : Fin 2)
  /-- MIGSTAT_READ (R115). -/
  | migstatRead (who : Nat) (c : Fin 2)
  /-- EPOCH_BOUNDARY (R117). -/
  | epochBoundary
  /-- SWEEP_DONE (R118). -/
  | sweepDone
  /-- STG_FROZEN_CLEAR (R125). -/
  | stgFrozenClear (who : Nat) (v : Word)
  /-- DISPATCHER_RUN (R127). -/
  | dispatcherRun
  /-- DISPATCH_ENABLE (R127). -/
  | dispatchEnable (who : Nat) (v : Word)
  /-- STG_TRIGGER (R129). -/
  | stgTrigger (k : Fin 16)
  /-- TRIGQ_WRITE (R136). -/
  | trigqWrite (who : Nat) (k : Fin 16) (v : Word)
  /-- STG_RUN_READ (R136). -/
  | stgRunRead (who : Nat) (n : Fin 4)
  /-- QUEUE_PUSH_ENQUEUE (R132). -/
  | queuePushEnqueue (who : Nat) (q : Fin 128) (v : Word)
  /-- QUEUE_PUSH_RELEASE (R133). -/
  | queuePushRelease (who : Nat) (q : Fin 128) (v : Word)
  /-- QUEUE_POP (R132). -/
  | queuePop (who : Nat) (q : Fin 128)
  /-- QUEUE_ENABLE (R135). -/
  | queueEnable (who : Nat) (q : Fin 128) (v : Word)
  /-- QUEUE_DISABLE (R135). -/
  | queueDisable (who : Nat) (q : Fin 128) (v : Word)
  /-- QUEUE_CLEAR (R135). -/
  | queueClear (who : Nat) (q : Fin 128) (v : Word)
  /-- QUEUE_CLEAR_DROPS (R132). -/
  | queueClearDrops (who : Nat) (q : Fin 128) (v : Word)
  /-- DRAM_TRAINING_DONE (R147). -/
  | dramTrainingDone (failStep : Fin 6)
  /-- DRAM_ACCESS (R142). -/
  | dramAccess (who : Nat) (a : Nat) (data : Option (List Byte)) (path : DramPath)
  /-- DRAM_BACKGROUND_FILL (R148). -/
  | dramBackgroundFill
  /-- PATROL_SCRUB_READ (R146). -/
  | patrolScrubRead (path : DramPath)
  /-- ZQ_CALIBRATION (R149). -/
  | zqCalibration
  /-- DQS_OSC_READ (R149). -/
  | dqsOscRead (drift : BitVec 16)
  /-- DRAM_SPEED_SWITCH (R150). -/
  | dramSpeedSwitch (who : Nat) (v : Word)
  /-- DRAM_SPEED_SWITCH_DONE (R150). -/
  | dramSpeedSwitchDone
  /-- DRAM_RETRAIN (R150). -/
  | dramRetrain (who : Nat) (v : Word)
  /-- DRAM_RETRAIN_DONE (R150). -/
  | dramRetrainDone (failStep : Fin 6)
  /-- DRAM_PAGE_TIMER_EXPIRY (R152). -/
  | dramPageTimerExpiry (c : Fin 2) (bank : Fin 8)
  /-- REFRESH_DUE (R153). -/
  | refreshDue (c : Fin 2) (idle : Bool)
  /-- REFRESH_PULL_IN (R153). -/
  | refreshPullIn (c : Fin 2)
  /-- MR4_POLL (R154). -/
  | mr4Poll (code0 code1 : Fin 8)
  /-- CHANNEL1_OFF (R156). -/
  | channel1Off (who : Nat) (v : Word)
  /-- CHANNEL1_ON (R156). -/
  | channel1On (who : Nat) (v : Word)
  /-- DIAG_READ (R159). -/
  | diagRead (who : Nat)
  /-- DIAG_WRITE (R159). -/
  | diagWrite (who : Nat)
  /-- DIAG_POISON (R161). -/
  | diagPoison (who : Nat)
  /-- RELEASE_RESUME (R160). -/
  | releaseResume (who : Nat)
  /-- RELEASE_SCRUB (R160). -/
  | releaseScrub (who : Nat)
  /-- SCRUB_RELEASE_DONE (R160). -/
  | scrubReleaseDone (bad : List Nat)
  /-- RELEASE_RESET (R160). -/
  | releaseReset (who : Nat)
  /-- DMC_ADDRMAP_WRITE (R161). -/
  | dmcAddrmapWrite (who : Nat) (v : Word)
  /-- POISONQ_READ (R161). -/
  | poisonqRead (who : Nat)
  /-- CECOUNT_READ (R161). -/
  | cecountRead (who : Nat)
  /-- FLASH_PROGRAM (R170). -/
  | flashProgram (env : FlashEnv)
  /-- FLASH_ERASE (R170). -/
  | flashErase (env : FlashEnv)
  /-- FLASH_EPOCH (R178). -/
  | flashEpoch (env : FlashEnv)
  /-- FLASH_RETIRE (R170). -/
  | flashRetire (env : FlashEnv)
  /-- FLASH_BLANKCHECK (R170). -/
  | flashBlankcheck
  /-- FLASH_ABORT (R173). -/
  | flashAbort
  /-- FLASH_RELEASE (R176). -/
  | flashRelease (env : FlashEnv)
  /-- PROG_BURST_DONE (R173). -/
  | progBurstDone (ok : Bool) (differs : Option Nat)
  /-- ERASE_PULSE_DONE (R173). -/
  | erasePulseDone (verified : Bool)
  /-- ERASE_SUSPEND (R173). -/
  | eraseSuspend
  /-- ERASE_RESUME (R173). -/
  | eraseResume
  /-- FLASH_READ (R167). -/
  | flashRead (who f : Nat) (fetch : Bool) (e mirror : Ecc) (wait : Nat)
  /-- FLASH_PREFETCH (R167). -/
  | flashPrefetch
  /-- FLASH_JREADY_SET (R172). -/
  | flashJreadySet (who : Nat) (v : Word)
  /-- FLC_ECCCNT_READ (R189). -/
  | flcEcccntRead (who : Nat)
  /-- STALLMAX_READ (R189). -/
  | stallmaxRead (who : Nat)
  /-- MRAM_WRITE_PERFORM (R179). -/
  | mramWritePerform
  /-- MRC_ECCCNT_READ (R190). -/
  | mrcEcccntRead (who : Nat)
  /-- DEMOD_ENABLE (R193). -/
  | demodEnable (who : Nat) (n : Fin 64) (v : Word)
  /-- DEMOD_DISABLE (R194). -/
  | demodDisable (who : Nat) (n : Fin 64) (v : Word)
  /-- PREAMBLE_DETECTED (R194). -/
  | preambleDetected (n : Fin 64) (corr : Nat) (dgain : BitVec 8)
  /-- SYNC_FOUND (R202). -/
  | syncFound (n : Fin 64) (x : SyncMeas)
  /-- SYNC_WINDOW_TIMEOUT (R194). -/
  | syncWindowTimeout (n : Fin 64) (symbols : Nat)
  /-- HEADER_DECISION (R221). -/
  | headerDecision (n : Fin 64) (soft : List Int)
  /-- PAYLOAD_CAPTURED (R194). -/
  | payloadCaptured (n : Fin 64) (rest : List (List (List Int)))
  /-- AGC_MEASUREMENT (R197). -/
  | agcMeasurement (power : Int) (overloads : Nat) (now : List (Fin 64 × Fin 341))
  /-- RXC_APPLY (R205). -/
  | rxcApply (who : Nat) (v : Word)
  /-- RXC_APPLY_PENDING_DONE (R205). -/
  | rxcApplyPendingDone
  /-- RXC_SWITCH_DONE (R205). -/
  | rxcSwitchDone
  /-- RECEIVER_ENABLE (R211). -/
  | receiverEnable (who : Nat) (v : Word)
  /-- RECEIVER_DISABLE (R205). -/
  | receiverDisable (who : Nat) (v : Word)
  /-- RECEIVER_RETURN (R209). -/
  | receiverReturn
  /-- TSLO_READ (R213). -/
  | tsloRead (who : Nat) (n : Fin 64)
  /-- RXC_CNT0_READ (R213). -/
  | rxcCnt0Read (who : Nat) (n : Fin 64)
  /-- RXC_CNT1_READ (R213). -/
  | rxcCnt1Read (who : Nat) (n : Fin 64)
  /-- RXC_CNT2_READ (R213). -/
  | rxcCnt2Read (who : Nat) (n : Fin 64)
  /-- AGCCNT_READ (R210). -/
  | agccntRead (who : Nat)
  /-- CODEWORD_DECODE_START (R231). -/
  | codewordDecodeStart (captured : List Captured)
  /-- CODEWORD_DECODE_DONE (R229). -/
  | codewordDecodeDone (us : Nat)
  /-- ALT_HYPOTHESIS_START (R230). -/
  | altHypothesisStart
  /-- VITERBI_DECODE (R234). -/
  | viterbiDecode (soft : List Int)
  /-- CWCNT_READ (R239). -/
  | cwcntRead (who : Nat)
  /-- FRMCNT_READ (R239). -/
  | frmcntRead (who : Nat)
  /-- ITERSUM_READ (R239). -/
  | itersumRead (who : Nat)
  /-- ITERMAX_READ (R239). -/
  | itermaxRead (who : Nat)
  /-- HDRCNT_READ (R239). -/
  | hdrcntRead (who : Nat)
  /-- LATMAX_READ (R239). -/
  | latmaxRead (who : Nat)
  /-- VITCNT_READ (R239). -/
  | vitcntRead (who : Nat)
  /-- TX_COMMIT (R245). -/
  | txCommit
  /-- TX_DEFER_END (R248). -/
  | txDeferEnd
  /-- TX_DEFER_DEADLINE (R248). -/
  | txDeferDeadline
  /-- TX_SEQUENCE_STEP (R246). -/
  | txSequenceStep (pdet : BitVec 12)
  /-- TX_LAST_SYMBOL (R246). -/
  | txLastSymbol (x : TxMeas)
  /-- TX_LATE (R250). -/
  | txLate
  /-- SYNTH_LOCK (R249). -/
  | synthLock (drift : Bool)
  /-- SYNTH_LOCK_TIMEOUT (R250). -/
  | synthLockTimeout
  /-- SYNTH_LOCK_LOST (R250). -/
  | synthLockLost
  /-- VCO_CALIBRATION_DONE (R249). -/
  | vcoCalibrationDone
  /-- RFE_VCOCAL (R265). -/
  | rfeVcocal (who : Nat) (v : Word)
  /-- TX_ABORT (R252). -/
  | txAbort (who : Nat) (v : Word)
  /-- TX_DISABLE (R252). -/
  | txDisable (who : Nat) (v : Word)
  /-- TUNER_TRIAL_STEP (R258). -/
  | tunerTrialStep (gamma : BitVec 8)
  /-- TUNER_TRIAL_JUDGE (R258). -/
  | tunerTrialJudge (gamma : BitVec 8)
  /-- CAL_PENDING_APPLY (R261). -/
  | calPendingApply
  /-- RTC_TRIM_LEARN (R259). -/
  | rtcTrimLearn (temp : BitVec 16) (meas : BitVec 24)
  /-- TXC_CNT_READ (R263). -/
  | txcCntRead (who : Nat)
  /-- AIRTIME_READ (R263). -/
  | airtimeRead (who : Nat)
  /-- MASKSTAT_READ (R263). -/
  | maskstatRead (who : Nat)
  /-- MASKWORST_READ (R263). -/
  | maskworstRead (who : Nat)
  /-- TUNESTAT_READ (R265). -/
  | tunestatRead (who : Nat)
  /-- LNK_FRAME_RECEIVE (R275). -/
  | lnkFrameReceive
  /-- MIC_VERIFY_DONE (R275). -/
  | micVerifyDone
  /-- RELAY_START (R285). -/
  | relayStart (k : Nat)
  /-- FLOOR_EXPIRE (R282). -/
  | floorExpire
  /-- LNK_ENABLE (R284). -/
  | lnkEnable (who : Nat) (v : Word)
  /-- LNK_DISABLE (R293). -/
  | lnkDisable (who : Nat) (v : Word)
  /-- ACKEN_DISABLE (R293). -/
  | ackenDisable (who : Nat) (v : Word)
  /-- RELAYEN_DISABLE (R293). -/
  | relayenDisable (who : Nat) (v : Word)
  /-- EXTEN_ENABLE (R283). -/
  | extenEnable (who : Nat) (v : Word)
  /-- EXT_CLEAR_DONE (R283). -/
  | extClearDone
  /-- EXTEN_DISABLE (R293). -/
  | extenDisable (who : Nat) (v : Word)
  /-- POOL_CONFIG_WRITE (R293). -/
  | poolConfigWrite (who : Nat) (base : Bool) (v : Word)
  /-- CNTRX_READ (R294). -/
  | cntrxRead (who : Nat)
  /-- CNTREJ_READ (R294). -/
  | cntrejRead (who : Nat)
  /-- CNTSEC_READ (R294). -/
  | cntsecRead (who : Nat)
  /-- CNTDROP_READ (R294). -/
  | cntdropRead (who : Nat)
  /-- CNTACK_READ (R294). -/
  | cntackRead (who : Nat)
  /-- CNTRLY_READ (R294). -/
  | cntrlyRead (who : Nat)
  /-- CNTRLYD_READ (R294). -/
  | cntrlydRead (who : Nat)
  /-- CNTOVL_READ (R294). -/
  | cntovlRead (who : Nat)
  /-- NT_SOURCE_CHANGE (R297). -/
  | ntSourceChange
  /-- NT_ADJUST (R299). -/
  | ntAdjust (who : Nat) (v : Word)
  /-- NT_SET (R299). -/
  | ntSet (who : Nat) (v : Word)
  /-- SLEW_DONE (R299). -/
  | slewDone
  /-- BACKHOLD_END (R299). -/
  | backholdEnd
  /-- NT_READ (R300). -/
  | ntRead (who : Nat)
  /-- BEACON_WINDOW_OPEN (R314). -/
  | beaconWindowOpen
  /-- BEACON_WINDOW_CLOSE (R313). -/
  | beaconWindowClose
  /-- SEARCH_START (R313). -/
  | searchStart
  /-- SEARCH_WINDOW_OPEN (R316). -/
  | searchWindowOpen
  /-- SEARCH_WINDOW_END (R316). -/
  | searchWindowEnd
  /-- TRACKER_ROOT (R313). -/
  | trackerRoot (who : Nat) (v : Word)
  /-- TRACKER_DISABLE (R313). -/
  | trackerDisable (who : Nat) (v : Word)
  /-- TRACKER_ENABLE (R313). -/
  | trackerEnable (who : Nat) (v : Word)
  /-- PARENT_WRITE (R313). -/
  | parentWrite (who : Nat) (hi : Bool) (v : Word)
  /-- LISTEN_WINDOW_OPEN (R310). -/
  | listenWindowOpen
  /-- LISTEN_WINDOW_CLOSE (R310). -/
  | listenWindowClose
  /-- ANNOUNCED_WINDOW_OPEN (R312). -/
  | announcedWindowOpen
  /-- SCHEDULE_CYCLE_BOUNDARY (R319). -/
  | scheduleCycleBoundary
  /-- SCHCNT_READ (R318). -/
  | schcntRead (who : Nat)
  /-- CNTBCN_READ (R318). -/
  | cntbcnRead (who : Nat)
  /-- HUB_RTC_TRIGGER (R321). -/
  | hubRtcTrigger (n : Fin 32)
  /-- HUB_CUE_TRIGGER (R321). -/
  | hubCueTrigger (idx : Fin 8)
  /-- HUB_PIN_TRIGGER (R321). -/
  | hubPinTrigger (pin : Fin 48) (rising : Bool)
  /-- HUB_SWTRIG (R321). -/
  | hubSwtrig (who : Nat) (v : Word)
  /-- HUB_END (R325). -/
  | hubEnd
  /-- HUB_POWER (R328). -/
  | hubPower
  /-- HUB_WAIT (R325). -/
  | hubWait
  /-- HUB_TWB (R325). -/
  | hubTwb
  /-- HUB_CSP (R325). -/
  | hubCsp
  /-- HUB_ADC (R329). -/
  | hubAdc
  /-- HUB_DSM (R330). -/
  | hubDsm
  /-- HUB_PIN (R332). -/
  | hubPin
  /-- HUB_CAPTURE (R333). -/
  | hubCapture
  /-- HUB_FILTER (R335). -/
  | hubFilter
  /-- HUB_COMPARE (R336). -/
  | hubCompare
  /-- HUB_STORE (R338). -/
  | hubStore
  /-- HUB_SIGNAL (R325). -/
  | hubSignal
  /-- HUB_BRANCH (R325). -/
  | hubBranch
  /-- HUB_ILLEGAL_STEP (R327). -/
  | hubIllegalStep
  /-- HUB_STEP_SKIP (R324). -/
  | hubStepSkip
  /-- HUB_RESOURCE_STEP_DONE (R322). -/
  | hubResourceStepDone (n : Fin 32) (r : ResEnd)
  /-- HUB_WAIT_END (R325). -/
  | hubWaitEnd (n : Fin 32)
  /-- SPWR_OVERCURRENT (R328). -/
  | spwrOvercurrent (k : Fin 4)
  /-- SHEET_DISABLE (R342). -/
  | sheetDisable (who : Nat) (n : Fin 32) (v : Word)
  /-- HUB_DISABLE (R342). -/
  | hubDisable (who : Nat) (v : Word)
  /-- FILTER_RESET (R335). -/
  | filterReset (who : Nat) (k : Fin 16) (v : Word)
  /-- FILTER_CONFIG_WRITE (R335). -/
  | filterConfigWrite (who : Nat) (k : Fin 16) (v : Word)
  /-- COMPARE_RESET (R336). -/
  | compareReset (who : Nat) (k : Fin 16) (v : Word)
  /-- SHCNT_READ (R344). -/
  | shcntRead (who : Nat) (n : Fin 32)
  /-- CUE_PRODUCER_EVENT (R347). -/
  | cueProducerEvent (fam : Fin 10) (idx : Fin 64)
  /-- PIN_EVENT (R349). -/
  | pinEvent (idx : Fin 16) (rising : Bool)
  /-- CUE_CONSUMER_TAKE (R352). -/
  | cueConsumerTake (t : Taker)
  /-- CUE_SOFTWARE_SIGNAL (R353). -/
  | cueSoftwareSignal (who : Nat) (hi : Bool) (v : Word)
  /-- LOGIC_CELL_CLOCK (R357). -/
  | logicCellClock (k : Fin 16)
  /-- LOGIC_CELL_RESET (R358). -/
  | logicCellReset (who : Nat) (k : Fin 16) (v : Word)
  /-- CHANNEL_OWNER_WRITE (R355). -/
  | channelOwnerWrite (who : Nat) (c : Fin 64) (v : Word)
  /-- CELL_OWNER_WRITE (R355). -/
  | cellOwnerWrite (who : Nat) (k : Fin 16) (v : Word)
  /-- IRQPEND_CLEAR (R351). -/
  | irqpendClear (who : Nat) (p : Fin 6) (v : Word)
  /-- OVR_CLEAR (R354). -/
  | ovrClear (who : Nat) (hi : Bool) (v : Word)
  /-- TIMER_COUNT_TICK (R362). -/
  | timerCountTick (x : Fin 8)
  /-- DEAD_TIME_EXPIRY (R367). -/
  | deadTimeExpiry (x : Fin 2) (n : Fin 4) (neg : Bool)
  /-- TIMER_BREAK_PIN (R369). -/
  | timerBreakPin (x : Fin 2)
  /-- TIMER_BREAK_CUE (R369). -/
  | timerBreakCue (x : Fin 2)
  /-- TIMER_TRG_START (R374). -/
  | timerTrgStart (x : Fin 8)
  /-- TIMER_TRG_RESTART (R374). -/
  | timerTrgRestart (x : Fin 8)
  /-- TIMER_TRG_STOP (R374). -/
  | timerTrgStop (x : Fin 8)
  /-- TIMER_CAPTURE_EDGE (R375). -/
  | timerCaptureEdge (x : Fin 8) (n : Fin 4) (rising : Bool)
  /-- TIMER_PULSE_EDGE (R376). -/
  | timerPulseEdge (x : Fin 8) (n : Fin 4) (rising : Bool)
  /-- TIMER_ENABLE (R377). -/
  | timerEnable (who : Nat) (x : Fin 8) (v : Word)
  /-- TIMER_DISABLE (R377). -/
  | timerDisable (who : Nat) (x : Fin 8) (v : Word)
  /-- TIMER_CNT_WRITE (R372). -/
  | timerCntWrite (who : Nat) (x : Fin 8) (v : Word)
  /-- TIMER_IMMEDIATE_WRITE (R370). -/
  | timerImmediateWrite (who : Nat) (x : Fin 8) (cc : Option (Fin 4)) (v : Word)
  /-- TIMER_MODE_CHANGE (R377). -/
  | timerModeChange (who : Nat) (x : Fin 8) (n : Fin 4) (v : Word)
  /-- TWB_CMD (R382). -/
  | twbCmd (who : Nat) (k : Fin 5) (v : Word)
  /-- TWB_TRANSFER_DONE (R382). -/
  | twbTransferDone (k : Fin 5) (acked : Nat) (nack : Bool) (rx : List Byte)
  /-- TWB_ARBITRATION_LOST (R384). -/
  | twbArbitrationLost (k : Fin 5) (bytes : Nat) (winner : Option TwbAddr)
  /-- TWB_MISPLACED_CONDITION (R385). -/
  | twbMisplacedCondition (k : Fin 5) (start ninth : Bool)
  /-- TWB_SCL_TIMEOUT (R386). -/
  | twbSclTimeout (k : Fin 5)
  /-- TWB_SDA_TIMEOUT (R386). -/
  | twbSdaTimeout (k : Fin 5)
  /-- TWB_RECOVER (R387). -/
  | twbRecover (who : Nat) (k : Fin 5) (v : Word)
  /-- TWB_RECOVER_DONE (R387). -/
  | twbRecoverDone (k : Fin 5) (ok : Bool)
  /-- TWB_TARGET_ADDRESSED (R383). -/
  | twbTargetAddressed (k : Fin 5) (addr : TwbAddr)
  /-- TWB_TARGET_BYTE (R383). -/
  | twbTargetByte (k : Fin 5) (b : Byte)
  /-- TWB_TARGET_STOP (R383). -/
  | twbTargetStop (k : Fin 5) (stop : Bool)
  /-- TWB_ATTN (R388). -/
  | twbAttn (who : Nat) (k : Fin 5) (v : Word)
  /-- TWB_ATTN_DONE (R388). -/
  | twbAttnDone (k : Fin 5) (ok : Bool)
  /-- TWB_TXDATA_WRITE (R401). -/
  | twbTxdataWrite (who : Nat) (k : Fin 5) (v : Word)
  /-- TWB_RXDATA_READ (R401). -/
  | twbRxdataRead (who : Nat) (k : Fin 5)
  /-- TWB_DISABLE (R400). -/
  | twbDisable (who : Nat) (k : Fin 5) (v : Word)
  /-- TWB_WAKE_DETECT (R389). -/
  | twbWakeDetect (k : Fin 5)
  /-- CSP_WAKE_DETECT (R389). -/
  | cspWakeDetect (k : Fin 2)
  /-- CSP_TXDATA_WRITE (R402). -/
  | cspTxdataWrite (who : Nat) (k : Fin 2) (v : Word)
  /-- CSP_RXDATA_READ (R402). -/
  | cspRxdataRead (who : Nat) (k : Fin 2)
  /-- CSP_MASTER_FRAME_DONE (R390). -/
  | cspMasterFrameDone (k : Fin 2) (rx : Word)
  /-- CSP_SLAVE_FRAME_DONE (R391). -/
  | cspSlaveFrameDone (k : Fin 2) (rx : Word)
  /-- CSP_SELECT_RELEASE (R391). -/
  | cspSelectRelease (k : Fin 2) (part : Bool)
  /-- CSP_DISABLE (R400). -/
  | cspDisable (who : Nat) (k : Fin 2) (v : Word)
  /-- HWN_TRANSACTION_START (R394). -/
  | hwnTransactionStart (read : Bool)
  /-- HWN_BYTE_COMMIT (R397). -/
  | hwnByteCommit (b : Byte)
  /-- HWN_TRANSACTION_END (R395). -/
  | hwnTransactionEnd (unfinished : Bool)
  /-- HWN_DISABLE (R400). -/
  | hwnDisable (who : Nat) (v : Word)
  /-- HWN_ATTN_SET (R403). -/
  | hwnAttnSet (who : Nat) (v : Word)
  /-- OTP_PROG_OWNER (R406). -/
  | otpProgOwner (who : Nat) (v : Word)
  /-- OTP_REVOKE (R406). -/
  | otpRevoke (who : Nat) (v : Word)
  /-- OTP_BURN_OWNED (R406). -/
  | otpBurnOwned (who : Nat) (v : Word)
  /-- OTP_BURN_RETIRED (R406). -/
  | otpBurnRetired (who : Nat) (v : Word)
  /-- OTP_COMMAND_DONE (R406). -/
  | otpCommandDone (ok : Bool)
  /-- KEY_GENERATE (R415). -/
  | keyGenerate (who : Nat) (v : Word)
  /-- KEY_WRITE (R415). -/
  | keyWrite (who : Nat) (v : Word)
  /-- KEY_DERIVE (R415). -/
  | keyDerive (who : Nat) (v : Word)
  /-- KEY_DELETE (R415). -/
  | keyDelete (who : Nat) (v : Word)
  /-- KEY_SETATTR (R415). -/
  | keySetattr (who : Nat) (v : Word)
  /-- KEY_ATTEST (R417). -/
  | keyAttest (who : Nat) (v : Word)
  /-- KEY_SIGNID (R418). -/
  | keySignid (who : Nat) (v : Word)
  /-- KEY_REKEY (R408). -/
  | keyRekey (who : Nat) (v : Word)
  /-- KEY_COMMAND_DONE (R415). -/
  | keyCommandDone (err : Bool)
  /-- JOB_ECB_ENCRYPT (R421). -/
  | jobEcbEncrypt
  /-- JOB_ECB_DECRYPT (R421). -/
  | jobEcbDecrypt
  /-- JOB_CTR (R421). -/
  | jobCtr
  /-- JOB_CBC_MAC (R421). -/
  | jobCbcMac
  /-- JOB_CMAC_GENERATE (R421). -/
  | jobCmacGenerate
  /-- JOB_CMAC_VERIFY (R421). -/
  | jobCmacVerify
  /-- JOB_CCM_SEAL (R421). -/
  | jobCcmSeal
  /-- JOB_CCM_OPEN (R421). -/
  | jobCcmOpen
  /-- CIPHER_JOB_DONE (R422). -/
  | cipherJobDone
  /-- AES_CNT_READ (R431). -/
  | aesCntRead (who : Nat)
  /-- AES_AUTHFAIL_READ (R431). -/
  | aesAuthfailRead (who : Nat)
  /-- AES_MEMERR_READ (R431). -/
  | aesMemerrRead (who : Nat)
  /-- ALARM_SUPPLY_GLITCH (R424). -/
  | alarmSupplyGlitch (words : Nat)
  /-- ALARM_CLOCK_GLITCH (R424). -/
  | alarmClockGlitch (words : Nat)
  /-- ALARM_TEMPERATURE (R424). -/
  | alarmTemperature (words : Nat)
  /-- ALARM_TAMP (R424). -/
  | alarmTamp (words : Nat)
  /-- PKA_ECDSA_SIGN (R427). -/
  | pkaEcdsaSign (who : Nat)
  /-- PKA_ECDSA_VERIFY (R427). -/
  | pkaEcdsaVerify (who : Nat)
  /-- PKA_ECDH (R427). -/
  | pkaEcdh (who : Nat)
  /-- PKA_KEYGEN (R427). -/
  | pkaKeygen (who : Nat)
  /-- PKA_POINT_CHECK (R427). -/
  | pkaPointCheck (who : Nat)
  /-- PKA_X25519 (R427). -/
  | pkaX25519 (who : Nat)
  /-- PKA_DONE (R427). -/
  | pkaDone
  /-- HSH_INIT (R428). -/
  | hshInit (who : Nat) (v : Word)
  /-- HSH_FEED_MEMORY (R428). -/
  | hshFeedMemory (who : Nat)
  /-- HSH_FEED_LAST (R428). -/
  | hshFeedLast (who : Nat)
  /-- HSH_PUSHED_LAST (R428). -/
  | hshPushedLast (who : Nat)
  /-- HSH_DATA_PUSH (R428). -/
  | hshDataPush (who : Nat) (v : Word)
  /-- HSH_DONE (R428). -/
  | hshDone
  /-- RNG_RESTART (R429). -/
  | rngRestart (who : Nat)
  /-- RNG_RESEED (R429). -/
  | rngReseed (who : Nat)
  /-- RNG_DATA_READ (R432). -/
  | rngDataRead (who : Nat)
  /-- TRNG_STARTUP_DONE (R429). -/
  | trngStartupDone
  /-- TRNG_HEALTH_FAIL (R429). -/
  | trngHealthFail
  /-- POWER_REQUEST (R436). -/
  | powerRequest (who : Nat) (v : Word)
  /-- POWER_REQUEST_CANCEL (R436). -/
  | powerRequestCancel (who : Nat) (v : Word)
  /-- POWER_COMMIT (R437). -/
  | powerCommit (rest : Nat)
  /-- POWER_STATE_REACHED (R439). -/
  | powerStateReached
  /-- WAKE_EVENT (R443). -/
  | wakeEvent (b : Fin 13)
  /-- POWER_EXIT_COMPLETE (R440). -/
  | powerExitComplete
  /-- DOZE_ENTER (R435). -/
  | dozeEnter
  /-- DOZE_EXIT (R435). -/
  | dozeExit
  /-- AUTO_REST_RETURN (R441). -/
  | autoRestReturn
  /-- VBAT_CHECK (R447). -/
  | vbatCheck (mv : BitVec 12) (bkup : Nat)
  /-- BACKUP_SUPPLY_SWITCH (R448). -/
  | backupSupplySwitch (mv bkup : Nat)
  /-- BACKUP_RETENTION_TRIP (R448). -/
  | backupRetentionTrip
  /-- RTC_APPLY (R452). -/
  | rtcApply (who : Nat) (v : Word)
  /-- RTC_APPLY_TRANSFER (R452). -/
  | rtcApplyTransfer
  /-- RTC_APPLY_COMMIT (R452). -/
  | rtcApplyCommit
  /-- RTC_SUBSEC_READ (R451). -/
  | rtcSubsecRead (who : Nat)
  /-- RTC_ALARM (R453). -/
  | rtcAlarm (n : Fin 2)
  /-- RTC_TRIM_UPDATE (R454). -/
  | rtcTrimUpdate (temp : BitVec 16)
  /-- OSC_STOP_DETECT (R455). -/
  | oscStopDetect
  /-- OSC_RESTART (R455). -/
  | oscRestart
  /-- OSF_CLEAR (R455). -/
  | osfClear (who : Nat) (v : Word)
  /-- BLACKOUT_WAKE (R457). -/
  | blackoutWake (src : Fin 4)
  /-- SVC_PACKET_RECEIVE (R466). -/
  | svcPacketReceive (body : List Byte) (crcOk : Bool)
  /-- SVC_REPLY_DONE (R467). -/
  | svcReplyDone
  /-- SVC_RXFREE (R467). -/
  | svcRxfree (who : Nat) (v : Word)
  /-- SVC_RATE_REVERT (R468). -/
  | svcRateRevert
  /-- SVC_CNT_READ (R479). -/
  | svcCntRead (who : Nat)
  /-- SVC_HELLO (R468). -/
  | svcHello (seq : Byte) (payload : List Byte)
  /-- SVC_STATUS (R468). -/
  | svcStatus (seq : Byte) (payload : List Byte)
  /-- SVC_LOAD (R473). -/
  | svcLoad (seq : Byte) (payload : List Byte) (ok : Bool)
  /-- SVC_VERIFY (R474). -/
  | svcVerify (seq : Byte) (payload : List Byte)
  /-- SVC_ACTIVATE_LIVE (R475). -/
  | svcActivateLive (seq : Byte)
  /-- SVC_ACTIVATE_RESET (R475). -/
  | svcActivateReset (seq : Byte)
  /-- SVC_PROGRESS (R474). -/
  | svcProgress (seq : Byte) (payload : List Byte)
  /-- SVC_ABORT (R474). -/
  | svcAbort (seq : Byte) (payload : List Byte)
  /-- SVC_AUTH (R469). -/
  | svcAuth (seq : Byte) (payload : List Byte)
  /-- OWNER_LOCK (R469). -/
  | ownerLock (seq : Byte) (payload : List Byte)
  /-- OWNER_UNLOCK (R469). -/
  | ownerUnlock (seq : Byte) (payload : List Byte)
  /-- OWNER_SETMINVER (R469). -/
  | ownerSetminver (seq : Byte) (payload : List Byte)
  /-- OWNER_ADDKEY (R469). -/
  | ownerAddkey (seq : Byte) (payload : List Byte)
  /-- OWNER_REVOKE (R469). -/
  | ownerRevoke (seq : Byte) (payload : List Byte)
  /-- OWNER_BURN_OWNED (R469). -/
  | ownerBurnOwned (seq : Byte) (payload : List Byte)
  /-- OWNER_RETIRE (R469). -/
  | ownerRetire (seq : Byte) (payload : List Byte)
  /-- OWNER_DEBUG_UNLOCK (R469). -/
  | ownerDebugUnlock (seq : Byte) (payload : List Byte)
  /-- OWNER_RECOVERY_UNLOCK (R469). -/
  | ownerRecoveryUnlock (seq : Byte) (payload : List Byte)
  /-- SVC_DBGRD (R470). -/
  | svcDbgrd
  /-- SVC_DBGWR (R470). -/
  | svcDbgwr
  /-- ACTIVATE_DRAINED (R475). -/
  | activateDrained
  /-- ACTIVATE_DRAIN_TIMEOUT (R475). -/
  | activateDrainTimeout
  /-- SERVICE_READY (R476). -/
  | serviceReady
  /-- SERVICE_CONFIRM (R476). -/
  | serviceConfirm
  /-- READY_TIMEOUT (R476). -/
  | readyTimeout
  /-- HOLDOVER_TIMEOUT (R476). -/
  | holdoverTimeout
  /-- VCORE_REG (R482). -/
  | vcoreReg
  /-- HFXO_FAIL (R482). -/
  | hfxoFail
  /-- HFXO_RESTART_TRY (R482). -/
  | hfxoRestartTry (ok : Bool)
  /-- WATCHDOG_KICK (R483). -/
  | watchdogKick (who : Nat) (v : Word)
  /-- WATCHDOG_PRE_EXPIRY (R484). -/
  | watchdogPreExpiry (p : Fin 6)
  /-- WATCHDOG_EXPIRY (R484). -/
  | watchdogExpiry (p : Fin 6)
  /-- WARM_ENTRY_DONE (R485). -/
  | warmEntryDone
  /-- PLL_UNLOCK (R488). -/
  | pllUnlock (pll : Fin 3)
  /-- PLL_RELOCK (R488). -/
  | pllRelock (pll : Fin 3) (ok : Bool)
  /-- INJECT_ARM (R491). -/
  | injectArm (who : Nat) (v : Word)
  /-- CURTAIN_RECORD_CLEAR (R493). -/
  | curtainRecordClear (who : Nat) (v : Word)
  /-- CECNT0_READ (R493). -/
  | cecnt0Read (who : Nat)
  /-- CECNT1_READ (R493). -/
  | cecnt1Read (who : Nat)
  /-- DBG_HALT (R495). -/
  | dbgHalt (who : Nat) (v : Word)
  /-- DBG_STEP (R495). -/
  | dbgStep (who : Nat) (v : Word)
  /-- PIN_CONFIG_WRITE (R498). -/
  | pinConfigWrite (who : Nat) (n : Fin 48) (v : Word)
  /-- GPIO_OUTSET (R502). -/
  | gpioOutset (who : Nat) (p : Fin 2) (v : Word)
  /-- GPIO_OUTCLR (R502). -/
  | gpioOutclr (who : Nat) (p : Fin 2) (v : Word)
  /-- ANNOUNCED_WINDOW_CLOSE (R312). -/
  | announcedWindowClose
  /-- TWB_BUS_FREE (R381). -/
  | twbBusFree (k : Fin 5)
  /-- CSP_SLAVE_SELECT (R391). -/
  | cspSlaveSelect (k : Fin 2)
  /-- TIMER_BREAK_RELEASE (R369). -/
  | timerBreakRelease (x : Fin 2)
  /-- ALARM_CONDITION_END (R426). -/
  | alarmConditionEnd (src : Fin 4)
  /-- SVC_GAP_TIMEOUT (R466). -/
  | svcGapTimeout
  deriving DecidableEq, Repr

end Sys2Proof
end

