-- ==== Sys2Proof/Decode.lean ====
section
/-! DEFINITION. The words of commands.  The table of this block gives no row any bits (commands come from outside as register accesses,
packets, edges and events), so no word spells a command. -/
namespace Sys2Proof

/-- The command that a word of the table's bits spells: none. -/
def decodeTableWord (_nbits _w : Nat) : Option Instr := none

end Sys2Proof
end

