-- ==== Sys2Proof/Machine/Bits.lean ====
section
/-! DEFINITION. Bit fields, sign extension, byte order and saturating sums: the arithmetic helpers the meanings share. -/
namespace Sys2Proof.Machine

/-- Field [hi:lo] of a word as a number; the manual writes fields this way. -/
def bitsOf (v : Word) (hi lo : Nat) : Nat := (v.toNat >>> lo) % 2 ^ (hi + 1 - lo)

/-- The word with ones in [hi:lo]. -/
def maskOf (hi lo : Nat) : Word := BitVec.ofNat 32 ((2 ^ (hi + 1 - lo) - 1) <<< lo)

/-- The word with field [hi:lo] replaced by the low bits of `x`. -/
def withBits (v : Word) (hi lo x : Nat) : Word :=
  (v &&& ~~~ (maskOf hi lo)) ||| (BitVec.ofNat 32 (x <<< lo) &&& maskOf hi lo)

/-- One bit of a number as 0 or 1. -/
def natBit (b : Bool) : Nat := if b then 1 else 0

/-- Bit `i` of a number. -/
def testB (n i : Nat) : Bool := (n >>> i) % 2 == 1

/-- The signed value of the low `n` bits of `x`. -/
def sint (n x : Nat) : Int :=
  if x % 2 ^ n < 2 ^ (n - 1) then Int.ofNat (x % 2 ^ n) else Int.ofNat (x % 2 ^ n) - Int.ofNat (2 ^ n)

/-- The low `n` bits of a signed number, as a natural number. -/
def unsint (n : Nat) (i : Int) : Nat := (i % (Int.ofNat (2 ^ n))).toNat

/-- The low `n` bits of a number sign-extended to a word. -/
def sextW (n x : Nat) : Word := BitVec.ofInt 32 (sint n x)

/-- A sum that stops at `top` (the saturating counts of the register tables). -/
def satAdd (top a b : Nat) : Nat := if a + b ≤ top then a + b else top

/-- The nearer limit of a range, for the fields whose values outside act as the nearer limit. -/
def clamp (lo hi x : Nat) : Nat := if x < lo then lo else if hi < x then hi else x

/-- The nearer limit of a signed range. -/
def clampI (lo hi x : Int) : Int := if x < lo then lo else if hi < x then hi else x

/-- A value that acts as `d` when it is 0. -/
def orIfZero (d x : Nat) : Nat := if x = 0 then d else x

/-- Bytes to a number, the byte at the lowest address least significant (03 R63, little-endian). -/
def leNat : List Byte → Nat
  | [] => 0
  | b :: bs => b.toNat + 256 * leNat bs

/-- The `n` bytes of a number, least significant first. -/
def leBytes : Nat → Nat → List Byte
  | 0, _ => []
  | n + 1, v => BitVec.ofNat 8 v :: leBytes n (v / 256)

/-- Bytes to a number, most significant first. -/
def beNat (bs : List Byte) : Nat := bs.foldl (fun a b => a * 256 + b.toNat) 0

/-- The `n` bytes of a number, most significant first. -/
def beBytes (n v : Nat) : List Byte := (leBytes n v).reverse

/-- A 32-bit word from its bytes in memory order. -/
def leWord (bs : List Byte) : Word := BitVec.ofNat 32 (leNat bs)

/-- The numbers 0 to n − 1 for which `f` holds. -/
def below (n : Nat) (f : Nat → Bool) : List Nat := (List.range n).filter f

/-- The word whose bit i is `f i`, for i below `n`. -/
def packBits (n : Nat) (f : Nat → Bool) : Nat :=
  (List.range n).foldl (fun a i => if f i then a + 2 ^ i else a) 0

/-- How many ones a number has below bit `n`. -/
def onesBelow (n v : Nat) : Nat := (below n (testB v)).length

/-- The first element that has a property, with its position. -/
def firstIdx {α : Type} (p : α → Bool) : List α → Nat → Option (Nat × α)
  | [], _ => none
  | x :: xs, i => if p x then some (i, x) else firstIdx p xs (i + 1)

/-- A list with the element at one position changed. -/
def modAt {α : Type} (l : List α) (i : Nat) (f : α → α) : List α :=
  match l, i with
  | [], _ => []
  | x :: xs, 0 => f x :: xs
  | x :: xs, i + 1 => x :: modAt xs i f

/-- Adds a key to a list kept without repeats. -/
def addOnce {α : Type} [BEq α] (l : List α) (x : α) : List α := if l.contains x then l else l ++ [x]

end Sys2Proof.Machine
end

