-- ==== Sys2Proof/Machine/Aes.lean ====
section
/-! DEFINITION. AES and the modes of 17 R407, R410, R421 and R423: CMAC, the key derivation, CTR, CCM* and XTS.  The algorithms are
those of the standards the spec names (FIPS 197, SP 800-38B, SP 800-108, IEEE 802.15.4, IEEE 1619): log 36. -/
namespace Sys2Proof.Machine

/-- The substitution box of AES. -/
def sbox : List Byte :=
  [0x63, 0x7C, 0x77, 0x7B, 0xF2, 0x6B, 0x6F, 0xC5, 0x30, 0x01, 0x67, 0x2B, 0xFE, 0xD7, 0xAB, 0x76,
   0xCA, 0x82, 0xC9, 0x7D, 0xFA, 0x59, 0x47, 0xF0, 0xAD, 0xD4, 0xA2, 0xAF, 0x9C, 0xA4, 0x72, 0xC0] ++
  [0xB7, 0xFD, 0x93, 0x26, 0x36, 0x3F, 0xF7, 0xCC, 0x34, 0xA5, 0xE5, 0xF1, 0x71, 0xD8, 0x31, 0x15,
   0x04, 0xC7, 0x23, 0xC3, 0x18, 0x96, 0x05, 0x9A, 0x07, 0x12, 0x80, 0xE2, 0xEB, 0x27, 0xB2, 0x75] ++
  [0x09, 0x83, 0x2C, 0x1A, 0x1B, 0x6E, 0x5A, 0xA0, 0x52, 0x3B, 0xD6, 0xB3, 0x29, 0xE3, 0x2F, 0x84,
   0x53, 0xD1, 0x00, 0xED, 0x20, 0xFC, 0xB1, 0x5B, 0x6A, 0xCB, 0xBE, 0x39, 0x4A, 0x4C, 0x58, 0xCF] ++
  [0xD0, 0xEF, 0xAA, 0xFB, 0x43, 0x4D, 0x33, 0x85, 0x45, 0xF9, 0x02, 0x7F, 0x50, 0x3C, 0x9F, 0xA8,
   0x51, 0xA3, 0x40, 0x8F, 0x92, 0x9D, 0x38, 0xF5, 0xBC, 0xB6, 0xDA, 0x21, 0x10, 0xFF, 0xF3, 0xD2] ++
  [0xCD, 0x0C, 0x13, 0xEC, 0x5F, 0x97, 0x44, 0x17, 0xC4, 0xA7, 0x7E, 0x3D, 0x64, 0x5D, 0x19, 0x73,
   0x60, 0x81, 0x4F, 0xDC, 0x22, 0x2A, 0x90, 0x88, 0x46, 0xEE, 0xB8, 0x14, 0xDE, 0x5E, 0x0B, 0xDB] ++
  [0xE0, 0x32, 0x3A, 0x0A, 0x49, 0x06, 0x24, 0x5C, 0xC2, 0xD3, 0xAC, 0x62, 0x91, 0x95, 0xE4, 0x79,
   0xE7, 0xC8, 0x37, 0x6D, 0x8D, 0xD5, 0x4E, 0xA9, 0x6C, 0x56, 0xF4, 0xEA, 0x65, 0x7A, 0xAE, 0x08] ++
  [0xBA, 0x78, 0x25, 0x2E, 0x1C, 0xA6, 0xB4, 0xC6, 0xE8, 0xDD, 0x74, 0x1F, 0x4B, 0xBD, 0x8B, 0x8A,
   0x70, 0x3E, 0xB5, 0x66, 0x48, 0x03, 0xF6, 0x0E, 0x61, 0x35, 0x57, 0xB9, 0x86, 0xC1, 0x1D, 0x9E] ++
  [0xE1, 0xF8, 0x98, 0x11, 0x69, 0xD9, 0x8E, 0x94, 0x9B, 0x1E, 0x87, 0xE9, 0xCE, 0x55, 0x28, 0xDF,
   0x8C, 0xA1, 0x89, 0x0D, 0xBF, 0xE6, 0x42, 0x68, 0x41, 0x99, 0x2D, 0x0F, 0xB0, 0x54, 0xBB, 0x16]

/-- The inverse substitution box of AES. -/
def invSbox : List Byte :=
  [0x52, 0x09, 0x6A, 0xD5, 0x30, 0x36, 0xA5, 0x38, 0xBF, 0x40, 0xA3, 0x9E, 0x81, 0xF3, 0xD7, 0xFB,
   0x7C, 0xE3, 0x39, 0x82, 0x9B, 0x2F, 0xFF, 0x87, 0x34, 0x8E, 0x43, 0x44, 0xC4, 0xDE, 0xE9, 0xCB] ++
  [0x54, 0x7B, 0x94, 0x32, 0xA6, 0xC2, 0x23, 0x3D, 0xEE, 0x4C, 0x95, 0x0B, 0x42, 0xFA, 0xC3, 0x4E,
   0x08, 0x2E, 0xA1, 0x66, 0x28, 0xD9, 0x24, 0xB2, 0x76, 0x5B, 0xA2, 0x49, 0x6D, 0x8B, 0xD1, 0x25] ++
  [0x72, 0xF8, 0xF6, 0x64, 0x86, 0x68, 0x98, 0x16, 0xD4, 0xA4, 0x5C, 0xCC, 0x5D, 0x65, 0xB6, 0x92,
   0x6C, 0x70, 0x48, 0x50, 0xFD, 0xED, 0xB9, 0xDA, 0x5E, 0x15, 0x46, 0x57, 0xA7, 0x8D, 0x9D, 0x84] ++
  [0x90, 0xD8, 0xAB, 0x00, 0x8C, 0xBC, 0xD3, 0x0A, 0xF7, 0xE4, 0x58, 0x05, 0xB8, 0xB3, 0x45, 0x06,
   0xD0, 0x2C, 0x1E, 0x8F, 0xCA, 0x3F, 0x0F, 0x02, 0xC1, 0xAF, 0xBD, 0x03, 0x01, 0x13, 0x8A, 0x6B] ++
  [0x3A, 0x91, 0x11, 0x41, 0x4F, 0x67, 0xDC, 0xEA, 0x97, 0xF2, 0xCF, 0xCE, 0xF0, 0xB4, 0xE6, 0x73,
   0x96, 0xAC, 0x74, 0x22, 0xE7, 0xAD, 0x35, 0x85, 0xE2, 0xF9, 0x37, 0xE8, 0x1C, 0x75, 0xDF, 0x6E] ++
  [0x47, 0xF1, 0x1A, 0x71, 0x1D, 0x29, 0xC5, 0x89, 0x6F, 0xB7, 0x62, 0x0E, 0xAA, 0x18, 0xBE, 0x1B,
   0xFC, 0x56, 0x3E, 0x4B, 0xC6, 0xD2, 0x79, 0x20, 0x9A, 0xDB, 0xC0, 0xFE, 0x78, 0xCD, 0x5A, 0xF4] ++
  [0x1F, 0xDD, 0xA8, 0x33, 0x88, 0x07, 0xC7, 0x31, 0xB1, 0x12, 0x10, 0x59, 0x27, 0x80, 0xEC, 0x5F,
   0x60, 0x51, 0x7F, 0xA9, 0x19, 0xB5, 0x4A, 0x0D, 0x2D, 0xE5, 0x7A, 0x9F, 0x93, 0xC9, 0x9C, 0xEF] ++
  [0xA0, 0xE0, 0x3B, 0x4D, 0xAE, 0x2A, 0xF5, 0xB0, 0xC8, 0xEB, 0xBB, 0x3C, 0x83, 0x53, 0x99, 0x61,
   0x17, 0x2B, 0x04, 0x7E, 0xBA, 0x77, 0xD6, 0x26, 0xE1, 0x69, 0x14, 0x63, 0x55, 0x21, 0x0C, 0x7D]

/-- Multiplication by x in the field of AES. -/
def xtime (b : Byte) : Byte := (b <<< 1) ^^^ (if b.getLsbD 7 then 0x1B else 0)

/-- Multiplication by a small constant in the field of AES. -/
def gfMul (k : Nat) (b : Byte) : Byte :=
  let b2 := xtime b
  let b4 := xtime b2
  let b8 := xtime b4
  (if testB k 0 then b else 0) ^^^ (if testB k 1 then b2 else 0) ^^^ (if testB k 2 then b4 else 0) ^^^ (if testB k 3 then b8 else 0)

/-- Byte-wise exclusive or; the shorter list gives the length. -/
def xorBytes : List Byte → List Byte → List Byte
  | x :: xs, y :: ys => (x ^^^ y) :: xorBytes xs ys
  | _, _ => []

/-- One column of a MixColumns step with coefficients `a b c d`. -/
def mixColumn (a b c d : Nat) (col : List Byte) : List Byte :=
  let g := fun i => col.getD i 0
  [gfMul a (g 0) ^^^ gfMul b (g 1) ^^^ gfMul c (g 2) ^^^ gfMul d (g 3),
   gfMul d (g 0) ^^^ gfMul a (g 1) ^^^ gfMul b (g 2) ^^^ gfMul c (g 3),
   gfMul c (g 0) ^^^ gfMul d (g 1) ^^^ gfMul a (g 2) ^^^ gfMul b (g 3),
   gfMul b (g 0) ^^^ gfMul c (g 1) ^^^ gfMul d (g 2) ^^^ gfMul a (g 3)]

/-- MixColumns over a block. -/
def mixColumns (a b c d : Nat) (st : List Byte) : List Byte :=
  (List.range 4).flatMap (fun i => mixColumn a b c d ((st.drop (4 * i)).take 4))

/-- ShiftRows: row r of the block moves by r columns times `dir` (1 left, 3 right). -/
def shiftRows (dir : Nat) (st : List Byte) : List Byte :=
  (List.range 16).map (fun i => st.getD ((i + 4 * dir * (i % 4)) % 16) 0)

/-- A word of bytes through the substitution box. -/
def subBytes (box : List Byte) (w : List Byte) : List Byte := w.map (fun b => box.getD b.toNat 0)

/-- The words of the key schedule, newest first; `nk` is the number of key words, `i` the index of the next one. -/
def aesWords (nk : Nat) : Nat → Nat → Byte → List (List Byte) → List (List Byte)
  | 0, _, _, ws => ws
  | n + 1, i, rcon, ws =>
    let prev := ws.headD []
    let old := ws.getD (nk - 1) []
    if i % nk = 0 then
      let t := subBytes sbox (prev.drop 1 ++ prev.take 1)
      aesWords nk n (i + 1) (xtime rcon) (xorBytes old (xorBytes t [rcon, 0, 0, 0]) :: ws)
    else if 6 < nk ∧ i % nk = 4 then aesWords nk n (i + 1) rcon (xorBytes old (subBytes sbox prev) :: ws)
    else aesWords nk n (i + 1) rcon (xorBytes old prev :: ws)

/-- The round keys of a key of 16 or 32 bytes. -/
def aesKeys (key : List Byte) : List (List Byte) :=
  let nk := key.length / 4
  let first := ((List.range nk).map (fun i => (key.drop (4 * i)).take 4)).reverse
  let ws := (aesWords nk (4 * (nk + 7) - nk) nk 1 first).reverse
  (List.range (nk + 7)).map (fun r => ((ws.drop (4 * r)).take 4).flatten)

/-- The rounds of an encryption after the first round key. -/
def aesRounds : List (List Byte) → List Byte → List Byte
  | [], st => st
  | [k], st => xorBytes (shiftRows 1 (subBytes sbox st)) k
  | k :: ks, st => aesRounds ks (xorBytes (mixColumns 2 3 1 1 (shiftRows 1 (subBytes sbox st))) k)

/-- Encryption of one block under expanded round keys. -/
def aesEncWith (ks : List (List Byte)) (blk : List Byte) : List Byte := aesRounds (ks.drop 1) (xorBytes blk (ks.headD []))

/-- Encryption of one block. -/
def aesEnc (key blk : List Byte) : List Byte := aesEncWith (aesKeys key) blk

/-- The rounds of a decryption, over the round keys in reverse order. -/
def aesInvRounds : List (List Byte) → List Byte → List Byte
  | [], st => st
  | [k], st => xorBytes (subBytes invSbox (shiftRows 3 st)) k
  | k :: ks, st => aesInvRounds ks (mixColumns 14 11 13 9 (xorBytes (subBytes invSbox (shiftRows 3 st)) k))

/-- Decryption of one block. -/
def aesDec (key blk : List Byte) : List Byte :=
  let ks := (aesKeys key).reverse
  aesInvRounds (ks.drop 1) (xorBytes blk (ks.headD []))

/-- A list cut into blocks of 16 bytes, the last one as it is. -/
def blocks (bs : List Byte) : List (List Byte) := (List.range ((bs.length + 15) / 16)).map (fun i => (bs.drop (16 * i)).take 16)

/-- A list filled with zeros to a multiple of 16 bytes. -/
def padZero (bs : List Byte) : List Byte := bs ++ List.replicate ((16 - bs.length % 16) % 16) 0

/-- CBC-MAC over whole blocks, from an initial value. -/
def cbcMac (key iv bs : List Byte) : List Byte := (blocks bs).foldl (fun c b => aesEnc key (xorBytes c b)) iv

/-- Doubling in the field of CMAC, most significant bit first. -/
def cmacDouble (b : List Byte) : List Byte :=
  let n := beNat b
  let d := n * 2 % 2 ^ 128
  beBytes 16 (if 2 ^ 127 ≤ n then d ^^^ 0x87 else d)

/-- CMAC (SP 800-38B). -/
def cmac (key m : List Byte) : List Byte :=
  let k1 := cmacDouble (aesEnc key (List.replicate 16 0))
  let n := (m.length - 1) / 16
  let last := m.drop (16 * n)
  let fin := if last.length = 16 then xorBytes last k1 else xorBytes (padZero (last ++ [0x80])) (cmacDouble k1)
  aesEnc key (xorBytes (cbcMac key (List.replicate 16 0) (m.take (16 * n))) fin)

/-- 17 R407: the key derivation; `len` is L in bits. -/
def kdf (key : List Byte) (lbl : Nat) (ctx : List Byte) (len : Nat) : List Byte :=
  (List.range (len / 128)).flatMap (fun i => cmac key ([BitVec.ofNat 8 (i + 1)] ++ beBytes 2 lbl ++ [0] ++ ctx ++ beBytes 2 len))

/-- Counter block `i` after an initial one: its last four bytes count modulo 2^32 (17 R421). -/
def ctrBlock (iv : List Byte) (i : Nat) : List Byte := iv.take 12 ++ beBytes 4 ((beNat (iv.drop 12) + i) % 2 ^ 32)

/-- CTR over any number of bytes. -/
def ctrCrypt (key iv bs : List Byte) : List Byte :=
  let ks := aesKeys key
  (List.range ((bs.length + 15) / 16)).flatMap (fun i => xorBytes ((bs.drop (16 * i)).take 16) (aesEncWith ks (ctrBlock iv i)))

/-- 17 R421: the tag of CCM* before its encryption, over associated data and plaintext. -/
def ccmAuth (key nonce aad p : List Byte) (m : Nat) : List Byte :=
  let fl := (if aad.isEmpty then 0 else 64) + 8 * ((m - 2) / 2) + 1
  let b0 := [BitVec.ofNat 8 fl] ++ nonce ++ beBytes 2 p.length
  let a := if aad.isEmpty then [] else padZero (beBytes 2 aad.length ++ aad)
  cbcMac key (List.replicate 16 0) (b0 ++ a ++ padZero p)

/-- Counter block `i` of CCM*. -/
def ccmCtr (nonce : List Byte) (i : Nat) : List Byte := [1] ++ nonce ++ beBytes 2 i

/-- The keystream of CCM* over data, from counter 1. -/
def ccmCrypt (key nonce bs : List Byte) : List Byte :=
  let ks := aesKeys key
  (List.range ((bs.length + 15) / 16)).flatMap (fun i => xorBytes ((bs.drop (16 * i)).take 16) (aesEncWith ks (ccmCtr nonce (i + 1))))

/-- The encrypted tag of CCM*, `m` bytes. -/
def ccmTag (key nonce aad p : List Byte) (m : Nat) : List Byte :=
  (xorBytes (ccmAuth key nonce aad p m) (aesEnc key (ccmCtr nonce 0))).take m

/-- Multiplication of an XTS tweak by α. -/
def xtsDouble (t : Nat) : Nat :=
  let d := t * 2 % 2 ^ 128
  if 2 ^ 127 ≤ t then d ^^^ 0x87 else d

/-- 17 R423: XTS over one 64-byte data unit; `f` is the block cipher under key 1, `tw` the tweak of the next block. -/
def xtsBlocks (f : List Byte → List Byte) : List (List Byte) → Nat → List Byte
  | [], _ => []
  | b :: bs, tw => xorBytes (f (xorBytes b (leBytes 16 tw))) (leBytes 16 tw) ++ xtsBlocks f bs (xtsDouble tw)

/-- Encrypts data unit `n` under a key of 64 bytes. -/
def xtsEnc (key : List Byte) (n : Nat) (bs : List Byte) : List Byte :=
  xtsBlocks (aesEnc (key.take 32)) (blocks bs) (leNat (aesEnc (key.drop 32) (leBytes 16 n)))

/-- Decrypts data unit `n`. -/
def xtsDec (key : List Byte) (n : Nat) (bs : List Byte) : List Byte :=
  xtsBlocks (aesDec (key.take 32)) (blocks bs) (leNat (aesEnc (key.drop 32) (leBytes 16 n)))

end Sys2Proof.Machine
end

