-- ==== Sys2Proof/Machine/Crc.lean ====
section
/-! DEFINITION. The cyclic redundancy checks the formats name: CRC-32 of IEEE 802.3 (04 R101), and the general bitwise forms the
radio formats use. -/
namespace Sys2Proof.Machine

/-- One bit of the reflected CRC-32. -/
def crc32Bit (c : Nat) : Nat := if c % 2 = 1 then (c / 2) ^^^ 0xEDB88320 else c / 2

/-- One byte of the reflected CRC-32. -/
def crc32Byte (c : Nat) (b : Byte) : Nat :=
  let c := c ^^^ b.toNat
  crc32Bit (crc32Bit (crc32Bit (crc32Bit (crc32Bit (crc32Bit (crc32Bit (crc32Bit c)))))))

/-- CRC-32 (IEEE 802.3): reflected polynomial 0xEDB88320, start and final inversion (the standard 04 R101 names; log 8). -/
def crc32 (bs : List Byte) : Nat := (bs.foldl crc32Byte 0xFFFFFFFF) ^^^ 0xFFFFFFFF

/-- One bit of a CRC of width `w`, most significant bit first. -/
def crcMsbBit (w poly c : Nat) (b : Bool) : Nat :=
  let t := testB c (w - 1) != b
  let c := c * 2 % 2 ^ w
  if t then c ^^^ poly else c

/-- A CRC of width `w` over bits, most significant first, without reflection. -/
def crcBits (w poly init : Nat) (bits : List Bool) : Nat := bits.foldl (crcMsbBit w poly) init

/-- The bits of a byte, most significant first. -/
def msbBits (b : Byte) : List Bool := (List.range 8).map (fun i => testB b.toNat (7 - i))

/-- The bits of a byte, least significant first. -/
def lsbBits (b : Byte) : List Bool := (List.range 8).map (fun i => testB b.toNat i)

/-- The number a list of bits spells, most significant first. -/
def msbNat (bits : List Bool) : Nat := bits.foldl (fun a b => 2 * a + natBit b) 0

/-- 07 R164: the 64 bytes of the erase-complete marker of a sector with an erase count. -/
def eraseMarker (sector count : Nat) : List Byte :=
  let body := leBytes 4 0x45524D4B ++ leBytes 2 sector ++ leBytes 2 0 ++ leBytes 4 count ++ List.replicate 48 0
  body ++ leBytes 4 (crc32 body)

end Sys2Proof.Machine
end

