-- ==== Sys2Proof/Machine/Regs.lean ====
section
/-! DEFINITION. The addresses of the registers, one name each (01 R22 for the bases, 00 R9 for the strides; the
rule in each docstring for the offset).  Array registers take their index. -/
namespace Sys2Proof
namespace Reg

/-- R106: `SYS.ID`, RO. -/
abbrev SYS.ID : Nat := 0x30000000
/-- R106: `SYS.PHASE`, RWT. -/
abbrev SYS.PHASE : Nat := 0x30000004
/-- R106: `SYS.RSTCAUSE`, W1C. -/
abbrev SYS.RSTCAUSE : Nat := 0x30000008
/-- R106: `SYS.LIFECYCLE`, RO. -/
abbrev SYS.LIFECYCLE : Nat := 0x3000000C
/-- R106: `SYS.BOOTSEL`, RWT. -/
abbrev SYS.BOOTSEL : Nat := 0x30000010
/-- R106: `SYS.EPOCHA`, RO. -/
abbrev SYS.EPOCHA : Nat := 0x30000014
/-- R106: `SYS.EPOCHB`, RO. -/
abbrev SYS.EPOCHB : Nat := 0x30000018
/-- R106: `SYS.HEALTH`, RWT. -/
abbrev SYS.HEALTH : Nat := 0x3000001C
/-- R106: `SYS.HEALTHDL`, RWT. -/
abbrev SYS.HEALTHDL : Nat := 0x30000020
/-- R106: `SYS.SWRST`, RWT. -/
abbrev SYS.SWRST : Nat := 0x30000024
/-- R106: `SYS.PLAYHOLD`, RWT. -/
abbrev SYS.PLAYHOLD : Nat := 0x30000028
/-- R106: `SYS.LSTEP`, RO. -/
abbrev SYS.LSTEP : Nat := 0x3000002C
/-- R106: `SYS.ENTRY`, RWT. -/
abbrev SYS.ENTRY (n : Nat) : Nat := 0x30000040 + 4 * n
/-- R459: `PWR.REQ`, RWT. -/
abbrev PWR.REQ : Nat := 0x30001000
/-- R459: `PWR.STATUS`, RO. -/
abbrev PWR.STATUS : Nat := 0x30001004
/-- R459: `PWR.CFG`, RWT. -/
abbrev PWR.CFG : Nat := 0x30001008
/-- R459: `PWR.WAKEEN`, RWT. -/
abbrev PWR.WAKEEN : Nat := 0x3000100C
/-- R459: `PWR.WAKETO`, RWT. -/
abbrev PWR.WAKETO : Nat := 0x30001010
/-- R459: `PWR.WAKESTAT`, W1C. -/
abbrev PWR.WAKESTAT : Nat := 0x30001014
/-- R459: `PWR.LASTWAKE`, RO. -/
abbrev PWR.LASTWAKE : Nat := 0x30001018
/-- R459: `PWR.RESUME`, RWT. -/
abbrev PWR.RESUME : Nat := 0x3000101C
/-- R459: `PWR.VBAT`, RO. -/
abbrev PWR.VBAT : Nat := 0x30001020
/-- R459: `PWR.VBATWARN`, RWT. -/
abbrev PWR.VBATWARN : Nat := 0x30001024
/-- R459: `PWR.BANKSTAT`, RO. -/
abbrev PWR.BANKSTAT : Nat := 0x30001028
/-- R459: `PWR.EVT`, W1C. -/
abbrev PWR.EVT : Nat := 0x3000102C
/-- R459: `PWR.IEN`, RWT. -/
abbrev PWR.IEN : Nat := 0x30001030
/-- R15: `CLK.STATUS`, RO. -/
abbrev CLK.STATUS : Nat := 0x30002000
/-- R15: `CLK.APPDIV`, RWT. -/
abbrev CLK.APPDIV : Nat := 0x30002004
/-- R15: `CLK.VCORE`, RO. -/
abbrev CLK.VCORE : Nat := 0x30002008
/-- R15: `CLK.OUTSEL`, RW. -/
abbrev CLK.OUTSEL : Nat := 0x3000200C
/-- R15: `CLK.RCCAL`, RO. -/
abbrev CLK.RCCAL : Nat := 0x30002010
/-- R461: `RTC.STATUS`, RO, W1C. -/
abbrev RTC.STATUS : Nat := 0x30003000
/-- R461: `RTC.SUBSEC`, RO. -/
abbrev RTC.SUBSEC : Nat := 0x30003004
/-- R461: `RTC.SECLO`, RO. -/
abbrev RTC.SECLO : Nat := 0x30003008
/-- R461: `RTC.SECHI`, RO. -/
abbrev RTC.SECHI : Nat := 0x3000300C
/-- R461: `RTC.CALDATE`, RO. -/
abbrev RTC.CALDATE : Nat := 0x30003010
/-- R461: `RTC.CALTIME`, RO. -/
abbrev RTC.CALTIME : Nat := 0x30003014
/-- R461: `RTC.SETSUB`, RWT. -/
abbrev RTC.SETSUB : Nat := 0x30003018
/-- R461: `RTC.SETSECLO`, RWT. -/
abbrev RTC.SETSECLO : Nat := 0x3000301C
/-- R461: `RTC.SETSECHI`, RWT. -/
abbrev RTC.SETSECHI : Nat := 0x30003020
/-- R461: `RTC.CMD`, WO. -/
abbrev RTC.CMD : Nat := 0x30003024
/-- R461: `RTC.TRIM`, RWT. -/
abbrev RTC.TRIM : Nat := 0x30003028
/-- R461: `RTC.CAPSTEP`, RO. -/
abbrev RTC.CAPSTEP : Nat := 0x3000302C
/-- R461: `RTC.TEMP`, RO. -/
abbrev RTC.TEMP : Nat := 0x30003030
/-- R461: `RTC.ALMLO`, RWT. -/
abbrev RTC.ALMLO (n : Nat) : Nat := 0x30003040 + 0x10 * n
/-- R461: `RTC.ALMHI`, RWT. -/
abbrev RTC.ALMHI (n : Nat) : Nat := 0x30003044 + 0x10 * n
/-- R461: `RTC.ALMCFG`, RWT. -/
abbrev RTC.ALMCFG (n : Nat) : Nat := 0x30003048 + 0x10 * n
/-- R461: `RTC.EVT`, W1C. -/
abbrev RTC.EVT : Nat := 0x30003060
/-- R461: `RTC.IEN`, RW. -/
abbrev RTC.IEN : Nat := 0x30003064
/-- R461: `RTC.PWRON`, RWT. -/
abbrev RTC.PWRON : Nat := 0x30003068
/-- R461: `RTC.WAKECFG`, RWT. -/
abbrev RTC.WAKECFG : Nat := 0x3000306C
/-- R461: `RTC.TTAB`, RWT. -/
abbrev RTC.TTAB (i : Nat) : Nat := 0x30003080 + 4 * i
/-- R461: `RTC.BKUP`, RW (n < 16), RWT (n ≥ 16). -/
abbrev RTC.BKUP (n : Nat) : Nat := 0x30003100 + 4 * n
/-- R493: `FLT.CTRL`, RWT. -/
abbrev FLT.CTRL : Nat := 0x30004000
/-- R493: `FLT.LOGHEAD`, RO. -/
abbrev FLT.LOGHEAD : Nat := 0x30004004
/-- R493: `FLT.EVT`, W1C. -/
abbrev FLT.EVT : Nat := 0x30004008
/-- R493: `FLT.IEN`, RWT. -/
abbrev FLT.IEN : Nat := 0x3000400C
/-- R493: `FLT.CECNT0`, RC. -/
abbrev FLT.CECNT0 : Nat := 0x30004010
/-- R493: `FLT.CECNT1`, RC. -/
abbrev FLT.CECNT1 : Nat := 0x30004014
/-- R493: `FLT.CURT0`, RO. -/
abbrev FLT.CURT0 : Nat := 0x30004020
/-- R493: `FLT.CURT1`, RO. -/
abbrev FLT.CURT1 : Nat := 0x30004024
/-- R493: `FLT.CURTCNT`, RO, WO. -/
abbrev FLT.CURTCNT : Nat := 0x30004028
/-- R493: `FLT.WDCFG`, RWT. -/
abbrev FLT.WDCFG (p : Nat) : Nat := 0x30004040 + 8 * p
/-- R493: `FLT.WDSTAT`, RO, W1C. -/
abbrev FLT.WDSTAT (p : Nat) : Nat := 0x30004044 + 8 * p
/-- R493: `FLT.WDKICK`, WO. -/
abbrev FLT.WDKICK : Nat := 0x30004070
/-- R493: `FLT.ESC`, RWT. -/
abbrev FLT.ESC : Nat := 0x30004074
/-- R493: `FLT.MIRCFG`, RWT. -/
abbrev FLT.MIRCFG (k : Nat) : Nat := 0x30004080 + 8 * k
/-- R493: `FLT.MIRADDR`, RWT. -/
abbrev FLT.MIRADDR (k : Nat) : Nat := 0x30004084 + 8 * k
/-- R493: `FLT.INJCTRL`, RWT. -/
abbrev FLT.INJCTRL : Nat := 0x30004100
/-- R493: `FLT.INJADDR`, RWT. -/
abbrev FLT.INJADDR : Nat := 0x30004104
/-- R493: `FLT.LOG`, RO. -/
abbrev FLT.LOG (i w : Nat) : Nat := 0x30004400 + 0x10 * i + 4 * w
/-- R430: `KEY.STATUS`, RO. -/
abbrev KEY.STATUS : Nat := 0x30005000
/-- R430: `KEY.CMD`, WO. -/
abbrev KEY.CMD : Nat := 0x30005004
/-- R430: `KEY.ARG0`, RW. -/
abbrev KEY.ARG0 : Nat := 0x30005008
/-- R430: `KEY.ARG1`, RW. -/
abbrev KEY.ARG1 : Nat := 0x3000500C
/-- R430: `KEY.ARG2`, RW. -/
abbrev KEY.ARG2 : Nat := 0x30005010
/-- R430: `KEY.CTX0`, RW. -/
abbrev KEY.CTX0 : Nat := 0x30005014
/-- R430: `KEY.CTX1`, RW. -/
abbrev KEY.CTX1 : Nat := 0x30005018
/-- R430: `KEY.ADDR`, RW. -/
abbrev KEY.ADDR : Nat := 0x3000501C
/-- R430: `KEY.WDATA`, WO. -/
abbrev KEY.WDATA (i : Nat) : Nat := 0x30005020 + 4 * i
/-- R430: `KEY.SLOTUSE`, RO. -/
abbrev KEY.SLOTUSE : Nat := 0x30005040
/-- R430: `KEY.SLOTBAD`, RO. -/
abbrev KEY.SLOTBAD : Nat := 0x30005044
/-- R430: `KEY.ALARM`, Mixed. -/
abbrev KEY.ALARM : Nat := 0x30005050
/-- R430: `KEY.IDPUB`, RO. -/
abbrev KEY.IDPUB (i : Nat) : Nat := 0x30005060 + 4 * i
/-- R430: `KEY.OWNERSTAT`, RO. -/
abbrev KEY.OWNERSTAT : Nat := 0x300050A0
/-- R430: `KEY.OTPCMD`, WO. -/
abbrev KEY.OTPCMD : Nat := 0x300050A4
/-- R430: `KEY.OTPSTAT`, RO. -/
abbrev KEY.OTPSTAT : Nat := 0x300050A8
/-- R430: `KEY.OWNERDATA`, RW. -/
abbrev KEY.OWNERDATA (i : Nat) : Nat := 0x300050C0 + 4 * i
/-- R430: `KEY.OTPADDR`, RW. -/
abbrev KEY.OTPADDR : Nat := 0x30005100
/-- R430: `KEY.OTPDATA`, RO. -/
abbrev KEY.OTPDATA : Nat := 0x30005104
/-- R431: `AES.CTRL`, RW. -/
abbrev AES.CTRL : Nat := 0x30006000
/-- R431: `AES.STATUS`, RO. -/
abbrev AES.STATUS : Nat := 0x30006004
/-- R431: `AES.CUR`, RO. -/
abbrev AES.CUR : Nat := 0x30006008
/-- R431: `AES.CNT`, RC. -/
abbrev AES.CNT : Nat := 0x3000600C
/-- R431: `AES.AUTHFAIL`, RC. -/
abbrev AES.AUTHFAIL : Nat := 0x30006010
/-- R431: `AES.MEMERR`, RC. -/
abbrev AES.MEMERR : Nat := 0x30006014
/-- R431: `AES.EVT`, W1C. -/
abbrev AES.EVT : Nat := 0x30006018
/-- R431: `AES.IEN`, RW. -/
abbrev AES.IEN : Nat := 0x3000601C
/-- R432: `PKA.CMD`, WO. -/
abbrev PKA.CMD : Nat := 0x30007000
/-- R432: `PKA.STATUS`, RO. -/
abbrev PKA.STATUS : Nat := 0x30007004
/-- R432: `PKA.EVT`, W1C. -/
abbrev PKA.EVT : Nat := 0x30007008
/-- R432: `PKA.IEN`, RW. -/
abbrev PKA.IEN : Nat := 0x3000700C
/-- R432: `PKA.RAM`, RW. -/
abbrev PKA.RAM (i : Nat) : Nat := 0x30007400 + 4 * i
/-- R432: `HSH.CTRL`, RW. -/
abbrev HSH.CTRL : Nat := 0x30008000
/-- R432: `HSH.SRC`, RW. -/
abbrev HSH.SRC : Nat := 0x30008004
/-- R432: `HSH.LEN`, RW. -/
abbrev HSH.LEN : Nat := 0x30008008
/-- R432: `HSH.GO`, WO. -/
abbrev HSH.GO : Nat := 0x3000800C
/-- R432: `HSH.DATA`, WO. -/
abbrev HSH.DATA : Nat := 0x30008010
/-- R432: `HSH.STATUS`, RO. -/
abbrev HSH.STATUS : Nat := 0x30008014
/-- R432: `HSH.DIGEST`, RO. -/
abbrev HSH.DIGEST (i : Nat) : Nat := 0x30008040 + 4 * i
/-- R432: `RNG.CTRL`, RW. -/
abbrev RNG.CTRL : Nat := 0x30009000
/-- R432: `RNG.STATUS`, RO. -/
abbrev RNG.STATUS : Nat := 0x30009004
/-- R432: `RNG.DATA`, RC. -/
abbrev RNG.DATA : Nat := 0x30009008
/-- R432: `RNG.EVT`, W1C. -/
abbrev RNG.EVT : Nat := 0x3000900C
/-- R189: `FLC.CTRL`, RWT. -/
abbrev FLC.CTRL : Nat := 0x3000A000
/-- R189: `FLC.STATUS`, RO. -/
abbrev FLC.STATUS : Nat := 0x3000A004
/-- R189: `FLC.SUSPLIM`, RWT. -/
abbrev FLC.SUSPLIM : Nat := 0x3000A008
/-- R189: `FLC.SUSPCFG`, RWT. -/
abbrev FLC.SUSPCFG : Nat := 0x3000A00C
/-- R189: `FLC.CUR`, RO. -/
abbrev FLC.CUR : Nat := 0x3000A010
/-- R189: `FLC.SUSPDESC`, RO. -/
abbrev FLC.SUSPDESC : Nat := 0x3000A014
/-- R189: `FLC.ERR`, W1C. -/
abbrev FLC.ERR : Nat := 0x3000A018
/-- R189: `FLC.ECCCNT`, RC. -/
abbrev FLC.ECCCNT : Nat := 0x3000A01C
/-- R189: `FLC.ECCADDR`, RO. -/
abbrev FLC.ECCADDR : Nat := 0x3000A020
/-- R189: `FLC.STALLMAX`, RC. -/
abbrev FLC.STALLMAX : Nat := 0x3000A024
/-- R189: `FLC.BKSLOT`, RWT. -/
abbrev FLC.BKSLOT : Nat := 0x3000A028
/-- R189: `FLC.UNSETTLED`, RWT. -/
abbrev FLC.UNSETTLED (n : Nat) : Nat := 0x3000A040 + 4 * n
/-- R190: `MRC.CTRL`, RWT. -/
abbrev MRC.CTRL : Nat := 0x3000B000
/-- R190: `MRC.STATUS`, RO. -/
abbrev MRC.STATUS : Nat := 0x3000B004
/-- R190: `MRC.JHEAD`, RWT. -/
abbrev MRC.JHEAD : Nat := 0x3000B008
/-- R190: `MRC.JSEQ`, RWT. -/
abbrev MRC.JSEQ : Nat := 0x3000B00C
/-- R190: `MRC.ECCCNT`, RC. -/
abbrev MRC.ECCCNT : Nat := 0x3000B010
/-- R190: `MRC.ECCADDR`, RO. -/
abbrev MRC.ECCADDR : Nat := 0x3000B014
/-- R190: `MRC.JLIVE`, RWT. -/
abbrev MRC.JLIVE (n : Nat) : Nat := 0x3000B040 + 4 * n
/-- R161: `DMC.CTRL`, RWT. -/
abbrev DMC.CTRL : Nat := 0x3000C000
/-- R161: `DMC.STATUS`, RO. -/
abbrev DMC.STATUS : Nat := 0x3000C004
/-- R161: `DMC.ADDRMAP`, RWT. -/
abbrev DMC.ADDRMAP : Nat := 0x3000C008
/-- R161: `DMC.PAGETMR`, RWT. -/
abbrev DMC.PAGETMR (n : Nat) : Nat := 0x3000C010 + 4 * n
/-- R161: `DMC.REFCFG`, RWT. -/
abbrev DMC.REFCFG : Nat := 0x3000C020
/-- R161: `DMC.REFSTAT`, RO. -/
abbrev DMC.REFSTAT : Nat := 0x3000C024
/-- R161: `DMC.CECOUNT`, RC. -/
abbrev DMC.CECOUNT : Nat := 0x3000C030
/-- R161: `DMC.CEADDR`, RO. -/
abbrev DMC.CEADDR : Nat := 0x3000C034
/-- R161: `DMC.SCRUB`, RWT. -/
abbrev DMC.SCRUB : Nat := 0x3000C038
/-- R161: `DMC.POISONQ`, RC. -/
abbrev DMC.POISONQ : Nat := 0x3000C03C
/-- R161: `DMC.FREEZE`, RO, WO. -/
abbrev DMC.FREEZE : Nat := 0x3000C040
/-- R161: `DMC.FRZADDR`, RO. -/
abbrev DMC.FRZADDR : Nat := 0x3000C044
/-- R161: `DMC.FRZCMD`, RO. -/
abbrev DMC.FRZCMD : Nat := 0x3000C048
/-- R161: `DMC.FRZSYN`, RO. -/
abbrev DMC.FRZSYN : Nat := 0x3000C04C
/-- R161: `DMC.FRZDLO`, RO. -/
abbrev DMC.FRZDLO : Nat := 0x3000C050
/-- R161: `DMC.FRZDHI`, RO. -/
abbrev DMC.FRZDHI : Nat := 0x3000C054
/-- R161: `DMC.DIAGADDR`, RWT. -/
abbrev DMC.DIAGADDR : Nat := 0x3000C060
/-- R161: `DMC.DIAGCTRL`, RWT. -/
abbrev DMC.DIAGCTRL : Nat := 0x3000C064
/-- R161: `DMC.DIAGDLO`, RWT. -/
abbrev DMC.DIAGDLO : Nat := 0x3000C068
/-- R161: `DMC.DIAGDHI`, RWT. -/
abbrev DMC.DIAGDHI : Nat := 0x3000C06C
/-- R161: `DMC.DIAGCHK`, RWT. -/
abbrev DMC.DIAGCHK : Nat := 0x3000C070
/-- R161: `DMC.SRMASK`, RWT. -/
abbrev DMC.SRMASK : Nat := 0x3000C080
/-- R161: `DMC.TRACK`, RWT. -/
abbrev DMC.TRACK : Nat := 0x3000C084
/-- R161: `DMC.TRAIN`, RO. -/
abbrev DMC.TRAIN : Nat := 0x3000C088
/-- R161: `DMC.FILLPTR`, RO. -/
abbrev DMC.FILLPTR : Nat := 0x3000C08C
/-- R136: `STG.CTRL`, RWT. -/
abbrev STG.CTRL : Nat := 0x3000D000
/-- R136: `STG.STATUS`, RO, W1C. -/
abbrev STG.STATUS : Nat := 0x3000D004
/-- R136: `STG.PTBASE`, RWT. -/
abbrev STG.PTBASE : Nat := 0x3000D008
/-- R136: `STG.EPOCH`, RO. -/
abbrev STG.EPOCH : Nat := 0x3000D00C
/-- R136: `STG.MIGCFG`, RWT. -/
abbrev STG.MIGCFG : Nat := 0x3000D010
/-- R136: `STG.PROMOTE`, RWT. -/
abbrev STG.PROMOTE : Nat := 0x3000D014
/-- R136: `STG.SRBREAK`, RWT. -/
abbrev STG.SRBREAK : Nat := 0x3000D018
/-- R136: `STG.MAXRESTART`, RWT. -/
abbrev STG.MAXRESTART : Nat := 0x3000D01C
/-- R136: `STG.TIERFREE`, RO. -/
abbrev STG.TIERFREE (k : Nat) : Nat := 0x3000D020 + 4 * k
/-- R136: `STG.TIERLOW`, RWT. -/
abbrev STG.TIERLOW (k : Nat) : Nat := 0x3000D040 + 4 * k
/-- R136: `STG.TCMPAGES`, RWT. -/
abbrev STG.TCMPAGES : Nat := 0x3000D060
/-- R136: `STG.T2PAGES`, RWT. -/
abbrev STG.T2PAGES : Nat := 0x3000D064
/-- R136: `STG.T4PAGES`, RWT. -/
abbrev STG.T4PAGES : Nat := 0x3000D068
/-- R136: `STG.MIGSRC`, RWT. -/
abbrev STG.MIGSRC (c : Nat) : Nat := 0x3000D080 + 0x10 * c
/-- R136: `STG.MIGDST`, RWT. -/
abbrev STG.MIGDST (c : Nat) : Nat := 0x3000D084 + 0x10 * c
/-- R136: `STG.MIGCTRL`, RWT. -/
abbrev STG.MIGCTRL (c : Nat) : Nat := 0x3000D088 + 0x10 * c
/-- R136: `STG.MIGSTAT`, RO. -/
abbrev STG.MIGSTAT (c : Nat) : Nat := 0x3000D08C + 0x10 * c
/-- R136: `STG.RUN`, RO, RC. -/
abbrev STG.RUN (n : Nat) : Nat := 0x3000D100 + 4 * n
/-- R136: `STG.WHERE`, RO. -/
abbrev STG.WHERE : Nat := 0x3000D140
/-- R136: `STG.TRIG`, RWT. -/
abbrev STG.TRIG (k : Nat) : Nat := 0x3000D200 + 8 * k
/-- R136: `STG.TRIGQ`, RWT. -/
abbrev STG.TRIGQ (k : Nat) : Nat := 0x3000D204 + 8 * k
/-- R136: `STG.ACL`, RWT. -/
abbrev STG.ACL (k : Nat) : Nat := 0x3000D300 + 4 * k
/-- R131: `QUE.QBASE`, RWT. -/
abbrev QUE.QBASE (n : Nat) : Nat := 0x30010000 + 0x20 * n
/-- R131: `QUE.QCFG`, RWT. -/
abbrev QUE.QCFG (n : Nat) : Nat := 0x30010004 + 0x20 * n
/-- R131: `QUE.QOWN`, RWT. -/
abbrev QUE.QOWN (n : Nat) : Nat := 0x30010008 + 0x20 * n
/-- R131: `QUE.QHEAD`, RO. -/
abbrev QUE.QHEAD (n : Nat) : Nat := 0x3001000C + 0x20 * n
/-- R131: `QUE.QTAIL`, RO. -/
abbrev QUE.QTAIL (n : Nat) : Nat := 0x30010010 + 0x20 * n
/-- R131: `QUE.QSTAT`, RO, WO. -/
abbrev QUE.QSTAT (n : Nat) : Nat := 0x30010014 + 0x20 * n
/-- R131: `QUE.QPUSH`, WO. -/
abbrev QUE.QPUSH (n : Nat) : Nat := 0x30010018 + 0x20 * n
/-- R131: `QUE.QPOP`, RC. -/
abbrev QUE.QPOP (n : Nat) : Nat := 0x3001001C + 0x20 * n
/-- R360: `CUE.CHCFG`, RW, RWT. -/
abbrev CUE.CHCFG (c : Nat) : Nat := 0x30014000 + 4 * c
/-- R360: `CUE.CHSTAT`, W1C. -/
abbrev CUE.CHSTAT (c : Nat) : Nat := 0x30014100 + 4 * c
/-- R360: `CUE.SWSET0`, WO. -/
abbrev CUE.SWSET0 : Nat := 0x30014200
/-- R360: `CUE.SWSET1`, WO. -/
abbrev CUE.SWSET1 : Nat := 0x30014204
/-- R360: `CUE.OVR0`, W1C. -/
abbrev CUE.OVR0 : Nat := 0x30014220
/-- R360: `CUE.OVR1`, W1C. -/
abbrev CUE.OVR1 : Nat := 0x30014224
/-- R360: `CUE.CONSLO`, RW. -/
abbrev CUE.CONSLO (k : Nat) : Nat := 0x30014300 + 8 * k
/-- R360: `CUE.CONSHI`, RW. -/
abbrev CUE.CONSHI (k : Nat) : Nat := 0x30014304 + 8 * k
/-- R360: `CUE.IRQSEL`, RW. -/
abbrev CUE.IRQSEL (p j : Nat) : Nat := 0x30014500 + 0x10 * p + 4 * j
/-- R360: `CUE.IRQPEND`, W1C. -/
abbrev CUE.IRQPEND (p : Nat) : Nat := 0x30014580 + 4 * p
/-- R360: `CUE.IRQOVR`, W1C. -/
abbrev CUE.IRQOVR (p : Nat) : Nat := 0x300145A0 + 4 * p
/-- R360: `CUE.LCIN`, RW. -/
abbrev CUE.LCIN (k : Nat) : Nat := 0x30014600 + 0x10 * k
/-- R360: `CUE.LCCFG`, RW. -/
abbrev CUE.LCCFG (k : Nat) : Nat := 0x30014604 + 0x10 * k
/-- R360: `CUE.LCOWN`, RWT. -/
abbrev CUE.LCOWN (k : Nat) : Nat := 0x30014608 + 0x10 * k
/-- R360: `CUE.LCSTAT`, RO, RW. -/
abbrev CUE.LCSTAT (k : Nat) : Nat := 0x3001460C + 0x10 * k
/-- R344: `HUB.CTRL`, RW. -/
abbrev HUB.CTRL : Nat := 0x30015000
/-- R344: `HUB.STATUS`, RO. -/
abbrev HUB.STATUS : Nat := 0x30015004
/-- R344: `HUB.SHEETBASE`, RW. -/
abbrev HUB.SHEETBASE : Nat := 0x30015008
/-- R344: `HUB.EVT`, W1C. -/
abbrev HUB.EVT : Nat := 0x3001500C
/-- R344: `HUB.IEN`, RW. -/
abbrev HUB.IEN : Nat := 0x30015010
/-- R344: `HUB.SPWR`, RO, W1C. -/
abbrev HUB.SPWR : Nat := 0x30015014
/-- R344: `HUB.MAXSTEPS`, RW. -/
abbrev HUB.MAXSTEPS : Nat := 0x30015018
/-- R344: `HUB.BUSGRANT`, RW. -/
abbrev HUB.BUSGRANT : Nat := 0x3001501C
/-- R344: `HUB.SWTRIG`, WO. -/
abbrev HUB.SWTRIG : Nat := 0x30015020
/-- R344: `HUB.SHCFG`, RW. -/
abbrev HUB.SHCFG (n : Nat) : Nat := 0x30015080 + 0x10 * n
/-- R344: `HUB.SHPER`, RW. -/
abbrev HUB.SHPER (n : Nat) : Nat := 0x30015084 + 0x10 * n
/-- R344: `HUB.SHPHASE`, RW. -/
abbrev HUB.SHPHASE (n : Nat) : Nat := 0x30015088 + 0x10 * n
/-- R344: `HUB.SHSTAT`, RO. -/
abbrev HUB.SHSTAT (n : Nat) : Nat := 0x3001508C + 0x10 * n
/-- R344: `HUB.SHCNT`, RC. -/
abbrev HUB.SHCNT (n : Nat) : Nat := 0x30015280 + 4 * n
/-- R344: `HUB.FLTCFG`, RW. -/
abbrev HUB.FLTCFG (k : Nat) : Nat := 0x30015400 + 0x20 * k
/-- R344: `HUB.FLTB0`, RW. -/
abbrev HUB.FLTB0 (k : Nat) : Nat := 0x30015404 + 0x20 * k
/-- R344: `HUB.FLTB1`, RW. -/
abbrev HUB.FLTB1 (k : Nat) : Nat := 0x30015408 + 0x20 * k
/-- R344: `HUB.FLTB2`, RW. -/
abbrev HUB.FLTB2 (k : Nat) : Nat := 0x3001540C + 0x20 * k
/-- R344: `HUB.FLTA1`, RW. -/
abbrev HUB.FLTA1 (k : Nat) : Nat := 0x30015410 + 0x20 * k
/-- R344: `HUB.FLTA2`, RW. -/
abbrev HUB.FLTA2 (k : Nat) : Nat := 0x30015414 + 0x20 * k
/-- R344: `HUB.FLTOUT`, RO. -/
abbrev HUB.FLTOUT (k : Nat) : Nat := 0x30015418 + 0x20 * k
/-- R344: `HUB.CMPCFG`, RW. -/
abbrev HUB.CMPCFG (k : Nat) : Nat := 0x30015600 + 0x10 * k
/-- R344: `HUB.CMPHI`, RW. -/
abbrev HUB.CMPHI (k : Nat) : Nat := 0x30015604 + 0x10 * k
/-- R344: `HUB.CMPLO`, RW. -/
abbrev HUB.CMPLO (k : Nat) : Nat := 0x30015608 + 0x10 * k
/-- R344: `HUB.CMPSTAT`, RO. -/
abbrev HUB.CMPSTAT (k : Nat) : Nat := 0x3001560C + 0x10 * k
/-- R346: `ADC.CFG`, RW. -/
abbrev ADC.CFG : Nat := 0x30016000
/-- R346: `ADC.STATUS`, RO. -/
abbrev ADC.STATUS : Nat := 0x30016004
/-- R346: `ADC.CAL`, RO. -/
abbrev ADC.CAL : Nat := 0x30016008
/-- R346: `DSM.CFG`, RW. -/
abbrev DSM.CFG : Nat := 0x30017000
/-- R346: `DSM.STATUS`, RO. -/
abbrev DSM.STATUS : Nat := 0x30017004
/-- R346: `DSM.CAL`, RO. -/
abbrev DSM.CAL (k : Nat) : Nat := 0x30017010 + 4 * k
/-- R378: `TM.CTRL`, RW. -/
abbrev TM.CTRL (x : Nat) : Nat := 0x30018000 + 0x1000 * x
/-- R378: `TM.STATUS`, RO. -/
abbrev TM.STATUS (x : Nat) : Nat := 0x30018004 + 0x1000 * x
/-- R378: `TM.CNT`, RW. -/
abbrev TM.CNT (x : Nat) : Nat := 0x30018008 + 0x1000 * x
/-- R378: `TM.PER`, RW. -/
abbrev TM.PER (x : Nat) : Nat := 0x3001800C + 0x1000 * x
/-- R378: `TM.PERACT`, RO. -/
abbrev TM.PERACT (x : Nat) : Nat := 0x30018010 + 0x1000 * x
/-- R378: `TM.EVT`, W1C. -/
abbrev TM.EVT (x : Nat) : Nat := 0x30018014 + 0x1000 * x
/-- R378: `TM.IEN`, RW. -/
abbrev TM.IEN (x : Nat) : Nat := 0x30018018 + 0x1000 * x
/-- R378: `TM.DT`, RW. -/
abbrev TM.DT (x : Nat) : Nat := 0x3001801C + 0x1000 * x
/-- R378: `TM.OUTCFG`, RW. -/
abbrev TM.OUTCFG (x : Nat) : Nat := 0x30018020 + 0x1000 * x
/-- R378: `TM.CHCFG`, RW. -/
abbrev TM.CHCFG (x n : Nat) : Nat := 0x30018040 + 0x1000 * x + 0x10 * n
/-- R378: `TM.CC`, RW. -/
abbrev TM.CC (x n : Nat) : Nat := 0x30018044 + 0x1000 * x + 0x10 * n
/-- R378: `TM.CCACT`, RO. -/
abbrev TM.CCACT (x n : Nat) : Nat := 0x30018048 + 0x1000 * x + 0x10 * n
/-- R378: `TM.CAPF`, RO. -/
abbrev TM.CAPF (x n : Nat) : Nat := 0x3001804C + 0x1000 * x + 0x10 * n
/-- R378: `TM.WIDTH`, RO. -/
abbrev TM.WIDTH (x n : Nat) : Nat := 0x30018080 + 0x1000 * x + 4 * n
/-- R401: `TWB.CTRL`, RW. -/
abbrev TWB.CTRL (x : Nat) : Nat := 0x30020000 + 0x1000 * x
/-- R401: `TWB.STATUS`, RO. -/
abbrev TWB.STATUS (x : Nat) : Nat := 0x30020004 + 0x1000 * x
/-- R401: `TWB.TIMING`, RW. -/
abbrev TWB.TIMING (x : Nat) : Nat := 0x30020008 + 0x1000 * x
/-- R401: `TWB.ADDR`, RW. -/
abbrev TWB.ADDR (x : Nat) : Nat := 0x3002000C + 0x1000 * x
/-- R401: `TWB.CMD`, WO. -/
abbrev TWB.CMD (x : Nat) : Nat := 0x30020010 + 0x1000 * x
/-- R401: `TWB.TXDATA`, WO. -/
abbrev TWB.TXDATA (x : Nat) : Nat := 0x30020014 + 0x1000 * x
/-- R401: `TWB.RXDATA`, RC. -/
abbrev TWB.RXDATA (x : Nat) : Nat := 0x30020018 + 0x1000 * x
/-- R401: `TWB.EVT`, W1C. -/
abbrev TWB.EVT (x : Nat) : Nat := 0x3002001C + 0x1000 * x
/-- R401: `TWB.IEN`, RW. -/
abbrev TWB.IEN (x : Nat) : Nat := 0x30020020 + 0x1000 * x
/-- R401: `TWB.RECOVER`, WO. -/
abbrev TWB.RECOVER (x : Nat) : Nat := 0x30020024 + 0x1000 * x
/-- R401: `TWB.ATTN`, RW. -/
abbrev TWB.ATTN (x : Nat) : Nat := 0x30020028 + 0x1000 * x
/-- R401: `TWB.ATTNDATA`, RW. -/
abbrev TWB.ATTNDATA (x : Nat) : Nat := 0x3002002C + 0x1000 * x
/-- R401: `TWB.FIFO`, RO. -/
abbrev TWB.FIFO (x : Nat) : Nat := 0x30020030 + 0x1000 * x
/-- R402: `CSP.CTRL`, RW. -/
abbrev CSP.CTRL (x : Nat) : Nat := 0x30025000 + 0x1000 * x
/-- R402: `CSP.STATUS`, RO. -/
abbrev CSP.STATUS (x : Nat) : Nat := 0x30025004 + 0x1000 * x
/-- R402: `CSP.TXDATA`, WO. -/
abbrev CSP.TXDATA (x : Nat) : Nat := 0x30025008 + 0x1000 * x
/-- R402: `CSP.RXDATA`, RC. -/
abbrev CSP.RXDATA (x : Nat) : Nat := 0x3002500C + 0x1000 * x
/-- R402: `CSP.EVT`, W1C. -/
abbrev CSP.EVT (x : Nat) : Nat := 0x30025010 + 0x1000 * x
/-- R402: `CSP.IEN`, RW. -/
abbrev CSP.IEN (x : Nat) : Nat := 0x30025014 + 0x1000 * x
/-- R403: `HWN.CTRL`, RW. -/
abbrev HWN.CTRL : Nat := 0x30027000
/-- R403: `HWN.STATUS`, RO. -/
abbrev HWN.STATUS : Nat := 0x30027004
/-- R403: `HWN.EVT`, W1C. -/
abbrev HWN.EVT : Nat := 0x30027008
/-- R403: `HWN.IEN`, RW. -/
abbrev HWN.IEN : Nat := 0x3002700C
/-- R403: `HWN.WRSPAN`, RO. -/
abbrev HWN.WRSPAN : Nat := 0x30027010
/-- R403: `HWN.ATTNCODE`, RW. -/
abbrev HWN.ATTNCODE : Nat := 0x30027014
/-- R403: `HWN.REG`, RO for a < 0x40; RW otherwise. -/
abbrev HWN.REG (a : Nat) : Nat := 0x30027100 + 4 * a
/-- R479: `SVC.CTRL`, RWT. -/
abbrev SVC.CTRL : Nat := 0x30028000
/-- R479: `SVC.STATUS`, RO. -/
abbrev SVC.STATUS : Nat := 0x30028004
/-- R479: `SVC.RXBASE`, RWT. -/
abbrev SVC.RXBASE : Nat := 0x30028008
/-- R479: `SVC.RXCFG`, RWT. -/
abbrev SVC.RXCFG : Nat := 0x3002800C
/-- R479: `SVC.RXFREE`, WO. -/
abbrev SVC.RXFREE : Nat := 0x30028010
/-- R479: `SVC.GAP`, RWT. -/
abbrev SVC.GAP : Nat := 0x30028014
/-- R479: `SVC.EVT`, W1C. -/
abbrev SVC.EVT : Nat := 0x30028018
/-- R479: `SVC.IEN`, RW. -/
abbrev SVC.IEN : Nat := 0x3002801C
/-- R479: `SVC.CNT`, RC. -/
abbrev SVC.CNT : Nat := 0x30028020
/-- R502: `GPIO.IN`, RO. -/
abbrev GPIO.IN (p : Nat) : Nat := 0x30029000 + 4 * p
/-- R502: `GPIO.OUT`, RW. -/
abbrev GPIO.OUT (p : Nat) : Nat := 0x30029010 + 4 * p
/-- R502: `GPIO.OUTSET`, WO. -/
abbrev GPIO.OUTSET (p : Nat) : Nat := 0x30029018 + 4 * p
/-- R502: `GPIO.OUTCLR`, WO. -/
abbrev GPIO.OUTCLR (p : Nat) : Nat := 0x30029020 + 4 * p
/-- R502: `GPIO.DIR`, RW. -/
abbrev GPIO.DIR (p : Nat) : Nat := 0x30029028 + 4 * p
/-- R500: `PIN.CFG`, RW. -/
abbrev PIN.CFG (n : Nat) : Nat := 0x3002A000 + 4 * n
/-- R500: `PIN.PEV`, RW. -/
abbrev PIN.PEV (i : Nat) : Nat := 0x3002A100 + 4 * i
/-- R500: `PIN.LEVEL0`, RO. -/
abbrev PIN.LEVEL0 : Nat := 0x3002A140
/-- R500: `PIN.LEVEL1`, RO. -/
abbrev PIN.LEVEL1 : Nat := 0x3002A144
/-- R265: `RFE.CTRL`, RW. -/
abbrev RFE.CTRL : Nat := 0x30030000
/-- R265: `RFE.STATUS`, RO. -/
abbrev RFE.STATUS : Nat := 0x30030004
/-- R265: `RFE.LOFREQ`, RO. -/
abbrev RFE.LOFREQ : Nat := 0x30030008
/-- R265: `RFE.TUNE`, RW. -/
abbrev RFE.TUNE : Nat := 0x3003000C
/-- R265: `RFE.TUNECFG`, RW. -/
abbrev RFE.TUNECFG : Nat := 0x30030010
/-- R265: `RFE.TUNESTAT`, RO. -/
abbrev RFE.TUNESTAT : Nat := 0x30030014
/-- R265: `RFE.EVT`, W1C. -/
abbrev RFE.EVT : Nat := 0x30030018
/-- R265: `RFE.IEN`, RW. -/
abbrev RFE.IEN : Nat := 0x3003001C
/-- R265: `RFE.PDET`, RO. -/
abbrev RFE.PDET : Nat := 0x30030020
/-- R210: `RXC.CTRL`, RW. -/
abbrev RXC.CTRL : Nat := 0x30031000
/-- R210: `RXC.STATUS`, RO. -/
abbrev RXC.STATUS : Nat := 0x30031004
/-- R210: `RXC.WINBASE`, RW. -/
abbrev RXC.WINBASE : Nat := 0x30031008
/-- R210: `RXC.WINOFS`, RW. -/
abbrev RXC.WINOFS : Nat := 0x3003100C
/-- R210: `RXC.SUNFREQ`, RW. -/
abbrev RXC.SUNFREQ : Nat := 0x30031010
/-- R210: `RXC.SUNCFG`, RW. -/
abbrev RXC.SUNCFG : Nat := 0x30031014
/-- R210: `RXC.AGCCFG`, RW. -/
abbrev RXC.AGCCFG : Nat := 0x30031018
/-- R210: `RXC.AGCSTAT`, RO. -/
abbrev RXC.AGCSTAT : Nat := 0x3003101C
/-- R210: `RXC.AGCCNT`, RC. -/
abbrev RXC.AGCCNT : Nat := 0x30031020
/-- R210: `RXC.EVT`, W1C. -/
abbrev RXC.EVT : Nat := 0x30031024
/-- R210: `RXC.IEN`, RW. -/
abbrev RXC.IEN : Nat := 0x30031028
/-- R210: `RXC.BUSYMAP0`, RO. -/
abbrev RXC.BUSYMAP0 : Nat := 0x3003102C
/-- R210: `RXC.BUSYMAP1`, RO. -/
abbrev RXC.BUSYMAP1 : Nat := 0x30031030
/-- R210: `RXC.GDLY`, RO. -/
abbrev RXC.GDLY (m : Nat) : Nat := 0x30031040 + 4 * m
/-- R213: `RXC.CH_CFG`, RW. -/
abbrev CH.CH_CFG (n : Nat) : Nat := 0x30032000 + 0x40 * n
/-- R213: `RXC.CH_STAT`, RO. -/
abbrev CH.CH_STAT (n : Nat) : Nat := 0x30032004 + 0x40 * n
/-- R213: `RXC.CH_FLAGS`, W1C. -/
abbrev CH.CH_FLAGS (n : Nat) : Nat := 0x30032008 + 0x40 * n
/-- R213: `RXC.CH_DET`, RW. -/
abbrev CH.CH_DET (n : Nat) : Nat := 0x3003200C + 0x40 * n
/-- R213: `RXC.CH_CCA`, RW. -/
abbrev CH.CH_CCA (n : Nat) : Nat := 0x30032010 + 0x40 * n
/-- R213: `RXC.CH_RSSI`, RO. -/
abbrev CH.CH_RSSI (n : Nat) : Nat := 0x30032014 + 0x40 * n
/-- R213: `RXC.CH_NOISE`, RO. -/
abbrev CH.CH_NOISE (n : Nat) : Nat := 0x30032018 + 0x40 * n
/-- R213: `RXC.CH_FOFS`, RO. -/
abbrev CH.CH_FOFS (n : Nat) : Nat := 0x3003201C + 0x40 * n
/-- R213: `RXC.CH_TSLO`, RO. -/
abbrev CH.CH_TSLO (n : Nat) : Nat := 0x30032020 + 0x40 * n
/-- R213: `RXC.CH_TSHI`, RO. -/
abbrev CH.CH_TSHI (n : Nat) : Nat := 0x30032024 + 0x40 * n
/-- R213: `RXC.CH_CNT0`, RC. -/
abbrev CH.CH_CNT0 (n : Nat) : Nat := 0x30032028 + 0x40 * n
/-- R213: `RXC.CH_CNT1`, RC. -/
abbrev CH.CH_CNT1 (n : Nat) : Nat := 0x3003202C + 0x40 * n
/-- R213: `RXC.CH_CNT2`, RC. -/
abbrev CH.CH_CNT2 (n : Nat) : Nat := 0x30032030 + 0x40 * n
/-- R263: `TXC.CTRL`, RW. -/
abbrev TXC.CTRL : Nat := 0x30034000
/-- R263: `TXC.STATUS`, RO. -/
abbrev TXC.STATUS : Nat := 0x30034004
/-- R263: `TXC.LOCKTMO`, RW. -/
abbrev TXC.LOCKTMO : Nat := 0x30034008
/-- R263: `TXC.HOPLEAD`, RW. -/
abbrev TXC.HOPLEAD : Nat := 0x3003400C
/-- R263: `TXC.RAMP`, RW. -/
abbrev TXC.RAMP : Nat := 0x30034010
/-- R263: `TXC.EVT`, W1C. -/
abbrev TXC.EVT : Nat := 0x30034014
/-- R263: `TXC.IEN`, RW. -/
abbrev TXC.IEN : Nat := 0x30034018
/-- R263: `TXC.CNT`, RC. -/
abbrev TXC.CNT : Nat := 0x3003401C
/-- R263: `TXC.AIRTIME`, RC. -/
abbrev TXC.AIRTIME : Nat := 0x30034020
/-- R263: `TXC.FEMIDLE`, RW. -/
abbrev TXC.FEMIDLE : Nat := 0x30034024
/-- R263: `TXC.FEMINV`, RW. -/
abbrev TXC.FEMINV : Nat := 0x30034028
/-- R263: `TXC.MASKSTAT`, RC. -/
abbrev TXC.MASKSTAT : Nat := 0x30034030
/-- R263: `TXC.MASKWORST`, RC. -/
abbrev TXC.MASKWORST : Nat := 0x30034034
/-- R263: `TXC.SEQ`, RW. -/
abbrev TXC.SEQ (s : Nat) : Nat := 0x30034040 + 4 * s
/-- R263: `TXC.MASK`, RW. -/
abbrev TXC.MASK (b : Nat) : Nat := 0x30034080 + 4 * b
/-- R263: `TXC.FIR`, RW. -/
abbrev TXC.FIR (m i : Nat) : Nat := 0x30034200 + 0x80 * m + 4 * i
/-- R239: `FEC.DECCFG`, RW. -/
abbrev FEC.DECCFG : Nat := 0x30035000
/-- R239: `FEC.ENCCFG`, RW. -/
abbrev FEC.ENCCFG : Nat := 0x30035004
/-- R239: `FEC.SYNCW`, RW. -/
abbrev FEC.SYNCW : Nat := 0x30035008
/-- R239: `FEC.STATUS`, RO. -/
abbrev FEC.STATUS : Nat := 0x3003500C
/-- R239: `FEC.CWCNT`, RC. -/
abbrev FEC.CWCNT : Nat := 0x30035010
/-- R239: `FEC.FRMCNT`, RC. -/
abbrev FEC.FRMCNT : Nat := 0x30035014
/-- R239: `FEC.ITERSUM`, RC. -/
abbrev FEC.ITERSUM : Nat := 0x30035018
/-- R239: `FEC.ITERMAX`, RC. -/
abbrev FEC.ITERMAX : Nat := 0x3003501C
/-- R239: `FEC.HDRCNT`, RC. -/
abbrev FEC.HDRCNT : Nat := 0x30035020
/-- R239: `FEC.LATMAX`, RC. -/
abbrev FEC.LATMAX : Nat := 0x30035024
/-- R239: `FEC.VITCNT`, RC. -/
abbrev FEC.VITCNT : Nat := 0x30035028
/-- R294: `LNK.CTRL`, RW. -/
abbrev LNK.CTRL : Nat := 0x30036000
/-- R294: `LNK.STATUS`, RO. -/
abbrev LNK.STATUS : Nat := 0x30036004
/-- R294: `LNK.NID`, RW. -/
abbrev LNK.NID : Nat := 0x30036008
/-- R294: `LNK.SHORT`, RW. -/
abbrev LNK.SHORT : Nat := 0x3003600C
/-- R294: `LNK.EUILO`, RO. -/
abbrev LNK.EUILO : Nat := 0x30036010
/-- R294: `LNK.EUIHI`, RO. -/
abbrev LNK.EUIHI : Nat := 0x30036014
/-- R294: `LNK.REPLAYWIN`, RW. -/
abbrev LNK.REPLAYWIN : Nat := 0x30036018
/-- R294: `LNK.FLOOR`, RO. -/
abbrev LNK.FLOOR : Nat := 0x3003601C
/-- R294: `LNK.SCEXT`, RW. -/
abbrev LNK.SCEXT : Nat := 0x30036020
/-- R294: `LNK.SCSTAT`, RO. -/
abbrev LNK.SCSTAT : Nat := 0x30036024
/-- R294: `LNK.SCEXTSTAT`, RO. -/
abbrev LNK.SCEXTSTAT : Nat := 0x30036028
/-- R294: `LNK.POOLBASE`, RW. -/
abbrev LNK.POOLBASE : Nat := 0x30036030
/-- R294: `LNK.POOLCFG`, RW. -/
abbrev LNK.POOLCFG : Nat := 0x30036034
/-- R294: `LNK.POOLSTAT`, RO. -/
abbrev LNK.POOLSTAT : Nat := 0x30036038
/-- R294: `LNK.ACKCFG`, RW. -/
abbrev LNK.ACKCFG : Nat := 0x30036040
/-- R294: `LNK.RELAYCFG`, RW. -/
abbrev LNK.RELAYCFG : Nat := 0x30036044
/-- R294: `LNK.TXPRE`, RW. -/
abbrev LNK.TXPRE : Nat := 0x30036048
/-- R294: `LNK.FLOODCFG`, RW. -/
abbrev LNK.FLOODCFG : Nat := 0x3003604C
/-- R294: `LNK.RBINMAP`, RW. -/
abbrev LNK.RBINMAP (w : Nat) : Nat := 0x30036050 + 4 * w
/-- R294: `LNK.EVT`, W1C. -/
abbrev LNK.EVT : Nat := 0x30036060
/-- R294: `LNK.IEN`, RW. -/
abbrev LNK.IEN : Nat := 0x30036064
/-- R294: `LNK.CNTRX`, RC. -/
abbrev LNK.CNTRX : Nat := 0x30036070
/-- R294: `LNK.CNTREJ`, RC. -/
abbrev LNK.CNTREJ : Nat := 0x30036074
/-- R294: `LNK.CNTSEC`, RC. -/
abbrev LNK.CNTSEC : Nat := 0x30036078
/-- R294: `LNK.CNTDROP`, RC. -/
abbrev LNK.CNTDROP : Nat := 0x3003607C
/-- R294: `LNK.CNTACK`, RC. -/
abbrev LNK.CNTACK : Nat := 0x30036080
/-- R294: `LNK.CNTRLY`, RC. -/
abbrev LNK.CNTRLY : Nat := 0x30036084
/-- R294: `LNK.CNTRLYD`, RC. -/
abbrev LNK.CNTRLYD : Nat := 0x30036088
/-- R294: `LNK.CNTOVL`, RC. -/
abbrev LNK.CNTOVL : Nat := 0x3003608C
/-- R294: `LNK.KEYCTX`, RW. -/
abbrev LNK.KEYCTX (k : Nat) : Nat := 0x30036090 + 4 * k
/-- R318: `LNK.NTLO`, RO. -/
abbrev LNK.NTLO : Nat := 0x30036100
/-- R318: `LNK.NTHI`, RO. -/
abbrev LNK.NTHI : Nat := 0x30036104
/-- R318: `LNK.NTSEC`, RO. -/
abbrev LNK.NTSEC : Nat := 0x30036108
/-- R318: `LNK.NTADJ`, WO. -/
abbrev LNK.NTADJ : Nat := 0x3003610C
/-- R318: `LNK.NTSETLO`, RW. -/
abbrev LNK.NTSETLO : Nat := 0x30036110
/-- R318: `LNK.NTSETHI`, RW. -/
abbrev LNK.NTSETHI : Nat := 0x30036114
/-- R318: `LNK.NTCFG`, RW. -/
abbrev LNK.NTCFG : Nat := 0x30036118
/-- R318: `LNK.NTRATE`, RW. -/
abbrev LNK.NTRATE : Nat := 0x3003611C
/-- R318: `LNK.NTSTAT`, RO. -/
abbrev LNK.NTSTAT : Nat := 0x30036120
/-- R318: `LNK.NTAGE`, RO. -/
abbrev LNK.NTAGE : Nat := 0x30036124
/-- R318: `LNK.NTLASTOFS`, RO. -/
abbrev LNK.NTLASTOFS : Nat := 0x30036128
/-- R318: `LNK.SCHCFG`, RW. -/
abbrev LNK.SCHCFG : Nat := 0x30036140
/-- R318: `LNK.SCHNEXT`, RO. -/
abbrev LNK.SCHNEXT : Nat := 0x30036144
/-- R318: `LNK.SCHCNT`, RC. -/
abbrev LNK.SCHCNT : Nat := 0x30036148
/-- R318: `LNK.BCNCFG`, RW. -/
abbrev LNK.BCNCFG : Nat := 0x30036160
/-- R318: `LNK.PARENT0`, RW. -/
abbrev LNK.PARENT0 : Nat := 0x30036164
/-- R318: `LNK.PARENT1`, RW. -/
abbrev LNK.PARENT1 : Nat := 0x30036168
/-- R318: `LNK.BCNSTAT`, RO. -/
abbrev LNK.BCNSTAT : Nat := 0x3003616C
/-- R318: `LNK.BCNNEXT`, RO. -/
abbrev LNK.BCNNEXT : Nat := 0x30036170
/-- R318: `LNK.CNTBCN`, RC. -/
abbrev LNK.CNTBCN : Nat := 0x30036174
/-- R318: `LNK.TEVT`, W1C. -/
abbrev LNK.TEVT : Nat := 0x30036178
/-- R318: `LNK.TIEN`, RW. -/
abbrev LNK.TIEN : Nat := 0x3003617C
/-- R295: `LNK.PEND`, RW. -/
abbrev LNK.PEND (i : Nat) : Nat := 0x30037000 + 4 * i
/-- R295: `LNK.GROUP`, RW. -/
abbrev LNK.GROUP (k : Nat) : Nat := 0x30037400 + 4 * k
/-- R295: `LNK.SINKA0`, RW. -/
abbrev LNK.SINKA0 (k : Nat) : Nat := 0x30037420 + 0x10 * k
/-- R295: `LNK.SINKA1`, RW. -/
abbrev LNK.SINKA1 (k : Nat) : Nat := 0x30037424 + 0x10 * k
/-- R295: `LNK.SINKCFG`, RW. -/
abbrev LNK.SINKCFG (k : Nat) : Nat := 0x30037428 + 0x10 * k
/-- R266: `CAL.CTRL`, RW. -/
abbrev CAL.CTRL : Nat := 0x30038000
/-- R266: `CAL.STATUS`, RO. -/
abbrev CAL.STATUS : Nat := 0x30038004
/-- R266: `CAL.CFG`, RW. -/
abbrev CAL.CFG : Nat := 0x30038008
/-- R266: `CAL.XTAL`, RW. -/
abbrev CAL.XTAL : Nat := 0x3003800C
/-- R266: `CAL.XTALSTAT`, RO. -/
abbrev CAL.XTALSTAT : Nat := 0x30038010
/-- R266: `CAL.RXDC`, RW. -/
abbrev CAL.RXDC : Nat := 0x30038014
/-- R266: `CAL.RXIQ`, RW. -/
abbrev CAL.RXIQ : Nat := 0x30038018
/-- R266: `CAL.TXLO`, RW. -/
abbrev CAL.TXLO : Nat := 0x3003801C
/-- R266: `CAL.TXIQ`, RW. -/
abbrev CAL.TXIQ : Nat := 0x30038020
/-- R266: `CAL.TEMP`, RO. -/
abbrev CAL.TEMP : Nat := 0x30038024
/-- R266: `CAL.DPD`, RW. -/
abbrev CAL.DPD (n i : Nat) : Nat := 0x30038400 + 0x100 * n + 4 * i
/-- R495: `DBG.HALT`, RW. -/
abbrev DBG.HALT : Nat := 0x30040000
/-- R495: `DBG.STATUS`, RO. -/
abbrev DBG.STATUS : Nat := 0x30040004
/-- R495: `DBG.STEP`, WO. -/
abbrev DBG.STEP : Nat := 0x30040008

end Reg
end Sys2Proof
end

