-- ==== Sys2Proof/Machine/RegTable.lean ====
section
/-! DEFINITION. The register tables of the blocks: one row per register or array of registers, with its offset,
its reset value, and the bits each access code of 00 R7 lets a write reach. -/
namespace Sys2Proof.Machine

/-- One row of a register table: `n1` registers `st1` bytes apart, each of them `n2` times `st2` bytes apart (00 R9);
`rw`, `rwt` and `w1c` are the bits with those access codes, `rc` tells that a read clears the register (00 R7).  Bits in
none of them are read-only, write-only or reserved. -/
structure RegRow where
  off : Nat
  n1 : Nat := 1
  st1 : Nat := 4
  n2 : Nat := 1
  st2 : Nat := 4
  reset : Nat := 0
  rw : Nat := 0
  rwt : Nat := 0
  w1c : Nat := 0
  rc : Bool := false
  deriving DecidableEq, Repr

/-- R106: the registers of SYS. -/
def rowsSYS : List RegRow := [
  { off := 0, reset := 0x48010096 },  -- ID
  { off := 4, rwt := 3 },  -- PHASE
  { off := 8, reset := 1, w1c := 0x7F },  -- RSTCAUSE
  { off := 0xC },  -- LIFECYCLE
  { off := 0x10, reset := 0x200 },  -- BOOTSEL
  { off := 0x14 },  -- EPOCHA
  { off := 0x18 },  -- EPOCHB
  { off := 0x1C, w1c := 0x200 },  -- HEALTH
  { off := 0x20, reset := 0x20258, rwt := 0xFFFFFF },  -- HEALTHDL
  { off := 0x24 },  -- SWRST
  { off := 0x28, reset := 0x1F, rwt := 0x1F },  -- PLAYHOLD
  { off := 0x2C },  -- LSTEP
  { off := 0x40, n1 := 5, rwt := 0xFFFFFFFC }]  -- ENTRY

/-- R459: the registers of PWR. -/
def rowsPWR : List RegRow := [
  { off := 0, rwt := 7 },  -- REQ
  { off := 4 },  -- STATUS
  { off := 8, reset := 1, rwt := 3 },  -- CFG
  { off := 0xC, reset := 0x1C00, rwt := 0xFFFFFFFF },  -- WAKEEN
  { off := 0x10, reset := 0x1C00, rwt := 0xFFFFFFFF },  -- WAKETO
  { off := 0x14, w1c := 0xFFFFFFFF },  -- WAKESTAT
  { off := 0x18 },  -- LASTWAKE
  { off := 0x1C, rwt := 0xFFFFFFFC },  -- RESUME
  { off := 0x20 },  -- VBAT
  { off := 0x24, reset := 0x898, rwt := 0xFFF },  -- VBATWARN
  { off := 0x28, reset := 0xAAAAAAAA },  -- BANKSTAT
  { off := 0x2C, w1c := 0x3F },  -- EVT
  { off := 0x30, rwt := 0x3F }]  -- IEN

/-- R15: the registers of CLK. -/
def rowsCLK : List RegRow := [
  { off := 0 },  -- STATUS
  { off := 4, reset := 0x55, rwt := 0xFF },  -- APPDIV
  { off := 8, reset := 0x41 },  -- VCORE
  { off := 0xC, rw := 0xF7 },  -- OUTSEL
  { off := 0x10 }]  -- RCCAL

/-- R461: the registers of RTC. -/
def rowsRTC : List RegRow := [
  { off := 0, reset := 7, w1c := 0x15 },  -- STATUS
  { off := 4 },  -- SUBSEC
  { off := 8 },  -- SECLO
  { off := 0xC },  -- SECHI
  { off := 0x10, reset := 0x6010100 },  -- CALDATE
  { off := 0x14 },  -- CALTIME
  { off := 0x18, rwt := 0x7FFF },  -- SETSUB
  { off := 0x1C, rwt := 0xFFFFFFFF },  -- SETSECLO
  { off := 0x20, rwt := 0xFFFF },  -- SETSECHI
  { off := 0x24 },  -- CMD
  { off := 0x28, reset := 0x110, rwt := 0x11F },  -- TRIM
  { off := 0x2C, reset := 0x3E8 },  -- CAPSTEP
  { off := 0x30 },  -- TEMP
  { off := 0x40, n1 := 2, st1 := 0x10, rwt := 0xFFFFFFFF },  -- ALMLO
  { off := 0x44, n1 := 2, st1 := 0x10, rwt := 0x7FFFFFFF },  -- ALMHI
  { off := 0x48, n1 := 2, st1 := 0x10, rwt := 0xFFFFFF01 },  -- ALMCFG
  { off := 0x60, w1c := 0xF },  -- EVT
  { off := 0x64, rw := 0xF },  -- IEN
  { off := 0x68, reset := 5, rwt := 7 },  -- PWRON
  { off := 0x6C, rwt := 0xF0F },  -- WAKECFG
  { off := 0x80, n1 := 16, rwt := 0x80FFFFFF },  -- TTAB
  { off := 0x100, n1 := 32 }]  -- BKUP

/-- R493: the registers of FLT. -/
def rowsFLT : List RegRow := [
  { off := 0, rwt := 1 },  -- CTRL
  { off := 4 },  -- LOGHEAD
  { off := 8, w1c := 7 },  -- EVT
  { off := 0xC, rwt := 7 },  -- IEN
  { off := 0x10, rc := true },  -- CECNT0
  { off := 0x14, rc := true },  -- CECNT1
  { off := 0x20 },  -- CURT0
  { off := 0x24 },  -- CURT1
  { off := 0x28 },  -- CURTCNT
  { off := 0x40, n1 := 5, st1 := 8, rwt := 0x3FFFF },  -- WDCFG of p = 0 to 4
  { off := 0x68, reset := 0x10800, rwt := 0x3FFFF },  -- WDCFG of p = 5
  { off := 0x44, n1 := 6, st1 := 8, w1c := 0x30000 },  -- WDSTAT
  { off := 0x70 },  -- WDKICK
  { off := 0x74, reset := 0x3C, rwt := 0xFF },  -- ESC
  { off := 0x80, n1 := 2, st1 := 8, rwt := 0x3FFFF },  -- MIRCFG
  { off := 0x84, n1 := 2, st1 := 8, rwt := 0xFFFFC000 },  -- MIRADDR
  { off := 0x100, rwt := 0x1070F },  -- INJCTRL
  { off := 0x104, rwt := 0xFFFFFFF8 },  -- INJADDR
  { off := 0x400, n1 := 64, st1 := 0x10, n2 := 4 }]  -- LOG

/-- R430: the registers of KEY. -/
def rowsKEY : List RegRow := [
  { off := 0 },  -- STATUS
  { off := 4 },  -- CMD
  { off := 8, rw := 0xFFFFFFFF },  -- ARG0
  { off := 0xC, rw := 0xFFFFFFFF },  -- ARG1
  { off := 0x10, rw := 0xFFFF },  -- ARG2
  { off := 0x14, rw := 0xFFFFFFFF },  -- CTX0
  { off := 0x18, rw := 0xFFFFFFFF },  -- CTX1
  { off := 0x1C, rw := 0xFFFFFFFC },  -- ADDR
  { off := 0x20, n1 := 8 },  -- WDATA
  { off := 0x40 },  -- SLOTUSE
  { off := 0x44 },  -- SLOTBAD
  { off := 0x50, w1c := 0xF00 },  -- ALARM
  { off := 0x60, n1 := 16 },  -- IDPUB
  { off := 0xA0 },  -- OWNERSTAT
  { off := 0xA4 },  -- OTPCMD
  { off := 0xA8 },  -- OTPSTAT
  { off := 0xC0, n1 := 8, rw := 0xFFFFFFFF },  -- OWNERDATA
  { off := 0x100, rw := 0x1FFC },  -- OTPADDR
  { off := 0x104 }]  -- OTPDATA

/-- R431: the registers of AES. -/
def rowsAES : List RegRow := [
  { off := 0, rw := 1 },  -- CTRL
  { off := 4 },  -- STATUS
  { off := 8 },  -- CUR
  { off := 0xC, rc := true },  -- CNT
  { off := 0x10, rc := true },  -- AUTHFAIL
  { off := 0x14, rc := true },  -- MEMERR
  { off := 0x18, w1c := 3 },  -- EVT
  { off := 0x1C, rw := 3 }]  -- IEN

/-- R432: the registers of PKA. -/
def rowsPKA : List RegRow := [
  { off := 0 },  -- CMD
  { off := 4 },  -- STATUS
  { off := 8, w1c := 1 },  -- EVT
  { off := 0xC, rw := 1 },  -- IEN
  { off := 0x400, n1 := 256, rw := 0xFFFFFFFF }]  -- RAM

/-- R432: the registers of HSH. -/
def rowsHSH : List RegRow := [
  { off := 0, rw := 1 },  -- CTRL
  { off := 4, rw := 0xFFFFFFFF },  -- SRC
  { off := 8, rw := 0xFFFFFFFF },  -- LEN
  { off := 0xC },  -- GO
  { off := 0x10 },  -- DATA
  { off := 0x14 },  -- STATUS
  { off := 0x40, n1 := 16 }]  -- DIGEST

/-- R432: the registers of RNG. -/
def rowsRNG : List RegRow := [
  { off := 0, reset := 1, rw := 1 },  -- CTRL
  { off := 4, reset := 4 },  -- STATUS
  { off := 8 },  -- DATA
  { off := 0xC, w1c := 3 }]  -- EVT

/-- R189: the registers of FLC. -/
def rowsFLC : List RegRow := [
  { off := 0, reset := 6, rwt := 0xF },  -- CTRL
  { off := 4 },  -- STATUS
  { off := 8, reset := 0x14, rwt := 0x3FF },  -- SUSPLIM
  { off := 0xC, reset := 0xC80064, rwt := 0x3FF03FF },  -- SUSPCFG
  { off := 0x10 },  -- CUR
  { off := 0x14 },  -- SUSPDESC
  { off := 0x18, w1c := 7 },  -- ERR
  { off := 0x1C, rc := true },  -- ECCCNT
  { off := 0x20 },  -- ECCADDR
  { off := 0x24, rc := true },  -- STALLMAX
  { off := 0x28, rwt := 3 },  -- BKSLOT
  { off := 0x40, n1 := 8, rwt := 0xFFFFFFFF }]  -- UNSETTLED

/-- R190: the registers of MRC. -/
def rowsMRC : List RegRow := [
  { off := 0, reset := 1, rwt := 1 },  -- CTRL
  { off := 4 },  -- STATUS
  { off := 8, rwt := 0x1FF },  -- JHEAD
  { off := 0xC, rwt := 0xFFFFFFFF },  -- JSEQ
  { off := 0x10, rc := true },  -- ECCCNT
  { off := 0x14 },  -- ECCADDR
  { off := 0x40, n1 := 16, rwt := 0xFFFFFFFF }]  -- JLIVE

/-- R161: the registers of DMC. -/
def rowsDMC : List RegRow := [
  { off := 0, rwt := 7 },  -- CTRL
  { off := 4 },  -- STATUS
  { off := 8, reset := 5, rwt := 0xF },  -- ADDRMAP
  { off := 0x10, n1 := 4, reset := 0x8080808, rwt := 0xFFFFFFFF },  -- PAGETMR
  { off := 0x20, reset := 0x1003, rwt := 0xFF03 },  -- REFCFG
  { off := 0x24 },  -- REFSTAT
  { off := 0x30, rc := true },  -- CECOUNT
  { off := 0x34 },  -- CEADDR
  { off := 0x38, reset := 0x18, rwt := 0xFF },  -- SCRUB
  { off := 0x3C },  -- POISONQ
  { off := 0x40 },  -- FREEZE
  { off := 0x44 },  -- FRZADDR
  { off := 0x48 },  -- FRZCMD
  { off := 0x4C },  -- FRZSYN
  { off := 0x50 },  -- FRZDLO
  { off := 0x54 },  -- FRZDHI
  { off := 0x60, rwt := 0x83FFFFF8 },  -- DIAGADDR
  { off := 0x64 },  -- DIAGCTRL
  { off := 0x68, rwt := 0xFFFFFFFF },  -- DIAGDLO
  { off := 0x6C, rwt := 0xFFFFFFFF },  -- DIAGDHI
  { off := 0x70, rwt := 0xFF },  -- DIAGCHK
  { off := 0x80, rwt := 0xFFFF },  -- SRMASK
  { off := 0x84, reset := 0x420, rwt := 0xFFFF },  -- TRACK
  { off := 0x88 },  -- TRAIN
  { off := 0x8C }]  -- FILLPTR

/-- R136: the registers of STG. -/
def rowsSTG : List RegRow := [
  { off := 0, rwt := 3 },  -- CTRL
  { off := 4, w1c := 0xE0F },  -- STATUS
  { off := 8, rwt := 0xFFFFF000 },  -- PTBASE
  { off := 0xC },  -- EPOCH
  { off := 0x10, reset := 0x400004, rwt := 0xFFFF000F },  -- MIGCFG
  { off := 0x14, reset := 0xC0, rwt := 0x1FF },  -- PROMOTE
  { off := 0x18, reset := 0x3C, rwt := 0xFFFFFFFF },  -- SRBREAK
  { off := 0x1C, reset := 3, rwt := 0xFF },  -- MAXRESTART
  { off := 0x20, n1 := 5 },  -- TIERFREE
  { off := 0x40, n1 := 5, rwt := 0xFFFF },  -- TIERLOW
  { off := 0x60, rwt := 0x3F3F3F3F },  -- TCMPAGES
  { off := 0x64, rwt := 0xFFFF },  -- T2PAGES
  { off := 0x68, rwt := 0x3FF03FF },  -- T4PAGES
  { off := 0x80, n1 := 2, st1 := 0x10, rwt := 0xFFFFFFFF },  -- MIGSRC
  { off := 0x84, n1 := 2, st1 := 0x10, rwt := 0x7FFFF },  -- MIGDST
  { off := 0x88, n1 := 2, st1 := 0x10 },  -- MIGCTRL
  { off := 0x8C, n1 := 2, st1 := 0x10 },  -- MIGSTAT
  { off := 0x100, n1 := 4 },  -- RUN
  { off := 0x140 },  -- WHERE
  { off := 0x200, n1 := 16, st1 := 8, rwt := 0xFFFFFFE1 },  -- TRIG
  { off := 0x204, n1 := 16, st1 := 8, rwt := 0xF },  -- TRIGQ
  { off := 0x300, n1 := 64, rwt := 0xFFFF }]  -- ACL

/-- R131: the registers of QUE. -/
def rowsQUE : List RegRow := [
  { off := 0, n1 := 128, st1 := 0x20, rwt := 0xFFFFFFFF },  -- QBASE
  { off := 4, n1 := 128, st1 := 0x20, rwt := 0xFFFF057F },  -- QCFG
  { off := 8, n1 := 128, st1 := 0x20, rwt := 0xFFFF },  -- QOWN
  { off := 0xC, n1 := 128, st1 := 0x20 },  -- QHEAD
  { off := 0x10, n1 := 128, st1 := 0x20 },  -- QTAIL
  { off := 0x14, n1 := 128, st1 := 0x20, reset := 0x10000 },  -- QSTAT
  { off := 0x18, n1 := 128, st1 := 0x20 },  -- QPUSH
  { off := 0x1C, n1 := 128, st1 := 0x20 }]  -- QPOP

/-- R360: the registers of CUE. -/
def rowsCUE : List RegRow := [
  { off := 0, n1 := 64, rw := 0xFF, rwt := 0x1700 },  -- CHCFG
  { off := 0x100, n1 := 64, w1c := 3 },  -- CHSTAT
  { off := 0x200 },  -- SWSET0
  { off := 0x204 },  -- SWSET1
  { off := 0x220, w1c := 0xFFFFFFFF },  -- OVR0
  { off := 0x224, w1c := 0x1FF },  -- OVR1
  { off := 0x300, n1 := 41, st1 := 8, rw := 0xFFFFFFFF },  -- CONSLO
  { off := 0x304, n1 := 41, st1 := 8, rw := 0xFFFFFFFF },  -- CONSHI
  { off := 0x500, n1 := 6, st1 := 0x10, n2 := 4, rw := 0xBFBFBFBF },  -- IRQSEL
  { off := 0x580, n1 := 6, w1c := 0xFFFF },  -- IRQPEND
  { off := 0x5A0, n1 := 6, w1c := 0xFFFF },  -- IRQOVR
  { off := 0x600, n1 := 16, st1 := 0x10, rw := 0xFFFFFFFF },  -- LCIN
  { off := 0x604, n1 := 16, st1 := 0x10, rw := 0xF0FFFFF },  -- LCCFG
  { off := 0x608, n1 := 16, st1 := 0x10, rwt := 0xF },  -- LCOWN
  { off := 0x60C, n1 := 16, st1 := 0x10, rw := 0xF0 }]  -- LCSTAT

/-- R344: the registers of HUB. -/
def rowsHUB : List RegRow := [
  { off := 0, rw := 1 },  -- CTRL
  { off := 4 },  -- STATUS
  { off := 8, rw := 0xFFFF8000 },  -- SHEETBASE
  { off := 0xC, w1c := 0xF },  -- EVT
  { off := 0x10, rw := 0xF },  -- IEN
  { off := 0x14, w1c := 0xF00 },  -- SPWR
  { off := 0x18, reset := 0x400, rw := 0xFFFF },  -- MAXSTEPS
  { off := 0x1C, rw := 0x31F },  -- BUSGRANT
  { off := 0x20 },  -- SWTRIG
  { off := 0x80, n1 := 32, st1 := 0x10, rw := 0x1FF77 },  -- SHCFG
  { off := 0x84, n1 := 32, st1 := 0x10, rw := 0x3FFFFF },  -- SHPER
  { off := 0x88, n1 := 32, st1 := 0x10, rw := 0x3FFFFF },  -- SHPHASE
  { off := 0x8C, n1 := 32, st1 := 0x10 },  -- SHSTAT
  { off := 0x280, n1 := 32, rc := true },  -- SHCNT
  { off := 0x400, n1 := 16, st1 := 0x20, rw := 0x3F033F03 },  -- FLTCFG
  { off := 0x404, n1 := 16, st1 := 0x20, rw := 0xFFFFFF },  -- FLTB0
  { off := 0x408, n1 := 16, st1 := 0x20, rw := 0xFFFFFF },  -- FLTB1
  { off := 0x40C, n1 := 16, st1 := 0x20, rw := 0xFFFFFF },  -- FLTB2
  { off := 0x410, n1 := 16, st1 := 0x20, rw := 0xFFFFFF },  -- FLTA1
  { off := 0x414, n1 := 16, st1 := 0x20, rw := 0xFFFFFF },  -- FLTA2
  { off := 0x418, n1 := 16, st1 := 0x20 },  -- FLTOUT
  { off := 0x600, n1 := 16, st1 := 0x10, rw := 0x31F1F0F },  -- CMPCFG
  { off := 0x604, n1 := 16, st1 := 0x10, rw := 0xFFFFFF },  -- CMPHI
  { off := 0x608, n1 := 16, st1 := 0x10, rw := 0xFFFFFF },  -- CMPLO
  { off := 0x60C, n1 := 16, st1 := 0x10 }]  -- CMPSTAT

/-- R346: the registers of ADC. -/
def rowsADC : List RegRow := [
  { off := 0, rw := 1 },  -- CFG
  { off := 4 },  -- STATUS
  { off := 8, reset := 0x80000000 }]  -- CAL

/-- R346: the registers of DSM. -/
def rowsDSM : List RegRow := [
  { off := 0, rw := 1 },  -- CFG
  { off := 4 },  -- STATUS
  { off := 0x10, n1 := 4, reset := 0x80000000 }]  -- CAL

/-- R378: the registers of TM. -/
def rowsTMA : List RegRow := [
  { off := 0, reset := 0x10, rw := 0x1F3737 },  -- CTRL
  { off := 4 },  -- STATUS
  { off := 8, rw := 0xFFFF },  -- CNT
  { off := 0xC, reset := 0xFFFF, rw := 0xFFFF },  -- PER
  { off := 0x10, reset := 0xFFFF },  -- PERACT
  { off := 0x14, w1c := 0xF0F3F },  -- EVT
  { off := 0x18, rw := 0x3F },  -- IEN
  { off := 0x1C, rw := 0x3FF },  -- DT
  { off := 0x20, rw := 0xFFFFFF },  -- OUTCFG
  { off := 0x40, n1 := 4, st1 := 0x10, rw := 0x3F337 },  -- CHCFG
  { off := 0x44, n1 := 4, st1 := 0x10, rw := 0xFFFF },  -- CC
  { off := 0x48, n1 := 4, st1 := 0x10 },  -- CCACT
  { off := 0x4C, n1 := 4, st1 := 0x10 },  -- CAPF
  { off := 0x80, n1 := 4 }]  -- WIDTH

/-- R378: the registers of a TMG, two channels, no dead time and no break. -/
def rowsTMG : List RegRow := [
  { off := 0, reset := 0x10, rw := 0x3737 },  -- CTRL
  { off := 4 },  -- STATUS
  { off := 8, rw := 0xFFFFFFFF },  -- CNT
  { off := 0xC, reset := 0xFFFFFFFF, rw := 0xFFFFFFFF },  -- PER
  { off := 0x10, reset := 0xFFFFFFFF },  -- PERACT
  { off := 0x14, w1c := 0x30313 },  -- EVT
  { off := 0x18, rw := 0x13 },  -- IEN
  { off := 0x20, rw := 0x303 },  -- OUTCFG
  { off := 0x40, n1 := 2, st1 := 0x10, rw := 0x3F317 },  -- CHCFG
  { off := 0x44, n1 := 2, st1 := 0x10, rw := 0xFFFFFFFF },  -- CC
  { off := 0x48, n1 := 2, st1 := 0x10 },  -- CCACT
  { off := 0x4C, n1 := 2, st1 := 0x10 },  -- CAPF
  { off := 0x80, n1 := 2 }]  -- WIDTH

/-- R401: the registers of TWB. -/
def rowsTWB : List RegRow := [
  { off := 0, rw := 0xF1F },  -- CTRL
  { off := 4 },  -- STATUS
  { off := 8, reset := 0x50054C50, rw := 0xFFFFFFFF },  -- TIMING
  { off := 0xC, rw := 0x83FF },  -- ADDR
  { off := 0x10 },  -- CMD
  { off := 0x14 },  -- TXDATA
  { off := 0x18 },  -- RXDATA
  { off := 0x1C, w1c := 0x3FFF },  -- EVT
  { off := 0x20, rw := 0x3FFF },  -- IEN
  { off := 0x24 },  -- RECOVER
  { off := 0x28, reset := 0x308, rw := 0x1037F },  -- ATTN
  { off := 0x2C, rw := 0xFFFFFF },  -- ATTNDATA
  { off := 0x30 }]  -- FIFO

/-- R402: the registers of CSP. -/
def rowsCSP : List RegRow := [
  { off := 0, reset := 0x700, rw := 0xFF039F1F },  -- CTRL
  { off := 4 },  -- STATUS
  { off := 8 },  -- TXDATA
  { off := 0xC },  -- RXDATA
  { off := 0x10, w1c := 0x1F },  -- EVT
  { off := 0x14, rw := 0x1F }]  -- IEN

/-- R403: the registers of HWN. -/
def rowsHWN : List RegRow := [
  { off := 0, reset := 0x5C00, rw := 0x7F1F },  -- CTRL
  { off := 4, reset := 0x80 },  -- STATUS
  { off := 8, w1c := 0x3F },  -- EVT
  { off := 0xC, rw := 0x3F },  -- IEN
  { off := 0x10 },  -- WRSPAN
  { off := 0x14, rw := 0xFF },  -- ATTNCODE
  { off := 0x140, n1 := 48 },  -- REG of a < 0x40
  { off := 0x200, n1 := 64, rw := 0xFF }]  -- REG of a ≥ 0x40

/-- R479: the registers of SVC. -/
def rowsSVC : List RegRow := [
  { off := 0, reset := 0x1A10003, rwt := 0x1FF0003 },  -- CTRL
  { off := 4, reset := 4 },  -- STATUS
  { off := 8, rwt := 0xFFFFF800 },  -- RXBASE
  { off := 0xC, rwt := 0xF },  -- RXCFG
  { off := 0x10 },  -- RXFREE
  { off := 0x14, reset := 0x2710, rwt := 0xFFFF },  -- GAP
  { off := 0x18, w1c := 0x1F },  -- EVT
  { off := 0x1C, rw := 0x1F },  -- IEN
  { off := 0x20, rc := true }]  -- CNT

/-- R502: the registers of GPIO. -/
def rowsGPIO : List RegRow := [
  { off := 0, n1 := 2 },  -- IN
  { off := 0x10, rw := 0xFFFFFFFF },  -- OUT of port 0
  { off := 0x14, rw := 0xFFFF },  -- OUT of port 1
  { off := 0x18, n1 := 2 },  -- OUTSET
  { off := 0x20, n1 := 2 },  -- OUTCLR
  { off := 0x28, rw := 0xFFFFFFFF },  -- DIR of port 0
  { off := 0x2C, rw := 0xFFFF }]  -- DIR of port 1

/-- R500: the registers of PIN. -/
def rowsPIN : List RegRow := [
  { off := 0, n1 := 48, rw := 0xFFF },  -- CFG
  { off := 0x100, n1 := 16, rw := 0x833F },  -- PEV
  { off := 0x140 },  -- LEVEL0
  { off := 0x144 }]  -- LEVEL1

/-- R265: the registers of RFE. -/
def rowsRFE : List RegRow := [
  { off := 0, rw := 3 },  -- CTRL
  { off := 4 },  -- STATUS
  { off := 8 },  -- LOFREQ
  { off := 0xC, reset := 0x80202020, rw := 0x803F3F3F },  -- TUNE
  { off := 0x10, reset := 0x280, rw := 0xFFFF },  -- TUNECFG
  { off := 0x14 },  -- TUNESTAT
  { off := 0x18, w1c := 7 },  -- EVT
  { off := 0x1C, rw := 7 },  -- IEN
  { off := 0x20 }]  -- PDET

/-- R210: the registers of RXC. -/
def rowsRXC : List RegRow := [
  { off := 0, rw := 0xB },  -- CTRL
  { off := 4 },  -- STATUS
  { off := 8, reset := 0x8ED0, rw := 0xFFFF },  -- WINBASE
  { off := 0xC, rw := 0xFFFF },  -- WINOFS
  { off := 0x10, reset := 0x3689CAC0, rw := 0x3FFFFFFF },  -- SUNFREQ
  { off := 0x14, reset := 0x800, rw := 0xFF0F },  -- SUNCFG
  { off := 0x18, reset := 0x4020F, rw := 0xF071F },  -- AGCCFG
  { off := 0x1C, reset := 0x1E },  -- AGCSTAT
  { off := 0x20, rc := true },  -- AGCCNT
  { off := 0x24, w1c := 0xF },  -- EVT
  { off := 0x28, rw := 0xF },  -- IEN
  { off := 0x2C },  -- BUSYMAP0
  { off := 0x30 },  -- BUSYMAP1
  { off := 0x40, n1 := 7 }]  -- GDLY

/-- R213: the registers of CH. -/
def rowsCH : List RegRow := [
  { off := 0, n1 := 64, st1 := 0x40, rw := 0x177F },  -- CH_CFG
  { off := 4, n1 := 64, st1 := 0x40 },  -- CH_STAT
  { off := 8, n1 := 64, st1 := 0x40, w1c := 0x1F },  -- CH_FLAGS
  { off := 0xC, n1 := 64, st1 := 0x40, reset := 0x400030, rw := 0xFF00FF },  -- CH_DET
  { off := 0x10, n1 := 64, st1 := 0x40, rw := 0xB3FF },  -- CH_CCA
  { off := 0x14, n1 := 64, st1 := 0x40 },  -- CH_RSSI
  { off := 0x18, n1 := 64, st1 := 0x40 },  -- CH_NOISE
  { off := 0x1C, n1 := 64, st1 := 0x40 },  -- CH_FOFS
  { off := 0x20, n1 := 64, st1 := 0x40 },  -- CH_TSLO
  { off := 0x24, n1 := 64, st1 := 0x40 },  -- CH_TSHI
  { off := 0x28, n1 := 64, st1 := 0x40, rc := true },  -- CH_CNT0
  { off := 0x2C, n1 := 64, st1 := 0x40, rc := true },  -- CH_CNT1
  { off := 0x30, n1 := 64, st1 := 0x40, rc := true }]  -- CH_CNT2

/-- R263: the registers of TXC. -/
def rowsTXC : List RegRow := [
  { off := 0, rw := 1 },  -- CTRL
  { off := 4 },  -- STATUS
  { off := 8, reset := 0x78, rw := 0x3FF },  -- LOCKTMO
  { off := 0xC, reset := 0x3C, rw := 0x7F },  -- HOPLEAD
  { off := 0x10, reset := 0xA, rw := 0x3F },  -- RAMP
  { off := 0x14, w1c := 0x7F },  -- EVT
  { off := 0x18, rw := 0x7F },  -- IEN
  { off := 0x1C, rc := true },  -- CNT
  { off := 0x20, rc := true },  -- AIRTIME
  { off := 0x24, reset := 2, rw := 0xFF07 },  -- FEMIDLE
  { off := 0x28, rw := 7 },  -- FEMINV
  { off := 0x30, rc := true },  -- MASKSTAT
  { off := 0x34, rc := true },  -- MASKWORST
  { off := 0x40, n1 := 8, rw := 0xFFF7FFFF },  -- SEQ
  { off := 0x80, n1 := 32, rw := 0x81FFFFFF },  -- MASK
  { off := 0x200, n1 := 7, st1 := 0x80, n2 := 24, rw := 0xFFF0FFF }]  -- FIR

/-- R239: the registers of FEC. -/
def rowsFEC : List RegRow := [
  { off := 0, reset := 0x13080C32, rw := 0x130F0F3F },  -- DECCFG
  { off := 4, reset := 0x60, rw := 0x7FF },  -- ENCCFG
  { off := 8, reset := 0x5F0B3A6D, rw := 0xFFFFFFFF },  -- SYNCW
  { off := 0xC },  -- STATUS
  { off := 0x10, rc := true },  -- CWCNT
  { off := 0x14, rc := true },  -- FRMCNT
  { off := 0x18, rc := true },  -- ITERSUM
  { off := 0x1C, rc := true },  -- ITERMAX
  { off := 0x20, rc := true },  -- HDRCNT
  { off := 0x24, rc := true },  -- LATMAX
  { off := 0x28, rc := true }]  -- VITCNT

/-- R294: the registers of LNK. -/
def rowsLNK : List RegRow := [
  { off := 0, rw := 0x1F },  -- CTRL
  { off := 4 },  -- STATUS
  { off := 8, reset := 0xFFFF, rw := 0xFFFF },  -- NID
  { off := 0xC, reset := 0xFFFE, rw := 0xFFFF },  -- SHORT
  { off := 0x10 },  -- EUILO
  { off := 0x14 },  -- EUIHI
  { off := 0x18, reset := 0x40, rw := 0x3FF },  -- REPLAYWIN
  { off := 0x1C },  -- FLOOR
  { off := 0x20, rw := 0xFFFFF000 },  -- SCEXT
  { off := 0x24 },  -- SCSTAT
  { off := 0x28 },  -- SCEXTSTAT
  { off := 0x30, rw := 0xFFFFFF80 },  -- POOLBASE
  { off := 0x34, reset := 0xA0000, rw := 0xF03FF },  -- POOLCFG
  { off := 0x38 },  -- POOLSTAT
  { off := 0x40, reset := 0x1728, rw := 0x373F },  -- ACKCFG
  { off := 0x44, reset := 0x821728, rw := 0xFF373F },  -- RELAYCFG
  { off := 0x48, reset := 0x404, rw := 0x1F1F },  -- TXPRE
  { off := 0x4C, reset := 3, rw := 3 },  -- FLOODCFG
  { off := 0x50, n1 := 4, rw := 0xFFFFFFFF },  -- RBINMAP
  { off := 0x60, w1c := 0x7F },  -- EVT
  { off := 0x64, rw := 0x7F },  -- IEN
  { off := 0x70, rc := true },  -- CNTRX
  { off := 0x74, rc := true },  -- CNTREJ
  { off := 0x78, rc := true },  -- CNTSEC
  { off := 0x7C, rc := true },  -- CNTDROP
  { off := 0x80, rc := true },  -- CNTACK
  { off := 0x84, rc := true },  -- CNTRLY
  { off := 0x88, rc := true },  -- CNTRLYD
  { off := 0x8C, rc := true },  -- CNTOVL
  { off := 0x90, n1 := 8, rw := 0xFFFF001F },  -- KEYCTX
  { off := 0x100 },  -- NTLO
  { off := 0x104 },  -- NTHI
  { off := 0x108 },  -- NTSEC
  { off := 0x10C },  -- NTADJ
  { off := 0x110, rw := 0xFFFFFFFF },  -- NTSETLO
  { off := 0x114, rw := 0xFFFFFFFF },  -- NTSETHI
  { off := 0x118, reset := 0xA00, rw := 0xF01 },  -- NTCFG
  { off := 0x11C, rw := 0xFFFF },  -- NTRATE
  { off := 0x120, reset := 0xFFFF0F08 },  -- NTSTAT
  { off := 0x124, reset := 0xFFFFFFFF },  -- NTAGE
  { off := 0x128 },  -- NTLASTOFS
  { off := 0x140, reset := 0x40140500, rw := 0xFFFF0F01 },  -- SCHCFG
  { off := 0x144 },  -- SCHNEXT
  { off := 0x148, rc := true },  -- SCHCNT
  { off := 0x160, rw := 0xFF0F },  -- BCNCFG
  { off := 0x164, rw := 0xFFFFFFFF },  -- PARENT0
  { off := 0x168, rw := 0xFFFFFFFF },  -- PARENT1
  { off := 0x16C },  -- BCNSTAT
  { off := 0x170 },  -- BCNNEXT
  { off := 0x174, rc := true },  -- CNTBCN
  { off := 0x178, w1c := 0x3F },  -- TEVT
  { off := 0x17C, rw := 0x3F }]  -- TIEN

/-- R295: the registers of LNKT. -/
def rowsLNKT : List RegRow := [
  { off := 0, n1 := 256, rw := 0x8003FFFF },  -- PEND
  { off := 0x400, n1 := 8, rw := 0x8000FFFF },  -- GROUP
  { off := 0x420, n1 := 8, st1 := 0x10, rw := 0xFFFFFFFF },  -- SINKA0
  { off := 0x424, n1 := 8, st1 := 0x10, rw := 0xFFFFFFFF },  -- SINKA1
  { off := 0x428, n1 := 8, st1 := 0x10, reset := 0xF00, rw := 0x1F03 }]  -- SINKCFG

/-- R266: the registers of CAL. -/
def rowsCAL : List RegRow := [
  { off := 0, reset := 0xFFF, rw := 0xFFF },  -- CTRL
  { off := 4 },  -- STATUS
  { off := 8, reset := 2, rw := 0xFF },  -- CFG
  { off := 0xC, rw := 0xFFFFFF },  -- XTAL
  { off := 0x10 },  -- XTALSTAT
  { off := 0x14, rw := 0xFFFFFFFF },  -- RXDC
  { off := 0x18, rw := 0xFFFFFFFF },  -- RXIQ
  { off := 0x1C, rw := 0xFFFFFFFF },  -- TXLO
  { off := 0x20, rw := 0xFFFFFFFF },  -- TXIQ
  { off := 0x24 },  -- TEMP
  { off := 0x400, n1 := 4, st1 := 0x100, n2 := 64, reset := 0x4000, rw := 0xFFFFFFFF }]  -- DPD

/-- R495: the registers of DBG. -/
def rowsDBG : List RegRow := [
  { off := 0, rw := 0x3F },  -- HALT
  { off := 4 },  -- STATUS
  { off := 8 }]  -- STEP

end Sys2Proof.Machine
end

