-- ==== Sys2Proof/Machine/Sparse.lean ====
section
/-! DEFINITION. Sparse tables: a list of (key, value) pairs in one canonical form, keys strictly rising and no entry equal
to what an unlisted key reads as.  Memory and the register file are both held this way. -/
namespace Sys2Proof.Machine

variable {α : Type}

/-- The value listed for a key, if any. -/
def sparseFind (k : Nat) : List (Nat × α) → Option α
  | [] => none
  | (j, v) :: rest => if j = k then some v else sparseFind k rest

/-- The value a key reads as: its entry, or the default of the key. -/
def sparseGet (d : Nat → α) (l : List (Nat × α)) (k : Nat) : α :=
  match sparseFind k l with
  | some v => v
  | none => d k

/-- The list without the entries of one key. -/
def sparseDrop (k : Nat) : List (Nat × α) → List (Nat × α)
  | [] => []
  | (j, v) :: rest => if j = k then sparseDrop k rest else (j, v) :: sparseDrop k rest

/-- Inserts an entry before the first larger key. -/
def sparseInsert (k : Nat) (v : α) : List (Nat × α) → List (Nat × α)
  | [] => [(k, v)]
  | (j, w) :: rest => if k < j then (k, v) :: (j, w) :: rest else (j, w) :: sparseInsert k v rest

/-- Writes one key: the entry disappears when the value is what the unlisted key reads as. -/
def sparseSet [DecidableEq α] (d : Nat → α) (l : List (Nat × α)) (k : Nat) (v : α) : List (Nat × α) :=
  if v = d k then sparseDrop k l else sparseInsert k v (sparseDrop k l)

/-- Keys strictly rising. -/
def sparseRising : List (Nat × α) → Bool
  | [] => true
  | [_] => true
  | (j, _) :: (k, w) :: rest => decide (j < k) && sparseRising ((k, w) :: rest)

/-- The canonical form. -/
def sparseWf [DecidableEq α] (d : Nat → α) (l : List (Nat × α)) : Bool :=
  sparseRising l && l.all (fun e => decide (e.2 ≠ d e.1))

end Sys2Proof.Machine
end

