-- ==== Sys2Proof/Config.lean ====
section
/-! DEFINITION. What the spec leaves open: free values, constants without a body.  Nothing can compute one or prove a value
of one, so a statement about a free value holds for every value (log 7). -/
namespace Sys2Proof.Config

/-- Free words: the word the `n`-th use draws (random bits of the TRNG and the DRBG, contents no rule states). -/
opaque freeWord : Nat → Word

/-- Free numbers: a measured or drawn number no rule fixes; the user of one reduces it to the range the rule gives. -/
opaque freeNat : Nat → Nat

/-- The contents of the boot ROM, which no rule states (01 R19). -/
opaque romByte : Nat → Byte

/-- 06 R143: which of the columns still free the code takes next: the rule fixes their weights alone. -/
opaque dramPick : Nat → Nat

/-- 04 R96: the SHA-256 of the provisioning key that the boot ROM holds. -/
opaque provKeyHash : List Byte

/-- 09 R229: a magnitude times ALPHA as a message of the min-sum decoder, one sixteenth of it where that is no whole number: the rule states
no precision. -/
opaque minSumScale : Nat → Nat

/-- 09 R220, R234: which of several equally likely words or paths a decoder takes. -/
opaque tiePick : Nat → Nat

end Sys2Proof.Config
end

