-- ==== Sys2Proof/Machine/State.lean ====
section
/-! DEFINITION. The state of the machine, as plain data: every piece of state the spec gives the device, the queue of
waiting commands, and the machine right after reset.  The contents of the registers are in `regs`, by address; the
structures hold the state behind the registers.  Every default value is the value at reset. -/
namespace Sys2Proof.Machine

/-! ### Clocks, power domains and cores (chapters 01 to 04) -/

/-- 01 R10: the conditions of a power domain.  `cg` is powered with its clock gated, `od` off until an access needs it,
`ret` logic off with memory retained, `sr` DRAM in self-refresh. -/
inductive DomCond where
  | on | cg | od | ret | sr | off
  deriving DecidableEq, Repr

/-- 02 R38: the three configurations of a player. -/
inductive CoreKind where
  | large | medium | small
  deriving DecidableEq, Repr

/-- What kind of operation a result in flight belongs to (03 R56, R59). -/
inductive FlightKind where
  | fixed | iterative | divide
  deriving DecidableEq, Repr

/-- 03 R52: a result in flight: the cycles left until it is written, the result ports it writes (numbered as 03 R84 numbers
them: 0 to 6 are CSR 0x28A to 0x290, 7 to 12 the frame ports), the `UFLAGS` bits it sets, the `QSTAT.CODE` it writes, and for
a division running through an interrupt the frame that receives its result (03 R76). -/
structure Flight where
  left : Nat
  kind : FlightKind := .fixed
  writes : List (Nat × Word)
  uflags : Word := 0
  qcode : Option Nat := none
  frame : Option (Fin 5) := none
  deriving DecidableEq, Repr

/-- The source of a move: a value, or a source socket id (02 R33, R43). -/
inductive Src where
  | val (w : Word)
  | sock (id : Nat)
  deriving DecidableEq, Repr

/-- One move: guard selector, source, slot and destination id (02 R33). -/
structure Move where
  guard : Nat := 0
  src : Src
  slot : Nat
  dst : Nat
  deriving DecidableEq, Repr

/-- A decoded bundle: its moves, its literal word if it has one (02 R47), and its length in bytes. -/
structure Bundle where
  moves : List Move
  lit : Option Word := none
  len : Nat
  deriving DecidableEq, Repr

/-- 03 R54: why a player stalls.  A fetch waits for a line, by the address of the word that needs it and the physical address of the
line (`delayFetch`: of a delay bundle that a call looks ahead to); an access outside the core's own memory waits with its address, its
physical address, that of the second copy and the S bit of the page. -/
inductive StallCause where
  | fetch (va line : Nat)
  | delayFetch (va line : Nat)
  | access (va ph : Nat) (cp : Option Nat) (sec : Bool)
  | bufferFull
  | divider
  | fence
  | deq (q : Nat)
  | wfe
  | csr
  | remap (page : Nat)
  deriving DecidableEq, Repr

/-- What the ends of its stalls have brought to the stalled bundle: the number a load returned, the code of a `sc.w`, the end of a
peripheral store, an error response, the disabling of the queue of a `deq`, the cause that woke a `wfe`; and the reservation that the
bundle leaves at its end (02 R30). -/
inductive Got where
  | load (v : Nat)
  | sc (code : Nat)
  | stored
  | err
  | done
  | wake (cause : Nat)
  | resv (r : Option Nat)
  deriving DecidableEq, Repr

/-- A stall in progress: its cause and the bundle that waits (none while the bundle itself is being fetched). -/
structure Stall where
  cause : StallCause
  bundle : Option Bundle := none
  deriving DecidableEq, Repr

/-- Whether a core may execute: held (04 R107), running, halted with a double fault (03 R83), halted by the debug port
(20 R495), or not started (its domain off, or the prompter before its release). -/
inductive RunCond where
  | held | running | faulted | debug | stopped
  deriving DecidableEq, Repr

/-- 03 R65: one entry of the write buffer: its physical address, its size and data, the address the program gave, the second copy and
the S bit of its page, and whether the curtain blocked it at its trigger (04 R94). -/
structure WEntry where
  addr : Nat
  size : Nat
  data : Word
  va : Nat
  cp : Option Nat := none
  sec : Bool := false
  bad : Bool := false
  deriving DecidableEq, Repr

/-- 03 R72, R82: a control transfer waiting for its delay bundles. -/
structure Xfer where
  target : Word
  left : Nat
  eret : Bool := false
  deriving DecidableEq, Repr

/-- 03 R76, R82: an interrupt or exception frame; `ports` are mul.p0, mul.p1, mul.acclo, mul.acchi, lsu.ld, lsu.sc. -/
structure Frame where
  epc : Word := 0
  grd : BitVec 4 := 0
  pstat : Word := 0
  ports : Vector Word 6 := Vector.replicate 6 0
  ecause : Word := 0
  eaddr : Word := 0
  ebt : Word := 0
  deriving DecidableEq, Repr

/-- One Emord core (chapters 02 and 03); the values are those of a reset (02 R32, 03 R84). -/
structure Core where
  pc : Word := 0
  a : Vector Word 32 := Vector.replicate 32 0
  b : Vector Word 32 := Vector.replicate 32 0
  g : BitVec 4 := 0
  opr : Vector Word 10 := Vector.replicate 10 0
  res : Vector Word 13 := Vector.replicate 13 0
  fly : List Flight := []
  prodAge : Nat := 2
  prodP1 : Bool := false
  pstat : Word := 2
  ivbase : Word := 0
  ien : Word := 0
  iprio0 : Word := 0
  iprio1 : Word := 0
  iline : Word := 0
  uflags : Word := 0
  qstat : Word := 0
  lcount : Word := 0
  lstart : Word := 0
  lend : Word := 0
  cycle : BitVec 64 := 0
  cycleh : Word := 0
  frames : Vector Frame 5 := Vector.replicate 5 {}
  xfer : Option Xfer := none
  wbuf : List WEntry := []
  held : List Word := []
  resv : Option Nat := none
  latch : Bool := false
  run : RunCond := .stopped
  stall : Option Stall := none
  got : List Got := []
  flines : List Nat := []
  deriving DecidableEq, Repr

/-- 04 R89: an input recorded by the link pair: a loaded value, a `CYCLE` read, a wake cause or the code of a `sc.w`; the result and the
code of a queue operation; an interrupt entry, the entry of an imprecise error at its address, or the cause of an error that
an access met, with the bundle count. -/
inductive InEntry where
  | value (v : Nat)
  | queue (r : Word) (code : Nat)
  | irq (bundle line : Nat)
  | imprecise (bundle : Nat) (addr : Word)
  | error (bundle code : Nat)
  deriving DecidableEq, Repr

/-- 04 R89, R90: the checkpoint of the link pair, its logs since (the undo log oldest first), the outputs and bundles since, whether it
restores, whether it replays, and what is left to replay. -/
structure Lockstep where
  chk : Core := {}
  undo : List (Nat × Word) := []
  inlog : List InEntry := []
  outs : Nat := 0
  bundles : Nat := 0
  restoring : Bool := false
  replay : Bool := false
  rin : List InEntry := []
  rout : Nat := 0
  deriving DecidableEq, Repr

/-- 04 R99 to R104: where start-up stands. -/
inductive BootStep where
  | power | clocks | verify | window | done
  deriving DecidableEq, Repr

/-- 04 R101 to R103: what the boot sequencer keeps. -/
structure Boot where
  step : BootStep := .power
  order : List Nat := []
  svcReq : Bool := false
  grace : Bool := false
  graceLeft : Nat := 0
  deriving DecidableEq, Repr

/-! ### Placement of data and work (chapter 05) -/

/-- 05 R113: one translation held in a TLB: the initiator, the scene page, the page-table entry and the epoch of its last
counted use. -/
structure TlbEntry where
  init : Nat
  page : Nat
  pte : BitVec 64
  epoch : Nat
  deriving DecidableEq, Repr

/-- 05 R108, R109: a prop, as the policy keeps it. -/
structure Region where
  base : Nat
  size : Nat
  attr : Word
  acl : Nat
  index : Nat
  deriving DecidableEq, Repr

/-- 05 R115: what a migration channel holds beside its registers: the page, the physical addresses of its source and
destination frames, the tier and frame of the destination, whether it makes a second copy, and the dirty granules. -/
structure Migration where
  page : Nat := 0
  src : Nat := 0
  dst : Nat := 0
  tier : Nat := 0
  frame : Nat := 0
  second : Bool := false
  dirty : BitVec 64 := 0
  deriving DecidableEq, Repr

/-- 20 R482: a frame that failed, by its physical address, with the words that trusted firmware has written since, and of these the
words it has read back without error. -/
structure Withdrawn where
  base : Nat := 0
  written : BitVec 512 := 0
  checked : BitVec 512 := 0
  deriving DecidableEq, Repr

/-- 05: the state of the stage manager and the queue block behind their registers; `hold` are the ring slots (queue, slot) that the
link hardware holds (11 R279), `rel` the released slots that `FREE` has yet to pass. -/
structure Stage where
  tlb : List TlbEntry := []
  regions : List Region := []
  mig : Vector Migration 2 := Vector.replicate 2 {}
  task : Vector Nat 4 := Vector.replicate 4 0
  restart : List Nat := []
  whereWords : List (Nat × Word) := []
  budget : Nat := 0
  plan : List (Nat × Nat) := []
  policyDue : Bool := false
  geometry : List (Nat × (Nat × Nat)) := []
  cleared : List Nat := []
  tags : List (Nat × List (Nat × Bool)) := []
  zeroFill : List Nat := []
  withdrawn : List Withdrawn := []
  hold : List (Nat × Nat) := []
  rel : List (Nat × Nat) := []
  deriving DecidableEq, Repr

/-! ### Cue lines (chapter 14) -/

/-- 14 R350 to R352, R356: an event on its way to one consumer, interrupt input or logic-cell input. -/
inductive CueTarget where
  | cons (k : Nat)
  | irq (p j : Nat)
  | cell (k j : Nat)
  deriving DecidableEq, Repr

/-- 14 R357, R358: a logic cell behind its registers: events taken in this cell clock, the old F, the output before the
filter, how long it has differed from the filtered output, whether the output changed in the last cell clock, and whether an
output event left in the last one (LATCH inputs clear). -/
structure Cell where
  taken : BitVec 4 := 0
  f : Bool := false
  raw : Bool := false
  hold : Nat := 0
  changed : Bool := false
  fired : Bool := false
  deriving DecidableEq, Repr

/-! ### DRAM, flash and MRAM (chapters 06 and 07) -/

/-- 06: the DRAM controller behind its registers: the validity map by T3 frame, the words whose stored check byte is not that
of their data with the difference (a poisoned word has 0xFF), the queue of poisoned frames, the open row of each bank with
its channel and bank, whether a set-point switch or release is running and what follows it, and the T3 frames whose contents a RESET
release lost (05 R125). -/
structure Dram where
  valid : List Nat := []
  badChk : List (Nat × BitVec 8) := []
  poisonq : List Nat := []
  poisonOvf : Bool := false
  rows : List (Nat × Nat) := []
  speed : Bool := false
  release : Nat := 0
  trainAll : Bool := false
  patrol : Nat := 0
  lost : List Nat := []
  deriving DecidableEq, Repr

/-- 07 R170: a running PROGRAM, EPOCH, RETIRE or ERASE: its descriptor, operation, first offset, length, the bytes done or
pulses made, the CRC-32 of its source, and the journal record that opened it. -/
structure FlashOp where
  desc : Nat
  op : Nat
  off : Nat
  len : Nat
  done : Nat := 0
  crc : Nat := 0
  openSeq : Nat := 0
  openSlot : Nat := 0
  safe : Bool := false
  backup : Option (Nat × Nat × Nat) := none
  deriving DecidableEq, Repr

/-- 07: the flash and MRAM controllers behind their registers: the operation in PROG or SPROG, the erase running or
suspended, the lines of the prefetch buffer and of the branch cache (most recently used first), the last line each initiator
fetched, and the buffered MRAM writes, oldest first, each a word address with its new bytes.  Then R167, R173, R178: the missed line
that the prefetch follows, whether the array rests between two bursts for waiting reads, since when a read waits, when one was last
served, when the erase last started, resumed or was suspended, and the bursts whose programming was cut short. -/
structure Nvm where
  prog : Option FlashOp := none
  erase : Option FlashOp := none
  pf : List Nat := []
  bc : List Nat := []
  lastFetch : List (Nat × Nat) := []
  mbuf : List (Nat × List (Nat × Byte)) := []
  miss : Option Nat := none
  gap : Bool := false
  readAt : Option Nat := none
  quietAt : Nat := 0
  eraseAt : Nat := 0
  torn : List Nat := []
  deriving DecidableEq, Repr

/-- Chapter 20: the fault block behind its registers: when the prompter last restarted warm (in ticks), whether its warm entry
runs, the last failed relocks with their PLL and instant, the instant of the last try to restart HFXO, and the cores that a write of `DBG.STEP` has yet to step. -/
structure FltState where
  warmAt : Option Nat := none
  warmEntry : Bool := false
  relocks : List (Nat × Nat) := []
  hfxoTry : Nat := 0
  steps : Nat := 0
  deriving DecidableEq, Repr

/-! ### Radio and link (chapters 08 to 12) -/

/-- 08 R197: the states of the automatic gain control. -/
inductive Agc where
  | hold | track | frozen
  deriving DecidableEq, Repr

/-- 08 R204: what a demodulator knows of a frame: its number, bin and mode, the SUN-FSK path, the sync time-stamp, RSSI, noise
floor, frequency offset, gain at sync, the GSTEP and CLIP flags, the sync word it sampled, LENGTH and CODE of its header, and of a SUN-FSK
frame whether its SFD was the coded one. -/
structure RxMeta where
  demod : Nat
  bin : Nat
  mode : Nat
  sun : Bool := false
  syncw : Word := 0
  ts : BitVec 64 := 0
  rssi : Nat := 0
  noise : Nat := 0
  fofs : Nat := 0
  gain : Nat := 0
  gstep : Bool := false
  clip : Bool := false
  len : Nat := 0
  code : Nat := 0
  coded : Bool := false
  deriving DecidableEq, Repr

/-- 08 R205: capture values as an APPLY found them staged: WINBASE, WINOFS, SUNFREQ, SUNCFG and MODE. -/
structure Capture where
  base : Word
  ofs : Word
  sun : Word
  sunCfg : Word
  wide : Bool
  deriving DecidableEq, Repr

/-- 08: the receive controller behind its registers: the AGC, the active capture values (R205), the values of an APPLY
that waits, whether it is held during a transmission, the frames in progress, the last values of NOW by demodulator (R201), since when the AGC is frozen, and the sync time-stamp of each
demodulator's last frame. -/
structure Rxc where
  agc : Agc := .hold
  base : Word := 0x8ED0
  ofs : Word := 0
  sun : Word := 0x3689CAC0
  sunCfg : Word := 0x800
  want : Option Capture := none
  applyHeld : Bool := false
  frames : List RxMeta := []
  hist : List (Nat × List Nat) := []
  frozenAt : Nat := 0
  stamps : List (Nat × BitVec 64) := []
  deriving DecidableEq, Repr

/-- 09 R231: a frame in FEC: its number, the demodulator's data, the codewords captured, those decoded with their information
octets, the most iterations, whether an alternative hypothesis was needed, and whether a codeword of it has failed while its demodulator
still captures. -/
structure FecFrame where
  id : Nat
  m : RxMeta
  captured : Nat := 0
  done : List (Nat × List Byte) := []
  iter : Nat := 0
  alt : Bool := false
  failed : Bool := false
  deriving DecidableEq, Repr

/-- 09 R229, R230: a codeword: its frame, its place in it, the hypothesis to decode it at (0 the nominal instant),
its LLRs at each instant, and `FEC.DECCFG` as sampled at its start. -/
structure Cw where
  frame : Nat
  idx : Nat
  hyp : Nat := 0
  llr : List (List Int) := []
  cfg : Word := 0
  deriving DecidableEq, Repr

/-- 09: the decoder: the frames it holds, the codewords waiting for their first decoding, the one being decoded, and those
waiting for an alternative hypothesis. -/
structure Fec where
  next : Nat := 0
  frames : List FecFrame := []
  waiting : List Cw := []
  cur : Option Cw := none
  alts : List Cw := []
  deriving DecidableEq, Repr

/-- 09 R231: a frame as FEC delivers it to LNK; `fin` is END (11 R286). -/
structure RxFrame where
  m : RxMeta
  mpdu : List Byte
  cw : Nat
  iter : Nat
  alt : Bool
  fin : BitVec 64
  deriving DecidableEq, Repr

/-- 10 R245: the source of a transmission. -/
inductive TxSrc where
  | ack | relay | queue (q : Nat)
  deriving DecidableEq, Repr

/-- 10 R242 to R246: a committed transmission: its source, descriptor and parameters, DATA instant and latest instant, the MPDU,
the sequence table, HOPLEAD, sync word, shaping taps, predistortion pair (none where it is bypassed) and mask sampled at step 0, the next step, the
instant of the step before it (after the last symbol, of its end) and of the lock in ticks of `uptime`, how long a DATA cut short lasted, what has been measured and tried, and
the flags of its STATUS. -/
structure TxJob where
  src : TxSrc
  desc : Nat := 0
  mode : Nat
  code : Nat
  bin : Nat
  pwr : Nat
  pre : Nat
  cls : Nat
  signal : Bool := false
  replyq : Nat := 0
  start : BitVec 64
  latest : BitVec 64
  mpdu : List Byte
  begun : Bool := false
  seq : List Word := []
  hop : Nat := 0
  syncw : Word := 0
  fir : List Word := []
  dpd : Option (List Word) := none
  limits : List (Int × Nat) := []
  step : Nat := 0
  inst : Nat := 0
  lockAt : Nat := 0
  dur : Nat := 0
  measured : Bool := false
  tried : Bool := false
  after : Bool := false
  data : Bool := false
  tstart : Word := 0
  paOn : Option Nat := none
  clamped : Bool := false
  mask : Bool := false
  trunc : Bool := false
  result : Option Nat := none
  deriving DecidableEq, Repr

/-- 10 R241, R253, R256: one sample of the shaped frame, in 1/2,048: I and Q (of SUN-FSK the frequency, in I), with the gain (1/16,384) and
phase (1/65,536 of a turn) that predistortion gives it. -/
structure TxSample where
  i : Int
  q : Int
  gain : Nat
  phase : Int
  deriving DecidableEq, Repr

/-- 10: the transmit controller behind its registers: the committed transmission, the heads of the TX queues that have passed their check, the
front-end pins and bias of the sequence (in the form of `TXC.FEMIDLE`, none outside a sequence), the coded bits of the frame and the samples
they give, the tuner setting a trial started
from, the next trial and its first |Γ|, a tuner write that waits for the end of the frame, and the active paths (bits 0 and
1 of `RFE.CTRL`). -/
structure Txc where
  job : Option TxJob := none
  heads : List TxJob := []
  fem : Option Word := none
  bits : List Bool := []
  wave : List TxSample := []
  trialFrom : Option Word := none
  trial : Nat := 0
  gamma : Nat := 0
  tuneWait : Option Word := none
  path : Nat := 0
  deriving DecidableEq, Repr

/-- 10 R249, R259, R260: the frequency at which the present VCO band was calibrated and that of a running calibration, the pending values of RX DC and RX I/Q, the
window of crystal samples with their sources, newest first, and the crystal error that the synthesiser corrects. -/
structure Cal where
  band : Nat := 0
  calAt : Nat := 0
  dc : Option Word := none
  iq : Option Word := none
  samples : List (Nat × Int) := []
  synth : Int := 0
  deriving DecidableEq, Repr

/-- 11 R285: a pending relay: its key, the copies heard, its start, what it changes in the FLOOD field, its mode, code, bin
and airtime in ticks, the frame, and the buffer and element that it holds. -/
structure Relay where
  src : Nat
  fcnt : Word
  copies : Nat := 1
  start : BitVec 64
  ttl : Nat
  hop : Nat
  dist : Nat
  mode : Nat
  code : Nat
  bin : Nat
  air : Nat
  mpdu : List Byte
  buf : Nat
  elem : Option (Nat × Nat) := none
  offered : Bool := false
  deriving DecidableEq, Repr

/-- 11 R289: a pending acknowledgement. -/
structure Ack where
  start : BitVec 64
  mode : Nat
  code : Nat
  bin : Nat
  srcKey : Nat
  srcEui : Bool
  fcnt : Word
  deriving DecidableEq, Repr

/-- 11 R275, 12 R317: a frame whose MIC is being verified: the buffer it takes (none when only the tracker awaits it), and
whether the tracker uses it whatever the later steps say. -/
structure MicWait where
  x : RxFrame
  buf : Option Nat
  trk : Bool
  deriving DecidableEq, Repr

/-- 11: the link controller behind its registers: the frames FEC has delivered, those that wait for their MIC with the buffer
they take, whether the cache was lost at a main reset and EN not set since, the on-chip seen cache (oldest first, FCNT and TAG), the newest key ever spilled, the pending relays and
acknowledgements, by how much the relay credit lies below its limit in units of 1/512 µs, and the buffers with the queue and slot
of the RX element of each. -/
structure Lnk where
  rx : List RxFrame := []
  mic : List MicWait := []
  fresh : Bool := true
  seen : List (Word × Nat) := []
  spilled : Option Word := none
  relays : List Relay := []
  acks : List Ack := []
  spent : Nat := 0
  bufs : List (Nat × (Nat × Nat)) := []
  deriving DecidableEq, Repr

/-- 12 R297, R299: network time behind its registers: the fractions of a tick, the rest of a slew, the highest value
before a backward step, a value to set, and the phase of XO32 against the tick. -/
structure Ntime where
  frac : Nat := 0
  slew : Int := 0
  slewAcc : Nat := 0
  top : BitVec 64 := 0
  set : Option (BitVec 64) := none
  xo : Nat := 0
  deriving DecidableEq, Repr

/-- 12 R305, R313 to R316: the beacon tracker: the expected reference instant, the instant of the last applied beacon, its E_p
and mode, the open beacon or search window, whether a beacon was applied in it, the number of the search window and when the
present one began, when LOST was entered. -/
structure Tracker where
  x : BitVec 64 := 0
  last : BitVec 64 := 0
  ep : Nat := 0
  mode : Nat := 0
  window : Bool := false
  applied : Bool := false
  search : Nat := 0
  since : BitVec 64 := 0
  next : BitVec 64 := 0
  deriving DecidableEq, Repr

/-- 12 R310, R312, R319: the listen schedule: the active `LNK.SCHCFG` and that of the open window, whether the own window is open, extended, and since
when, the announced window's instant, whether it is open, since when, and the `LNK.SCHCFG` in force then. -/
structure Sched where
  cfg : Word := 0x40140500
  win : Word := 0x40140500
  own : Bool := false
  ext : Bool := false
  at_ : BitVec 64 := 0
  ann : Option (BitVec 64) := none
  annOpen : Bool := false
  annAt : BitVec 64 := 0
  annWin : Word := 0x40140500
  deriving DecidableEq, Repr

/-! ### Power and the backup domain (chapter 18) -/

/-- 18 R452, R453: an alarm as it acts: its instant in seconds and subseconds, EN, REP, and whether it has fired. -/
structure Alarm where
  secs : Nat := 0
  sub : Nat := 0
  en : Bool := false
  rep : Nat := 0
  fired : Bool := false
  deriving DecidableEq, Repr

/-- 18 R452: how far an APPLY of staged values is. -/
inductive RtcApply where
  | idle | asked | moved
  deriving DecidableEq, Repr

/-- 18 R450 to R454: the RTC behind its registers: the seconds and subseconds, the groups staged since the last APPLY (time, trim,
alarm 0, alarm 1), those in transfer with their values (`SETSUB`, seconds, `TRIM`, the alarms), how far the APPLY is, the
alarms as they act. -/
structure Rtc where
  secs : Nat := 0
  sub : Nat := 0
  staged : List Nat := []
  moving : List Nat := []
  values : List Word := []
  apply : RtcApply := .idle
  alarms : Vector Alarm 2 := Vector.replicate 2 {}
  deriving DecidableEq, Repr

/-- 18 R436 to R441: the power manager behind its registers: the state asked for, a request that waits for a transition, the wake
events latched during an entry, whether the exit goes to RUN, whether DRAM stays in self-refresh, whether the device came to
SENSE from REST, whether a core has run since, whether it is in BLACKOUT, and the clock codes of the application players in effect (01 R14). -/
structure Power where
  target : Nat := 0
  held : Option Nat := none
  latch : List Nat := []
  toRun : Bool := false
  refresh : Bool := false
  fromRest : Bool := false
  ran : Bool := true
  blackout : Bool := false
  divs : Nat := 0x55
  deriving DecidableEq, Repr

/-! ### The sensor hub (chapter 13) -/

/-- 13 R323: the run context of a sheet behind `HUB.SHnSTAT`: the values, the stamp with HOLD and ERR, the loop counter, the steps
issued, the step in progress, when a WAIT ends, the switches the run turned on, the last sampling instant, the XO32 period of the
trigger that started the run, and whether the run aborts when its step ends. -/
structure Sheet where
  v : Vector (BitVec 24) 8 := Vector.replicate 8 0
  stamp : BitVec 64 := 0
  hold : Bool := false
  err : Nat := 0
  loop : Nat := 0
  steps : Nat := 0
  op : List Byte := []
  due : Nat := 0
  on : BitVec 4 := 0
  sample : Option (BitVec 64) := none
  period : Option Nat := none
  kill : Bool := false
  deriving DecidableEq, Repr

/-- 13 R335: the history of a filter engine: the inputs (newest first), y1 and y2, the inputs counted towards the next output, the
integrators and combs of a CIC. -/
structure Engine where
  xs : List Int := []
  y1 : Int := 0
  y2 : Int := 0
  n : Nat := 0
  integ : List (BitVec 48) := []
  comb : List (BitVec 48) := []
  deriving DecidableEq, Repr

/-- 13 R336: a compare unit behind `HUB.CMPkSTAT`: the previous input and the window, newest first. -/
structure CmpUnit where
  prev : Option Int := none
  win : List Bool := []
  deriving DecidableEq, Repr

/-- 13: the sensor hub: the sheets, engines and compare units, the levels of the pins it drives (R332), and the ticks of this
second in which a sheet was READY or RUN (R343). -/
structure Hub where
  sheets : Vector Sheet 32 := Vector.replicate 32 {}
  engines : Vector Engine 16 := Vector.replicate 16 {}
  cmps : Vector CmpUnit 16 := Vector.replicate 16 {}
  pins : List (Nat × Bool) := []
  busy : Nat := 0
  deriving DecidableEq, Repr

/-! ### Motion timers, serial buses and pins (chapters 15, 16 and 21) -/

/-- 15: a timer channel behind its registers: REF, the outputs CHn and CHnN, the ticks of dead time left for each, the accepted edges
since the last capture, and the width counter of a started pulse. -/
structure TmChan where
  ref : Bool := false
  out : Bool := false
  outN : Bool := false
  dead : Option Nat := none
  deadN : Option Nat := none
  edges : Nat := 0
  width : Option Nat := none
  deriving DecidableEq, Repr

/-- 15: a timer behind its registers: the prescaler accumulator, the count ticks it has given that are not yet counted, whether a trigger has been taken and not acted on, and the
channels. -/
structure Timer where
  acc : Nat := 0
  owed : Nat := 0
  trg : Bool := false
  chans : Vector TmChan 4 := Vector.replicate 4 {}
  deriving DecidableEq, Repr

/-- 16 R382, R387, R388: a two-wire bus behind its registers: the FIFOs, the command in progress with the bytes it has moved, its
received bytes that wait for room and whether its end on the bus is past, whether its transfer is on the bus, whether the last one
kept the bus, whether the bus has been free for BUF, a transfer of the hub, the retries left of an attention write, whether it is
on the bus and its message, a running recovery, when the present transfer took the bus, and when the last STOP was. -/
structure Twb where
  tx : List Byte := []
  rx : List Byte := []
  cmd : Option Word := none
  moved : Nat := 0
  inbox : List Byte := []
  ended : Bool := false
  onBus : Bool := false
  keep : Bool := false
  free : Bool := true
  hub : Bool := false
  attn : Option Nat := none
  attnBus : Bool := false
  msg : List Byte := []
  recover : Bool := false
  since : Nat := 0
  stopAt : Option Nat := none
  deriving DecidableEq, Repr

/-- 16 R390, R391: a clocked serial port behind its registers: the FIFOs, a transfer of the hub, the master frame in progress and when it
began. -/
structure Csp where
  tx : List Word := []
  rx : List Word := []
  hub : Bool := false
  frame : Option Word := none
  since : Nat := 0
  deriving DecidableEq, Repr

/-- 16 R393 to R399: a host-window transaction: whether it reads, whether its command byte is still to come, the status byte still to
be sent, the first and last host-area addresses it wrote, and the firmware area as it stood. -/
structure HwnTx where
  read : Bool := false
  cmd : Bool := false
  status : Option Byte := none
  span : Option (Nat × Nat) := none
  area : List Byte := []
  deriving DecidableEq, Repr

/-- 16: the host window behind its registers: the pointer (128 in overflow), FRAME_ERR and ADDR_OVF, the staging word, the holding
word, the transaction in progress, and the byte last sent to the host. -/
structure Hwn where
  ptr : Nat := 0
  frameErr : Bool := false
  addrOvf : Bool := false
  stage : Word := 0
  hold : Option Word := none
  tx : Option HwnTx := none
  sent : Byte := 0
  deriving DecidableEq, Repr

/-- 21: the outside of the 48 port pins: which of them an external source drives and to which level, by pin number.  01 R18: the level of `CLKOUT`, with the phase
of its source in millionths of a half period. -/
structure Pins where
  ext : BitVec 48 := 0
  extOn : BitVec 48 := 0
  clkout : Bool := false
  clkAcc : Nat := 0
  deriving DecidableEq, Repr

/-! ### Keys and the cipher (chapter 17) -/

/-- 17 R415: a slot command in progress: the word written to `KEY.CMD` and the arguments as they stood. -/
structure KeyCmd where
  cmd : Word
  arg0 : Word
  arg1 : Word
  arg2 : Word
  ctx : List Byte
  addr : Nat
  data : List Byte
  deriving DecidableEq, Repr

/-- 17 R419, R420: a cipher job in progress: its queue, the address of its descriptor, its enqueuer with the trust bit, and the
status it was given before its data were touched, if any. -/
structure Job where
  q : Nat
  desc : Nat
  who : Nat
  trust : Bool
  status : Option Nat := none
  key : List Byte := []
  deriving DecidableEq, Repr

/-- 17 R428: a message in HSH: the words of the chaining value, the bytes fed, the bytes of an unfinished block, and the feed that runs
(the value of `HSH.GO`). -/
structure HashMsg where
  chain : List Nat := []
  count : Nat := 0
  part : List Byte := []
  go : Option Word := none
  deriving DecidableEq, Repr

/-- 17: what KEY, AES, PKA, HSH and RNG hold behind their registers: the OTP bytes that are burnt, the memory key, the slot wrap and tag
keys, the identity scalar, the session value, the slot cache (most recently used first), the commands in progress, the
jobs (the running one first, then those that yielded to it), the hash message, the PKA operation, the random words ready, and
whether TAMPEN and TAMPPOL have been written since the reset. -/
structure Keys where
  otp : List (Nat × Byte) := []
  mem : Option (List Byte) := none
  wrap : Option (List Byte) := none
  tag : Option (List Byte) := none
  ident : Option Nat := none
  session : Word := 0
  cache : List (Nat × List Byte) := []
  cmd : Option KeyCmd := none
  otpCmd : Option Word := none
  jobs : List Job := []
  hash : HashMsg := {}
  pka : Option Nat := none
  fifo : List Word := []
  tampSet : Bool := false
  deriving DecidableEq, Repr

/-! ### Firmware update and the service port (chapter 19) -/

/-- Chapter 19: the service port behind its registers and the update service of the trusted image: the receive buffers in use,
the debug packet that waits, the reply being sent, the last request with its reply, the rate that follows the reply and whether
it is on trial, the nonce of AUTH with its instant, USTATE, the staged header, the bytes programmed of both regions and the
sectors erased, whether the activation is LIVE and the SEQ of its ACTIVATE, the players that ran before the pause, the
hold-over, whether READY came, the block whose main image runs, the cue line of UPD_MOTION with the network time of its last
event, and when a rate on trial, the drain, the trial and the first pause began. -/
structure Svc where
  used : List Nat := []
  dbg : Option (List Byte) := none
  reply : Option (List Byte) := none
  last : List Byte × List Byte := ([], [])
  newDiv : Option Nat := none
  probing : Bool := false
  probeAt : Nat := 0
  nonce : Option (List Byte × Nat) := none
  ustate : Nat := 0
  hdr : List Byte := []
  pos0 : Nat := 0
  pos1 : Nat := 0
  erased : List Nat := []
  live : Bool := false
  actReq : List Byte := []
  ran : List Nat := []
  holdover : Bool := false
  ready : Bool := false
  runBlock : Nat := 0
  motionLine : Option Nat := none
  motionAt : Option (BitVec 64) := none
  drainAt : Nat := 0
  trialAt : Nat := 0
  pauseAt : Nat := 0
  deriving DecidableEq, Repr


/-! ### The machine -/

/-- A register access that waits for its block's domain to power up (01 R11): the initiator, the address and, for a write,
the data. -/
structure HeldAccess where
  dom : Nat
  who : Nat
  addr : Nat
  data : Option Word
  deriving DecidableEq, Repr

/-- Why a command may stop: no command of this model does, since the spec gives every one of them its effect. -/
inductive Fault where
  /-- Raised by no meaning; kept so that the type has a value.  Safe. -/
  | none
  deriving DecidableEq, Repr

/-- Why a command may be refused. -/
inductive Refusal where
  /-- A command whose meaning is not written: raised by its arm of `exec` alone.  Safe. -/
  | notModelled (mnemonic : String)
  deriving DecidableEq, Repr

/-- 01 R10: the conditions of the domains right after reset, the RUN column: BKUP, GREEN, PROMPT and LINK on, RADIO off until
an access needs it, APP0 to APP3, the SRAM banks, DRAMSYS, NVM and PERIPH on.  Where the column gives a choice the domain is on
(log 24). -/
def resetDoms : List DomCond :=
  [.on, .on, .on, .on, .od] ++ List.replicate 4 .on ++ List.replicate 16 .on ++ [.on, .on, .on]

/-- The whole device.  `regs` is the register file by address, `mem` the memory by physical address, both in canonical form;
`rdata` is the word the last register read returned, `nt` the network time (12 R296), `uptime` the ticks of 31.25 ns since the main reset was released,
`free` the model's own counter of free values (log 7), and `pending` the commands that wait. -/
structure State where
  regs : List (Nat × Word) := []
  mem : List Host.Cell := []
  doms : List DomCond := resetDoms
  cores : Vector Core 6 := Vector.replicate 6 {}
  pair : Lockstep := {}
  boot : Boot := {}
  stg : Stage := {}
  dram : Dram := {}
  nvm : Nvm := {}
  flt : FltState := {}
  cueQ : List CueTarget := []
  cells : Vector Cell 16 := Vector.replicate 16 {}
  rxc : Rxc := {}
  fec : Fec := {}
  txc : Txc := {}
  cal : Cal := {}
  lnk : Lnk := {}
  ntime : Ntime := {}
  trk : Tracker := {}
  sched : Sched := {}
  rtc : Rtc := {}
  pwr : Power := {}
  hub : Hub := {}
  timers : Vector Timer 8 := Vector.replicate 8 {}
  twb : Vector Twb 5 := Vector.replicate 5 {}
  csp : Vector Csp 2 := Vector.replicate 2 {}
  hwn : Hwn := {}
  pins : Pins := {}
  keys : Keys := {}
  svc : Svc := {}
  heldAcc : List HeldAccess := []
  rdata : Word := 0
  nt : BitVec 64 := 0
  uptime : Nat := 0
  free : Nat := 0
  pending : List Instr := []
  deriving DecidableEq, Repr

/-- 04 R98: the machine right after the reset of its first power-up: every register at its reset value, memory with nothing
listed, the cores held or not started, the queue of commands empty. -/
def State.reset : State := {}

end Sys2Proof.Machine
end

