-- ==== Sys2Proof/Machine/Ops.lean ====
section
/-! DEFINITION. The named operations over registers and memory. -/
namespace Sys2Proof.Machine
open Sys2Proof.Reg

/-- The outcome of a command (Host/Core.lean). -/
abbrev Out := Host.Outcome State Fault Refusal

/-! ### The register file -/

/-- Whether a row describes the register at an offset (00 R9). -/
def rowHas (r : RegRow) (off : Nat) : Bool :=
  (List.range r.n1).any (fun i =>
    let o := r.off + r.st1 * i
    decide (o ≤ off) && decide (off < o + r.st2 * r.n2) && decide ((off - o) % r.st2 = 0))

/-- 01 R22: the register table of the block whose 4 KiB page this is; none for a page in no block. -/
def pageRows (page : Nat) : Option (List RegRow) :=
  match page with
  | 0x30000 => some rowsSYS | 0x30001 => some rowsPWR | 0x30002 => some rowsCLK | 0x30003 => some rowsRTC
  | 0x30004 => some rowsFLT | 0x30005 => some rowsKEY | 0x30006 => some rowsAES | 0x30007 => some rowsPKA
  | 0x30008 => some rowsHSH | 0x30009 => some rowsRNG | 0x3000A => some rowsFLC | 0x3000B => some rowsMRC
  | 0x3000C => some rowsDMC | 0x3000D => some rowsSTG
  | 0x30010 => some rowsQUE | 0x30011 => some [] | 0x30012 => some [] | 0x30013 => some []
  | 0x30014 => some rowsCUE | 0x30015 => some rowsHUB | 0x30016 => some rowsADC | 0x30017 => some rowsDSM
  | 0x30018 => some rowsTMA | 0x30019 => some rowsTMA
  | 0x3001A => some rowsTMG | 0x3001B => some rowsTMG | 0x3001C => some rowsTMG | 0x3001D => some rowsTMG
  | 0x3001E => some rowsTMG | 0x3001F => some rowsTMG
  | 0x30020 => some rowsTWB | 0x30021 => some rowsTWB | 0x30022 => some rowsTWB | 0x30023 => some rowsTWB
  | 0x30024 => some rowsTWB | 0x30025 => some rowsCSP | 0x30026 => some rowsCSP | 0x30027 => some rowsHWN
  | 0x30028 => some rowsSVC | 0x30029 => some rowsGPIO | 0x3002A => some rowsPIN
  | 0x30030 => some rowsRFE | 0x30031 => some rowsRXC | 0x30032 => some rowsCH | 0x30034 => some rowsTXC
  | 0x30035 => some rowsFEC | 0x30036 => some rowsLNK | 0x30037 => some rowsLNKT | 0x30038 => some rowsCAL
  | 0x30040 => some rowsDBG
  | _ => none

/-- The table row of the register at an address, if a register occupies it. -/
def regRow (a : Nat) : Option RegRow :=
  match pageRows (a / 4096) with
  | some rows => rows.find? (fun r => rowHas r (a % 4096))
  | none => none

/-- 10 R253: tap `k` of the factory shape of mode `m`: RRC α 0.35, or a frequency pulse of BT 0.5, sampled at the middle of 8 samples per
symbol, symmetric, of unit DC gain (log 119). -/
def shapeTap (m k : Nat) : Int :=
  (if m ≤ 3 then ([-7, -5, -2, 4, 10, 15, 18, 17, 11, 1, -13, -28, -40, -48, -46, -33, -7, 30, 77, 129, 180, 225, 259, 277] : List Int)
   else [0, 0, 0, 0, 0, 0, 0, 0, 0, 0, 0, 0, 0, 0, 1, 4, 13, 31, 61, 104, 152, 194, 224, 239]).getD (min k (47 - k)) 0

/-- The word of taps 2i and 2i + 1. -/
def shapeWord (m i : Nat) : Word := BitVec.ofNat 32 (unsint 12 (shapeTap m (2 * i)) + 65536 * unsint 12 (shapeTap m (2 * i + 1)))

/-- The value a register reads as while the register file does not list it: the reset value of its row, or the factory shape of the
filter. -/
def regReset (a : Nat) : Word :=
  match regRow a with
  | some r =>
    if TXC.FIR 0 0 ≤ a ∧ a < TXC.FIR 7 0 then shapeWord ((a - TXC.FIR 0 0) / 0x80) ((a - TXC.FIR 0 0) % 0x80 / 4)
    else BitVec.ofNat 32 r.reset
  | none => 0

/-- The contents of the register at an address. -/
def State.rd (s : State) (a : Nat) : Word := sparseGet regReset s.regs a

/-- Sets the register at an address. -/
def State.wr (s : State) (a : Nat) (v : Word) : State := { s with regs := sparseSet regReset s.regs a v }

/-- Field [hi:lo] of a register. -/
def State.fld (s : State) (a hi lo : Nat) : Nat := bitsOf (s.rd a) hi lo

/-- Sets field [hi:lo] of a register. -/
def State.setFld (s : State) (a hi lo x : Nat) : State := s.wr a (withBits (s.rd a) hi lo x)

/-- Bit `i` of a register. -/
def State.bit (s : State) (a i : Nat) : Bool := testB (s.rd a).toNat i

/-- Sets bit `i` of a register to a value. -/
def State.setBit (s : State) (a i : Nat) (v : Bool) : State := s.setFld a i i (natBit v)

/-- Adds to a saturating count in field [hi:lo] of a register. -/
def State.bump (s : State) (a hi lo n : Nat) : State :=
  s.setFld a hi lo (satAdd (2 ^ (hi + 1 - lo) - 1) (s.fld a hi lo) n)

/-- Raises a maximum kept in field [hi:lo] of a register. -/
def State.raise (s : State) (a hi lo n : Nat) : State :=
  if s.fld a hi lo < n then s.setFld a hi lo (min n (2 ^ (hi + 1 - lo) - 1)) else s

/-- Applies an operation when a condition holds. -/
def State.when (s : State) (c : Bool) (f : State → State) : State := if c then f s else s

/-- 00 R7: a write under the access codes of the register's row: W1C bits clear where a 1 is written, RW bits are set, RWT
bits are set for a trusted writer; every other bit keeps its value. -/
def codeWrite (r : RegRow) (old v : Word) (trusted : Bool) : Word :=
  let m : Word := BitVec.ofNat 32 (if trusted then r.rw ||| r.rwt else r.rw)
  let c : Word := BitVec.ofNat 32 r.w1c
  ((old &&& ~~~ m) ||| (v &&& m)) &&& ~~~ (v &&& c)

/-- A write of a register under its access codes; an offset no register occupies ignores it (00 R5). -/
def State.plainWrite (s : State) (a : Nat) (v : Word) (trusted : Bool) : State :=
  match regRow a with
  | some r => s.wr a (codeWrite r (s.rd a) v trusted)
  | none => s

/-- Returns the registers of an address range to their reset values. -/
def State.resetRegs (s : State) (a n : Nat) : State :=
  { s with regs := s.regs.filter (fun c => decide (c.1 < a ∨ a + n ≤ c.1)) }

/-- The bytes of registers from an address, the byte of [7:0] first. -/
def State.regBytes (s : State) (a n : Nat) : List Byte := (List.range n).flatMap (fun i => leBytes 4 (s.rd (a + 4 * i)).toNat)

/-- Sets registers from an address to words. -/
def State.wrWords (s : State) (a : Nat) : List Word → State
  | [] => s
  | w :: ws => (s.wr a w).wrWords (a + 4) ws

/-- Words of bytes, the first byte in [7:0]. -/
def leWords (bs : List Byte) : List Word := (List.range (bs.length / 4)).map (fun i => leWord ((bs.drop (4 * i)).take 4))

/-- Words of bytes, the first byte in [31:24]. -/
def beWords (bs : List Byte) : List Word := (List.range (bs.length / 4)).map (fun i => leWord ((bs.drop (4 * i)).take 4).reverse)

/-! ### Memory -/

/-- What a byte that nothing has written reads as: in the flash array 0xFF, its erased state (07 R163), but for the marker
burst of each sector, which leaves the factory valid (07 R164, with an erase count of 1: log 5), and that count in the wear table (07 R180);
0 elsewhere (log 5). -/
def memDefault (a : Nat) : Byte :=
  if 0x08000000 ≤ a ∧ a < 0x08400000 then
    if a % 0x4000 < 0x3FC0 then 0xFF else (eraseMarker ((a - 0x08000000) / 0x4000) 1).getD (a % 64) 0
  else if 0x0C004400 ≤ a ∧ a < 0x0C004800 ∧ a % 4 = 0 then 1
  else 0

/-- The byte at a physical address. -/
def State.byte (s : State) (a : Nat) : Byte := sparseGet memDefault s.mem a

/-- Writes the byte at a physical address. -/
def State.setByte (s : State) (a : Nat) (v : Byte) : State := { s with mem := sparseSet memDefault s.mem a v }

/-- `n` bytes of memory from an address. -/
def State.bytes (s : State) (a n : Nat) : List Byte := (List.range n).map (fun i => s.byte (a + i))

/-- Writes bytes from an address up. -/
def State.setBytes (s : State) (a : Nat) : List Byte → State
  | [] => s
  | v :: vs => (s.setByte a v).setBytes (a + 1) vs

/-- A little-endian number of `n` bytes. -/
def State.ld (s : State) (a n : Nat) : Nat := leNat (s.bytes a n)

/-- Stores a little-endian number of `n` bytes. -/
def State.st (s : State) (a n v : Nat) : State := s.setBytes a (leBytes n v)

/-- The word at a physical address. -/
def State.ldw (s : State) (a : Nat) : Word := BitVec.ofNat 32 (s.ld a 4)

/-- Stores a word at a physical address. -/
def State.stw (s : State) (a : Nat) (v : Word) : State := s.st a 4 v.toNat

/-- Memory and the register file are in canonical form. -/
abbrev Memory.wf (s : State) : Prop := sparseWf memDefault s.mem = true ∧ sparseWf regReset s.regs = true

/-! ### Small accessors -/

/-- Draws the next free value (log 7). -/
def State.draw (s : State) : Word × State := (Config.freeWord s.free, { s with free := s.free + 1 })

/-- Draws `n` free words, as their bytes. -/
def State.drawBytes (s : State) : Nat → List Byte × State
  | 0 => ([], s)
  | n + 1 =>
    let r := s.draw
    let t := r.2.drawBytes n
    (leBytes 4 r.1.toNat ++ t.1, t.2)

/-- The core numbered as `PID` reports it (03 R84): 0 to 3 APP0 to APP3, 4 the link pair, 5 the prompter. -/
def State.core (s : State) (p : Fin 6) : Core := s.cores[p]

/-- Replaces the state of one core. -/
def State.setCore (s : State) (p : Fin 6) (c : Core) : State := { s with cores := s.cores.set p c }

/-- 02 R38: the configuration of a core. -/
def coreKind (p : Fin 6) : CoreKind := if p.val < 4 then .large else if p.val = 4 then .medium else .small

/-- 01 R23: the initiator id of a core. -/
def coreInit (p : Fin 6) : Nat := if p.val = 5 then 0 else if p.val = 4 then 1 else p.val + 2

/-- 01 R23: the core that has an initiator id, if one has. -/
def initCore (i : Nat) : Option (Fin 6) :=
  if i = 0 then some 5 else if i = 1 then some 4 else if h : 2 ≤ i ∧ i ≤ 5 then some ⟨i - 2, by omega⟩ else none

/-- 17 R419: the job pipeline, initiator 0x0C, acts with the trust bit and the owner code of the enqueuer `e` of its job; it then
goes by the number 0x0C + 256 × (e + 1).  This is the initiator whose rights count. -/
def actingFor (i : Nat) : Nat := if i < 256 then i else i / 256 - 1

/-- The number of the job pipeline at a job that `e` enqueued. -/
def jobInit (e : Nat) : Nat := 0x0C + 256 * (e + 1)

/-- 01 R23: the trust bit of an initiator; the debug port's is 1 after a debug unlock. -/
def State.trusted (s : State) (i : Nat) : Bool :=
  let i := actingFor i
  i == 0 || i == 8 || i == 9 || i == 0xA || i == 0xB || i == 0xD || i == 0x11 || (i == 0x10 && s.bit DBG.STATUS 8)

/-- 14 R354: the owner code of an initiator; the debug port and the trusted engines have none. -/
def ownerCode (i : Nat) : Option Nat :=
  let i := actingFor i
  if i = 0 then some 0 else if i = 1 ∨ i = 7 then some 1 else if 2 ≤ i ∧ i ≤ 5 then some i
  else if i = 6 then some 6 else if i = 0xE ∨ i = 0xF then some 7 else none

/-- Changes the state of the stage manager and the queue block. -/
def State.upStg (s : State) (f : Stage → Stage) : State := { s with stg := f s.stg }
/-- Changes the state behind the DRAM controller's registers. -/
def State.upDram (s : State) (f : Dram → Dram) : State := { s with dram := f s.dram }
/-- Changes the state behind the registers of the flash and MRAM controllers. -/
def State.upNvm (s : State) (f : Nvm → Nvm) : State := { s with nvm := f s.nvm }
/-- Changes the state of one core. -/
def State.upCore (s : State) (p : Fin 6) (f : Core → Core) : State := s.setCore p (f (s.core p))
/-- Changes the state of the link pair's lockstep. -/
def State.upPair (s : State) (f : Lockstep → Lockstep) : State := { s with pair := f s.pair }
/-- Changes where start-up stands. -/
def State.upBoot (s : State) (f : Boot → Boot) : State := { s with boot := f s.boot }

/-! Power domains, numbered in the order of 01 R10. -/
abbrev Dom.bkup : Nat := 0
abbrev Dom.green : Nat := 1
abbrev Dom.prompt : Nat := 2
abbrev Dom.link : Nat := 3
abbrev Dom.radio : Nat := 4
abbrev Dom.app (n : Nat) : Nat := 5 + n
abbrev Dom.sram (k : Nat) : Nat := 9 + k
abbrev Dom.dramsys : Nat := 25
abbrev Dom.nvm : Nat := 26
abbrev Dom.periph : Nat := 27

/-- The condition of a power domain. -/
def State.dom (s : State) (d : Nat) : DomCond := s.doms.getD d .on

/-- Sets the condition of a power domain. -/
def State.setDom (s : State) (d : Nat) (c : DomCond) : State := { s with doms := modAt s.doms d (fun _ => c) }

/-- Whether a domain is powered and serves an access without powering up first. -/
def DomCond.ready : DomCond → Bool
  | .on => true
  | .cg => true
  | _ => false

/-- 04 R105: the system phase. -/
def State.phase (s : State) : Nat := s.fld SYS.PHASE 1 0

end Sys2Proof.Machine
end

