-- ==== Sys2Proof/Machine/Cue.lean ====
section
/-! DEFINITION. Cue lines: which producers reach a channel, and how an event leaves for its consumers (14 R347 to R355). -/
namespace Sys2Proof.Machine
open Sys2Proof.Reg

/-- 14 R349: the families of producers; the receive-queue family is wired to slot 6 of its own channel. -/
inductive Fam where
  | lc | pev | cmp | hring | rxq | miscc | teva | tevb | misca | miscb
  deriving DecidableEq, Repr

/-- 14 R348: the family wired to slot `sl` of the channels 16 × r to 16 × r + 15. -/
def slotFam (r sl : Nat) : Fam :=
  match r, sl with
  | _, 0 => .lc
  | _, 6 => .rxq
  | 0, 1 => .pev | 0, 2 => .tevb | 0, 3 => .cmp | 0, 4 => .hring | 0, 5 => .misca | 0, _ => .miscc
  | 1, 1 => .teva | 1, 2 => .pev | 1, 3 => .hring | 1, 4 => .misca | 1, 5 => .miscb | 1, _ => .tevb
  | 2, 1 => .pev | 2, 2 => .tevb | 2, 3 => .cmp | 2, 4 => .miscb | 2, 5 => .misca | 2, _ => .miscc
  | _, 1 => .teva | _, 2 => .cmp | _, 3 => .hring | _, 4 => .misca | _, 5 => .miscb | _, _ => .pev

/-- 14 R349: the members marked S. -/
def secureProducer (s : State) (f : Fam) (i : Nat) : Bool :=
  match f with
  | .lc => s.bit (CUE.LCOWN i) 3
  | .miscb => decide (11 ≤ i)
  | _ => false

/-- Whether channel `c` is secure (14 R355). -/
def chanSecure (s : State) (c : Nat) : Bool := s.bit (CUE.CHCFG c) 12

/-- Whether consumer `k` is enabled on channel `c` (14 R350). -/
def consOn (s : State) (k c : Nat) : Bool := if c < 32 then s.bit (CUE.CONSLO k) c else s.bit (CUE.CONSHI k) (c - 32)

/-- 14 R351, R361: interrupt input `j` of core `p`: its enable and its channel. -/
def irqSel (s : State) (p j : Nat) : Bool × Nat :=
  let v := s.fld (CUE.IRQSEL p (j / 4)) (8 * (j % 4) + 7) (8 * (j % 4))
  (testB v 7, v % 64)

/-- 14 R356: channel and mode of input `j` of logic cell `k`. -/
def cellIn (s : State) (k j : Nat) : Nat × Nat :=
  let v := s.fld (CUE.LCIN k) (8 * j + 7) (8 * j)
  (v % 64, v / 64)

/-- Sets the overrun bit of consumer `k` (14 R350). -/
def setOvr (s : State) (k : Nat) : State := if k < 32 then s.setBit CUE.OVR0 k true else s.setBit CUE.OVR1 (k - 32) true

/-- The targets an event of channel `c` leaves for, at this moment (14 R350, R351, R356). -/
def cueTargets (s : State) (c : Nat) : List CueTarget :=
  ((below 41 (fun k => consOn s k c)).map CueTarget.cons) ++
  ((List.range 6).flatMap (fun p => (below 16 (fun j => irqSel s p j == (true, c))).map (CueTarget.irq p))) ++
  ((List.range 16).flatMap (fun k => (below 4 (fun j =>
      (cellIn s k j).1 == c && (cellIn s k j).2 != 3 && (s.bit (CUE.LCOWN k) 3 || !chanSecure s c))).map (CueTarget.cell k)))

/-- An event reaches one consumer input: a second event before the first is taken is one event, with overrun (14 R352). -/
def cueArrive (s : State) (t : CueTarget) : State :=
  if s.cueQ.contains t then
    match t with
    | .cons k => setOvr s k
    | .irq p j => s.setBit (CUE.IRQOVR p) j true
    | .cell _ _ => s
  else { s with cueQ := s.cueQ ++ [t] }

/-- 14 R347, R353: channel `c` carries one event: SEEN is set and the event leaves for every enabled consumer.  On
the line of UPD_MOTION the trusted image records the time (19 R471). -/
def emitChan (s : State) (c : Nat) : State :=
  let s := (cueTargets s c).foldl cueArrive (s.setBit (CUE.CHSTAT c) 1 true)
  if s.svc.motionLine = some c then { s with svc := { s.svc with motionAt := some s.nt } } else s

/-- Whether slot `sl` of channel `c` is enabled for its producer (14 R347, R355). -/
def slotOn (s : State) (c sl : Nat) (f : Fam) (i : Nat) : Bool :=
  s.bit (CUE.CHCFG c) sl && (!secureProducer s f i || chanSecure s c)

/-- 14 R347, R348: a producer emits an event on every channel that enables it. -/
def emitProducer (s : State) (f : Fam) (i : Nat) : State :=
  (List.range 4).foldl (fun s r =>
    (List.range 8).foldl (fun s sl =>
      if slotFam r sl = f ∧ i < 16 ∧ slotOn s (16 * r + i) sl f i = true then emitChan s (16 * r + i) else s) s) s

/-- The watermark event of queue `q` (14 R349): RX queues, hub batch rings and Q112 to Q127 are wired. -/
def emitWatermark (s : State) (q : Nat) : State :=
  if q < 64 then (if slotOn s q 6 .rxq (q % 16) then emitChan s q else s)
  else if 72 ≤ q ∧ q < 88 then emitProducer s .hring (q - 72)
  else if 112 ≤ q ∧ q < 128 then emitProducer s .miscc (q - 112)
  else s

/-- 14 R349: bit `b` of an event register becomes 1, and emits the block's event if the same bit of its enable register is
1; a bit already set emits nothing. -/
def State.event (s : State) (evt ien b : Nat) (f : Fam) (i : Nat) : State :=
  if s.bit evt b then s
  else (s.setBit evt b true).when (s.bit ien b) (fun s => emitProducer s f i)

/-- 14 R354: whether an initiator owns channel `c` or is trusted. -/
def ownsChan (s : State) (who c : Nat) : Bool :=
  s.trusted who || ownerCode who == some (s.fld (CUE.CHCFG c) 10 8)

/-- 14 R354: whether an initiator owns logic cell `k` or is trusted. -/
def ownsCell (s : State) (who k : Nat) : Bool :=
  s.trusted who || ownerCode who == some (s.fld (CUE.LCOWN k) 2 0)

end Sys2Proof.Machine
end

