-- ==== Sys2Proof/Machine/Faultlog.lean ====
section
/-! DEFINITION. The fault log and the curtain's violation record (20 R489, 04 R94). -/
namespace Sys2Proof.Machine
open Sys2Proof.Reg

/-- An event of the FLT block (14 R349: MISCB 12). -/
def fltEvent (s : State) (b : Nat) : State := s.event FLT.EVT FLT.IEN b .miscb 12

/-- 20 R489: the word of a log entry that holds CLASS, INIT, DETAIL and FLAGS. -/
def logWord2 (cls init detail flags : Nat) : Word :=
  BitVec.ofNat 32 (cls % 256 + 256 * (init % 256) + 65536 * (detail % 256) + 16777216 * (flags % 256))

/-- Whether the entry before the next one has the same CLASS and LOC (20 R489, REPEAT). -/
def logRepeats (s : State) (cls : Nat) (loc : Word) : Bool :=
  let i := (s.fld FLT.LOGHEAD 5 0 + 63) % 64
  decide (s.fld FLT.LOGHEAD 31 16 ≠ 0) && decide (s.fld (FLT.LOG i 2) 7 0 = cls % 256) && decide (s.rd (FLT.LOG i 3) = loc)

/-- 20 R489: writes one log entry at the head of the ring, counts it, counts an overwrite of the oldest entry, and sets NEW.
`flags` gives REC and LOST; REPEAT is formed here. -/
def logFault (s : State) (cls init detail flags : Nat) (loc : Word) : State :=
  let h := s.fld FLT.LOGHEAD 5 0
  let n := s.fld FLT.LOGHEAD 31 16
  let fl := flags + (if logRepeats s cls loc then 4 else 0)
  let s := s.wr (FLT.LOG h 0) (BitVec.ofNat 32 s.nt.toNat)
  let s := s.wr (FLT.LOG h 1) (BitVec.ofNat 32 (s.nt.toNat / 2 ^ 32))
  let s := s.wr (FLT.LOG h 2) (logWord2 cls init detail fl)
  let s := s.wr (FLT.LOG h 3) loc
  let s := s.setFld FLT.LOGHEAD 5 0 ((h + 1) % 64)
  let s := s.bump FLT.LOGHEAD 31 16 1
  let s := s.when (decide (64 ≤ n)) (fun s => fltEvent (s.bump FLT.LOGHEAD 15 8 1) 2)
  fltEvent s 0

/-- 04 R94: the curtain counts a violation, records the first one since its record was cleared, and FLT logs it. -/
def curtainViolation (s : State) (who : Nat) (addr : Word) (write : Bool) : State :=
  let s := if s.bit FLT.CURT0 31 then s
    else (s.wr FLT.CURT0 (BitVec.ofNat 32 (who % 32 + 32 * natBit (s.trusted who) + 256 * natBit write + 2 ^ 31))).wr FLT.CURT1 addr
  let s := s.bump FLT.CURTCNT 15 0 1
  logFault s 0x20 who 0 0 addr

/-- 20 R482: a correctable error is counted, and logged with DETAIL 0x80 only while LOGCE is 1.  `reg` and [hi:lo] name the
count of its memory. -/
def correctable (s : State) (cls who reg hi lo : Nat) (loc : Word) : State :=
  (s.bump reg hi lo 1).when (s.bit FLT.CTRL 0) (fun s => logFault s cls who 0x80 1 loc)

end Sys2Proof.Machine
end

