-- ==== Sys2Proof/Machine/Wake.lean ====
section
/-! DEFINITION. The power manager's state and its wake events (18 R435 to R443), which an access to a resting domain also raises
(01 R11). -/
namespace Sys2Proof.Machine
open Sys2Proof.Reg

/-- The controller's state (07 R189). -/
def flcState (s : State) : Nat := s.fld FLC.STATUS 2 0

/-- Changes the state behind the power manager and the RTC. -/
def State.upPwr (s : State) (f : Power → Power) : State := { s with pwr := f s.pwr }
def State.upRtc (s : State) (f : Rtc → Rtc) : State := { s with rtc := f s.rtc }

/-- An event of PWR (14 R349: MISCB 11). -/
def pwrEvent (s : State) (b : Nat) : State := s.event PWR.EVT PWR.IEN b .miscb 11

/-- 18 R460: STATE and PHASE. -/
def pwrState (s : State) : Nat := s.fld PWR.STATUS 2 0
def pwrPhase (s : State) : Nat := s.fld PWR.STATUS 5 4

/-- Writes STATE and PHASE. -/
def setPwr (s : State) (st ph : Nat) : State := (s.setFld PWR.STATUS 2 0 st).setFld PWR.STATUS 5 4 ph

/-- Whether a core waits in `wfe` (03 R71). -/
def inWfe (s : State) (p : Fin 6) : Bool := match (s.core p).stall with
  | some x => x.cause == .wfe
  | none => false

/-- 18 R435, R436: whether a core is quiet: not powered or started, held, or in `wfe`. -/
def coreQuiet (s : State) (p : Fin 6) : Bool := match (s.core p).run with
  | .running => inWfe s p
  | .debug => false
  | _ => true

/-- The frame and relay conditions of LNK (18 R436, 11 R293). -/
def lnkQuiet (s : State) : Bool :=
  s.lnk.relays.isEmpty && s.lnk.acks.isEmpty && s.fec.frames.isEmpty && s.lnk.rx.isEmpty && s.lnk.mic.isEmpty

/-- 18 R436: what PREP waits for, as bits of WAITING; the stage manager's part falls into the commit (log 32). -/
def prepWaiting (s : State) : Nat :=
  2 * natBit (flcState s != 0) +
  4 * natBit (decide (3 ≤ s.pwr.target) && !lnkQuiet s) +
  8 * natBit (!([0, 1, 2, 3, 4] : List (Fin 6)).all (coreQuiet s) || (List.finRange 4).any (fun p => s.stg.task[p] != 0)) +
  16 * natBit (!coreQuiet s 5)

/-- Shows what PREP waits for. -/
def showWaiting (s : State) : State := s.setFld PWR.STATUS 12 8 (if pwrPhase s = 1 then prepWaiting s else 0)

/-- 07 R188, R189: `FLC.STATUS.HOLD`: entry into REST or BLACKOUT is requested, and the flash controller takes no new descriptor. -/
def setHold (s : State) (v : Bool) : State := s.setBit FLC.STATUS 4 v

/-- 18 R443: the sources that wake from SENSE. -/
def wakesSense (b : Nat) : Bool := decide (b ≤ 4) || decide (9 ≤ b)

/-- 18 R443: whether a source is enabled; 10 to 12 always are. -/
def wakeEnabled (s : State) (b : Nat) : Bool := decide (10 ≤ b) || s.bit PWR.WAKEEN b

/-- 18 R443: whether a source wakes to RUN; 10 to 12 always do. -/
def wakesToRun (s : State) (b : Nat) : Bool := decide (10 ≤ b) || s.bit PWR.WAKETO b

/-- 18 R440, R443: an exit begins, started by source `b`. -/
def startExit (s : State) (b : Nat) (toRun replay : Bool) : State :=
  let s := ((s.setFld PWR.LASTWAKE 3 0 b).setBit PWR.LASTWAKE 8 replay).bump PWR.LASTWAKE 31 16 1
  (setPwr s (pwrState s) 3).upPwr (fun p => { p with toRun := toRun, latch := [] })

/-- 18 R436, R437, R439, R443: a wake event of source `b`. -/
def wakeEvent (s : State) (b : Nat) : State :=
  if !wakeEnabled s b then s
  else
    let s := s.setBit PWR.WAKESTAT b true
    match pwrPhase s with
    | 1 => showWaiting (setHold ((setPwr (pwrEvent s 2) (pwrState s) 0).upPwr (fun p => { p with target := 0 })) false)
    | 2 => s.upPwr (fun p => { p with latch := addOnce p.latch b })
    | 3 => if wakesToRun s b then s.upPwr (fun p => { p with toRun := true }) else s
    | _ =>
      if pwrState s = 3 then startExit s b (wakesToRun s b) false
      else if pwrState s = 2 ∧ wakesSense b ∧ wakesToRun s b then startExit s b true false
      else s

end Sys2Proof.Machine
end

