-- ==== Sys2Proof/Machine/Scene.lean ====
section
/-! DEFINITION. Physical targets and the translation of scene space (01 R19 to R21, 05 R112 to R116, R122). -/
namespace Sys2Proof.Machine
open Sys2Proof.Reg

/-- 01 R19: what a physical address names. -/
inductive Target where
  | rom | flash | mram | tcm (n : Nat) | psram | sram (k : Nat) | periph | dram | nothing
  deriving DecidableEq, Repr

/-- 01 R19, R20: the target of a physical address, after the alias and the local TCM are resolved. -/
def targetOf (a : Nat) : Target :=
  if a < 0x20000 then .rom
  else if 0x08000000 ≤ a ∧ a < 0x08400000 then .flash
  else if 0x0C000000 ≤ a ∧ a < 0x0C080000 then .mram
  else if 0x11000000 ≤ a ∧ a < 0x11500000 then
    (if a % 0x100000 < 0x20000 then .tcm ((a - 0x11000000) / 0x100000) else .nothing)
  else if 0x18000000 ≤ a ∧ a < 0x18018000 then .psram
  else if 0x20000000 ≤ a ∧ a < 0x20200000 then .sram ((a - 0x20000000) / 0x20000)
  else if 0x30000000 ≤ a ∧ a < 0x30041000 then .periph
  else if 0x80000000 ≤ a ∧ a < 0x87000000 then .dram
  else .nothing

/-- 07 R177, 01 R19: the boot-block alias names the active block; 01 R21: the local TCM of a core is its global window.
An initiator without a TCM reaches nothing there. -/
def resolve (s : State) (who a : Nat) : Nat :=
  if 0x04000000 ≤ a ∧ a < 0x04020000 then 0x08000000 + 0x20000 * s.fld SYS.BOOTSEL 0 0 + (a - 0x04000000)
  else if 0x10000000 ≤ a ∧ a < 0x10020000 then
    match initCore who with
    | some p => if p.val = 5 then 0xFFFFFFFF else 0x11000000 + 0x100000 * p.val + (a - 0x10000000)
    | none => 0xFFFFFFFF
  else a

/-! ### The curtain on memory -/

/-- 01 R19, 04 R93: whether the curtain blocks an initiator's access to a physical address that lies outside the register blocks. -/
def memCurtain (s : State) (who a : Nat) : Bool :=
  !s.trusted who &&
  (match targetOf a with
   | .rom => true
   | .mram => true
   | .tcm _ => true
   | .psram => true
   | .sram _ => true
   | .dram => true
   | _ => false)

/-! ### DRAM frames -/

/-- The T3 frame of a physical DRAM address. -/
def frameOfDram (a : Nat) : Nat := (a - 0x80000000) / 4096

/-- Drops every byte listed in a range, so that it reads as unlisted. -/
def State.clearRange (s : State) (a n : Nat) : State :=
  { s with mem := s.mem.filter (fun c => decide (c.1 < a ∨ a + n ≤ c.1)) }

/-- Sets a range of bytes to zero. -/
def State.zeroRange (s : State) (a n : Nat) : State :=
  if memDefault a = 0 ∧ memDefault (a + n - 1) = 0 then s.clearRange a n else s.setBytes a (List.replicate n 0)

/-- 06 R148: the first write to a frame whose validity bit is 0 writes zeros to it and sets the bit. -/
def dramValidate (s : State) (f : Nat) : State :=
  if s.dram.valid.contains f then s
  else
    let s := s.clearRange (0x80000000 + 4096 * f) 4096
    let base := 0x80000000 + 4096 * f
    let bad := s.dram.badChk.filter (fun e => decide (e.1 < base ∨ base + 4096 ≤ e.1))
    s.upDram (fun d => { d with valid := f :: d.valid, badChk := bad })

/-- 06 R147, R150, R156, R157: whether the controller serves an access to a DRAM address. -/
def dramServes (s : State) (a : Nat) : Bool :=
  s.dom Dom.dramsys == .on && s.bit DMC.CTRL 0 && s.bit DMC.STATUS 0 && !s.bit DMC.FREEZE 0 && s.dram.release == 0 &&
  !((s.bit DMC.CTRL 2 || s.bit DMC.STATUS 1) && s.fld DMC.ADDRMAP 3 0 == 0 && decide (14336 ≤ frameOfDram a))

/-! ### What a reader sees -/

/-- The byte a read returns: buffered MRAM writes are seen (07 R179), an invalid DRAM frame reads zero (06 R148), the boot ROM
holds what Config gives it. -/
def State.view (s : State) (a : Nat) : Byte :=
  match targetOf a with
  | .rom => Config.romByte a
  | .mram =>
    match (s.nvm.mbuf.flatMap (fun e => e.2)).reverse.find? (fun e => e.1 == a) with
    | some e => e.2
    | none => s.byte a
  | .dram => if s.dram.valid.contains (frameOfDram a) then s.byte a else 0
  | _ => s.byte a

/-- `n` bytes as a reader sees them. -/
def State.viewBytes (s : State) (a n : Nat) : List Byte := (List.range n).map (fun i => s.view (a + i))

/-- A little-endian number as a reader sees it. -/
def State.viewNat (s : State) (a n : Nat) : Nat := leNat (s.viewBytes a n)

/-! ### Errors of a physical access -/

/-- 07 R168: whether a flash sector answers with a bus error: it is being erased, holds a suspended erase, or is unsettled. -/
def sectorBlocked (s : State) (sec : Nat) : Bool :=
  s.bit (FLC.UNSETTLED (sec / 32)) (sec % 32) ||
  (match s.nvm.erase with | some e => e.off / 0x4000 == sec | none => false)

/-- 07 R180: the initiators that reach the system area of the MRAM. -/
def mramSystem (who : Nat) : Bool := who == 0 || who == 0xD || who == 0x11

/-- The error response of a physical target to an engine: 01 R11 (a domain that is off), R19, R20, 06 R147, R157, 07 R168, R180.  NVM
and LINK power up for an access in every state but BLACKOUT; the register blocks take no engine's access (00 R4, log 87). -/
def physErr (s : State) (who a : Nat) (write : Bool) : Bool :=
  match targetOf a with
  | .rom => write
  | .flash => write || sectorBlocked s ((a - 0x08000000) / 0x4000)
  | .mram => decide (a < 0x0C008000) && !mramSystem who
  | .tcm n => n != 4 && !(s.dom (Dom.app n)).ready
  | .psram => s.dom Dom.prompt == .off
  | .sram k => s.dom (Dom.sram k) == .off
  | .periph => true
  | .dram => !dramServes s a
  | .nothing => true

/-- 01 R11: the domain of a memory that rests retained or powered down until an access needs it. -/
def restDom (a : Nat) : Option Nat :=
  match targetOf a with
  | .psram => some Dom.prompt
  | .sram k => some (Dom.sram k)
  | .mram => some Dom.nvm
  | .flash => some Dom.nvm
  | .tcm n => if n = 4 then some Dom.link else none
  | _ => none

/-- 01 R11, 18 R443: an access returns a retained memory to On and powers up an on-demand domain; one that meets a power-state entry,
or finds NVM or LINK down in REST, is a wake event (log 88).  06 R157 counts an access answered with an error while the controller is
frozen. -/
def touch (s : State) (a : Nat) : State :=
  match restDom a with
  | some d =>
    if s.dom d = .ret ∨ s.dom d = .od then (if pwrPhase s = 2 then wakeEvent s 11 else s.setDom d .on)
    else if s.dom d = .off ∧ (d = Dom.nvm ∨ d = Dom.link) then wakeEvent s 11
    else s
  | none => if targetOf a = .dram ∧ s.bit DMC.FREEZE 0 then s.bump DMC.FREEZE 31 16 1 else s

/-! ### Reservations, frames and injected errors -/

/-- 03 R67: a store by another initiator loses the reservations it hits. -/
def loseReservations (s : State) (who a n : Nat) : State :=
  { s with cores := Vector.ofFn (fun p =>
      let c := s.cores[p]
      match c.resv with
      | some g => if coreInit p ≠ who ∧ g < a + n ∧ a < g + 32 then { c with resv := none } else c
      | none => c) }

/-- 05 R112: the physical address of frame `f` of a tier. -/
def frameAddr (tier f : Nat) : Nat :=
  match tier with
  | 0 => 0x11000000 + 0x100000 * (f / 32) + 0x1000 * (f % 32)
  | 1 => 0x20000000 + 0x1000 * f
  | 2 => 0x0C000000 + 0x1000 * f
  | 3 => 0x80000000 + 0x1000 * f
  | _ => 0x08000000 + 0x1000 * f

/-- 05 R115: the state of a migration channel. -/
def migState (s : State) (c : Fin 2) : Nat := s.fld (STG.MIGCTRL c) 7 4

/-- 20 R487: an enabled mirror window over a flash offset: the mirror address and whether it lies in DRAM. -/
def mirrorOf (s : State) (f : Nat) : Option (Nat × Bool) :=
  ([0, 1].filterMap (fun k =>
    let first := s.fld (FLT.MIRCFG k) 7 0
    let n := s.fld (FLT.MIRCFG k) 15 8
    if s.bit (FLT.MIRCFG k) 16 ∧ first ≤ f / 0x4000 ∧ f / 0x4000 < first + n then
      some ((s.rd (FLT.MIRADDR k)).toNat + (f - 0x4000 * first), s.bit (FLT.MIRCFG k) 17) else none)).head?

/-- 20 R491: the kind of an armed injection that a read of `n` bytes meets: 1 or 2 flipped bits, 0 for none. -/
def injMeets (s : State) (a n : Nat) : Nat :=
  let k := s.fld FLT.INJCTRL 3 0
  let w := (s.rd FLT.INJADDR).toNat / 8 * 8
  if s.bit FLT.INJCTRL 16 ∧ (k = 1 ∨ k = 2) ∧ w < a + n ∧ a < w + 8 then k else 0

/-- 20 R482: the class of an uncorrectable error in a memory, and the count of its correctable ones: register and field. -/
def memClass (a : Nat) : Nat × Nat × Nat × Nat :=
  match targetOf a with
  | .psram => (0x02, FLT.CECNT0, 15, 0)
  | .tcm n => (if n = 4 then 0x04 else 0x03, FLT.CECNT0, 31, 16)
  | .mram => (0x05, FLT.CECNT1, 15, 0)
  | .flash => (0x06, FLT.CECNT1, 31, 16)
  | _ => (0x01, FLT.CECNT0, 15, 0)

/-- 20 R491: an armed injection fires once. -/
def injDisarm (s : State) : State := s.setBit FLT.INJCTRL 16 false

/-- 20 R482: an uncorrectable read outside scene space is logged; a word of the link TCM, which fails in both copies, halts the pair
(04 R91, log 86). -/
def readFault (s : State) (cls who detail flags : Nat) (loc : Word) : State :=
  logFault (if cls = 0x04 then (s.setBit SYS.LSTEP 17 true).upCore 4 (fun c => { c with run := .held }) else s) cls who detail flags loc

/-- 07 R167, R179: FLC and MRC count an ECC error of their memories in ECCCNT and keep its place in ECCADDR. -/
def eccCount (s : State) (a : Nat) (ue : Bool) : State :=
  let lo := if ue then 16 else 0
  match targetOf a with
  | .flash => ((s.bump FLC.ECCCNT (lo + 15) lo 1).wr FLC.ECCADDR (BitVec.ofNat 32 ((a - 0x08000000) / 32 * 32))).when ue (fun s => s.setBit FLC.ERR 2 true)
  | .mram => (s.bump MRC.ECCCNT (lo + 15) lo 1).wr MRC.ECCADDR (BitVec.ofNat 32 (a / 8 * 8))
  | _ => s

/-- 20 R491: what an injection does to a physical read outside DRAM: true when the data is not returned.  The entry carries INJ. -/
def injRead (s : State) (who a n : Nat) : Bool × State :=
  let m := memClass a
  let w := (s.rd FLT.INJADDR).toNat / 8 * 8
  let loc : Word := BitVec.ofNat 32 w
  match injMeets s a n with
  | 1 => (false, correctable (eccCount (injDisarm s) w false) m.1 (who % 128 + 128) m.2.1 m.2.2.1 m.2.2.2 loc)
  | 2 =>
    let saved := targetOf a == .flash && (mirrorOf s (a - 0x08000000)).isSome
    (!saved, readFault (eccCount (injDisarm s) w true) m.1 (who % 128 + 128) 0 (natBit saved) loc)
  | _ => (false, s)

/-! ### Translation -/

/-- 05 R112: the address of the second-level entry of a scene address, if the directory entry is valid. -/
def pteAddr (s : State) (a : Nat) : Option Nat :=
  let d := s.ld ((s.rd STG.PTBASE).toNat + 4 * ((a - 0x40000000) / 0x200000 % 512)) 4
  if d % 2 = 1 then some (d / 4096 * 4096 + 8 * (a / 4096 % 512)) else none

/-- The page-table entry of a scene address (0 where the directory has none). -/
def State.pte (s : State) (a : Nat) : BitVec 64 :=
  match pteAddr s a with
  | some p => BitVec.ofNat 64 (s.ld p 8)
  | none => 0

/-- A bit of a page-table entry. -/
def pteBit (e : BitVec 64) (i : Nat) : Bool := testB e.toNat i

/-- Field [hi:lo] of a page-table entry (05 R112). -/
def pteFld (e : BitVec 64) (hi lo : Nat) : Nat := (e.toNat >>> lo) % 2 ^ (hi + 1 - lo)

/-- A page-table entry with field [hi:lo] replaced. -/
def pteWith (e : BitVec 64) (hi lo x : Nat) : BitVec 64 :=
  BitVec.ofNat 64 (e.toNat - pteFld e hi lo * 2 ^ lo + (x % 2 ^ (hi + 1 - lo)) * 2 ^ lo)

/-- 05 R113: a page-table write by the stage manager invalidates the page in every TLB. -/
def setPte (s : State) (a : Nat) (e : BitVec 64) : State :=
  match pteAddr s a with
  | some p =>
    let s := s.st p 8 e.toNat
    s.upStg (fun g => { g with tlb := g.tlb.filter (fun t => t.page != a / 4096 * 4096) })
  | none => s

/-- 05 R113: the TLB size of a translating initiator. -/
def tlbSize (who : Nat) : Nat :=
  if who ≤ 5 then 64 else if who = 7 then 32 else if who = 0xE ∨ who = 0xF then 8 else 16

/-- 05 R117: A is set on a walk and on the first use of a TLB entry in each epoch. -/
def setAccessed (s : State) (a : Nat) : State :=
  match pteAddr s a with
  | some p => s.st p 8 (pteWith (BitVec.ofNat 64 (s.ld p 8)) 30 30 1).toNat
  | none => s

/-- The prop that covers a scene address. -/
def regionAt (s : State) (a : Nat) : Option Region :=
  s.stg.regions.find? (fun r => decide (r.base ≤ a) && decide (a < r.base + r.size))

/-- The scene pages of a prop. -/
def regionPages (r : Region) : List Nat := (List.range (r.size / 4096)).map (fun i => r.base + 4096 * i)

/-- 05 R112: the tier and frame of the second copy of a page, where it has one; a TIER2 of 5 or 6 is none. -/
def pteCopy (e : BitVec 64) : Option (Nat × Nat) :=
  if pteBit e 3 && decide (pteFld e 34 32 < 5) then some (pteFld e 34 32, pteFld e 49 35) else none

/-- A page-table entry with another primary frame. -/
def ptePlace (e : BitVec 64) (tier f : Nat) : BitVec 64 := pteWith (pteWith e 14 12 tier) 29 15 f

/-- A page-table entry without a second copy (05 R110). -/
def pteNoCopy (e : BitVec 64) : BitVec 64 := pteWith (pteWith e 34 32 7) 3 3 0

/-- How a translation ends (05 R114): at a physical address, with that of the second copy when the page has one and the S bit of
the page, or with the outcome of the first failing check. -/
inductive Trans where
  | ok (phys : Nat) (copy : Option Nat) (sec : Bool)
  | unmapped
  | bus
  | curtain
  deriving DecidableEq, Repr

/-- The three kinds of access. -/
inductive Acc where
  | read | write | fetch
  deriving DecidableEq, Repr

/-- 05 R122: what an initiator's most recent scene access leaves for `STG.WHERE`; an access that no entry translates leaves TIER 7 (log 89). -/
def setWhere (s : State) (who a : Nat) (e : BitVec 64) (hit : Bool) : State :=
  let w : Word := BitVec.ofNat 32 ((if pteBit e 0 then pteFld e 14 12 else 7) + 8 * ((pteCopy e).map (fun c => c.1)).getD 7 +
    64 * natBit hit + a / 4096 * 4096)
  s.upStg (fun g => { g with whereWords := (who % 256, w) :: g.whereWords.filter (fun x => x.1 != who % 256) })

/-- 05 R115: whether a migration channel is in COPY, RECOPY or FINAL. -/
def migRuns (s : State) (c : Fin 2) : Bool := decide (1 ≤ migState s c) && decide (migState s c ≤ 3)

/-- Whether a mapped page uses a frame as its primary or its second copy, or a running migration has reserved it (05 R115). -/
def frameInUse (s : State) (tier f : Nat) : Bool :=
  s.stg.regions.any (fun r => (regionPages r).any (fun p =>
    let e := s.pte p
    pteBit e 0 && ((pteFld e 14 12 == tier && pteFld e 29 15 == f) || pteCopy e == some (tier, f)))) ||
  (List.finRange 2).any (fun c => migRuns s c && s.stg.mig[c].tier == tier && s.stg.mig[c].frame == f)

/-- 20 R482: whether a frame failed and is not to be used again yet. -/
def frameWithdrawn (s : State) (tier f : Nat) : Bool := s.stg.withdrawn.any (fun w => w.base == frameAddr tier f)

/-- 20 R482: the words of a withdrawn frame that `n` bytes at `a` touch. -/
def frameWords (base a n : Nat) : BitVec 512 :=
  BitVec.ofNat 512 (packBits 512 (fun i => decide (base + 8 * i < a + n) && decide (a < base + 8 * i + 8)))

/-- 20 R482: a word of a withdrawn frame that trusted firmware writes is to be read back. -/
def noteWrite (s : State) (who a n : Nat) : State :=
  if s.trusted who then
    s.upStg (fun g => { g with withdrawn := g.withdrawn.map (fun w =>
      let m := frameWords w.base a n
      { w with written := w.written ||| m, checked := w.checked &&& ~~~m }) })
  else s

/-- 20 R482: a withdrawn frame is of use again when trusted firmware has read back every word of it that it wrote, all of them, without
error. -/
def noteRead (s : State) (who a n : Nat) : State :=
  if s.trusted who then
    s.upStg (fun g => { g with withdrawn := (g.withdrawn.map (fun w =>
      { w with checked := w.checked ||| (frameWords w.base a n &&& w.written) })).filter (fun w => w.checked != BitVec.allOnes 512) })
  else s

/-- 05 R123: a page marked for zero refill is backed again at its first access, by the lowest free T1 frame (log 20), and reads as zero. -/
def zeroRefill (s : State) (a : Nat) : State :=
  let page := a / 4096 * 4096
  if s.stg.zeroFill.contains page then
    match (List.range 512).find? (fun f => !frameInUse s 1 f && !frameWithdrawn s 1 f && s.dom (Dom.sram (f / 32)) == .on) with
    | some f =>
      let e := ptePlace (pteWith (s.pte page) 0 0 1) 1 f
      let s := (setPte s page e).clearRange (frameAddr 1 f) 4096
      s.upStg (fun g => { g with zeroFill := g.zeroFill.filter (fun p => p != page) })
    | none => s
  else s

/-- 05 R112: the frames behind an address: the primary, and the second copy of a page that has one. -/
def pteTarget (e : BitVec 64) (a : Nat) : Trans :=
  .ok (frameAddr (pteFld e 14 12) (pteFld e 29 15) + a % 4096)
    ((pteCopy e).map (fun c => frameAddr c.1 c.2 + a % 4096))
    (pteBit e 2)

/-- 05 R114: the checks of a scene access on the entry that translates it. -/
def pteCheck (s : State) (who : Nat) (acc : Acc) (a : Nat) (e : BitVec 64) (acl : Bool) : Trans :=
  if !s.bit STG.CTRL 0 || !pteBit e 0 || (regionAt s a).isNone then .unmapped
  else if pteBit e 5 || decide (4 < pteFld e 14 12) then .bus
  else if acc == .write && !pteBit e 1 then .bus
  else if acl && !s.trusted who then
    match ownerCode who with
    | some o =>
      if testB ((s.rd (STG.ACL (pteFld e 11 6))).toNat) (o + if acc = .write then 8 else 0)
      then pteTarget e a else .curtain
    | none => .curtain
  else pteTarget e a

/-- 20 R481, R482, R491: what the walker's read of a second-level entry meets, by `e` or by an injection: a correctable error is corrected,
and after an uncorrectable one the entry is read from the shadow table, whose entries are the same. -/
def walkRead (s : State) (who a : Nat) (e : Ecc) : State :=
  match pteAddr s a with
  | some p =>
    let m := memClass p
    let loc : Word := BitVec.ofNat 32 (p / 8 * 8)
    (match injMeets s p 8 with
     | 1 => correctable (injDisarm s) m.1 (who % 128 + 128) m.2.1 m.2.2.1 m.2.2.2 loc
     | 2 => logFault (injDisarm s) m.1 (who % 128 + 128) 0 1 loc
     | _ =>
       match e with
       | .ok => s
       | .ce => correctable s m.1 who m.2.1 m.2.2.1 m.2.2.2 loc
       | .ue => logFault s m.1 who 0 1 loc)
  | none => s

/-- 05 R112 to R114, R117, R122: translates a scene access; `acl` is false for the queue block and the migration channels
(R114).  A miss walks the table, where the walker meets `ecc`, and fills the initiator's TLB, its oldest entry making room (log 21). -/
def translate (s : State) (who : Nat) (acc : Acc) (a : Nat) (acl : Bool) (ecc : Ecc := .ok) : Trans × State :=
  if !s.bit STG.CTRL 0 then (.unmapped, setWhere s who a 0 false) else
  let s := zeroRefill s a
  let page := a / 4096 * 4096
  let ep := (s.rd STG.EPOCH).toNat
  match s.stg.tlb.find? (fun t => t.init == who % 256 && t.page == page) with
  | some t =>
    let s := if t.epoch = ep then s else
      (setAccessed s a).upStg (fun g => { g with tlb := g.tlb.map (fun u => if u = t then { u with epoch := ep } else u) })
    (pteCheck s who acc a t.pte acl, setWhere s who a t.pte true)
  | none =>
    let e := s.pte a
    let s := walkRead s who a ecc
    if pteBit e 0 && (regionAt s a).isSome then
      let s := setAccessed s a
      let own := s.stg.tlb.filter (fun t => t.init == who % 256)
      let rest := s.stg.tlb.filter (fun t => t.init != who % 256)
      let new : TlbEntry := { init := who % 256, page := page, pte := e, epoch := ep }
      let s := s.upStg (fun g => { g with tlb := (new :: own.take (tlbSize (who % 256) - 1)) ++ rest })
      (pteCheck s who acc a e acl, setWhere s who a e false)
    else (.unmapped, setWhere s who a 0 false)

/-- Whether an address lies in scene space (01 R19). -/
def isScene (a : Nat) : Bool := decide (0x40000000 ≤ a) && decide (a < 0x80000000)

/-- 05 R124, 20 R482: an uncorrectable error in a T0, T1 or T2 page: the failed frame is withdrawn; a page with a second copy has its
copies swapped, a page without one is lost.  The fault is logged with the physical address, and the policy is due (R118). -/
def pageFault (s : State) (who cls a phys : Nat) : State :=
  let e := s.pte a
  let base := frameAddr (pteFld e 14 12) (pteFld e 29 15)
  let s' := s.upStg (fun g => { g with
    withdrawn := { base := base } :: g.withdrawn.filter (fun w => w.base != base), policyDue := true })
  match pteCopy e with
  | some c => logFault (setPte s' a (pteNoCopy (ptePlace e c.1 c.2))) cls who 0 1 (BitVec.ofNat 32 phys)
  | none => logFault (setPte s' a (pteWith e 5 5 1)) cls who 0 2 (BitVec.ofNat 32 phys)

end Sys2Proof.Machine
end

