-- ==== Sys2Proof/Machine/Path.lean ====
section
/-! DEFINITION. The performing of accesses: the DRAM controller's mapping and ECC (06 R140 to R145, R157), physical reads and writes,
and the accesses of engines through scene space (01 R19, 05 R112 to R116, 17 R423). -/
namespace Sys2Proof.Machine
open Sys2Proof.Reg

/-! ### Migrations that a freeze ends -/

/-- 05 R115: a channel aborts: its destination is released, M is cleared, REASON is recorded. -/
def migAbort (s : State) (c : Fin 2) (reason : Nat) : State :=
  let m := s.stg.mig[c]
  let s := setPte s m.page (pteWith (s.pte m.page) 4 4 0)
  (s.setFld (STG.MIGCTRL c) 7 4 5).setFld (STG.MIGSTAT c) 14 12 reason

/-- Aborts the running migrations of which a property holds. -/
def migAbortIf (s : State) (reason : Nat) (p : Migration → Bool) : State :=
  (List.finRange 2).foldl (fun s c =>
    if migRuns s c ∧ p s.stg.mig[c] then migAbort s c reason else s) s

/-- 05 R125: while DRAM is frozen, pages with a copy elsewhere leave T3; the policy is due (R118). -/
def freezePages (s : State) : State :=
  let s := (s.setBit STG.STATUS 9 true).upStg (fun g => { g with policyDue := true })
  let s := migAbortIf s 4 (fun m => m.tier == 3 || targetOf m.src == .dram)
  (s.stg.regions.flatMap regionPages).foldl (fun s p =>
    let e := s.pte p
    match pteBit e 0, pteCopy e with
    | true, some c =>
      if pteFld e 14 12 = 3 then setPte s p (pteNoCopy (ptePlace e c.1 c.2))
      else if c.1 = 3 then setPte s p (pteNoCopy e) else s
    | _, _ => s) s

/-! ### Mapping -/

/-- 06 R140: the channel and channel-local address of a physical DRAM address. -/
def dramMap (s : State) (a : Nat) : Nat × Nat :=
  let o := a - 0x80000000
  let grain := s.fld DMC.ADDRMAP 3 0
  if grain = 0 then (if o < 0x03800000 then 0 else 1, o % 0x03800000)
  else
    let g := 2 ^ (grain + 7)
    let k := o / g
    (k % 2, k / 2 * g + o % g)

/-- 06 R156: the T3 frames that the powered channels hold. -/
def framesPowered (s : State) : Nat := if s.bit DMC.CTRL 2 && s.fld DMC.ADDRMAP 3 0 == 0 then 14336 else 28672

/-- 06 R140: the physical address of a channel-local address. -/
def dramUnmap (s : State) (c l : Nat) : Nat :=
  let grain := s.fld DMC.ADDRMAP 3 0
  if grain = 0 then 0x80000000 + 0x03800000 * c + l
  else
    let g := 2 ^ (grain + 7)
    0x80000000 + (2 * (l / g) + c) * g + l % g

/-- 06 R141: the location of a channel-local address: bank, row, byte in the row, and the place of its check byte in the row. -/
structure DramPlace where
  bank : Nat
  row : Nat
  byte : Nat
  chk : Nat
  deriving DecidableEq, Repr

/-- 06 R141: where a channel-local address lies: seven segments of 256 data bytes to a row, with their check bytes behind them. -/
def dramPlace (l : Nat) : DramPlace :=
  let seg := l / 256
  let g := seg / 7
  { bank := g % 8, row := g / 8, byte := 256 * (seg % 7) + l % 256, chk := 1792 + 32 * (seg % 7) + l % 256 / 8 }

/-- 06 R141, R155: the partial-array segment of a channel-local address. -/
def parSegment (l : Nat) : Nat := l / 0x700000

/-- 06 R140, R155: the bit of `DMC.SRMASK` for the segment that a physical address lies in. -/
def segmentBit (s : State) (a : Nat) : Nat := 8 * (dramMap s a).1 + parSegment (dramMap s a).2

/-- 06 R155: the segments that a T3 frame touches, as bits of `DMC.SRMASK`: a grain may spread a frame over both channels. -/
def frameSegments (s : State) (f : Nat) : List Nat :=
  ((List.range 16).map (fun i => segmentBit s (0x80000000 + 4096 * f + 256 * i))).eraseDups

/-- The refresh credit D of a channel (06 R153, R161). -/
def refreshCredit (s : State) (c : Fin 2) : Int := sint 5 (s.fld DMC.REFSTAT (8 * c.val + 4) (8 * c.val))

/-- Writes the refresh credit. -/
def setRefreshCredit (s : State) (c : Fin 2) (d : Int) : State := s.setFld DMC.REFSTAT (8 * c.val + 4) (8 * c.val) (unsint 5 d)

/-- 06 R153, R155: self-refresh exit: D is 0, and the frames of masked segments are no longer valid. -/
def selfRefreshExit (s : State) : State :=
  let m := s.fld DMC.SRMASK 15 0
  let lost := fun f => (frameSegments s f).any (fun i => testB m i)
  let s := (setRefreshCredit (setRefreshCredit s 0 0) 1 0).upDram (fun d => { d with valid := d.valid.filter (fun f => !lost f) })
  (s.setBit DMC.STATUS 3 false).setDom Dom.dramsys .on

/-- 01 R11: the stage manager takes the DRAM out of self-refresh for an access through scene space; in SENSE, where the DRAM has no clock,
the access is a wake event (log 88). -/
def sceneTouch (s : State) (ph : Nat) : State :=
  if targetOf ph = .dram ∧ s.dom Dom.dramsys = .sr then
    (if pwrState s ≤ 1 then selfRefreshExit s else wakeEvent s 11)
  else s

/-! ### ECC -/

/-- The difference between the stored check byte of a word and that of its data. -/
def storedSyn (s : State) (w : Nat) : BitVec 8 :=
  match s.dram.badChk.find? (fun e => e.1 == w) with
  | some e => e.2
  | none => 0

/-- Records that difference. -/
def setSyn (s : State) (w : Nat) (x : BitVec 8) : State :=
  s.upDram (fun d => { d with badChk :=
    (if x = 0 then [] else [(w, x)]) ++ d.badChk.filter (fun e => e.1 != w) })

/-- Picks `n` columns of a list; `drop c` are the columns that a choice of `c` rules out.  The rule fixes no column (log 90). -/
def pickCols (drop : BitVec 8 → BitVec 8 → Bool) : Nat → List (BitVec 8) → List (BitVec 8)
  | 0, _ => []
  | n + 1, l =>
    let c := l.getD (Config.dramPick n % l.length) 0
    c :: pickCols drop n (l.filter (fun x => !drop c x))

/-- The 8-bit columns whose weight `p` accepts. -/
def columns (p : Nat → Bool) : List (BitVec 8) := ((List.range 256).map (BitVec.ofNat 8)).filter (fun x => p (onesBelow 8 x.toNat))

/-- 06 R143, R144: the columns of the 23 address bits: distinct, of even weight, and no two of them, nor one, give 0xFF. -/
def addrCols : List (BitVec 8) :=
  pickCols (fun c x => x == c || x == ~~~c) 23 (columns (fun w => w == 2 || w == 4 || w == 6))

/-- The columns of the 64 data bits: distinct, of odd weight, none that of a check bit. -/
def dataCols : List (BitVec 8) := pickCols (fun c x => x == c) 64 (columns (fun w => w == 3 || w == 5 || w == 7))

/-- The sum of the columns at the set bits of a number. -/
def colSum (cols : List (BitVec 8)) (v : Nat) : BitVec 8 :=
  (List.range cols.length).foldl (fun x i => if testB v i then x ^^^ cols.getD i 0 else x) 0

/-- 06 R144: the address term F of the code, over the word address of a channel-local address. -/
def dramFold (l : Nat) : BitVec 8 := colSum addrCols (l / 8 % 2 ^ 23)

/-- 06 R143: the check byte of 64 data bits at a channel-local address. -/
def dramCheck (data l : Nat) : BitVec 8 := colSum dataCols data ^^^ dramFold l

/-- 06 R143: the single bit that a syndrome names: below 64 a data bit, from 64 a check bit. -/
def synBit (x : BitVec 8) : Option Nat :=
  match (List.range 64).find? (fun i => dataCols.getD i 0 == x) with
  | some i => some i
  | none => ((List.range 8).find? (fun i => x == BitVec.ofNat 8 (2 ^ i))).map (fun i => 64 + i)

/-- 06 R143, R144: whether a syndrome names a single bit; one of even weight never does. -/
def synSingle (x : BitVec 8) : Bool := (onesBelow 8 x.toNat) % 2 == 1 && (synBit x).isSome

/-- 06 R144: the word that a read path brings in place of the one at `w`. -/
def pathWord (s : State) (w : Nat) : DramPath → Nat
  | .misread l => dramUnmap s (dramMap s w).1 (l / 8 * 8)
  | _ => w

/-- 06 R143, R144: the syndrome of a read of the word at `w` on a path: that of the stored word with what the path adds; a word read at
another address brings its own, with the difference of the address terms. -/
def pathSyn (s : State) (w : Nat) (p : DramPath) : BitVec 8 :=
  match p with
  | .clean => storedSyn s w
  | .syndrome x => storedSyn s w ^^^ x
  | .misread l => storedSyn s (pathWord s w p) ^^^ dramFold (dramMap s w).2 ^^^ dramFold l

/-- 06 R157, R158: the controller freezes with cause UE and captures the word whose data came, `raw`: `op` is 0 for a read, 1 for the read
of a partial write, 2 for a patrol read. -/
def dramFreeze (s : State) (who a raw op : Nat) (syn : BitVec 8) : State :=
  if s.bit DMC.FREEZE 0 then s else
  let w := a / 8 * 8
  let m := dramMap s w
  let pl := dramPlace m.2
  let data := s.viewNat raw 8
  let chk := dramCheck data m.2 ^^^ syn
  let s := (s.setFld DMC.FREEZE 2 0 3).setBit DMC.STATUS 2 true
  let s := s.wr DMC.FRZADDR (BitVec.ofNat 32 w)
  let s := s.wr DMC.FRZCMD (BitVec.ofNat 32 (m.1 + 2 * op + 8 * pl.bank + 64 * pl.row + 2 ^ 18 * (pl.byte / 2)))
  let s := s.wr DMC.FRZSYN (BitVec.ofNat 32 (syn.toNat + 256 * chk.toNat + 65536 * (who % 32)))
  let s := (s.wr DMC.FRZDLO (BitVec.ofNat 32 data)).wr DMC.FRZDHI (BitVec.ofNat 32 (data / 2 ^ 32))
  freezePages (logFault s 0x0D who op 0 (BitVec.ofNat 32 w))

/-- 06 R143, R148: what reading one word gives on a path: true when the data may be returned.  A frame not yet valid reads zeros without
a check; a corrected word is written back.  20 R491: an injected error is found on this path and leaves the stored word as it is. -/
def dramReadWord (s : State) (who a op : Nat) (p : DramPath) : Bool × State :=
  let w := a / 8 * 8
  if !s.dram.valid.contains (frameOfDram a) then (true, s)
  else if injMeets s w 8 = 1 then (true, ((injDisarm s).bump DMC.CECOUNT 15 0 1).wr DMC.CEADDR (BitVec.ofNat 32 w))
  else if injMeets s w 8 = 2 then (false, dramFreeze (injDisarm s) (who % 128 + 128) a w op 3)
  else
    let x := pathSyn s w p
    if x = 0 then (true, s)
    else if x = 0xFF then (false, s.bump DMC.CECOUNT 31 16 1)
    else if synSingle x then
      let b := (synBit (storedSyn s w)).getD 64
      let s := if b < 64 then s.setByte (w + b / 8) (s.byte (w + b / 8) ^^^ BitVec.ofNat 8 (2 ^ (b % 8))) else s
      let s := s.bump DMC.CECOUNT 15 0 1
      (true, setSyn (s.wr DMC.CEADDR (BitVec.ofNat 32 w)) w 0)
    else (false, dramFreeze s who a (pathWord s w p) op x)

/-- 06 R152: an access opens its row, unless the bank closes it at once. -/
def dramOpenRow (s : State) (a : Nat) : State :=
  let m := dramMap s a
  let pl := dramPlace m.2
  let bank := 8 * m.1 + pl.bank
  let t := s.fld (DMC.PAGETMR (2 * m.1 + pl.bank / 4)) (8 * (pl.bank % 4) + 7) (8 * (pl.bank % 4))
  s.upDram (fun d => { d with rows :=
    (if t = 0 then [] else [(bank, pl.row)]) ++ d.rows.filter (fun r => r.1 != bank) })

/-- The words that `n` bytes at `a` touch. -/
def wordsOf (a n : Nat) : List Nat := (List.range ((a % 8 + n + 7) / 8)).map (fun i => a / 8 * 8 + 8 * i)

/-- 06 R143, R152: a read of `n` bytes: each word opens its row and passes its check; after a freeze the rest get the error too (R157). -/
def dramRead (s : State) (who a n : Nat) : Bool × State :=
  (wordsOf a n).foldl (fun (r : Bool × State) w => if r.1 then dramReadWord (dramOpenRow r.2 w) who w 0 .clean else r) (true, s)

/-! ### Performing a physical access -/

/-- Performs one buffered MRAM write in its word. -/
def mramPerform (s : State) (e : Nat × List (Nat × Byte)) : State :=
  (e.2.foldl (fun (t : State) (x : Nat × Byte) => t.setByte x.1 x.2) s).upNvm (fun v => { v with mbuf := v.mbuf.erase e })

/-- 07 R179: a write to MRAM within one word.  With WBEN = 1 it enters the buffer, merged with a buffered write to its word; a ninth word
performs the oldest first.  Without, a write still buffered for the word is performed before it. -/
def mramWrite (s : State) (a : Nat) (bs : List Byte) : State :=
  let w := a / 8 * 8
  if s.bit MRC.CTRL 0 then
    let upd := (List.range bs.length).map (fun i => (a + i, bs.getD i 0))
    let s := if s.nvm.mbuf.any (fun e => e.1 == w) then
        s.upNvm (fun v => { v with mbuf := v.mbuf.map (fun e => if e.1 = w then (w, e.2 ++ upd) else e) })
      else
        let s := match s.nvm.mbuf with
          | e :: _ => if 8 ≤ s.nvm.mbuf.length then mramPerform s e else s
          | [] => s
        s.upNvm (fun v => { v with mbuf := v.mbuf ++ [(w, upd)] })
    s.setBit MRC.STATUS 0 true
  else
    let s := match s.nvm.mbuf.find? (fun e => e.1 == w) with
      | some e => mramPerform s e
      | none => s
    (s.setBytes a bs).setBit MRC.STATUS 0 (!s.nvm.mbuf.isEmpty)

/-- Cuts bytes at the boundaries of 8-byte words, for writes that span several words of MRAM or DRAM. -/
def wordPieces : Nat → Nat → List Byte → List (Nat × List Byte)
  | 0, _, _ => []
  | fuel + 1, a, bs =>
    if bs.isEmpty then [] else
    let n := 8 - a % 8
    (a, bs.take n) :: wordPieces fuel (a + n) (bs.drop n)

/-- 06 R145: a write to DRAM, word by word: a full word takes a matching check byte; a partial one first reads its word on the path `p`
and is discarded when that read fails (a poisoned word included: log 91), with the writes behind it once the controller is frozen (R157).  True when a write was discarded. -/
def dramWrite (s : State) (who a : Nat) (bs : List Byte) (p : DramPath) : Bool × State :=
  (wordPieces bs.length a bs).foldl (fun (r : Bool × State) (x : Nat × List Byte) =>
    if s.bit DMC.FREEZE 0 != r.2.bit DMC.FREEZE 0 then (true, r.2) else
    let s := dramOpenRow r.2 x.1
    if x.2.length = 8 then
      (r.1, ((dramValidate s (frameOfDram a)).setBytes x.1 x.2).upDram (fun d => { d with badChk := d.badChk.filter (fun e => e.1 != x.1) }))
    else
      let y := dramReadWord s who x.1 1 p
      if y.1 then (r.1, (dramValidate y.2 (frameOfDram a)).setBytes x.1 x.2) else (true, y.2)) (false, s)

/-- 05 R115: a write to a page in COPY, RECOPY or FINAL sets the dirty bit of its granule. -/
def markDirty (s : State) (a n : Nat) : State :=
  s.upStg (fun g => { g with mig := Vector.ofFn (fun c : Fin 2 =>
      let m := g.mig[c]
      let hit := packBits 64 (fun i => decide (64 * i < a - m.src + n) && decide (a - m.src < 64 * i + 64))
      if migRuns s c ∧ m.src ≤ a ∧ a < m.src + 4096 then
        { m with dirty := m.dirty ||| BitVec.ofNat 64 hit }
      else m) })

/-- Performs a write whose checks have passed, in one physical target; true when DRAM discarded it (06 R145). -/
def performWrite (s : State) (who a : Nat) (bs : List Byte) (p : DramPath := .clean) : Bool × State :=
  let s := touch s a
  let r := match targetOf a with
    | .mram => (false, (wordPieces bs.length a bs).foldl (fun s p => mramWrite s p.1 p.2) s)
    | .dram => dramWrite s who a bs p
    | _ => (false, s.setBytes a bs)
  if r.1 then r else (false, loseReservations (markDirty r.2 a bs.length) who a bs.length)

/-- A physical read by an initiator, the curtain apart: none for an error response. -/
def physRead (s : State) (who a n : Nat) : Option (List Byte) × State :=
  if physErr s who a false || physErr s who (a + n - 1) false then (none, touch s a)
  else if targetOf a = .dram then
    let r := dramRead s who a n
    (if r.1 then some (r.2.viewBytes a n) else none, r.2)
  else if (injRead s who a n).1 then (none, touch (injRead s who a n).2 a)
  else (some (s.viewBytes a n), touch (injRead s who a n).2 a)

/-- A physical write by an initiator, the curtain apart: true for an error response. -/
def physWrite (s : State) (who a : Nat) (bs : List Byte) : Bool × State :=
  if physErr s who a true then (true, touch s a) else performWrite s who a bs

/-! ### Accesses through scene space -/

/-- 05 R111, 17 R423: whether an access for a page passes the cipher memory pipeline: the page is SECURE and the frame lies in T3 or
T4. -/
def ciphered (sec : Bool) (ph : Nat) : Bool := sec && (targetOf ph == .dram || targetOf ph == .flash)

/-- The data units of `bs`, whose first byte has scene address `a` (a multiple of 64), through `f`. -/
def mapUnits (f : Nat → List Byte → List Byte) (a : Nat) (bs : List Byte) : List Byte :=
  (List.range (bs.length / 64)).flatMap (fun i => f (a / 64 + i) ((bs.drop (64 * i)).take 64))

/-- 17 R423: a refused access to a SECURE page is counted in `AES.MEMERR`. -/
def memRefused (s : State) : State := s.bump AES.MEMERR 15 0 1

/-- The bytes of a page at scene address `a` from the frame at physical address `ph`, deciphered where the pipeline does so. -/
def framedRead (s : State) (who a ph n : Nat) (sec : Bool) : Option (List Byte) × State :=
  let s := sceneTouch s ph
  if ciphered sec ph then
    match s.keys.mem with
    | none => (none, memRefused s)
    | some k =>
      let o := ph % 64
      match physRead s who (ph - o) ((o + n + 63) / 64 * 64) with
      | (some bs, s) => (some (((mapUnits (xtsDec k) (a - o) bs).drop o).take n), s)
      | r => r
  else physRead s who ph n

/-- A read of a mapped page at scene address `a` and physical address `ph`.  An uncorrectable error injected under a T0, T1 or T2 page
(20 R491) swaps the copies of a page that has a second one, and the read is made from that; a page without one is lost (05 R124). -/
def mappedRead (s : State) (who a ph n : Nat) (sec : Bool) : Option (List Byte) × State :=
  if injMeets s ph n = 2 ∧ targetOf ph ≠ .dram ∧ targetOf ph ≠ .flash then
    let e := s.pte a
    let s := pageFault (eccCount (injDisarm s) ph true) (who % 128 + 128) (memClass ph).1 a ph
    match pteCopy e with
    | some c => framedRead s who a (frameAddr c.1 c.2 + a % 4096) n sec
    | none => (none, s)
  else framedRead s who a ph n sec

/-- A write of a mapped page: the pipeline encrypts whole units; the units that a write covers in part are first read, decrypted and
merged (17 R423). -/
def mappedWrite (s : State) (who a ph : Nat) (bs : List Byte) (sec : Bool) : Bool × State :=
  let s := sceneTouch s ph
  if ciphered sec ph then
    match s.keys.mem with
    | none => (true, memRefused s)
    | some k =>
      let o := ph % 64
      if o = 0 ∧ bs.length % 64 = 0 then physWrite s who ph (mapUnits (xtsEnc k) a bs) else
      match physRead s who (ph - o) ((o + bs.length + 63) / 64 * 64) with
      | (some old, s) =>
        let p := mapUnits (xtsDec k) (a - o) old
        physWrite s who (ph - o) (mapUnits (xtsEnc k) (a - o) (p.take o ++ bs ++ p.drop (o + bs.length)))
      | (none, s) => (true, s)
  else physWrite s who ph bs

/-- A write through scene space goes to the primary frame and to the second copy, so that the copies stay equal (log 23). -/
def copyWrite (s : State) (who a ph : Nat) (cp : Option Nat) (bs : List Byte) (sec : Bool) : Bool × State :=
  let r := mappedWrite s who a ph bs sec
  if r.1 then r else
  match cp with
  | some q => (false, (mappedWrite r.2 who a q bs sec).2)
  | none => r

/-- A new page reads as zero (05 R108), whatever its frame held or has in a write buffer. -/
def zeroPage (s : State) (a ph : Nat) (sec : Bool) : State :=
  if ciphered sec ph && s.keys.mem.isSome then (mappedWrite s 8 a ph (List.replicate 4096 0) sec).2
  else match targetOf ph with
    | .dram => ((dramValidate s (frameOfDram ph)).upDram (fun d => { d with
        badChk := d.badChk.filter (fun e => decide (e.1 < ph ∨ ph + 4096 ≤ e.1)) })).zeroRange ph 4096
    | .mram => (s.upNvm (fun v => { v with mbuf := v.mbuf.filter (fun e => decide (e.1 < ph ∨ ph + 4096 ≤ e.1)) })).zeroRange ph 4096
    | _ => s.zeroRange ph 4096

/-- Copies `n` bytes of the page at scene address `a` from one frame to another for migration channel `who`: false when its read meets an
uncorrectable error (05 R115) or an end answers with an error response. -/
def copyRange (s : State) (who a src dst n : Nat) (sec : Bool) : Bool × State :=
  let ue := injMeets s src n == 2
  match mappedRead s who a src n sec with
  | (none, s) => (false, s)
  | (some bs, s) => if ue then (false, s) else let r := mappedWrite s who a dst bs sec; (!r.1, r.2)

/-- Splits a range at page boundaries. -/
def pagePieces : Nat → Nat → Nat → List (Nat × Nat)
  | 0, _, _ => []
  | fuel + 1, a, n => if n = 0 then [] else
    let m := min n (4096 - a % 4096)
    (a, m) :: pagePieces fuel (a + m) (n - m)

/-- A read of an engine at a scene or physical address (04 R93); none for an error response, recorded by the curtain where it blocks. -/
def engineRead (s : State) (who a n : Nat) (acl : Bool) : Option (List Byte) × State :=
  (pagePieces (n / 4096 + 2) a n).foldl (fun (acc : Option (List Byte) × State) p =>
    match acc.1 with
    | none => acc
    | some bs =>
      if isScene p.1 then
        match translate acc.2 who .read p.1 acl with
        | (.ok ph _ sec, s) => match mappedRead s who p.1 ph p.2 sec with
          | (some cs, s) => (some (bs ++ cs), s)
          | (none, s) => (none, s)
        | (.curtain, s) => (none, curtainViolation s who (BitVec.ofNat 32 p.1) false)
        | (_, s) => (none, s)
      else if memCurtain acc.2 who p.1 then (none, curtainViolation acc.2 who (BitVec.ofNat 32 p.1) false)
      else match physRead acc.2 who (resolve acc.2 who p.1) p.2 with
        | (some cs, s) => (some (bs ++ cs), s)
        | (none, s) => (none, s)) (some [], s)

/-- A write of an engine at a scene or physical address; true for an error response. -/
def engineWrite (s : State) (who a : Nat) (bs : List Byte) (acl : Bool) : Bool × State :=
  ((pagePieces (bs.length / 4096 + 2) a bs.length).foldl (fun (acc : Bool × State × Nat) p =>
    if acc.1 then acc else
    let cs := (bs.drop acc.2.2).take p.2
    if isScene p.1 then
      match translate acc.2.1 who .write p.1 acl with
      | (.ok ph cp sec, s) => let r := copyWrite s who p.1 ph cp cs sec; (r.1, r.2, acc.2.2 + p.2)
      | (.curtain, s) => (true, curtainViolation s who (BitVec.ofNat 32 p.1) true, acc.2.2)
      | (_, s) => (true, s, acc.2.2)
    else if memCurtain acc.2.1 who p.1 then (true, curtainViolation acc.2.1 who (BitVec.ofNat 32 p.1) true, acc.2.2)
    else let r := physWrite acc.2.1 who (resolve acc.2.1 who p.1) cs; (r.1, r.2, acc.2.2 + p.2)) (false, s, 0)) |> fun r => (r.1, r.2.1)

end Sys2Proof.Machine
end

