-- ==== Sys2Proof/Machine/Queue.lean ====
section
/-! DEFINITION. The queue block: the operations on the 128 queues (05 R130 to R135). -/
namespace Sys2Proof.Machine
open Sys2Proof.Reg

/-- The entries of a ring: 2^LOGSIZE (05 R132). -/
def qEntries (s : State) (q : Nat) : Nat := 2 ^ s.fld (QUE.QCFG q) 3 0

/-- The element size in bytes: 4 to 64 (05 R132). -/
def qSize (s : State) (q : Nat) : Nat := 4 * 2 ^ s.fld (QUE.QCFG q) 6 4

/-- Whether a queue is enabled. -/
def qOn (s : State) (q : Nat) : Bool := s.bit (QUE.QCFG q) 10

def qCount (s : State) (q : Nat) : Nat := s.fld (QUE.QSTAT q) 14 0
def qHeld (s : State) (q : Nat) : Nat := s.fld (QUE.QTAIL q) 30 16
def qHead (s : State) (q : Nat) : Nat := s.fld (QUE.QHEAD q) 13 0
def qFree (s : State) (q : Nat) : Nat := s.fld (QUE.QHEAD q) 29 16
def qTail (s : State) (q : Nat) : Nat := s.fld (QUE.QTAIL q) 13 0
def qWmark (s : State) (q : Nat) : Nat := s.fld (QUE.QCFG q) 31 16

/-- 05 R132: FULL: every slot holds an entry not handed out or held. -/
def qFull (s : State) (q : Nat) : Bool := qCount s q + qHeld s q == qEntries s q

/-- Whether the slot at TAIL is not free: behind a slot that the link hardware holds, released ones are not reused before it (11 R279). -/
def qNoRoom (s : State) (q : Nat) : Bool :=
  decide (qEntries s q ≤ qCount s q + qHeld s q + (s.stg.rel.filter (fun e => e.1 == q)).length)

/-- 05 R133: whether the slot at TAIL holds the oldest entry that is neither handed out nor held. -/
def qOldestAtTail (s : State) (q : Nat) : Bool :=
  qCount s q != 0 && qTail s q == qFree s q && qTail s q == qHead s q &&
  !s.stg.hold.contains (q, qTail s q) && !s.stg.rel.contains (q, qTail s q)

/-- The scene address of slot `i` of a ring. -/
def qSlot (s : State) (q i : Nat) : Nat := (s.rd (QUE.QBASE q)).toNat + qSize s q * i

/-- Writes COUNT and with it EMPTY, FULL and WMK (05 R132); a rise to the watermark raises its event (05 R134). -/
def qSetCount (s : State) (q n : Nat) : State :=
  let old := qCount s q
  let s := s.setFld (QUE.QSTAT q) 14 0 n
  let s := s.setBit (QUE.QSTAT q) 16 (n == 0)
  let s := s.setBit (QUE.QSTAT q) 17 (qFull s q)
  let w := qWmark s q
  let s := s.setBit (QUE.QSTAT q) 18 (w != 0 && decide (w ≤ n))
  s.when (w != 0 && decide (old < w) && decide (w ≤ n)) (fun s => emitWatermark s q)

/-- Writes HELD, with FULL. -/
def qSetHeld (s : State) (q n : Nat) : State :=
  let s := s.setFld (QUE.QTAIL q) 30 16 n
  s.setBit (QUE.QSTAT q) 17 (qFull s q)

/-- Moves an index forward around the ring. -/
def qAdvance (s : State) (q i n : Nat) : Nat := (i + n) % qEntries s q

/-- 11 R279: HEAD passes over slots the link hardware holds or has released; `n` bounds the steps. -/
def qSkipHead (s : State) (q : Nat) : Nat → State
  | 0 => s
  | n + 1 =>
    if s.stg.hold.contains (q, qHead s q) ∨ s.stg.rel.contains (q, qHead s q) then
      qSkipHead (s.setFld (QUE.QHEAD q) 13 0 (qAdvance s q (qHead s q) 1)) q n
    else s

/-- 05 R132, 11 R279: FREE advances over released slots in ring order; `n` bounds the steps. -/
def qMoveFree (s : State) (q : Nat) : Nat → State
  | 0 => s
  | n + 1 =>
    if s.stg.rel.contains (q, qFree s q) then
      let f := qFree s q
      let s := s.upStg (fun g => { g with rel := g.rel.erase (q, f) })
      qMoveFree (s.setFld (QUE.QHEAD q) 29 16 (qAdvance s q f 1)) q n
    else s

/-- The slots of a queue that are held or released out of order. -/
def qLoose (s : State) (q : Nat) : Nat := ((s.stg.hold ++ s.stg.rel).filter (fun e => e.1 == q)).length

/-- Releases a slot, with HEAD and FREE where they then belong. -/
def qFreeSlot (s : State) (q slot : Nat) : State :=
  let s := s.upStg (fun g => { g with rel := g.rel ++ [(q, slot)] })
  let s := qSkipHead s q (qLoose s q)
  let s := qMoveFree s q (qLoose s q)
  s.setBit (QUE.QSTAT q) 17 (qFull s q)

/-- A refusal or a discard adds 1 to DROPS (05 R133). -/
def qDrop (s : State) (q : Nat) : State := s.bump (QUE.QSTAT q) 31 24 1

/-- The initiator id and trust bit kept with an entry of Q110 to Q113 (05 R121) and of Q104 to Q107 (17 R419). -/
def qTag (s : State) (q slot : Nat) : Nat × Bool :=
  match s.stg.tags.find? (fun e => e.1 == 16384 * q + slot) with
  | some e => e.2.headD (0, true)
  | none => (0, true)

/-- Keeps the enqueuer of an entry of Q110 to Q113 or Q104 to Q107. -/
def qSetTag (s : State) (q slot who : Nat) : State :=
  if (110 ≤ q ∧ q < 114) ∨ (104 ≤ q ∧ q < 108) then
    s.upStg (fun g => { g with
      tags := (16384 * q + slot, [(who, s.trusted who)]) :: g.tags.filter (fun e => e.1 != 16384 * q + slot) })
  else s

/-- 05 R129: an entry that leaves a dispatch queue other than through the dispatcher clears PENDING of its trigger, found by the address
(log 112). -/
def qClearPending (s : State) (q : Nat) (entry : Word) : State :=
  if 88 ≤ q ∧ q < 104 then
    (List.range 16).foldl (fun s k =>
      if s.bit (STG.TRIGQ k) 4 ∧ s.fld (STG.TRIGQ k) 3 0 = q - 88 ∧ s.fld (STG.TRIG k) 31 5 = entry.toNat / 32
      then s.setBit (STG.TRIGQ k) 4 false else s) s
  else s

/-- 05 R133, R93: whether an initiator passes the producer mask (`prod`) or the consumer mask of a queue. -/
def qAllowed (s : State) (q who : Nat) (prod : Bool) : Bool :=
  s.trusted who ||
  (match ownerCode who with
   | some o => (q != 108 && q != 109) && testB ((s.rd (QUE.QOWN q)).toNat) (o + if prod then 0 else 8)
   | none => false)

/-- The queue block as the owner of a TLB (05 R113); the spec gives it no initiator id, so it takes one above the assigned
ones (log 22). -/
def queueBlock : Nat := 0x20

/-- The stored entry at a slot as the queue block reads it; none for an error response. -/
def qRead (s : State) (q i : Nat) : Option Word × State :=
  match engineRead s queueBlock (qSlot s q i) 4 false with
  | (some bs, s) => (some (leWord bs), s)
  | (none, s) => (none, s)

/-- Discards the oldest entry not handed out, whose word is `w`, for OVERWRITE_OLDEST (05 R133): HEAD and FREE move past it. -/
def qDiscard (s : State) (q : Nat) (w : Option Word) : State :=
  let s := match w with
    | some w => qClearPending s q w
    | none => s
  let s := s.setFld (QUE.QHEAD q) 13 0 (qAdvance s q (qHead s q) 1)
  let s := s.setFld (QUE.QHEAD q) 29 16 (qAdvance s q (qFree s q) 1)
  qDrop s q

/-- 05 R133: stores an element at TAIL, where the policy of the queue admits it, and then `f` counts it, told whether an entry was discarded.  Answers the code of 03 R69: 0
accepted, 1 refused, 2 the ring could not be written, 3 accepted with the oldest entry dropped. -/
def qStore (s : State) (q : Nat) (bs : List Byte) (f : Bool → State → State) : Nat × State :=
  let full := qNoRoom s q
  if full && !(s.bit (QUE.QCFG q) 8 && qOldestAtTail s q) then (1, qDrop s q)
  else
    let old := if full then (qRead s q (qHead s q)).1 else none
    match engineWrite s queueBlock (qSlot s q (qTail s q)) bs false with
    | (true, s) => (2, s)
    | (false, s) =>
      let t := qTail s q
      let s := if full then qDiscard s q old else s
      let s := f full (s.setFld (QUE.QTAIL q) 13 0 (qAdvance s q t 1))
      let s := if full then qMoveFree (qSkipHead s q (if qCount s q = 0 then 0 else qLoose s q)) q (qLoose s q) else s
      (if full then 3 else 0, s)

/-- 05 R133: appends an element whose checks on the initiator have passed. -/
def qAppend (s : State) (q who : Nat) (bs : List Byte) : Nat × State :=
  let t := qTail s q
  qStore s q bs (fun full s =>
    let s := qSetTag s q t who
    if full then s else qSetCount s q (qCount s q + 1))

/-- 05 R133, R135: an enqueue of an entry word by software. -/
def qEnq (s : State) (q who : Nat) (w : Word) : Nat × State :=
  if !qOn s q || !qAllowed s q who true || qSize s q != 4 then (2, s)
  else qAppend s q who (leBytes 4 w.toNat)

/-- 05 R133: an element of a hardware producer; it passes the masks. -/
def qProduce (s : State) (q who : Nat) (bs : List Byte) : Nat × State :=
  if !qOn s q then (2, s) else qAppend s q who (bs.take (qSize s q))

/-- 05 R133: hands out the head: an ESIZE 4 entry is released in the same step, a larger element is held. -/
def qHandOut (s : State) (q : Nat) : State :=
  let slot := qHead s q
  let s := s.setFld (QUE.QHEAD q) 13 0 (qAdvance s q slot 1)
  let s := if qSize s q = 4 then qFreeSlot s q slot else qSetHeld s q (qHeld s q + 1)
  let s := qSkipHead s q (qLoose s q)
  qSetCount s q (qCount s q - 1)

/-- What a dequeue brings: the code of 03 R69 and the word; code 1 for an empty queue. -/
def qDeq (s : State) (q who : Nat) : Nat × Word × State :=
  if !qOn s q || !qAllowed s q who false then (2, 0, s)
  else if qCount s q = 0 then (1, 0, s)
  else if qSize s q = 4 then
    match qRead s q (qHead s q) with
    | (some w, s) => (0, w, qClearPending (qHandOut s q) q w)
    | (none, s) => (2, 0, s)
  else (0, BitVec.ofNat 32 (qSlot s q (qHead s q)), qHandOut s q)

/-- A hardware consumer takes the head of an ESIZE 4 queue: the word, the initiator that enqueued it and its trust bit. -/
def qTake (s : State) (q : Nat) : Option (Word × Nat × Bool) × State :=
  if !qOn s q || qCount s q == 0 then (none, s)
  else
    match qRead s q (qHead s q) with
    | (some w, s) => (some (w, qTag s q (qHead s q)), qHandOut s q)
    | (none, s) => (none, s)

/-- The head entry of a queue, left in place. -/
def qPeek (s : State) (q : Nat) : Option Word × State :=
  if !qOn s q || qCount s q == 0 then (none, s) else qRead s q (qHead s q)

/-- The slots of a ring that are handed out and not released, oldest first. -/
def qHandedOut (s : State) (q : Nat) : List Nat :=
  let n := (qHead s q + qEntries s q - qFree s q) % qEntries s q
  let n := if n = 0 ∧ qHeld s q ≠ 0 ∧ qCount s q = 0 then qEntries s q else n
  ((List.range n).map (fun i => qAdvance s q (qFree s q) i)).filter
    (fun i => !s.stg.hold.contains (q, i) && !s.stg.rel.contains (q, i))

/-- 05 R132, R133, 11 R279: releases held elements, oldest first, passing over those the link hardware holds; more than are held
releases them all. -/
def qRelease (s : State) (q n : Nat) : State :=
  ((qHandedOut s q).take n).foldl (fun (s : State) i => qFreeSlot (qSetHeld s q (qHeld s q - 1)) q i) s

/-- 11 R279: an element that the link hardware holds is appended: counted in HELD, not in COUNT. -/
def qAppendHeld (s : State) (q : Nat) (bs : List Byte) : Nat × State :=
  if !qOn s q then (2, s)
  else
    let t := qTail s q
    qStore s q (bs.take (qSize s q)) (fun full s =>
      let s := qSetHeld (s.upStg (fun g => { g with hold := g.hold ++ [(q, t)] })) q (qHeld s q + 1)
      let s := qSetCount s q (qCount s q - natBit full)
      qSkipHead s q (if qCount s q = 0 then qLoose s q else 0))

/-- 11 R279: the link hardware releases an element it holds. -/
def qReleaseHeld (s : State) (q slot : Nat) : State :=
  if s.stg.hold.contains (q, slot) then
    let s := s.upStg (fun g => { g with hold := g.hold.erase (q, slot) })
    qFreeSlot (qSetHeld s q (qHeld s q - 1)) q slot
  else s

/-- 03 R69: the entries of a queue, with the code; an untrusted initiator gets code 2 on Q108 and Q109 (R133), and a disabled
queue answers code 2 (R135). -/
def qCnt (s : State) (q who : Nat) : Nat × Nat :=
  if !qOn s q || ((q == 108 || q == 109) && !s.trusted who) then (2, 0) else (0, qCount s q)

/-- The outcome of a `QnPUSH` or `QnPOP` access, in LASTCODE (05 R132). -/
def qLast (s : State) (q c : Nat) : State := s.setFld (QUE.QSTAT q) 21 20 c

/-- 05 R132, R133: a write of `QnPUSH`. -/
def qPush (s : State) (q who : Nat) (v : Word) : State :=
  if !qOn s q then qLast s q 2
  else if qSize s q = 4 then
    let r := qEnq s q who v
    qLast r.2 q r.1
  else if testB v.toNat 31 then
    if qAllowed s q who false then qLast (qRelease s q (v.toNat % 65536)) q 0 else qLast s q 2
  else qLast s q 2

/-- 05 R132: a read of `QnPOP` performs a dequeue that does not stall. -/
def qPop (s : State) (q who : Nat) : Word × State :=
  let r := qDeq s q who
  (if r.1 = 0 then r.2.1 else 0, qLast r.2.2 q r.1)

/-- 05 R130: the queues whose producer is hardware and whose elements may be larger than 4 bytes. -/
def qHardware (q : Nat) : Bool := decide (q < 64) || (decide (72 ≤ q) && decide (q < 88))

/-- 05 R135: whether the ring lies inside one prop, by the page table: its pages are mapped and lie in one prop. -/
def ringInProp (s : State) (base n : Nat) : Bool :=
  s.stg.regions.any (fun r => decide (r.base ≤ base) && decide (base + n ≤ r.base + r.size))

/-- 05 R135: whether EN may be set with this configuration word: a misaligned `QnBASE` fails too (log 113), and a geometry other than that of
the last enable needs a CLR after the change. -/
def qGeometryOk (s : State) (q : Nat) (cfg : Word) : Bool :=
  let lg := bitsOf cfg 3 0
  let es := bitsOf cfg 6 4
  let base := (s.rd (QUE.QBASE q)).toNat
  decide (2 ≤ lg) && decide (lg ≤ 14) && decide (es ≤ 4) && (es == 0 || qHardware q) &&
  decide (base % (4 * 2 ^ es) = 0) && ringInProp s base (2 ^ lg * (4 * 2 ^ es)) &&
  (match s.stg.geometry.find? (fun g => g.1 == q) with
   | some g => decide (g.2 = (base, lg + 16 * es)) || s.stg.cleared.contains q
   | none => true)

/-- 05 R132, R135: CLR clears indices, COUNT and HELD, and lets the geometry that stands be enabled. -/
def qClear (s : State) (q : Nat) : State :=
  let s := (List.range (qCount s q)).foldl (fun s i =>
    if 88 ≤ q ∧ q < 104 then
      match qRead s q (qAdvance s q (qHead s q) i) with
      | (some w, s) => qClearPending s q w
      | (none, s) => s
    else s) s
  let s := (s.wr (QUE.QHEAD q) 0).wr (QUE.QTAIL q) 0
  let s := qSetCount s q 0
  let s : State := { s with txc := { s.txc with heads := s.txc.heads.filter (fun j => j.src != .queue q) } }
  s.upStg (fun g => { g with
    cleared := addOnce g.cleared q,
    hold := g.hold.filter (fun e => e.1 != q),
    rel := g.rel.filter (fun e => e.1 != q) })

/-- 05 R135: setting EN: the ring is checked and the queue enabled, or CFGERR is set and EN stays 0. -/
def qEnable (s : State) (q : Nat) (v : Word) : State :=
  if qGeometryOk s q v then
    let g := (q, ((s.rd (QUE.QBASE q)).toNat, bitsOf v 3 0 + 16 * bitsOf v 6 4))
    let s := (s.setBit (QUE.QCFG q) 10 true).setBit (QUE.QSTAT q) 19 false
    s.upStg (fun t => { t with geometry := g :: t.geometry.filter (fun e => e.1 != q) })
  else s.setBit (QUE.QSTAT q) 19 true

/-- 05 R132: FULL and WMK under the size and the watermark that stand. -/
def qFlags (s : State) (q : Nat) : State :=
  (s.setBit (QUE.QSTAT q) 17 (qFull s q)).setBit (QUE.QSTAT q) 18 (qWmark s q != 0 && decide (qWmark s q ≤ qCount s q))

/-- 05 R135: the geometry of a queue changed after its last CLR. -/
def qUnclear (s : State) (q : Nat) : State := s.upStg (fun g => { g with cleared := g.cleared.filter (fun x => x != q) })

/-- A trusted write of `QnCFG` (05 R132, R135): while EN is 1 only EN and WMARK may change.  CLR in the word that changes the size is written
after the change. -/
def qCfgWrite (s : State) (q : Nat) (v : Word) : State :=
  if qOn s q then
    let s := qFlags (s.setFld (QUE.QCFG q) 31 16 (bitsOf v 31 16)) q
    s.setBit (QUE.QCFG q) 10 (testB v.toNat 10)
  else
    let changed := s.fld (QUE.QCFG q) 6 0 != bitsOf v 6 0
    let s := if changed then qUnclear s q else s
    let s := if testB v.toNat 11 then qClear s q else s
    let s := s.wr (QUE.QCFG q) (v &&& BitVec.ofNat 32 0xFFFF017F)
    qFlags (if testB v.toNat 10 then qEnable s q v else s) q

/-- A write of `QnBASE` (05 R135), discarded while EN is 1. -/
def qBaseWrite (s : State) (q a : Nat) (v : Word) (t : Bool) : State :=
  if qOn s q then s
  else (if t ∧ s.rd a ≠ v then qUnclear s q else s).plainWrite a v t

/-- 05 R133: whether an initiator may write `QnSTAT.CLRD`. -/
def qMayClear (s : State) (q who : Nat) : Bool :=
  s.trusted who ||
  (match ownerCode who with
   | some o => testB ((s.rd (QUE.QOWN q)).toNat) o || testB ((s.rd (QUE.QOWN q)).toNat) (o + 8)
   | none => false)

end Sys2Proof.Machine
end

