-- ==== Sys2Proof/Machine/Stage.lean ====
section
/-! DEFINITION. The stage manager: requests, heat, migration, dispatch and triggers (05 R108 to R129, R136). -/
namespace Sys2Proof.Machine
open Sys2Proof.Reg

/-- The initiator id the stage manager's own accesses carry: that of migration channel 0, which is trusted (log 22). -/
def stageInit : Nat := 8

/-! ### Frames -/

/-- 05 R112: the count of an application player's TCM frames given to T0. -/
def tcmPages (s : State) (n : Nat) : Nat := min 32 (s.fld STG.TCMPAGES (8 * n + 5) (8 * n))

/-- 05 R110, R112: whether a tier has frame `f`. -/
def frameExists (s : State) (tier f : Nat) : Bool :=
  match tier with
  | 0 => decide (f < 128) && decide (32 - tcmPages s (f / 32) ≤ f % 32)
  | 1 => decide (f < 512)
  | 2 => decide (s.fld STG.T2PAGES 7 0 ≤ f) && decide (f < s.fld STG.T2PAGES 7 0 + s.fld STG.T2PAGES 15 8)
  | 3 => decide (f < framesPowered s)
  | 4 => decide (s.fld STG.T4PAGES 9 0 ≤ f) && decide (f < s.fld STG.T4PAGES 9 0 + s.fld STG.T4PAGES 25 16)
  | _ => false

/-- The frames of a tier. -/
def tierCapacity (s : State) (tier : Nat) : Nat :=
  match tier with
  | 0 => tcmPages s 0 + tcmPages s 1 + tcmPages s 2 + tcmPages s 3
  | 1 => 512
  | 2 => s.fld STG.T2PAGES 15 8
  | 3 => framesPowered s
  | _ => s.fld STG.T4PAGES 25 16

/-- The frames of a tier that back a page, as primary or second copy, or are reserved by a running migration. -/
def tierUsed (s : State) (tier : Nat) : Nat :=
  ((s.stg.regions.flatMap regionPages).map (fun p =>
      let e := s.pte p
      natBit (pteBit e 0 && pteFld e 14 12 == tier) + natBit (pteBit e 0 && (pteCopy e).map (fun c => c.1) == some tier))).sum +
  ((List.finRange 2).map (fun c => natBit (migRuns s c && s.stg.mig[c].tier == tier))).sum

/-- 05 R136: `STG.TIERFREEk`, the free frames of a tier. -/
def tierFree (s : State) (tier : Nat) : Nat := tierCapacity s tier - tierUsed s tier

/-! Attribute fields of a prop (05 R109). -/
def attrHint (w : Word) : Nat := bitsOf w 1 0
def attrPers (w : Word) : Nat := bitsOf w 3 2
def attrDuplex (w : Word) : Bool := testB w.toNat 4
def attrFast (w : Word) : Bool := testB w.toNat 5
def attrSecure (w : Word) : Bool := testB w.toNat 6
def attrRdonly (w : Word) : Bool := testB w.toNat 7
def attrOwner (w : Word) : Nat := bitsOf w 10 8
def attrPinned (w : Word) : Bool := testB w.toNat 24

/-- 05 R110: whether a tier may hold the primary copy of a page of a prop, in a frame of player `n` for T0. -/
def tierAllowed (attr : Word) (tier n : Nat) : Bool :=
  match tier with
  | 0 => attrPers attr != 2 && decide (n < 4) && attrOwner attr == n + 2
  | 1 => attrPers attr != 2
  | 2 => (attrPers attr == 1 || attrPers attr == 2) && !attrFast attr
  | 3 => (attrPers attr == 0 || attrPers attr == 1) && !attrFast attr
  | 4 => attrPers attr == 2 && attrRdonly attr && !attrFast attr
  | _ => false

/-- 05 R110: whether a tier may hold the second copy of a page whose primary is in tier `t`: another tier that the row allows, PERS and FAST
apart. -/
def copyAllowed (attr : Word) (t tier n : Nat) : Bool :=
  tier != t && (match tier with
  | 0 => decide (n < 4) && attrOwner attr == n + 2
  | 4 => attrRdonly attr
  | _ => decide (tier < 4))

/-- Whether a frame can take a page now: it exists, is free and not withdrawn, the domain of its TCM is on, and no page goes to T3 while
DRAM is frozen (05 R112, R125, 20 R482). -/
def frameFree (s : State) (tier f : Nat) : Bool :=
  frameExists s tier f && !frameInUse s tier f && !frameWithdrawn s tier f && !(tier == 3 && s.bit STG.STATUS 9) &&
  (tier != 0 || (s.dom (Dom.app (f / 32))).ready)

/-- 05 R123: the stage manager powers the bank that holds a T1 frame it places a page in (log 94). -/
def bankOn (s : State) (tier f : Nat) : State :=
  if tier = 1 ∧ s.dom (Dom.sram (f / 32)) = .off then s.setDom (Dom.sram (f / 32)) .on else s

/-- The first `n` free frames of a tier. -/
def freeFrames (s : State) (tier n : Nat) : List Nat :=
  ((List.range (match tier with | 0 => 128 | 1 => 512 | 2 => 128 | 3 => 28672 | _ => 1024)).filter (frameFree s tier)).take n

/-! ### The second-level entries of a prop -/

/-- The entry of a new page (05 R110, R112): no second copy, HEAT 0. -/
def newPte (attr : Word) (acl tier f : Nat) : BitVec 64 :=
  BitVec.ofNat 64 (1 + 2 * natBit (!attrRdonly attr && tier != 4) + 4 * natBit (attrSecure attr) + 64 * acl +
    4096 * tier + 32768 * f + 7 * 2 ^ 32)

/-- Applies a change to the entries of all pages of a prop. -/
def mapPtes (s : State) (r : Region) (f : BitVec 64 → BitVec 64) : State :=
  (regionPages r).foldl (fun s p => setPte s p (f (s.pte p))) s

/-- Replaces a prop's record. -/
def setRegion (s : State) (r : Region) : State :=
  s.upStg (fun g => { g with regions := g.regions.map (fun x => if x.base = r.base then r else x) })

/-! ### Requests -/

/-- A request block as the stage manager reads it (05 R120), with the queue entry's enqueuer. -/
structure Request where
  addr : Nat
  kind : Nat
  signal : Bool
  replyq : Nat
  arg0 : Nat
  arg1 : Nat
  arg2 : Nat
  arg3 : Nat
  who : Nat
  trust : Bool
  deriving DecidableEq, Repr

/-- What serving a request answers: STATUS and the two results. -/
structure Reply where
  status : Nat
  r0 : Nat := 0
  r1 : Nat := 0
  deriving DecidableEq, Repr

/-- The KIND of the block that the head of a request queue names; 0x100 for an entry that is to be discarded (05 R120). -/
def headKind (s : State) (q : Nat) : Option Nat :=
  match (qPeek s q).1 with
  | some w =>
    if w.toNat % 32 ≠ 0 ∨ regionAt s w.toNat = none then some 0x100
    else match (engineRead s stageInit w.toNat 1 true).1 with
      | some bs => some (leNat bs)
      | none => some 0x100
  | none => none

/-- 05 R121: the queue served next: the policy takes the first of Q110 to Q113 whose head is not for the hardware; a DONE is the hardware's
from whichever queue it heads.  An entry to be discarded goes with either. -/
def requestQueue (s : State) (done : Bool) : Option Nat :=
  let qs := [110, 111, 112, 113].filter (fun q => qOn s q && qCount s q != 0)
  let is := fun (p : Nat → Bool) (q : Nat) => match headKind s q with | some k => p k | none => false
  if done then (qs.find? (is (fun k => k == 0x10))).or (qs.find? (is (fun k => k == 0x100))) else qs.find? (is (fun k => k != 0x10))

/-- 05 R120: takes the head of a request queue; an entry that is misaligned, that no prop covers or whose block cannot be read is discarded
with REQERR. -/
def takeRequest (s : State) (q : Nat) : Option Request × State :=
  match qTake s q with
  | (none, s) => (none, s)
  | (some (w, who, trust), s) =>
    let a := w.toNat
    if a % 32 ≠ 0 ∨ regionAt s a = none then (none, s.setBit STG.STATUS 11 true)
    else match engineRead s stageInit a 32 true with
      | (none, s) => (none, s.setBit STG.STATUS 11 true)
      | (some bs, s) =>
        let f := fun i n => leNat ((bs.drop i).take n)
        (some { addr := a, kind := f 0 1, signal := testB (f 1 1) 0, replyq := f 2 1 % 128, arg0 := f 4 4, arg1 := f 8 4,
                arg2 := f 12 4, arg3 := f 16 4, who := who, trust := trust }, s)

/-- 05 R120: writes RESULT0 and RESULT1, then STATUS; a write error sets REQERR, and then no SIGNAL is performed (log 95); otherwise SIGNAL
enqueues the block's address. -/
def answerRequest (s : State) (r : Request) (y : Reply) : State :=
  let w := engineWrite s stageInit (r.addr + 20) (leBytes 4 y.r0 ++ leBytes 4 y.r1) true
  let v := engineWrite w.2 stageInit (r.addr + 28) (leBytes 4 y.status) true
  let s := v.2.when (w.1 || v.1) (fun s => s.setBit STG.STATUS 11 true)
  s.when (r.signal && !w.1 && !v.1) (fun s => (qEnq s r.replyq stageInit (BitVec.ofNat 32 r.addr)).2)

/-- Serves the next request if it is of a kind `p` accepts; a discarded entry is served by whichever comes first; a head of
another kind waits. -/
def serveRequest (s : State) (done : Bool) (p : Nat → Bool) (f : State → Request → Reply × State) : State :=
  match requestQueue s done with
  | none => s
  | some q =>
    match headKind s q with
    | none => s
    | some k =>
      if k = 0x100 ∨ p k then
        match takeRequest s q with
        | (none, s) => s
        | (some r, s) => let y := f s r; answerRequest y.2 r y.1
      else s

/-- 05 R121: only the owner of a prop or a trusted initiator may address it. -/
def ownsRegion (q : Request) (r : Region) : Bool := q.trust || ownerCode q.who == some (attrOwner r.attr)

/-- Finds the prop a request names by its base, with the owner check. -/
def requestRegion (s : State) (q : Request) (exact : Bool) : Sum Nat Region :=
  match regionAt s q.arg0 with
  | none => .inl 5
  | some r => if exact ∧ r.base ≠ q.arg0 then .inl 5 else if ownsRegion q r then .inr r else .inl 4

/-- Whether frames chosen by the policy may back a new prop (05 R110): they can take a page, are distinct, and their tier is allowed.  A new
page, which reads as zero, is not placed in flash (log 96). -/
def framesOk (s : State) (attr : Word) (n : Nat) (fs : List (Nat × Nat)) : Bool :=
  fs.length == n && decide fs.Nodup &&
  fs.all (fun tf => tf.1 != 4 && tierAllowed attr tf.1 (tf.2 / 32) && frameFree s tf.1 tf.2)

/-- Frames the policy falls back to: the first free ones of the tiers R110 allows, T1 before T2 before T3 before T0 (log 96). -/
def ownFrames (s : State) (attr : Word) (n : Nat) : List (Nat × Nat) :=
  (([1, 2, 3, 0].flatMap (fun t => ((freeFrames s t n).filter (fun f => tierAllowed attr t (f / 32))).map (fun f => (t, f))))).take n

/-- Whether a range of scene space is aligned, inside the space and free of props. -/
def rangeFree (s : State) (base size : Nat) : Bool :=
  decide (base % 4096 = 0) && decide (0x40000000 ≤ base) && decide (base + size ≤ 0x80000000) &&
  s.stg.regions.all (fun r => decide (base + size ≤ r.base) || decide (r.base + r.size ≤ base))

/-- Whether every page of a range has a second-level table, in the directory or among those the policy adds. -/
def rangeTables (s : State) (tables : List (Nat × Nat)) (base size : Nat) : Bool :=
  (List.range (size / 4096)).all (fun i =>
    (pteAddr s (base + 4096 * i)).isSome || tables.any (fun t => t.1 % 512 == (base + 4096 * i - 0x40000000) / 0x200000 % 512))

/-- The base of a new prop: the wanted one, that which the policy chose, or the first free range behind a prop or at a table's start. -/
def allocBase (s : State) (q : Request) (tables : List (Nat × Nat)) (base : Nat) : Option Nat :=
  let fits := fun b => rangeFree s b q.arg0 && rangeTables s tables b q.arg0
  if q.arg3 ≠ 0 then (if fits q.arg3 then some q.arg3 else none)
  else (base :: (s.stg.regions.map (fun r => r.base + r.size) ++ (List.range 512).map (fun i => 0x40000000 + 0x200000 * i))).find? fits

/-- The index of a new prop: that which the policy chose, or the lowest free one (05 R108). -/
def allocIndex (s : State) (index : Nat) : Nat :=
  let free := fun i => s.stg.regions.all (fun r => r.index != i)
  if decide (index < 4096) && free index then index else ((List.range 4096).find? free).getD 0

/-- The access entry of a new prop: that which the policy chose, or the first that no prop uses or that holds the same masks. -/
def allocAcl (s : State) (acl masks : Nat) : Option Nat :=
  let fits := fun k => decide (k < 64) && (s.stg.regions.all (fun r => r.acl != k) || s.fld (STG.ACL k) 15 0 == masks)
  (acl :: List.range 64).find? fits

/-- 05 R121 ALLOC, at the place the policy chose: base, index, access entry, one frame a page, and the second-level tables it adds to the
directory.  Where the choice does not fit, the policy chooses again (log 96); NO_SPACE says that nothing fits, a wanted base that is not free
included (log 97). -/
def allocProp (s : State) (q : Request) (base index acl : Nat) (fs : List (Nat × Nat)) (tables : List (Nat × Nat)) : Reply × State :=
  let attr0 : Word := BitVec.ofNat 32 (q.arg1 % 2048)
  let owner := if q.trust then attrOwner attr0 else (ownerCode q.who).getD 0
  let attr := withBits attr0 10 8 owner
  let size := q.arg0
  let masks : Nat := q.arg2 % 65536 ||| (2 ^ owner + 2 ^ (owner + 8))
  if size % 4096 ≠ 0 ∨ size < 4096 ∨ 0x4000000 < size ∨ attrPers attr = 3 ∨ (attrFast attr ∧ attrPers attr = 2) then ({ status := 3 }, s)
  else if 4096 ≤ s.stg.regions.length then ({ status := 6 }, s)
  else
    let fs := if framesOk s attr (size / 4096) fs then fs else ownFrames s attr (size / 4096)
    match allocBase s q tables base, allocAcl s acl masks, framesOk s attr (size / 4096) fs with
    | some base, some acl, true =>
      let index := allocIndex s index
      let s := tables.foldl (fun s t => s.st ((s.rd STG.PTBASE).toNat + 4 * (t.1 % 512)) 4 (t.2 / 4096 * 4096 + 1)) s
      let s := s.wr (STG.ACL acl) (BitVec.ofNat 32 masks)
      let s := (List.range fs.length).foldl (fun s i =>
        let tf := fs.getD i (1, 0)
        setPte (zeroPage (bankOn s tf.1 tf.2) (base + 4096 * i) (frameAddr tf.1 tf.2) (attrSecure attr)) (base + 4096 * i) (newPte attr acl tf.1 tf.2)) s
      let r : Region := { base := base, size := size, attr := attr, acl := acl, index := index }
      ({ status := 1, r0 := base, r1 := index }, s.upStg (fun g => { g with regions := g.regions ++ [r] }))
    | _, _, _ => ({ status := 2 }, s)

/-- 05 R121: whether a prop backs the ring of an enabled queue. -/
def backsRing (s : State) (r : Region) : Bool :=
  (List.range 128).any (fun q => qOn s q && decide (r.base ≤ qSlot s q 0) && decide (qSlot s q 0 < r.base + r.size))

/-- 05 R121 FREE. -/
def freeProp (s : State) (q : Request) : Reply × State :=
  match requestRegion s q true with
  | .inl c => ({ status := c }, s)
  | .inr r =>
    if backsRing s r then ({ status := 7 }, s)
    else
      let s := migAbortIf s 2 (fun m => decide (r.base ≤ m.page) && decide (m.page < r.base + r.size))
      let s := mapPtes s r (fun _ => 0)
      ({ status := 1 }, s.upStg (fun g => { g with
        regions := g.regions.filter (fun x => x.base != r.base),
        zeroFill := g.zeroFill.filter (fun p => decide (p < r.base ∨ r.base + r.size ≤ p)) }))

/-- 05 R121 HINT. -/
def hintProp (s : State) (q : Request) : Reply × State :=
  match requestRegion s q true with
  | .inl c => ({ status := c }, s)
  | .inr r => ({ status := 1 }, setRegion s { r with attr := withBits r.attr 1 0 (q.arg1 % 4) })

/-- The tier of a prop's first page. -/
def presentTier (s : State) (r : Region) : Nat := pteFld (s.pte r.base) 14 12

/-- 05 R119, R121 PIN: the tier must be one R110 and the power-state rules allow; a RETAIN prop is not pinned in T0. -/
def pinProp (s : State) (q : Request) : Reply × State :=
  match requestRegion s q true with
  | .inl c => ({ status := c }, s)
  | .inr r =>
    let t := if q.arg1 % 8 = 7 then presentTier s r else q.arg1 % 8
    if 4 < t ∨ ¬ tierAllowed r.attr t (attrOwner r.attr - 2) ∨ (t = 0 ∧ attrPers r.attr = 1) then ({ status := 3 }, s)
    else ({ status := 1 }, setRegion s { r with attr := withBits (withBits r.attr 24 24 1) 18 16 t })

/-- 05 R121 UNPIN. -/
def unpinProp (s : State) (q : Request) : Reply × State :=
  match requestRegion s q true with
  | .inl c => ({ status := c }, s)
  | .inr r => ({ status := 1 }, setRegion s { r with attr := withBits r.attr 24 24 0 })

/-- 05 R109: the attribute word QUERY reports. -/
def reportAttr (s : State) (r : Region) : Word :=
  let e := s.pte r.base
  let w := withBits r.attr 18 16 (pteFld e 14 12)
  withBits w 21 19 (((pteCopy e).map (fun c => c.1)).getD 7)

/-- 05 R121 QUERY. -/
def queryProp (s : State) (q : Request) : Reply × State :=
  match requestRegion s q false with
  | .inl c => ({ status := c }, s)
  | .inr r =>
    let s' := if testB q.arg1 0 then setRegion s { r with attr := withBits r.attr 25 25 0 } else s
    ({ status := 1, r0 := (reportAttr s r).toNat, r1 := r.size + r.index }, s')

/-- 05 R121 SEAL. -/
def sealProp (s : State) (q : Request) : Reply × State :=
  match requestRegion s q true with
  | .inl c => ({ status := c }, s)
  | .inr r => ({ status := 1 }, mapPtes (setRegion s { r with attr := withBits r.attr 7 7 1 }) r (fun e => pteWith e 1 1 0))

/-- Moves a page to a frame: its contents are copied and its entry names the new frame; false when the copy fails. -/
def movePage (s : State) (p tier f : Nat) : Bool × State :=
  let e := s.pte p
  let r := copyRange (bankOn s tier f) stageInit p (frameAddr (pteFld e 14 12) (pteFld e 29 15)) (frameAddr tier f) 4096 (pteBit e 2)
  if r.1 then (true, setPte r.2 p (ptePlace (r.2.pte p) tier f)) else r

/-- 05 R121 UNSEAL: pages in T4 move to the T2 frames the policy chose, or to free ones, then RDONLY is cleared. -/
def unsealProp (s : State) (q : Request) (fs : List Nat) : Reply × State :=
  match requestRegion s q true with
  | .inl c => ({ status := c }, s)
  | .inr r =>
    let t4 := (regionPages r).filter (fun p => pteFld (s.pte p) 14 12 == 4)
    let fits := fun (fs : List Nat) => decide (fs.length = t4.length) && decide fs.Nodup && fs.all (frameFree s 2)
    let fs := if fits (fs.take t4.length) then fs.take t4.length else freeFrames s 2 t4.length
    if !fits fs then ({ status := 2 }, s)
    else
      let s := (t4.zip fs).foldl (fun s x => (movePage s x.1 2 x.2).2) s
      ({ status := 1 }, mapPtes (setRegion s { r with attr := withBits r.attr 7 7 0 }) r (fun e => if pteFld e 14 12 = 4 then e else pteWith e 1 1 1))

/-! ### Tasks -/

/-- The STATE word of a task descriptor (05 R126). -/
def descState (st player restarts : Nat) : Nat := st + 4 * player + 256 * restarts

/-- Reads a field of a task descriptor; 0 where the read receives an error response. -/
def descField (s : State) (d i n : Nat) : Nat := match (engineRead s stageInit (d + i) n true).1 with
  | some bs => leNat bs
  | none => 0

/-- Writes the STATE word of a task descriptor. -/
def setDescState (s : State) (d w : Nat) : State := (engineWrite s stageInit (d + 24) (leBytes 4 w) true).2

/-- 20 R483: the watchdog count of a core restarts from TIMEOUT. -/
def wdRestart (s : State) (p : Nat) : State := s.setFld (FLT.WDSTAT p) 15 0 (s.fld (FLT.WDCFG p) 15 0)

/-- 05 R129: the trigger record of a descriptor is cleared when its task ends. -/
def clearTrigger (s : State) (d : Nat) : State :=
  (List.range 16).foldl (fun s k => if s.fld (STG.TRIG k) 31 5 = d / 32 ∧ s.bit (STG.TRIGQ k) 4 then s.setBit (STG.TRIGQ k) 4 false else s) s

/-- 05 R127, R121 DONE: ends a task and frees its player; NOT_OWNER for a descriptor not assigned to the requester. -/
def doneTask (s : State) (q : Request) : Reply × State :=
  match initCore q.who with
  | some p =>
    if h : p.val < 4 then
      if q.arg0 ≠ 0 ∧ s.stg.task[p.val]'h = q.arg0 then
        let s := setDescState s q.arg0 (descState 2 p.val (descField s q.arg0 25 1))
        let s := s.upStg (fun g => { g with task := g.task.set p.val 0 h })
        ({ status := 1 }, wdRestart (clearTrigger s q.arg0) p.val)
      else ({ status := 4 }, s)
    else ({ status := 4 }, s)
  | none => ({ status := 4 }, s)

/-- 05 R127: the players that may take a descriptor. -/
def taskCandidates (s : State) (d : Nat) : List (Fin 4) :=
  (List.finRange 4).filter (fun p => testB (descField s d 16 1) p && !s.bit SYS.PLAYHOLD p && !s.bit STG.STATUS p && s.stg.task[p] == 0)

/-- 05 R127: whether all pages of the descriptor's code prop lie in T0 of a player. -/
def codeInT0 (s : State) (d p : Nat) : Bool :=
  let c := descField s d 18 2
  testB c 15 && s.stg.regions.any (fun r => r.index == c % 4096 &&
    (regionPages r).all (fun a => pteFld (s.pte a) 14 12 == 0 && pteFld (s.pte a) 29 15 / 32 == p))

/-- 05 R127: the score of a player for a descriptor. -/
def taskScore (s : State) (d p : Nat) : Nat :=
  8 * natBit (codeInT0 s d p) + 4 * natBit (s.dom (Dom.app p) == .on) + 2 * natBit (s.dom (Dom.app p) == .cg)

/-- 05 R127: the candidate of the highest score, the lowest on a tie. -/
def bestPlayer (s : State) (d : Nat) : Option (Fin 4) :=
  (taskCandidates s d).foldl (fun b p =>
    match b with
    | none => some p
    | some q => if taskScore s d q < taskScore s d p then some p else b) none

/-- A source of the dispatcher: a place of the restart list, or a queue. -/
inductive TaskSource where
  | restart (d : Nat)
  | queue (q : Nat)
  deriving DecidableEq, Repr

/-- The head descriptor of a source. -/
def sourceHead (s : State) : TaskSource → Option Nat
  | .restart d => some d
  | .queue q => ((qPeek s q).1).map (fun w => w.toNat)

/-- 05 R127: the sources in order: by class, restart-list entries before queues, oldest first, queues by number. -/
def taskSources (s : State) : List TaskSource :=
  let all := s.stg.restart.map TaskSource.restart ++ ((List.range 16).map (fun i => TaskSource.queue (88 + i)))
  [0, 1, 2, 3].flatMap (fun cls => all.filter (fun src =>
    match sourceHead s src with
    | some d => descField s d 17 1 % 4 == cls
    | none => false))

/-- 05 R127: gives a descriptor to a player: it leaves its source, STATE and `STG.RUNn` are written, the watchdog restarts. -/
def assignTask (s : State) (src : TaskSource) (d : Nat) (p : Fin 4) : State :=
  let s := match src with
    | .restart _ => s.upStg (fun g => { g with restart := g.restart.erase d })
    | .queue q => qHandOut s q
  let s := setDescState s d (descState 1 p.val (descField s d 25 1))
  let s := s.upStg (fun g => { g with task := g.task.set p d })
  let s := s.wr (STG.RUN p) (BitVec.ofNat 32 (d / 32 * 32 + 1))
  wdRestart s p

/-- 05 R127: one run of the dispatcher. -/
def dispatchRun (s : State) : State :=
  if s.bit STG.CTRL 1 then
    (taskSources s).foldl (fun s src =>
      match sourceHead s src with
      | none => s
      | some d =>
        match bestPlayer s d with
        | none => s
        | some p => assignTask s src d p) s
  else s

/-- 05 R128: a player with a task was reset or has faulted: PFAULT, then the restart list, or failed with TFAIL once the count
exceeds MAXRESTART.  The list has no bound (log 111). -/
def playerFault (s : State) (p : Fin 4) : State :=
  let d := s.stg.task[p]
  if d = 0 then s
  else
    let s := s.setBit STG.STATUS p true
    let s := s.upStg (fun g => { g with task := g.task.set p 0 })
    let n := satAdd 255 (descField s d 25 1) 1
    if n ≤ s.fld STG.MAXRESTART 7 0 then
      let s := setDescState s d (descState 0 p.val n)
      s.upStg (fun g => { g with restart := g.restart ++ [d] })
    else
      let s := setDescState s d (descState 3 p.val n)
      let s := clearTrigger s d
      logFault (s.setBit STG.STATUS 10 true) 0x24 (p.val + 2) 0 0 (BitVec.ofNat 32 d)

/-- 05 R129: an event on stage-manager input `k`. -/
def stageTrigger (s : State) (k : Nat) : State :=
  if s.bit (STG.TRIG k) 0 then
    let missed := fun (s : State) => setOvr (s.bump (STG.TRIGQ k) 31 16 1) (14 + k)
    if s.bit (STG.TRIGQ k) 4 then missed s
    else
      let d := s.fld (STG.TRIG k) 31 5 * 32
      let r := qEnq s (88 + s.fld (STG.TRIGQ k) 3 0) stageInit (BitVec.ofNat 32 d)
      if r.1 = 0 ∨ r.1 = 3 then r.2.setBit (STG.TRIGQ k) 4 true else missed r.2
  else s

end Sys2Proof.Machine
end

