-- ==== Sys2Proof/Machine/Otp.lean ====
section
/-! DEFINITION. OTP: the root secret, the lifecycle fuses and the owner entries (17 R404 to R406). -/
namespace Sys2Proof.Machine
open Sys2Proof.Reg

/-- Changes what the blocks of chapter 17 hold. -/
def State.upKeys (s : State) (f : Keys → Keys) : State := { s with keys := f s.keys }

/-! ### OTP -/

/-- A byte of OTP; an unburnt byte is 0 (17 R404). -/
def State.otpByte (s : State) (a : Nat) : Byte := sparseGet (fun _ => 0) s.keys.otp a

/-- `n` bytes of OTP. -/
def State.otpBytes (s : State) (a n : Nat) : List Byte := (List.range n).map (fun i => s.otpByte (a + i))

/-- Burns bytes of OTP: a burnt bit stays 1. -/
def State.otpBurn (s : State) (a : Nat) : List Byte → State
  | [] => s
  | b :: bs => (s.upKeys (fun k => { k with otp := sparseSet (fun _ => 0) k.otp a (s.otpByte a ||| b) })).otpBurn (a + 1) bs

/-- Whether the fuse at bit `i` of a byte of OTP is burnt: at least 2 of its 3 bits read 1 (17 R404). -/
def fuseBurnt (s : State) (a i : Nat) : Bool := decide (2 ≤ onesBelow 3 ((s.otpBytes a 2).foldr (fun b n => b.toNat + 256 * n) 0 >>> i))

/-- 04 R96: the lifecycle the fuses give; PROVISIONED, OWNED and RETIRED lie in bits [2:0], [5:3] and [8:6] (log 37). -/
def lifecycle (s : State) : Nat :=
  if fuseBurnt s 0x500 6 then 3 else if fuseBurnt s 0x500 3 then 2 else if fuseBurnt s 0x500 0 then 1 else 0

/-- Burns the 3 bits of fuse `i` and reports the new lifecycle. -/
def burnFuse (s : State) (i : Nat) : State :=
  let s := s.otpBurn 0x500 (leBytes 2 (7 <<< i))
  let s := s.wr SYS.LIFECYCLE (BitVec.ofNat 32 (lifecycle s))
  s.setBit KEY.STATUS 3 (lifecycle s == 3)

/-- A copy of the root secret at an OTP address, if its CRC matches (17 R404). -/
def rootCopy (s : State) (a : Nat) : Option (List Byte) :=
  if leNat (s.otpBytes (a + 32) 4) = crc32 (s.otpBytes a 32) ∧ (s.otpBytes a 36).any (· != 0) then some (s.otpBytes a 32) else none

/-- 17 R404: the root secret: the reserve area when any byte of it is burnt, otherwise the primary one; copy A, otherwise copy B. -/
def rootSecret (s : State) : Option (List Byte) :=
  let area := if (s.otpBytes 0x80 128).any (· != 0) then 0x80 else 0
  match rootCopy s area with
  | some k => some k
  | none => rootCopy s (area + 0x28)

/-- Burns both copies of a root secret into an area. -/
def burnRoot (s : State) (area : Nat) (k : List Byte) : State :=
  let rec' := k ++ leBytes 4 (crc32 k)
  (s.otpBurn area rec').otpBurn (area + 0x28) rec'

/-- 17 R405: the state of an owner entry: 0 EMPTY, 1 VALID, 2 REVOKED, 3 DAMAGED. -/
def ownerState (s : State) (n : Nat) : Nat :=
  let e := s.otpBytes (0x400 + 64 * n) 37
  if decide (2 ≤ onesBelow 3 (e.getD 36 0).toNat) then 2
  else if e.all (· == 0) then 0
  else if leNat ((e.drop 32).take 4) = crc32 (e.take 32) then 1 else 3

/-- Reports the owner entries in `KEY.OWNERSTAT`. -/
def ownerStat (s : State) : State :=
  s.wr KEY.OWNERSTAT (BitVec.ofNat 32 ((List.range 4).foldl (fun v n => v + ownerState s n * 4 ^ n) 0))

/-- 17 R404: what KEY reads from OTP at a main reset. -/
def keyBoot (s : State) : State :=
  let s := s.setBit KEY.STATUS 2 (rootSecret s).isSome
  let s := s.wr SYS.LIFECYCLE (BitVec.ofNat 32 (lifecycle s))
  ownerStat (s.setBit KEY.STATUS 3 (lifecycle s == 3))

/-- 17 R406: an OTP command that a reset cuts short: PROG_OWNER leaves its entry burnt without a CRC; a fuse reads as burnt or not by how many of
its bits were burnt (DESIGN CHOICE, log 9: a free value). -/
def otpCut (s : State) : State :=
  match s.keys.otpCmd with
  | none => s
  | some w =>
    let n := bitsOf w 9 8
    let burnt := Config.freeNat s.free % 2 = 1
    let u := { s with free := s.free + 1 }
    let lc := lifecycle s
    match bitsOf w 3 0 with
    | 1 =>
      if (lc = 1 ∨ lc = 2) ∧ ownerState s n = 0 then
        s.otpBurn (0x400 + 64 * n) ((List.range 8).flatMap (fun i => beBytes 4 (s.rd (KEY.OWNERDATA i)).toNat))
      else s
    | 2 => if burnt ∧ ownerState s n = 1 then u.otpBurn (0x424 + 64 * n) [7] else u
    | 3 => if burnt ∧ lc = 1 then burnFuse u 3 else u
    | _ => if burnt ∧ lc = 2 then burnFuse u 6 else u

end Sys2Proof.Machine
end

