-- ==== Sys2Proof/Machine/Reset.lean ====
section
/-! DEFINITION. The resets (04 R98) and what each keeps. -/
namespace Sys2Proof.Machine
open Sys2Proof.Reg

/-- 04 R98, 18 R461, 20 R490: the registers a main reset keeps: those of the RTC block in BKUP, the fault log with its head and
the warm count, and the values the boot sequencer and the factory load from OTP (log 4). -/
def keptReg (a : Nat) : Bool :=
  a / 4096 == 0x30003 || (decide (0x30004400 ≤ a) && decide (a < 0x30004800)) || a == FLT.LOGHEAD ||
  a == SYS.LIFECYCLE || a == LNK.EUILO || a == LNK.EUIHI || a == KEY.OWNERSTAT || a == ADC.CAL ||
  (decide (DSM.CAL 0 ≤ a) && decide (a ≤ DSM.CAL 3)) || (decide (RXC.GDLY 0 ≤ a) && decide (a ≤ RXC.GDLY 6))

/-- The registers of the RTC block alone, kept by a main power-on reset (20 R490 clears the fault log there). -/
def keptAtPower (a : Nat) : Bool := keptReg a && !(a / 4096 == 0x30004)

/-- 18 R454: an entry of the trim table whose LEARNED bit is 0: a main reset loads the factory curve into it. -/
def unlearned (e : Nat × Word) : Bool := decide (RTC.TTAB 0 ≤ e.1) && decide (e.1 ≤ RTC.TTAB 15) && !testB e.2.toNat 31

/-- Whether a byte keeps its contents without power: flash and MRAM (07). -/
def nonVolatile (a : Nat) : Bool := match targetOf a with
  | .flash => true
  | .mram => true
  | _ => false

/-! ### An array operation cut short -/

/-- 07 R163: the physical address of a flash offset. -/
def flashAt (f : Nat) : Nat := 0x08000000 + f

/-- 07 R178: the flash offset of burst `i` of the epoch row of block `b`. -/
def epochBurst (b i : Nat) : Nat := if i < 8 then 0x20000 * b + 0x1F800 + 64 * i else 0x20000 * b + 0x1FC00 + 64 * (i - 8)

/-- 07 R166, R178: the burst at a flash offset is left half programmed: bits that were 1 may have become 0 (free values), and the burst is
not blank again before an erase. -/
def tearBurst (s : State) (f : Nat) : State :=
  let d := s.drawBytes 16
  let s := d.2.setBytes (flashAt f) (List.zipWith (fun a b => a &&& b) (d.2.bytes (flashAt f) 64) d.1)
  s.upNvm (fun v => { v with torn := addOnce v.torn f })

/-- 07 R166: an interrupted program: the burst it was writing is torn, and behind an upper page the paired lower page may be damaged
anywhere (free values). -/
def cutProgram (s : State) (f : Nat) : State :=
  let s := tearBurst s f
  if f / 512 % 2 = 1 then
    let d := s.drawBytes 128
    d.2.setBytes (flashAt ((f / 512 - 1) * 512)) d.1
  else s

/-- 07 R187: a sector whose erase stops is half erased: bits that were 0 may have become 1 (free values). -/
def halfErase (s : State) (f : Nat) : State :=
  let d := s.drawBytes 4096
  let s := d.2.setBytes (flashAt f) (List.zipWith (fun a b => a ||| b) (d.2.bytes (flashAt f) 0x4000) d.1)
  s.upNvm (fun v => { v with torn := v.torn.filter (fun b => b / 0x4000 != f / 0x4000) })

/-- The flash offset of the burst that a program has in progress. -/
def burstAt (o : FlashOp) : Nat := if o.op = 4 then epochBurst o.off (o.done / 64) else o.off + o.done

/-- 07 R184, R187: a main reset stops an array operation as a loss of power would: a program between two bursts, and an erase that is
suspended, leave what they had reached. -/
def flashCut (s : State) : State :=
  let s := match s.nvm.prog with
    | some o => if s.nvm.gap then s else cutProgram s (burstAt o)
    | none => s
  match s.nvm.erase with
  | some o => halfErase s o.off
  | none => s

/-! ### The resets -/

/-- 04 R98, R107: a main reset with cause bit `cause`.  A power-on reset loses every volatile memory and sets its own cause
alone; the others keep the contents of the memories (log 5) and add their cause.  An array operation of the flash (07 R184) and an OTP command (17 R406) are cut short.  Network time starts from the RTC
(12 R298), OTP is kept and a new session value drawn (17 R412). -/
def mainReset (s : State) (cause : Nat) (power : Bool) : State :=
  let s := otpCut (flashCut s)
  let old := (s.rd SYS.RSTCAUSE).toNat
  let warm := s.fld FLT.ESC 15 8
  let t : State := { State.reset with
    regs := s.regs.filter (fun e => (if power then keptAtPower e.1 else keptReg e.1) && !unlearned e)
    mem := if power then s.mem.filter (fun e => nonVolatile e.1) else s.mem
    nt := BitVec.ofNat 64 (s.rtc.secs * 32000000 + s.rtc.sub * 9765625 / 10000)
    rtc := s.rtc
    nvm := { torn := s.nvm.torn }
    pins := { s.pins with clkout := false, clkAcc := 0 }
    free := s.free
    pending := s.pending }
  let d := t.draw
  let t : State := { d.2 with keys := { otp := s.keys.otp, session := d.1 } }
  let t := t.wr SYS.RSTCAUSE (BitVec.ofNat 32 (if power then cause else old ||| cause))
  if power then t else t.setFld FLT.ESC 15 8 warm

/-! ### Cores -/

/-- 04 R87: the domain of a core. -/
def coreDom (p : Fin 6) : Nat := if p.val < 4 then Dom.app p.val else if p.val = 4 then Dom.link else Dom.prompt

/-- Whether the hold bit of a core is set (the prompter has none). -/
def coreHeld (s : State) (p : Fin 6) : Bool := p.val != 5 && s.bit SYS.PLAYHOLD p.val

/-- 04 R87: a core starts at an address with its state as after a reset (02 R32). -/
def startCore (s : State) (p : Fin 6) (entry a0 : Word) : State :=
  s.setCore p { pc := entry, a := (Vector.replicate 32 0).set 0 a0, run := .running }

/-- 04 R87, R107: a core whose hold is released starts at its `SYS.ENTRYn`; otherwise it stays held.  The checkpoint and the logs of the link
pair stand as they were until its first checkpoint (log 110). -/
def enterCore (s : State) (p : Fin 6) : State :=
  if coreHeld s p then s.setCore p { run := .held } else startCore s p (s.rd (SYS.ENTRY p.val)) 0

/-- 04 R98: a player reset; the pair's reset clears HALTED (20 R486). -/
def playerReset (s : State) (p : Fin 6) : State :=
  let s := wdRestart s p.val
  let s := if p.val = 4 then ((s.setBit SYS.LSTEP 17 false).setBit SYS.LSTEP 16 false).upPair (fun _ => {}) else s
  enterCore s p

/-- 05 R128: the stage manager's part of a reset or fault of an application player. -/
def faultOf (s : State) (p : Fin 6) : State :=
  if h : p.val < 4 then playerFault s ⟨p.val, h⟩ else s

/-! ### Watchdog responses and the prompter's warm restart -/

/-- The ticks of 31.25 ns in one second (00, 01 R12). -/
def ticksPerSecond : Nat := 32000000

/-- 20 R485: a warm restart of the prompter, or the escalation reset when a restart already ran within ESCWIN seconds or its
warm entry still runs. -/
def warmRestart (s : State) : State :=
  let win := orIfZero 1 (s.fld FLT.ESC 7 0) * ticksPerSecond
  let again := s.flt.warmEntry || (match s.flt.warmAt with | some t => decide (s.uptime - t ≤ win) | none => false)
  if again then mainReset (logFault s 0x26 0 0 0 0) 0x40 false
  else
    let s := (logFault s 0x25 0 0 0 0).bump FLT.ESC 15 8 1
    let s := wdRestart s 5
    let s := s.setCore 5 {}
    { s with flt := { s.flt with warmAt := some s.uptime, warmEntry := true } }

/-- 20 R484: the response to a watchdog expiry or a double fault of a core. -/
def coreFailure (s : State) (p : Fin 6) (inj : Nat) : State :=
  if p.val < 4 then faultOf (playerReset s p) p
  else if p.val = 4 then
    let s := (s.setBit SYS.PLAYHOLD 4 true).setBit SYS.LSTEP 17 true
    let s := s.upCore 4 (fun c => { c with run := .held })
    logFault s 0x08 (1 + inj) 0 0 0
  else warmRestart s

/-- 03 R83, 20 R482: a double fault halts the player with its state frozen and is logged; then as a watchdog expiry. -/
def doubleFault (s : State) (p : Fin 6) (inj : Nat) : State :=
  let s := s.upCore p (fun c => { c with run := .faulted })
  coreFailure (logFault s 0x0A (p.val + inj) p.val 0 (s.core p).pc) p inj

/-- 20 R484: a watchdog expires: EXPIRED, the log entry, the response. -/
def wdExpire (s : State) (p : Fin 6) (inj : Nat) : State :=
  let s := (s.setFld (FLT.WDSTAT p.val) 15 0 0).setBit (FLT.WDSTAT p.val) 17 true
  coreFailure (logFault s 0x09 (p.val + inj) p.val 0 0) p inj

end Sys2Proof.Machine
end

