-- ==== Sys2Proof/Machine/Dram.lean ====
section
/-! DEFINITION. The DRAM controller: power, refresh, freeze and release, and its commands (chapter 06). -/
namespace Sys2Proof.Machine
open Sys2Proof.Reg

/-- 06 R151: VBAT below 2.10 V freezes the controller with cause LOWVBAT, without a capture. -/
def dramLowVbat (s : State) : State :=
  if s.dom Dom.dramsys = .on ∧ ¬ s.bit DMC.FREEZE 0 then
    freezePages ((s.setFld DMC.FREEZE 2 0 5).setBit DMC.STATUS 2 true)
  else s

/-- A refresh closes all rows of a channel (06 R152). -/
def dramCloseRows (s : State) (c : Nat) : State :=
  s.upDram (fun d => { d with rows := d.rows.filter (fun r => r.1 / 8 != c) })

/-! ### Power -/

/-- 06 R148, R162: the validity map has bits to set again: the background fill starts from the first frame. -/
def fillAgain (s : State) : State := (s.setBit DMC.STATUS 4 true).wr DMC.FILLPTR 0

/-- 06 R147, R151: DRAMSYS powers up from off and trains; not while VBAT is below 2.20 V rising. -/
def dramPowerUp (s : State) : State :=
  if s.bit PWR.VBAT 17 then s
  else ((s.setDom Dom.dramsys .on).setBit DMC.STATUS 1 true).upDram (fun d => { d with trainAll := true })

/-- 01 R10, 06 R148, R157: DRAMSYS off: the contents, the validity map, a freeze with its captures and the registers are lost. -/
def dramsysOff (s : State) : State :=
  { ((s.clearRange 0x80000000 0x7000000).resetRegs 0x3000C000 0x1000).setDom Dom.dramsys .off with dram := {} }

/-- Whether the controller is not training, retraining, switching speed or releasing. -/
def dramIdle (s : State) : Bool := !s.bit DMC.STATUS 1 && !s.bit DMC.STATUS 6 && s.dram.release == 0

/-- The T3 frames that mapped pages use (05 R123). -/
def framesInT3 (s : State) : List Nat :=
  (s.stg.regions.flatMap regionPages).flatMap (fun p =>
    let e := s.pte p
    if pteBit e 0 then
      (if pteFld e 14 12 = 3 then [pteFld e 29 15] else []) ++ (match pteCopy e with | some (3, f) => [f] | _ => [])
    else [])

/-- 05 R123, 06 R155: the mask the stage manager writes before self-refresh: the segments that hold no mapped page. -/
def restMask (s : State) : Nat :=
  let used := (framesInT3 s).flatMap (frameSegments s)
  packBits 16 (fun i => !used.contains i)

/-- 06 R153, R155: self-refresh entry: the mask is written, owed refreshes are issued until D ≥ 0, and the banks are precharged. -/
def selfRefreshEnter (s : State) : State :=
  let s := s.setFld DMC.SRMASK 15 0 (restMask s)
  let s := ([0, 1] : List (Fin 2)).foldl (fun s c => if refreshCredit s c < 0 then setRefreshCredit s c 0 else s) s
  ((s.upDram (fun d => { d with rows := [] })).setBit DMC.STATUS 3 true).setDom Dom.dramsys .sr

/-! ### Commands -/

/-- DRAM_ACCESS (06 R142, R143, R145, R148): one access within an 8-byte word, on a read path that shows `p`.  A write of fewer than 8
bytes reads the word first and is discarded when that read fails. -/
def execDramAccess (who : Nat) (a : Nat) (data : Option (List Byte)) (p : DramPath) (s : State) : Out :=
  if targetOf a ≠ .dram ∨ ¬ dramServes s a then .next (touch s a)
  else
    match data with
    | none => .next (dramReadWord (dramOpenRow s a) who a 0 p).2
    | some bs => .next (performWrite s who a (bs.take (8 - a % 8)) p).2

/-- DRAM_TRAINING_DONE (06 R147, R160): training of both channels ends; the validity map is cleared and READY set, or
TRAINFAIL with the failing step. -/
def execDramTrainingDone (failStep : Fin 6) (s : State) : Out :=
  if s.dom Dom.dramsys = .on ∧ s.dram.trainAll then
    let s := s.setBit DMC.STATUS 1 false
    let s := s.setFld DMC.TRAIN 3 0 failStep.val
    let s := s.setBit DMC.STATUS 8 (failStep.val != 0)
    let s := s.upDram (fun d => { d with valid := [], badChk := [], release := 0, trainAll := false })
    let s := s.setBit DMC.STATUS 0 (failStep.val == 0)
    .next (((s.setFld DMC.FREEZE 31 0 0).setBit DMC.STATUS 2 false).setBit DMC.STATUS 4 (failStep.val == 0) |>.wr DMC.FILLPTR 0)
  else .next s

/-- DRAM_BACKGROUND_FILL (06 R148): the filler makes the next frame valid; FILLING clears when every bit is set. -/
def execDramBackgroundFill (s : State) : Out :=
  if s.bit DMC.STATUS 4 ∧ s.bit DMC.STATUS 0 ∧ ¬ s.bit DMC.FREEZE 0 ∧ s.dom Dom.dramsys = .on then
    let f := s.fld DMC.FILLPTR 14 0
    let s := dramValidate s f
    if f + 1 < framesPowered s then .next (s.setFld DMC.FILLPTR 14 0 (f + 1))
    else .next ((s.setFld DMC.FILLPTR 14 0 0).setBit DMC.STATUS 4 false)
  else .next s

/-- PATROL_SCRUB_READ (06 R146): the patrol reads its next word with the outcome of R143; a word of a channel without power is passed over. -/
def execPatrolScrubRead (p : DramPath) (s : State) : Out :=
  let a := 0x80000000 + 8 * s.dram.patrol
  if s.fld DMC.SCRUB 7 0 ≠ 0 ∧ dramServes s 0x80000000 then
    let s := if dramServes s a then (dramReadWord (dramOpenRow s a) 0xB a 2 p).2 else s
    .next (s.upDram (fun d => { d with patrol := (d.patrol + 1) % 0xE00000 }))
  else .next s

/-- ZQ_CALIBRATION (06 R149): issued in slots no access needs; it changes no register and no contents. -/
def execZqCalibration (s : State) : Out := .next s

/-- DQS_OSC_READ (06 R149): the drift last measured is reported in `DMC.TRAIN.DRIFT`. -/
def execDqsOscRead (drift : BitVec 16) (s : State) : Out := .next (s.setFld DMC.TRAIN 31 16 drift.toNat)

/-- DRAM_SPEED_SWITCH_DONE (06 R150): the switch ends; a setting written during it starts the next one. -/
def execDramSpeedSwitchDone (s : State) : Out :=
  let final := (List.finRange 2).any (fun c => migState s c == 3 && (s.stg.mig[c].tier == 3 || targetOf s.stg.mig[c].src == .dram))
  if s.bit DMC.STATUS 6 ∧ final = false then
    let target := !s.dram.speed
    let s := s.upDram (fun d => { d with speed := target })
    .next (s.setBit DMC.STATUS 6 (s.bit DMC.CTRL 1 != target))
  else .next s

/-- DRAM_RETRAIN_DONE (06 R150, R156): a retrain ends, passing or setting TRAINFAIL with its step. -/
def execDramRetrainDone (failStep : Fin 6) (s : State) : Out :=
  if s.bit DMC.STATUS 1 ∧ ¬ s.dram.trainAll then
    let s := (s.setBit DMC.STATUS 1 false).setFld DMC.TRAIN 3 0 failStep.val
    .next (s.setBit DMC.STATUS 8 (failStep.val != 0))
  else .next s

/-- DRAM_PAGE_TIMER_EXPIRY (06 R152): a bank's idle timer expires and its row is closed. -/
def execDramPageTimerExpiry (c : Fin 2) (bank : Fin 8) (s : State) : Out :=
  .next (s.upDram (fun d => { d with rows := d.rows.filter (fun r => r.1 != 8 * c.val + bank.val) }))

/-- REFRESH_DUE (06 R153): a refresh falls due and lowers D; at −8 a burst is issued until D is 0; otherwise one refresh is
issued at once, or with POSTPONE only on a channel without queued commands.  In self-refresh the dies refresh themselves. -/
def execRefreshDue (c : Fin 2) (idle : Bool) (s : State) : Out :=
  let d := clampI (-8) 8 (refreshCredit s c - 1)
  if s.dom Dom.dramsys ≠ .on then .next s
  else if d = -8 then
    let s := dramCloseRows (setRefreshCredit s c 0) c.val
    .next (s.bump DMC.REFSTAT 31 16 1)
  else if d < 0 ∧ (¬ s.bit DMC.REFCFG 0 ∨ idle) then .next (dramCloseRows (setRefreshCredit s c (d + 1)) c.val)
  else .next (setRefreshCredit s c d)

/-- REFRESH_PULL_IN (06 R153): a channel without queued commands issues one refresh: a postponed one, or with PULLIN and D below 8 one
ahead. -/
def execRefreshPullIn (c : Fin 2) (s : State) : Out :=
  if s.dom Dom.dramsys = .on ∧ (refreshCredit s c < 0 ∨ (s.bit DMC.REFCFG 1 ∧ refreshCredit s c < 8)) then
    .next (dramCloseRows (setRefreshCredit s c (refreshCredit s c + 1)) c.val)
  else .next s

/-- MR4_POLL (06 R154): the codes of both dies are reported; code 0b111 is logged. -/
def execMr4Poll (code0 code1 : Fin 8) (s : State) : Out :=
  let s := (s.setFld DMC.STATUS 18 16 code0.val).setFld DMC.STATUS 22 20 code1.val
  let s := s.when (code0.val == 7) (fun s => logFault s 0x0E 0xB 0 0 0)
  .next (s.when (code1.val == 7) (fun s => logFault s 0x0E 0xB 1 0 0))

/-- Pushes a frame into `DMC.POISONQ`; beyond 16 it sets OVF (06 R160). -/
def pushPoison (s : State) (f : Nat) : State :=
  if s.dram.poisonq.length < 16 then s.upDram (fun d => { d with poisonq := d.poisonq ++ [f] })
  else s.upDram (fun d => { d with poisonOvf := true })

/-- SCRUB_RELEASE_DONE (06 R160): every uncorrectable word of a valid frame is poisoned and its frame pushed, every correctable
one is written back; `bad` are the words the scrub found damaged by a misdirected write or a fault.  Service resumes. -/
def execScrubReleaseDone (bad : List Nat) (s : State) : Out :=
  if s.dram.release = 2 then
    let own := (s.dram.badChk.filter (fun e => e.2 != 0xFF && !synSingle e.2)).map (fun e => e.1)
    let good := (s.dram.badChk.filter (fun e => synSingle e.2)).map (fun e => e.1)
    let s := good.foldl (fun s w => (dramReadWord s 0xB w 0 .clean).2) s
    let s := (own ++ (bad.map (fun a => a / 8 * 8)).filter (fun a => targetOf a == .dram && s.dram.valid.contains (frameOfDram a))).foldl
      (fun s w => pushPoison (setSyn s w 0xFF) (frameOfDram w)) s
    let s := (s.upDram (fun d => { d with release := 0 })).setBit DMC.STATUS 5 false
    .next (((s.wr DMC.FREEZE 0).setBit DMC.STATUS 2 false))
  else .next s

/-! ### Writes of the DMC registers -/

/-- Clears the capture registers (06 R160). -/
def clearCapture (s : State) : State :=
  [DMC.FRZADDR, DMC.FRZCMD, DMC.FRZSYN, DMC.FRZDLO, DMC.FRZDHI].foldl (fun s a => s.wr a 0) s

/-- 06 R160: a write of RELEASE; ignored while not frozen or while a release runs; LOWVBAT accepts RESET alone, above 2.20 V. -/
def dmcRelease (s : State) (mode : Nat) : State :=
  let cause := s.fld DMC.FREEZE 2 1
  if !s.bit DMC.FREEZE 0 || s.dram.release != 0 then s
  else if cause = 2 ∧ (mode ≠ 3 ∨ s.fld PWR.VBAT 11 0 ≤ 2200) then s
  else match mode with
    | 1 => ((clearCapture s).wr DMC.FREEZE 0).setBit DMC.STATUS 2 false
    | 2 => (s.upDram (fun d => { d with release := 2 })).setBit DMC.STATUS 5 true
    | 3 =>
      let s := s.upDram (fun d => { d with release := 3, trainAll := true, valid := [], lost := d.valid ++ d.lost })
      ((clearCapture s).setBit DMC.STATUS 0 false).setBit DMC.STATUS 1 true
    | _ => s

/-- 06 R156: a write of `DMC.CTRL.CH1OFF`: 1 is refused while channels interleave; 0 powers channel 1 up and retrains it. -/
def ch1Write (s : State) (off : Bool) : State :=
  if off ∧ s.fld DMC.ADDRMAP 3 0 ≠ 0 then s.setBit DMC.STATUS 7 true
  else
    let was := s.bit DMC.CTRL 2
    let s := (s.setBit DMC.CTRL 2 off).setBit DMC.STATUS 7 false
    if off then s.upDram (fun d => { d with valid := d.valid.filter (fun f => decide (f < 14336)) })
    else if was then fillAgain (s.setBit DMC.STATUS 1 true)
    else s

/-- 06 R150, R156: a trusted write of `DMC.CTRL`.  EN of the same write counts for RETRAIN (log 93). -/
def dmcCtrlWrite (s : State) (v : Word) : State :=
  let n := v.toNat
  let s := s.setBit DMC.CTRL 0 (testB n 0)
  let s := if testB n 1 != s.bit DMC.CTRL 1 then
      (s.setBit DMC.CTRL 1 (testB n 1)).setBit DMC.STATUS 6 (s.bit DMC.STATUS 6 || (testB n 1 != s.dram.speed)) else s
  let s := ch1Write s (testB n 2)
  s.when (testB n 3 && (s.bit DMC.FREEZE 0 || !s.bit DMC.CTRL 0)) (fun s => s.setBit DMC.STATUS 1 true)

/-- 06 R148, R161: a trusted write of `DMC.ADDRMAP`: refused while EN is 1 or for a code above 9; a change clears the map. -/
def dmcMapWrite (s : State) (v : Word) : State :=
  let g := v.toNat % 16
  if s.bit DMC.CTRL 0 ∨ 9 < g then s.setBit DMC.STATUS 7 true
  else
    let s' := if g ≠ s.fld DMC.ADDRMAP 3 0 then fillAgain (s.upDram (fun d => { d with valid := [], badChk := [] })) else s
    (s'.setFld DMC.ADDRMAP 3 0 g).setBit DMC.STATUS 7 false

/-- 06 R159, R161: a diagnostic access while frozen: read, write or poison of the word at DIAGADDR, without ECC.  Of several start bits the
lowest counts, a word outside the array answers ERR, and a frame whose validity bit is 0 reads as zero and is made valid by a write (log 92). -/
def dmcDiag (s : State) (v : Word) : State :=
  let n := v.toNat
  let ch := s.fld DMC.DIAGADDR 31 31
  let l := s.fld DMC.DIAGADDR 25 3 * 8
  let w := dramUnmap s ch l
  let start := testB n 0 || testB n 1 || testB n 2
  if !start || !s.bit DMC.FREEZE 0 then s
  else if (ch = 1 ∧ s.bit DMC.CTRL 2) ∨ 0x03800000 ≤ l then s.setFld DMC.DIAGCTRL 9 8 3
  else
    let s := s.setFld DMC.DIAGCTRL 9 8 1
    let data := s.viewNat w 8
    if testB n 0 then
      let x := storedSyn s w
      let s := (s.wr DMC.DIAGDLO (BitVec.ofNat 32 data)).wr DMC.DIAGDHI (BitVec.ofNat 32 (data / 2 ^ 32))
      s.wr DMC.DIAGCHK (BitVec.ofNat 32 ((dramCheck data l ^^^ x).toNat + 256 * x.toNat))
    else if testB n 1 then
      let d := (s.rd DMC.DIAGDLO).toNat + 2 ^ 32 * (s.rd DMC.DIAGDHI).toNat
      let s := (dramValidate s (frameOfDram w)).setBytes w (leBytes 8 d)
      setSyn s w (dramCheck d l ^^^ BitVec.ofNat 8 (s.fld DMC.DIAGCHK 7 0))
    else setSyn (dramValidate s (frameOfDram w)) w 0xFF

/-- 06 R161: a read of POISONQ pops the oldest frame. -/
def poisonPop (s : State) : Word × State :=
  match s.dram.poisonq with
  | f :: rest =>
    (BitVec.ofNat 32 (f + 2 ^ 30 * natBit s.dram.poisonOvf + 2 ^ 31), s.upDram (fun d => { d with poisonq := rest, poisonOvf := false }))
  | [] => (0, s)

end Sys2Proof.Machine
end

