-- ==== Sys2Proof/Machine/Ecc.lean ====
section
/-! DEFINITION. The P-256 group, ECDSA over it, and X25519 (17 R408, R427; FIPS 186-4 and RFC 7748: log 36). -/
namespace Sys2Proof.Machine

/-- The bits of a number below `n`, most significant first. -/
def bitsMsb : Nat → Nat → List Bool
  | 0, _ => []
  | n + 1, x => testB x n :: bitsMsb n x

/-- Euclid's algorithm, bounded: remainders r₀ and r₁ with their factors t₀ and t₁ modulo p. -/
def invGo (p : Nat) : Nat → Nat → Nat → Nat → Nat → Nat
  | 0, _, _, t0, _ => t0
  | n + 1, r0, r1, t0, t1 => if r1 = 0 then t0 else invGo p n r1 (r0 % r1) t1 ((t0 + (p - r0 / r1 * t1 % p)) % p)

/-- The inverse modulo a prime below 2^256, 0 for 0. -/
def invMod (a p : Nat) : Nat := invGo p 512 p (a % p) 0 1

/-- A difference modulo m. -/
def subMod (a b m : Nat) : Nat := (a + m - b % m) % m

/-- The field of P-256. -/
def p256 : Nat := 2 ^ 256 - 2 ^ 224 + 2 ^ 192 + 2 ^ 96 - 1
/-- The order of the group. -/
def n256 : Nat := 0xFFFFFFFF00000000FFFFFFFFFFFFFFFFBCE6FAADA7179E84F3B9CAC2FC632551
/-- The coefficient b of the curve. -/
def b256 : Nat := 0x5AC635D8AA3A93E7B3EBBD55769886BC651D06B0CC53B0F63BCE3C3E27D2604B
/-- The base point. -/
def g256 : Nat × Nat :=
  (0x6B17D1F2E12C4247F8BCE6E563A440F277037D812DEB33A0F4A13945D898C296,
   0x4FE342E2FE1A7F9B8EE7EB4A7C0F9E162BCE33576B315ECECBB6406837BF51F5)

/-- Whether a point lies on the curve. -/
def onCurve (q : Nat × Nat) : Bool :=
  decide (q.1 < p256) && decide (q.2 < p256) && decide (q.2 * q.2 % p256 = (q.1 * q.1 % p256 * q.1 + (p256 - 3) * q.1 + b256) % p256)

/-- The sum of two points; none is the neutral element. -/
def ptAdd (a b : Option (Nat × Nat)) : Option (Nat × Nat) :=
  match a, b with
  | none, b => b
  | a, none => a
  | some (x1, y1), some (x2, y2) =>
    if x1 = x2 ∧ (y1 + y2) % p256 = 0 then none
    else
      let l := if x1 = x2 then (3 * x1 * x1 + p256 - 3) * invMod (2 * y1) p256 % p256
        else subMod y2 y1 p256 * invMod (subMod x2 x1 p256) p256 % p256
      let x3 := subMod (subMod (l * l % p256) x1 p256) x2 p256
      some (x3, subMod (l * subMod x1 x3 p256 % p256) y1 p256)

/-- Twice a point in Jacobian coordinates (x = X/Z², y = Y/Z³; Z = 0 is the neutral element). -/
def jacDouble (p : Nat × Nat × Nat) : Nat × Nat × Nat :=
  let (x, y, z) := p
  let yy := y * y % p256
  let u := 4 * x * yy % p256
  let m := 3 * subMod x (z * z) p256 * (x + z * z) % p256
  let x3 := subMod (m * m) (2 * u) p256
  (x3, subMod (m * subMod u x3 p256) (8 * yy * yy) p256, 2 * y * z % p256)

/-- The sum of a point in Jacobian coordinates and an affine one. -/
def jacAdd (p : Nat × Nat × Nat) (q : Nat × Nat) : Nat × Nat × Nat :=
  let (x, y, z) := p
  if z = 0 then (q.1, q.2, 1)
  else
    let h := subMod (q.1 * (z * z % p256)) x p256
    let r := subMod (q.2 * (z * z % p256 * z % p256)) y p256
    if h = 0 then (if r = 0 then jacDouble p else (1, 1, 0))
    else
      let hh := h * h % p256
      let v := x * hh % p256
      let x3 := subMod (subMod (r * r) (hh * h) p256) (2 * v) p256
      (x3, subMod (r * subMod v x3 p256) (y * (hh * h % p256)) p256, z * h % p256)

/-- A multiple of a point. -/
def ptMul (k : Nat) (q : Option (Nat × Nat)) : Option (Nat × Nat) :=
  match q with
  | none => none
  | some q =>
    let r := (bitsMsb 256 k).foldl (fun r bit => let d := jacDouble r; if bit then jacAdd d q else d) (1, 1, 0)
    if r.2.2 = 0 then none
    else
      let i := invMod r.2.2 p256
      let ii := i * i % p256
      some (r.1 * ii % p256, r.2.1 * (ii * i % p256) % p256)

/-- ECDSA signature of a digest with nonce k: r and s. -/
def ecdsaSign (d e k : Nat) : Nat × Nat :=
  let r := match ptMul k (some g256) with | some (x, _) => x % n256 | none => 0
  (r, invMod k n256 * ((e + r * d) % n256) % n256)

/-- ECDSA verification. -/
def ecdsaVerify (q : Nat × Nat) (e r s : Nat) : Bool :=
  if r = 0 ∨ n256 ≤ r ∨ s = 0 ∨ n256 ≤ s ∨ onCurve q = false then false
  else
    let w := invMod s n256
    match ptAdd (ptMul (e * w % n256) (some g256)) (ptMul (r * w % n256) (some q)) with
    | some (x, _) => decide (x % n256 = r)
    | none => false

/-- The field of X25519. -/
def p25519 : Nat := 2 ^ 255 - 19

/-- The state of the ladder of RFC 7748. -/
structure Ladder where
  x2 : Nat := 1
  z2 : Nat := 0
  x3 : Nat
  z3 : Nat := 1

/-- One step of the ladder for a bit of the scalar. -/
def ladderStep (u : Nat) (l : Ladder) (bit : Bool) : Ladder :=
  let p := p25519
  let (x2, z2, x3, z3) := if bit then (l.x3, l.z3, l.x2, l.z2) else (l.x2, l.z2, l.x3, l.z3)
  let a := (x2 + z2) % p
  let b := subMod x2 z2 p
  let c := (x3 + z3) % p
  let d := subMod x3 z3 p
  let aa := a * a % p
  let bb := b * b % p
  let e := subMod aa bb p
  let da := d * a % p
  let cb := c * b % p
  let y3 := (da + cb) % p
  let w3 := subMod da cb p
  let nx3 := y3 * y3 % p
  let nz3 := u * (w3 * w3 % p) % p
  let nx2 := aa * bb % p
  let nz2 := e * ((aa + 121665 * e) % p) % p
  if bit then { x2 := nx3, z2 := nz3, x3 := nx2, z3 := nz2 } else { x2 := nx2, z2 := nz2, x3 := nx3, z3 := nz3 }

/-- X25519 of a scalar and a coordinate, each 32 bytes little-endian as numbers. -/
def x25519 (k u : Nat) : Nat :=
  let k := k % 2 ^ 254 / 8 * 8 + 2 ^ 254
  let u := u % 2 ^ 255 % p25519
  let l := (bitsMsb 255 k).foldl (ladderStep u) { x3 := u }
  l.x2 * invMod l.z2 p25519 % p25519

end Sys2Proof.Machine
end

