-- ==== Sys2Proof/Machine/Sha.lean ====
section
/-! DEFINITION. SHA-256 and SHA-512 (17 R428, FIPS 180-4: log 36). -/
namespace Sys2Proof.Machine

/-- The round constants of SHA-256. -/
def k256 : List (BitVec 32) :=
  [0x428A2F98, 0x71374491, 0xB5C0FBCF, 0xE9B5DBA5, 0x3956C25B, 0x59F111F1, 0x923F82A4, 0xAB1C5ED5,
   0xD807AA98, 0x12835B01, 0x243185BE, 0x550C7DC3, 0x72BE5D74, 0x80DEB1FE, 0x9BDC06A7, 0xC19BF174,
   0xE49B69C1, 0xEFBE4786, 0x0FC19DC6, 0x240CA1CC, 0x2DE92C6F, 0x4A7484AA, 0x5CB0A9DC, 0x76F988DA,
   0x983E5152, 0xA831C66D, 0xB00327C8, 0xBF597FC7, 0xC6E00BF3, 0xD5A79147, 0x06CA6351, 0x14292967] ++
  [0x27B70A85, 0x2E1B2138, 0x4D2C6DFC, 0x53380D13, 0x650A7354, 0x766A0ABB, 0x81C2C92E, 0x92722C85,
   0xA2BFE8A1, 0xA81A664B, 0xC24B8B70, 0xC76C51A3, 0xD192E819, 0xD6990624, 0xF40E3585, 0x106AA070,
   0x19A4C116, 0x1E376C08, 0x2748774C, 0x34B0BCB5, 0x391C0CB3, 0x4ED8AA4A, 0x5B9CCA4F, 0x682E6FF3,
   0x748F82EE, 0x78A5636F, 0x84C87814, 0x8CC70208, 0x90BEFFFA, 0xA4506CEB, 0xBEF9A3F7, 0xC67178F2]

/-- The initial value of SHA-256. -/
def h256 : List (BitVec 32) :=
  [0x6A09E667, 0xBB67AE85, 0x3C6EF372, 0xA54FF53A, 0x510E527F, 0x9B05688C, 0x1F83D9AB, 0x5BE0CD19]

/-- The round constants of SHA-512. -/
def k512 : List (BitVec 64) :=
  [0x428A2F98D728AE22, 0x7137449123EF65CD, 0xB5C0FBCFEC4D3B2F, 0xE9B5DBA58189DBBC,
   0x3956C25BF348B538, 0x59F111F1B605D019, 0x923F82A4AF194F9B, 0xAB1C5ED5DA6D8118,
   0xD807AA98A3030242, 0x12835B0145706FBE, 0x243185BE4EE4B28C, 0x550C7DC3D5FFB4E2,
   0x72BE5D74F27B896F, 0x80DEB1FE3B1696B1, 0x9BDC06A725C71235, 0xC19BF174CF692694] ++
  [0xE49B69C19EF14AD2, 0xEFBE4786384F25E3, 0x0FC19DC68B8CD5B5, 0x240CA1CC77AC9C65,
   0x2DE92C6F592B0275, 0x4A7484AA6EA6E483, 0x5CB0A9DCBD41FBD4, 0x76F988DA831153B5,
   0x983E5152EE66DFAB, 0xA831C66D2DB43210, 0xB00327C898FB213F, 0xBF597FC7BEEF0EE4,
   0xC6E00BF33DA88FC2, 0xD5A79147930AA725, 0x06CA6351E003826F, 0x142929670A0E6E70] ++
  [0x27B70A8546D22FFC, 0x2E1B21385C26C926, 0x4D2C6DFC5AC42AED, 0x53380D139D95B3DF,
   0x650A73548BAF63DE, 0x766A0ABB3C77B2A8, 0x81C2C92E47EDAEE6, 0x92722C851482353B,
   0xA2BFE8A14CF10364, 0xA81A664BBC423001, 0xC24B8B70D0F89791, 0xC76C51A30654BE30,
   0xD192E819D6EF5218, 0xD69906245565A910, 0xF40E35855771202A, 0x106AA07032BBD1B8] ++
  [0x19A4C116B8D2D0C8, 0x1E376C085141AB53, 0x2748774CDF8EEB99, 0x34B0BCB5E19B48A8,
   0x391C0CB3C5C95A63, 0x4ED8AA4AE3418ACB, 0x5B9CCA4F7763E373, 0x682E6FF3D6B2B8A3,
   0x748F82EE5DEFB2FC, 0x78A5636F43172F60, 0x84C87814A1F0AB72, 0x8CC702081A6439EC,
   0x90BEFFFA23631E28, 0xA4506CEBDE82BDE9, 0xBEF9A3F7B2C67915, 0xC67178F2E372532B] ++
  [0xCA273ECEEA26619C, 0xD186B8C721C0C207, 0xEADA7DD6CDE0EB1E, 0xF57D4F7FEE6ED178,
   0x06F067AA72176FBA, 0x0A637DC5A2C898A6, 0x113F9804BEF90DAE, 0x1B710B35131C471B,
   0x28DB77F523047D84, 0x32CAAB7B40C72493, 0x3C9EBE0A15C9BEBC, 0x431D67C49C100D4C,
   0x4CC5D4BECB3E42B6, 0x597F299CFC657E2A, 0x5FCB6FAB3AD6FAEC, 0x6C44198C4A475817]

/-- The initial value of SHA-512. -/
def h512 : List (BitVec 64) :=
  [0x6A09E667F3BCC908, 0xBB67AE8584CAA73B, 0x3C6EF372FE94F82B, 0xA54FF53A5F1D36F1,
   0x510E527FADE682D1, 0x9B05688C2B3E6C1F, 0x1F83D9ABFB41BD6B, 0x5BE0CD19137E2179]

/-- The rotation amounts of a SHA-2 function: Σ0, Σ1, and σ0, σ1 with their shifts. -/
structure ShaRot where
  s0 : Nat × Nat × Nat
  s1 : Nat × Nat × Nat
  l0 : Nat × Nat × Nat
  l1 : Nat × Nat × Nat

def rot256 : ShaRot := { s0 := (2, 13, 22), s1 := (6, 11, 25), l0 := (7, 18, 3), l1 := (17, 19, 10) }
def rot512 : ShaRot := { s0 := (28, 34, 39), s1 := (14, 18, 41), l0 := (1, 8, 7), l1 := (19, 61, 6) }

variable {w : Nat}

def shaBig (r : Nat × Nat × Nat) (x : BitVec w) : BitVec w := x.rotateRight r.1 ^^^ x.rotateRight r.2.1 ^^^ x.rotateRight r.2.2
def shaSmall (r : Nat × Nat × Nat) (x : BitVec w) : BitVec w := x.rotateRight r.1 ^^^ x.rotateRight r.2.1 ^^^ (x >>> r.2.2)

/-- The message schedule, newest word first. -/
def shaSchedule (r : ShaRot) : Nat → List (BitVec w) → List (BitVec w)
  | 0, ws => ws
  | n + 1, ws => shaSchedule r n ((shaSmall r.l1 (ws.getD 1 0) + ws.getD 6 0 + shaSmall r.l0 (ws.getD 14 0) + ws.getD 15 0) :: ws)

/-- One round: the eight working words. -/
def shaRound (r : ShaRot) (v : List (BitVec w)) (kw : BitVec w × BitVec w) : List (BitVec w) :=
  let g := fun i => v.getD i 0
  let ch := (g 4 &&& g 5) ^^^ (~~~ (g 4) &&& g 6)
  let maj := (g 0 &&& g 1) ^^^ (g 0 &&& g 2) ^^^ (g 1 &&& g 2)
  let t1 := g 7 + shaBig r.s1 (g 4) + ch + kw.1 + kw.2
  let t2 := shaBig r.s0 (g 0) + maj
  [t1 + t2, g 0, g 1, g 2, g 3 + t1, g 4, g 5, g 6]

/-- The words of a block, most significant byte first. -/
def shaWords (bs : List Byte) : List (BitVec w) := (List.range 16).map (fun i => BitVec.ofNat w (beNat ((bs.drop (w / 8 * i)).take (w / 8))))

/-- One block. -/
def shaBlock (r : ShaRot) (ks : List (BitVec w)) (h : List (BitVec w)) (bs : List Byte) : List (BitVec w) :=
  let ws := (shaSchedule r (ks.length - 16) (shaWords bs).reverse).reverse
  let v := (ks.zip ws).foldl (shaRound r) h
  (List.range 8).map (fun i => h.getD i 0 + v.getD i 0)

/-- The padding of a message of `n` bytes for blocks of `b` bytes. -/
def shaPad (b n : Nat) : List Byte :=
  let z := (2 * b - 1 - b / 8 - n % b) % b
  [0x80] ++ List.replicate z 0 ++ beBytes (b / 8) (8 * n)

/-- The blocks of a list whose length is a multiple of `b`. -/
def shaBlocks (b : Nat) (bs : List Byte) : List (List Byte) := (List.range (bs.length / b)).map (fun i => (bs.drop (b * i)).take b)

/-- Continues SHA-256 over whole blocks. -/
def sha256Run (h : List (BitVec 32)) (bs : List Byte) : List (BitVec 32) := (shaBlocks 64 bs).foldl (shaBlock rot256 k256) h

/-- Continues SHA-512 over whole blocks. -/
def sha512Run (h : List (BitVec 64)) (bs : List Byte) : List (BitVec 64) := (shaBlocks 128 bs).foldl (shaBlock rot512 k512) h

/-- SHA-256 of a message. -/
def sha256 (m : List Byte) : List Byte := (sha256Run h256 (m ++ shaPad 64 m.length)).flatMap (fun x => beBytes 4 x.toNat)

/-- SHA-512 of a message. -/
def sha512 (m : List Byte) : List Byte := (sha512Run h512 (m ++ shaPad 128 m.length)).flatMap (fun x => beBytes 8 x.toNat)

end Sys2Proof.Machine
end

