-- ==== Sys2Proof/Machine/Keys.lean ====
section
/-! DEFINITION. OTP, the key slots, derivation and attestation (17 R404 to R418, R424 to R426, R430). -/
namespace Sys2Proof.Machine
open Sys2Proof.Reg

/-! ### OTP commands -/

/-- `KEY.OTPDATA`: the word at `KEY.OTPADDR`; the root-secret areas read as 0 (17 R404). -/
def otpDataRead (s : State) : Word :=
  let a := s.fld KEY.OTPADDR 12 2 * 4
  if a < 0x100 then 0 else leWord (s.otpBytes a 4)

/-- 17 R406: the result and the action of an OTP command. -/
def otpRun (s : State) (w : Word) (ok : Bool) : Nat × State :=
  let n := bitsOf w 9 8
  let lc := lifecycle s
  if s.fld PWR.VBAT 11 0 < 2000 then (1, s)
  else match bitsOf w 3 0 with
  | 1 =>
    if lc ≠ 1 ∧ lc ≠ 2 then (5, s)
    else if ownerState s n ≠ 0 then (2, s)
    else
      let d := (List.range 8).flatMap (fun i => beBytes 4 (s.rd (KEY.OWNERDATA i)).toNat)
      let s := s.otpBurn (0x400 + 64 * n) d
      if ok then (0, ownerStat (s.otpBurn (0x420 + 64 * n) (leBytes 4 (crc32 d)))) else (6, ownerStat s)
  | 2 =>
    if ownerState s n ≠ 1 then (4, s)
    else if (List.range 4).all (fun m => m == n || ownerState s m != 1) then (3, s)
    else if ok then (0, ownerStat (s.otpBurn (0x424 + 64 * n) [7])) else (6, s)
  | 3 =>
    if lc ≠ 1 then (5, s)
    else if (List.range 4).all (fun m => ownerState s m != 1) then (4, s)
    else if ok then (0, burnFuse s 3) else (6, s)
  | 4 => if lc ≠ 2 then (5, s) else if ok then (0, burnFuse s 6) else (6, s)
  | _ => (0, s)

/-- 17 R406: a write of `KEY.OTPCMD`; while BUSY it is discarded, and so is an OP outside 1 to 4 (log 38). -/
def otpCmdWrite (s : State) (v : Word) : State :=
  if s.keys.otpCmd.isSome ∨ bitsOf v 3 0 = 0 ∨ 4 < bitsOf v 3 0 then s
  else (s.setBit KEY.OTPSTAT 0 true).upKeys (fun k => { k with otpCmd := some v })

/-- OTP_COMMAND_DONE (17 R406): the command ends with its result; `ok` is whether the burnt bits read back. -/
def execOtpCommandDone (ok : Bool) (s : State) : Out :=
  match s.keys.otpCmd with
  | none => .next s
  | some w =>
    let r := otpRun s w ok
    .next (((r.2.setFld KEY.OTPSTAT 7 4 r.1).setBit KEY.OTPSTAT 0 false).upKeys (fun k => { k with otpCmd := none }))

/-! ### Key slots -/

/-- 17 R410: the address of a slot's record. -/
def slotAddr (n : Nat) : Nat := 0x0C004800 + 0x40 * n

/-- 17 R410: a slot's record as MRAM holds it. -/
def slotRec (s : State) (n : Nat) : List Byte := s.viewBytes (slotAddr n) 64

/-- A little-endian word of a record. -/
def recWord (r : List Byte) (off : Nat) : Nat := leNat ((r.drop off).take 4)

/-- 17 R412: what a slot is judged to be. -/
inductive SlotJudge where
  | empty | corrupt | expired | spent | usable
  deriving DecidableEq, Repr

/-- 17 R410: the integrity tag of a record. -/
def slotTag (s : State) (n : Nat) (r : List Byte) : List Byte :=
  (cmac (s.keys.tag.getD []) ([BitVec.ofNat 8 n] ++ r.take 48)).take 4

/-- 17 R412: the judgement of a slot; the tag of a slot in the cache has been checked (R414). -/
def slotJudge (s : State) (n : Nat) : SlotJudge :=
  let r := slotRec s n
  let cached := s.keys.cache.any (fun c => c.1 == n)
  if r.all (· == 0) then .empty
  else if (!cached && (r.drop 60) != slotTag s n r) || recWord r 48 + recWord r 52 != 0xFFFFFFFF || recWord r 32 % 4 == 3 then .corrupt
  else if testB (recWord r 32) 2 && recWord r 40 != s.keys.session.toNat then .expired
  else if recWord r 36 != 0 && decide (recWord r 36 ≤ recWord r 48) then .spent
  else .usable

/-- 17 R410: encryption and decryption of MATERIAL under the wrap key. -/
def slotWrap (s : State) (n : Nat) (wnonce m : List Byte) : List Byte :=
  ctrCrypt (s.keys.wrap.getD []) ([BitVec.ofNat 8 n] ++ wnonce ++ List.replicate 11 0) m

/-- 17 R414: the key of a slot, from the cache or unwrapped into it, the least recently used of four making room. -/
def slotKey (s : State) (n : Nat) : List Byte × State :=
  let k := match s.keys.cache.find? (fun c => c.1 == n) with
    | some c => c.2
    | none => let r := slotRec s n; slotWrap s n ((r.drop 44).take 4) (r.take 32)
  (k, s.upKeys (fun x => { x with cache := (n, k) :: (x.cache.filter (fun c => c.1 != n)).take 3 }))

/-- Writes the first `words` 8-byte words of a slot's record, in ascending order (17 R410). -/
def slotWriteWords (s : State) (n words : Nat) (r : List Byte) : State :=
  let s := ((wordPieces 64 (slotAddr n) r).take words).foldl (fun s p => mramWrite s p.1 p.2) s
  s.upKeys (fun x => { x with cache := x.cache.filter (fun c => c.1 != n) })

/-- 17 R413: counts a use of a slot, saturating. -/
def slotCount (s : State) (n : Nat) : State :=
  let c := min (recWord (slotRec s n) 48 + 1) 0xFFFFFFFF
  mramWrite s (slotAddr n + 48) (leBytes 4 c ++ leBytes 4 (0xFFFFFFFF - c))

/-- 17 R411: ATTR as it is stored: ORIGIN from the hardware, the bits of no field 0. -/
def slotAttr (arg : Word) (written : Bool) : Nat :=
  bitsOf arg 2 0 + 8 * natBit written + 256 * bitsOf arg 15 8

/-- 17 R410: a record with its tag. -/
def slotForm (s : State) (n : Nat) (material : List Byte) (attr limit session : Nat) (wnonce counter : List Byte) : List Byte :=
  let r := material ++ leBytes 4 attr ++ leBytes 4 limit ++ leBytes 4 session ++ wnonce ++ counter ++ [0, 0, 0, 0]
  r ++ slotTag s n r

/-- A record for new key material: WNONCE is drawn, the count is 0. -/
def slotFresh (s : State) (n : Nat) (key : List Byte) (arg0 limit : Word) (written : Bool) : List Byte × State :=
  let r := s.drawBytes 1
  let s := r.2
  let session := if bitsOf arg0 2 2 = 1 then s.keys.session.toNat else 0
  (slotForm s n (slotWrap s n r.1 key) (slotAttr arg0 written) limit.toNat session r.1 (leBytes 8 (0xFFFFFFFF * 2 ^ 32)), s)

/-- 17 R429: whether the DRBG gives output. -/
def rngReady (s : State) : Bool := s.bit RNG.STATUS 0

/-- 17 R415: whether GENERATE, WRITE and DERIVE may write a slot. -/
def slotOccupied (s : State) (n : Nat) : Bool := slotJudge s n == .usable || slotJudge s n == .corrupt

/-- 17 R407: the labels KEY reserves. -/
def labelReserved (l : Nat) : Bool := decide (0xFFF0 ≤ l)

/-- 17 R408: a random scalar from 1 to n − 1 of P-256, drawn from the DRBG. -/
def drawScalar (s : State) : Nat × State :=
  let r := s.drawBytes 8
  (beNat r.1 % (n256 - 1) + 1, r.2)

/-- 17 R415: whether a buffer of `n` bytes lies in prompter SRAM or shared SRAM, its address 4-byte aligned. -/
def keyBufOk (a n : Nat) : Bool :=
  a % 4 == 0 && ((decide (0x18000000 ≤ a) && decide (a + n ≤ 0x18018000)) || (decide (0x20000000 ≤ a) && decide (a + n ≤ 0x20200000)))

/-- 17 R417, R418: an ECDSA signature by the identity key over SHA-256 of a message, r ‖ s big-endian. -/
def identSign (s : State) (m : List Byte) : List Byte × State :=
  let k := drawScalar s
  let g := ecdsaSign (s.keys.ident.getD 1) (beNat (sha256 m)) k.1
  (beBytes 32 g.1 ++ beBytes 32 g.2, k.2)

/-- 17 R417: ATTEST of a slot into the buffer at an address. -/
def attest (s : State) (n addr : Nat) : State :=
  let r := slotRec s n
  let (key, s) := slotKey s n
  let kcv := (cmac (kdf key 0xFFFE (List.replicate 8 0) 256) (List.replicate 16 0)).take 8
  let eui := beBytes 4 (s.rd LNK.EUIHI).toNat ++ beBytes 4 (s.rd LNK.EUILO).toNat
  let m := beBytes 4 0x41545354 ++ [1, BitVec.ofNat 8 n, 0, 0] ++ eui ++ (r.drop 32).take 4 ++ (r.drop 48).take 4 ++ kcv ++
    List.replicate 24 0 ++ s.viewBytes (addr + 56) 32 ++ beBytes 8 s.nt.toNat
  let (g, s) := identSign s m
  (performWrite s 0xD addr (m ++ g)).2

/-- 17 R418: SIGNID of the digest at an address. -/
def signId (s : State) (addr : Nat) : State :=
  let (g, s) := identSign s (beBytes 4 0x53474E49 ++ s.viewBytes addr 32)
  (performWrite s 0xD (addr + 32) g).2

/-- 17 R408, R415: REKEY derives the keys, the public identity and the slot reports, and arms KEY and the memory pipeline. -/
def rekey (s : State) (root : List Byte) : State :=
  let z : List Byte := List.replicate 8 0
  let d := beNat (kdf root 0xFFF3 z 384) % (n256 - 1) + 1
  let s := s.upKeys (fun k => { k with
    mem := some (kdf root 0xFFF0 z 512), wrap := some (kdf root 0xFFF1 z 256), tag := some (kdf root 0xFFF2 z 256)
    ident := some d, cache := [] })
  let q := (ptMul d (some g256)).getD (0, 0)
  let s := s.wrWords (KEY.IDPUB 0) (beWords (beBytes 32 q.1 ++ beBytes 32 q.2))
  let s := s.wr KEY.SLOTUSE (BitVec.ofNat 32 (packBits 32 (fun n => slotJudge s n == .usable)))
  let s := s.wr KEY.SLOTBAD (BitVec.ofNat 32 (packBits 32 (fun n => slotJudge s n == .corrupt)))
  (s.setBit KEY.STATUS 1 true).setBit AES.STATUS 8 true

/-- 17 R415: the result code of a judgement. -/
def judgeCode : SlotJudge → Nat
  | .empty => 1 | .corrupt => 2 | .expired => 3 | .spent => 6 | .usable => 0

/-- 17 R415: the checks of GENERATE, WRITE and DERIVE on the slot written, and on the DRBG that gives WNONCE. -/
def freshCheck (s : State) (n : Nat) : Nat :=
  if slotOccupied s n then 4 else if !rngReady s then 10 else 0

/-- 17 R415: the record SETATTR writes; none where it widens. -/
def setAttrRec (s : State) (n : Nat) (c : KeyCmd) : Option (List Byte) :=
  let r := slotRec s n
  let attr := BitVec.ofNat 32 (recWord r 32)
  let limit := recWord r 36
  let newLim := if c.arg1 = 0 then limit else c.arg1.toNat
  let exp := bitsOf c.arg0 2 2
  if bitsOf c.arg0 1 0 ≠ bitsOf attr 1 0 ∨ exp < bitsOf attr 2 2 ∨
      BitVec.ofNat 8 (bitsOf c.arg0 15 8) &&& ~~~ BitVec.ofNat 8 (bitsOf attr 15 8) ≠ 0 ∨ (limit ≠ 0 ∧ limit < newLim) then none
  else some (slotForm s n (r.take 32) (slotAttr c.arg0 (testB (recWord r 32) 3)) newLim
    (if exp = 1 then s.keys.session.toNat else 0) ((r.drop 44).take 4) ((r.drop 48).take 8))

/-- 17 R415: a slot command that writes a slot: the result, and the record it writes if it does. -/
def slotCommand (s : State) (c : KeyCmd) : Nat × Option (List Byte) × State :=
  let n := bitsOf c.cmd 12 8
  match bitsOf c.cmd 3 0 with
  | 1 =>
    if bitsOf c.arg0 1 0 = 3 then (7, none, s)
    else if freshCheck s n ≠ 0 then (freshCheck s n, none, s)
    else let (k, s) := s.drawBytes 8; let (r, s) := slotFresh s n k c.arg0 c.arg1 false; (0, some r, s)
  | 2 =>
    if bitsOf c.arg0 1 0 = 3 then (7, none, s)
    else if freshCheck s n ≠ 0 then (freshCheck s n, none, s)
    else let (r, s) := slotFresh s n c.data c.arg0 c.arg1 true; (0, some r, s)
  | 3 =>
    let src := bitsOf c.cmd 20 16
    let sr := slotRec s src
    if bitsOf c.arg0 1 0 = 3 ∨ labelReserved (bitsOf c.arg2 15 0) = true then (7, none, s)
    else if slotJudge s src ≠ .usable then (judgeCode (slotJudge s src), none, s)
    else if recWord sr 32 % 4 ≠ 1 then (5, none, s)
    else if freshCheck s n ≠ 0 then (freshCheck s n, none, s)
    else
      let (k, s) := slotKey (slotCount s src) src
      let (r, s) := slotFresh s n (kdf k (bitsOf c.arg2 15 0) c.ctx 256) c.arg0 c.arg1 (testB (recWord sr 32) 3)
      (0, some r, s)
  | 4 => (0, some (List.replicate 64 0), s)
  | _ =>
    match slotJudge s n with
    | .empty => (1, none, s)
    | .corrupt => (2, none, s)
    | .expired => (3, none, s)
    | _ => match setAttrRec s n c with
      | some r => (0, some r, s)
      | none => (7, none, s)

/-- 17 R415, R426: the result of a slot command and the state it leaves; `err` is an error response from MRAM. -/
def keyRun (s : State) (c : KeyCmd) (err : Bool) : Nat × State :=
  let n := bitsOf c.cmd 12 8
  let op := bitsOf c.cmd 3 0
  let retired := s.bit KEY.STATUS 3
  match (if s.bit KEY.STATUS 2 then rootSecret s else none) with
  | none => (9, s)
  | some root =>
    if retired then (9, s)
    else if op = 8 then
      if s.fld KEY.ALARM 3 0 ≠ 0 then (9, s) else if err then (12, s) else (0, rekey s root)
    else if !s.bit KEY.STATUS 1 then (9, s)
    else if op = 7 then
      if !keyBufOk c.addr 96 then (7, s) else if !rngReady s then (10, s) else (0, signId s c.addr)
    else if err then (12, s)
    else if op = 6 then
      if !keyBufOk c.addr 160 then (7, s)
      else match slotJudge s n with
        | .empty => (1, s)
        | .corrupt => (2, s)
        | .expired => (3, s)
        | _ => if testB (recWord (slotRec s n) 32) 3 then (8, s) else if !rngReady s then (10, s) else (0, attest s n c.addr)
    else match slotCommand s c with
      | (0, some r, s) => (0, slotWriteWords s n 8 r)
      | (e, _, s) => (e, s)

/-- 17 R415, R416: a write of `KEY.CMD`: the arguments are taken as they stand; while BUSY it is discarded and sets OVR.  An OP
outside 1 to 8 starts nothing (log 38). -/
def keyCmdWrite (s : State) (v : Word) : State :=
  if s.keys.cmd.isSome then s.setBit KEY.STATUS 4 true
  else if bitsOf v 3 0 = 0 ∨ 8 < bitsOf v 3 0 then s
  else
    let c : KeyCmd := {
      cmd := v, arg0 := s.rd KEY.ARG0, arg1 := s.rd KEY.ARG1, arg2 := s.rd KEY.ARG2
      ctx := s.regBytes KEY.CTX0 2, addr := (s.rd KEY.ADDR).toNat
      data := (List.range 8).flatMap (fun i => beBytes 4 (s.rd (KEY.WDATA i)).toNat) }
    ((s.setBit KEY.STATUS 0 true).setBit KEY.STATUS 4 false).upKeys (fun k => { k with cmd := some c })

/-- Ends the slot command with a result; WRITE clears WDATA. -/
def keyEnd (s : State) (c : KeyCmd) (res : Nat) : State :=
  let s := if bitsOf c.cmd 3 0 = 2 then s.resetRegs (KEY.WDATA 0) 32 else s
  ((s.setFld KEY.STATUS 12 8 res).setBit KEY.STATUS 0 false).upKeys (fun k => { k with cmd := none })

/-- KEY_COMMAND_DONE (17 R415): the slot command acts and writes RESULT; `err` is an error response from MRAM. -/
def execKeyCommandDone (err : Bool) (s : State) : Out :=
  match s.keys.cmd with
  | none => .next s
  | some c => let r := keyRun s c err; .next (keyEnd r.2 c r.1)

/-- 17 R427: whether KEY holds PKA. -/
def keyHoldsPka (s : State) : Bool :=
  match s.keys.cmd with
  | some c => decide (6 ≤ bitsOf c.cmd 3 0)
  | none => false

/-! ### `KEY.ALARM` -/

/-- 17 R424: a write of `KEY.ALARM`: LATCHED bits clear on 1; TAMPEN and TAMPPOL take the first write after a reset (00 R7). -/
def alarmWrite (s : State) (v : Word) : State :=
  let s := s.plainWrite KEY.ALARM v true
  if s.keys.tampSet then s
  else (s.setFld KEY.ALARM 17 16 (bitsOf v 17 16)).upKeys (fun k => { k with tampSet := true })

end Sys2Proof.Machine
end

