-- ==== Sys2Proof/Machine/Flash.lean ====
section
/-! DEFINITION. The flash controller and its journal, and the MRAM controller (chapter 07). -/
namespace Sys2Proof.Machine
open Sys2Proof.Reg

/-- The initiator id of the flash controller (01 R23). -/
def flashInit : Nat := 0xD

/-- Whether a range of flash passes the blank check: it reads erased, and no burst of it was cut short (07 R178). -/
def flashBlank (s : State) (f n : Nat) : Bool :=
  (s.bytes (flashAt f) n).all (fun b => b == 0xFF) && s.nvm.torn.all (fun t => decide (t + 64 ≤ f) || decide (f + n ≤ t))

/-! ### Boot blocks and the epoch row -/

/-- 04 R101: whether a burst has the layout of an epoch-row burst and its CRC matches: its kind and its epoch. -/
def burstOf (s : State) (f : Nat) : Option (Nat × Nat) :=
  let bs := s.bytes (flashAt f) 64
  let at' := fun i n => leNat ((bs.drop i).take n)
  if at' 0 4 = 0x59444845 ∧ (at' 4 1 = 1 ∨ at' 4 1 = 2 ∨ at' 4 1 = 3) ∧ at' 5 3 = 0 ∧ 1 ≤ at' 8 4 ∧ at' 8 4 ≤ 0xFFFFFFFE ∧
      at' 44 16 = 0 ∧ at' 60 4 = crc32 (bs.take 60) then some (at' 4 1, at' 8 4) else none

/-- 07 R177: whether the epoch row of block `b` holds a valid burst. -/
def rowValid (s : State) (b : Nat) : Bool := (List.range 16).any (fun i => (burstOf s (epochBurst b i)).isSome)

/-- 07 R177: the boot block a flash offset lies in, if it lies in one. -/
def bootBlock (f : Nat) : Option Nat := if f < 0x20000 then some 0 else if f < 0x40000 then some 1 else none

/-- 07 R177: whether a flash offset lies in a boot block that is PROTECTED. -/
def blockLocked (s : State) (f : Nat) : Bool := match bootBlock f with | some b => rowValid s b | none => false

/-- 07 R178: whether a range touches the epoch row or the upper pages beside it. -/
def touchesRow (f n : Nat) : Bool :=
  [0, 1].any (fun b => decide (f < 0x20000 * b + 0x20000) && decide (0x20000 * b + 0x1F800 < f + n))

/-! ### The journal -/

/-- 07 R181: the bytes of a journal record. -/
def journalBytes (seq type slot sector off len value desc : Nat) : List Byte :=
  let body := leBytes 4 seq ++ leBytes 1 type ++ leBytes 1 slot ++ leBytes 2 sector ++ leBytes 4 off ++ leBytes 4 len ++
    leBytes 4 value ++ leBytes 4 desc
  body.take 24 ++ leBytes 4 (crc32 (body.take 24)) ++ leBytes 4 0

/-- The address of journal slot `k`. -/
def journalAt (k : Nat) : Nat := 0x0C000000 + 32 * k

/-- The live bit of a journal slot (07 R190). -/
def slotLive (s : State) (k : Nat) : Bool := s.bit (MRC.JLIVE (k / 32)) (k % 32)

/-- Sets the live bit of a journal slot. -/
def setLive (s : State) (k : Nat) (v : Bool) : State := s.setBit (MRC.JLIVE (k / 32)) (k % 32) v

/-- Follows a moved record in the operations that remember it, their own and that of their backup. -/
def moveOpen (s : State) (old new seq : Nat) : State :=
  let f := fun (o : FlashOp) =>
    let o := { o with backup := o.backup.map (fun b => if b.2.2 = old then (b.1, b.2.1, new) else b) }
    if o.openSlot = old then { o with openSlot := new, openSeq := seq } else o
  s.upNvm (fun v => { v with prog := v.prog.map f, erase := v.erase.map f })

/-- 07 R179, R183: every buffered MRAM write is performed. -/
def mramFlush (s : State) : State :=
  ((s.nvm.mbuf.foldl (fun (s : State) e => mramPerform s e) s).upNvm (fun v => { v with mbuf := [] })).setBit MRC.STATUS 0 false

/-- 07 R181: writes a record into a slot: bytes 0 to 23 first, bytes 24 to 31 last, in a word write of their own. -/
def writeRecord (s : State) (k : Nat) (body : List Byte) : State :=
  (s.setBytes (journalAt k) (body.take 24)).setBytes (journalAt k + 24) (body.drop 24)

/-- 07 R183: moves the live record at JHEAD forward into the first free slot after it. -/
def moveForward (s : State) : State :=
  let s := mramFlush s
  let h := s.fld MRC.JHEAD 8 0
  if slotLive s h then
    match (List.range 511).find? (fun i => !slotLive s ((h + 1 + i) % 512)) with
    | some i =>
      let k := (h + 1 + i) % 512
      let seq := (s.rd MRC.JSEQ).toNat
      let body := leBytes 4 seq ++ (s.bytes (journalAt h + 4) 20)
      let s := writeRecord s k (body ++ leBytes 4 (crc32 body) ++ leBytes 4 0)
      let s := s.wr MRC.JSEQ (s.rd MRC.JSEQ + 1)
      moveOpen (setLive (setLive s k true) h false) h k seq
    | none => s
  else s

/-- 07 R183: writes a record at JHEAD and advances JHEAD and JSEQ; answers its slot and SEQ. -/
def journalWrite (s : State) (type slot sector off len value desc : Nat) : Nat × Nat × State :=
  let s := moveForward s
  let h := s.fld MRC.JHEAD 8 0
  let seq := (s.rd MRC.JSEQ).toNat
  let s := writeRecord s h (journalBytes seq type slot sector off len value desc)
  let s := s.setFld MRC.JHEAD 8 0 ((h + 1) % 512)
  (h, seq, s.wr MRC.JSEQ (s.rd MRC.JSEQ + 1))

/-- An opening record is live from its write (07 R182). -/
def journalOpen (s : State) (type slot sector off len value desc : Nat) : Nat × Nat × State :=
  let r := journalWrite s type slot sector off len value desc
  (r.1, r.2.1, setLive r.2.2 r.1 true)

/-- 07 R182: an ERASE_OPEN of a sector ends the life of the earlier CLOSE records of its erases. -/
def retireCloses (s : State) (sector : Nat) : State :=
  (List.range 512).foldl (fun s k =>
    if slotLive s k ∧ s.viewNat (journalAt k + 4) 1 = 0xF ∧ s.viewNat (journalAt k + 12) 1 = 1 ∧ s.viewNat (journalAt k + 6) 2 = sector
    then setLive s k false else s) s

/-! ### Descriptors -/

/-- A flash descriptor (07 R169). -/
structure FlashDesc where
  addr : Nat
  op : Nat
  safe : Bool
  verify : Bool
  signal : Bool
  replyq : Nat
  flash : Nat
  src : Nat
  len : Nat
  deriving DecidableEq, Repr

/-- Reads the descriptor at an address. -/
def readDesc (s : State) (a : Nat) : FlashDesc :=
  let f := fun i n => s.viewNat (a + i) n
  { addr := a, op := f 0 1, safe := testB (f 1 1) 0 || s.bit FLC.CTRL 3, verify := testB (f 1 1) 1, signal := testB (f 1 1) 2,
    replyq := f 2 1 % 128, flash := f 4 4, src := f 8 4, len := f 12 4 }

/-- Whether a descriptor address is aligned and lies in prompter SRAM or shared SRAM (07 R169). -/
def descOk (a : Nat) : Bool := decide (a % 32 = 0) && (targetOf a == .psram || (match targetOf a with | .sram _ => true | _ => false))

/-- Sets the controller's state. -/
def setFlcState (s : State) (x : Nat) : State := s.setFld FLC.STATUS 2 0 x

/-- 07 R169: the end of a descriptor: DETAIL and JSEQ, then STATUS, then SIGNAL. -/
def finishDesc (s : State) (a status detail jseq : Nat) : State :=
  let d := readDesc s a
  let s := (physWrite s flashInit (a + 20) (leBytes 4 detail ++ leBytes 4 jseq)).2
  let s := (physWrite s flashInit (a + 3) (leBytes 1 status)).2
  s.when d.signal (fun s => (qEnq s d.replyq flashInit (BitVec.ofNat 32 a)).2)

/-- Writes PROGRESS of a descriptor. -/
def descProgress (s : State) (a n : Nat) : State := (physWrite s flashInit (a + 16) (leBytes 4 n)).2

/-- Writes STATUS of a descriptor. -/
def descStatus (s : State) (a x : Nat) : State := (physWrite s flashInit (a + 3) (leBytes 1 x)).2

/-- 07 R171: whether a descriptor's OP is one of R170. -/
def opDefined (op : Nat) : Bool := decide (1 ≤ op) && decide (op ≤ 7)

/-- 07 R169, R171, R173: the next descriptor of a set of operations: the head of Q109 before that of Q108, Q108 only in IDLE; a
misaligned or misplaced entry is discarded with DESCERR, and an undefined OP ends with BAD_OP.  NVM powers up for it; while entry into
REST or BLACKOUT is requested no descriptor is taken (R188).  Answers the descriptor and whether it came from Q109. -/
def takeDesc (s : State) (p : Nat → Bool) : Option (FlashDesc × Bool) × State :=
  let from' := fun (s : State) (q : Nat) =>
    let s := s.when (s.dom Dom.nvm == .od) (fun s => s.setDom Dom.nvm .on)
    match qPeek s q with
    | (some w, s) =>
      let a := w.toNat
      let op := s.viewNat a 1
      if !descOk a then (none, (qHandOut s q).setBit FLC.ERR 0 true)
      else if !opDefined op then (none, finishDesc (qHandOut s q) a 9 0 0)
      else if p op then (some (readDesc s a, q == 109), qHandOut s q)
      else (none, s)
    | (none, s) => (none, s)
  if s.bit FLC.STATUS 4 ∨ s.dom Dom.nvm = .off then (none, s)
  else if qOn s 109 && qCount s 109 != 0 then from' s 109
  else if flcState s = 0 then from' s 108
  else (none, s)

/-- Whether the controller takes a new descriptor in its present state: IDLE, or ESUSP for an urgent one (07 R173). -/
def flcTakes (s : State) : Bool := flcState s == 0 || flcState s == 3

/-- 07 R167: the start of an operation invalidates the lines of the sectors it touches. -/
def invalidateSectors (s : State) (f n : Nat) : State :=
  let keep := fun l => !(decide (f / 0x4000 ≤ 32 * l / 0x4000) && decide (32 * l / 0x4000 ≤ (f + n - 1) / 0x4000))
  s.upNvm (fun v => { v with pf := v.pf.filter keep, bc := v.bc.filter keep })

/-- 07 R166: whether a range keeps the order rule: no lower-page burst whose upper page is not blank. -/
def orderOk (s : State) (f n : Nat) : Bool :=
  (List.range (n / 64)).all (fun i =>
    let g := f + 64 * i
    let page := g / 512 % 32
    page % 2 == 1 ||
      flashBlank s (g / 512 * 512 + 512) (if page = 30 then 448 else 512))

/-- 07 R171: the first failing check of a PROGRAM or BLANKCHECK range. -/
def rangeBad (f n : Nat) (marker : Bool) : Bool :=
  f % 64 != 0 || n % 64 != 0 || decide (n < 64) || decide (16384 < n) || (!marker && decide (16320 < n)) ||
  decide (f / 0x4000 ≠ (f + n - 1) / 0x4000) || decide (0x400000 < f + n) || (!marker && decide (0x3FC0 < f % 0x4000 + n))

/-- The upper pages a range programs. -/
def upperPages (f n : Nat) : List Nat :=
  (((List.range (n / 64)).map (fun i => (f + 64 * i) / 512)).filter (fun p => p % 2 == 1)).eraseDups

/-- The first burst of a range that is not blank, by its flash offset. -/
def firstDirty (s : State) (f n : Nat) : Option Nat := ((List.range (n / 64)).map (fun i => f + 64 * i)).find? (fun g => !flashBlank s g 64)

/-- The first burst of a range that breaks the order rule. -/
def firstUnordered (s : State) (f n : Nat) : Option Nat := ((List.range (n / 64)).map (fun i => f + 64 * i)).find? (fun g => !orderOk s g 64)

/-- 07 R169: whether a source lies in prompter SRAM, shared SRAM, MRAM or DRAM, 4-byte aligned. -/
def srcOk (a : Nat) : Bool :=
  decide (a % 4 = 0) && (match targetOf a with
  | .psram => true
  | .sram _ => true
  | .mram => true
  | .dram => true
  | _ => false)

/-- 07 R171: why a PROGRAM is refused before its first record, with the failing burst; 0 for not at all. -/
def programRefusal (s : State) (d : FlashDesc) (env : FlashEnv) : Nat × Nat :=
  let live := s.bit FLC.BKSLOT 0 && s.bit FLC.BKSLOT 1
  let upper := d.safe && !(upperPages d.flash d.len).isEmpty
  if rangeBad d.flash d.len false || touchesRow d.flash d.len || !srcOk d.src then (8, 0)
  else if blockLocked s d.flash then (10, 0)
  else if s.bit (FLC.UNSETTLED (d.flash / 0x4000 / 32)) (d.flash / 0x4000 % 32) then (11, 0)
  else if sectorBlocked s (d.flash / 0x4000) then (18, 0)
  else match firstDirty s d.flash d.len, firstUnordered s d.flash d.len with
    | some g, _ => (4, g)
    | none, some g => (19, g)
    | none, none =>
      if env.srcErr || (physRead s flashInit d.src d.len).1.isNone then (12, 0)
      else if upper && live then (14, 0)
      else if upper && env.lowerErr then (13, 0)
      else if env.jErr then (17, 0)
      else (0, 0)

/-- Starts an operation on the array: PROG from IDLE, SPROG from a suspended erase. -/
def startProg (s : State) (o : FlashOp) : State :=
  let s := s.upNvm (fun v => { v with prog := some o, gap := false })
  let s := setFlcState s (if flcState s = 3 then 4 else 1)
  descStatus (s.wr FLC.CUR (BitVec.ofNat 32 o.desc)) o.desc 1

/-- 07 R175: before the first burst of an upper page in safe mode, its lower page is copied into a free backup slot and a BACKUP
record is committed. -/
def backupPage (s : State) (o : FlashOp) (page : Nat) : FlashOp × State :=
  let slot := if s.bit FLC.BKSLOT 0 then 1 else 0
  let lower := 512 * (page - 1)
  let bs := s.bytes (flashAt lower) 512
  let s := (mramFlush s).setBytes (0x0C004000 + 0x200 * slot) bs
  let s := s.setBit FLC.BKSLOT slot true
  let r := journalOpen s 5 slot (lower / 0x4000) lower 512 (crc32 bs) o.desc
  ({ o with backup := some (slot, page, r.1) }, r.2.2)

/-- The backup of the page that the next burst begins, when safe mode asks for one. -/
def prepareBurst (s : State) (o : FlashOp) : State :=
  let page := (o.off + o.done) / 512
  if o.safe ∧ o.op = 1 ∧ page % 2 = 1 ∧ o.backup = none then
    let r := backupPage s o page
    r.2.upNvm (fun v => { v with prog := some r.1 })
  else s

/-- 07 R183: a closing record: the live record at JHEAD is moved first, so that what the program's records are now called is known. -/
def closing (s : State) (o : FlashOp) : FlashOp × State :=
  let s := moveForward (s.upNvm (fun v => { v with prog := some o }))
  (s.nvm.prog.getD o, s)

/-- 07 R175: BACKUP_RELEASE, once the bursts of the upper page are programmed. -/
def releaseBackup (s : State) (o : FlashOp) : FlashOp × State :=
  let c := closing s o
  match c.1.backup with
  | some (slot, page, k) =>
    let r := journalWrite c.2 6 slot (512 * page / 0x4000) (512 * (page - 1)) 512 0 o.desc
    ({ c.1 with backup := none }, (setLive r.2.2 k false).setBit FLC.BKSLOT slot false)
  | none => (o, s)

/-! ### Commands on descriptors -/

/-- FLASH_PROGRAM (07 R170, R171, R175): the head PROGRAM descriptor is checked, journalled and started, or refused. -/
def execFlashProgram (env : FlashEnv) (s : State) : Out :=
  if !flcTakes s || !s.bit FLC.CTRL 0 then .next s
  else match takeDesc s (fun op => op == 1) with
    | (none, s) => .next s
    | (some (d, _), s) =>
      let c := programRefusal s d env
      let s := if c.1 = 0 ∨ (12 ≤ c.1 ∧ c.1 ≤ 17) then (physRead s flashInit d.src d.len).2 else s
      if c.1 ≠ 0 then .next (finishDesc s d.addr c.1 c.2 0)
      else
        let src := ((physRead s flashInit d.src d.len).1).getD []
        let r := journalOpen s 3 0 (d.flash / 0x4000) d.flash d.len (crc32 src) d.addr
        let o : FlashOp := { desc := d.addr, op := 1, off := d.flash, len := d.len, crc := crc32 src, openSeq := r.2.1, openSlot := r.1, safe := d.safe }
        let s := invalidateSectors (startProg r.2.2 o) d.flash d.len
        .next (prepareBurst s o)

/-- The wear count of a sector (07 R180). -/
def wearCount (s : State) (sec : Nat) : Nat := s.viewNat (0x0C004400 + 4 * sec) 4

/-- Writes the wear count of a sector. -/
def setWear (s : State) (sec n : Nat) : State := (mramFlush s).st (0x0C004400 + 4 * sec) 4 n

/-- FLASH_ERASE (07 R170, R171, R173): the head ERASE descriptor is checked, ERASE_OPEN is committed and pulses begin. -/
def execFlashErase (env : FlashEnv) (s : State) : Out :=
  if !flcTakes s || !s.bit FLC.CTRL 0 then .next s
  else match takeDesc s (fun op => op == 2) with
    | (none, s) => .next s
    | (some (d, _), s) =>
      let sec := d.flash / 0x4000
      let c := if d.flash % 0x4000 ≠ 0 ∨ 0x400000 ≤ d.flash then 8
        else if blockLocked s d.flash then 10
        else if flcState s = 3 then 18
        else if env.jErr then 17 else 0
      if c ≠ 0 then .next (finishDesc s d.addr c 0 0)
      else
        let s := retireCloses s sec
        let r := journalOpen s 1 0 sec d.flash 0x4000 (wearCount s sec + 1) d.addr
        let o : FlashOp := { desc := d.addr, op := 2, off := d.flash, len := 0x4000, openSeq := r.2.1, openSlot := r.1 }
        let s := r.2.2.upNvm (fun v => { v with erase := some o, eraseAt := s.uptime })
        let s := descStatus ((setFlcState s 2).wr FLC.CUR (BitVec.ofNat 32 d.addr)) d.addr 1
        .next (invalidateSectors s d.flash 0x4000)

/-- The lowest blank burst of the epoch row of a block. -/
def blankBurst (s : State) (b : Nat) : Option Nat := (List.range 16).find? (fun i => flashBlank s (epochBurst b i) 64)

/-- FLASH_EPOCH (07 R170, R178): programs the lowest blank burst of the block's row from SRC. -/
def execFlashEpoch (env : FlashEnv) (s : State) : Out :=
  if !flcTakes s then .next s
  else match takeDesc s (fun op => op == 3) with
    | (none, s) => .next s
    | (some (d, _), s) =>
      let b := d.flash % 2
      let sec := 8 * b + 7
      match srcOk d.src, blankBurst s b with
      | false, _ => .next (finishDesc s d.addr 8 0 0)
      | true, none => .next (finishDesc s d.addr 16 0 0)
      | true, some i =>
        let c := if s.bit (FLC.UNSETTLED 0) sec then 11 else if sectorBlocked s sec then 18
          else if env.srcErr ∨ (physRead s flashInit d.src 64).1.isNone then 12 else if env.jErr then 17 else 0
        if c ≠ 0 then .next (finishDesc s d.addr c 0 0)
        else
          let r := journalOpen s 7 b sec (epochBurst b i) 64 i d.addr
          let o : FlashOp := { desc := d.addr, op := 3, off := epochBurst b i, len := 64, crc := i, openSeq := r.2.1, openSlot := r.1 }
          .next (invalidateSectors (startProg r.2.2 o) (epochBurst b i) 64)

/-- FLASH_RETIRE (07 R170, R177): zeros over the epoch row of a block that is not the active one. -/
def execFlashRetire (env : FlashEnv) (s : State) : Out :=
  if !flcTakes s || !s.bit FLC.CTRL 0 then .next s
  else match takeDesc s (fun op => op == 4) with
    | (none, s) => .next s
    | (some (d, _), s) =>
      let b := d.flash % 2
      let c := if s.fld SYS.BOOTSEL 0 0 = b then 10 else if sectorBlocked s (8 * b + 7) then 18 else if env.jErr then 17 else 0
      if c ≠ 0 then .next (finishDesc s d.addr c 0 0)
      else
        let r := journalOpen s 9 b (8 * b + 7) (epochBurst b 0) 1024 0 d.addr
        let o : FlashOp := { desc := d.addr, op := 4, off := b, len := 1024, openSeq := r.2.1, openSlot := r.1 }
        .next (invalidateSectors (startProg r.2.2 o) (epochBurst b 0) 2048)

/-- FLASH_BLANKCHECK (07 R170, R171): checks a range, the marker burst included. -/
def execFlashBlankcheck (s : State) : Out :=
  if !flcTakes s then .next s
  else match takeDesc s (fun op => op == 5) with
    | (none, s) => .next s
    | (some (d, _), s) =>
      let sec := d.flash / 0x4000
      if rangeBad d.flash d.len true then .next (finishDesc s d.addr 8 0 0)
      else if s.bit (FLC.UNSETTLED (sec / 32)) (sec % 32) then .next (finishDesc s d.addr 11 0 0)
      else if sectorBlocked s sec then .next (finishDesc s d.addr 18 0 0)
      else match firstDirty s d.flash d.len with
        | some g => .next (finishDesc s d.addr 4 g 0)
        | none => .next (finishDesc s d.addr 3 0 0)

/-- 07 R173, R183: an erase is abandoned: CLOSE of the opening record, the sector unsettled and left half erased, the descriptor ABORTED. -/
def abandonErase (s : State) (o : FlashOp) (outcome status : Nat) : State :=
  let sec := o.off / 0x4000
  let s := moveForward (s.upNvm (fun v => { v with erase := some o }))
  let o := s.nvm.erase.getD o
  let r := journalWrite s 0xF outcome sec o.off 1 o.openSeq o.desc
  let s := setLive (setLive r.2.2 o.openSlot false) r.1 true
  let s := (halfErase s o.off).setBit (FLC.UNSETTLED (sec / 32)) (sec % 32) true
  let s := finishDesc s o.desc status o.off r.2.1
  let s := s.upNvm (fun v => { v with erase := none })
  ((setFlcState s 0).wr FLC.CUR 0).wr FLC.SUSPDESC 0

/-- FLASH_ABORT (07 R173): an ABORT from Q109 abandons the running or suspended erase; with none it completes OK in any state; from Q108 it
is refused with BAD_OP.  It waits while a program runs above a suspended erase. -/
def execFlashAbort (s : State) : Out :=
  if flcState s = 4 then .next s
  else match takeDesc s (fun op => op == 6) with
    | (none, s) => .next s
    | (some (d, urgent), s) =>
      if !urgent then .next (finishDesc s d.addr 9 0 0)
      else match s.nvm.erase with
        | some o => .next (finishDesc (abandonErase s o 2 15) d.addr 3 0 0)
        | none => .next (finishDesc s d.addr 3 0 0)

/-- FLASH_RELEASE (07 R176): releases a backup slot. -/
def execFlashRelease (env : FlashEnv) (s : State) : Out :=
  if !flcTakes s || !s.bit FLC.CTRL 0 then .next s
  else match takeDesc s (fun op => op == 7) with
    | (none, s) => .next s
    | (some (d, _), s) =>
      if env.jErr then .next (finishDesc s d.addr 17 0 0)
      else
        let slot := d.flash % 2
        let r := journalWrite s 6 slot 0 0 512 0 d.addr
        let k := (List.range 512).find? (fun k => slotLive r.2.2 k && r.2.2.viewNat (journalAt k + 4) 1 == 5 && r.2.2.viewNat (journalAt k + 5) 1 == slot)
        let s := match k with | some k => setLive r.2.2 k false | none => r.2.2
        .next (finishDesc (s.setBit FLC.BKSLOT slot false) d.addr 3 0 r.2.1)

/-- The end of a program: back to IDLE, or to the suspended erase. -/
def endProg (s : State) : State :=
  let s := s.upNvm (fun v => { v with prog := none, gap := false })
  if flcState s = 4 then (setFlcState s 3).wr FLC.CUR 0 else (setFlcState s 0).wr FLC.CUR 0

/-- Closes the opening record of a program with the record `type`, or with CLOSE (FAILED). -/
def closeProg (s : State) (o : FlashOp) (ok : Bool) : Nat × State :=
  let c := closing s o
  let o := c.1
  let s := c.2
  let sec := (if o.op = 4 then epochBurst o.off 0 else o.off) / 0x4000
  let type := if o.op = 1 then 4 else if o.op = 3 then 8 else 0xA
  let slot := if o.op = 3 then o.off / 0x20000 else if o.op = 4 then o.off else 0
  let off := if o.op = 4 then epochBurst o.off 0 else o.off
  let r := if ok then journalWrite s type slot sec off o.len o.crc o.desc
    else journalWrite s 0xF 1 sec off (type - 1) o.openSeq o.desc
  (r.2.1, setLive r.2.2 o.openSlot false)

/-- PROG_BURST_DONE (07 R173, R175, R178): the burst in progress ends; `ok` is false when the array reports a failure, which leaves the
burst torn, and `differs` names the burst at which the read-back of a finished operation differs.  Between two bursts waiting reads are
served. -/
def execProgBurstDone (ok : Bool) (differs : Option Nat) (s : State) : Out :=
  match s.nvm.prog with
  | none => .next s
  | some o =>
    let d := readDesc s o.desc
    let addr := burstAt o
    let bs : List Byte := if o.op = 4 then List.replicate 64 0 else s.viewBytes (d.src + o.done) 64
    if !ok then
      let r := releaseBackup (tearBurst s addr) o
      let c := closeProg r.2 r.1 false
      .next (endProg (finishDesc c.2 o.desc 5 addr c.1))
    else
      let s := s.setBytes (flashAt addr) (List.zipWith (fun a b => a &&& b) (s.bytes (flashAt addr) 64) bs)
      let o := { o with done := o.done + 64 }
      let s := descProgress s o.desc (if o.op = 1 then o.done else 0)
      let r := if o.backup.isSome ∧ (o.done = o.len ∨ (o.off + o.done) % 512 = 0) then releaseBackup s o else (o, s)
      let o := r.1
      let s := r.2.upNvm (fun v => { v with prog := some o, gap := v.readAt.isSome })
      if o.done < o.len then .next (prepareBurst s o)
      else
        let bad := if d.verify || o.op == 3 then differs else none
        let c := closeProg s o bad.isNone
        match bad with
        | some i => .next (endProg (finishDesc c.2 o.desc 7 (if o.op = 1 then o.off + 64 * i % o.len else addr) c.1))
        | none => .next (endProg (finishDesc c.2 o.desc 3 (if o.op = 3 then o.crc else 0) c.1))

/-- 07 R164, R173, R180, R182: an erase that verified: the sector reads erased, its marker is programmed, ERASE_DONE journalled, the wear
table updated.  Answers the SEQ of the record. -/
def eraseDone (s : State) (o : FlashOp) : Nat × State :=
  let sec := o.off / 0x4000
  let n := wearCount s sec + 1
  let s := (s.setBytes (flashAt o.off) (List.replicate 0x3FC0 0xFF ++ eraseMarker sec n)).upNvm (fun v => { v with
    erase := some o, torn := v.torn.filter (fun b => b / 0x4000 != sec) })
  let s := moveForward s
  let o := s.nvm.erase.getD o
  let r := journalWrite s 2 0 sec o.off 0x4000 n o.desc
  let s := setWear (setLive r.2.2 o.openSlot false) sec n
  (r.2.1, s.setBit (FLC.UNSETTLED (sec / 32)) (sec % 32) false)

/-- ERASE_PULSE_DONE (07 R173, R164): a pulse ends; on verify the erase is done; the 48th pulse without verify fails it. -/
def execErasePulseDone (verified : Bool) (s : State) : Out :=
  match s.nvm.erase with
  | none => .next s
  | some o =>
    if flcState s ≠ 2 then .next s
    else
      let o := { o with done := o.done + 1 }
      let s := descProgress (s.upNvm (fun v => { v with erase := some o })) o.desc o.done
      if verified then
        let r := eraseDone s o
        let s := finishDesc r.2 o.desc 3 0 r.1
        .next ((setFlcState (s.upNvm (fun v => { v with erase := none })) 0).wr FLC.CUR 0)
      else if 48 ≤ o.done then .next ((abandonErase s o 1 6).setBit FLC.ERR 1 true)
      else .next s

/-! ### Operations that the controller and the trusted image make in one step (log 98) -/

/-- A PROGRAM of a range with its journal records (07 R171, R172, R183): false, and nothing altered, when a check refuses it. -/
def flashProgram (s : State) (f : Nat) (bs : List Byte) : Bool × State :=
  let n := bs.length
  let sec := f / 0x4000
  if !s.bit FLC.CTRL 0 || flcState s != 0 || blockLocked s f || touchesRow f n ||
      s.bit (FLC.UNSETTLED (sec / 32)) (sec % 32) || sectorBlocked s sec ||
      (firstDirty s f n).isSome || (firstUnordered s f n).isSome then (false, s)
  else
    let r := journalOpen s 3 0 sec f n (crc32 bs) 0
    let s := invalidateSectors (r.2.2.setBytes (flashAt f) bs) f n
    let o : FlashOp := { desc := 0, op := 1, off := f, len := n, done := n, crc := crc32 bs, openSeq := r.2.1, openSlot := r.1 }
    let c := closeProg s o true
    (true, c.2.upNvm (fun v => { v with prog := none }))

/-- An ERASE of a sector with its journal records. -/
def flashErase (s : State) (sec : Nat) : Bool × State :=
  if !s.bit FLC.CTRL 0 || flcState s != 0 || blockLocked s (0x4000 * sec) then (false, s)
  else
    let s := retireCloses s sec
    let r := journalOpen s 1 0 sec (0x4000 * sec) 0x4000 (wearCount s sec + 1) 0
    let d := eraseDone (invalidateSectors r.2.2 (0x4000 * sec) 0x4000) { desc := 0, op := 2, off := 0x4000 * sec, len := 0x4000, openSeq := r.2.1, openSlot := r.1 }
    (true, d.2.upNvm (fun v => { v with erase := none }))

/-- A RETIRE of a block that is not the active one, with its journal records (07 R177). -/
def flashRetire (s : State) (b : Nat) : Bool × State :=
  if !s.bit FLC.CTRL 0 || flcState s != 0 || s.fld SYS.BOOTSEL 0 0 == b then (false, s)
  else
    let r := journalOpen s 9 b (8 * b + 7) (epochBurst b 0) 1024 0 0
    let s := (List.range 16).foldl (fun (s : State) i => s.setBytes (flashAt (epochBurst b i)) (List.replicate 64 0)) r.2.2
    let o : FlashOp := { desc := 0, op := 4, off := b, len := 1024, done := 1024, openSeq := r.2.1, openSlot := r.1 }
    let c := closeProg (invalidateSectors s (epochBurst b 0) 2048) o true
    (true, c.2.upNvm (fun v => { v with prog := none }))

/-- An EPOCH operation on the lowest blank burst of a block's row; the boot sequencer's own has no journal records (07 R172, R178). -/
def flashEpoch (s : State) (b : Nat) (bs : List Byte) (journal : Bool) : Bool × State :=
  match blankBurst s b with
  | none => (false, s)
  | some i =>
    let f := epochBurst b i
    if !journal then (true, invalidateSectors (s.setBytes (flashAt f) bs) f 64)
    else if flcState s != 0 || s.bit (FLC.UNSETTLED 0) (8 * b + 7) || sectorBlocked s (8 * b + 7) then (false, s)
    else
      let r := journalOpen s 7 b (8 * b + 7) f 64 i 0
      let o : FlashOp := { desc := 0, op := 3, off := f, len := 64, done := 64, crc := i, openSeq := r.2.1, openSlot := r.1 }
      let c := closeProg (invalidateSectors (r.2.2.setBytes (flashAt f) bs) f 64) o true
      (true, c.2.upNvm (fun v => { v with prog := none }))

/-! ### Suspension (07 R173, R174) -/

/-- Ticks of 31.25 ns in a number of µs. -/
def usTicks (n : Nat) : Nat := 32 * n

/-- 07 R189: SUSPLIM, MINRUN and MAXSUSP in µs, with their least values. -/
def suspLim (s : State) : Nat := orIfZero 1 (s.fld FLC.SUSPLIM 9 0)
def minRun (s : State) : Nat := max 16 (s.fld FLC.SUSPCFG 9 0)
def maxSusp (s : State) : Nat := max 16 (s.fld FLC.SUSPCFG 25 16)

/-- 07 R172, R173: whether the head of Q109 may run above a suspended erase, or is the ABORT of it. -/
def urgentRuns (s : State) : Bool :=
  !s.bit FLC.STATUS 4 &&
  (match (qPeek s 109).1 with
   | some w =>
     let op := s.viewNat w.toNat 1
     descOk w.toNat && opDefined op && op != 2 && (s.bit FLC.CTRL 0 || op == 3 || op == 5 || op == 6)
   | none => false)

/-- ERASE_SUSPEND (07 R173): a read that has waited SUSPLIM, or a runnable urgent head, suspends an erase that has run MINRUN. -/
def execEraseSuspend (s : State) : Out :=
  match s.nvm.erase with
  | some o =>
    let waited := match s.nvm.readAt with
      | some t => decide (t + usTicks (suspLim s) ≤ s.uptime)
      | none => false
    if flcState s = 2 ∧ s.nvm.eraseAt + usTicks (minRun s) ≤ s.uptime ∧ (waited || urgentRuns s) then
      let s := ((setFlcState s 3).wr FLC.SUSPDESC (BitVec.ofNat 32 o.desc)).wr FLC.CUR 0
      .next (descStatus (s.upNvm (fun v => { v with eraseAt := s.uptime, quietAt := s.uptime, readAt := none })) o.desc 2)
    else .next s
  | none => .next s

/-- ERASE_RESUME (07 R173, R188): the suspended erase goes on when no read has waited for SUSPLIM and no urgent head may run, when MAXSUSP
has passed, or when entry into REST or BLACKOUT is requested. -/
def execEraseResume (s : State) : Out :=
  match s.nvm.erase with
  | some o =>
    let quiet := decide (s.nvm.quietAt + usTicks (suspLim s) ≤ s.uptime) && !urgentRuns s
    if flcState s = 3 ∧ (quiet ∨ s.nvm.eraseAt + usTicks (maxSusp s) ≤ s.uptime ∨ s.bit FLC.STATUS 4) then
      let s := ((setFlcState s 2).wr FLC.SUSPDESC 0).wr FLC.CUR (BitVec.ofNat 32 o.desc)
      .next (descStatus (s.upNvm (fun v => { v with eraseAt := s.uptime })) o.desc 1)
    else .next s
  | none => .next s

/-! ### The read path -/

/-- Puts a line at the front of a list of at most `n` lines, most recently used first. -/
def lruTouch (n l : Nat) (ls : List Nat) : List Nat := (l :: ls.filter (fun x => x != l)).take n

/-- 07 R167: whether a line is held: in the prefetch buffer, or with BCEN in the branch cache. -/
def lineHeld (s : State) (l : Nat) : Bool := s.nvm.pf.contains l || (s.bit FLC.CTRL 2 && s.nvm.bc.contains l)

/-- 07 R167: what a read of line `l` does to the prefetch buffer and the branch cache; a miss is remembered for the prefetch. -/
def flashTouch (s : State) (who l : Nat) (fetch : Bool) : State :=
  let prev := (s.nvm.lastFetch.find? (fun e => e.1 == who)).map (fun e => e.2)
  let jump := fetch && (match prev with | some q => !(l == q || l == q + 1) | none => true)
  let hit := lineHeld s l
  s.upNvm (fun v => { v with
    pf := lruTouch 4 l v.pf,
    bc := if s.bit FLC.CTRL 2 && (jump || v.bc.contains l) then lruTouch 32 l v.bc else v.bc,
    miss := if hit then v.miss else some l,
    lastFetch := if fetch then (who, l) :: v.lastFetch.filter (fun e => e.1 != who) else v.lastFetch })

/-- 07 R168, R173: whether the array serves no read now: a burst is being programmed, or an erase runs. -/
def flashBusy (s : State) : Bool := flcState s == 2 || ((flcState s == 1 || flcState s == 4) && !s.nvm.gap)

/-- Whether a read of the line at a flash offset waits: it is not held and the array is busy. -/
def readWaits (s : State) (f : Nat) : Bool := flashBusy s && !lineHeld s (f / 32)

/-- A read begins to wait for the array. -/
def noteWait (s : State) : State := s.upNvm (fun v => { v with readAt := v.readAt.or (some s.uptime) })

/-- Whether a core stalls for a line of flash. -/
def waitsForFlash (c : Core) : Bool :=
  match c.stall with
  | some x => (match x.cause with
    | .fetch _ l => targetOf l == .flash
    | .delayFetch _ l => targetOf l == .flash
    | .access _ ph _ _ => targetOf ph == .flash
    | _ => false)
  | none => false

/-- 07 R168, R173: a read that waited `us` µs has been served; when no other waits the next burst begins. -/
def readServed (s : State) (us : Nat) : State :=
  let more := s.nvm.readAt.isSome && s.cores.any waitsForFlash
  (s.raise FLC.STALLMAX 15 0 us).upNvm (fun v => { v with
    readAt := if more then v.readAt else none, quietAt := s.uptime, gap := v.gap && more })

/-- 07 R167, R168, 20 R487: a read of the line of a flash offset with what its ECC finds: true when data is returned.  `mirror`
is what the mirror line's ECC finds. -/
def flashLine (s : State) (who f : Nat) (fetch : Bool) (e mirror : Ecc) : Bool × State :=
  if sectorBlocked s (f / 0x4000) then (false, s)
  else
    let s := flashTouch s who (f / 32) fetch
    let line : Word := BitVec.ofNat 32 (f / 32 * 32)
    match e with
    | .ok => (true, s)
    | .ce => (true, correctable (eccCount s (flashAt f) false) 0x06 who FLT.CECNT1 31 16 line)
    | .ue =>
      let s := eccCount s (flashAt f) true
      match mirrorOf s f with
      | some (m, dram) =>
        let good := mirror != .ue && (if dram then !(physErr s flashInit m false) else !sectorBlocked s (m / 0x4000))
        if good then (true, logFault s 0x06 who (if fetch then 3 else 1) 1 (BitVec.ofNat 32 (flashAt f)))
        else (false, logFault s 0x06 who (if fetch then 3 else 1) 0 (BitVec.ofNat 32 (flashAt f)))
      | none => (false, logFault s 0x06 who (if fetch then 3 else 1) 0 (BitVec.ofNat 32 (flashAt f)))

/-- FLASH_READ (07 R167, R168): a read or fetch of the line at a flash offset, which waited some microseconds; while the array is busy
it waits on, until it is commanded again. -/
def execFlashRead (who f : Nat) (fetch : Bool) (e mirror : Ecc) (wait : Nat) (s : State) : Out :=
  let f := f % 0x400000
  let s := touch s (flashAt f)
  if !sectorBlocked s (f / 0x4000) && readWaits s f then .next (noteWait s)
  else .next (readServed (flashLine s who f fetch e mirror).2 wait)

/-- FLASH_PREFETCH (07 R167): with PFEN the idle array reads the line after the last miss into the prefetch buffer. -/
def execFlashPrefetch (s : State) : Out :=
  match s.nvm.miss with
  | some l =>
    if s.bit FLC.CTRL 1 ∧ (flcState s = 0 ∨ flcState s = 3) ∧ ¬ s.nvm.pf.contains (l + 1) ∧ 32 * (l + 1) < 0x400000 ∧
        ¬ sectorBlocked s (32 * (l + 1) / 0x4000)
    then .next (s.upNvm (fun v => { v with pf := lruTouch 4 (l + 1) v.pf, miss := none })) else .next s
  | none => .next s

/-- MRAM_WRITE_PERFORM (07 R179): the oldest buffered MRAM write is performed in its word. -/
def execMramWritePerform (s : State) : Out :=
  match s.nvm.mbuf with
  | e :: rest => .next ((mramPerform s e).setBit MRC.STATUS 0 (!rest.isEmpty))
  | [] => .next s

/-- 07 R179: a read of an MRAM word with what its ECC finds: true when data is returned. -/
def mramRead (s : State) (who a : Nat) (e : Ecc) : Bool × State :=
  let w : Word := BitVec.ofNat 32 (a / 8 * 8)
  match e with
  | .ok => (true, s)
  | .ce => (true, correctable (eccCount s a false) 0x05 who FLT.CECNT1 15 0 w)
  | .ue => (false, eccCount s a true)

end Sys2Proof.Machine
end

