-- ==== Sys2Proof/Machine/Phy.lean ====
section
/-! DEFINITION. The coded narrowband physical layer: header, scrambler, LDPC encoder, frame layout and durations (09 R214 to
R228). -/
namespace Sys2Proof.Machine

/-! ### Modes -/

/-- 09 R214, 08 R207: symbols per second of a mode in the numbering of 10 R242; 4 to 6 are the SUN-FSK modes. -/
def symbolRate (mode : Nat) : Nat :=
  match mode with
  | 0 => 300 | 1 => 1200 | 2 => 4800 | 3 => 9600 | 4 => 50000 | _ => 100000

/-- Ticks of 31.25 ns that `n` half symbols of a mode last, rounded down (log 25). -/
def halfSymbols (mode n : Nat) : Nat := n * 16000000 / symbolRate mode

/-- 09 R214: whether a mode permits a code. -/
def codePermitted (mode code : Nat) : Bool := decide (code ≤ 1) || (code == 2 && (mode == 2 || mode == 3))

/-- 09 R226: information bits, codeword bits, lifting size and base rows of a code. -/
def codeK (code : Nat) : Nat := if code = 0 then 256 else 1024
def codeN (code : Nat) : Nat := if code = 0 then 512 else if code = 1 then 2048 else 1536
def codeZ (code : Nat) : Nat := if code = 0 then 32 else 128
def codeRows (code : Nat) : Nat := if code = 2 then 4 else 8

/-- 09 R224: the codewords of a PSDU of `len` octets. -/
def codewords (code len : Nat) : Nat := (8 * len + codeK code - 1) / codeK code

/-- 09 R224: the payload bits of a frame. -/
def payloadBits (code len : Nat) : Nat := 8 * len + (codeN code - codeK code) * codewords code len

/-- 09 R216: the symbols of a frame after its last sync symbol. -/
def symbolsAfterSync (mode code len : Nat) : Nat :=
  if mode = 3 then 48 + (payloadBits code len + 1) / 2 else 96 + payloadBits code len

/-- 08 R207, 10 R242: the symbols of a SUN-FSK frame: preamble octets, SFD, PHR and PSDU, doubled from the PHR on by the NRNSC
code, with its tail; a 4-FSK symbol carries two bits (log 26). -/
def sunSymbols (mode code pre len : Nat) : Nat :=
  let psdu := len + (if testB code 2 then 2 else 4)
  let body := if testB code 0 then 2 * (16 + 8 * psdu + (if psdu % 2 = 1 then 8 else 16)) else 16 + 8 * psdu
  if mode = 6 then 4 * pre + 16 + (body + 1) / 2 else 8 * pre + 16 + body

/-- 09 R217: the airtime of a frame in ticks; `mlen` is the length without the CRC-24 or FCS, `pre` as in 10 R242. -/
def frameTicks (mode code pre mlen : Nat) : Nat :=
  if mode ≤ 3 then halfSymbols mode (2 * (8 * pre + 32 + symbolsAfterSync mode code (mlen + 3)))
  else halfSymbols mode (2 * sunSymbols mode code pre mlen)

/-- 09 R217, 08 R207: the symbols after the last sync symbol, or after the SFD, of a SUN-FSK frame whose MPDU has `len` octets. -/
def sunAfterSfd (mode code len : Nat) : Nat := sunSymbols mode code 0 len - 16

/-! ### The PHY header -/

/-- 09 R219: CRC-8, polynomial x^8 + x^2 + x + 1, over two octets. -/
def hcrc (v : Nat) : Nat := crcBits 8 0x07 0 (msbBits (BitVec.ofNat 8 v) ++ msbBits (BitVec.ofNat 8 (v / 256)))

/-- 09 R219: the header of a PSDU. -/
def headerOf (len code : Nat) : Nat := let v := len % 2048 + 2048 * (code % 4); v + 65536 * hcrc v

/-- Fields of a header. -/
def hdrLen (h : Nat) : Nat := h % 2048
def hdrCode (h : Nat) : Nat := h / 2048 % 4

/-- 09 R221: whether a header passes in a mode. -/
def headerOk (mode h : Nat) : Bool :=
  h / 65536 % 256 == hcrc (h % 65536) && h / 16384 % 4 == 0 && decide (4 ≤ hdrLen h) && decide (hdrLen h ≤ 1024) &&
  codePermitted mode (hdrCode h)

/-- 09 R220: row `i` of B: bit `j` of it. -/
def golayRow (i j : Nat) : Bool :=
  if i = 11 then j != 11 else if j = 11 then true else testB 0b11011100010 (10 - (i + j) % 11)

/-- 09 R220: the Golay codeword of 12 message bits, bit 0 first. -/
def golayWord (m : Nat) : List Bool :=
  ((List.range 12).map (testB m)) ++
  ((List.range 12).map (fun j => ((List.range 12).filter (fun i => testB m i && golayRow i j)).length % 2 == 1))

/-- 09 R220: the 96 header bits. -/
def headerBits (h : Nat) : List Bool :=
  let c := golayWord (h % 4096) ++ golayWord (h / 4096)
  c ++ c.map (fun b => !b)

/-! ### CRC-24 and the scrambler -/

/-- 09 R222: the CRC-24 of a PSDU without its last three octets. -/
def crc24 (bs : List Byte) : Nat := crcBits 24 0x864CFB 0xB704CE (bs.flatMap msbBits)

/-- 09 R222: the PSDU of an MPDU. -/
def psduOf (mpdu : List Byte) : List Byte := mpdu ++ beBytes 3 (crc24 mpdu)

/-- 09 R223: one step of the scrambler x^9 + x^5 + 1: its output bit and next state. -/
def scramStep (st : Nat) : Bool × Nat :=
  let b := testB st 8 != testB st 4
  (b, (st * 2 + natBit b) % 512)

/-- 09 R223: bits XORed with the scrambler's output. -/
def scramble : Nat → List Bool → List Bool
  | _, [] => []
  | st, b :: bs => let r := scramStep st; (b != r.1) :: scramble r.2 bs

/-- The bits of octets in transmission order (09 R216). -/
def octetBits (bs : List Byte) : List Bool := bs.flatMap lsbBits

/-- Octets from bits in transmission order. -/
def bitOctets : Nat → List Bool → List Byte
  | 0, _ => []
  | n + 1, bits => BitVec.ofNat 8 (packBits 8 (fun i => bits.getD i false)) :: bitOctets n (bits.drop 8)

/-! ### LDPC -/

/-- 09 R227: the information shifts of H½ for Z = 128. -/
def shiftHalf (r c : Nat) : Option Nat :=
  ([[some 53, none, some 97, none, some 12, none, some 70, none],
    [none, some 8, none, some 115, none, some 41, none, some 22],
    [some 88, some 64, none, none, some 109, none, none, some 3],
    [none, none, some 30, some 77, none, some 120, some 17, none],
    [some 19, none, none, some 46, none, none, some 101, some 58],
    [none, some 125, some 6, none, some 83, some 34, none, none],
    [some 110, none, none, some 9, none, some 72, some 45, none],
    [none, some 27, some 60, none, some 38, none, none, some 93]].getD r []).getD c none

/-- 09 R227: the information shifts of H⅔ for Z = 128. -/
def shiftTwoThirds (r c : Nat) : Option Nat :=
  ([[some 11, some 90, some 47, some 102, some 66, some 5, some 121, none],
    [some 74, some 33, some 118, some 59, some 2, none, some 85, some 40],
    [some 96, some 15, none, some 28, some 107, some 51, some 63, some 124],
    [none, some 80, some 21, some 113, some 39, some 92, some 7, some 68]].getD r []).getD c none

/-- 09 R226: the shift of an information block of a code. -/
def ldpcShift (code r c : Nat) : Option Nat :=
  if code = 2 then shiftTwoThirds r c
  else (shiftHalf r c).map (fun s => if code = 0 then s / 4 else s)

/-- 09 R228: bit i of rot(x, s) is bit (i + s) mod Z of x. -/
def rotBits (s : Nat) (x : List Bool) : List Bool := x.drop (s % x.length) ++ x.take (s % x.length)

/-- Exclusive or of two blocks. -/
def xorBits (a b : List Bool) : List Bool := List.zipWith (fun x y => x != y) a b

/-- 09 R228: the sums λ of one base row over the information blocks. -/
def ldpcLam (code : Nat) (info : List Bool) (r : Nat) : List Bool :=
  let z := codeZ code
  (List.range 8).foldl (fun acc c => match ldpcShift code r c with
    | some s => xorBits acc (rotBits s ((info.drop (z * c)).take z))
    | none => acc) (List.replicate z false)

/-- 09 R228: the parity blocks after the first, from p[row] and the rows left. -/
def ldpcTail (code m : Nat) (info p0 : List Bool) : Nat → Nat → List Bool → List Bool
  | 0, _, _ => []
  | n + 1, row, prev =>
    let q := xorBits (ldpcLam code info row) prev
    let q := if row = m then xorBits q p0 else q
    q ++ ldpcTail code m info p0 n (row + 1) q

/-- 09 R228: the parity bits of a codeword. -/
def ldpcParity (code : Nat) (info : List Bool) : List Bool :=
  let rows := codeRows code
  let p0 := (List.range rows).foldl (fun acc r => xorBits acc (ldpcLam code info r)) (List.replicate (codeZ code) false)
  let p1 := xorBits (ldpcLam code info 0) (rotBits 1 p0)
  p0 ++ p1 ++ ldpcTail code (rows / 2) info p0 (rows - 2) 1 p1

/-- 09 R224: the transmitted bits of the codewords that carry these bits. -/
def codedBits (code : Nat) : Nat → List Bool → List Bool
  | 0, _ => []
  | n + 1, bits =>
    let k := codeK code
    let info := bits.take k
    info ++ ldpcParity code (info ++ List.replicate (k - info.length) false) ++ codedBits code n (bits.drop k)

/-- 09 R216 to R225: the bits of a CNB frame in order of transmission, before the mapping of R215: preamble, sync word, header,
payload.  On OQPSK a preamble and a sync symbol carry the same bit on both rails (R218). -/
def frameBits (mode code pre syncw : Nat) (mpdu : List Byte) : List Bool :=
  let psdu := psduOf mpdu
  let head := ((List.range (8 * pre)).map (fun i => i % 2 == 1)) ++ ((List.range 32).map (fun i => testB syncw (31 - i)))
  let head := if mode = 3 then head.flatMap (fun b => [b, b]) else head
  head ++ headerBits (headerOf psdu.length code) ++ codedBits code (codewords code psdu.length) (scramble 511 (octetBits psdu))

/-! ### Symbols -/

/-- 09 R215: π/2-BPSK: the symbols (1 − 2b) × e^(jπk/2) of bits from index `k`, as I and Q. -/
def bpskSymbols : Nat → List Bool → List (Int × Int)
  | _, [] => []
  | k, b :: bs =>
    let a : Int := if b then -1 else 1
    (match k % 4 with | 0 => (a, 0) | 1 => (0, a) | 2 => (-a, 0) | _ => (0, -a)) :: bpskSymbols (k + 1) bs

/-- 09 R215: OQPSK: the rails by half symbol: I changes at the symbol, Q half a symbol later; `q` is the Q rail before. -/
def oqpskRails (q : Int) : List Bool → List (Int × Int)
  | [] => []
  | [b] => let i : Int := if b then -1 else 1; [(i, q), (i, 1)]
  | b :: c :: rest =>
    let i : Int := if b then -1 else 1
    let q' : Int := if c then -1 else 1
    (i, q) :: (i, q') :: oqpskRails q' rest

/-- 09 R215: the symbols of a frame's bits; of OQPSK its half symbols. -/
def cnbSymbols (mode : Nat) (bits : List Bool) : List (Int × Int) := if mode = 3 then oqpskRails 0 bits else bpskSymbols 0 bits

/-- 09 R231: the PSDU of decoded information octets: descrambled, pad cut off. -/
def decodedPsdu (len : Nat) (info : List Byte) : List Byte :=
  bitOctets len (scramble 511 ((octetBits info).take (8 * len)))

/-- 09 R222: whether a PSDU's CRC-24 matches. -/
def psduOk (psdu : List Byte) : Bool :=
  beNat (psdu.drop (psdu.length - 3)) == crc24 (psdu.take (psdu.length - 3))

/-- 09 R225: the code of a request: AUTO chooses by SHORTMAX; `len` counts the CRC-24. -/
def requestCode (shortMax code len : Nat) : Nat := if code = 3 then (if len ≤ min 1024 shortMax then 0 else 1) else code

/-! ### Orders and medians -/

/-- Inserts into a rising list. -/
def insertInt (x : Int) : List Int → List Int
  | [] => [x]
  | y :: ys => if x ≤ y then x :: y :: ys else y :: insertInt x ys

/-- A list in rising order. -/
def sortInt (l : List Int) : List Int := l.foldr insertInt []

/-- The median; of an even count the mean of the middle two, rounded down (log 27). -/
def median (l : List Int) : Int :=
  let s := sortInt l
  let n := s.length
  if n % 2 = 1 then s.getD (n / 2) 0 else (s.getD (n / 2 - 1) 0 + s.getD (n / 2) 0) / 2

end Sys2Proof.Machine
end

