-- ==== Sys2Proof/Machine/Ldpc.lean ====
section
/-! DEFINITION. Soft decoding: the Golay halves of the PHY header (09 R220), the LDPC codewords (09 R229), and the convolutional code of
SUN-FSK frames (09 R234). -/
namespace Sys2Proof.Machine

/-! ### Soft bits -/

/-- 09 R229: an LLR lies between −31 and +31; a positive one favours 0. -/
def llrOf (l : List Int) (i : Nat) : Int := clampI (-31) 31 (l.getD i 0)

/-- The hard decision of an LLR. -/
def hardBit (x : Int) : Bool := decide (x < 0)

/-- How well bits agree with LLRs. -/
def agreement (l : List Int) (bits : List Bool) : Int :=
  (List.zipWith (fun x b => if b then -x else x) l bits).foldl (fun a x => a + x) 0

/-- The entries with the highest score. -/
def bestOf {α : Type} (l : List (Int × α)) : List (Int × α) := l.filter (fun x => l.all (fun y => decide (y.1 ≤ x.1)))

/-- One of the entries with the highest score; among equals the choice is open (log 116). -/
def pickBest {α : Type} (tie : Nat) (l : List (Int × α)) (d : Int × α) : Int × α :=
  let b := bestOf l
  b.getD (Config.tiePick tie % b.length) d

/-! ### The PHY header -/

/-- 09 R220: the soft sum of the two copies of a header: the second was sent inverted. -/
def headerSoft (l : List Int) : List Int := (List.range 48).map (fun i => llrOf l i - llrOf l (48 + i))

/-- 09 R220: maximum-likelihood decoding of one Golay half: its 12 message bits. -/
def golayDecode (tie : Nat) (l : List Int) : Nat :=
  (pickBest tie ((List.range 4096).map (fun m => (agreement l (golayWord m), m))) (0, 0)).2

/-- 09 R220: the header that 96 LLRs give. -/
def headerDecode (tie : Nat) (l : List Int) : Nat :=
  let x := headerSoft l
  golayDecode tie (x.take 24) + 4096 * golayDecode (tie + 1) (x.drop 24)

/-- 09 R239: the bits that Golay decoding corrected: those of the summed hard decisions that the decoded words differ from. -/
def headerCorrected (l : List Int) (h : Nat) : Nat :=
  ((List.zipWith (fun x b => hardBit x != b) (headerSoft l) (golayWord (h % 4096) ++ golayWord (h / 4096))).filter (fun b => b)).length

/-! ### Layered normalised min-sum -/

/-- 09 R226: the shift of a parity block of a code, by its block column from 8. -/
def parityShift (code r c : Nat) : Option Nat :=
  let rows := codeRows code
  if c = 8 then (if r = 0 ∨ r = rows - 1 then some 1 else if r = rows / 2 then some 0 else none)
  else if r + 9 = c ∨ r + 8 = c then some 0 else none

/-- 09 R226: the non-zero blocks of a base row: column and shift. -/
def rowBlocks (code r : Nat) : List (Nat × Nat) :=
  (List.range (8 + codeRows code)).filterMap (fun c =>
    (if c < 8 then ldpcShift code r c else parityShift code r c).map (fun s => (c, s)))

/-- 09 R226: the codeword bits of check `i` of a base row. -/
def checkBits (code r i : Nat) : List Nat := (rowBlocks code r).map (fun b => codeZ code * b.1 + (i + b.2) % codeZ code)

/-- 09 R229: a decoding in progress: the value of each bit, and the messages of each check to its bits. -/
structure MinSum where
  value : List Int
  msgs : List (List Int)
  deriving DecidableEq, Repr

/-- 09 R229: the message of a check to its bit `k`, from what the other bits bring: the product of their signs, and their least magnitude
times ALPHA / 16; what becomes of a product that is no whole number is open (log 115). -/
def checkMessage (alpha : Nat) (q : List Int) (k : Nat) : Int :=
  let others := q.eraseIdx k
  let n := alpha * others.foldl (fun m x => min m x.natAbs) ((others.headD 0).natAbs)
  let mag := if n % 16 = 0 then n / 16 else Config.minSumScale n
  if (others.filter (fun x => decide (x < 0))).length % 2 = 1 then -(Int.ofNat mag) else Int.ofNat mag

/-- 09 R229: one check is processed. -/
def minSumCheck (alpha : Nat) (ps : List Nat) (n : Nat) (d : MinSum) : MinSum :=
  let old := d.msgs.getD n []
  let q := (List.range ps.length).map (fun k => d.value.getD (ps.getD k 0) 0 - old.getD k 0)
  let new := (List.range ps.length).map (checkMessage alpha q)
  { value := (List.range ps.length).foldl (fun v k => v.set (ps.getD k 0) (q.getD k 0 + new.getD k 0)) d.value
    msgs := d.msgs.set n new }

/-- 09 R229: one iteration: the base rows in order. -/
def minSumIter (code alpha : Nat) (d : MinSum) : MinSum :=
  (List.range (codeRows code * codeZ code)).foldl (fun d n => minSumCheck alpha (checkBits code (n / codeZ code) (n % codeZ code)) n d) d

/-- 09 R229: the checks that the hard decisions leave unsatisfied. -/
def unsatisfied (code : Nat) (v : List Int) : Nat :=
  ((List.range (codeRows code * codeZ code)).filter (fun n =>
    ((checkBits code (n / codeZ code) (n % codeZ code)).filter (fun p => hardBit (v.getD p 0))).length % 2 == 1)).length

/-- How a decoding stopped: whether every check is satisfied, after how many iterations, and the information octets. -/
structure Decoding where
  ok : Bool
  iters : Nat
  info : List Byte
  deriving DecidableEq, Repr

/-- 09 R229, R240: iterations up to a stop; `low` is the fewest unsatisfied checks so far, `flat` for how many iterations they have not
fallen below it.  Without ETEN every codeword runs all its iterations. -/
def minSumRun (code alpha stall : Nat) (eten : Bool) : Nat → Nat → Nat → Nat → MinSum → Decoding
  | 0, used, _, _, d => { ok := unsatisfied code d.value == 0, iters := used, info := bitOctets (codeK code / 8) (d.value.map hardBit) }
  | fuel + 1, used, low, flat, d =>
    let d := minSumIter code alpha d
    let u := unsatisfied code d.value
    let info := bitOctets (codeK code / 8) (d.value.map hardBit)
    let flat := if u < low then 0 else flat + 1
    if eten ∧ u = 0 then { ok := true, iters := used + 1, info := info }
    else if eten ∧ stall ≠ 0 ∧ stall ≤ flat then { ok := false, iters := used + 1, info := info }
    else minSumRun code alpha stall eten fuel (used + 1) (min low u) flat d

/-- 09 R240: the fields of `FEC.DECCFG` as they act. -/
def cfgMaxIt (w : Word) : Nat := clamp 1 50 (bitsOf w 5 0)
def cfgAlpha (w : Word) : Nat := orIfZero 1 (bitsOf w 11 8)
def cfgStall (w : Word) : Nat := bitsOf w 19 16
def cfgHypo (w : Word) : Nat := orIfZero 1 (bitsOf w 25 24)
def cfgEten (w : Word) : Bool := testB w.toNat 28

/-- 09 R224: the pad bits of codeword `idx` of a PSDU of `len` octets. -/
def padBits (code len idx : Nat) : Nat := codeK code * (idx + 1) - 8 * len

/-- 09 R224, R229: the values a codeword starts with: the LLRs of the transmitted bits, and +31 for each pad bit. -/
def codewordStart (code pad : Nat) (l : List Int) : List Int :=
  let k := codeK code - pad
  ((List.range k).map (llrOf l)) ++ List.replicate pad 31 ++ ((List.range (codeN code - codeK code)).map (fun i => llrOf l (k + i)))

/-- 09 R229: a codeword is decoded under the sampled `FEC.DECCFG`. -/
def ldpcDecode (cfg : Word) (code pad : Nat) (l : List Int) : Decoding :=
  let n := codeRows code * codeZ code
  minSumRun code (cfgAlpha cfg) (cfgStall cfg) (cfgEten cfg) (cfgMaxIt cfg) 0 (n + 1) 0
    { value := codewordStart code pad l, msgs := (List.range n).map (fun i => (checkBits code (i / codeZ code) (i % codeZ code)).map (fun _ => 0)) }

/-! ### The convolutional code of SUN-FSK -/

/-- The NRNSC encoder (log 26): the two coded bits of a bit, from the three bits before it (the newest in bit 0). -/
def nrnscPair (st : Nat) (b : Bool) : Bool × Bool :=
  ((b != testB st 0) != (testB st 1 != testB st 2), (b != testB st 1) != testB st 2)

/-- Its state after a bit. -/
def nrnscNext (st : Nat) (b : Bool) : Nat := (2 * st + natBit b) % 8

/-- The coded bits of a message. -/
def nrnscEncode : Nat → List Bool → List Bool
  | _, [] => []
  | st, b :: bs => let p := nrnscPair st b; p.1 :: p.2 :: nrnscEncode (nrnscNext st b) bs

/-- The decoder's survivor of each state: its score, and its bits, newest first. -/
abbrev Survivors := List (Int × List Bool)

/-- One step of the trellis for the pair of LLRs `x`, `y` (09 R234). -/
def viterbiStep (n : Nat) (sv : Survivors) (x y : Int) : Survivors :=
  (List.range 8).map (fun st =>
    let b := testB st 0
    let from_ := fun (p : Nat) =>
      let e := sv.getD p (-1000000, [])
      let c := nrnscPair p b
      (e.1 + agreement [x, y] [c.1, c.2], b :: e.2)
    pickBest (8 * n + st) [from_ (st / 2), from_ (st / 2 + 4)] (0, []))

/-- 09 R234: soft-decision Viterbi decoding with a traceback of 32: a bit is decided from the best survivor 32 steps later, the last ones
from the best at the end. -/
def viterbiRun : Nat → Nat → Survivors → List Int → List Bool
  | 0, n, sv, _ => ((pickBest (8 * n) sv (0, [])).2.take 32).reverse
  | fuel + 1, n, sv, l =>
    let sv := viterbiStep n sv (llrOf l 0) (llrOf l 1)
    let bit := (pickBest (8 * n) sv (0, [])).2[32]?
    bit.toList ++ viterbiRun fuel (n + 1) sv (l.drop 2)

/-- The message bits of coded LLRs; the encoder starts in state 0. -/
def viterbi (l : List Int) : List Bool :=
  viterbiRun (l.length / 2) 0 ((List.range 8).map (fun i => (if i = 0 then 0 else -1000000, []))) l

end Sys2Proof.Machine
end

