-- ==== Sys2Proof/Machine/Sun.lean ====
section
/-! DEFINITION. SUN-FSK frames (08 R207): the parts of IEEE 802.15.4 that the rule names.  Their layout is that standard's, which the rule
does not repeat (log 26). -/
namespace Sys2Proof.Machine

/-- 08 R207: the SFD of a pair, uncoded or coded, first bit in bit 15. -/
def sunSfd (pair coded : Bool) : Nat :=
  match pair, coded with
  | false, false => 0x904E
  | false, true => 0x6F4E
  | true, false => 0x7A0E
  | true, true => 0x632D

/-- The octets of an FCS. -/
def fcsLen (two : Bool) : Nat := if two then 2 else 4

/-- The FCS of octets: the 16-bit one of ITU-T, or the 32-bit one. -/
def sunFcs (two : Bool) (bs : List Byte) : List Byte :=
  if two then bitOctets 2 ((List.range 16).map (fun i => testB (crcBits 16 0x1021 0 (bs.flatMap lsbBits)) (15 - i)))
  else leBytes 4 (crc32 bs)

/-- The PHR of a PSDU: FCS type in bit 3, whitening in bit 4, length in bits 5 to 15, most significant first. -/
def sunPhr (two dw : Bool) (len : Nat) : List Bool :=
  [false, false, false, two, dw] ++ (List.range 11).map (fun i => testB len (10 - i))

/-- Fields of a received PHR: mode switch, FCS type, whitening, length. -/
def phrSwitch (b : List Bool) : Bool := b.getD 0 false
def phrTwo (b : List Bool) : Bool := b.getD 3 false
def phrDw (b : List Bool) : Bool := b.getD 4 false
def phrLen (b : List Bool) : Nat := msbNat ((b.drop 5).take 11)

/-- The tail and pad bits behind the PSDU of a coded frame. -/
def sunTail (len : Nat) : List Bool :=
  if len % 2 = 1 then [false, false, false, false, true, false, true, true]
  else [false, false, false, false, true, false, true, true, false, false, false, false, true, false, true, true]

/-- The interleaver: where pair `k` of a block of 16 goes; it is its own inverse. -/
def interleaveAt (k : Nat) : Nat := 15 - 4 * (k % 4) - k / 4

/-- Interleaves, or puts back in order, blocks of 32 coded values. -/
def interleave {α : Type} (d : α) : Nat → List α → List α
  | 0, _ => []
  | n + 1, l =>
    (List.range 16).flatMap (fun k => let t := interleaveAt k; [l.getD (2 * t) d, l.getD (2 * t + 1) d]) ++ interleave d n (l.drop 32)

/-- 08 R207, 10 R241: the bits from the PHR on, before the symbols: whitened as CODE bit 1 asks, coded as bit 0 asks and interleaved as
INTLV asks. -/
def sunBody (code : Nat) (intlv : Bool) (mpdu : List Byte) : List Bool :=
  let two := testB code 2
  let psdu := mpdu ++ sunFcs two mpdu
  let bits := octetBits psdu
  let bits := if testB code 1 then scramble 511 bits else bits
  let body := sunPhr two (testB code 1) psdu.length ++ bits
  if testB code 0 then
    let c := nrnscEncode 0 (body ++ sunTail psdu.length)
    if intlv then interleave false (c.length / 32) c else c
  else body

/-- 08 R207, 10 R241: the bits of a SUN-FSK frame; on 4-FSK each bit of the preamble and the SFD is sent as an outer symbol. -/
def sunBits (mode code pre : Nat) (intlv sfdset : Bool) (mpdu : List Byte) : List Bool :=
  let sfd := (List.range 16).map (fun i => testB (sunSfd sfdset (testB code 0)) (15 - i))
  if mode = 6 then
    ((List.range (4 * pre)).flatMap (fun i => [i % 2 == 1, true])) ++ sfd.flatMap (fun b => [b, true]) ++ sunBody code intlv mpdu
  else ((List.range (8 * pre)).map (fun i => i % 2 == 1)) ++ sfd ++ sunBody code intlv mpdu

/-- 10 R241: the frequency symbols of bits, in thirds of the deviation. -/
def sunSymbolsOf (mode : Nat) : List Bool → List Int
  | [] => []
  | b :: bs =>
    if mode = 6 then
      match bs with
      | [] => [if b then 1 else -1]
      | c :: rest => (if b then (if c then 3 else 1) else (if c then -3 else -1)) :: sunSymbolsOf mode rest
    else (if b then 3 else -3) :: sunSymbolsOf mode bs

/-- 08 R207: the LLRs from the PHR on in the order of the encoder. -/
def sunOrder (coded intlv : Bool) (l : List Int) : List Int := if coded && intlv then interleave 0 (l.length / 32) l else l

/-- 08 R207, 09 R234: the bits from the PHR on. -/
def sunDecode (coded intlv : Bool) (l : List Int) : List Bool :=
  let l := sunOrder coded intlv l
  if coded then viterbi l else l.map hardBit

/-- 08 R207, 09 R234: the MPDU of a frame whose PHR gave this length, whitening and FCS type; none when its FCS fails. -/
def sunMpdu (two dw : Bool) (len : Nat) (bits : List Bool) : Option (List Byte) :=
  let b := (bits.drop 16).take (8 * len)
  let psdu := bitOctets len (if dw then scramble 511 b else b)
  let n := len - fcsLen two
  if fcsLen two ≤ len ∧ bits.length ≥ 16 + 8 * len ∧ psdu.drop n = sunFcs two (psdu.take n) then some (psdu.take n) else none

end Sys2Proof.Machine
end

