-- ==== Sys2Proof/Machine/Rxc.lean ====
section
/-! DEFINITION. The receive controller: demodulators, gain control, measurements, capture changes (chapter 08), with the
synthesiser's target (10 R249). -/
namespace Sys2Proof.Machine
open Sys2Proof.Reg

/-- Changes the state behind the registers of RXC. -/
def State.upRxc (s : State) (f : Rxc → Rxc) : State := { s with rxc := f s.rxc }
/-- Changes the state behind the registers of FEC. -/
def State.upFec (s : State) (f : Fec → Fec) : State := { s with fec := f s.fec }
/-- Changes the state behind the registers of CAL and the synthesiser. -/
def State.upCal (s : State) (f : Cal → Cal) : State := { s with cal := f s.cal }

/-- Events of the radio blocks (14 R349). -/
def rxcEvent (s : State) (b : Nat) : State := s.event RXC.EVT RXC.IEN b .misca 9
def txcEvent (s : State) (b : Nat) : State := s.event TXC.EVT TXC.IEN b .misca 10
def rfeEvent (s : State) (b : Nat) : State := s.event RFE.EVT RFE.IEN b .misca 11

/-! ### Synthesiser -/

/-- 10 R259, R266, 12 R297: the crystal error that is applied, in ppb. -/
def xtalApplied (s : State) : Int := if s.bit CAL.CTRL 11 then sint 24 (s.fld CAL.XTAL 23 0) else 0

/-- 10 R249: a new target starts a lock; a target more than 10 MHz from the calibrated frequency, or CALDUE, starts a VCO band
calibration first, but a running one completes.  The hop takes up the crystal estimate (R259). -/
def retune (s : State) (hz : Nat) : State :=
  if s.fld RFE.LOFREQ 29 0 = hz ∧ s.bit RFE.STATUS 0 then s
  else
    let far := decide (s.cal.band + 10000000 < hz) || decide (hz + 10000000 < s.cal.band)
    let s := ((s.setFld RFE.LOFREQ 29 0 hz).setBit RFE.STATUS 0 false).upCal (fun c => { c with synth := xtalApplied s })
    if s.bit RFE.STATUS 1 then s
    else if far ∨ s.bit RFE.STATUS 2 then (s.setBit RFE.STATUS 1 true).upCal (fun c => { c with calAt := hz })
    else s

/-- 08 R192: the centre frequency of channel k, in Hz, with the active window. -/
def channelHz (s : State) (k : Nat) : Int :=
  25000 * Int.ofNat (bitsOf s.rxc.base 15 0) + sint 16 (bitsOf s.rxc.ofs 15 0) + 25000 * Int.ofNat k

/-- 08 R192, R206: the receive LO. -/
def receiveLo (s : State) : Nat :=
  if s.bit RXC.STATUS 1 then bitsOf s.rxc.sun 29 0 - 2400000 else (channelHz s 0 + 1587500 - 2400000).toNat

/-! ### Demodulators -/

/-- State, bin and mode of a demodulator. -/
def demodState (s : State) (n : Nat) : Nat := s.fld (CH.CH_STAT n) 2 0
def demodBin (s : State) (n : Nat) : Nat := s.fld (CH.CH_CFG n) 6 0
def demodMode (s : State) (n : Nat) : Nat := s.fld (CH.CH_CFG n) 10 8
def demodOn (s : State) (n : Nat) : Bool := s.bit (CH.CH_CFG n) 12
/-- 08 R194: busy in PREAMBLE, HEADER and PAYLOAD. -/
def demodBusy (s : State) (n : Nat) : Bool := decide (2 ≤ demodState s n) && decide (demodState s n ≤ 4)

/-- The number of busy demodulators. -/
def busyCnt (s : State) : Nat := s.fld RXC.STATUS 14 8

/-- 08 R203: whether an enabled demodulator with CCA reports its bin busy. -/
def ccaBusy (s : State) (n : Nat) : Bool :=
  let energy := decide (s.fld (CH.CH_CCA n) 9 0 ≤ s.fld (CH.CH_RSSI n) 25 16)
  let carrier := demodBusy s n
  s.bit (CH.CH_CCA n) 15 && (match s.fld (CH.CH_CCA n) 13 12 with
    | 0 => energy
    | 1 => carrier
    | 2 => energy || carrier
    | _ => energy && carrier)

/-- Forms the CCA bit of a demodulator. -/
def setCca (s : State) (n : Nat) : State := s.setBit (CH.CH_STAT n) 4 (ccaBusy s n)

/-- 08 R197: the AGC leaves FROZEN. -/
def agcTo (s : State) (a : Agc) : State :=
  let s := s.upRxc (fun r => { r with agc := a })
  let s := (s.setBit RXC.AGCSTAT 8 (a == .frozen)).setBit RXC.STATUS 5 (a == .frozen)
  if a = .frozen then s else s.setFld RXC.AGCSTAT 10 9 0

/-- 08 R194, R197: forms BUSYMAP and BUSYCNT; when the last busy demodulator has left, the AGC tracks again. -/
def busyRecount (s : State) : State :=
  let lo := packBits 32 (demodBusy s)
  let hi := packBits 32 (fun i => demodBusy s (32 + i))
  let n := onesBelow 32 lo + onesBelow 32 hi
  let s := ((s.wr RXC.BUSYMAP0 (BitVec.ofNat 32 lo)).wr RXC.BUSYMAP1 (BitVec.ofNat 32 hi)).setFld RXC.STATUS 14 8 n
  if n = 0 ∧ s.rxc.agc = .frozen then agcTo s .track else s

/-- Moves a demodulator to a state, with what follows from it. -/
def setDemod (s : State) (n st : Nat) : State :=
  busyRecount (setCca (s.setFld (CH.CH_STAT n) 2 0 st) n)

/-- The frame a demodulator follows. -/
def demodFrame (s : State) (n : Nat) : Option RxMeta := s.rxc.frames.find? (fun m => m.demod == n)

/-- Changes the frame a demodulator follows. -/
def upFrame (s : State) (n : Nat) (f : RxMeta → RxMeta) : State :=
  s.upRxc (fun r => { r with frames := r.frames.map (fun m => if m.demod = n then f m else m) })

/-- Forms `FEC.STATUS`. -/
def fecStatus (s : State) : State :=
  let s := s.setFld FEC.STATUS 7 0 (min 255 s.fec.waiting.length)
  let s := s.setBit FEC.STATUS 8 s.fec.cur.isSome
  s.setBit FEC.STATUS 9 (match s.fec.cur with | some c => decide (c.hyp ≠ 0) | none => false)

/-- A demodulator forgets its frame, with the codewords of it that FEC holds. -/
def dropFrame (s : State) (n : Nat) : State :=
  let ids := (s.fec.frames.filter (fun f => f.m.demod == n && (s.rxc.frames.any (fun m => m.demod == n && m.ts == f.m.ts)))).map (fun f => f.id)
  let s := s.upRxc (fun r => { r with frames := r.frames.filter (fun m => m.demod != n) })
  fecStatus (s.upFec (fun f => { f with
    frames := f.frames.filter (fun x => !ids.contains x.id),
    waiting := f.waiting.filter (fun c => !ids.contains c.frame),
    alts := f.alts.filter (fun c => !ids.contains c.frame) }))

/-- 08 R194: a busy demodulator discards its frame, with the count and flag of TRUNC (bit 2) or ABANDON (bit 3). -/
def discardFrame (s : State) (flag next : Nat) (n : Nat) : State :=
  if demodBusy s n then
    let s := if flag = 2 then s.bump (CH.CH_CNT2 n) 15 0 1 else s.bump (CH.CH_CNT2 n) 31 16 1
    setDemod (dropFrame (s.setBit (CH.CH_FLAGS n) flag true) n) n next
  else s

/-- Every busy demodulator discards its frame. -/
def discardAll (s : State) (flag next : Nat) : State := (List.range 64).foldl (fun s n => discardFrame s flag next n) s

/-- 08 R193, R205, R206: whether demodulator n listens in the active capture mode. -/
def demodServes (s : State) (n : Nat) : Bool := if s.bit RXC.STATUS 1 then n == 0 else demodOn s n

/-- 08 R211, 12 R310, R315: whether the receiver is wanted: EN, except in SENSE and REST, a window that forces it on, or the
tracker in LOST. -/
def receiverWanted (s : State) : Bool :=
  (s.bit RXC.CTRL 0 && decide (s.fld PWR.STATUS 2 0 ≤ 1)) || s.sched.own || s.sched.annOpen || s.trk.window || s.fld LNK.NTSTAT 2 0 == 4

/-- 08 R194: a demodulator begins to search: its detector history is cleared and its noise estimate starts. -/
def demodListen (s : State) (n : Nat) : State :=
  setDemod (s.upRxc (fun r => { r with hist := r.hist.filter (fun h => h.1 != n) })) n 1

/-- 08 R197, R209: the receiver is ready: the AGC tracks and the demodulators listen. -/
def receiverReady (s : State) : State :=
  if receiverWanted s ∧ ¬ s.bit RXC.STATUS 4 ∧ ¬ s.bit RXC.STATUS 3 then
    let s := s.setBit RXC.STATUS 0 true
    let s := if s.rxc.agc = .hold then agcTo s .track else s
    (List.range 64).foldl (fun s n => if demodServes s n ∧ demodState s n = 0 then demodListen s n else s) s
  else s

/-- The receiver begins to work toward readiness; RADIO powers up with it (12 R310). -/
def receiverStart (s : State) : State :=
  let s := s.setDom Dom.radio .on
  let s := retune s (receiveLo s)
  if s.bit RFE.STATUS 0 then receiverReady s else s

/-- 08 R205: the staged values lie in their ranges (R212). -/
def applyInRange (s : State) : Bool :=
  let b := s.fld RXC.WINBASE 15 0
  let o := sint 16 (s.fld RXC.WINOFS 15 0)
  let f := s.fld RXC.SUNFREQ 29 0
  decide (6000 ≤ b) && decide (b ≤ 38272) && decide (-12500 ≤ o) && decide (o ≤ 12499) &&
  decide (150200000 ≤ f) && decide (f ≤ 959800000) && decide (s.fld RXC.SUNCFG 1 0 ≤ 2)

/-- 08 R205: the capture values as they are staged. -/
def staged (s : State) : Capture :=
  { base := s.rd RXC.WINBASE, ofs := s.rd RXC.WINOFS, sun := s.rd RXC.SUNFREQ, sunCfg := s.rd RXC.SUNCFG, wide := s.bit RXC.CTRL 1 }

/-- 08 R205: the values of the last accepted APPLY become active (log 117): the change begins, busy receptions are abandoned. -/
def applyNow (s : State) : State :=
  let c := s.rxc.want.getD (staged s)
  let s := discardAll s 3 0
  let s := agcTo s .hold
  let s := (List.range 64).foldl (fun s n => if demodState s n = 0 then s else setDemod s n 0) s
  let s := s.upRxc (fun r => { r with
    base := c.base, ofs := c.ofs, sun := c.sun, sunCfg := c.sunCfg, want := none, applyHeld := false })
  let s := (s.setBit RXC.STATUS 1 c.wide).setBit RXC.STATUS 2 false
  let s := (s.setBit RXC.STATUS 0 false).setBit RXC.STATUS 3 true
  if receiverWanted s then retune s (receiveLo s) else s

/-- 08 R205: an accepted APPLY takes effect now, or waits. -/
def applyOutcome (s : State) : State :=
  if s.bit RXC.STATUS 4 then s.upRxc (fun r => { r with applyHeld := true })
    else if busyCnt s = 0 ∨ s.bit RXC.CTRL 3 then applyNow s
    else s.setBit RXC.STATUS 2 true

/-- 08 R205: an APPLY of values out of range is refused; an accepted one replaces one that waits. -/
def rxcApply (s : State) : State :=
  if !applyInRange s then s.setBit RXC.STATUS 6 true
  else applyOutcome ((s.setBit RXC.STATUS 6 false).upRxc (fun r => { r with want := some (staged s) }))

/-- A change completes: SWITCHING clears, SWDONE, the receiver resumes. -/
def switchDone (s : State) : State :=
  if s.bit RXC.STATUS 3 then receiverReady (rxcEvent (s.setBit RXC.STATUS 3 false) 2) else s

/-- 08 R194, R197, R205: the receiver stops; a pending or running change is applied. -/
def receiverStop (s : State) : State :=
  let s := if s.bit RXC.STATUS 2 ∨ s.rxc.applyHeld then applyNow s else s
  let s := if s.bit RXC.STATUS 3 then rxcEvent (s.setBit RXC.STATUS 3 false) 2 else s
  let s := discardAll s 3 0
  let s := (List.range 64).foldl (fun s n => if demodState s n = 0 then s else setDemod s n 0) s
  agcTo (s.setBit RXC.STATUS 0 false) .hold

/-- 08 R205, R211: a write of `RXC.CTRL`. -/
def rxcCtrlWrite (s : State) (v : Word) : State :=
  let was := s.bit RXC.CTRL 0
  let s := s.wr RXC.CTRL (v &&& 0xB)
  let s := if testB v.toNat 0 ∧ ¬ was then (if s.bit RXC.STATUS 4 ∨ ¬ receiverWanted s then s else receiverStart s)
    else if ¬ testB v.toNat 0 ∧ was ∧ ¬ receiverWanted s then receiverStop s else s
  if testB v.toNat 2 then rxcApply s else s

/-- 08 R193: whether a write may set EN of demodulator `n`. -/
def demodMayStart (s : State) (n : Nat) (v : Word) : Bool :=
  decide (bitsOf v 10 8 < 4) &&
  (List.range 64).all (fun k => k == n || !demodOn s k || demodBin s k != bitsOf v 6 0 || demodMode s k != bitsOf v 10 8)

/-- 08 R193, R194: a write of `RXC.CHn.CFG`.  In WIDE mode demodulator 0 serves the SUN-FSK path whatever its EN (log 118). -/
def chCfgWrite (s : State) (n : Nat) (v : Word) : State :=
  if demodOn s n then
    let s := if bitsOf v 6 0 ≠ demodBin s n ∨ bitsOf v 10 8 ≠ demodMode s n then s.setBit (CH.CH_FLAGS n) 4 true else s
    if testB v.toNat 12 then s
    else
      let s := (discardFrame s 3 0 n).setBit (CH.CH_CFG n) 12 false
      if s.bit RXC.STATUS 1 ∧ n = 0 then (if s.bit RXC.STATUS 0 ∧ demodState s n = 0 then demodListen s n else s)
      else if demodState s n = 0 then s else setDemod s n 0
  else if testB v.toNat 12 then
    if demodMayStart s n v then
      let s := s.wr (CH.CH_CFG n) (v &&& 0x177F)
      if s.bit RXC.STATUS 0 ∧ demodServes s n ∧ demodState s n = 0 then demodListen s n else s
    else (s.wr (CH.CH_CFG n) (v &&& 0x77F)).setBit (CH.CH_FLAGS n) 4 true
  else s.wr (CH.CH_CFG n) (v &&& 0x77F)

/-- 08 R197, R208: a transmission begins: the receiver is blanked, every busy demodulator truncated, and those in SEARCH clear their
history.  True when one was busy. -/
def transmissionBegins (s : State) : Bool × State :=
  let busy := busyCnt s != 0
  let s := agcTo s .hold
  let s := (s.setBit RXC.STATUS 4 true).setBit RXC.STATUS 0 false
  let s := (discardAll s 2 1).upRxc (fun r => { r with hist := r.hist.filter (fun h => demodState s h.1 != 1) })
  (busy, s.when busy (fun s => rxcEvent s 3))

/-! ### Commands -/

/-- 08 R213: DETTHR and SYNCWIN as they act. -/
def detThr (s : State) (n : Nat) : Nat := max 24 (s.fld (CH.CH_DET n) 7 0)
def syncWin (s : State) (n : Nat) : Nat := orIfZero 1 (s.fld (CH.CH_DET n) 23 16)

/-- PREAMBLE_DETECTED (08 R194, R197, 09 R218): a demodulator in SEARCH whose preamble correlation (in 0.25 dB) reaches DETTHR enters
PREAMBLE; DET counts, the AGC freezes, DGAIN is acquired, the sync word is sampled. -/
def execPreambleDetected (n : Fin 64) (corr : Nat) (dgain : BitVec 8) (s : State) : Out :=
  if s.bit RXC.STATUS 0 ∧ demodState s n = 1 ∧ detThr s n ≤ corr then
    let m : RxMeta := { demod := n, bin := demodBin s n, sun := s.bit RXC.STATUS 1, syncw := s.rd FEC.SYNCW,
                        mode := if s.bit RXC.STATUS 1 then 4 + bitsOf s.rxc.sunCfg 1 0 else demodMode s n }
    let s := s.bump (CH.CH_CNT0 n) 15 0 1
    let s := s.upRxc (fun r => { r with frames := m :: r.frames.filter (fun x => x.demod != n.val) })
    let s := if s.rxc.agc = .frozen then s
      else ((agcTo s .frozen).setFld RXC.AGCSTAT 31 16 0).upRxc (fun r => { r with frozenAt := s.uptime })
    .next (setDemod (s.setFld (CH.CH_STAT n) 15 8 dgain.toNat) n 2)
  else .next s

/-- 10 R260: CAL's pending RX DC and RX I/Q values from a frame (R259). -/
def calFromFrame (s : State) (n : Nat) (x : SyncMeas) : State :=
  let s := s.when (s.bit CAL.CTRL 0) (fun s => s.upCal (fun c => { c with dc := some x.dc }))
  s.when (s.bit CAL.CTRL 1 && decide (s.fld (CH.CH_NOISE n) 9 0 + 40 ≤ x.rssi.val)) (fun s => s.upCal (fun c => { c with iq := some x.iq }))

/-- 08 R207: on the SUN-FSK path, whether the SFD found is one of the pair that SFDSET selects. -/
def sfdMatches (s : State) (m : RxMeta) (x : SyncMeas) : Bool :=
  let pair := testB s.rxc.sunCfg.toNat 3
  !m.sun || x.sfd.toNat == sunSfd pair false || x.sfd.toNat == sunSfd pair true

/-- SYNC_FOUND (08 R194, R201, R202): the frame is time-stamped with the group delay taken off, measured, and its header
follows. -/
def execSyncFound (n : Fin 64) (x : SyncMeas) (s : State) : Out :=
  match demodFrame s n with
  | none => .next s
  | some m =>
    if demodState s n ≠ 2 ∨ sfdMatches s m x = false then .next s
    else
      let ts := s.nt - BitVec.ofNat 64 x.back - BitVec.ofNat 64 (s.fld (RXC.GDLY m.mode) 15 0)
      let s := upFrame s n (fun m => { m with
        ts := ts, rssi := x.rssi.val, fofs := x.fofs.toNat, noise := s.fld (CH.CH_NOISE n) 9 0, gain := s.fld RXC.AGCSTAT 4 0,
        coded := m.sun && x.sfd.toNat == sunSfd (testB s.rxc.sunCfg.toNat 3) true })
      let s := (s.bump (CH.CH_CNT0 n) 31 16 1).setFld (CH.CH_RSSI n) 9 0 x.rssi.val
      let s := (s.setFld (CH.CH_FOFS n) 15 0 x.fofs.toNat).wr (CH.CH_TSLO n) (BitVec.ofNat 32 ts.toNat)
      let s := s.upRxc (fun r => { r with stamps := (n.val, ts) :: r.stamps.filter (fun e => e.1 != n.val) })
      .next (setDemod (calFromFrame s n x) n 3)

/-- SYNC_WINDOW_TIMEOUT (08 R194): no sync word within SYNCWIN symbols of detection; `symbols` have passed. -/
def execSyncWindowTimeout (n : Fin 64) (symbols : Nat) (s : State) : Out :=
  if demodState s n = 2 ∧ syncWin s n ≤ symbols then .next (setDemod (dropFrame s n) n 1) else .next s

/-- The header of a demodulator fails: HDRERR counts, the demodulator returns to SEARCH (08 R194). -/
def headerFails (s : State) (n : Nat) : State := setDemod (dropFrame (s.bump (CH.CH_CNT1 n) 15 0 1) n) n 1

/-- 09 R220, R221: the 96 LLRs of a CNB header are decoded; `tie` is the number of the choice among equals. -/
def cnbHeader (s : State) (n : Nat) (m : RxMeta) (tie : Nat) (soft : List Int) : State :=
  let h := headerDecode tie soft
  let s := s.bump FEC.HDRCNT 31 16 (headerCorrected soft h)
  if headerOk m.mode h then setDemod (upFrame (s.bump FEC.HDRCNT 15 0 1) n (fun m => { m with len := hdrLen h, code := hdrCode h })) n 4
  else headerFails s n

/-- 08 R207: the PHR of a SUN-FSK frame from the LLRs of its (coded) bits; the mode-switch bit fails it (log 26). -/
def sunHeader (s : State) (n : Nat) (m : RxMeta) (soft : List Int) : State :=
  let b := sunDecode m.coded (testB s.rxc.sunCfg.toNat 2) soft
  if phrSwitch b then headerFails s n
  else setDemod (upFrame s n (fun m => { m with
    len := phrLen b, code := natBit m.coded + 2 * natBit (phrDw b) + 4 * natBit (phrTwo b) })) n 4

/-- HEADER_DECISION (08 R194, 09 R220, R221, R239): the header is decoded from its LLRs and passes, or HDRERR is counted. -/
def execHeaderDecision (n : Fin 64) (soft : List Int) (s : State) : Out :=
  match demodFrame s n with
  | none => .next s
  | some m =>
    if demodState s n ≠ 3 then .next s
    else if m.sun then .next (sunHeader s n m soft)
    else .next (cnbHeader { s with free := s.free + 2 } n m s.free soft)

/-- The codewords of a frame in FEC that its demodulator has yet to capture. -/
def cwLeft (f : FecFrame) : Nat := codewords f.m.code f.m.len - f.captured

/-- 09 R231: the next codeword of the frame a demodulator follows is captured and waits for its first decoding; one of a frame that has
failed is discarded. -/
def captureCodeword (s : State) (n : Nat) (llr : List (List Int)) : State :=
  match demodFrame s n with
  | none => s
  | some m =>
    if demodState s n ≠ 4 ∨ m.sun then s
    else
      let s := if s.fec.frames.any (fun f => f.m.demod == n && f.m.ts == m.ts) then s
        else s.upFec (fun f => { f with frames := f.frames ++ [{ id := f.next, m := m }], next := f.next + 1 })
      match s.fec.frames.find? (fun f => f.m.demod == n && f.m.ts == m.ts) with
      | none => s
      | some f =>
        if cwLeft f = 0 then s
        else s.upFec (fun g => { g with
          frames := g.frames.map (fun x => if x.id = f.id then { x with captured := x.captured + 1 } else x),
          waiting := if f.failed then g.waiting else g.waiting ++ [{ frame := f.id, idx := f.captured, llr := llr }] })

/-- PAYLOAD_CAPTURED (08 R194, R195): the last symbol is captured; FRAMES counts and the frame belongs to FEC.  `rest` are the LLRs of the
codewords that no CODEWORD_DECODE_START has brought. -/
def execPayloadCaptured (n : Fin 64) (rest : List (List (List Int))) (s : State) : Out :=
  match demodFrame s n with
  | none => .next s
  | some m =>
    if demodState s n ≠ 4 then .next s
    else
      let s := if m.sun then
          s.upFec (fun f => { f with frames := f.frames ++ [{ id := f.next, m := m }], next := f.next + 1 })
        else (List.range (codewords m.code m.len)).foldl (fun s i => captureCodeword s n (rest.getD i [])) s
      let s := s.upFec (fun f => { f with frames :=
        (f.frames.filter (fun x => !(x.m.demod == n.val && x.m.ts == m.ts && x.failed))).map (fun x =>
          if x.m.demod = n.val ∧ x.m.ts = m.ts then { x with m := m } else x) })
      let s := s.upRxc (fun r => { r with frames := r.frames.filter (fun x => x.demod != n.val) })
      .next (fecStatus (setDemod (s.bump (CH.CH_CNT1 n) 31 16 1) n 1))

/-- 08 R201: a new value of NOW, and in SEARCH the median of the last 64 as the noise floor. -/
def setNow (s : State) (n v : Nat) : State :=
  let s := s.setFld (CH.CH_RSSI n) 25 16 v
  let s := if demodState s n = 1 then
      let old := match s.rxc.hist.find? (fun h => h.1 == n) with | some h => h.2 | none => []
      let h := (v :: old).take 64
      let s := s.upRxc (fun r => { r with hist := (n, h) :: r.hist.filter (fun x => x.1 != n) })
      s.setFld (CH.CH_NOISE n) 9 0 (median (h.map Int.ofNat)).toNat
    else s
  setCca s n

/-- 08 R198: a gain step by clip override: every busy demodulator notes it. -/
def agcOverride (s : State) : State :=
  let g := s.fld RXC.AGCSTAT 4 0
  let s := (s.setFld RXC.AGCSTAT 4 0 (g - min 3 g)).setFld RXC.AGCSTAT 10 9 (s.fld RXC.AGCSTAT 10 9 + 1)
  let s := (below 64 (demodBusy s)).foldl (fun (s : State) n =>
    upFrame (s.setBit (CH.CH_FLAGS n) 0 true) n (fun m => { m with gstep := true })) s
  rxcEvent (s.bump RXC.AGCCNT 15 0 1) 0

/-- 08 R197: a clip that is not answered by a step. -/
def agcClipLost (s : State) : State :=
  let s := (below 64 (demodBusy s)).foldl (fun (s : State) n =>
    upFrame (s.setBit (CH.CH_FLAGS n) 1 true) n (fun m => { m with clip := true })) s
  rxcEvent (s.bump RXC.AGCCNT 31 16 1) 1

/-- 08 R197: TARGET and the limit of override steps. -/
def agcTarget (s : State) : Int := -(256 * Int.ofNat (clamp 6 30 (s.fld RXC.AGCCFG 4 0)))
def agcMaxStep (s : State) : Nat := orIfZero 1 (s.fld RXC.AGCCFG 10 9)

/-- 08 R197: what TRACK does with a measurement: P in 1/256 dBFS. -/
def agcTrack (s : State) (p : Int) (clip : Bool) : State :=
  let g := s.fld RXC.AGCSTAT 4 0
  let t := agcTarget s
  if clip then s.setFld RXC.AGCSTAT 4 0 (g - min 12 g)
  else if t + 768 < p then s.setFld RXC.AGCSTAT 4 0 (g - min ((p - t + 511) / 512).toNat g)
  else if p < t - 768 then s.setFld RXC.AGCSTAT 4 0 (g + min ((t - p) / 512).toNat (30 - g))
  else s

/-- AGC_MEASUREMENT (08 R197 to R201): a window of 1 µs ends with composite power `power` in 1/256 dBFS and the modulator's
overload events; `now` are the averages of bin power completed since the last one. -/
def execAgcMeasurement (power : Int) (overloads : Nat) (now : List (Fin 64 × Fin 341)) (s : State) : Out :=
  let s := now.foldl (fun (s : State) x => setNow s x.1.val x.2.val) s
  let clip := decide (orIfZero 1 (s.fld RXC.AGCCFG 19 16) ≤ overloads)
  match s.rxc.agc with
  | .hold => .next s
  | .track => .next (agcTrack s power clip)
  | .frozen =>
    if clip then
      if s.bit RXC.AGCCFG 8 ∧ s.fld RXC.AGCSTAT 10 9 < agcMaxStep s ∧ s.fld RXC.AGCSTAT 4 0 ≠ 0 then .next (agcOverride s)
      else .next (agcClipLost s)
    else .next s

/-- RXC_APPLY_PENDING_DONE (08 R205): BUSYCNT has reached 0 and the pending APPLY takes effect. -/
def execRxcApplyPendingDone (s : State) : Out :=
  if s.bit RXC.STATUS 2 ∧ busyCnt s = 0 ∧ ¬ s.bit RXC.STATUS 4 then .next (applyNow s) else .next s

/-- RXC_SWITCH_DONE (08 R205): the capture change completes. -/
def execRxcSwitchDone (s : State) : Out := .next (switchDone s)

/-- RECEIVER_RETURN (08 R209, R205): the synthesiser is back on the receive LO and the AGC has settled: TXBLANK clears; an APPLY
held meanwhile is made now. -/
def execReceiverReturn (s : State) : Out :=
  if s.bit RXC.STATUS 4 ∧ s.txc.job.isNone then
    let s := receiverReady (s.setBit RXC.STATUS 4 false)
    .next (if s.rxc.applyHeld then applyOutcome (s.upRxc (fun r => { r with applyHeld := false })) else s)
  else .next s

/-- 08 R213: a read of `RXC.CHn.TSLO` latches TSHI, which shows the upper half of the time-stamp of the same frame. -/
def tsloLatch (s : State) (n : Nat) : State :=
  match s.rxc.stamps.find? (fun e => e.1 == n) with
  | some e => s.wr (CH.CH_TSHI n) (BitVec.ofNat 32 (e.2.toNat / 2 ^ 32))
  | none => s

end Sys2Proof.Machine
end

