-- ==== Sys2Proof/Machine/Fec.lean ====
section
/-! DEFINITION. The decoder's schedule and the delivery of frames (09 R229 to R234, R239). -/
namespace Sys2Proof.Machine
open Sys2Proof.Reg

/-- Changes the state behind the registers of LNK. -/
def State.upLnk (s : State) (f : Lnk → Lnk) : State := { s with lnk := f s.lnk }

/-- The codewords of a frame leave the decoder. -/
def fecForget (s : State) (id : Nat) : State :=
  s.upFec (fun f => { f with waiting := f.waiting.filter (fun c => c.frame != id), alts := f.alts.filter (fun c => c.frame != id) })

/-- Drops a frame and its codewords from FEC. -/
def fecDrop (s : State) (id : Nat) : State := fecForget (s.upFec (fun f => { f with frames := f.frames.filter (fun x => x.id != id) })) id

/-- 09 R231: a frame fails: its remaining codewords are discarded, those yet to be captured by its demodulator as well. -/
def fecFail (s : State) (f : FecFrame) : State :=
  if s.rxc.frames.any (fun m => m.demod == f.m.demod && m.ts == f.m.ts) then
    (fecForget s f.id).upFec (fun g => { g with frames := g.frames.map (fun x => if x.id = f.id then { x with failed := true } else x) })
  else fecDrop s f.id

/-- 11 R286: END of a frame: TS + (n + 0.5) × T. -/
def frameEnd (m : RxMeta) : BitVec 64 :=
  let n := if m.sun then sunAfterSfd m.mode m.code (m.len - fcsLen (testB m.code 2)) else symbolsAfterSync m.mode m.code m.len
  m.ts + BitVec.ofNat 64 (halfSymbols m.mode (2 * n + 1))

/-- The information octets of a frame's codewords in order. -/
def fecInfo (f : FecFrame) : List Byte :=
  (List.range (codewords f.m.code f.m.len)).flatMap (fun i => match f.done.find? (fun e => e.1 == i) with | some e => e.2 | none => [])

/-- 09 R231: a frame whose codewords have all decoded is descrambled and its CRC-24 checked; one that passes goes to LNK. -/
def fecFinish (s : State) (f : FecFrame) : State :=
  if f.done.length < codewords f.m.code f.m.len then s
  else
    let psdu := decodedPsdu f.m.len (fecInfo f)
    let s := fecDrop s f.id
    if psduOk psdu then
      let x : RxFrame := { m := f.m, mpdu := psdu.take (psdu.length - 3), cw := codewords f.m.code f.m.len,
                           iter := f.iter, alt := f.alt, fin := frameEnd f.m }
      (s.bump FEC.FRMCNT 15 0 1).upLnk (fun l => { l with rx := l.rx ++ [x] })
    else s.bump FEC.FRMCNT 31 16 1

/-- Inserts a codeword behind those captured before it: the lower demodulator first on a tie (09 R231). -/
def insertCaptured (x : Captured) : List Captured → List Captured
  | [] => [x]
  | y :: ys => if x.time < y.time ∨ (x.time = y.time ∧ x.demod < y.demod) then x :: y :: ys else y :: insertCaptured x ys

/-- 09 R229: the decoder takes a codeword, with `FEC.DECCFG` sampled at its start. -/
def decoderTake (s : State) (c : Cw) : State := s.upFec (fun f => { f with cur := some (if c.hyp = 0 then { c with cfg := s.rd FEC.DECCFG } else c) })

/-- CODEWORD_DECODE_START (09 R230, R231): the codewords captured since the last event wait in the order of their last symbols, then the
oldest is taken; an alternative hypothesis in progress resumes later. -/
def execCodewordDecodeStart (captured : List Captured) (s : State) : Out :=
  let s := (captured.foldl (fun l x => insertCaptured x l) []).foldl (fun (s : State) x => captureCodeword s x.demod.val x.llr) s
  match s.fec.waiting, s.fec.cur with
  | c :: rest, none => .next (fecStatus (decoderTake (s.upFec (fun f => { f with waiting := rest })) c))
  | c :: rest, some a =>
    if a.hyp = 0 then .next (fecStatus s)
    else .next (fecStatus (decoderTake (s.upFec (fun f => { f with waiting := rest, alts := a :: f.alts })) c))
  | [], _ => .next (fecStatus s)

/-- 09 R229: what the decoding of a codeword of a frame finds. -/
def decodeOf (f : FecFrame) (c : Cw) : Decoding := ldpcDecode c.cfg f.m.code (padBits f.m.code f.m.len c.idx) (c.llr.getD c.hyp [])

/-- CODEWORD_DECODE_DONE (09 R229 to R231, R239): the decoding stops, `us` µs after capture: the codeword is decoded, or waits for its next
hypothesis (behind those that failed before it, unless it was itself at one), or its frame fails. -/
def execCodewordDecodeDone (us : Nat) (s : State) : Out :=
  match s.fec.cur with
  | none => .next s
  | some c =>
    match s.fec.frames.find? (fun f => f.id == c.frame) with
    | none => .next (fecStatus (s.upFec (fun f => { f with cur := none })))
    | some f =>
      let d := decodeOf f c
      let s := (s.upFec (fun f => { f with cur := none })).bump FEC.ITERSUM 31 0 d.iters
      if f.failed then .next (fecStatus s)
      else if d.ok then
        let s := (s.bump FEC.CWCNT 15 0 1).raise FEC.ITERMAX 5 0 d.iters
        let s := s.bump FEC.ITERMAX 31 16 (natBit (c.hyp != 0))
        let f := { f with done := (c.idx, d.info) :: f.done, iter := max f.iter d.iters, alt := f.alt || c.hyp != 0 }
        let s := s.upFec (fun g => { g with frames := g.frames.map (fun x => if x.id = f.id then f else x) })
        .next (fecStatus (fecFinish (s.raise FEC.LATMAX 15 0 us) f))
      else if c.hyp + 1 < cfgHypo c.cfg then
        let n : Cw := { c with hyp := c.hyp + 1 }
        .next (fecStatus (s.upFec (fun g => { g with alts := if c.hyp = 0 then g.alts ++ [n] else n :: g.alts })))
      else .next (fecStatus (fecFail ((s.bump FEC.CWCNT 31 16 1).raise FEC.LATMAX 15 0 us) f))

/-- ALT_HYPOTHESIS_START (09 R230): with no codeword waiting and the decoder idle, a failed codeword is decoded at its next
instant. -/
def execAltHypothesisStart (s : State) : Out :=
  match s.fec.waiting, s.fec.cur, s.fec.alts with
  | [], none, c :: rest => .next (fecStatus (s.upFec (fun f => { f with cur := some c, alts := rest })))
  | _, _, _ => .next s

/-- VITERBI_DECODE (09 R234, 08 R206, R207): the oldest SUN-FSK frame is decoded from its LLRs from the PHR on and its FCS checked; with a
correct one its MPDU goes to LNK. -/
def execViterbiDecode (soft : List Int) (s : State) : Out :=
  match s.fec.frames.find? (fun f => f.m.sun) with
  | none => .next s
  | some f =>
    let s := fecDrop s f.id
    match sunMpdu (testB f.m.code 2) (testB f.m.code 1) f.m.len (sunDecode f.m.coded (testB s.rxc.sunCfg.toNat 2) soft) with
    | some mpdu =>
      let x : RxFrame := { m := f.m, mpdu := mpdu, cw := 0, iter := 0, alt := false, fin := frameEnd f.m }
      .next ((s.bump FEC.VITCNT 15 0 1).upLnk (fun l => { l with rx := l.rx ++ [x] }))
    | none => .next (s.bump FEC.VITCNT 31 16 1)

end Sys2Proof.Machine
end

