-- ==== Sys2Proof/Machine/Seen.lean ====
section
/-! DEFINITION. Yunamomer frames, the time window and the seen cache (11 R267 to R273, R276, R280 to R284). -/
namespace Sys2Proof.Machine
open Sys2Proof.Reg

/-- The initiator id of the link hardware (01 R23). -/
def lnkInit : Nat := 7

/-- Events of LNK (14 R349). -/
def lnkEvent (s : State) (b : Nat) : State := s.event LNK.EVT LNK.IEN b .misca 12
def lnkTevent (s : State) (b : Nat) : State := s.event LNK.TEVT LNK.TIEN b .misca 13

/-! ### Frame layout -/

/-- 11 R267, R268: the fields of an MPDU; addresses with the octets they took, the offset and length of the payload, and the length
of the MIC. -/
structure Frm where
  type : Nat
  sec : Bool
  dam : Nat
  sam : Nat
  ar : Bool
  pend : Bool
  ttlp : Bool
  ver : Nat
  nid : Nat
  dst : Nat
  src : Nat
  fcnt : Word
  secctl : Nat
  flood : Nat
  floodAt : Nat
  payAt : Nat
  payLen : Nat
  mic : Nat
  deriving DecidableEq, Repr

/-- Octets of an address by its code. -/
def addrLen (m : Nat) : Nat := if m = 2 then 2 else if m = 3 then 8 else 0

/-- 11 R272: the octets of the MIC of a security level. -/
def micLen (lvl : Nat) : Nat := match lvl % 4 with
  | 1 => 4 | 2 => 8 | 3 => 16 | _ => 0

/-- 11 R267: reads the fields of an MPDU; none when it is too short for them. -/
def parseFrame (bs : List Byte) : Option Frm :=
  let g := fun i n => leNat ((bs.drop i).take n)
  let fc := g 0 2
  let type := fc % 8
  let sec := testB fc 3
  let dam := fc / 16 % 4
  let sam := fc / 64 % 4
  let ttlp := testB fc 10
  let a := 2 + (if type = 2 then 0 else 2)
  let b := a + addrLen dam
  let c := b + addrLen sam
  let d := c + 4
  let e := d + natBit sec
  let p := e + (if ttlp then 2 else 0)
  let secctl := if sec then g d 1 else 0
  let mic := if sec then micLen secctl else 0
  if bs.length < p + mic then none
  else some { type := type, sec := sec, dam := dam, sam := sam, ar := testB fc 8, pend := testB fc 9, ttlp := ttlp, ver := fc / 16384,
              nid := if type = 2 then 0 else g 2 2, dst := g a (addrLen dam), src := g b (addrLen sam),
              fcnt := BitVec.ofNat 32 (g c 4), secctl := secctl, flood := if ttlp then g e 2 else 0, floodAt := e,
              payAt := p, payLen := bs.length - p - mic, mic := mic }

/-- 11 R269, R271, R272: whether a frame meets the row of its type. -/
def frameValid (f : Frm) : Bool :=
  let lvl := f.secctl % 8
  let secOk := !f.sec || (f.sam == 3 && lvl != 0 && lvl != 4 && decide (f.secctl < 64))
  let has := fun x => x == 2 || x == 3
  let row := match f.type with
    | 0 => has f.dam && has f.sam && !f.ttlp
    | 1 => (f.dam == 0 || has f.dam) && has f.sam && f.ttlp && !f.ar
    | 2 => f.dam == 0 && f.sam == 0 && !f.sec && !f.ttlp && !f.ar && f.payLen == 0
    | 3 => f.dam == 0 && has f.sam && !f.ttlp && !f.ar
    | 4 => has f.dam && f.sam == 0 && !f.sec && !f.ttlp && !f.ar && f.payLen == 2
    | 5 => (f.dam == 0 || f.dam == 2) && f.sam == 3 && !f.ttlp && !f.ar
    | _ => false
  row && secOk && f.ver == 0

/-- The own EUI-64. -/
def ownEui (s : State) : Nat := (s.rd LNK.EUILO).toNat + 2 ^ 32 * (s.rd LNK.EUIHI).toNat

/-- 11 R276, R278: the destination match: 0 DAM 0, 1 own short, 2 own EUI-64, 3 broadcast, 4 group; none without a match. -/
def frameMatch (s : State) (f : Frm) : Option Nat :=
  if f.dam = 0 then some 0
  else if f.dam = 2 then
    (if f.dst = s.fld LNK.SHORT 15 0 ∧ s.fld LNK.SHORT 15 0 ≠ 0xFFFE then some 1
     else if f.dst = 0xFFFF then some 3
     else if (List.range 8).any (fun k => s.bit (LNK.GROUP k) 31 && s.fld (LNK.GROUP k) 15 0 == f.dst) then some 4
     else none)
  else if f.dst = ownEui s then some 2 else none

/-- 11 R287: the XOR of the 16-bit parts of an address. -/
def fold16 (a : Nat) : Nat := (a % 65536) ^^^ (a / 2 ^ 16 % 65536) ^^^ (a / 2 ^ 32 % 65536) ^^^ (a / 2 ^ 48 % 65536)

/-- 11 R281: the TAG of a source. -/
def srcTag (sam src : Nat) : Nat :=
  if sam = 3 then ((src / 2 ^ 32) ^^^ (src % 2 ^ 32)) % 2 ^ 31 else 0x40000000 + src % 65536

/-! ### Time window -/

/-- 12 R296: network-time seconds. -/
def ntSeconds (s : State) : Nat := s.nt.toNat / 32000000

/-- 11 R280: the age d of an FCNT value, in seconds. -/
def fcntAge (s : State) (fcnt : Word) : Int :=
  Int.ofNat ((fcnt.toNat / 4096 + 2 ^ 20 + 2 ^ 19 - ntSeconds s % 2 ^ 20) % 2 ^ 20) - 2 ^ 19

/-- `LNK.REPLAYWIN` as it acts. -/
def replayWin (s : State) : Nat := clamp 8 512 (s.fld LNK.REPLAYWIN 9 0)

/-- 11 R281: whether an entry has expired. -/
def fcntExpired (s : State) (fcnt : Word) : Bool := decide (fcntAge s fcnt < -Int.ofNat (replayWin s))

/-- 11 R280: keys compare by seconds and then by sequence: whether the key of `a` lies below that of `b`. -/
def keyBelow (s : State) (a b : Word) : Bool :=
  decide (fcntAge s a < fcntAge s b) || (fcntAge s a == fcntAge s b && decide (a.toNat % 4096 < b.toNat % 4096))

/-- 11 R280: whether an FCNT passes the window. -/
def inWindow (s : State) (fcnt : Word) : Bool :=
  decide (fcntAge s fcnt ≤ Int.ofNat (replayWin s)) && !fcntExpired s fcnt

/-- 11 R280: whether the floor rejects an FCNT. -/
def underFloor (s : State) (fcnt : Word) : Bool := s.bit LNK.STATUS 2 && !keyBelow s (s.rd LNK.FLOOR) fcnt

/-- 11 R282: FLOOR rises to a key. -/
def raiseFloor (s : State) (key : Word) : State :=
  let s := if s.bit LNK.STATUS 2 ∧ ¬ keyBelow s (s.rd LNK.FLOOR) key then s else s.wr LNK.FLOOR key
  s.setBit LNK.STATUS 2 true

/-- 11 R284: FLOOR at the present network time, with sequence 0. -/
def floorNow (s : State) : State :=
  (s.wr LNK.FLOOR (BitVec.ofNat 32 (ntSeconds s % 2 ^ 20 * 4096))).setBit LNK.STATUS 2 true

/-! ### Seen cache -/

/-- Forms `LNK.SCSTAT`. -/
def scStat (s : State) : State := s.setFld LNK.SCSTAT 12 0 s.lnk.seen.length

/-- 11 R282: the address of a bucket of the extension. -/
def bucketAt (s : State) (fcnt : Word) (tag : Nat) : Nat :=
  s.fld LNK.SCEXT 31 12 * 4096 + 32 * ((tag ^^^ fcnt.toNat) % 16384)

/-- 11 R283: the extension is lost. -/
def extLost (s : State) (event : Bool) : State :=
  let s := (s.setBit LNK.CTRL 3 false).setBit LNK.STATUS 0 false
  let s := (s.setBit LNK.STATUS 1 false).wr LNK.SCEXTSTAT 0
  let s := match s.lnk.spilled with
    | some k => if fcntExpired s k then s else raiseFloor s k
    | none => s
  let s := s.upLnk (fun l => { l with spilled := none })
  if event then lnkEvent s 1 else s

/-- The four entries of a bucket, as numbers, if the extension answers. -/
def bucketRead (s : State) (a : Nat) : Option (List Nat) × State :=
  match engineRead s lnkInit a 32 true with
  | (some bs, s) => (some ((List.range 4).map (fun i => leNat ((bs.drop (8 * i)).take 8))), s)
  | (none, s) => (none, extLost s true)

/-- FCNT, TAG and V of a bucket entry (11 R282). -/
def entFcnt (e : Nat) : Word := BitVec.ofNat 32 e
def entTag (e : Nat) : Nat := e / 2 ^ 32 % 2 ^ 31
def entV (e : Nat) : Bool := testB e 63

/-- 11 R281: looks a source and FCNT up in the cache and, with EXTOK, in its extension. -/
def seenLookup (s : State) (fcnt : Word) (tag : Nat) : Bool × State :=
  if s.lnk.seen.any (fun e => e.1 == fcnt && e.2 == tag && !fcntExpired s fcnt) then (true, s)
  else if s.bit LNK.STATUS 0 then
    match bucketRead s (bucketAt s fcnt tag) with
    | (some es, s) => (es.any (fun e => entV e && entFcnt e == fcnt && entTag e == tag && !fcntExpired s fcnt), s)
    | (none, s) => (false, s)
  else (false, s)

/-- 11 R282: an unexpired entry is evicted: FLOOR rises to its key. -/
def evictSeen (s : State) (fcnt : Word) : State :=
  if fcntExpired s fcnt then s
  else lnkEvent ((raiseFloor s fcnt).bump LNK.CNTOVL 15 0 1) 0

/-- The entry with the lowest key of a list of (place, FCNT): the oldest (log 29). -/
def oldestOf (s : State) : List (Nat × Word) → Option (Nat × Word)
  | [] => none
  | x :: xs => match oldestOf s xs with
    | some y => if keyBelow s y.2 x.2 then some y else some x
    | none => some x

/-- 11 R282: a spilled entry goes into its bucket: into a free or expired place, else over the bucket's oldest entry. -/
def spillSeen (s : State) (fcnt : Word) (tag : Nat) : State :=
  if !s.bit LNK.STATUS 0 then evictSeen s fcnt
  else
    let a := bucketAt s fcnt tag
    match bucketRead s a with
    | (none, s) => evictSeen s fcnt
    | (some es, s) =>
      let free := (List.range 4).find? (fun i => !entV (es.getD i 0))
      let dead := (List.range 4).find? (fun i => fcntExpired s (entFcnt (es.getD i 0)))
      let place := match free, dead with
        | some i, _ => (i, none)
        | none, some i => (i, none)
        | none, none => match oldestOf s ((List.range 4).map (fun i => (i, entFcnt (es.getD i 0)))) with
          | some (i, k) => (i, some k)
          | none => (0, none)
      let s := match place.2 with | some k => evictSeen s k | none => s
      match engineWrite s lnkInit (a + 8 * place.1) (leBytes 8 (fcnt.toNat + 2 ^ 32 * tag + 2 ^ 63)) true with
      | (true, s) => evictSeen (extLost s true) fcnt
      | (false, s) =>
        let s := if free.isSome then s.wr LNK.SCEXTSTAT (BitVec.ofNat 32 (min 65536 (s.fld LNK.SCEXTSTAT 16 0 + 1))) else s
        s.upLnk (fun l => { l with spilled := match l.spilled with
          | some k => if keyBelow s k fcnt then some fcnt else some k
          | none => some fcnt })

/-- 11 R282: inserts a source and FCNT; expired entries leave first, and a full cache spills its oldest entry. -/
def seenInsert (s : State) (fcnt : Word) (tag : Nat) : State :=
  let s := s.upLnk (fun l => { l with seen := l.seen.filter (fun e => !fcntExpired s e.1) })
  let s := if s.lnk.seen.length < 4096 then s
    else match oldestOf s ((List.range s.lnk.seen.length).map (fun i => (i, (s.lnk.seen.getD i (0, 0)).1))) with
      | some (i, _) =>
        let e := s.lnk.seen.getD i (0, 0)
        spillSeen (s.upLnk (fun l => { l with seen := l.seen.eraseIdx i })) e.1 e.2
      | none => s
  scStat (s.upLnk (fun l => { l with seen := l.seen ++ [(fcnt, tag)] }))

/-- 11 R284: the node's own frame enters the cache at step 0 of its transmission, except ACK and WAKE. -/
def seenOwn (s : State) (mpdu : List Byte) : State :=
  match parseFrame mpdu with
  | some f => if f.type = 2 ∨ f.type = 4 then s else seenInsert s f.fcnt (srcTag f.sam f.src)
  | none => s

/-- FLOOR_EXPIRE (11 R282): FLOOR has expired under the replay window and FLOORACT clears. -/
def execFloorExpire (s : State) : Out :=
  if s.bit LNK.STATUS 2 ∧ fcntExpired s (s.rd LNK.FLOOR) then .next (s.setBit LNK.STATUS 2 false) else .next s

/-- Entries of the extension with their V bits clear; `i` counts the octets. -/
def clearV : List Byte → Nat → List Byte
  | [], _ => []
  | b :: bs, i => (if i % 8 = 7 then b &&& 0x7F else b) :: clearV bs (i + 1)

/-- EXT_CLEAR_DONE (11 R283): every V bit of the extension is clear; EXTOK and EXTREADY are set. -/
def execExtClearDone (s : State) : Out :=
  if s.bit LNK.STATUS 1 then
    let base := s.fld LNK.SCEXT 31 12 * 4096
    match engineRead s lnkInit base 524288 true with
    | (none, s) => .next (extLost s true)
    | (some bs, s) =>
      match engineWrite s lnkInit base (clearV bs 0) true with
      | (true, s) => .next (extLost s true)
      | (false, s) => .next (lnkEvent (((s.setBit LNK.STATUS 1 false).setBit LNK.STATUS 0 true).wr LNK.SCEXTSTAT 0) 6)
  else .next s

end Sys2Proof.Machine
end

