-- ==== Sys2Proof/Machine/Txc.lean ====
section
/-! DEFINITION. The transmit controller, the synthesiser, the tuner and live calibration (chapter 10). -/
namespace Sys2Proof.Machine
open Sys2Proof.Reg

/-- Changes the state behind the registers of TXC. -/
def State.upTxc (s : State) (f : Txc → Txc) : State := { s with txc := f s.txc }

/-- Changes the committed transmission. -/
def State.upJob (s : State) (f : TxJob → TxJob) : State := s.upTxc (fun t => { t with job := t.job.map f })

/-! ### Timing -/

/-- 10 R246: DELAY and ACTION of a step. -/
def stepDelay (w : Word) : Nat := bitsOf w 15 0
def stepAction (w : Word) : Nat := bitsOf w 23 20

/-- The sequence table. -/
def seqTable (s : State) : List Word := (List.range 8).map (fun i => s.rd (TXC.SEQ i))

/-- The position of the first step with an action. -/
def seqFind (t : List Word) (act : Nat) : Option Nat := (firstIdx (fun w => stepAction w == act) t 0).map (fun e => e.1)

/-- `TXC.RAMP` in ticks. -/
def rampTicks (s : State) : Nat := 32 * clamp 2 40 (s.fld TXC.RAMP 5 0)

/-- 10 R247: up to the first END, exactly one RAMP_UP, then one DATA, then one RAMP_DOWN, with the ramp inside DATA's delay; a
table without an END is not valid (log 30). -/
def seqValid (s : State) (t : List Word) : Bool :=
  match seqFind t 4 with
  | none => false
  | some e =>
    let u := t.take e
    let acts := (u.map stepAction).filter (fun a => a == 1 || a == 2 || a == 3)
    acts == [1, 2, 3] && (match u.find? (fun w => stepAction w == 2) with
      | some w => decide (rampTicks s ≤ stepDelay w)
      | none => false)

/-- 10 R246: the delays of the steps from `i` up to the DATA step. -/
def delaysToData (t : List Word) (i : Nat) : Nat :=
  match seqFind t 2 with
  | some d => (((t.take (d + 1)).drop i).map stepDelay).sum
  | none => 0

/-- The delays after DATA up to END. -/
def delaysAfterData (t : List Word) : Nat :=
  match seqFind t 2, seqFind t 4 with
  | some d, some e => (((t.take (e + 1)).drop (d + 1)).map stepDelay).sum
  | _, _ => 0

/-- 10 R245: HOPLEAD plus L, in ticks. -/
def txLead (s : State) : Nat := 32 * clamp 40 120 (s.fld TXC.HOPLEAD 6 0) + delaysToData (seqTable s) 1

/-- 10 R242: the instant within ±2^31 ticks of the present network time that has these low bits. -/
def instantOf (s : State) (low : Nat) : BitVec 64 :=
  s.nt + BitVec.ofInt 64 (sint 32 (low + 2 ^ 32 - s.nt.toNat % 2 ^ 32))

/-- The airtime of a transmission in ticks. -/
def jobTicks (j : TxJob) : Nat := frameTicks j.mode j.code j.pre j.mpdu.length

/-- 10 R246: the instant of a transmission's next step, in ticks of `uptime`: step 1 counts from HOPLEAD or the lock, the later of the two,
any other from the step before, the one after DATA from the end of the last symbol. -/
def stepDue (j : TxJob) : Nat :=
  (if j.step = 1 then max (j.inst + j.hop) j.lockAt else j.inst) + stepDelay (j.seq.getD j.step 0)

/-- Network time at an instant of `uptime` that has passed. -/
def ntAt (s : State) (t : Nat) : BitVec 64 := s.nt - BitVec.ofNat 64 (s.uptime - t)

/-- The earliest DATA instant of a candidate that commits now. -/
def dataInstant (s : State) (j : TxJob) : Nat := max j.start.toNat (s.nt.toNat + txLead s)

/-- 10 R245: the commit instant C of a candidate. -/
def commitInstant (s : State) (j : TxJob) : Nat := j.start.toNat - txLead s

/-- 10 R245: the projected end of a candidate. -/
def projectedEnd (s : State) (j : TxJob) : Nat := dataInstant s j + jobTicks j + delaysAfterData (seqTable s)

/-! ### Descriptors -/

/-- 10 R242, R243: what the fields of a descriptor ask for, with its PSDU not yet read; none where they break R242 or the mode does not
permit the code. -/
def txDescJob (s : State) (q a : Nat) (bs : List Byte) : Option TxJob :=
  let g := fun i n => leNat ((bs.drop i).take n)
  let mode := g 0 1
  let len := g 20 2
  let start := if testB (g 6 1) 0 then s.nt else instantOf s (g 8 4)
  let latest := instantOf s (g 12 4)
  let code := if mode ≤ 3 then requestCode (s.fld FEC.ENCCFG 10 0) (g 1 1) (len + 3) else g 1 1
  let top := if mode ≤ 3 then 1021 else if testB (g 1 1) 2 then 2045 else 2043
  let ok := decide (mode ≤ 6) && decide (g 3 1 ≤ 60) && decide (g 5 1 % 4 ≤ 2) && decide (g 7 1 < 128) &&
    decide (1 ≤ len) && decide (len ≤ top) && decide ((latest - start).toNat % 2 ^ 32 < 2 ^ 31) &&
    isScene (g 16 4) && isScene (g 16 4 + len - 1) &&
    (if mode ≤ 3 then decide (g 1 1 ≤ 3) && codePermitted mode code && decide (g 2 1 < 128) && decide (2 ≤ g 4 1) && decide (g 4 1 ≤ 30)
     else decide (4 ≤ g 4 1))
  let j : TxJob := { src := .queue q, desc := a, mode := mode, code := code, bin := g 2 1, pwr := g 3 1, pre := g 4 1, cls := g 5 1 % 4,
                     signal := testB (g 6 1) 1, replyq := g 7 1, start := start, latest := latest, mpdu := List.replicate len 0 }
  if ok then some j else none

/-- 10 R242 to R244: a transmit descriptor at the head of its queue: the transmission it asks for; or BAD_REQ (6) or SRC_ERR (8), with the
SIGNAL and REPLYQ of one that could be read. -/
def readTxDesc (s : State) (q a : Nat) : Sum (Nat × Bool × Nat) TxJob × State :=
  if a % 32 ≠ 0 ∨ isScene a = false then (.inl (6, false, 0), s)
  else match engineRead s lnkInit a 32 true with
    | (none, s) => (.inl (8, false, 0), s)
    | (some bs, s) =>
      let bad : Nat × Bool × Nat := (6, testB (bs.getD 6 0).toNat 1 && decide ((bs.getD 7 0).toNat < 128), (bs.getD 7 0).toNat)
      match translate s lnkInit .write a true with
      | (.ok _ _ _, s) => ((match txDescJob s q a bs with | some j => .inr j | none => .inl bad), s)
      | (_, s) => (.inl bad, s)

/-- 10 R244: writes TSTART, then STATUS, performs SIGNAL, and removes the entry from its queue. -/
def finishDescTx (s : State) (q a : Nat) (signal : Bool) (replyq code flags : Nat) (tstart : Word) : State :=
  let s := (engineWrite s lnkInit (a + 28) (leBytes 4 tstart.toNat) true).2
  let s := (engineWrite s lnkInit (a + 24) (leBytes 4 (code + 256 * flags)) true).2
  let s := s.when signal (fun s => (qEnq s replyq lnkInit (BitVec.ofNat 32 a)).2)
  qHandOut (s.upTxc (fun t => { t with heads := t.heads.filter (fun j => j.src != .queue q) })) q

/-- 10 R263: the event bit of a status code. -/
def txEventBit (code : Nat) : Option Nat :=
  match code with
  | 2 => some 0 | 4 => some 1 | 3 => some 2 | 10 => some 4 | 5 => some 5 | 9 => some 6 | _ => none

/-- The count and event of a completion. -/
def txCount (s : State) (code : Nat) : State :=
  let s := if code = 2 then s.bump TXC.CNT 15 0 1 else s.bump TXC.CNT 31 16 1
  match txEventBit code with
  | some b => txcEvent s b
  | none => s

/-! ### Relays and acknowledgements as candidates -/

/-- 11 R277: whether a buffer of the pool is in use: its element is not released, or a relay or a frame at its MIC needs it. -/
def bufBusy (s : State) (b : Nat) : Bool :=
  s.lnk.relays.any (fun r => r.buf == b) || s.lnk.mic.any (fun e => e.buf == some b) ||
  s.lnk.bufs.any (fun e => e.1 == b && (let q := e.2.1
    let n := qCount s q + qHeld s q + (s.stg.rel.filter (fun x => x.1 == q)).length
    decide ((e.2.2 + qEntries s q - qFree s q) % qEntries s q < n) && !s.stg.rel.contains (q, e.2.2)))

/-- 11 R294: forms POOLSTAT and RELAYS. -/
def lnkStat (s : State) : State :=
  let s := s.setFld LNK.POOLSTAT 9 0 ((List.range (s.fld LNK.POOLCFG 9 0)).filter (fun b => !bufBusy s b)).length
  s.setFld LNK.STATUS 13 8 (min 32 s.lnk.relays.length)

/-- 11 R279: a relay leaves the chorus engine: its held element is released. -/
def relayGone (s : State) (r : Relay) : State :=
  let s := s.upLnk (fun l => { l with relays := l.relays.filter (fun x => x != r) })
  let s := match r.elem with
    | some e => qReleaseHeld s e.1 e.2
    | none => s
  lnkStat s

/-- 11 R291: PEND of the acknowledgement of a source. -/
def pendOf (s : State) (key : Nat) (eui : Bool) : Bool :=
  match (List.range 256).find? (fun i => s.bit (LNK.PEND i) 31 && s.fld (LNK.PEND i) 15 0 == key && s.bit (LNK.PEND i) 16 == eui) with
  | some i => s.bit (LNK.PEND i) 17
  | none => false

/-- 11 R271: the MPDU of an acknowledgement. -/
def ackMpdu (s : State) (a : Ack) : List Byte :=
  leBytes 2 (2 + 512 * natBit (pendOf s a.srcKey a.srcEui)) ++ leBytes 4 a.fcnt.toNat

/-- 11 R289: an acknowledgement as a candidate; `desc` names the source it answers. -/
def ackJob (s : State) (a : Ack) : TxJob :=
  { src := .ack, desc := a.srcKey, mode := a.mode, code := a.code, bin := a.bin, pwr := min 60 (s.fld LNK.ACKCFG 5 0),
    pre := clamp 2 30 (s.fld LNK.TXPRE 4 0), cls := min 1 (s.fld LNK.ACKCFG 13 12), start := a.start,
    latest := a.start + 1600, mpdu := ackMpdu s a }

/-- 11 R285: a relay as a candidate; `desc` names its buffer, which no other pending relay has. -/
def relayJob (s : State) (r : Relay) : TxJob :=
  { src := .relay, desc := r.buf, mode := r.mode, code := r.code, bin := r.bin, pwr := min 60 (s.fld LNK.RELAYCFG 5 0),
    pre := clamp 2 30 (s.fld LNK.TXPRE 12 8), cls := min 2 (s.fld LNK.RELAYCFG 13 12), start := r.start,
    latest := r.start + 64000, mpdu := r.mpdu }

/-- 12 R315: whether HOLDQ holds the head of a TX queue now. -/
def queueHeld (s : State) (q : Nat) : Bool :=
  let st := s.fld LNK.NTSTAT 2 0
  (st == 0 || st == 4 || st == 5) && s.bit LNK.BCNCFG (8 + (q - 64))

/-- The committed transmission ends before or after its sequence: the completion of its source. -/
def txComplete (s : State) (j : TxJob) (code : Nat) : State :=
  let s := txCount s code
  match j.src with
  | .queue q => finishDescTx s q j.desc j.signal j.replyq code (natBit j.clamped + 2 * natBit j.mask + 4 * natBit j.trunc) j.tstart
  | .ack =>
    let s := s.upLnk (fun l => { l with acks := l.acks.eraseP (fun a => a.srcKey == j.desc && leBytes 4 a.fcnt.toNat == j.mpdu.drop 2) })
    if code = 2 then s.bump LNK.CNTACK 15 0 1 else lnkEvent (s.bump LNK.CNTACK 31 16 1) 3
  | .relay =>
    match s.lnk.relays.find? (fun r => r.offered && r.buf == j.desc) with
    | some r => relayGone (if code = 2 then s.bump LNK.CNTRLY 15 0 1 else s.bump LNK.CNTRLYD 31 16 1) r
    | none => s

/-- 10 R243: the head of a TX queue, checked once, when it has reached the head: none when the queue has none; else the descriptor that fails its
check, with its code and SIGNAL, or the transmission. -/
def headJob (s : State) (q : Nat) : Option (Sum (Nat × Nat × Bool × Nat) TxJob) × State :=
  match qPeek s q with
  | (none, s) => (none, s)
  | (some w, s) =>
    match s.txc.heads.find? (fun j => j.src == .queue q && j.desc == w.toNat) with
    | some j => (some (.inr j), s)
    | none => match readTxDesc s q w.toNat with
      | (.inl c, s) => (some (.inl (w.toNat, c)), s)
      | (.inr j, s) => (some (.inr j), s.upTxc (fun t => { t with heads := j :: t.heads.filter (fun x => x.src != .queue q) }))

/-- The TX queues by precedence. -/
def txQueues : List Nat := [71, 70, 69, 68, 67, 66, 65, 64]

/-- 10 R243, R245, R250: heads that fail their check, and candidates that can no longer meet LATEST, complete; what is left are the
candidates by precedence.  A head that HOLDQ holds is none, and completes LATE only when its LATEST has passed. -/
def txCandidates (s : State) : List TxJob × State :=
  let r := s.lnk.acks.foldl (fun (acc : List TxJob × State) a =>
    let j := ackJob acc.2 a
    if j.latest.toNat < dataInstant acc.2 j then (acc.1, txComplete acc.2 j 4) else (acc.1 ++ [j], acc.2)) (([] : List TxJob), s)
  let r := (r.2.lnk.relays.filter (fun x => x.offered)).foldl (fun (acc : List TxJob × State) x =>
    let j := relayJob acc.2 x
    if j.latest.toNat < dataInstant acc.2 j then (acc.1, txComplete acc.2 j 4) else (acc.1 ++ [j], acc.2)) r
  txQueues.foldl (fun (acc : List TxJob × State) q =>
    match headJob acc.2 q with
    | (none, s) => (acc.1, s)
    | (some (.inl (a, c, sig, rq)), s) => (acc.1, finishDescTx (txCount s c) q a sig rq c 0 0)
    | (some (.inr j), s) =>
      if queueHeld s q then (acc.1, if j.latest.toNat < s.nt.toNat then txComplete s j 4 else s)
      else if j.latest.toNat < dataInstant s j then (acc.1, txComplete s j 4)
      else (acc.1 ++ [j], s)) r

/-- 10 R245: the candidate to commit: the first whose C has arrived and whose end passes no C of a candidate before it. -/
def txChoose (s : State) : List TxJob → List TxJob → Option TxJob
  | _, [] => none
  | before, j :: js =>
    if commitInstant s j ≤ s.nt.toNat ∧ before.all (fun h => decide (projectedEnd s j ≤ commitInstant s h)) then some j
    else txChoose s (before ++ [j]) js

/-- 10 R245: the acknowledgements and relays that fell due during a transmission that has now ended fail with LATE. -/
def dueFail (s : State) : State :=
  let due := fun (s : State) (j : TxJob) => decide (commitInstant s j < s.nt.toNat)
  let s := s.lnk.acks.foldl (fun (s : State) a => if due s (ackJob s a) then txComplete s (ackJob s a) 4 else s) s
  (s.lnk.relays.filter (fun r => r.offered)).foldl (fun (s : State) r =>
    if due s (relayJob s r) then txComplete s (relayJob s r) 4 else s) s

/-- A committed transmission is over. -/
def txDone (s : State) (j : TxJob) (code : Nat) : State := dueFail (txComplete s j code)

/-! ### The sequence -/

/-- The number of `TXC.STATUS.STATE`. -/
def setTxState (s : State) (n : Nat) : State := s.setFld TXC.STATUS 2 0 n

/-- 10 R241: the carrier of a transmission. -/
def carrierHz (s : State) (j : TxJob) : Nat :=
  if j.mode ≤ 3 then (channelHz s j.bin).toNat else bitsOf s.rxc.sun 29 0

/-- 10 R254: whether the enabled OFFSETs of the mask, by index, are strictly ascending. -/
def maskAscends (s : State) : Bool :=
  let on := (below 32 (fun b => s.bit (TXC.MASK b) 31)).map (fun b => sint 16 (s.fld (TXC.MASK b) 15 0))
  (List.zipWith (fun a b => decide (a < b)) on (on.drop 1)).all (fun x => x)

/-- 10 R254: the enabled entries of the mask: OFFSET and LIMIT. -/
def maskLimits (s : State) : List (Int × Nat) :=
  (below 32 (fun b => s.bit (TXC.MASK b) 31)).map (fun b => (sint 16 (s.fld (TXC.MASK b) 15 0), s.fld (TXC.MASK b) 24 16))

/-- The PA goes off at an instant, `down` ticks of ramp behind it: the microseconds since its ramp began. -/
def paOff (s : State) (j : TxJob) (at_ down : Nat) : State :=
  match j.paOn with
  | some t => (s.bump TXC.AIRTIME 31 0 ((at_ - t + down) / 32)).upJob (fun j => { j with paOn := none })
  | none => s

/-- 10 R246, R252, R258: END: the pins return to FEMIDLE, the paths asked for become active, a trial step not judged is reverted and a
waiting tuner write applied, the synthesiser returns, and the transmission completes. -/
def txEnd (s : State) (j : TxJob) (code : Nat) : State :=
  let s := paOff s j s.uptime 0
  let s := match s.txc.trialFrom with | some w => s.wr RFE.TUNE w | none => s
  let s := s.upTxc (fun t => { t with job := none, fem := none, path := bitsOf (s.rd RFE.CTRL) 1 0, trialFrom := none })
  let s := match s.txc.tuneWait with
    | some w => (s.wr RFE.TUNE w).upTxc (fun t => { t with tuneWait := none })
    | none => s
  let s := (setTxState s 0).setBit TXC.STATUS 4 false
  txDone (retune s (receiveLo s)) j code

/-! ### The waveform -/

/-- 10 R253: the taps of a set, signed Q1.11. -/
def firTaps (ws : List Word) : List Int := ws.flatMap (fun w => [sint 12 (bitsOf w 11 0), sint 12 (bitsOf w 27 16)])

/-- 09 R215, 10 R241: the symbols of a frame as impulses at 8 samples per symbol; the Q rail of OQPSK comes half a symbol later. -/
def txImpulses (mode : Nat) (bits : List Bool) : List (Int × Int) :=
  if 4 ≤ mode then (sunSymbolsOf mode bits).flatMap (fun f => (f, 0) :: List.replicate 7 (0, 0))
  else if mode = 3 then
    (cnbSymbols mode bits).zipIdx.flatMap (fun x => (if x.2 % 2 = 0 then (x.1.1, 0) else (0, x.1.2)) :: List.replicate 3 (0, 0))
  else (cnbSymbols mode bits).flatMap (fun x => x :: List.replicate 7 (0, 0))

/-- 10 R253: sample `n` of the shaped frame. -/
def firSample (taps : List Int) (x : List (Int × Int)) (n : Nat) : Int × Int :=
  (List.range (min (n + 1) taps.length)).foldl (fun (a : Int × Int) k =>
    let v := x.getD (n - k) (0, 0)
    (a.1 + taps.getD k 0 * v.1, a.2 + taps.getD k 0 * v.2)) (0, 0)

/-- 10 R256: the gain and phase of a table pair at an amplitude in 1/2,048 of full scale: entry i stands at (i + 0.5) / 64, with linear
interpolation between entries (log 120). -/
def dpdAt (tab : List Word) (amp : Nat) : Nat × Int :=
  let i := min 62 ((amp - 16) / 32)
  let x := clamp (32 * i + 16) (32 * i + 48) amp - (32 * i + 16)
  let gain := fun k => bitsOf (tab.getD k 0x4000) 15 0
  let phase := fun k => sint 16 (bitsOf (tab.getD k 0x4000) 31 16)
  ((gain i * (32 - x) + gain (i + 1) * x) / 32, (phase i * (32 - Int.ofNat x) + phase (i + 1) * Int.ofNat x) / 32)

/-- 10 R241, R253, R256: the samples of a frame: shaped, with what predistortion gives each; without its pair it is bypassed. -/
def txWave (j : TxJob) (bits : List Bool) : List TxSample :=
  let x := txImpulses j.mode bits
  let taps := firTaps j.fir
  (List.range (x.length + taps.length)).map (fun n =>
    let v := firSample taps x n
    let amp := if 4 ≤ j.mode then 2048 else Nat.sqrt (v.1 * v.1 + v.2 * v.2).toNat
    let d := match j.dpd with | some t => dpdAt t amp | none => (0x4000, 0)
    { i := v.1, q := v.2, gain := d.1, phase := d.2 })

/-- 10 R241: the bits of a transmission's frame. -/
def txBits (s : State) (j : TxJob) : List Bool :=
  if j.mode ≤ 3 then frameBits j.mode j.code j.pre j.syncw.toNat j.mpdu
  else sunBits j.mode j.code j.pre (testB s.rxc.sunCfg.toNat 2) (testB s.rxc.sunCfg.toNat 3) j.mpdu

/-! ### Steps -/

/-- 10 R256: the power band of a PWR code. -/
def powerBand (pwr : Nat) : Nat := if pwr ≤ 23 then 0 else if pwr ≤ 39 then 1 else if pwr ≤ 49 then 2 else 3

/-- 10 R246: performs one step of the table at its instant: pins, bias and action. -/
def txStep (s : State) (j : TxJob) (i due : Nat) (pdet : Nat) : State :=
  let w := j.seq.getD i 0
  let fem : Word := BitVec.ofNat 32 (bitsOf w 18 16 + 256 * bitsOf w 31 24)
  let s := (s.upTxc (fun t => { t with fem := some fem })).upJob (fun j => { j with step := i + 1, inst := due })
  match stepAction w with
  | 1 => (setTxState s 3).upJob (fun j => { j with paOn := some due })
  | 2 =>
    let bits := txBits s j
    let s := s.upTxc (fun t => { t with bits := bits, wave := txWave j bits })
    (setTxState (s.setBit TXC.STATUS 4 false) 4).upJob (fun j => { j with data := true, tstart := BitVec.ofNat 32 (ntAt s due).toNat })
  | 3 => (setTxState (paOff s j due (rampTicks s)) 5)
  | 4 => txEnd s j (j.result.getD 2)
  | 5 => (s.setFld RFE.PDET 11 0 pdet).setFld RFE.PDET 31 16 ((ntAt s due).toNat % 65536)
  | _ => s

/-- 10 R243, R246, R247, R250, R254, R256: step 0: a table that is not valid ends the transmission with BAD_SEQ before it; else the tables are
sampled, the power limited, the receiver blanked, and the hop begins. -/
def txStepZero (s : State) (j : TxJob) : State :=
  if !seqValid s (seqTable s) then txDone (setTxState (s.upTxc (fun t => { t with job := none })) 0) j 7 else
  let low := decide (s.fld PWR.VBAT 11 0 < 2000)
  let clampIt := low && decide (52 < j.pwr)
  let held := !s.bit RFE.STATUS 0 || s.bit RFE.STATUS 1
  let s := s.setBit TXC.STATUS 6 low
  let s := s.when clampIt (fun s => rfeEvent s 2)
  let s := s.setBit TXC.STATUS 5 (!maskAscends s)
  let s := match j.src with | .queue _ => seenOwn s j.mpdu | _ => s
  let r := transmissionBegins s
  let pwr := if clampIt then 52 else j.pwr
  let band := powerBand pwr
  let j := { j with begun := true, seq := seqTable s, hop := 32 * clamp 40 120 (s.fld TXC.HOPLEAD 6 0), syncw := s.rd FEC.SYNCW,
                    fir := (List.range 24).map (fun i => s.rd (TXC.FIR j.mode i)),
                    dpd := if s.bit CAL.CTRL (5 + band) then some ((List.range 64).map (fun i => s.rd (CAL.DPD band i))) else none,
                    limits := maskLimits s, pwr := pwr, clamped := clampIt, trunc := r.1 }
  let s := r.2.upTxc (fun t => { t with job := some j })
  let s := (retune s (carrierHz s j)).setBit TXC.STATUS 4 held
  txStep (setTxState s 2) j 0 s.uptime 0

/-- 10 R248: whether the CCA of an enabled demodulator on a bin reads busy. -/
def binBusy (s : State) (bin : Nat) : Bool := (List.range 64).any (fun n => demodOn s n && demodBin s n == bin && ccaBusy s n)
/-- 10 R242, R248: whether class CCA finds its bin busy; a SUN-FSK transmission has no bin. -/
def carrierBusy (s : State) (j : TxJob) : Bool := decide (j.mode ≤ 3) && binBusy s j.bin
/-- 10 R248: whether class DEFER or CCA waits now: BUSYCNT, and for CCA its bin. -/
def txWaits (s : State) (j : TxJob) : Bool :=
  (j.cls == 1 && busyCnt s != 0) || (j.cls == 2 && (busyCnt s != 0 || carrierBusy s j))

/-- The number of a source in `TXC.STATUS.SOURCE`. -/
def txSourceNo : TxSrc → Nat
  | .ack => 0 | .relay => 1 | .queue q => q

/-- 10 R244 to R248, 11 R285: commits a candidate: ACTIVE, the PSDU is read, the table checked; then it defers or runs step 0. -/
def txCommit (s : State) (j : TxJob) : State :=
  let s := s.setFld TXC.STATUS 15 8 (txSourceNo j.src)
  let s := match j.src with
    | .relay => s.upLnk (fun l => { l with spent := if s.fld LNK.RELAYCFG 23 20 = 0 then l.spent else l.spent + 16 * jobTicks j })
    | _ => s
  let r : Option (List Byte) × State := match j.src with
    | .queue _ =>
      let s := (engineWrite s lnkInit (j.desc + 24) (leBytes 4 1) true).2
      match engineRead s lnkInit (j.desc + 16) 4 true with
      | (some bs, s) => engineRead s lnkInit (leNat bs) j.mpdu.length true
      | (none, s) => (none, s)
    | _ => (some j.mpdu, s)
  match r.1 with
  | none => txComplete r.2 j 8
  | some bs =>
    let j := { j with mpdu := bs }
    if !seqValid r.2 (seqTable r.2) then txComplete r.2 j 7
    else
      let s := r.2.upTxc (fun t => { t with job := some j })
      if txWaits s j then setTxState s 1 else txStepZero s j

/-- 10 R248: C_last of a candidate. -/
def lastCommit (s : State) (j : TxJob) : Nat := j.latest.toNat - txLead s

/-- 10 R250: a transmission whose DATA would now fall after LATEST, or whose lock is missing, ends without a ramp: the pins
return to FEMIDLE and END follows.  A PA that the table has ramped before DATA goes off with it. -/
def txGiveUp (s : State) (j : TxJob) (code : Nat) : State := txEnd s j code

/-- 10 R250, R252: ends a transmission whose DATA has begun, or whose PA has ramped: RAMP_DOWN at once, then the table from END. -/
def txCutShort (s : State) (j : TxJob) (code : Nat) : State :=
  let s := setTxState (paOff s j s.uptime (rampTicks s)) 5
  s.upJob (fun j => { j with result := some code, after := true, dur := s.uptime - j.inst, step := (seqFind j.seq 4).getD 7, inst := s.uptime })

/-- 10 R252: ABORT, or EN cleared. -/
def txAbort (s : State) : State :=
  match s.txc.job with
  | none => s
  | some j =>
    if !j.begun then
      txDone (setTxState (s.upTxc (fun t => { t with job := none })) 0) j 9
    else if j.data then (if j.result.isSome then s else txCutShort s j 9)
    else txGiveUp s j 9

/-! ### Commands -/

/-- TX_COMMIT (10 R245): commits the candidate of highest precedence whose C has arrived, if one may be. -/
def execTxCommit (s : State) : Out :=
  if s.bit TXC.CTRL 0 ∧ s.txc.job.isNone then
    let r := txCandidates s
    match txChoose r.2 [] r.1 with
    | some j => .next (txCommit r.2 j)
    | none => .next r.2
  else .next s

/-- TX_DEFER_END (10 R248): a deferring candidate finds the channel free and runs step 0. -/
def execTxDeferEnd (s : State) : Out :=
  match s.txc.job with
  | some j => if !j.begun && !txWaits s j then .next (txStepZero s j) else .next s
  | none => .next s

/-- TX_DEFER_DEADLINE (10 R248): at C_last a deferring candidate starts with truncation; class CCA with its bin busy fails with
CHANNEL_BUSY. -/
def execTxDeferDeadline (s : State) : Out :=
  match s.txc.job with
  | some j =>
    if j.begun ∨ s.nt.toNat < lastCommit s j then .next s
    else if j.cls = 2 ∧ carrierBusy s j then
      .next (txDone (setTxState (s.upTxc (fun t => { t with job := none })) 0) j 5)
    else .next (txStepZero s j)
  | none => .next s

/-- TX_SEQUENCE_STEP (10 R246): the next step, at its instant: step 1 needs the lock, the step after DATA the last symbol.  Before that instant
nothing happens.  `pdet` is what FEM_PDET shows. -/
def execTxSequenceStep (pdet : BitVec 12) (s : State) : Out :=
  match s.txc.job with
  | some j =>
    let atData := j.data && !j.after
    if !j.begun || atData || (j.step == 1 && !s.bit RFE.STATUS 0 && j.result.isNone) || decide (s.uptime < stepDue j) then .next s
    else .next (txStep s j j.step (stepDue j) pdet.toNat)
  | none => .next s

/-- 10 R254: the limit at an offset in half kHz, in half dB below the reference as a fraction; none outside the enabled range. -/
def maskLimit : List (Int × Nat) → Int → Option (Int × Int)
  | [], _ => none
  | [(o, l)], x => if x = 2 * o then some (-(Int.ofNat l), 1) else none
  | (o, l) :: (p, k) :: rest, x =>
    if 2 * o ≤ x ∧ x ≤ 2 * p then some (-(Int.ofNat l * (2 * p - x) + Int.ofNat k * (x - 2 * o)), 2 * p - 2 * o)
    else maskLimit ((p, k) :: rest) x

/-- 10 R254: the excess of bin `i` of a spectrum, in half dB rounded up (log 119), with its offset in half kHz; a bin at the floor of −70 dBc has
none. -/
def binExcess (lim : List (Int × Nat)) (ref : Int) (i : Nat) (v : Int) : Option (Nat × Int) :=
  let x : Int := 25 * (Int.ofNat i - 128)
  match maskLimit lim x with
  | some (n, d) => if v - ref ≤ -140 ∨ (v - ref) * d ≤ n then none else some ((((v - ref) * d - n + d - 1) / d).toNat, x)
  | none => none

/-- 10 R254: the largest excess of a spectrum over the sampled mask; the reference is its strongest bin. -/
def worstExcess (lim : List (Int × Nat)) (spectrum : List Int) : Option (Nat × Int) :=
  let ref := spectrum.foldl max (spectrum.headD 0)
  (spectrum.take 256).zipIdx.foldl (fun (w : Option (Nat × Int)) e =>
    match binExcess lim ref e.2 e.1, w with
    | some a, some b => if b.1 < a.1 then some a else some b
    | some a, none => some a
    | none, w => w) none

/-- 10 R254: what the mask monitor does with a frame. -/
def maskMonitor (s : State) (j : TxJob) (x : TxMeas) : State :=
  let s := s.bump TXC.MASKSTAT 31 16 1
  match worstExcess j.limits x.spectrum with
  | none => s
  | some (e, o) =>
    let s := (s.bump TXC.MASKSTAT 15 0 1).upJob (fun j => { j with mask := true })
    let s := if s.fld TXC.MASKWORST 24 16 < e then (s.setFld TXC.MASKWORST 24 16 (min 511 e)).setFld TXC.MASKWORST 15 0 (unsint 16 (o / 2)) else s
    txcEvent s 3

/-- 10 R257: |Γ| of a transmission through RFIO at PWR 20 or more. -/
def reflect (s : State) (j : TxJob) (gamma : Nat) : State :=
  if j.pwr < 20 ∨ testB s.txc.path 1 then s
  else
    let s := (s.setFld RFE.TUNESTAT 7 0 gamma).raise RFE.TUNESTAT 15 8 gamma
    s.when (decide (s.fld RFE.TUNECFG 7 0 < gamma)) (fun s => rfeEvent s 0)

/-- 10 R259: what CAL learns from a transmission whose DATA lasted MINDUR. -/
def calFromTx (s : State) (j : TxJob) (x : TxMeas) : State :=
  let s := s.when (s.bit CAL.CTRL 3) (fun s => (s.wr CAL.TXLO x.txlo).setBit CAL.STATUS 3 true)
  let s := s.when (s.bit CAL.CTRL 4) (fun s => (s.wr CAL.TXIQ x.txiq).setBit CAL.STATUS 4 true)
  let b := powerBand j.pwr
  s.when (s.bit CAL.CTRL (5 + b)) (fun s =>
    ((List.range (min 64 x.dpd.length)).foldl (fun (s : State) i => s.wr (CAL.DPD b i) (x.dpd.getD i 0)) s).setBit CAL.STATUS (5 + b) true)

/-- 10 R254, R266: whether DATA of some ticks lasts at least MINDUR. -/
def longEnough (s : State) (ticks : Nat) : Bool := decide (32000 * orIfZero 1 (s.fld CAL.CFG 7 0) ≤ ticks)

/-- 10 R254, R257, R259: what the coupler found over the DATA of a transmission that lasted some ticks. -/
def txMeasured (s : State) (j : TxJob) (x : TxMeas) (ticks : Nat) : State :=
  let s := reflect (s.upJob (fun j => { j with measured := true })) j x.gamma.toNat
  if longEnough s ticks then calFromTx (if s.bit TXC.STATUS 5 then s else maskMonitor s j x) j x else s

/-- TX_LAST_SYMBOL (10 R246, R254, R257, R259): the last symbol ends; `x` is what the coupler found.  Of a transmission cut short it brings
what was found up to then. -/
def execTxLastSymbol (x : TxMeas) (s : State) : Out :=
  match s.txc.job with
  | some j =>
    if j.data ∧ ¬ j.after then
      if s.uptime < j.inst + jobTicks j then .next s
      else .next (txMeasured (s.upJob (fun j => { j with after := true, result := some 2, inst := j.inst + jobTicks j })) j x (jobTicks j))
    else if j.data ∧ ¬ j.measured then .next (txMeasured s j x j.dur)
    else .next s
  | none => .next s

/-- 10 R250: the instant of `uptime` at which DATA is now projected. -/
def dataDue (s : State) (j : TxJob) : Nat :=
  (if j.step ≤ 1 then max (j.inst + j.hop) (if s.bit RFE.STATUS 0 then j.lockAt else s.uptime) else j.inst) + delaysToData j.seq (max 1 j.step)

/-- 10 R250: whether the DATA instant is now projected after LATEST. -/
def projectedLate (s : State) (j : TxJob) : Bool :=
  j.begun && !j.data && decide (j.latest.toNat + s.uptime < s.nt.toNat + dataDue s j)

/-- TX_LATE (10 R250): the DATA instant is projected after LATEST; the PA is not ramped. -/
def execTxLate (s : State) : Out :=
  match s.txc.job with
  | some j => if projectedLate s j then .next (txGiveUp s j 4) else .next s
  | none => .next s

/-- SYNTH_LOCK (10 R249, R259): the synthesiser locks unless a calibration runs; `drift` tells that the tuning voltage lies outside
the safe window.  Without a transmission the receiver becomes ready (08 R197). -/
def execSynthLock (drift : Bool) (s : State) : Out :=
  if s.bit RFE.STATUS 1 then .next s
  else
    let s := s.setBit RFE.STATUS 0 true
    let s := s.when (s.bit CAL.CTRL 9) (fun s => (s.setBit CAL.STATUS 9 true).when drift (fun s => s.setBit RFE.STATUS 2 true))
    .next (match s.txc.job with
      | none => receiverReady s
      | some j => s.when (j.begun && decide (j.step ≤ 1)) (fun s => s.upJob (fun j => { j with lockAt := s.uptime })))

/-- 10 R263: `TXC.LOCKTMO` in ticks. -/
def lockTimeout (s : State) : Nat := 32 * max 20 (s.fld TXC.LOCKTMO 9 0)

/-- SYNTH_LOCK_TIMEOUT (10 R250): no lock by LOCKTMO: LOCK_TIMEOUT, or LATE where that holds in the same clock. -/
def execSynthLockTimeout (s : State) : Out :=
  match s.txc.job with
  | some j =>
    if j.begun ∧ ¬ s.bit RFE.STATUS 0 ∧ j.step ≤ 1 ∧ j.inst + lockTimeout s ≤ s.uptime then .next (txGiveUp s j (if projectedLate s j then 4 else 3)) else .next s
  | none => .next s

/-- SYNTH_LOCK_LOST (10 R250, R265): the lock is lost; a transmission after step 0 ramps down and ends LOCK_LOST. -/
def execSynthLockLost (s : State) : Out :=
  if ¬ s.bit RFE.STATUS 0 then .next s
  else
    let s := rfeEvent (s.setBit RFE.STATUS 0 false) 1
    match s.txc.job with
    | some j => if j.begun ∧ j.result.isNone then .next (txCutShort s j 10) else .next s
    | none => .next s

/-- VCO_CALIBRATION_DONE (10 R249): the band is calibrated; a target more than 10 MHz away calibrates again. -/
def execVcoCalibrationDone (s : State) : Out :=
  if s.bit RFE.STATUS 1 then
    let hz := s.fld RFE.LOFREQ 29 0
    let b := s.cal.calAt
    let s := (s.setBit RFE.STATUS 2 false).upCal (fun c => { c with band := b, calAt := hz })
    .next (s.setBit RFE.STATUS 1 (decide (b + 10000000 < hz) || decide (hz + 10000000 < b)))
  else .next s

/-- 10 R257: one bank of the tuner setting. -/
def tuneBank (w : Word) (b : Nat) : Nat := bitsOf w (8 * b + 5) (8 * b)

/-- 10 R258: whether a trial step is made on this transmission. -/
def trialDue (s : State) (j : TxJob) : Bool :=
  s.bit RFE.TUNE 31 && !testB s.txc.path 1 && decide (20 ≤ j.pwr) && longEnough s (jobTicks j) && j.data && !j.after && !j.tried

/-- TUNER_TRIAL_STEP (10 R257, R258): at the midpoint of DATA, |Γ| measured, one bank steps by one, once in a transmission; a step at a bank
limit is skipped. -/
def execTunerTrialStep (gamma : BitVec 8) (s : State) : Out :=
  match s.txc.job with
  | some j =>
    if trialDue s j ∧ s.txc.trialFrom.isNone then
      let b := s.txc.trial / 2
      let down := s.txc.trial % 2 == 1
      let w := s.rd RFE.TUNE
      let v := tuneBank w b
      let s := reflect (s.upJob (fun j => { j with tried := true })) j gamma.toNat
      let s := s.upTxc (fun t => { t with trial := (t.trial + 1) % 6, gamma := gamma.toNat })
      if (down ∧ v = 0) ∨ (¬ down ∧ v = 63) then .next s
      else .next ((s.setFld RFE.TUNE (8 * b + 5) (8 * b) (if down then v - 1 else v + 1)).upTxc (fun t => { t with trialFrom := some w }))
    else .next s
  | none => .next s

/-- TUNER_TRIAL_JUDGE (10 R257, R258): |Γ| is measured; the step is kept if |Γ| fell by HYST, and counted; otherwise it is reverted. -/
def execTunerTrialJudge (gamma : BitVec 8) (s : State) : Out :=
  match s.txc.trialFrom with
  | some w =>
    let s := s.upTxc (fun t => { t with trialFrom := none })
    let s := match s.txc.job with | some j => reflect s j gamma.toNat | none => s
    if gamma.toNat + orIfZero 1 (s.fld RFE.TUNECFG 15 8) ≤ s.txc.gamma ∧ s.txc.tuneWait.isNone then .next (s.bump RFE.TUNESTAT 31 16 1)
    else .next (s.wr RFE.TUNE w)
  | none => .next s

/-- CAL_PENDING_APPLY (10 R259, R261): with BUSYCNT = 0 the pending RX values are applied. -/
def execCalPendingApply (s : State) : Out :=
  if busyCnt s ≠ 0 then .next s
  else
    let s := match s.cal.dc with | some w => (s.wr CAL.RXDC w).setBit CAL.STATUS 0 true | none => s
    let s := match s.cal.iq with | some w => (s.wr CAL.RXIQ w).setBit CAL.STATUS 1 true | none => s
    .next (s.upCal (fun c => { c with dc := none, iq := none }))

/-- 10 R259: the trim entry nearest a temperature in 0.25 °C: entry i stands at −40 + 9 × i °C. -/
def trimIndex (t : Int) : Nat := clamp 0 15 ((t + 160 + 18) / 36).toNat

/-- 10 R259, 18 R454: the error of XO32 with CAP = 16, in ppb: as measured against HFXO, corrected by the crystal estimate and by the present
CAP. -/
def trimEntry (s : State) (meas : Int) : Int :=
  meas + xtalApplied s + Int.ofNat (s.fld RTC.CAPSTEP 11 0) * (Int.ofNat (s.fld RTC.TRIM 20 16) - 16)

/-- RTC_TRIM_LEARN (10 R259, 18 R454): with HFXO running CAL writes the trim entry nearest the die temperature; `meas` is the error of XO32
against HFXO in ppb. -/
def execRtcTrimLearn (temp : BitVec 16) (meas : BitVec 24) (s : State) : Out :=
  if s.bit CLK.STATUS 1 then
    let s := s.setFld CAL.TEMP 15 0 temp.toNat
    if s.bit CAL.CTRL 10 then
      let i := trimIndex temp.toInt
      .next (((s.setFld (RTC.TTAB i) 23 0 (unsint 24 (trimEntry s meas.toInt))).setBit (RTC.TTAB i) 31 true).setBit CAL.STATUS 10 true)
    else .next s
  else .next s

/-! ### Pins -/

/-- 10 R246, R263, 18: whether a front-end pin (0 TXEN, 1 RXEN, 2 BYP) is high: the sequence sets it, outside one FEMIDLE, behind the inversion
of FEMINV; without RADIO it holds that level. -/
def femLevel (s : State) (pin : Nat) : Bool :=
  testB (s.txc.fem.getD (s.rd TXC.FEMIDLE)).toNat pin != s.bit TXC.FEMINV pin

/-- 10 R246, 18: the code of `FEM_BIAS`, 1.8 V × code / 255; 0 V without RADIO. -/
def femBias (s : State) : Nat := if s.dom Dom.radio = .on then bitsOf (s.txc.fem.getD (s.rd TXC.FEMIDLE)) 15 8 else 0

/-! ### Register writes -/

/-- 10 R252, R263: a write of `TXC.CTRL`. -/
def txcCtrlWrite (s : State) (v : Word) : State :=
  let s := s.wr TXC.CTRL (v &&& 1)
  if testB v.toNat 1 ∨ ¬ testB v.toNat 0 then txAbort s else s

/-- 10 R265: a write of `RFE.CTRL`; a path takes effect at once while nothing is committed. -/
def rfeCtrlWrite (s : State) (v : Word) : State :=
  let s := s.wr RFE.CTRL (v &&& 3)
  let s := s.when (testB v.toNat 2) (fun s => s.setBit RFE.STATUS 2 true)
  if s.txc.job.isNone then s.upTxc (fun t => { t with path := v.toNat % 4 }) else s

/-- 10 R258: a write of `RFE.TUNE`: during DATA it is applied after the frame. -/
def rfeTuneWrite (s : State) (v : Word) : State :=
  let v := v &&& 0x803F3F3F
  match s.txc.job with
  | some j => if j.data then s.upTxc (fun t => { t with tuneWait := some v }) else s.wr RFE.TUNE v
  | none => s.wr RFE.TUNE v

/-- 10 R266: a write of `CAL.XTAL` sets its status bit. -/
def calXtalWrite (s : State) (v : Word) : State := (s.wr CAL.XTAL (v &&& 0xFFFFFF)).setBit CAL.STATUS 2 true

/-- 10 R265: a read of `RFE.TUNESTAT` restarts the maximum. -/
def tuneStatRead (s : State) : State := s.setFld RFE.TUNESTAT 15 8 0

/-! ### The crystal estimate -/

/-- 10 R260: how a sample names its source: above every address where LNK reports none. -/
def noSource : Nat := 2 ^ 64

/-- 10 R260: the distinct sources of a window. -/
def distinctCount (l : List (Nat × Int)) : Nat :=
  (l.foldl (fun (acc : List Nat) e => if e.1 < noSource then addOnce acc e.1 else acc) []).length

/-- 10 R260: keeps at most 4 samples of one source and 32 in all, newest first (log 121). -/
def keepSamples (l : List (Nat × Int)) : List (Nat × Int) :=
  (l.foldl (fun (acc : List (Nat × Int)) e =>
    if 4 ≤ (acc.filter (fun x => x.1 == e.1)).length then acc else acc ++ [e]) []).take 32

/-- 10 R260: a received CNB frame yields a sample, and the window perhaps an estimate, which moves `CAL.XTAL` by at most 500 ppb
toward the median. -/
def xtalSample (s : State) (m : RxMeta) (source : Nat) : State :=
  let f := channelHz s m.bin
  if m.sun || decide (m.rssi < m.noise + 12) || !s.bit CAL.CTRL 2 || decide (f ≤ 0) then s
  else
    let l := keepSamples ((source, -(sint 16 m.fofs * 125000000) / f) :: s.cal.samples)
    let s := s.upCal (fun c => { c with samples := l })
    let vs := sortInt (l.map (fun e => e.2))
    let spread := (vs.getLastD 0 - vs.headD 0).toNat
    let s := ((s.setFld CAL.XTALSTAT 5 0 l.length).setFld CAL.XTALSTAT 13 8 (distinctCount l)).setFld CAL.XTALSTAT 31 16 (min 65535 spread)
    if 8 ≤ l.length ∧ 3 ≤ distinctCount l then
      let old := sint 24 (s.fld CAL.XTAL 23 0)
      let new := old + clampI (-500) 500 (median vs - old)
      (s.setFld CAL.XTAL 23 0 (unsint 24 new)).setBit CAL.STATUS 2 true
    else s

end Sys2Proof.Machine
end

