-- ==== Sys2Proof/Machine/Time.lean ====
section
/-! DEFINITION. Network time, the beacon tracker and the listen schedule (chapter 12). -/
namespace Sys2Proof.Machine
open Sys2Proof.Reg

/-- Changes the state behind network time, the tracker and the schedule. -/
def State.upTime (s : State) (f : Ntime → Ntime) : State := { s with ntime := f s.ntime }
def State.upTrk (s : State) (f : Tracker → Tracker) : State := { s with trk := f s.trk }
def State.upSched (s : State) (f : Sched → Sched) : State := { s with sched := f s.sched }

/-! ### Network time -/

/-- 12 R299: a step of network time; a backward step holds back sealing until the old value is reached again. -/
def ntStep (s : State) (v : BitVec 64) : State :=
  let back := decide (v.toNat < s.nt.toNat)
  let top := if s.bit LNK.NTSTAT 5 ∧ s.nt.toNat < s.ntime.top.toNat then s.ntime.top else s.nt
  let s := if back then (s.setBit LNK.NTSTAT 5 true).upTime (fun t => { t with top := top })
    else s.setBit LNK.NTSTAT 5 (s.bit LNK.NTSTAT 5 && decide (v.toNat < s.ntime.top.toNat))
  lnkTevent { s with nt := v } 2

/-- 12 R299: a slew by δ ticks, which replaces what is left of another. -/
def ntSlew (s : State) (d : Int) : State :=
  (s.setBit LNK.NTSTAT 4 (d != 0)).upTime (fun t => { t with slew := d, slewAcc := 0 })

/-- 12 R299: an adjustment by δ ticks; `always` is that of a beacon in UNSYNC, LOST or SEARCH, which always steps. -/
def ntAdjust (s : State) (d : Int) (always : Bool) : State :=
  let stepIt := always || decide (32000 < d) || (decide (d < -32000) && s.bit LNK.NTCFG 0)
  if stepIt then ntStep (ntSlew s 0) (s.nt + BitVec.ofInt 64 d) else ntSlew s d

/-- NT_SOURCE_CHANGE (12 R297): at an XO32 edge network time takes the source that the state of HFXO gives it, without a jump. -/
def execNtSourceChange (s : State) : Out := .next (s.setBit LNK.NTSTAT 7 (!s.bit CLK.STATUS 1))

/-- SLEW_DONE (12 R299): once the slew is used up, SLEWING clears. -/
def execSlewDone (s : State) : Out :=
  if s.bit LNK.NTSTAT 4 ∧ s.ntime.slew = 0 then .next (s.setBit LNK.NTSTAT 4 false) else .next s

/-- BACKHOLD_END (12 R299): network time is again at the highest value it held before the backward step. -/
def execBackholdEnd (s : State) : Out :=
  if s.bit LNK.NTSTAT 5 ∧ s.ntime.top.toNat ≤ s.nt.toNat then .next (s.setBit LNK.NTSTAT 5 false) else .next s

/-- 12 R300: a read of `LNK.NTLO` latches NTHI and NTSEC. -/
def ntLatch (s : State) : State :=
  let n := s.nt.toNat
  ((s.wr LNK.NTLO (BitVec.ofNat 32 n)).wr LNK.NTHI (BitVec.ofNat 32 (n / 2 ^ 32))).wr LNK.NTSEC (BitVec.ofNat 32 (n / 32000000))

/-- 12 R298: network time from the RTC's seconds and subseconds. -/
def ntFromRtc (s : State) (secs sub : Nat) : State := { s with nt := BitVec.ofNat 64 (secs * 32000000 + sub * 9765625 / 10000) }

/-! ### Accuracy -/

/-- The tracker's state (12 R318). -/
def trkState (s : State) : Nat := s.fld LNK.NTSTAT 2 0

/-- 12 R306: whether the node is trimmed at the present die temperature. -/
def isTrimmed (s : State) : Bool :=
  let t := sint 16 (s.fld CAL.TEMP 15 0)
  let i := clamp 0 15 ((t + 160) / 36).toNat
  s.bit CAL.STATUS 2 && s.bit CAL.STATUS 10 && s.bit (RTC.TTAB i) 31 && s.bit (RTC.TTAB (min 15 (i + 1))) 31

/-- 12 R301: the per-hop error of a beacon mode in µs. -/
def hopError (mode : Nat) : Nat := match mode with
  | 0 => 80 | 1 => 20 | 2 => 6 | _ => 2

/-- 12 R302: the error estimate in µs. -/
def ntError (s : State) : Nat :=
  let st := trkState s
  if st = 6 then 0 else if st = 0 ∨ st = 7 then 65535
  else min 65535 (s.trk.ep + hopError s.trk.mode + (if isTrimmed s then 3 else 40) * (s.rd LNK.NTAGE).toNat)

/-- 12 R302, R313, R315: forms TRIMMED, HOLD, STRATUM and ERR of `LNK.NTSTAT`. -/
def ntStat (s : State) : State :=
  let st := trkState s
  let sync := st == 1 || st == 2 || st == 3
  let s := s.setBit LNK.NTSTAT 6 (isTrimmed s)
  let s := s.setBit LNK.NTSTAT 3 (!sync && st != 6)
  let s := s.setFld LNK.NTSTAT 11 8 (if st = 6 then 0 else if sync then min 15 (s.fld LNK.BCNSTAT 7 4 + 1) else 15)
  s.setFld LNK.NTSTAT 31 16 (ntError s)

/-- Moves the tracker to a state. -/
def setTrk (s : State) (st : Nat) : State :=
  let s := s.setFld LNK.NTSTAT 2 0 st
  ntStat (if st = 0 then s.wr LNK.NTAGE 0xFFFFFFFF else s)

/-! ### Beacon windows -/

/-- The beacon period of the parent in ticks. -/
def beaconPeriod (s : State) : Nat := 32000000 * 2 ^ s.fld LNK.BCNSTAT 3 0

/-- 12 R314: the guard G of the next window in ticks. -/
def beaconGuard (s : State) : Nat :=
  let st := trkState s
  let m := if st = 2 then 2 else if st = 3 then 4 else 1
  let ppm := (if isTrimmed s then 3 else 40) + (if s.bit LNK.BCNSTAT 8 then 3 else 40)
  m * (16000 + ppm * (s.trk.x.toNat - s.trk.last.toNat) / 1000000)

/-- 12 R314: y, the expected DATA instant. -/
def beaconStart (s : State) : Nat := s.trk.x.toNat - halfSymbols s.trk.mode (16 * s.fld LNK.BCNSTAT 13 9 + 63)

/-- 12 R314: shows G and the next opening. -/
def beaconPlan (s : State) : State :=
  let s := s.setFld LNK.BCNSTAT 31 16 (min 65535 (beaconGuard s / 32))
  s.wr LNK.BCNNEXT (BitVec.ofNat 32 (beaconStart s - beaconGuard s))

/-- A window that is no longer needed lets the receiver stop. -/
def receiverRelease (s : State) : State := if receiverWanted s then s else receiverStop s

/-- 12 R310, 18 R443: a window opens: LINK and RADIO power up and the receiver starts unless it runs; in REST it is a wake event. -/
def receiverForce (s : State) : State :=
  if s.dom Dom.link = .off then wakeEvent s 6
  else if s.bit RXC.STATUS 0 ∨ s.bit RXC.STATUS 4 then s
  else receiverStart (if s.dom Dom.link = .od then s.setDom Dom.link .on else s)

/-- 12 R313, R315: the lost-time actions. -/
def trackerLost (s : State) (event : Bool) : State :=
  let s := (setTrk s 4).upTrk (fun t => { t with since := s.nt, search := 0, window := false })
  let s := if event then lnkTevent s 0 else s
  receiverForce s

/-- 12 R313: a window closed without an applied beacon. -/
def trackerMiss (s : State) : State :=
  let s := s.bump LNK.CNTBCN 31 16 1
  let p := beaconPeriod s
  let s := s.upTrk (fun t => { t with x := t.x + BitVec.ofNat 64 p })
  match trkState s with
  | 1 => beaconPlan (setTrk s 2)
  | 2 => beaconPlan (setTrk s 3)
  | _ => trackerLost s true

/-- 12 R314: the end of the window of the expected beacon: 16 symbols after y + G. -/
def beaconEnd (s : State) : BitVec 64 := BitVec.ofNat 64 (beaconStart s + beaconGuard s + halfSymbols s.trk.mode 32)

/-- BEACON_WINDOW_OPEN (12 R314): from y − G on the window of the expected beacon opens with the receiver on. -/
def execBeaconWindowOpen (s : State) : Out :=
  let st := trkState s
  if (st = 1 ∨ st = 2 ∨ st = 3) ∧ beaconStart s ≤ s.nt.toNat + beaconGuard s then
    .next (receiverForce ((beaconPlan s).upTrk (fun t => { t with window := true, applied := false, next := beaconEnd s })))
  else .next s

/-- BEACON_WINDOW_CLOSE (12 R313, R314): the window closes at its end unless a demodulator is busy; without an applied beacon it is a miss. -/
def execBeaconWindowClose (s : State) : Out :=
  if s.trk.window ∧ busyCnt s = 0 ∧ trkState s ≠ 5 ∧ s.trk.next.toNat ≤ s.nt.toNat then
    let ok := s.trk.applied
    let s := s.upTrk (fun t => { t with window := false, applied := false })
    .next (receiverRelease (if ok then s else trackerMiss s))
  else .next s

/-- 12 R316: the gap before search window `i`, in ticks. -/
def searchGap (s : State) (i : Nat) : Nat := min (2 ^ i * beaconPeriod s) (1800 * 32000000)

/-- Plans a search window. -/
def planSearch (s : State) (i : Nat) : State :=
  let g := searchGap s i
  let s := s.upTrk (fun t => { t with search := i, window := false, next := s.nt + BitVec.ofNat 64 g })
  s.wr LNK.BCNNEXT (BitVec.ofNat 32 s.trk.next.toNat)

/-- SEARCH_START (12 R313): 2 × P after entering LOST the first search is planned. -/
def execSearchStart (s : State) : Out :=
  if trkState s = 4 ∧ s.trk.since.toNat + 2 * beaconPeriod s ≤ s.nt.toNat then .next (receiverRelease (planSearch (setTrk s 5) 1)) else .next s

/-- SEARCH_WINDOW_OPEN (12 R316): a search window begins, with the receiver on. -/
def execSearchWindowOpen (s : State) : Out :=
  if trkState s = 5 ∧ ¬ s.trk.window ∧ s.trk.next.toNat ≤ s.nt.toNat then
    .next (receiverForce (s.upTrk (fun t => { t with window := true, since := s.nt })))
  else .next s

/-- SEARCH_WINDOW_END (12 R316): P + 0.1 s after it began the window ends and the next is planned. -/
def execSearchWindowEnd (s : State) : Out :=
  if trkState s = 5 ∧ s.trk.window ∧ s.trk.since.toNat + beaconPeriod s + 3200000 ≤ s.nt.toNat then .next (receiverRelease (planSearch s (s.trk.search + 1))) else .next s

/-! ### Beacons -/

/-- 12 R303: the fields of a beacon's payload. -/
structure Beacon where
  txtime : BitVec 64
  stratum : Nat
  trimmed : Bool
  hold : Bool
  bplog : Nat
  err : Nat
  bpre : Nat
  deriving DecidableEq, Repr

/-- Reads a beacon's payload; none when it is shorter than 16 octets. -/
def parseBeacon (mpdu : List Byte) (f : Frm) : Option Beacon :=
  if f.type ≠ 3 ∨ f.payLen < 16 then none
  else
    let g := fun i n => leNat ((mpdu.drop (f.payAt + i)).take n)
    some { txtime := BitVec.ofNat 64 (g 0 8), stratum := g 8 1 % 16, trimmed := testB (g 8 1) 4, hold := testB (g 8 1) 5,
           bplog := min 9 (g 9 1 % 16), err := g 10 2, bpre := g 15 1 % 32 }

/-- The parent's address in the form of `LNK.PARENT0` and `LNK.PARENT1`. -/
def isParent (s : State) (f : Frm) : Bool :=
  if s.bit LNK.BCNCFG 3 then f.sam == 3 && f.src == (s.rd LNK.PARENT0).toNat + 2 ^ 32 * (s.rd LNK.PARENT1).toNat
  else f.sam == 2 && f.src == s.fld LNK.PARENT0 15 0

/-- 12 R305: a beacon is applied. -/
def applyBeacon (s : State) (m : RxMeta) (f : Frm) (b : Beacon) (d : Int) (always : Bool) : State :=
  let s := ntAdjust s d always
  let s := (s.wr LNK.NTAGE 0).wr LNK.NTLASTOFS (BitVec.ofInt 32 (clampI (-2147483648) 2147483647 d))
  let stat : Word := BitVec.ofNat 32 (b.bplog + 16 * b.stratum + 256 * natBit b.trimmed + 512 * b.bpre)
  let s := s.wr LNK.BCNSTAT stat
  let s := if isParent s f then s
    else
      let s := (s.wr LNK.PARENT0 (BitVec.ofNat 32 f.src)).wr LNK.PARENT1 (BitVec.ofNat 32 (f.src / 2 ^ 32))
      lnkTevent (s.setBit LNK.BCNCFG 3 (f.sam == 3)) 4
  let s := s.upTrk (fun t => { t with
    x := b.txtime + BitVec.ofNat 64 (32000000 * 2 ^ b.bplog), last := b.txtime, ep := b.err, mode := m.mode, applied := true })
  beaconPlan (setTrk s 1)

/-- 12 R305, R313, R317: the tracker takes a beacon. -/
def trackerBeacon (s : State) (m : RxMeta) (f : Frm) (b : Beacon) : State :=
  let d : Int := Int.ofNat b.txtime.toNat - Int.ofNat m.ts.toNat
  let st := trkState s
  if !s.bit LNK.BCNCFG 0 then s
  else if st = 1 ∨ st = 2 ∨ st = 3 then
    if isParent s f then
      if Int.ofNat (beaconGuard s) < d ∨ d < -Int.ofNat (beaconGuard s) then lnkTevent s 3
      else applyBeacon (s.bump LNK.CNTBCN 15 0 1) m f b d false
    else s
  else if st = 0 ∨ st = 4 ∨ (st = 5 ∧ s.trk.window) then
    if isParent s f ∨ (s.bit LNK.BCNCFG 2 ∧ b.stratum ≤ 13 ∧ ¬ b.hold) then
      let s := applyBeacon s m f b d true
      receiverRelease ((if st = 0 then s else lnkTevent s 1).upTrk (fun t => { t with window := false }))
    else s
  else s

/-- 12 R313: a write of `LNK.BCNCFG`. -/
def bcnCfgWrite (s : State) (v : Word) : State :=
  let was := s.bit LNK.BCNCFG 0
  let s := s.wr LNK.BCNCFG (v &&& 0xFF0F)
  let st := trkState s
  if testB v.toNat 1 then (if st = 6 then s else receiverRelease ((setTrk s 6).upTrk (fun t => { t with window := false })))
  else if was ∧ ¬ testB v.toNat 0 then receiverRelease ((setTrk s 7).upTrk (fun t => { t with window := false }))
  else if testB v.toNat 0 ∧ (st = 6 ∨ st = 7) then setTrk s 0
  else s

/-- 12 R313: a write of `LNK.PARENT0` or `LNK.PARENT1`. -/
def parentWrite (s : State) (hi : Bool) (v : Word) : State :=
  let s := if hi then s.wr LNK.PARENT1 v else s.wr LNK.PARENT0 v
  let st := trkState s
  if st = 1 ∨ st = 2 ∨ st = 3 then trackerLost s false else s

/-! ### Listen schedule -/

/-- 12 R309: the cycle in ticks of a `LNK.SCHCFG` value. -/
def cycleTicks (cfg : Word) : Nat := 4000000 * 2 ^ min 11 (bitsOf cfg 11 8)

/-- 12 R309: the listen instant of cycle `c`. -/
def listenInstant (s : State) (c : Nat) : Nat :=
  let k := if s.fld LNK.SHORT 15 0 = 0xFFFE then fold16 (ownEui s) else s.fld LNK.SHORT 15 0
  let t := k ^^^ (c % 65536) ^^^ (c / 65536 % 65536)
  let h := (t * 0x9E37 % 65536) ^^^ (t / 32)
  let n := cycleTicks s.sched.cfg
  c * n + h * n / 65536

/-- 12 R309: the next own listen instant. -/
def nextListen (s : State) : Nat :=
  let c := s.nt.toNat / cycleTicks s.sched.cfg
  if s.nt.toNat < listenInstant s c then listenInstant s c else listenInstant s (c + 1)

/-- Shows the next own listen instant. -/
def schNext (s : State) : State := s.wr LNK.SCHNEXT (BitVec.ofNat 32 (nextListen s))

/-- SCHEDULE_CYCLE_BOUNDARY (12 R319): a staged `LNK.SCHCFG` takes effect. -/
def execScheduleCycleBoundary (s : State) : Out :=
  .next (schNext (s.upSched (fun c => { c with cfg := s.rd LNK.SCHCFG })))

/-- 12 R309: the listen instant of the present cycle. -/
def thisListen (s : State) : Nat := listenInstant s (s.nt.toNat / cycleTicks s.sched.cfg)

/-- LISTEN_WINDOW_OPEN (12 R310): at the listen instant the own window opens with the receiver on. -/
def execListenWindowOpen (s : State) : Out :=
  if testB s.sched.cfg.toNat 0 ∧ ¬ s.sched.own ∧ thisListen s ≤ s.nt.toNat then
    let s := s.upSched (fun c => { c with own := true, ext := false, at_ := BitVec.ofNat 64 (thisListen s), win := c.cfg })
    .next (schNext (receiverForce (s.bump LNK.SCHCNT 15 0 1)))
  else .next s

/-- 12 R310: energy on an enabled demodulator's bin, 6 dB above its floor, or a busy one. -/
def channelActive (s : State) : Bool :=
  busyCnt s != 0 || (List.range 64).any (fun n => demodServes s n && decide (s.fld (CH.CH_NOISE n) 9 0 + 12 ≤ s.fld (CH.CH_RSSI n) 25 16))

/-- 12 R310: the length W of a window, in ticks, of a `LNK.SCHCFG` value. -/
def winTicks (cfg : Word) : Nat := 8000 * max 4 (bitsOf cfg 23 16)

/-- LISTEN_WINDOW_CLOSE (12 R310): from s + W on the window closes, or stays open while the channel is active, up to XMAX × 4 ms beyond s + W; a
frame in progress then is completed. -/
def execListenWindowClose (s : State) : Out :=
  if s.sched.own then
    let fin := s.sched.at_.toNat + winTicks s.sched.win
    let limit := fin + 128000 * bitsOf s.sched.win 31 24
    if s.nt.toNat < fin then .next s
    else if channelActive s ∧ s.nt.toNat < limit then
      .next ((if s.sched.ext then s else s.bump LNK.SCHCNT 31 16 1).upSched (fun c => { c with ext := true }))
    else if busyCnt s ≠ 0 then .next s
    else .next (receiverRelease (s.upSched (fun c => { c with own := false, ext := false })))
  else .next s

/-- ANNOUNCED_WINDOW_OPEN (12 R312): the window a WAKE announced opens. -/
def execAnnouncedWindowOpen (s : State) : Out :=
  match s.sched.ann with
  | some a =>
    if s.nt.toNat < a.toNat then .next s
    else .next (receiverForce (s.upSched (fun c => { c with annOpen := true, annAt := a, annWin := s.sched.cfg, ann := none })))
  | none => .next s

/-- ANNOUNCED_WINDOW_CLOSE (12 R312, R319): it closes 1.0 ms + W, that in force when it opened, after its instant, and the receiver may go off again. -/
def execAnnouncedWindowClose (s : State) : Out :=
  if s.sched.annOpen ∧ s.sched.annAt.toNat + 32000 + winTicks s.sched.annWin ≤ s.nt.toNat then .next (receiverRelease (s.upSched (fun c => { c with annOpen := false }))) else .next s

/-- 12 R312: a matching WAKE plans the announced window from END + OFFSET × 32 µs − 0.5 ms. -/
def wakeWindow (s : State) (fin : BitVec 64) (offset : Nat) : State :=
  lnkTevent (s.upSched (fun c => { c with ann := some (fin + BitVec.ofNat 64 (offset * 1024) - 16000) })) 5

end Sys2Proof.Machine
end

