-- ==== Sys2Proof/Machine/Lnk.lean ====
section
/-! DEFINITION. The link controller: reception, managed flooding and acknowledgements (11 R275 to R293). -/
namespace Sys2Proof.Machine
open Sys2Proof.Reg

/-! ### The buffer pool -/

/-- 11 R277: BUFLOG as it acts, and the address of a buffer. -/
def bufLog (s : State) : Nat := clamp 7 11 (s.fld LNK.POOLCFG 19 16)
def bufAt (s : State) (b : Nat) : Nat := s.fld LNK.POOLBASE 31 7 * 128 + b * 2 ^ bufLog s

/-- The lowest free buffer; the spec does not say which one is taken (log 31). -/
def freeBuf (s : State) : Option Nat := (List.range (s.fld LNK.POOLCFG 9 0)).find? (fun b => !bufBusy s b)

/-- A frame that step 1 discards. -/
def dropNoBuf (s : State) : State := lnkEvent (s.bump LNK.CNTDROP 31 16 1) 4

/-! ### Flooding -/

/-- Whether a relay or an acknowledgement is the committed transmission. -/
def relayTaken (s : State) (r : Relay) : Bool := match s.txc.job with
  | some j => j.src == .relay && j.desc == r.buf
  | none => false
def ackTaken (s : State) (a : Ack) : Bool := match s.txc.job with
  | some j => j.src == .ack && j.desc == a.srcKey && j.mpdu.drop 2 == leBytes 4 a.fcnt.toNat
  | none => false

/-- A copy of a frame whose relay is pending (11 R285); a committed relay is no longer pending. -/
def floodCopy (s : State) (src : Nat) (fcnt : Word) : State :=
  match s.lnk.relays.find? (fun r => r.src == src && r.fcnt == fcnt && !relayTaken s r) with
  | none => s
  | some r =>
    let r' := { r with copies := r.copies + 1 }
    let s := s.upLnk (fun l => { l with relays := l.relays.map (fun x => if x = r then r' else x) })
    let k := s.fld LNK.RELAYCFG 19 16
    if k ≠ 0 ∧ max 2 k ≤ r'.copies then relayGone (s.bump LNK.CNTRLY 31 16 1) r' else s

/-- 11 R288: the local entry of sink `k`: DIST, 0 for the node that is the sink. -/
def sinkDist (s : State) (k : Nat) : Nat := if s.bit (LNK.SINKCFG k) 12 then 0 else s.fld (LNK.SINKCFG k) 11 8

/-- 11 R288: whether a source is sink `k`'s address. -/
def isSink (s : State) (k : Nat) (f : Frm) : Bool :=
  s.bit (LNK.SINKCFG k) 0 &&
  (if s.bit (LNK.SINKCFG k) 1 then f.sam == 3 && f.src == (s.rd (LNK.SINKA0 k)).toNat + 2 ^ 32 * (s.rd (LNK.SINKA1 k)).toNat
   else f.sam == 2 && f.src == s.fld (LNK.SINKA0 k) 15 0)

/-- Lowers DIST of a sink. -/
def lowerDist (s : State) (k d : Nat) : State :=
  if s.bit (LNK.SINKCFG k) 0 ∧ ¬ s.bit (LNK.SINKCFG k) 12 ∧ d < s.fld (LNK.SINKCFG k) 11 8 then s.setFld (LNK.SINKCFG k) 11 8 d else s

/-! 11 R270: the fields of FLOOD. -/
def floodTtl (v : Nat) : Nat := v % 16
def floodHop (v : Nat) : Nat := v / 16 % 16
def floodDist (v : Nat) : Nat := v / 256 % 16
def floodSink (v : Nat) : Nat := v / 4096 % 8
def floodGrad (v : Nat) : Bool := testB v 15

/-- 11 R288: what an accepted FLOOD teaches about the sinks. -/
def sinkLearn (s : State) (f : Frm) : State :=
  if !s.bit LNK.FLOODCFG 1 then s
  else
    let s := (List.range 8).foldl (fun (s : State) k => if isSink s k f then lowerDist s k (floodHop f.flood + 1) else s) s
    if floodGrad f.flood ∧ floodDist f.flood < 15 then lowerDist s (floodSink f.flood) (floodDist f.flood + 1) else s

/-- 11 R285: whether the gradient rule lets a frame be relayed. -/
def gradAllows (s : State) (f : Frm) : Bool :=
  if !floodGrad f.flood then true
  else
    let k := floodSink f.flood
    let valid := s.bit (LNK.SINKCFG k) 0
    if valid && s.bit (LNK.SINKCFG k) 12 then false
    else if valid && decide (sinkDist s k < 15) then decide (sinkDist s k < floodDist f.flood)
    else s.bit LNK.FLOODCFG 0

/-- 11 R287: the bin of a relay. -/
def relayBin (s : State) (f : Frm) (hop bin : Nat) : Nat :=
  let h := fold16 f.src ^^^ (f.fcnt.toNat % 65536) ^^^ (f.fcnt.toNat / 65536) ^^^ (hop * 0x9E37 % 65536)
  let set := below 128 (fun b => s.bit (LNK.RBINMAP (b / 32)) (b % 32))
  if set.isEmpty then bin else set.getD (h % set.length) bin

/-- 11 R285: the MPDU of a relay: TTL, HOP and SINKDIST replaced. -/
def relayMpdu (mpdu : List Byte) (f : Frm) (ttl hop dist : Nat) : List Byte :=
  let v := ttl % 16 + 16 * (hop % 16) + 256 * (dist % 16) + f.flood / 4096 * 4096
  mpdu.take f.floodAt ++ leBytes 2 v ++ mpdu.drop (f.floodAt + 2)

/-- The pending relay with the lowest TTL, the newest among equals. -/
def lowestRelay : List Relay → Option Relay
  | [] => none
  | r :: rs => match lowestRelay rs with
    | some x => if r.ttl < x.ttl then some r else some x
    | none => some r

/-- 11 R286: inserts a relay; a 33rd displaces the one with the lowest TTL. -/
def insertRelay (s : State) (r : Relay) : State :=
  let s := s.upLnk (fun l => { l with relays := l.relays ++ [r] })
  if s.lnk.relays.length ≤ 32 then lnkStat s
  else match lowestRelay (s.lnk.relays.filter (fun x => !relayTaken s x)) with
    | some x => lnkEvent (relayGone (s.bump LNK.CNTRLYD 15 0 1) x) 2
    | none => s

/-- 11 R285: the relay decision on a flood frame that has been stored; true when a relay was queued. -/
def relayDecision (s : State) (x : RxFrame) (f : Frm) (buf : Nat) (held : Option (Nat × Nat)) : Bool × State :=
  let no := (false, match held with | some e => lnkStat (qReleaseHeld s e.1 e.2) | none => s)
  if !s.bit LNK.CTRL 2 || floodTtl f.flood == 0 || !gradAllows s f then no
  else
    let rm := s.fld LNK.RELAYCFG 10 8
    let mode := if rm = 7 then x.m.mode else rm
    let k := floodSink f.flood
    let dist := if floodGrad f.flood && s.bit (LNK.SINKCFG k) 0 then sinkDist s k else 15
    let ttl := floodTtl f.flood - 1
    let hop := floodHop f.flood + 1
    let air := frameTicks mode x.m.code (clamp 2 30 (s.fld LNK.TXPRE 12 8)) x.mpdu.length
    let d := Config.freeNat s.free % 8
    let s := { s with free := s.free + 1 }
    let r : Relay := { src := f.src, fcnt := f.fcnt, start := x.fin + BitVec.ofNat 64 (d * (air + 64000)), ttl := ttl, hop := hop,
                       dist := dist, mode := mode, code := x.m.code, bin := relayBin s f hop x.m.bin, air := air,
                       mpdu := relayMpdu x.mpdu f ttl hop dist, buf := buf, elem := held }
    let s := insertRelay s r
    (s.lnk.relays.any (fun y => y.src == r.src && y.fcnt == r.fcnt), s)

/-! ### Acknowledgements -/

/-- 11 R289, R290: the ACK decision on a stored frame. -/
def ackDecision (s : State) (x : RxFrame) (f : Frm) (mtch : Nat) : State :=
  if !s.bit LNK.CTRL 1 || f.type != 0 || !f.ar || !(mtch == 1 || mtch == 2) then s
  else
    let am := s.fld LNK.ACKCFG 10 8
    let start := x.fin + 48000
    if start.toNat + 1600 < s.nt.toNat + txLead s then lnkEvent (s.bump LNK.CNTACK 31 16 1) 3
    else
      let a : Ack := { start := start, mode := if x.m.sun ∨ am = 7 then x.m.mode else am, code := if x.m.sun then x.m.code else 0,
                       bin := x.m.bin, srcKey := if f.sam = 3 then fold16 f.src else f.src, srcEui := f.sam == 3, fcnt := f.fcnt }
      s.upLnk (fun l => { l with acks := l.acks ++ [a] })

/-! ### Reception -/

/-- 11 R278: the RX queue element of a frame. -/
def rxElement (x : RxFrame) (bufAddr flags kind : Nat) : List Byte :=
  leBytes 4 bufAddr ++ leBytes 2 x.mpdu.length ++ leBytes 1 (x.m.demod + 128 * natBit x.m.sun) ++ leBytes 1 x.m.bin ++
  leBytes 1 (x.m.mode + 16 * (x.m.code % 4)) ++ leBytes 1 x.m.gain ++ leBytes 2 x.m.rssi ++ leBytes 2 x.m.noise ++ leBytes 2 x.m.fofs ++
  leBytes 8 x.m.ts.toNat ++ leBytes 1 x.cw ++ leBytes 1 x.iter ++ leBytes 1 flags ++ leBytes 1 kind ++ leBytes 4 x.fin.toNat

/-- 11 R275, steps 8 to 10: insertion, storing, and the decisions on a frame that has passed its MIC; `plain` is the MPDU as the buffer
holds it, decrypted for levels 5 to 7 (R273). -/
def rxAccept (s : State) (x : RxFrame) (plain : List Byte) (f : Frm) (buf : Nat) : State :=
  let s := if f.type = 2 ∨ f.type = 4 then s else seenInsert s f.fcnt (srcTag f.sam f.src)
  let mt := frameMatch s f
  let mtch := if f.type = 2 then 0 else mt.getD 5
  let relayOnly := mtch == 5
  let q := x.m.demod
  let w := engineWrite s lnkInit (bufAt s buf) plain true
  if w.1 then dropNoBuf w.2
  else
    let s := w.2
    let slot := qTail s q
    let flags := natBit x.m.gstep + 2 * natBit x.m.clip + 4 * natBit f.sec + 16 * natBit relayOnly + 32 * natBit x.alt
    let el := rxElement x (bufAt s buf) flags (f.type + 8 * mtch)
    let r := if relayOnly then qAppendHeld s q el else qProduce s q lnkInit el
    if r.1 = 1 ∨ r.1 = 2 then lnkStat (lnkEvent (r.2.bump LNK.CNTDROP 15 0 1) 4)
    else
      let s := r.2.upLnk (fun l => { l with bufs := (buf, (q, slot)) :: l.bufs.filter (fun e => e.1 != buf && e.2 != (q, slot)) })
      let s := s.bump LNK.CNTRX 15 0 1
      let s := ackDecision s x f mtch
      let s := if f.type = 4 ∧ (mtch = 1 ∨ mtch = 2) then
          wakeWindow s x.fin (leNat ((x.mpdu.drop f.payAt).take 2)) else s
      if f.type = 1 then
        let s := sinkLearn s f
        let d := relayDecision s x f buf (if relayOnly then some (q, slot) else none)
        lnkStat (if d.1 then (engineWrite d.2 queueBlock (qSlot d.2 q slot + 26) [BitVec.ofNat 8 (flags + 8)] false).2 else d.2)
      else lnkStat s

/-- Whether the tracker evaluates a beacon now by itself (12 R317). -/
def trackerAlone (s : State) (f : Frm) : Bool :=
  f.type == 3 && s.bit LNK.BCNCFG 0 && (trkState s == 0 || trkState s == 4 || trkState s == 5)

/-- The tracker's part of a beacon, if its payload is long enough. -/
def trackerTake (s : State) (x : RxFrame) (f : Frm) : State :=
  match parseBeacon x.mpdu f with
  | some b => trackerBeacon s x.m f b
  | none => s

/-- A frame that fails step 5 or 6, which the tracker may still need. -/
def rxReject (s : State) (x : RxFrame) (f : Frm) : State :=
  if trackerAlone s f ∧ f.sec then s.upLnk (fun l => { l with mic := l.mic ++ [{ x := x, buf := none, trk := true }] }) else s

/-- 11 R275, steps 5 to 7: the window, the seen cache, and the wait for the MIC. -/
def rxWindow (s : State) (x : RxFrame) (f : Frm) (buf : Nat) : State :=
  let open_ := f.type == 2 || f.type == 4
  if !open_ && !inWindow s f.fcnt then rxReject (s.bump LNK.CNTREJ 15 0 1) x f
  else if !open_ && underFloor s f.fcnt then rxReject (s.bump LNK.CNTSEC 31 16 1) x f
  else
    let r := if open_ then (false, s) else seenLookup s f.fcnt (srcTag f.sam f.src)
    if r.1 then
      let s := r.2.bump LNK.CNTREJ 31 16 1
      rxReject (if f.type = 1 then floodCopy s f.src f.fcnt else s) x f
    else if f.sec then
      r.2.upLnk (fun l => { l with mic := l.mic ++ [{ x := x, buf := some buf, trk := trackerAlone r.2 f }] })
    else
      let s := if f.type = 3 ∧ ¬ trackerAlone r.2 f then trackerTake r.2 x f else r.2
      rxAccept s x x.mpdu f buf

/-- LNK_FRAME_RECEIVE (11 R275, 10 R260): a CNB frame yields its crystal sample, and the oldest frame FEC delivered goes through the steps, up to its MIC if it is secured. -/
def execLnkFrameReceive (s : State) : Out :=
  match s.lnk.rx with
  | [] => .next s
  | x :: rest =>
    let s := xtalSample (s.upLnk (fun l => { l with rx := rest })) x.m (match parseFrame x.mpdu with
      | some f => if f.sam = 0 then noSource else f.src
      | none => noSource)
    if !s.bit LNK.CTRL 0 then .next (s.bump LNK.CNTRX 31 16 1)
    else match freeBuf s with
      | none => .next (dropNoBuf s)
      | some buf =>
        if 2 ^ bufLog s < x.mpdu.length then .next (dropNoBuf s)
        else match parseFrame x.mpdu with
          | none => .next (s.bump LNK.CNTRX 31 16 1)
          | some f =>
            let secReq := s.bit LNK.CTRL 4 && !f.sec && (f.type == 0 || f.type == 1 || f.type == 3 || f.type == 5)
            let nid := f.type == 2 || f.nid == s.fld LNK.NID 15 0 || (f.type == 5 && f.nid == 0xFFFF)
            let dest := f.type == 2 || f.type == 1 || f.type == 3 || (frameMatch s f).isSome
            if !frameValid f || secReq || !nid || !dest then .next (s.bump LNK.CNTRX 31 16 1)
            else
              let s := if trackerAlone s f ∧ ¬ f.sec then trackerTake s x f else s
              .next (rxWindow s x f buf)

/-- RELAY_START (11 R285): the `k`-th pending relay has reached its start: dropped for want of credit, or offered to TXC. -/
def execRelayStart (k : Nat) (s : State) : Out :=
  match s.lnk.relays[k]? with
  | none => .next s
  | some r =>
    let duty := s.fld LNK.RELAYCFG 23 20
    if r.offered ∨ s.nt.toNat < r.start.toNat then .next s
    else if duty ≠ 0 ∧ duty * 4096000000 < s.lnk.spent + 16 * r.air then .next (relayGone (s.bump LNK.CNTRLYD 31 16 1) r)
    else .next (s.upLnk (fun l => { l with relays := l.relays.map (fun x => if x = r then { r with offered := true } else x) }))

/-! ### Register writes -/

/-- 11 R293: acknowledgements not yet committed are dropped. -/
def dropAcks (s : State) : State :=
  s.upLnk (fun l => { l with acks := l.acks.filter (ackTaken s) })

/-- 11 R293: pending relays not yet committed are dropped, and their held elements released. -/
def dropRelays (s : State) : State :=
  (s.lnk.relays.filter (fun r => !relayTaken s r)).foldl relayGone s

/-- 11 R293, R283, R284: a write of `LNK.CTRL`. -/
def lnkCtrlWrite (s : State) (v : Word) : State :=
  let old := s.rd LNK.CTRL
  let s := s.wr LNK.CTRL (v &&& 0x1F)
  let fell := fun i => testB old.toNat i && !testB v.toNat i
  let rose := fun i => !testB old.toNat i && testB v.toNat i
  let s := s.when (rose 0 && s.lnk.fresh) (fun s => (floorNow s).upLnk (fun l => { l with fresh := false }))
  let s := s.when (fell 0) (fun s => dropRelays (dropAcks s))
  let s := s.when (fell 1) dropAcks
  let s := s.when (fell 2) dropRelays
  let s := s.when (rose 3) (fun s => s.setBit LNK.STATUS 1 true)
  lnkStat (s.when (fell 3) (fun s => extLost s false))

/-- 11 R293: a write of `LNK.POOLBASE` or `LNK.POOLCFG` is refused while any buffer is in use. -/
def poolWrite (s : State) (base : Bool) (v : Word) : State :=
  if (List.range (s.fld LNK.POOLCFG 9 0)).any (bufBusy s) then s.setBit LNK.STATUS 3 true
  else
    let s := if base then s.wr LNK.POOLBASE (v &&& 0xFFFFFF80) else s.wr LNK.POOLCFG (v &&& 0xF03FF)
    lnkStat ((s.setBit LNK.STATUS 3 false).upLnk (fun l => { l with bufs := [] }))

end Sys2Proof.Machine
end

