-- ==== Sys2Proof/Machine/Cipher.lean ====
section
/-! DEFINITION. The cipher job pipeline (17 R419 to R422, R431) and the link hardware's MIC results. -/
namespace Sys2Proof.Machine
open Sys2Proof.Reg

/-- 17 R420: the fields of a descriptor. -/
structure Desc where
  op : Nat
  flags : Nat
  replyq : Nat
  taglen : Nat
  slot : Nat
  label : Nat
  ctx : List Byte
  iv : List Byte
  aadr : Nat
  alen : Nat
  src : Nat
  dst : Nat
  len : Nat
  tagaddr : Nat
  deriving DecidableEq, Repr

/-- 17 R420: a descriptor from its 64 bytes. -/
def descOf (b : List Byte) : Desc :=
  let w := fun i => leNat ((b.drop i).take 4)
  { op := (b.getD 0 0).toNat, flags := (b.getD 1 0).toNat, replyq := (b.getD 2 0).toNat, taglen := (b.getD 3 0).toNat
    slot := (b.getD 4 0).toNat % 32, label := leNat ((b.drop 6).take 2), ctx := (b.drop 8).take 8, iv := (b.drop 16).take 16
    aadr := w 32, alen := w 36, src := w 40, dst := w 44, len := w 48, tagaddr := w 52 }

/-- 17 R420, R421: whether a field of a descriptor is out of range, its label reserved, or SRC and DST overlap in part. -/
def descBad (d : Desc) : Bool :=
  let writesDst := d.op == 1 || d.op == 2 || d.op == 3 || d.op == 7 || d.op == 8
  d.op == 0 || decide (8 < d.op) || labelReserved d.label ||
  !(d.taglen == 0 || d.taglen == 4 || d.taglen == 8 || d.taglen == 16) || decide (65279 < d.alen) ||
  (testB d.flags 0 && decide (127 < d.replyq)) ||
  ((d.op == 1 || d.op == 2 || d.op == 4) && d.len % 16 != 0) ||
  ((d.op == 5 || d.op == 6 || d.op == 8) && d.taglen == 0) ||
  ((d.op == 7 || d.op == 8) && decide (65535 < d.len)) ||
  (writesDst && d.src != d.dst && decide (d.src < d.dst + d.len) && decide (d.dst < d.src + d.len))

/-- 17 R421: the USAGE a job's slot must have. -/
def jobUsage (op : Nat) : Nat := if op = 4 ∨ op = 5 ∨ op = 6 then 2 else 0

/-- 17 R422, R426, R411: what is decided before a job touches its data: a final status, or none and the job's key with the
use counted (R413). -/
def jobAdmit (s : State) (enq : Nat) (trust : Bool) (d : Desc) : Option Nat × List Byte × State :=
  if !s.bit KEY.STATUS 1 then (some 12, [], s)
  else if descBad d then (some 4, [], s)
  else
    let r := slotRec s d.slot
    let may := trust || (match ownerCode enq with | some o => testB (recWord r 32 / 256) o | none => false)
    match slotJudge s d.slot with
    | .empty => (some 7, [], s)
    | .corrupt => (some 8, [], s)
    | .expired => (some 9, [], s)
    | j =>
      if !may then (some 6, [], s)
      else if recWord r 32 % 4 ≠ jobUsage d.op then (some 10, [], s)
      else if j = .spent then (some 11, [], s)
      else
        let (k, s) := slotKey (slotCount s d.slot) d.slot
        (none, kdf k d.label d.ctx (if testB d.flags 1 then 256 else 128), s)

/-- 17 R419: the priority of the pipeline's queues, highest first. -/
def jobQueues : List Nat := [105, 104, 106, 107]

/-- The rank of a queue, 0 the highest. -/
def jobRank (q : Nat) : Nat := if q = 105 then 0 else if q = 104 then 1 else if q = 106 then 2 else 3

/-- Shows the running job in `AES.STATUS` and `AES.CUR`. -/
def jobShow (s : State) : State :=
  match s.keys.jobs with
  | [] => (s.setBit AES.STATUS 0 false)
  | j :: _ => ((s.setBit AES.STATUS 0 true).setFld AES.STATUS 5 4 (j.q - 104)).wr AES.CUR (BitVec.ofNat 32 j.desc)

/-- 17 R419: the descriptor of a running job as memory holds it; none for an error response. -/
def jobDesc (s : State) (j : Job) : Option Desc × State :=
  if j.desc % 64 ≠ 0 then (none, s) else
  match engineRead s j.who j.desc 64 true with
  | (some b, s) => (some (descOf b), s)
  | (none, s) => (none, s)

/-- Writes the STATUS byte of a job's descriptor. -/
def jobStatus (s : State) (j : Job) (st : Nat) : State := (engineWrite s j.who (j.desc + 56) [BitVec.ofNat 8 st] true).2

/-- Starts the job at the head of a queue, whose address is `w` and whose enqueuer is `enq`. -/
def jobTake (s : State) (q : Nat) (w : Word) (enq : Nat) (trust : Bool) : State :=
  let who := jobInit enq
  let j : Job := { q := q, desc := w.toNat, who := who, trust := trust }
  let r := if w.toNat % 64 ≠ 0 then (some 4, [], s) else
    match engineRead s who w.toNat 64 true with
    | (some b, s) => jobAdmit s enq trust (descOf b)
    | (none, s) => (some 5, [], s)
  let s := jobStatus r.2.2 j 1
  jobShow (s.upKeys (fun k => { k with jobs := { j with status := r.1, key := r.2.1 } :: k.jobs }))

/-- 17 R419: the queue the pipeline serves next: the highest that has an entry, above the running job's while that one has more than
1 KiB of data, at whose boundaries it yields. -/
def jobNext (s : State) : Option Nat :=
  if !s.bit AES.CTRL 0 then none else
  match jobQueues.find? (fun q => qOn s q && qCount s q != 0) with
  | none => none
  | some q => match s.keys.jobs with
    | [] => some q
    | j :: _ => if jobRank q < jobRank j.q ∧ (match (jobDesc s j).1 with | some d => decide (1024 < d.len) | none => false) = true
      then some q else none

/-- A JOB_* command (17 R419, R421): the pipeline takes the next job if it is one of operation `op`; a job whose descriptor cannot be
read or names no operation is taken by any of them. -/
def jobStart (op : Nat) (s : State) : State :=
  match jobNext s with
  | none => s
  | some q =>
    match qPeek s q with
    | (some w, _) =>
      let t := qTag s q (qHead s q)
      let mine := match (engineRead s (jobInit t.1) w.toNat 64 true).1 with
        | some b => decide (w.toNat % 64 ≠ 0) || (descOf b).op == op || (descOf b).op == 0 || decide (8 < (descOf b).op)
        | none => true
      if mine then match qTake s q with
        | (some (w, enq, trust), s) => jobTake s q w enq trust
        | (none, s) => s
      else s
    | (none, s) => s

/-- JOB_ECB_ENCRYPT (17 R421). -/
def execJobEcbEncrypt (s : State) : Out := .next (jobStart 1 s)
/-- JOB_ECB_DECRYPT (17 R421). -/
def execJobEcbDecrypt (s : State) : Out := .next (jobStart 2 s)
/-- JOB_CTR (17 R421). -/
def execJobCtr (s : State) : Out := .next (jobStart 3 s)
/-- JOB_CBC_MAC (17 R421). -/
def execJobCbcMac (s : State) : Out := .next (jobStart 4 s)
/-- JOB_CMAC_GENERATE (17 R421). -/
def execJobCmacGenerate (s : State) : Out := .next (jobStart 5 s)
/-- JOB_CMAC_VERIFY (17 R421). -/
def execJobCmacVerify (s : State) : Out := .next (jobStart 6 s)
/-- JOB_CCM_SEAL (17 R421). -/
def execJobCcmSeal (s : State) : Out := .next (jobStart 7 s)
/-- JOB_CCM_OPEN (17 R421). -/
def execJobCcmOpen (s : State) : Out := .next (jobStart 8 s)

/-- 17 R421: the bytes an operation writes at DST, the bytes it writes at TAGADDR, and the bytes it expects there, from the input,
the associated data and the key. -/
def jobCompute (d : Desc) (key src aad : List Byte) : List Byte × List Byte × List Byte :=
  let nonce := d.iv.take 13
  match d.op with
  | 1 => ((blocks src).flatMap (aesEnc key), [], [])
  | 2 => ((blocks src).flatMap (aesDec key), [], [])
  | 3 => (ctrCrypt key d.iv src, [], [])
  | 4 => ([], cbcMac key d.iv src, [])
  | 5 => ([], (cmac key src).take d.taglen, [])
  | 6 => ([], [], (cmac key src).take d.taglen)
  | 7 => (ccmCrypt key nonce src, if d.taglen = 0 then [] else ccmTag key nonce aad src d.taglen, [])
  | _ => let p := ccmCrypt key nonce src; (p, [], ccmTag key nonce aad p d.taglen)

/-- Writes bytes if there are any; true for an error response. -/
def jobPut (s : State) (who a : Nat) (bs : List Byte) : Bool × State := if bs.isEmpty then (false, s) else engineWrite s who a bs true

/-- 17 R421: the data of a job: its final status and the state it leaves. -/
def jobRun (s : State) (j : Job) : Nat × State :=
  match jobDesc s j with
  | (none, s) => (5, s)
  | (some d, s) =>
    let ccm := d.op == 7 || d.op == 8
    match engineRead s j.who d.src d.len true with
    | (none, s) => (5, s)
    | (some src, s) =>
      match engineRead s j.who d.aadr (if ccm then d.alen else 0) true with
      | (none, s) => (5, s)
      | (some aad, s) =>
        let o := jobCompute d j.key src aad
        match engineRead s j.who d.tagaddr o.2.2.length true with
        | (none, s) => (5, s)
        | (some tag, s) =>
          let bad := tag != o.2.2
          let w := jobPut s j.who d.dst (if bad then List.replicate d.len 0 else o.1)
          if w.1 then (5, w.2)
          else
            let t := jobPut w.2 j.who d.tagaddr o.2.1
            if t.1 then (5, t.2) else (if bad then 3 else 2, t.2)

/-- 17 R431: counts a job that ends with a status. -/
def jobTally (s : State) (st : Nat) : State := if st = 2 then s.bump AES.CNT 15 0 1 else s.bump AES.CNT 31 16 1

/-- 17 R431: AUTHFAIL and JOBDONE at the end of a job. -/
def jobEvents (s : State) (st : Nat) : State :=
  let s := if st = 3 then (s.bump AES.AUTHFAIL 15 0 1).event AES.EVT AES.IEN 1 .miscb 14 else s
  s.event AES.EVT AES.IEN 0 .miscb 14

/-- 17 R422: ends a job: the counters, STATUS last, then SIGNAL. -/
def jobEnd (s : State) (j : Job) (st : Nat) : State :=
  let s := jobStatus (jobTally s st) j st
  let s := match jobDesc s j with
    | (some d, s) => if testB d.flags 0 ∧ d.replyq < 128 then (qEnq s d.replyq j.who (BitVec.ofNat 32 j.desc)).2 else s
    | (none, s) => s
  jobEvents s st

/-- CIPHER_JOB_DONE (17 R422): the running job completes; a job it had displaced runs on. -/
def execCipherJobDone (s : State) : Out :=
  match s.keys.jobs with
  | [] => .next s
  | j :: rest =>
    let s := s.upKeys (fun k => { k with jobs := rest })
    let r := match j.status with
      | some st => (st, s)
      | none => jobRun s j
    .next (jobShow (jobEnd r.2 j r.1))

/-! ### The link hardware's MIC jobs -/

/-- 11 R273: the nonce of a frame. -/
def micNonce (f : Frm) : List Byte := beBytes 8 f.src ++ beBytes 4 f.fcnt.toNat ++ [BitVec.ofNat 8 (f.secctl % 8)]

/-- 11 R273: whether the level of a frame encrypts. -/
def micEncrypts (f : Frm) : Bool := decide (4 < f.secctl % 8)

/-- The payload of an MPDU. -/
def framePayload (m : List Byte) (f : Frm) : List Byte := (m.drop f.payAt).take f.payLen

/-- 11 R273: the authenticated data: FC up to FLOOD with TTL, HOP and SINKDIST 0, and the payload where it is not encrypted. -/
def micAad (m : List Byte) (f : Frm) : List Byte :=
  m.take f.floodAt ++ (if f.ttlp then leBytes 2 (f.flood / 4096 * 4096) else []) ++ (if micEncrypts f then [] else framePayload m f)

/-- 11 R272, R273: the open job of a frame, in LNK's own table (17 R419): a 128-bit key from the slot and label of its KEYCTX, the zero context. -/
def micJob (s : State) (f : Frm) : Desc :=
  let c := s.rd (LNK.KEYCTX (f.secctl / 8 % 8))
  { op := 8, flags := 0, replyq := 0, taglen := f.mic, slot := bitsOf c 4 0, label := bitsOf c 31 16, ctx := List.replicate 8 0
    iv := micNonce f ++ [0, 0, 0], aadr := 0, alen := 0, src := 0, dst := 0, len := 0, tagaddr := 0 }

/-- 11 R273, R275 step 7, 17 R421, R422: opens a frame: the status of the job, the MPDU with its payload decrypted (zeros after a failed
comparison), and the state with the use of the slot counted. -/
def micOpen (s : State) (m : List Byte) (f : Frm) : Nat × List Byte × State :=
  match jobAdmit s lnkInit false (micJob s f) with
  | (some st, _, s) => (st, m, s)
  | (none, key, s) =>
    let enc := if micEncrypts f then framePayload m f else []
    let p := ccmCrypt key (micNonce f) enc
    let good := ccmTag key (micNonce f) (micAad m f) p f.mic == m.drop (f.payAt + f.payLen)
    let put := fun bs => if micEncrypts f then m.take f.payAt ++ bs ++ m.drop (f.payAt + f.payLen) else m
    (if good then 2 else 3, put (if good then p else List.replicate enc.length 0), s)

/-- 11 R275 step 7: what a job's status and the opened MPDU make of a frame that waited for them. -/
def micResult (s : State) (w : MicWait) (f : Frm) (st : Nat) (plain : List Byte) : State :=
  let s := if st = 2 ∧ f.type = 3 ∧ (w.trk ∨ (trkState s = 1 ∨ trkState s = 2 ∨ trkState s = 3)) then
    trackerTake s { w.x with mpdu := plain } f else s
  match w.buf with
  | none => s
  | some b =>
    if st = 2 then rxAccept s w.x plain f b
    else
      let s := if st = 3 then (engineWrite s lnkInit (bufAt s b) plain true).2 else s
      lnkStat (lnkEvent (s.bump LNK.CNTSEC 15 0 1) 5)

/-- MIC_VERIFY_DONE (11 R275): the pipeline, while JEN is 1, ends the job of the oldest received frame that waits for one. -/
def execMicVerifyDone (s : State) : Out :=
  if !s.bit AES.CTRL 0 then .next s else
  match s.lnk.mic with
  | [] => .next s
  | w :: rest =>
    let s := s.upLnk (fun l => { l with mic := rest })
    match parseFrame w.x.mpdu with
    | none => .next s
    | some f =>
      let r := micOpen s w.x.mpdu f
      .next (micResult (jobEvents (jobTally r.2.2 r.1) r.1) w f r.1 r.2.1)

end Sys2Proof.Machine
end

