-- ==== Sys2Proof/Machine/Operands.lean ====
section
/-! DEFINITION. The operations of the function units on their operands (03 R55 to R62), as functions of o, o2 and t. -/
namespace Sys2Proof.Machine

/-- 03 R55: the ALU operations. -/
inductive AluOp where
  | add | sub | and | or | xor | eq | lt | ltu | ne | ge | geu | min | max | minu | maxu | sxb | sxh | zxb | zxh | mul | mulh
  deriving DecidableEq, Repr

/-- A comparison's result word (03 R55). -/
def truth (b : Bool) : Word := if b then 1 else 0

/-- The high word of a signed 64-bit product. -/
def mulHighS (o t : Word) : Word := BitVec.ofInt 32 ((o.toInt * t.toInt) / 2 ^ 32)

/-- 03 R55: the result of an ALU operation. -/
def aluFn (op : AluOp) (o t : Word) : Word :=
  match op with
  | .add => o + t
  | .sub => o - t
  | .and => o &&& t
  | .or => o ||| t
  | .xor => o ^^^ t
  | .eq => truth (o == t)
  | .lt => truth (o.slt t)
  | .ltu => truth (o.ult t)
  | .ne => truth (o != t)
  | .ge => truth (t.sle o)
  | .geu => truth (t.ule o)
  | .min => if o.slt t then o else t
  | .max => if o.slt t then t else o
  | .minu => if o.ult t then o else t
  | .maxu => if o.ult t then t else o
  | .sxb => sextW 8 t.toNat
  | .sxh => sextW 16 t.toNat
  | .zxb => t &&& 0xFF
  | .zxh => t &&& 0xFFFF
  | .mul => o * t
  | .mulh => mulHighS o t

/-- 03 R57: the MUL operations. -/
inductive MulOp where
  | mul | mulh | mulhu | mac | macu | accw | div | divu | rem | remu
  deriving DecidableEq, Repr

/-- 03 R57: the three product operations. -/
def mulProduct (op : MulOp) (o t : Word) : Word :=
  match op with
  | .mulh => mulHighS o t
  | .mulhu => BitVec.ofNat 32 (o.toNat * t.toNat / 2 ^ 32)
  | _ => o * t

/-- 03 R57: the accumulator after `mac`, `macu` or `accw`. -/
def accResult (op : MulOp) (acc : BitVec 64) (o t : Word) : BitVec 64 :=
  match op with
  | .mac => acc + BitVec.ofInt 64 (o.toInt * t.toInt)
  | .macu => acc + BitVec.ofNat 64 (o.toNat * t.toNat)
  | _ => BitVec.ofInt 64 t.toInt

/-- 03 R60: the result of a division operation. -/
def divResult (op : MulOp) (o t : Word) : Word :=
  match op with
  | .div => if t = 0 then 0xFFFFFFFF else BitVec.ofInt 32 (o.toInt.tdiv t.toInt)
  | .divu => if t = 0 then 0xFFFFFFFF else BitVec.ofNat 32 (o.toNat / t.toNat)
  | .rem => if t = 0 then o else BitVec.ofInt 32 (o.toInt.tmod t.toInt)
  | _ => if t = 0 then o else BitVec.ofNat 32 (o.toNat % t.toNat)

/-- 03 R61: the SHF operations. -/
inductive ShfOp where
  | sll | srl | sra | ror | ext | exts | ins | fsr | clz | pop | rev | bswap
  deriving DecidableEq, Repr

/-- 03 R61: width of a field descriptor, cut off at bit 31 from its position. -/
def fieldWidth (d : Word) : Nat := min (min (d.toNat % 64) 32) (32 - d.toNat / 256 % 32)

/-- 03 R61: position of a field descriptor. -/
def fieldPos (d : Word) : Nat := d.toNat / 256 % 32

/-- 03 R61: the number of leading zeros. -/
def clzOf (t : Word) : Nat := ((List.range 32).takeWhile (fun i => !testB t.toNat (31 - i))).length

/-- 03 R61: the result of an SHF operation. -/
def shfFn (op : ShfOp) (o o2 t : Word) : Word :=
  let n := t.toNat % 32
  let w := fieldWidth t
  let p := fieldPos t
  match op with
  | .sll => o <<< n
  | .srl => o >>> n
  | .sra => o.sshiftRight n
  | .ror => o.rotateRight n
  | .ext => BitVec.ofNat 32 (o.toNat / 2 ^ p % 2 ^ w)
  | .exts => if w = 0 then 0 else sextW w (o.toNat / 2 ^ p)
  | .ins =>
    let m : Word := BitVec.ofNat 32 ((2 ^ w - 1) * 2 ^ p)
    (o2 &&& ~~~ m) ||| ((o <<< p) &&& m)
  | .fsr => BitVec.ofNat 32 ((o2.toNat * 2 ^ 32 + o.toNat) / 2 ^ n)
  | .clz => BitVec.ofNat 32 (clzOf t)
  | .pop => BitVec.ofNat 32 (onesBelow 32 t.toNat)
  | .rev => t.reverse
  | .bswap => leWord (leBytes 4 t.toNat).reverse

/-- 03 R62: the SIMD operations. -/
inductive SimdOp where
  | addB | subB | addsB | addusB | avguB | absdB | sadB | cmpeqB | shufB
  | addH | subH | addsH | subsH | mulH | dotH | maxH | minH
  deriving DecidableEq, Repr

/-- Lane `i` of `n` bits. -/
def lane (n i : Nat) (v : Word) : Nat := v.toNat / 2 ^ (n * i) % 2 ^ n

/-- A word from its lanes of `n` bits. -/
def fromLanes (n : Nat) (f : Nat → Nat) : Word :=
  BitVec.ofNat 32 ((List.range (32 / n)).foldl (fun a i => a + f i % 2 ^ n * 2 ^ (n * i)) 0)

/-- A signed lane result brought into the range of `n` bits (03 R62, saturating). -/
def satS (n : Nat) (x : Int) : Nat := unsint n (clampI (-(2 ^ (n - 1) : Int)) (2 ^ (n - 1) - 1) x)

/-- 03 R62: the result of a SIMD operation. -/
def simdFn (op : SimdOp) (o o2 t : Word) : Word :=
  let ob := fun i => lane 8 i o
  let tb := fun i => lane 8 i t
  let oh := fun i => lane 16 i o
  let th := fun i => lane 16 i t
  let diff := fun i => if ob i < tb i then tb i - ob i else ob i - tb i
  match op with
  | .addB => fromLanes 8 (fun i => ob i + tb i)
  | .subB => fromLanes 8 (fun i => ob i + 256 - tb i)
  | .addsB => fromLanes 8 (fun i => satS 8 (sint 8 (ob i) + sint 8 (tb i)))
  | .addusB => fromLanes 8 (fun i => min 255 (ob i + tb i))
  | .avguB => fromLanes 8 (fun i => (ob i + tb i + 1) / 2)
  | .absdB => fromLanes 8 diff
  | .sadB => o2 + BitVec.ofNat 32 (diff 0 + diff 1 + diff 2 + diff 3)
  | .cmpeqB => fromLanes 8 (fun i => if ob i = tb i then 0xFF else 0)
  | .shufB => fromLanes 8 (fun i => ob (t.toNat / 4 ^ i % 4))
  | .addH => fromLanes 16 (fun i => oh i + th i)
  | .subH => fromLanes 16 (fun i => oh i + 65536 - th i)
  | .addsH => fromLanes 16 (fun i => satS 16 (sint 16 (oh i) + sint 16 (th i)))
  | .subsH => fromLanes 16 (fun i => satS 16 (sint 16 (oh i) - sint 16 (th i)))
  | .mulH => fromLanes 16 (fun i => oh i * th i)
  | .dotH => o2 + BitVec.ofInt 32 (sint 16 (oh 0) * sint 16 (th 0) + sint 16 (oh 1) * sint 16 (th 1))
  | .maxH => fromLanes 16 (fun i => if sint 16 (oh i) < sint 16 (th i) then th i else oh i)
  | .minH => fromLanes 16 (fun i => if sint 16 (oh i) < sint 16 (th i) then oh i else th i)

/-- 03 R63: the LSU operations. -/
inductive LsuOp where
  | ldW | ldH | ldHu | ldB | ldBu | lrW | stW | stH | stB | scW | fence
  deriving DecidableEq, Repr

/-- 03 R63: the access size of an LSU operation. -/
def lsuSize : LsuOp → Nat
  | .ldH => 2 | .ldHu => 2 | .stH => 2
  | .ldB => 1 | .ldBu => 1 | .stB => 1
  | _ => 4

/-- Whether an LSU operation writes memory, for the curtain, the ACL and the exception detail. -/
def lsuWrites : LsuOp → Bool
  | .stW => true | .stH => true | .stB => true | .scW => true
  | _ => false

/-- 03 R63: the loaded value, extended as the operation says. -/
def lsuExtend (op : LsuOp) (v : Nat) : Word :=
  match op with
  | .ldH => sextW 16 v
  | .ldB => sextW 8 v
  | _ => BitVec.ofNat 32 v

/-- 03 R69: the QU operations. -/
inductive QuOp where
  | enq | deq | deqnb | cnt | sig | wfe
  deriving DecidableEq, Repr

/-- 03 R72: the CU operations. -/
inductive CuOp where
  | jmp | br | call | callr | ret | loop | trap | eret | wfe | limm
  deriving DecidableEq, Repr

/-- An operation of any unit; `alu` carries which ALU. -/
inductive UnitOp where
  | alu (u : Nat) (op : AluOp)
  | mul (op : MulOp)
  | shf (op : ShfOp)
  | simd (op : SimdOp)
  | lsu (op : LsuOp)
  | qu (op : QuOp)
  | cu (op : CuOp)
  deriving DecidableEq, Repr

end Sys2Proof.Machine
end

