-- ==== Sys2Proof/Machine/Flags.lean ====
section
/-! DEFINITION. The flags of `UFLAGS` that the units set (03 R57, R62, R84: DZ bit 0, AOVF bit 1, SAT bit 2). -/
namespace Sys2Proof.Machine

/-- 03 R57: DZ, on a division by zero. -/
def divFlags (t : Word) : Word := if t = 0 then 1 else 0

/-- 03 R57: AOVF, when an accumulation leaves the range of the accumulator: the exact signed sum for `mac`, the exact unsigned
sum for `macu`; `accw` sets none. -/
def accFlags (op : MulOp) (acc : BitVec 64) (o t : Word) : Word :=
  match op with
  | .mac =>
    let x := acc.toInt + o.toInt * t.toInt
    if x < -(2 ^ 63) ∨ 2 ^ 63 - 1 < x then 2 else 0
  | .macu => if 2 ^ 64 ≤ acc.toNat + o.toNat * t.toNat then 2 else 0
  | _ => 0

/-- 03 R62: SAT, when any lane of a saturating operation saturates. -/
def simdFlags (op : SimdOp) (o t : Word) : Word :=
  let out (n : Nat) (x : Int) : Bool := decide (x < -(2 ^ (n - 1))) || decide (2 ^ (n - 1) - 1 < x)
  let any8 (f : Nat → Bool) : Word := if (List.range 4).any f then 4 else 0
  let any16 (f : Nat → Bool) : Word := if (List.range 2).any f then 4 else 0
  match op with
  | .addsB => any8 (fun i => out 8 (sint 8 (lane 8 i o) + sint 8 (lane 8 i t)))
  | .addusB => any8 (fun i => decide (255 < lane 8 i o + lane 8 i t))
  | .addsH => any16 (fun i => out 16 (sint 16 (lane 16 i o) + sint 16 (lane 16 i t)))
  | .subsH => any16 (fun i => out 16 (sint 16 (lane 16 i o) - sint 16 (lane 16 i t)))
  | _ => 0

end Sys2Proof.Machine
end

