-- ==== Sys2Proof/Machine/Migrate.lean ====
section
/-! DEFINITION. Migration, heat and the placement policy (05 R115 to R118). -/
namespace Sys2Proof.Machine
open Sys2Proof.Reg

/-! ### Migration -/

/-- 05 R116: the dirty granules a destination tier may have left for the final copy. -/
def finalMax (tier : Nat) : Nat := if tier ≤ 1 then 16 else if tier = 3 then 8 else 1

/-- The number of dirty granules. -/
def dirtyCount (m : Migration) : Nat := onesBelow 64 m.dirty.toNat

/-- 05 R115, 07 R169, R172: a range of a page that a migration copies to flash is programmed by the flash controller under its rules,
without a descriptor of the firmware (log 98): the range is blank and in order, its sector settled, and the journal opens and closes it. -/
def flashCopy (s : State) (who a src dst n : Nat) (sec : Bool) : Bool × State :=
  match mappedRead s who a src n sec with
  | (none, s) => (false, s)
  | (some bs, s) =>
    match ciphered sec dst, s.keys.mem with
    | true, none => (false, s)
    | true, some k => flashProgram s (dst - 0x08000000) (mapUnits (xtsEnc k) a bs)
    | false, _ => flashProgram s (dst - 0x08000000) bs

/-- Copies a range of a page to the destination of its migration: false when its source cannot be read or the destination refuses it. -/
def migCopy (s : State) (c : Fin 2) (m : Migration) (o n : Nat) : Bool × State :=
  let sec := pteBit (s.pte m.page) 2
  if m.tier = 4 then flashCopy s (8 + c.val) (m.page + o) (m.src + o) (m.dst + o) n sec
  else copyRange s (8 + c.val) (m.page + o) (m.src + o) (m.dst + o) n sec

/-- Copies the dirty granules to the destination. -/
def copyDirty (s : State) (c : Fin 2) (m : Migration) : Bool × State :=
  (below 64 (testB m.dirty.toNat)).foldl (fun (r : Bool × State) i => if r.1 then migCopy r.2 c m (64 * i) 64 else r) (true, s)

/-- 17 R423: whether the cipher memory pipeline refuses a migration: a SECURE page with an end in T3 or T4 while no key is held. -/
def migRefused (s : State) (m : Migration) : Bool :=
  s.keys.mem.isNone && (ciphered (pteBit (s.pte m.page) 2) m.src || ciphered (pteBit (s.pte m.page) 2) m.dst)

/-- Changes the record of a channel. -/
def upMig (s : State) (c : Fin 2) (f : Migration → Migration) : State :=
  s.upStg (fun g => { g with mig := g.mig.set c (f g.mig[c]) })

/-- 05 R110, R125: whether a page may be moved, or copied a second time, to a frame now: a prop covers it, the frame can take it, and the
tier is one its row of R110 allows. -/
def migAllowed (s : State) (page tier f : Nat) (second : Bool) : Bool :=
  match regionAt s page with
  | some r => pteBit (s.pte page) 0 && frameFree s tier f &&
      (if second then copyAllowed r.attr (pteFld (s.pte page) 14 12) tier (f / 32) else tierAllowed r.attr tier (f / 32))
  | none => false

/-- 05 R115: a channel starts: the destination is reserved, M is set, the dirty bitmap cleared and the whole-page copy begins. -/
def migStart (s : State) (c : Fin 2) (page tier f : Nat) (second : Bool) : State :=
  let e := s.pte page
  let s := setPte (bankOn s tier f) page (pteWith e 4 4 1)
  let m : Migration := { page := page, src := frameAddr (pteFld e 14 12) (pteFld e 29 15), dst := frameAddr tier f, tier := tier, frame := f, second := second }
  let s := (upMig s c (fun _ => m)).setFld (STG.MIGCTRL c) 7 4 1
  (s.setFld (STG.MIGSTAT c) 14 0 0).setBit (STG.MIGSTAT c) 15 false

/-- 05 R115: GO: a page already in a migration sets BUSY; on an idle channel a destination that R110 or R125 rules out is ignored
(log 99). -/
def migGo (s : State) (c : Fin 2) : State :=
  let page := (s.rd (STG.MIGSRC c)).toNat / 4096 * 4096
  let tier := s.fld (STG.MIGDST c) 2 0
  let f := s.fld (STG.MIGDST c) 17 3
  let second := s.bit (STG.MIGDST c) 18
  if pteBit (s.pte page) 4 then s.setBit (STG.MIGSTAT c) 15 true
  else if migState s c ≠ 0 ∨ ¬ migAllowed s page tier f second then s
  else migStart s c page tier f second

/-- 05 R115: the whole-page copy completes: the bitmap is taken and cleared, PASSES counts, RECOPY. -/
def migCopyDone (s : State) (c : Fin 2) : State :=
  if migState s c = 1 then
    let m := s.stg.mig[c]
    if migRefused s m then migAbort (memRefused s) c 3 else
    match migCopy s c m 0 4096 with
    | (false, s) => migAbort s c 3
    | (true, s) =>
      let s := s.setFld (STG.MIGSTAT c) 10 4 (dirtyCount m)
      let s := upMig s c (fun m => { m with dirty := 0 })
      (s.setFld (STG.MIGSTAT c) 3 0 1).setFld (STG.MIGCTRL c) 7 4 2
  else s

/-- 05 R115: a recopy pass completes: FINAL, another pass, or ABORT with HOT. -/
def migPassDone (s : State) (c : Fin 2) : State :=
  if migState s c = 2 then
    let m := s.stg.mig[c]
    if migRefused s m then migAbort (memRefused s) c 3 else
    let n := dirtyCount m
    let s := s.setFld (STG.MIGSTAT c) 10 4 n
    if n ≤ finalMax m.tier then s.setFld (STG.MIGCTRL c) 7 4 3
    else if s.fld (STG.MIGSTAT c) 3 0 < orIfZero 1 (s.fld STG.MIGCFG 3 0) then
      match copyDirty s c m with
      | (false, s) => migAbort s c 3
      | (true, s) => (upMig s c (fun m => { m with dirty := 0 })).bump (STG.MIGSTAT c) 3 0 1
    else migAbort s c 1
  else s

/-- 03 R67: the remap of a page loses the reservations on its old frame. -/
def remapReservations (s : State) (src : Nat) : State :=
  { s with cores := Vector.ofFn (fun p => match s.cores[p].resv with
      | some g => if src ≤ g ∧ g < src + 4096 then { s.cores[p] with resv := none } else s.cores[p]
      | none => s.cores[p]) }

/-- 05 R115: the final copy completes: the entry names the new frame (or the new second copy), M is cleared, the old frame is
released.  It does not complete while a core buffers a store to the source (log 64). -/
def migFinalDone (s : State) (c : Fin 2) : State :=
  if migState s c = 3 then
    let m := s.stg.mig[c]
    if s.cores.any (fun x => x.wbuf.any (fun e => decide (m.src ≤ e.addr) && decide (e.addr < m.src + 4096) && !e.bad)) then s else
    if migRefused s m then migAbort (memRefused s) c 3 else
    match copyDirty s c m with
    | (false, s) => migAbort s c 3
    | (true, s) =>
      let e := pteWith (s.pte m.page) 4 4 0
      let e := if m.second then pteWith (pteWith (pteWith e 3 3 1) 34 32 m.tier) 49 35 m.frame
        else pteWith (ptePlace e m.tier m.frame) 1 1 (if m.tier = 4 then 0 else pteFld e 1 1)
      let s := setPte s m.page e
      let s := if m.second then s else remapReservations s m.src
      let s := upMig s c (fun m => { m with dirty := 0 })
      (s.setFld (STG.MIGSTAT c) 10 4 0).setFld (STG.MIGCTRL c) 7 4 4
  else s

/-! ### Heat and the policy -/

/-- 05 R117: HEAT ← (HEAT >> 1) + 128 × A, then A ← 0. -/
def heatStep (e : BitVec 64) : BitVec 64 :=
  if pteBit e 0 then pteWith (pteWith e 63 56 (pteFld e 63 56 / 2 + 128 * pteFld e 30 30)) 30 30 0 else e

/-- 05 R117: the entry of every valid page is rewritten, which drops its translations (R113). -/
def sweepPages (s : State) : State :=
  (s.stg.regions.flatMap regionPages).foldl (fun s p => if pteBit (s.pte p) 0 then setPte s p (heatStep (s.pte p)) else s) s

/-- 05 R117: the rank of a page. -/
def pageRank (s : State) (r : Region) (p : Nat) : Nat := pteFld (s.pte p) 63 56 + 64 * attrHint r.attr

/-- One move of the policy: a page, its destination tier, whether it makes a second copy, and whether the budget counts it. -/
structure PolicyMove where
  page : Nat
  tier : Nat
  second : Bool
  counted : Bool
  deriving DecidableEq, Repr

/-- A move as the plan keeps it (05 R118). -/
def PolicyMove.code (m : PolicyMove) : Nat × Nat := (m.page, m.tier + 8 * natBit m.second + 16 * natBit m.counted)

/-- The mapped pages of all props with their props. -/
def mappedPages (s : State) : List (Region × Nat) :=
  (s.stg.regions.flatMap (fun r => (regionPages r).map (fun p => (r, p)))).filter (fun x => pteBit (s.pte x.2) 0)

/-- 05 R110: the tier that step 1 brings a page to that stands where it may not. -/
def homeTier (attr : Word) : Nat := if attrPers attr = 2 then 2 else 1

/-- 05 R118 step 1: pages that R110 or a pin wants elsewhere. -/
def planFor (s : State) (x : Region × Nat) : Option PolicyMove :=
  let e := s.pte x.2
  let t := pteFld e 14 12
  if attrPinned x.1.attr ∧ t ≠ bitsOf x.1.attr 18 16 then some { page := x.2, tier := bitsOf x.1.attr 18 16, second := false, counted := false }
  else if tierAllowed x.1.attr t (pteFld e 29 15 / 32) ∨ t = homeTier x.1.attr then none
  else some { page := x.2, tier := homeTier x.1.attr, second := false, counted := false }

/-- 05 R110, R118 step 2: the second copy of a DUPLEX page that has none, and the tier the policy gives it (log 100). -/
def planCopy (s : State) (x : Region × Nat) : Option PolicyMove :=
  let e := s.pte x.2
  let t := pteFld e 14 12
  let slow := if s.bit STG.STATUS 9 ∨ (attrFast x.1.attr ∧ attrPers x.1.attr ≠ 0) then 2 else 3
  if attrDuplex x.1.attr ∧ pteCopy e = none then
    some { page := x.2, tier := if attrFast x.1.attr ∨ t = 1 then slow else 1, second := true, counted := false } else none

/-- 05 R118 step 3: the promotion of a page whose rank reaches PROMOTE. -/
def planPromote (s : State) (x : Region × Nat) : Option PolicyMove :=
  let t := pteFld (s.pte x.2) 14 12
  if attrPinned x.1.attr ∨ pageRank s x.1 x.2 < s.fld STG.PROMOTE 8 0 then none
  else if (t = 3 ∨ t = 2) ∧ attrPers x.1.attr ≠ 2 then some { page := x.2, tier := 1, second := false, counted := true }
  else if t = 1 ∧ attrFast x.1.attr ∧ tierAllowed x.1.attr 0 (attrOwner x.1.attr - 2) then
    some { page := x.2, tier := 0, second := false, counted := true }
  else none

/-- The tier below that step 4 demotes a page of tier `t` to, if its prop may lie there (log 100). -/
def demoteTier (s : State) (attr : Word) (t : Nat) : Option Nat :=
  match t with
  | 0 => some 1
  | 1 => if attrFast attr then none else if ¬ s.bit STG.STATUS 9 ∧ attrPers attr ≠ 2 then some 3 else if attrPers attr = 1 then some 2 else none
  | 2 => if attrFast attr then none else if attrPers attr = 1 ∧ ¬ s.bit STG.STATUS 9 then some 3 else none
  | _ => none

/-- Puts a page into a list of pages in order: behind those that `le` puts before it. -/
def insertPage (le : Nat × Nat → Nat × Nat → Bool) (x : Nat × (Region × Nat)) : List (Nat × (Region × Nat)) → List (Nat × (Region × Nat))
  | [] => [x]
  | y :: l => if le (y.1, y.2.2) (x.1, x.2.2) then y :: insertPage le x l else x :: y :: l

/-- Pages sorted by their rank and their address. -/
def sortPages (le : Nat × Nat → Nat × Nat → Bool) (s : State) (l : List (Region × Nat)) : List (Region × Nat) :=
  ((l.map (fun x => (pageRank s x.1 x.2, x))).foldl (fun a x => insertPage le x a) []).map (fun x => x.2)

/-- 05 R118: pages in order of rank, the lowest first; among equal ranks the lower scene address. -/
def byRank : State → List (Region × Nat) → List (Region × Nat) :=
  sortPages (fun x y => decide (x.1 < y.1) || (x.1 == y.1 && decide (x.2 ≤ y.2)))

/-- The same with the highest rank first. -/
def byHeat : State → List (Region × Nat) → List (Region × Nat) :=
  sortPages (fun x y => decide (y.1 < x.1) || (x.1 == y.1 && decide (x.2 ≤ y.2)))

/-- 05 R118 step 4: of each tier below its low watermark, as many of the lowest-ranked pages as it lacks. -/
def planDemote (s : State) (l : List (Region × Nat)) : List PolicyMove :=
  [0, 1, 2].flatMap (fun t =>
    (((byRank s (l.filter (fun x => !attrPinned x.1.attr && pteFld (s.pte x.2) 14 12 == t))).filterMap (fun x =>
      (demoteTier s x.1.attr t).map (fun d => ({ page := x.2, tier := d, second := false, counted := true } : PolicyMove)))).take
        (s.fld (STG.TIERLOW t) 15 0 - tierFree s t)))

/-- 05 R118: the moves of the policy, in the order of its steps. -/
def policyPlan (s : State) : List (Nat × Nat) :=
  let l := mappedPages s
  ((l.filterMap (planFor s)) ++ (l.filterMap (planCopy s)) ++ ((byHeat s l).filterMap (planPromote s)) ++ planDemote s l).map PolicyMove.code

/-- A free frame for a move: the lowest one that R110 allows it. -/
def moveFrame (s : State) (m : Nat × Nat) : Option Nat :=
  let tier := m.2 % 8
  (List.range (match tier with | 0 => 128 | 1 => 512 | 2 => 128 | 3 => 28672 | _ => 1024)).find? (fun f =>
    migAllowed s m.1 tier f (testB m.2 3))

/-- 05 R118: the policy starts its next moves on the idle channels; steps 3 and 4 stay within the budget of the epoch, and a move that no
frame can take, or of a page already in a migration, is dropped.  `n` bounds the moves looked at. -/
def policyStart (s : State) : Nat → State
  | 0 => s
  | n + 1 =>
    match s.stg.plan, (List.finRange 2).find? (fun c => migState s c == 0) with
    | m :: rest, some c =>
      let counted := testB m.2 4
      let s' := s.upStg (fun g => { g with plan := rest })
      match decide (counted = true ∧ s.stg.budget = 0) || pteBit (s.pte m.1) 4, moveFrame s m with
      | false, some f =>
        policyStart (migStart (s'.upStg (fun g => { g with budget := g.budget - natBit counted })) c m.1 (m.2 % 8) f (testB m.2 3)) n
      | _, _ => policyStart s' n
    | _, _ => s

/-- 05 R118: the policy runs: after a sweep, on an exit of a power state, after a fault, and under pressure. -/
def policyRun (s : State) : State :=
  let s := s.upStg (fun g => { g with plan := policyPlan s, policyDue := false })
  policyStart s s.stg.plan.length

/-- 05 R118: pressure: a tier has fewer free frames than its low watermark. -/
def underPressure (s : State) : Bool := (List.range 5).any (fun t => decide (tierFree s t < s.fld (STG.TIERLOW t) 15 0))

/-- 05 R115: the policy reads the status: a completed page is counted, the channel returns to IDLE and takes the next move. -/
def migStatRead (s : State) (c : Fin 2) : State :=
  let st := migState s c
  if st = 4 ∨ st = 5 then
    let s := if st = 4 then s.bump (STG.MIGSTAT c) 31 16 1 else s
    let s := s.setFld (STG.MIGCTRL c) 7 4 0
    policyStart s s.stg.plan.length
  else s

end Sys2Proof.Machine
end

