-- ==== Sys2Proof/Machine/Power.lean ====
section
/-! DEFINITION. The power states, the wake sources, the supplies and the RTC (chapter 18). -/
namespace Sys2Proof.Machine
open Sys2Proof.Reg

/-! ### Memory at an entry -/

/-- Whether a frame is the primary or the second copy of a page. -/
def pageIn (s : State) (p : Nat) (f : Nat → Nat → Bool) : Bool :=
  let e := s.pte p
  pteBit e 0 && (f (pteFld e 14 12) (pteFld e 29 15) || ((pteCopy e).map (fun c => f c.1 c.2)).getD false)

/-- The pages of RETAIN props. -/
def retainPages (s : State) : List Nat := (s.stg.regions.filter (fun r => attrPers r.attr != 0)).flatMap regionPages

/-- The SRAM banks that hold RETAIN pages (05 R123). -/
def bankRetained (s : State) (k : Nat) : Bool := (retainPages s).any (fun p => pageIn s p (fun t f => t == 1 && f / 32 == k))

/-- 05 R123, 18 R438: whether the entry keeps a bank: BLACKOUT keeps none. -/
def bankKept (s : State) (k : Nat) : Bool := s.pwr.target != 4 && bankRetained s k

/-- 05 R110, R123: whether the entry loses a frame: T0 always, T1 with its bank, T3 unless DRAM stays in self-refresh. -/
def tierLost (s : State) (keepDram : Bool) (tier f : Nat) : Bool :=
  tier == 0 || (tier == 1 && !bankKept s (f / 32)) || (tier == 3 && !keepDram)

/-- The pages of RETAIN props in T3. -/
def retainInT3 (s : State) : Nat :=
  ((retainPages s).filter (fun p => pteBit (s.pte p) 0 && pteFld (s.pte p) 14 12 == 3)).length

/-- 05 R123 step 1: whether T3 stays in self-refresh, with the expected rest time in seconds. -/
def keepDram (s : State) (rest : Nat) : Bool :=
  s.dom Dom.dramsys != .off && (decide (rest < (s.rd STG.SRBREAK).toNat) ||
  (s.stg.regions.filter (fun r => attrPers r.attr == 1 && attrPinned r.attr)).any (fun r => (regionPages r).any (fun p =>
    pteBit (s.pte p) 0 && pteFld (s.pte p) 14 12 == 3)) ||
  decide (((below 16 (bankRetained s)).map (fun k => ((List.range 32).filter (fun i => frameFree s 1 (32 * k + i))).length)).sum + tierFree s 2 < retainInT3 s))

/-- 05 R123 step 2: a RETAIN page in a frame that will be lost is served by its second copy, where that survives, or moves to T1, a
retained bank first, or to T2; one that cannot be moved is lost (R124).  A second copy in such a frame is given up. -/
def prepRetain (keep : Bool) (s : State) (rp : Region × Nat) : State :=
  let e := s.pte rp.2
  let copyLives := match pteCopy e with | some c => !tierLost s keep c.1 c.2 | none => false
  if !pteBit e 0 then s
  else if !tierLost s keep (pteFld e 14 12) (pteFld e 29 15) then (if (pteCopy e).isSome && !copyLives then setPte s rp.2 (pteNoCopy e) else s)
  else match pteCopy e, copyLives with
    | some c, true => setPte s rp.2 (pteNoCopy (ptePlace e c.1 c.2))
    | _, _ =>
      let t1 := if s.pwr.target = 4 then [] else (List.range 512).filter (frameFree s 1)
      let t2 := if attrFast rp.1.attr then [] else (List.range 128).filter (frameFree s 2)
      let dest := (t1.filter (fun f => bankRetained s (f / 32))).map (fun f => (1, f)) ++ t2.map (fun f => (2, f)) ++ t1.map (fun f => (1, f))
      let s := setPte s rp.2 (pteNoCopy e)
      match dest with
      | tf :: _ =>
        let r := movePage s rp.2 tf.1 tf.2
        if r.1 then r.2 else setPte r.2 rp.2 (pteWith (r.2.pte rp.2) 5 5 1)
      | [] => setPte s rp.2 (pteWith (s.pte rp.2) 5 5 1)

/-- 05 R123 step 4: a page is unmapped and marked for zero refill, and its prop's LOST bit is set. -/
def losePage (s : State) (rp : Region × Nat) : State :=
  let s := setPte s rp.2 (pteWith (pteNoCopy (s.pte rp.2)) 0 0 0)
  let s := match s.stg.regions.find? (fun x => x.base == rp.1.base) with
    | some x => setRegion s { x with attr := withBits x.attr 25 25 1 }
    | none => s
  s.upStg (fun g => { g with zeroFill := addOnce g.zeroFill rp.2 })

/-- 05 R123 steps 3 and 4: a VOLATILE page in a frame that will be lost moves to a bank that is retained anyway, if its rank reaches PROMOTE
and a frame is free there, or is lost. -/
def prepVolatile (keep : Bool) (s : State) (rp : Region × Nat) : State :=
  let e := s.pte rp.2
  if !pteBit e 0 then s
  else if !tierLost s keep (pteFld e 14 12) (pteFld e 29 15) then
    (match pteCopy e with | some c => if tierLost s keep c.1 c.2 then setPte s rp.2 (pteNoCopy e) else s | none => s)
  else
    let s := setPte s rp.2 (pteNoCopy e)
    if s.fld STG.PROMOTE 8 0 ≤ pageRank s rp.1 rp.2 then
      match (List.range 512).find? (fun f => frameFree s 1 f && bankKept s (f / 32)) with
      | some f => let r := movePage s rp.2 1 f; if r.1 then r.2 else losePage r.2 rp
      | none => losePage s rp
    else losePage s rp

/-- 05 R123: the stage manager prepares the pages: those of RETAIN props first, which decide the banks. -/
def prepPages (s : State) (keep : Bool) : State :=
  let pages := fun (p : Region → Bool) => (s.stg.regions.filter p).flatMap (fun r => (regionPages r).map (fun a => (r, a)))
  (pages (fun r => attrPers r.attr == 0)).foldl (prepVolatile keep) ((pages (fun r => attrPers r.attr != 0)).foldl (prepRetain keep) s)

/-- Forms `PWR.BANKSTAT` (18 R459). -/
def bankStat (s : State) : State :=
  s.wr PWR.BANKSTAT (BitVec.ofNat 32 ((List.range 16).foldl (fun a k =>
    a + (match s.dom (Dom.sram k) with | .off => 0 | .ret => 1 | _ => 2) * 4 ^ k) 0))

/-- Powers a domain down with the loss of a memory range. -/
def dropDom (s : State) (d a n : Nat) (c : DomCond) : State := (s.clearRange a n).setDom d c

/-- 18 R442: what the blocks of PERIPH lose when the domain powers down: FIFO contents and transfers in progress. -/
def serialDown (s : State) : State :=
  let s : State := { s with
    twb := Vector.replicate 5 {}, csp := Vector.replicate 2 {}, hwn := { s.hwn with tx := none } }
  let s := (List.finRange 5).foldl (fun (s : State) (k : Fin 5) => (s.setFld (TWB.STATUS k) 5 0 0).wr (TWB.FIFO k) 0) s
  (List.finRange 2).foldl (fun (s : State) (k : Fin 2) => (s.setFld (CSP.STATUS k) 1 0 0).setFld (CSP.STATUS k) 15 8 0) s

/-- Whether no block of PERIPH holds data or has a transfer in progress. -/
def serialIdle (s : State) : Bool :=
  s.twb.all (fun b => b.cmd.isNone && !b.onBus && !b.hub && b.tx.isEmpty && b.rx.isEmpty) &&
  s.csp.all (fun c => c.frame.isNone && !c.hub && c.tx.isEmpty && c.rx.isEmpty) && s.hwn.tx.isNone && s.svc.reply.isNone

/-- 18 R442: what the blocks of PERIPH and PROMPT lose when their domains power down: FIFO contents and transfers in progress, and
in PROMPT everything but prompter SRAM and KEY's key registers, session value and status. -/
def blocksDown (s : State) : State :=
  let s := serialDown s
  let armed := s.bit AES.STATUS 8
  let s := ((s.resetRegs 0x30006000 0x4000).setBit AES.STATUS 8 armed).setDom Dom.prompt .ret
  let k := s.keys
  { s with keys := { k with cmd := none, otpCmd := none, jobs := [], hash := {}, pka := none, fifo := [], cache := [] } }

/-- 07 R188, 18 R442: NVM powers down: the write buffer has been performed, and the line buffers are not kept. -/
def nvmDown (s : State) (c : DomCond) : State :=
  (s.upNvm (fun v => { v with pf := [], bc := [], lastFetch := [], miss := none })).setDom Dom.nvm c

/-- 01 R10, R11: RADIO off: the registers of RFE, which nothing saves, return to their reset values (log 101); those of CAL are kept
(10 R262). -/
def radioOff (s : State) : State := (s.resetRegs 0x30030000 0x1000).setDom Dom.radio .off

/-- 18 R438, R442: LINK goes off: a reception or transmission in progress is not saved, the link pair and its TCM are lost, and the seen
cache with them (11 R284). -/
def linkOff (s : State) : State :=
  let s := setTxState ((receiverStop s).upTxc (fun t => { path := t.path })) 0
  let s := ((dropDom s Dom.link 0x11400000 0x20000 .off).wr (CUE.IRQPEND 4) 0).upCore 4 (fun _ => {})
  scStat (floorNow (s.upLnk (fun l => { l with seen := [] })))

/-- 01 R10, 14 R359: an application player's domain goes off: its core and TCM are lost, its event latch and pending bits cleared. -/
def playerOff (s : State) (p : Fin 4) : State :=
  let s := dropDom s (Dom.app p.val) (0x11000000 + 0x100000 * p.val) 0x20000 .off
  (s.wr (CUE.IRQPEND p.val) 0).upCore ⟨p.val, by omega⟩ (fun _ => {})

/-- 01 R10: the domains of the state entered: `st` 2 SENSE, 3 REST. -/
def domsFor (s : State) (st : Nat) (keep : Bool) : State :=
  let s := (List.finRange 4).foldl playerOff s
  let s := (List.range 16).foldl (fun (s : State) k =>
    if bankRetained s k then (if st = 3 then s.setDom (Dom.sram k) .ret else s)
    else dropDom s (Dom.sram k) (0x20000000 + 0x20000 * k) 0x20000 .off) s
  let s := if !keep then dramsysOff s else if s.dom Dom.dramsys = .on then selfRefreshEnter s else s
  let s := (nvmDown s (if st = 3 then .off else .od)).setDom Dom.periph (if st = 3 then .off else .od)
  let s := if st = 3 then radioOff (linkOff s) else (s.setDom Dom.radio .od).setDom Dom.link .od
  bankStat ((blocksDown s).upCore 5 (fun _ => {}))

/-! ### Operating points -/

/-- 01 R13: the VCORE, in units of 10 mV, that an APPDIV code requires. -/
def codeVolt (c : Nat) : Nat := if c = 0 then 85 else if c = 1 then 65 else if c = 2 then 60 else 55

/-- 01 R10, R13: the VCORE that the clocked cores require with the codes of a register value: application players that are on, and the
link pair in RUN. -/
def vcoreFor (s : State) (divs : Nat) : Nat :=
  let link := if s.dom Dom.link = .on ∧ pwrState s = 0 then 65 else 55
  (List.range 4).foldl (fun m n => if s.dom (Dom.app n) = .on then max m (codeVolt (divs / 4 ^ n % 4)) else m) link

/-- 01 R14: the sequencer moves to the setting of `CLK.APPDIV`: up, VCORE slews first; down, the clocks switch first. -/
def vcoreStart (s : State) : State :=
  let want := vcoreFor s (s.fld CLK.APPDIV 7 0)
  let now := s.fld CLK.VCORE 6 0
  let s := if want ≤ now then s.upPwr (fun p => { p with divs := s.fld CLK.APPDIV 7 0 }) else s
  if want = now then s else (s.setFld CLK.VCORE 6 0 want).setBit CLK.STATUS 8 true

/-- 01 R14: the sequencer takes up the present setting, unless it is in a step. -/
def vcoreUpdate (s : State) : State := if s.bit CLK.STATUS 8 then s else vcoreStart s

/-- 01 R14: a player whose clock starts runs at 50 MHz until VCORE has reached what its code requires. -/
def playerClocked (s : State) (n : Nat) : State := s.upPwr (fun p => { p with divs := p.divs - p.divs / 4 ^ n % 4 * 4 ^ n + 3 * 4 ^ n })

/-! ### Requests, commits and wakes -/

/-- 18 R436, R440: a trusted write of `PWR.REQ`; entry into REST or BLACKOUT holds the flash controller (07 R188). -/
def pwrReqWrite (s : State) (v : Word) : State :=
  let c := v.toNat % 8
  if c = 1 ∨ 4 < c then s
  else
    let s := s.wr PWR.REQ (BitVec.ofNat 32 c)
    if pwrPhase s = 2 ∨ pwrPhase s = 3 then (s.setBit PWR.STATUS 6 true).upPwr (fun p => { p with held := some c })
    else if c = 0 then
      (if pwrPhase s = 1 then showWaiting (setHold ((setPwr s (pwrState s) 0).upPwr (fun p => { p with target := 0 })) false) else s)
    else showWaiting (setHold ((setPwr s (pwrState s) 1).upPwr (fun p => { p with target := c })) (decide (3 ≤ c)))

/-- A request that waited for a transition is acted on (18 R440). -/
def heldRequest (s : State) : State :=
  match s.pwr.held with
  | some c => pwrReqWrite ((s.setBit PWR.STATUS 6 false).upPwr (fun p => { p with held := none })) (BitVec.ofNat 32 c)
  | none => s

/-- 18 R437, R438: the commit: pages are prepared, the domains take the condition of the target. -/
def powerCommit (s : State) (keep : Bool) : State :=
  let t := s.pwr.target
  let keep := keep && t != 4
  let s := (setPwr s (pwrState s) 2).setFld PWR.STATUS 12 8 0
  let s := s.upPwr (fun p => { p with latch := [], refresh := keep })
  let s := setHold s (decide (3 ≤ t))
  let s := mramFlush (prepPages s keep)
  if t = 4 then s else domsFor s t keep

/-- POWER_COMMIT (18 R436, R437, 05 R123): the conditions of PREP hold; `rest` is the expected rest time in seconds. -/
def execPowerCommit (rest : Nat) (s : State) : Out :=
  if pwrPhase s ≠ 1 then .next s
  else if prepWaiting s ≠ 0 then .next (showWaiting s)
  else .next (powerCommit s (keepDram s rest))

/-- 18 R438 steps 5 and 6: HFXO and the PLLs stop, and the core buck gives 0.55 V. -/
def clocksOff (s : State) : State := ((s.setFld CLK.STATUS 4 1 0).setBit CLK.STATUS 8 false).setFld CLK.VCORE 6 0 55

/-- 01 R12, R16, R18: RC16 is calibrated: RCCAL takes the measured frequency, a free value within 0.5 % of 16 MHz (log 104). -/
def rcCalibrate (s : State) : State :=
  let d := s.draw
  (d.2.setFld CLK.RCCAL 23 0 (15920000 + d.1.toNat % 160001)).setBit CLK.STATUS 5 true

/-- 01 R12: HFXO is stable and the PLLs lock; RC16 is calibrated against HFXO. -/
def clocksOn (s : State) : State := rcCalibrate (s.setFld CLK.STATUS 4 1 15)

/-- Whether a source may wake BLACKOUT (18 R443, R457). -/
def wakesBlackout (s : State) (b : Nat) : Bool := decide (b < 4) && s.bit RTC.WAKECFG (8 + b)

/-- 18 R457: an enabled alarm or wake pin in BLACKOUT: PWR_ON, the release of the main power-on reset, the record. -/
def blackoutWake (s : State) (b : Nat) : State :=
  let s := s.setFld RTC.STATUS 9 8 (if b < 2 then 1 else b)
  let s := if s.bit RTC.PWRON 2 then s.setBit RTC.PWRON 0 true else s
  mainReset s 2 true

/-- POWER_STATE_REACHED (18 R438, R439): the state is reached; latched wakes are replayed. -/
def execPowerStateReached (s : State) : Out :=
  if pwrPhase s ≠ 2 then .next s
  else if s.pwr.target = 4 then
    let s := if s.bit RTC.PWRON 1 then s.setBit RTC.PWRON 0 false else s
    match s.pwr.latch.find? (wakesBlackout s) with
    | some b => .next (blackoutWake s b)
    | none =>
      let s := { s with doms := .on :: List.replicate 27 .off, cores := Vector.replicate 6 {} }
      .next ((setPwr s (pwrState s) 0).upPwr (fun p => { p with blackout := true, target := 0, latch := [] }))
  else
    let t := s.pwr.target
    let latch := s.pwr.latch.filter (fun b => t == 3 || (wakesSense b && wakesToRun s b))
    let s := receiverRelease (clocksOff (setPwr s t 0))
    let s := (pwrEvent s 0).upPwr (fun p => { p with target := 0, latch := [], ran := false, fromRest := false })
    match latch with
    | [] => .next (heldRequest s)
    | b :: bs => .next (startExit (pwrEvent s 5) (bs.foldl min b) ((b :: bs).any (wakesToRun s)) true)

/-- WAKE_EVENT (18 R443): a wake source signals. -/
def execWakeEvent (b : Fin 13) (s : State) : Out := .next (wakeEvent s b.val)

/-- 18 R440: the prompter starts at `PWR.RESUME`. -/
def prompterResume (s : State) : State := startCore s 5 (s.rd PWR.RESUME) 0

/-- 01 R10, 18 R440: the domains of RUN after an exit: the SRAM banks are on (log 24), DRAM leaves self-refresh or powers up and trains, and
the application players stay off. -/
def domsRun (s : State) : State :=
  let s := (List.range 16).foldl (fun (s : State) k => s.setDom (Dom.sram k) .on) s
  let s := ([Dom.prompt, Dom.link, Dom.nvm, Dom.periph]).foldl (fun (s : State) d => s.setDom d .on) (s.setDom Dom.radio .od)
  match s.dom Dom.dramsys with
  | .sr => selfRefreshExit s
  | .off => dramPowerUp s
  | _ => s

/-- POWER_EXIT_COMPLETE (18 R440, 05 R118): the exit ends: the domains and clocks of RUN or SENSE, the cores resume, the link pair
held after REST, and in RUN the policy runs and a receiver that is enabled starts again. -/
def execPowerExitComplete (s : State) : Out :=
  if pwrPhase s ≠ 3 then .next s
  else
    let rest := pwrState s == 3
    let s := setHold s false
    let s := if rest then (s.setBit SYS.PLAYHOLD 4 true).upCore 4 (fun _ => { run := .held }) else s
    if s.pwr.toRun then
      let s := (clocksOn (domsRun s)).setFld CLK.VCORE 6 0 65
      let s := if receiverWanted s ∧ ¬ s.bit RXC.STATUS 0 then receiverStart s else s
      let s := policyRun (vcoreUpdate (prompterResume (setPwr s 0 0)))
      .next (heldRequest ((bankStat (pwrEvent s 1)).upPwr (fun p => { p with ran := true, fromRest := false })))
    else
      let s := (List.range 16).foldl (fun (s : State) k => if s.dom (Dom.sram k) = .ret then s.setDom (Dom.sram k) .on else s) s
      let s := ((s.setDom Dom.link .od).setDom Dom.nvm .od).setDom Dom.periph .od
      let s := (setPwr (s.setDom Dom.radio .od) 2 0)
      let s := if receiverWanted s then receiverForce s else s
      .next (heldRequest ((bankStat (pwrEvent s 1)).upPwr (fun p => { p with fromRest := rest })))

/-- DOZE_ENTER (18 R435): with AUTODOZE, every powered core waits in `wfe`.  NVM and PERIPH rest once they are idle (01 R10, 07 R188). -/
def execDozeEnter (s : State) : Out :=
  if s.bit PWR.CFG 0 ∧ pwrState s = 0 ∧ pwrPhase s = 0 ∧ (List.finRange 6).all (coreQuiet s) then
    let s := setPwr s 1 0
    let s := s.setDom Dom.prompt .cg
    let s := (List.finRange 4).foldl (fun (s : State) p => if s.dom (Dom.app p.val) = .on then s.setDom (Dom.app p.val) .cg else s) s
    let s := if flcState s = 0 ∧ s.nvm.mbuf = [] then nvmDown s .od else s
    .next (vcoreUpdate (if serialIdle s then s.setDom Dom.periph .od else s))
  else .next s

/-- DOZE_EXIT (18 R435): a core leaves `wfe`. -/
def execDozeExit (s : State) : Out :=
  if pwrState s = 1 ∧ ¬ (List.finRange 6).all (coreQuiet s) then
    let s := setPwr s 0 0
    let s := s.setDom Dom.prompt .on
    let s := (List.finRange 4).foldl (fun (s : State) p =>
      if s.dom (Dom.app p.val) = .cg then playerClocked (s.setDom (Dom.app p.val) .on) p.val else s) s
    .next (vcoreUpdate ((s.setDom Dom.nvm .on).setDom Dom.periph .on))
  else .next s

/-- AUTO_REST_RETURN (18 R441): with AUTOREST the device returns to REST once sheets, windows, relays and acknowledgements are
done; without PREP when no core has run, otherwise it waits for a request. -/
def execAutoRestReturn (s : State) : Out :=
  let idle := (List.range 32).all (fun n => s.fld (HUB.SHSTAT n) 1 0 == 0)
  let closed := !s.sched.own && !s.sched.annOpen && !s.trk.window
  if s.bit PWR.CFG 1 ∧ pwrState s = 2 ∧ pwrPhase s = 0 ∧ s.pwr.fromRest ∧ ¬ s.pwr.ran ∧ idle ∧ closed ∧ s.lnk.relays.isEmpty ∧ s.lnk.acks.isEmpty then
    let keep := s.pwr.refresh && s.dom Dom.dramsys != .off
    .next (powerCommit (s.upPwr (fun p => { p with target := 3 })) keep)
  else .next s

/-! ### Supplies -/

/-- VBAT_CHECK (18 R447, 06 R151): the measured VBAT and VBKUP in mV are compared with the thresholds; in RUN DRAMSYS is powered once VBAT
allows it. -/
def execVbatCheck (mv : BitVec 12) (bkup : Nat) (s : State) : Out :=
  let n := mv.toNat
  let warned := s.bit PWR.VBAT 18
  let low := if s.bit PWR.VBAT 17 then decide (n ≤ 2200) else decide (n < 2100)
  let warn := decide (n < s.fld PWR.VBATWARN 11 0)
  let s := (s.setFld PWR.VBAT 11 0 n).setBit PWR.VBAT 16 (decide (n < 2000))
  let s := (s.setBit PWR.VBAT 17 low).setBit PWR.VBAT 18 warn
  let s := s.when (decide (n < 2100)) dramLowVbat
  let s := s.when (!low && s.dom Dom.dramsys == .off && pwrState s == 0 && pwrPhase s == 0) dramPowerUp
  let s := s.when (warn && !warned) (fun s => pwrEvent s 3)
  .next (s.when (decide (bkup < 1500)) (fun s => pwrEvent s 4))

/-- BACKUP_SUPPLY_SWITCH (18 R448): the supply of BKUP is chosen from VBAT and VBKUP, in mV. -/
def execBackupSupplySwitch (mv bkup : Nat) (s : State) : Out :=
  if bkup + 100 < mv ∧ 1750 ≤ mv then .next (s.setBit RTC.STATUS 5 false)
  else if mv ≤ bkup + 50 ∨ mv < 1700 then .next (s.setBit RTC.STATUS 5 true)
  else .next s

/-- 18 R448, R461: the registers of the backup domain at their reset values. -/
def resetBackup (s : State) : State :=
  { s with regs := s.regs.filter (fun e => e.1 / 4096 != 0x30003 || e.1 == RTC.CAPSTEP), rtc := {} }

/-- BACKUP_RETENTION_TRIP (18 R448, R455): the retention monitor resets the backup domain; OSF and BKUP_LOST read 1. -/
def execBackupRetentionTrip (s : State) : Out := .next (resetBackup s)

/-! ### RTC -/

/-- Days of a month. -/
def monthDays (y m : Nat) : Nat :=
  match m with
  | 2 => if y % 4 = 0 ∧ (y % 100 ≠ 0 ∨ y % 400 = 0) then 29 else 28
  | 4 => 30 | 6 => 30 | 9 => 30 | 11 => 30
  | _ => 31

/-- Year, month and day from a count of days; `n` bounds the months walked. -/
def calendarOf : Nat → Nat → Nat → Nat → Nat × Nat × Nat
  | 0, y, m, d => (y, m, d + 1)
  | n + 1, y, m, d =>
    if d < monthDays y m then (y, m, d + 1)
    else if m = 12 then calendarOf n (y + 1) 1 (d - monthDays y m) else calendarOf n y (m + 1) (d - monthDays y m)

/-- 18 R450: `RTC.CALDATE` of a seconds count; 0 after 2127-12-31. -/
def calDate (secs : Nat) : Word :=
  let days := secs / 86400
  if 46751 ≤ days then 0
  else
    let c := calendarOf 1600 2000 1 days
    BitVec.ofNat 32 ((c.1 - 2000) + 256 * c.2.1 + 65536 * c.2.2 + 2 ^ 24 * ((days + 6) % 7))

/-- 18 R450: `RTC.CALTIME` of a seconds count. -/
def calTime (secs : Nat) : Word :=
  if 46751 ≤ secs / 86400 then 0
  else BitVec.ofNat 32 (secs % 60 + 256 * (secs / 60 % 60) + 65536 * (secs / 3600 % 24))

/-- 18 R451: a read of `RTC.SUBSEC` latches the snapshot. -/
def rtcLatch (s : State) : State :=
  let n := s.rtc.secs
  let s := (s.wr RTC.SUBSEC (BitVec.ofNat 32 s.rtc.sub)).wr RTC.SECLO (BitVec.ofNat 32 n)
  ((s.wr RTC.SECHI (BitVec.ofNat 32 (n / 2 ^ 32 % 65536))).wr RTC.CALDATE (calDate n)).wr RTC.CALTIME (calTime n)

/-- 18 R452: the group a staged register belongs to: 0 time, 1 trim, 2 and 3 the alarms. -/
def rtcGroup (a : Nat) : Option Nat :=
  if a = RTC.SETSUB ∨ a = RTC.SETSECLO ∨ a = RTC.SETSECHI then some 0
  else if a = RTC.TRIM then some 1
  else if a = RTC.ALMLO 0 ∨ a = RTC.ALMHI 0 ∨ a = RTC.ALMCFG 0 then some 2
  else if a = RTC.ALMLO 1 ∨ a = RTC.ALMHI 1 ∨ a = RTC.ALMCFG 1 then some 3
  else none

/-- 18 R452: a trusted write of a staged register; while BUSY it is discarded and sets WERR. -/
def rtcStage (s : State) (a g : Nat) (v : Word) : State :=
  if s.bit RTC.STATUS 3 then s.setBit RTC.STATUS 4 true
  else (s.plainWrite a v true).upRtc (fun r => { r with staged := addOnce r.staged g })

/-- 18 R452: a write of `RTC.CMD`. -/
def rtcCmd (s : State) (v : Word) : State :=
  if !testB v.toNat 0 then s
  else if s.bit RTC.STATUS 3 then s.setBit RTC.STATUS 4 true
  else (s.setBit RTC.STATUS 3 true).upRtc (fun r => { r with apply := .asked })

/-- The staged values, in the order `SETSUB`, `SETSECLO`, `SETSECHI`, `TRIM`, then the alarms. -/
def rtcValues (s : State) : List Word :=
  [RTC.SETSUB, RTC.SETSECLO, RTC.SETSECHI, RTC.TRIM, RTC.ALMLO 0, RTC.ALMHI 0, RTC.ALMCFG 0, RTC.ALMLO 1, RTC.ALMHI 1, RTC.ALMCFG 1].map s.rd

/-- RTC_APPLY_TRANSFER (18 R452): at the next XO32 edge the staged values pass into BKUP. -/
def execRtcApplyTransfer (s : State) : Out :=
  if s.rtc.apply = .asked then
    .next (s.upRtc (fun r => { r with apply := .moved, moving := r.staged, values := rtcValues s, staged := [] }))
  else .next s

/-- An alarm from its staged values. -/
def alarmOf (lo hi cfg : Word) : Alarm :=
  { secs := lo.toNat + 2 ^ 32 * bitsOf hi 15 0, sub := bitsOf hi 30 16, en := testB cfg.toNat 0, rep := bitsOf cfg 31 8 }

/-- RTC_APPLY_COMMIT (18 R452): at the following edge the groups staged are applied; a time applied while the oscillator runs clears
OSF. -/
def execRtcApplyCommit (s : State) : Out :=
  if s.rtc.apply ≠ .moved then .next s
  else
    let v := fun i => s.rtc.values.getD i 0
    let g := s.rtc.moving
    let s := if g.contains 0 then
        let s := s.upRtc (fun r => { r with sub := bitsOf (v 0) 14 0, secs := (v 1).toNat + 2 ^ 32 * bitsOf (v 2) 15 0 })
        if s.bit RTC.STATUS 1 then s else s.setBit RTC.STATUS 0 false
      else s
    let s := if g.contains 1 ∧ ¬ testB (v 3).toNat 8 then s.setFld RTC.TRIM 20 16 (bitsOf (v 3) 4 0) else s
    let s := if g.contains 2 then s.upRtc (fun r => { r with alarms := r.alarms.set 0 (alarmOf (v 4) (v 5) (v 6)) }) else s
    let s := if g.contains 3 then s.upRtc (fun r => { r with alarms := r.alarms.set 1 (alarmOf (v 7) (v 8) (v 9)) }) else s
    .next ((s.setBit RTC.STATUS 3 false).upRtc (fun r => { r with apply := .idle, moving := [], values := [] }))

/-- The count and an alarm instant in subseconds. -/
def rtcCount (s : State) : Nat := s.rtc.secs * 32768 + s.rtc.sub
def alarmCount (a : Alarm) : Nat := a.secs * 32768 + a.sub

/-- 18 R453: the instant after the count that a repetition of REP / 1,024 s reaches. -/
def alarmAdvance (now : Nat) (a : Alarm) : Alarm :=
  let stp := 32 * a.rep
  let n := alarmCount a + ((now - alarmCount a) / stp + 1) * stp
  { a with secs := n / 32768 % 2 ^ 48, sub := n % 32768 }

/-- RTC_ALARM (18 R453): the count reaches an alarm's instant: the event, the cue producer, which IEN enables, the wake source; then the alarm is
disabled or advances. -/
def execRtcAlarm (n : Fin 2) (s : State) : Out :=
  let a := s.rtc.alarms[n]
  if !a.en || a.fired || decide (rtcCount s < alarmCount a) then .next s
  else
    let s := if alarmCount a < rtcCount s then s.setBit RTC.EVT (2 + n.val) true else s
    let s := (s.setBit RTC.EVT n.val true).when (s.bit RTC.IEN n.val) (fun s => emitProducer s .misca (14 + n.val))
    let b := if a.rep = 0 then { a with en := false, fired := true } else alarmAdvance (rtcCount s) a
    let s := s.upRtc (fun r => { r with alarms := r.alarms.set n b })
    let s := if a.rep = 0 then s.setBit (RTC.ALMCFG n.val) 0 false
      else (s.wr (RTC.ALMLO n.val) (BitVec.ofNat 32 b.secs)).wr (RTC.ALMHI n.val) (BitVec.ofNat 32 (b.secs / 2 ^ 32 + 65536 * b.sub))
    if s.pwr.blackout ∧ s.bit RTC.WAKECFG (8 + n.val) then .next (blackoutWake s n.val) else .next (wakeEvent s n.val)

/-- A quotient rounded to nearest. -/
def divRound (a b : Int) : Int := (2 * a + b) / (2 * b)

/-- 18 R454: the error e at a temperature in 0.25 °C, interpolated between the bracketing entries. -/
def trimError (s : State) (t : Int) : Int :=
  let e := fun i => sint 24 (s.fld (RTC.TTAB i) 23 0)
  let x := clampI 0 540 (t + 160)
  let i := min 14 (x / 36).toNat
  e i + (e (i + 1) - e i) * (x - 36 * i) / 36

/-- 18 R454: e32, the error of XO32 that the present CAP leaves. -/
def trimResidual (s : State) : Int :=
  trimError s (sint 16 (s.fld RTC.TEMP 15 0)) - Int.ofNat (orIfZero 1000 (s.fld RTC.CAPSTEP 11 0)) * (Int.ofNat (s.fld RTC.TRIM 20 16) - 16)

/-- RTC_TRIM_UPDATE (18 R454): with AUTO, CAP is formed from the die temperature. -/
def execRtcTrimUpdate (temp : BitVec 16) (s : State) : Out :=
  let s := s.setFld RTC.TEMP 15 0 temp.toNat
  if s.bit RTC.TRIM 8 ∧ ¬ s.pwr.blackout then
    let stp := Int.ofNat (orIfZero 1000 (s.fld RTC.CAPSTEP 11 0))
    .next (s.setFld RTC.TRIM 20 16 (clampI 0 31 (16 + divRound (trimError s temp.toInt) stp)).toNat)
  else .next s

/-- OSC_STOP_DETECT (18 R455): no XO32 edge for more than 4 periods. -/
def execOscStopDetect (s : State) : Out :=
  .next ((s.setBit RTC.STATUS 1 true).setBit RTC.STATUS 0 true)

/-- OSC_RESTART (18 R455, 01 R12): four consecutive edges clear OSCSTOP; without HFXO, RC16 is calibrated against XO32. -/
def execOscRestart (s : State) : Out :=
  .next ((s.setBit RTC.STATUS 1 false).when (!s.bit CLK.STATUS 1) rcCalibrate)

/-- 18 R455, R461: a write of `RTC.STATUS`: OSF clears only while OSCSTOP is 0. -/
def rtcStatusWrite (s : State) (v : Word) : State :=
  let clear := fun (s : State) i ok => if testB v.toNat i ∧ ok = true then s.setBit RTC.STATUS i false else s
  clear (clear (clear s 0 (!s.bit RTC.STATUS 1)) 2 true) 4 true

/-- BLACKOUT_WAKE (18 R457): an enabled source wakes BLACKOUT. -/
def execBlackoutWake (src : Fin 4) (s : State) : Out :=
  if s.pwr.blackout ∧ wakesBlackout s src.val then .next (blackoutWake s src.val) else .next s

/-- 18 R450: one XO32 edge of the RTC. -/
def rtcEdge (s : State) : State :=
  if s.bit RTC.STATUS 1 then s
  else s.upRtc (fun r => if r.sub = 32767 then { r with sub := 0, secs := (r.secs + 1) % 2 ^ 48 } else { r with sub := r.sub + 1 })

end Sys2Proof.Machine
end

