-- ==== Sys2Proof/Machine/Timers.lean ====
section
/-! DEFINITION. The motion timers (chapter 15).  Timers 0 and 1 are TMA0 and TMA1, 2 to 7 are TMG0 to TMG5. -/
namespace Sys2Proof.Machine
open Sys2Proof.Reg

/-- Whether a timer is an advanced one. -/
def tmAdvanced (x : Fin 8) : Bool := decide (x.val < 2)

/-- C, the number of channels. -/
def tmC (x : Fin 8) : Nat := if tmAdvanced x then 4 else 2

/-- W, the counter width. -/
def tmW (x : Fin 8) : Nat := if tmAdvanced x then 16 else 32

/-- The channels of a timer. -/
def tmChannels (x : Fin 8) : List (Fin 4) := (List.finRange 4).filter (fun n => decide (n.val < tmC x))

/-- Changes the state behind a timer's registers. -/
def upTimer (s : State) (x : Fin 8) (f : Timer → Timer) : State := { s with timers := s.timers.set x (f s.timers[x]) }

/-- Changes the state behind a channel. -/
def upChan (s : State) (x : Fin 8) (n : Fin 4) (f : TmChan → TmChan) : State :=
  upTimer s x (fun t => { t with chans := t.chans.set n (f t.chans[n]) })

/-- 14 R349: the producer of event bit `b` of a timer. -/
def tmProducer (x : Fin 8) (b : Nat) : Fam × Nat :=
  if x.val < 2 then (.teva, 6 * x.val + b)
  else
    let j := 3 * (x.val - 2) + (if b = 4 then 2 else b)
    if j ≤ 3 then (.teva, 12 + j) else (.tevb, j - 4)

/-- 15 R373: an event sets its bit and is emitted even when the bit is already set. -/
def tmEvent (s : State) (x : Fin 8) (b : Nat) : State :=
  let p := tmProducer x b
  (s.setBit (TM.EVT x) b true).when (s.bit (TM.IEN x) b) (fun s => emitProducer s p.1 p.2)

/-- 15 R364: whether RC16 clocks the bus. -/
def busOnRc (s : State) : Bool := !s.bit CLK.STATUS 3

def tmEn (s : State) (x : Fin 8) : Bool := s.bit (TM.CTRL x) 0
def tmMode (s : State) (x : Fin 8) (n : Nat) : Nat := s.fld (TM.CHCFG x n) 2 0

/-! ### References and outputs -/

/-- 15 R366: REF of a channel from CNT and its active compare value. -/
def tmRef (s : State) (x : Fin 8) (n : Nat) : Bool :=
  match tmMode s x n with
  | 1 => decide ((s.rd (TM.CNT x)).toNat < (s.rd (TM.CCACT x n)).toNat)
  | 2 => decide ((s.rd (TM.CCACT x n)).toNat ≤ (s.rd (TM.CNT x)).toNat)
  | 4 => true
  | _ => false

/-- 15 R367: the outputs after REF took a value: one falls at once, the other rises after DT ticks. -/
def tmDrive (s : State) (x : Fin 8) (n : Fin 4) (ref : Bool) : State :=
  let dt := if tmAdvanced x then s.fld (TM.DT x) 9 0 else 0
  upChan s x n (fun c =>
    if ref then { c with ref := true, out := dt == 0, dead := if dt = 0 then none else some dt, outN := false, deadN := none }
    else { c with ref := false, out := false, dead := none, outN := tmAdvanced x && dt == 0,
                  deadN := if tmAdvanced x ∧ dt ≠ 0 then some dt else none })

/-- 15 R366, R370, R372: every channel forms REF; a count tick that changes it emits the CC event. -/
def tmRefs (s : State) (x : Fin 8) (tick : Bool) : State :=
  (tmChannels x).foldl (fun (s : State) (n : Fin 4) =>
    let r := tmRef s x n
    if s.timers[x].chans[n].ref = r then s
    else (tmDrive s x n r).when tick (fun s => tmEvent s x n.val)) s

/-- 15 R368: the level of an output pin, if the timer drives it; `neg` is CHnN. -/
def tmPin (s : State) (x : Fin 8) (n : Fin 4) (neg : Bool) : Option Bool :=
  let c := s.timers[x].chans[n]
  let o := if neg then 4 else 0
  if !s.bit (TM.CHCFG x n) (4 + natBit neg) then none
  else if tmAdvanced x && !s.bit (TM.CTRL x) 16 then some (s.bit (TM.OUTCFG x) (16 + o + n.val))
  else if !tmEn s x then some (s.bit (TM.OUTCFG x) (8 + o + n.val))
  else some ((if neg then c.outN else c.out) != s.bit (TM.OUTCFG x) (o + n.val))

/-! ### Pins (chapter 21) -/

/-- 21 R498: the lowest pin that has a function. -/
def pinOfFunc (s : State) (f : Nat) : Option Nat := (List.range 48).find? (fun n => s.fld (PIN.CFG n) 7 0 == f)

/-- 21 R499: the listed function codes; any other acts as 0x00. -/
def pinFunc (s : State) (p : Nat) : Nat :=
  let f := s.fld (PIN.CFG p) 7 0
  if f = 1 ∨ (0x10 ≤ f ∧ f ≤ 0x18) ∨ (0x20 ≤ f ∧ f ≤ 0x28) ∨ (0x30 ≤ f ∧ f < 0x3C) ∨ (0x40 ≤ f ∧ f ≤ 0x47) ∨ (0x50 ≤ f ∧ f ≤ 0x53)
  then f else 0

/-- 21 R498, R499: the level the device drives on a pin, if it drives it. -/
def pinDrive (s : State) (p : Nat) : Option Bool :=
  let f := pinFunc s p
  let port := p / 32
  let od := s.bit (PIN.CFG p) 10 || (decide (0x40 ≤ f) && decide (f ≤ 0x47))
  let raw : Option Bool :=
    if f ≠ 0 ∧ pinOfFunc s f ≠ some p then none
    else if f = 1 then (s.hub.pins.find? (fun e => e.1 == p)).map (fun e => e.2)
    else if 0x10 ≤ f ∧ f < 0x18 then tmPin s 0 (Fin.ofNat 4 ((f - 0x10) / 2)) (f % 2 == 1)
    else if 0x20 ≤ f ∧ f < 0x28 then tmPin s 1 (Fin.ofNat 4 ((f - 0x20) / 2)) (f % 2 == 1)
    else if 0x30 ≤ f ∧ f < 0x3C then tmPin s (Fin.ofNat 8 (2 + (f - 0x30) / 2)) (Fin.ofNat 4 ((f - 0x30) % 2)) false
    else if f = 0x18 ∨ f = 0x28 ∨ (0x40 ≤ f ∧ f ≤ 0x47) ∨ (0x50 ≤ f ∧ f ≤ 0x53) then none
    else if s.bit (GPIO.DIR port) (p % 32) then some (s.bit (GPIO.OUT port) (p % 32)) else none
  match raw with
  | some true => if od then none else some true
  | r => r

/-- A free value for the level of a pad that is not defined (21 R505, log 10). -/
def padFree (s : State) (p : Nat) : Bool := Config.freeNat (s.free + p) % 2 == 1

/-- 21 R501, R505: the level of a pad the device does not drive: what the outside gives, else that of the pull, else undefined. -/
def padIn (s : State) (p : Nat) : Bool :=
  if s.pins.extOn.getLsbD p then s.pins.ext.getLsbD p
  else if s.fld (PIN.CFG p) 9 8 = 2 then true else if s.fld (PIN.CFG p) 9 8 = 1 then false else padFree s p

/-- 21 R505: the level of a pad: what the device drives; undefined where the outside drives it to the other level. -/
def padLevel (s : State) (p : Nat) : Bool :=
  match pinDrive s p with
  | some d => if s.pins.extOn.getLsbD p && s.pins.ext.getLsbD p != d then padFree s p else d
  | none => padIn s p

/-- The levels of port `p` as `PIN.LEVELp` and `GPIO.INp` read them. -/
def portLevels (s : State) (p : Nat) : Word :=
  BitVec.ofNat 32 (packBits (if p = 0 then 32 else 16) (fun b => padLevel s (32 * p + b)))

/-- An undefined pad may change between samples. -/
def padsSampled (s : State) : State := { s with free := s.free + 48 }

/-! ### The break input -/

/-- 15 R369: the break input: BRKEN, and the assigned pin at the level of BRKPOL. -/
def brkActive (s : State) (x : Fin 8) : Bool :=
  tmAdvanced x && s.bit (TM.CTRL x) 18 &&
  (match pinOfFunc s (0x18 + 16 * x.val) with
   | some p => padIn s p == s.bit (TM.CTRL x) 19
   | none => false)

/-- 15 R369: a break: MOE is cleared and the BRK event emitted. -/
def tmBreak (s : State) (x : Fin 8) : State := tmEvent (s.setBit (TM.CTRL x) 16 false) x 5

/-- 15 R369: the break input is evaluated; its becoming active is a break. -/
def tmBreakCheck (s : State) (x : Fin 8) : State :=
  let a := brkActive s x
  let was := s.bit (TM.STATUS x) 3
  (s.setBit (TM.STATUS x) 3 a).when (a && !was) (fun s => tmBreak s x)

/-- A pin has changed its level: where the device itself does not drive it so, an outside source does; the break inputs see it. -/
def setExt (s : State) (p : Nat) (v : Bool) : State :=
  let m := BitVec.ofNat 48 (2 ^ p)
  let s := if pinDrive s p = some v then s else
    { s with pins := { s.pins with extOn := s.pins.extOn ||| m, ext := if v then s.pins.ext ||| m else s.pins.ext &&& ~~~ m } }
  tmBreakCheck (tmBreakCheck s 0) 1

/-! ### Counting -/

/-- 15 R365: a copy point: with preload PER, CCn and PSC are copied; UPD; with AOE, MOE while the break input is inactive. -/
def tmCopy (s : State) (x : Fin 8) : State :=
  let s := if s.bit (TM.CTRL x) 2 then s
    else
      let s := (s.wr (TM.PERACT x) (s.rd (TM.PER x))).setFld (TM.STATUS x) 10 8 (s.fld (TM.CTRL x) 10 8)
      (tmChannels x).foldl (fun (s : State) (n : Fin 4) => s.wr (TM.CCACT x n) (s.rd (TM.CC x n))) s
  let s := s.when (tmAdvanced x && s.bit (TM.CTRL x) 17 && !s.bit (TM.STATUS x) 3) (fun s => s.setBit (TM.CTRL x) 16 true)
  tmEvent s x 4

/-- 15 R362, R371: CNT and DIR after a tick, and whether the tick is a copy point. -/
def tmStep (s : State) (x : Fin 8) : Nat × Bool × Bool :=
  let c := (s.rd (TM.CNT x)).toNat
  let pa := (s.rd (TM.PERACT x)).toNat
  let down := s.bit (TM.STATUS x) 0
  let copy := orIfZero 1 (s.fld (TM.CTRL x) 5 4)
  if !s.bit (TM.CTRL x) 1 then (if pa ≤ c + 1 then (0, false, true) else (c + 1, false, false))
  else if down then (if c = 0 then (0, false, testB copy 0) else (c - 1, true, false))
  else if pa ≤ c + 1 then (pa - 1, true, testB copy 1) else (c + 1, false, false)

/-- 15 R367, R376: what a tick moves beside CNT: the dead times and the widths of started pulses. -/
def tmCounters (s : State) (x : Fin 8) : State :=
  (tmChannels x).foldl (fun (s : State) (n : Fin 4) =>
    let c := s.timers[x].chans[n]
    let top := 2 ^ tmW x - 1
    let full := match c.width with | some w => decide (top ≤ w + 1) | none => false
    (upChan s x n (fun c => { c with dead := c.dead.map (fun d => d - 1), deadN := c.deadN.map (fun d => d - 1),
                                      width := c.width.map (fun w => min top (w + 1)) })).when
      (full && s.phase != 1) (fun s => s.setBit (TM.EVT x) (16 + n.val) true)) s

/-- 15 R363, R364: one tick of 31.25 ns of the prescaler: two bus clocks of 64 MHz, or half a clock of RC16, which advances the accumulator by
4 and clears its two lowest bits; each multiple of 2^PS that it crosses owes a count tick, one at most in a bus clock. -/
def prescale (s : State) (x : Fin 8) : Timer :=
  let t := s.timers[x]
  let p := 2 ^ s.fld (TM.STATUS x) 10 8
  let a := t.acc / 4 * 4
  if !tmEn s x || (busOnRc s && s.uptime % 2 == 1) then t
  else if busOnRc s then { t with acc := (a + 4) % 128, owed := t.owed + min 1 ((a + 4) / p - a / p) }
  else { t with acc := (t.acc + 2) % 128, owed := t.owed + ((t.acc + 2) / p - t.acc / p) }

/-- TIMER_COUNT_TICK (15 R362 to R372): one count tick of an enabled timer, which its prescaler has given. -/
def execTimerCountTick (x : Fin 8) (s : State) : Out :=
  if !tmEn s x || s.timers[x].owed == 0 then .next s
  else
    let s := tmCounters (upTimer s x (fun t => { t with owed := t.owed - 1 })) x
    if s.rd (TM.PERACT x) = 0 then .next (tmRefs (s.wr (TM.CNT x) 0) x false)
    else
      let r := tmStep s x
      let s := (s.wr (TM.CNT x) (BitVec.ofNat 32 r.1)).setBit (TM.STATUS x) 0 r.2.1
      .next (tmRefs (s.when r.2.2 (fun s => tmCopy s x)) x true)

/-- DEAD_TIME_EXPIRY (15 R367): DT ticks have passed since the reference of the output rose; `neg` is CHnN. -/
def execDeadTimeExpiry (x : Fin 2) (n : Fin 4) (neg : Bool) (s : State) : Out :=
  let x : Fin 8 := ⟨x.val, by omega⟩
  let c := s.timers[x].chans[n]
  if neg then
    (if c.deadN = some 0 then .next (upChan s x n (fun c => { c with outN := true, deadN := none })) else .next s)
  else (if c.dead = some 0 then .next (upChan s x n (fun c => { c with out := true, dead := none })) else .next s)

/-! ### Enabling, triggers and breaks -/

/-- 15 R377: EN ← 0: dead times, a taken trigger and started pulses are discarded. -/
def tmStop (s : State) (x : Fin 8) : State :=
  upTimer (s.setBit (TM.CTRL x) 0 false) x (fun t => { t with
    trg := false
    owed := 0
    chans := t.chans.map (fun c => { c with dead := none, deadN := none, width := none }) })

/-- 15 R377: EN ← 1: each output acts as if its reference had just taken its value. -/
def tmStart (s : State) (x : Fin 8) : State :=
  (tmChannels x).foldl (fun (s : State) (n : Fin 4) => tmDrive s x n (tmRef s x n)) (s.setBit (TM.CTRL x) 0 true)

/-- 14 R350, 15 R374: consumer TRG of a timer takes an event; a second one before the action is an overrun.  `k` is the number of
the consumer. -/
def tmTakeTrg (s : State) (x : Fin 8) (k : Nat) : State :=
  if s.timers[x].trg then setOvr s k
  else if s.fld (TM.CTRL x) 13 12 = 0 then s
  else upTimer s x (fun t => { t with trg := true })

/-- 15 R374: the action of a taken trigger, at the next bus clock. -/
def tmAct (s : State) (x : Fin 8) (act : Nat) (f : State → State) : State :=
  if s.timers[x].trg ∧ s.fld (TM.CTRL x) 13 12 = act then f (upTimer s x (fun t => { t with trg := false })) else s

/-- TIMER_TRG_START (15 R374). -/
def execTimerTrgStart (x : Fin 8) (s : State) : Out :=
  .next (tmAct s x 1 (fun s => if tmEn s x then s else tmStart s x))

/-- 15 R374: CNT ← 0 and DIR ← 0, treated as a copy point; the prescaler starts over. -/
def tmRestart (s : State) (x : Fin 8) : State :=
  let s := (s.wr (TM.CNT x) 0).setBit (TM.STATUS x) 0 false
  tmRefs (tmCopy (upTimer s x (fun t => { t with acc := 0, owed := 0 })) x) x true

/-- TIMER_TRG_RESTART (15 R374). -/
def execTimerTrgRestart (x : Fin 8) (s : State) : Out := .next (tmAct s x 2 (fun s => tmRestart s x))

/-- TIMER_TRG_STOP (15 R374, R377). -/
def execTimerTrgStop (x : Fin 8) (s : State) : Out := .next (tmAct s x 3 (fun s => tmStop s x))

/-- TIMER_BREAK_PIN (15 R369): the assigned break pin takes its BRKPOL level. -/
def execTimerBreakPin (x : Fin 2) (s : State) : Out :=
  match pinOfFunc s (0x18 + 16 * x.val) with
  | some p => .next (setExt s p (s.bit (TM.CTRL x) 19))
  | none => .next s

/-- TIMER_BREAK_RELEASE (15 R369): the break pin leaves its BRKPOL level. -/
def execTimerBreakRelease (x : Fin 2) (s : State) : Out :=
  match pinOfFunc s (0x18 + 16 * x.val) with
  | some p => .next (setExt s p (!s.bit (TM.CTRL x) 19))
  | none => .next s

/-- 15 R369: an event on consumer TMAk BRK breaks with BRKCUE = 1. -/
def tmCueBreak (s : State) (x : Fin 8) : State := if s.bit (TM.CTRL x) 20 then tmBreak s x else s

/-- TIMER_BREAK_CUE (15 R369, 14 R352): the break consumer of TMA0 or TMA1 takes its event. -/
def execTimerBreakCue (x : Fin 2) (s : State) : Out :=
  if s.cueQ.contains (.cons (31 + 2 * x.val)) then
    .next (tmCueBreak { s with cueQ := s.cueQ.filter (fun t => t != .cons (31 + 2 * x.val)) } ⟨x.val, by omega⟩)
  else .next s

/-! ### Input capture -/

/-- 15 R375: loads CNT into CCn and emits CCn; OVCn when the last capture was not cleared. -/
def tmCapture (s : State) (x : Fin 8) (n : Fin 4) : State :=
  let s := s.when (s.bit (TM.EVT x) n.val) (fun s => s.setBit (TM.EVT x) (8 + n.val) true)
  tmEvent (s.wr (TM.CC x n) (s.rd (TM.CNT x))) x n.val

/-- TIMER_CAPTURE_EDGE (15 R375): in RUN a level of a capture pin is accepted. -/
def execTimerCaptureEdge (x : Fin 8) (n : Fin 4) (rising : Bool) (s : State) : Out :=
  if tmC x ≤ n.val ∨ tmMode s x n ≠ 5 ∨ s.phase ≠ 1 then .next s
  else
    let e := orIfZero 1 (s.fld (TM.CHCFG x n) 9 8)
    if !(if rising then testB e 0 else testB e 1) then .next s
    else
      let k := s.timers[x].chans[n].edges + 1
      if 2 ^ s.fld (TM.CHCFG x n) 17 16 ≤ k then .next (tmCapture (upChan s x n (fun c => { c with edges := 0 })) x n)
      else .next (upChan s x n (fun c => { c with edges := k }))

/-- TIMER_PULSE_EDGE (15 R376): outside RUN a capture channel measures a pulse. -/
def execTimerPulseEdge (x : Fin 8) (n : Fin 4) (rising : Bool) (s : State) : Out :=
  if tmC x ≤ n.val ∨ tmMode s x n ≠ 5 ∨ s.phase = 1 then .next s
  else if rising != s.bit (TM.OUTCFG x) n.val then
    .next (upChan (s.wr (TM.CC x n) (s.rd (TM.CNT x))) x n (fun c => { c with width := some 0 }))
  else match s.timers[x].chans[n].width with
    | none => .next s
    | some w =>
      let s := upChan s x n (fun c => { c with width := none })
      let s := (s.wr (TM.CAPF x n) (s.rd (TM.CNT x))).wr (TM.WIDTH x n) (BitVec.ofNat 32 w)
      let s := s.when (s.bit (TM.EVT x) n.val) (fun s => s.setBit (TM.EVT x) (8 + n.val) true)
      .next (tmEvent s x n.val)

/-- 15 R376: a change of `SYS.PHASE` discards started pulses. -/
def tmPhaseChange (s : State) : State :=
  { s with timers := s.timers.map (fun t => { t with chans := t.chans.map (fun c => { c with width := none, edges := 0 }) }) }

/-! ### Register writes -/

/-- A write of `TMx.CTRL` (15 R362, R365, R369, R377). -/
def tmCtrlWrite (s : State) (x : Fin 8) (v : Word) (trusted : Bool) : State :=
  let old := s.rd (TM.CTRL x)
  let s := s.plainWrite (TM.CTRL x) v trusted
  let new := s.rd (TM.CTRL x)
  let moe := testB old.toNat 16
  let s := if tmAdvanced x ∧ s.bit (TM.STATUS x) 3 ∧ ¬ moe then s.setBit (TM.CTRL x) 16 false else s
  let s := tmBreakCheck s x
  let s := s.when (!testB new.toNat 1) (fun s => s.setBit (TM.STATUS x) 0 false)
  let s := s.when (testB new.toNat 2) (fun s => s.setFld (TM.STATUS x) 10 8 (bitsOf new 10 8))
  if testB new.toNat 0 && !testB old.toNat 0 then tmStart s x
  else if !testB new.toNat 0 && testB old.toNat 0 then tmStop s x
  else s

/-- 15 R372: a write of CNT keeps the direction and emits no event. -/
def tmCntWrite (s : State) (x : Fin 8) (v : Word) (trusted : Bool) : State :=
  tmRefs (s.plainWrite (TM.CNT x) v trusted) x false

/-- 15 R365: a write of PER; it reaches PERACT at once with IMM, or while PERACT is 0. -/
def tmPerWrite (s : State) (x : Fin 8) (v : Word) (trusted : Bool) : State :=
  let s := s.plainWrite (TM.PER x) v trusted
  if s.bit (TM.CTRL x) 2 ∨ s.rd (TM.PERACT x) = 0 then s.wr (TM.PERACT x) (s.rd (TM.PER x)) else s

/-- 15 R365, R370, R375: a write of CCn, discarded while the channel captures; with IMM it reaches CCnACT, without a CC event. -/
def tmCcWrite (s : State) (x : Fin 8) (n : Fin 4) (v : Word) (trusted : Bool) : State :=
  if tmMode s x n = 5 then s
  else
    let s := s.plainWrite (TM.CC x n) v trusted
    if s.bit (TM.CTRL x) 2 then tmRefs (s.wr (TM.CCACT x n) (s.rd (TM.CC x n))) x false else s

/-- 15 R377: a write of CHnCFG; a new MODE acts without a CC event. -/
def tmChWrite (s : State) (x : Fin 8) (n : Fin 4) (v : Word) (trusted : Bool) : State :=
  let old := tmMode s x n
  let s := s.plainWrite (TM.CHCFG x n) v trusted
  let s := if tmMode s x n = old then s else upChan s x n (fun c => { c with edges := 0, width := none })
  tmRefs s x false

/-- 15 R363, R364: `TMx.STATUS` as a read finds it. -/
def tmStatus (s : State) (x : Fin 8) : State :=
  let slow := busOnRc s
  (s.setBit (TM.STATUS x) 1 slow).setBit (TM.STATUS x) 2 (slow && decide (s.fld (TM.STATUS x) 10 8 < 2))

end Sys2Proof.Machine
end

