-- ==== Sys2Proof/Machine/Recover.lean ====
section
/-! DEFINITION. The recovery of the journal after a main reset, as the boot ROM runs it (07 R181 to R187, 19 R478). -/
namespace Sys2Proof.Machine
open Sys2Proof.Reg

/-- A journal record with its slot (07 R181). -/
structure JRec where
  slot : Nat
  seq : Nat
  type : Nat
  sub : Nat
  sector : Nat
  off : Nat
  len : Nat
  value : Nat
  desc : Nat
  deriving DecidableEq, Repr

/-- 07 R182: whether a TYPE is defined. -/
def typeDefined (t : Nat) : Bool := (decide (1 ≤ t) && decide (t ≤ 10)) || t == 15

/-- 07 R181: the record in a slot, if it is valid: its TYPE is defined and its CRC matches. -/
def recordAt (s : State) (k : Nat) : Option JRec :=
  if !typeDefined (s.byte (journalAt k + 4)).toNat then none
  else
    let bs := s.bytes (journalAt k) 32
    let f := fun i n => leNat ((bs.drop i).take n)
    if f 24 4 = crc32 (bs.take 24) then
      some { slot := k, seq := f 0 4, type := f 4 1, sub := f 5 1, sector := f 6 2, off := f 8 4, len := f 12 4, value := f 16 4, desc := f 20 4 }
    else none

/-- 07 R181: whether SEQ `a` is newer than `b`. -/
def seqNewer (a b : Nat) : Bool :=
  let d := (a + 2 ^ 32 - b) % 2 ^ 32
  decide (1 ≤ d) && decide (d < 2 ^ 31)

/-- Puts a record into a list in the order of SEQ. -/
def insertRec (r : JRec) : List JRec → List JRec
  | [] => [r]
  | x :: l => if seqNewer x.seq r.seq then r :: x :: l else x :: insertRec r l

/-- 07 R183: whether two records carry equal bytes 4 to 23. -/
def sameRec (a b : JRec) : Bool := decide ({ a with slot := 0, seq := 0 } = { b with slot := 0, seq := 0 })

/-- 07 R186: the valid records of all slots by SEQ, without those of which a newer copy is there. -/
def journalRecs (s : State) : List JRec :=
  let l := ((List.range 512).filterMap (recordAt s)).foldl (fun l r => insertRec r l) []
  l.filter (fun r => l.all (fun x => !(sameRec x r && seqNewer x.seq r.seq)))

/-- 07 R182: whether record `c` closes record `r`. -/
def closes (c r : JRec) : Bool :=
  seqNewer c.seq r.seq &&
  ((c.type == 15 && c.value == r.seq && c.len % 256 == r.type) ||
   (c.type == r.type + 1 &&
    (match r.type with
     | 1 => c.sector == r.sector
     | 3 => c.off == r.off && c.len == r.len
     | _ => c.sub == r.sub)))

/-- 07 R182: whether a record is one that is closed later. -/
def opens (r : JRec) : Bool := r.type == 1 || r.type == 3 || r.type == 5 || r.type == 7 || r.type == 9

/-- The open records. -/
def openRecs (l : List JRec) : List JRec := l.filter (fun r => opens r && l.all (fun c => !closes c r))

/-- 07 R182: the records that are live: the open ones, and each CLOSE of an ERASE_OPEN that no later ERASE_OPEN of its sector follows. -/
def liveRecs (l : List JRec) : List JRec :=
  openRecs l ++ l.filter (fun r => r.type == 15 && r.len % 256 == 1 && l.all (fun x => !(x.type == 1 && x.sector == r.sector && seqNewer x.seq r.seq)))

/-- 07 R164: the erase count of a sector's marker, if the marker is valid. -/
def markerCount (s : State) (sec : Nat) : Option Nat :=
  let m := s.bytes (flashAt (0x4000 * sec + 0x3FC0)) 64
  if m = eraseMarker sec (leNat ((m.drop 8).take 4)) then some (leNat ((m.drop 8).take 4)) else none

/-- Whether nothing was ever written to the marker burst of a sector, which is then the valid one of the factory (log 5). -/
def markerUntouched (s : State) (sec : Nat) : Bool :=
  s.mem.all (fun c => decide (c.1 < flashAt (0x4000 * sec + 0x3FC0)) || decide (flashAt (0x4000 * sec + 0x4000) ≤ c.1))

/-- 07 R185: whether a sector is settled. -/
def settled (s : State) (l : List JRec) (sec : Nat) : Bool :=
  match (l.filter (fun r => r.sector == sec && (r.type == 1 || r.type == 2 || (r.type == 15 && r.len % 256 == 1)))).getLast? with
  | some r => r.type == 2 && markerCount s sec == some r.value
  | none => markerUntouched s sec || (markerCount s sec).isSome

/-- Appends the CLOSE of an open record with the outcome RECOVERED. -/
def closeRecovered (s : State) (r : JRec) : State := (journalWrite s 15 3 r.sector r.off r.type r.seq r.desc).2.2

/-- 07 R186: what the recovery does about one open record.  Its reports go to firmware and change nothing here (log 103). -/
def recoverRec (s : State) (r : JRec) : State :=
  match r.type with
  | 1 =>
    if markerCount s r.sector = some r.value then
      let s := (journalWrite s 2 0 r.sector r.off r.len r.value r.desc).2.2
      setWear s r.sector (max (wearCount s r.sector) r.value)
    else closeRecovered s r
  | 3 =>
    if crc32 (s.bytes (flashAt r.off) r.len) = r.value then (journalWrite s 4 0 r.sector r.off r.len r.value r.desc).2.2
    else closeRecovered s r
  | 5 =>
    if crc32 (s.bytes (flashAt r.off) 512) = r.value then (journalWrite s 6 r.sub r.sector r.off 512 0 r.desc).2.2
    else s.setBit FLC.BKSLOT r.sub true
  | _ => closeRecovered s r

/-- 07 R186: the recovery run, which ends with JREADY. -/
def recoverFlash (s : State) : State :=
  let s := mramFlush s
  let l := journalRecs s
  let s := match l.getLast? with
    | some r => (s.setFld MRC.JHEAD 8 0 ((r.slot + 1) % 512)).wr MRC.JSEQ (BitVec.ofNat 32 (r.seq + 1))
    | none => s
  let s := (List.range 16).foldl (fun (s : State) i => s.wr (MRC.JLIVE i) 0) s
  let s := (openRecs l).foldl recoverRec s
  let l := journalRecs s
  let s := (liveRecs l).foldl (fun (s : State) r => setLive s r.slot true) s
  let s := (List.range 256).foldl (fun (s : State) sec => s.setBit (FLC.UNSETTLED (sec / 32)) (sec % 32) (!settled s l sec)) s
  s.setBit FLC.CTRL 0 true

end Sys2Proof.Machine
end

