-- ==== Sys2Proof/Machine/Units.lean ====
section
/-! DEFINITION. The public-key, hash and random-number units, and the alarms (17 R424 to R429, R432). -/
namespace Sys2Proof.Machine
open Sys2Proof.Reg

/-! ### PKA -/

/-- 17 R427: 32 bytes of the operand memory. -/
def pkaGet (s : State) (off : Nat) : List Byte := s.regBytes (0x30007000 + off) 8

/-- Writes 32 bytes of the operand memory. -/
def pkaPut (s : State) (off : Nat) (bs : List Byte) : State := s.wrWords (0x30007000 + off) (leWords bs)

/-- A big-endian value of the operand memory. -/
def pkaNat (s : State) (off : Nat) : Nat := beNat (pkaGet s off)

/-- Whether a P-256 scalar is 1 to n − 1. -/
def scalarOk (d : Nat) : Bool := decide (0 < d) && decide (d < n256)

/-- 17 R427: an operation of PKA: RESULT and the operand memory, D not yet cleared. -/
def pkaOp (s : State) (op : Nat) : Nat × State :=
  let d := pkaNat s 0x400
  let e := pkaNat s 0x420
  let q := (pkaNat s 0x440, pkaNat s 0x460)
  match op with
  | 1 =>
    if !rngReady s then (4, s)
    else if !scalarOk d then (3, s)
    else let (k, s) := drawScalar s
         let g := ecdsaSign d e k
         (0, pkaPut (pkaPut s 0x480 (beBytes 32 g.1)) 0x4A0 (beBytes 32 g.2))
  | 2 => if !onCurve q then (2, s) else if ecdsaVerify q e (pkaNat s 0x480) (pkaNat s 0x4A0) then (0, s) else (1, s)
  | 3 =>
    if !scalarOk d then (3, s)
    else if !onCurve q then (2, pkaPut s 0x480 (List.replicate 32 0))
    else (0, pkaPut s 0x480 (beBytes 32 ((ptMul d (some q)).getD (0, 0)).1))
  | 4 =>
    if !rngReady s then (4, s)
    else let (d, s) := drawScalar s
         let q := (ptMul d (some g256)).getD (0, 0)
         (0, pkaPut (pkaPut (pkaPut s 0x400 (beBytes 32 d)) 0x440 (beBytes 32 q.1)) 0x460 (beBytes 32 q.2))
  | 5 => (if onCurve q then 0 else 2, s)
  | _ =>
    let r := x25519 (leNat (pkaGet s 0x400)) (leNat (pkaGet s 0x440))
    if r = 0 then (2, pkaPut s 0x480 (List.replicate 32 0)) else (0, pkaPut s 0x480 (leBytes 32 r))

/-- Ends the PKA operation with a result and sets DONE. -/
def pkaEnd (s : State) (res : Nat) : State :=
  let s := (s.setFld PKA.STATUS 7 4 res).setBit PKA.STATUS 0 false
  (s.upKeys (fun k => { k with pka := none })).event PKA.EVT PKA.IEN 0 .miscb 14

/-- 17 R427, R432: a write of `PKA.CMD`: discarded while busy; BUSY while KEY holds PKA; an OP outside 1 to 6 starts nothing
(log 38). -/
def pkaCmdWrite (s : State) (v : Word) : State :=
  let op := bitsOf v 3 0
  if s.keys.pka.isSome ∨ op = 0 ∨ 6 < op then s
  else if keyHoldsPka s then pkaEnd s 5
  else (s.setBit PKA.STATUS 0 true).upKeys (fun k => { k with pka := some op })

/-- PKA_DONE (17 R427): the operation completes; D is cleared, except that key generation leaves it as its output (log 39). -/
def execPkaDone (s : State) : Out :=
  match s.keys.pka with
  | none => .next s
  | some op =>
    let r := pkaOp s op
    let s := if op = 4 ∧ r.1 = 0 then r.2 else pkaPut r.2 0x400 (List.replicate 32 0)
    .next (pkaEnd s r.1)

/-! ### HSH -/

/-- The block size of the selected hash. -/
def hshBlock (s : State) : Nat := if s.bit HSH.CTRL 0 then 128 else 64

/-- The chaining value after whole blocks. -/
def hshRun (s : State) (chain : List Nat) (bs : List Byte) : List Nat :=
  if s.bit HSH.CTRL 0 then (sha512Run (chain.map (BitVec.ofNat 64)) bs).map BitVec.toNat
  else (sha256Run (chain.map (BitVec.ofNat 32)) bs).map BitVec.toNat

/-- Feeds bytes to the message: whole blocks are hashed, the rest waits. -/
def hshFeed (s : State) (bs : List Byte) : State :=
  let h := s.keys.hash
  let all := h.part ++ bs
  let n := all.length / hshBlock s * hshBlock s
  s.upKeys (fun k => { k with hash := { h with
    chain := hshRun s h.chain (all.take n), count := h.count + bs.length, part := all.drop n } })

/-- 17 R428, R432: a write of `HSH.CTRL`: ALG, and INIT starts a message. -/
def hshCtrlWrite (s : State) (v : Word) : State :=
  let s := s.plainWrite HSH.CTRL v true
  if bitsOf v 1 1 = 1 then
    let h : HashMsg := { chain := if s.bit HSH.CTRL 0 then h512.map BitVec.toNat else h256.map BitVec.toNat }
    (s.wr HSH.STATUS 0).upKeys (fun k => { k with hash := h })
  else s

/-- 17 R428: a word pushed to `HSH.DATA`, big-endian; discarded while a feed runs. -/
def hshPush (s : State) (v : Word) : State := if s.keys.hash.go.isSome then s else hshFeed s (beBytes 4 v.toNat)

/-- 17 R428, R432: a write of `HSH.GO`: discarded while busy; a feed without LAST of a length that is no multiple of the block is
refused with BADLEN. -/
def hshGo (s : State) (v : Word) : State :=
  if s.keys.hash.go.isSome ∨ bitsOf v 2 0 = 0 ∨ bitsOf v 2 0 = 2 then s
  else if bitsOf v 0 0 = 1 ∧ bitsOf v 1 1 = 0 ∧ (s.rd HSH.LEN).toNat % hshBlock s ≠ 0 then s.setBit HSH.STATUS 2 true
  else (s.wr HSH.STATUS 1).upKeys (fun k => { k with hash := { k.hash with go := some v } })

/-- The digest of the finished message as words, big-endian. -/
def hshDigest (s : State) : List Word :=
  if s.bit HSH.CTRL 0 then beWords (s.keys.hash.chain.flatMap (beBytes 8))
  else beWords (s.keys.hash.chain.flatMap (beBytes 4)) ++ List.replicate 8 0

/-- HSH_DONE (17 R428): the feed completes, with its padding and the digest where it was the last. -/
def execHshDone (s : State) : Out :=
  match s.keys.hash.go with
  | none => .next s
  | some v =>
    let s := s.upKeys (fun k => { k with hash := { k.hash with go := none } })
    let r := if bitsOf v 0 0 = 1 then physRead s 0 (s.rd HSH.SRC).toNat (s.rd HSH.LEN).toNat else (some [], s)
    match r with
    | (none, s) => .next (s.wr HSH.STATUS 8)
    | (some bs, s) =>
      let s := hshFeed s bs
      let last := bitsOf v 2 2 = 1 ∨ bitsOf v 1 1 = 1
      let s := if last then hshFeed s (shaPad (hshBlock s) s.keys.hash.count) else s
      let s := if last then s.wrWords (HSH.DIGEST 0) (hshDigest s) else s
      .next (emitProducer (s.wr HSH.STATUS 2) .miscb 14)

/-! ### RNG -/

/-- Shows the words ready in `RNG.STATUS` (log 40). -/
def rngShow (s : State) : State := s.setFld RNG.STATUS 7 4 (min 15 s.keys.fifo.length)

/-- 17 R429: output stops and the FIFO is flushed. -/
def rngStop (s : State) : State := rngShow ((s.setBit RNG.STATUS 0 false).upKeys (fun k => { k with fifo := [] }))

/-- 17 R429, R432: a write of `RNG.CTRL`: RESTART runs the start-up test, RESEED draws new entropy; EN = 0 stops the output and
EN = 1 starts with the test (log 40), but after a failed test only RESTART does. -/
def rngCtrlWrite (s : State) (v : Word) : State :=
  let was := s.bit RNG.CTRL 0
  let s := s.plainWrite RNG.CTRL v true
  let s := if bitsOf v 0 0 = 0 then rngStop (s.setBit RNG.STATUS 2 false) else s
  let s := if bitsOf v 0 0 = 1 ∧ (bitsOf v 1 1 = 1 ∨ (was = false ∧ s.bit RNG.STATUS 1 = false)) then rngStop (s.setBit RNG.STATUS 2 true) else s
  if bitsOf v 2 2 = 1 then s.draw.2 else s

/-- 17 R429: `RNG.DATA`: the next word, the FIFO refilled behind it; 0 and EMPTY without output. -/
def rngRead (s : State) : Word × State :=
  match s.keys.fifo with
  | [] => (0, s.setBit RNG.EVT 1 true)
  | w :: rest =>
    let r := s.draw
    (w, rngShow (r.2.upKeys (fun k => { k with fifo := rest ++ [r.1] })))

/-- TRNG_STARTUP_DONE (17 R429): the start-up test passes: the DRBG is instantiated and output begins. -/
def execTrngStartupDone (s : State) : Out :=
  if s.bit RNG.STATUS 2 ∧ s.bit RNG.CTRL 0 then
    let r := s.drawBytes 16
    .next (rngShow ((r.2.setFld RNG.STATUS 2 0 1).upKeys (fun k => { k with fifo := leWords r.1 })))
  else .next s

/-- TRNG_HEALTH_FAIL (17 R429): a failed test stops the output. -/
def execTrngHealthFail (s : State) : Out :=
  if !s.bit RNG.CTRL 0 then .next s else
  let s := rngStop ((s.setBit RNG.STATUS 1 true).setBit RNG.STATUS 2 false)
  .next (emitProducer (s.setBit RNG.EVT 0 true) .miscb 15)

/-! ### Alarms -/

/-- 17 R425: what an alarm erases. -/
def keyErase (s : State) : State :=
  let s := s.upKeys (fun k => { k with
    mem := none, wrap := none, tag := none, ident := none, cache := [], hash := {}, fifo := [] })
  let s := ((s.resetRegs (KEY.WDATA 0) 32).resetRegs (PKA.RAM 0) 1024).setBit HSH.STATUS 0 false
  let r := s.drawBytes (if rngReady s then 16 else 0)
  rngShow (r.2.upKeys (fun k => { k with fifo := leWords r.1 }))

/-- 17 R416: a slot command that an alarm meets: the record words written before it stand, no further one is written. -/
def alarmCommand (s : State) (words : Nat) : State :=
  match s.keys.cmd with
  | none => s
  | some c =>
    let op := bitsOf c.cmd 3 0
    let s := if op ≤ 5 ∧ words ≠ 0 ∧ s.bit KEY.STATUS 1 then match slotCommand s c with
        | (0, some r, s) => slotWriteWords s (bitsOf c.cmd 12 8) (min words 7) r
        | _ => s
      else s
    keyEnd s c 11

/-- 17 R425: an alarm of source `i`; `words` is how many words of a slot's record a running command had written.  BLACKOUT watches none
(R424). -/
def alarm (s : State) (i words : Nat) : State :=
  if s.fld PWR.STATUS 2 0 = 4 then s else
  let s := alarmCommand s words
  let s := s.keys.jobs.foldl (fun (s : State) (j : Job) => jobEnd s j 13) (s.upKeys (fun k => { k with jobs := [] }))
  let s := if s.keys.pka.isSome then pkaEnd s 6 else s
  let s := keyErase (jobShow s)
  let r := s.draw
  let s := r.2.upKeys (fun k => { k with session := r.1 })
  let s := (s.setBit KEY.STATUS 1 false).setBit AES.STATUS 8 false
  let s := ((s.setBit KEY.ALARM i true).setBit KEY.ALARM (8 + i) true).bump KEY.ALARM 31 24 1
  let s := logFault s 0x21 0xD i 0 0
  if i = 3 then emitProducer s .miscb 13 else s

/-- ALARM_SUPPLY_GLITCH (17 R424). -/
def execAlarmSupplyGlitch (words : Nat) (s : State) : Out := .next (alarm s 0 words)
/-- ALARM_CLOCK_GLITCH (17 R424). -/
def execAlarmClockGlitch (words : Nat) (s : State) : Out := .next (alarm s 1 words)
/-- ALARM_TEMPERATURE (17 R424). -/
def execAlarmTemperature (words : Nat) (s : State) : Out := .next (alarm s 2 words)
/-- ALARM_TAMP (17 R424): while TAMPEN is 1. -/
def execAlarmTamp (words : Nat) (s : State) : Out := .next (s.when (s.bit KEY.ALARM 16) (fun s => alarm s 3 words))
/-- ALARM_CONDITION_END (17 R426): the condition of a source ends and its ACTIVE bit clears. -/
def execAlarmConditionEnd (src : Fin 4) (s : State) : Out := .next (s.setBit KEY.ALARM src.val false)

end Sys2Proof.Machine
end

