-- ==== Sys2Proof/Machine/Svc.lean ====
section
/-! DEFINITION. The service port and its packets, the settings and the images in flash (19 R462 to R468, R471, R477, R479). -/
namespace Sys2Proof.Machine
open Sys2Proof.Reg

/-- Changes the state of the service port and the update service. -/
def State.upSvc (s : State) (f : Svc → Svc) : State := { s with svc := f s.svc }

/-- An event of the service port (14 R349: MISCB 10). -/
def svcEvent (s : State) (b : Nat) : State := s.event SVC.EVT SVC.IEN b .miscb 10

/-- 01 R23: the initiator id of the service port. -/
def svcInit : Nat := 0xF

/-! ### Receive buffers and packets -/

/-- The number of receive buffers. -/
def svcNbuf (s : State) : Nat := s.fld SVC.RXCFG 3 0

/-- The lowest free receive buffer (log 41). -/
def svcFree (s : State) : Option Nat := (List.range (svcNbuf s)).find? (fun i => !s.svc.used.contains i)

/-- Forms the busy bits and the count of free buffers of `SVC.STATUS`. -/
def svcStat (s : State) : State :=
  (s.setFld SVC.STATUS 11 8 ((below (svcNbuf s) (fun i => !s.svc.used.contains i)).length)).setBit SVC.STATUS 1 s.svc.reply.isSome

/-- 19 R466: whether PLLB, from which the 48 MHz clock comes, runs and is locked. -/
def svcClock (s : State) : Bool := s.bit CLK.STATUS 3

/-- 19 R466, R467: whether the port receives: enabled, clocked, in RUN or DOZE. -/
def svcListens (s : State) : Bool :=
  s.bit SVC.CTRL 0 && s.bit SVC.CTRL 1 && svcClock s && decide (pwrState s ≤ 1) && decide (pwrPhase s ≠ 3)

/-- A packet discarded: counted, with the event of its reason. -/
def svcDiscard (s : State) (b : Nat) : State := svcEvent (s.bump SVC.CNT 31 16 1) b

/-- A good packet: counted, and a rate on trial is confirmed (19 R468). -/
def svcGood (s : State) : State := svcEvent ((s.bump SVC.CNT 15 0 1).upSvc (fun v => { v with probing := false })) 0

/-- SVC_PACKET_RECEIVE (19 R466, R467, R470): a packet with `body` (CMD, SEQ, payload) ends, its CRC right or not.  A debug packet is
kept for the hardware; any other is written into a free buffer and its scene address enqueued in Q120. -/
def execSvcPacketReceive (body : List Byte) (crcOk : Bool) (s : State) : Out :=
  if !svcListens s || svcNbuf s == 0 then .next s
  else if body.length < 2 ∨ 1040 < body.length ∨ crcOk = false then .next (svcDiscard s 1)
  else if body.head? = some 0x0A ∨ body.head? = some 0x0B then
    .next ((svcGood s).upSvc (fun v => { v with dbg := some body }))
  else match svcFree s with
    | none => .next (svcDiscard s 2)
    | some i =>
      let a := (s.rd SVC.RXBASE).toNat + 2048 * i
      match engineWrite s svcInit a (leBytes 2 body.length ++ body) true with
      | (true, s) => .next (svcDiscard s 2)
      | (false, s) =>
        let s := svcStat (s.upSvc (fun v => { v with used := addOnce v.used i }))
        .next (svcGood (qProduce s 120 svcInit (leBytes 4 a)).2)

/-- SVC_GAP_TIMEOUT (19 R466): the gap inside a packet is too long. -/
def execSvcGapTimeout (s : State) : Out :=
  if svcListens s && svcNbuf s != 0 then .next (svcDiscard (s.setBit SVC.STATUS 0 false) 3) else .next s

/-- 19 R467: a write of `SVC.RXFREE` frees a buffer. -/
def svcRxfree (s : State) (v : Word) : State :=
  svcStat (s.upSvc (fun x => { x with used := x.used.filter (fun i => i != bitsOf v 3 0) }))

/-- The rate that a HELLO changed applies after its reply, on trial for 1 s (19 R468). -/
def svcRate (s : State) : State :=
  match s.svc.newDiv with
  | none => s
  | some d => (s.setFld SVC.CTRL 24 16 d).upSvc (fun v => { v with newDiv := none, probing := true, probeAt := s.uptime })

/-- SVC_REPLY_DONE (19 R467): the reply is out: one of the services, or the buffer at the head of Q121, whose LEN becomes 0. -/
def execSvcReplyDone (s : State) : Out :=
  if !s.bit SVC.CTRL 0 || !svcClock s || decide (1 < pwrState s) then .next s
  else match s.svc.reply with
    | some _ => .next (svcEvent (svcStat (svcRate (s.upSvc (fun v => { v with reply := none })))) 4)
    | none => match qTake s 121 with
      | (none, s) => .next s
      | (some (w, _), s) => .next (svcEvent (engineWrite s svcInit w.toNat [0, 0] true).2 4)

/-- SVC_RATE_REVERT (19 R468): no good packet within 1 s at a new rate. -/
def execSvcRateRevert (s : State) : Out :=
  if s.svc.probing ∧ s.svc.probeAt + ticksPerSecond ≤ s.uptime then .next ((s.setFld SVC.CTRL 24 16 417).upSvc (fun v => { v with probing := false })) else .next s

/-! ### Settings -/

/-- 19 R477: the address of a settings copy. -/
def settingsAt (second : Bool) : Nat := 0x0C005800 + (if second then 0x1400 else 0)

/-- 19 R477: a valid settings copy: SETVER, GEN and the body. -/
def settingsCopy (s : State) (second : Bool) : Option (Nat × Nat × List Byte) :=
  let a := settingsAt second
  let h := s.viewBytes a 16
  let n := leNat ((h.drop 6).take 2)
  if leNat (h.take 4) ≠ 0x59445354 ∨ 5104 < n then none
  else
    let body := s.viewBytes (a + 16) n
    if leNat (h.drop 12) = crc32 (h.take 12 ++ body) then some (leNat ((h.drop 4).take 2), leNat ((h.drop 8).take 4), body) else none

/-- 19 R477: the copy presented to an image of a settings version: the highest GEN among the valid ones that do not exceed it. -/
def settingsFor (s : State) (ver : Nat) : Option (Bool × Nat × Nat × List Byte) :=
  let ok := fun (x : Bool) => match settingsCopy s x with
    | some c => if c.1 ≤ ver then some (x, c) else none
    | none => none
  match ok false, ok true with
  | some a, some b => if a.2.2.1 < b.2.2.1 then some b else some a
  | some a, none => some a
  | none, r => r

/-- The offset in flash of byte `j` of an image whose region begins at sector `sec` (19 R462). -/
def imageOff (sec j : Nat) : Nat := 0x4000 * (sec + j / 16320) + j % 16320

/-- `n` bytes of an image from byte `j`. -/
def imageBytes (s : State) (sec j n : Nat) : List Byte := (List.range n).map (fun i => s.byte (flashAt (imageOff sec (j + i))))

/-- 19 R463: the first sector of a block's image and of its main slot. -/
def blockSector (b : Nat) : Nat := 8 * b
def slotSector (b : Nat) : Nat := if b = 0 then 16 else 112

/-- A little-endian field of a header. -/
def hdrFld (h : List Byte) (i n : Nat) : Nat := leNat ((h.drop i).take n)

/-- The header of the block whose image runs, and its settings version. -/
def runHdr (s : State) : List Byte := imageBytes s (blockSector s.svc.runBlock) 0 320
def runSetver (s : State) : Nat := hdrFld (runHdr s) 12 2

/-- 19 R471: the settings body as the running image sees it; none for the defaults. -/
def settingsBody (s : State) : List Byte := match settingsFor s (runSetver s) with
  | some c => c.2.2.2
  | none => []

/-- 19 R471: an update field: `n` bytes at `i` of the body, or its default where the body does not reach it. -/
def updField (s : State) (i n d : Nat) : Nat :=
  let b := settingsBody s
  if i + n ≤ b.length then hdrFld b i n else d

/-- 19 R477: writes a new body to the other copy, with GEN + 1; while USTATE is TRIAL the copy of the previous image's version stays. -/
def settingsWrite (s : State) (body : List Byte) : State :=
  let cur := settingsFor s (runSetver s)
  let second := match cur with | some c => !c.1 | none => false
  let gen := match cur with | some c => c.2.2.1 + 1 | none => 1
  let second := if s.svc.ustate = 6 ∧ (match settingsCopy s second with | some c => decide (c.1 < runSetver s) | none => false) = true
    then !second else second
  let h := leBytes 4 0x59445354 ++ leBytes 2 (runSetver s) ++ leBytes 2 body.length ++ leBytes 4 gen
  let a := settingsAt second
  let s := (performWrite s 0 (a + 16) body).2
  let s := (performWrite s 0 a (h ++ leBytes 4 (crc32 (h ++ body)))).2
  s.upSvc (fun v => { v with motionLine := let l := updField s 1 1 0xFF; if l < 64 then some l else none })

/-- Changes `n` bytes of the settings body at `i`; a shorter body is first filled with the defaults of 19 R471. -/
def settingsSet (s : State) (i n v : Nat) : State :=
  let d : List Byte := leBytes 1 0 ++ leBytes 1 0xFF ++ leBytes 2 2600 ++ leBytes 2 300 ++ leBytes 2 100 ++ leBytes 4 0
  let b := settingsBody s
  let b := b ++ d.drop b.length
  settingsWrite s (b.take i ++ leBytes n v ++ b.drop (i + n))

/-- The trusted image routes UPD_MOTION (19 R471). -/
def svcPresent (s : State) : State :=
  s.upSvc (fun v => { v with motionLine := let l := updField s 1 1 0xFF; if l < 64 then some l else none })

/-! ### Replies and refusals -/

/-- 19 R471: whether a prompter interrupt input that selects the line of UPD_MOTION has overrun; the check forgets it. -/
def motionOverrun (s : State) : Bool := match s.svc.motionLine with
  | some l => (List.range 16).any (fun j => irqSel s 5 j == (true, l) && s.bit (CUE.IRQOVR 5) j)
  | none => false

/-- 19 R471: a check of motion has seen the overruns of the inputs that select the line of UPD_MOTION. -/
def motionSeen (s : State) : State := match s.svc.motionLine with
  | some l => s.wr (CUE.IRQOVR 5) (s.rd (CUE.IRQOVR 5) &&& ~~~ BitVec.ofNat 32 (packBits 16 (fun j => irqSel s 5 j == (true, l))))
  | none => s

/-- 19 R471: whether the node is moving, the battery is low, updates are locked. -/
def svcMoving (s : State) : Bool :=
  motionOverrun s || match s.svc.motionAt with
  | some t => s.svc.motionLine.isSome && decide ((s.nt - t).toNat < updField s 4 2 300 * ticksPerSecond)
  | none => false
def svcRecovery (s : State) : Bool := s.phase == 3
def svcLow (s : State) : Bool :=
  decide (s.fld PWR.VBAT 11 0 < 2000) || (!svcRecovery s && decide (s.fld PWR.VBAT 11 0 < updField s 2 2 2600))
def svcLocked (s : State) : Bool := updField s 0 1 0 == 1

/-- 19 R472: the refusal of LOAD and ACTIVATE, 0 for none. -/
def svcRefusal (s : State) : Nat :=
  if svcRecovery s then (if svcLow s then 5 else 0)
  else if svcLocked s then 6 else if svcMoving s then 4 else if svcLow s then 5 else 0

/-- 19 R471: what a LOAD or ACTIVATE that is refused leaves: MOVING has seen the overruns. -/
def svcRefused (s : State) : State := if svcRefusal s = 4 then motionSeen s else s

/-- The reply body of a request (19 R468). -/
def svcBody (cmd seq : Byte) (status : Nat) (data : List Byte) : List Byte := [cmd + 0x80, seq, BitVec.ofNat 8 status] ++ data

/-- Sends a reply and keeps it with its request for a repeat. -/
def svcReply (s : State) (req rep : List Byte) : State :=
  svcStat (s.upSvc (fun v => { v with reply := some rep, last := (req, rep) }))

/-- 19 R468, 04 R104: who serves a request now: the trusted image, the boot ROM in RECOVERY or in the unlock window, or nobody. -/
def svcServer (s : State) : Nat :=
  if svcRecovery s then 2 else if s.boot.step = .window then 3 else if s.boot.step = .done then 1 else 0

/-- 19 R468: whether the boot ROM serves a command in RECOVERY. -/
def romServes (cmd : Byte) (payload : List Byte) : Bool :=
  if cmd = 5 then payload == [1] else if cmd = 9 then (payload.getD 4 0) == 9 else decide (1 ≤ cmd.toNat) && decide (cmd.toNat ≤ 9)

/-- 04 R104: what the boot ROM serves in the unlock window: HELLO, STATUS, AUTH and the unlock (log 42). -/
def windowServes (cmd : Byte) (payload : List Byte) : Bool :=
  cmd == 1 || cmd == 2 || cmd == 8 || (cmd == 9 && payload.getD 4 0 == 9)

/-- 19 R468: serves a request: a repeat gets its stored reply, a command that is not served now BAD_CMD, any other what `f`
answers: STATUS and the reply data, or none for a reply that comes later. -/
def svcServe (s : State) (cmd seq : Byte) (payload : List Byte) (f : State → Option (Nat × List Byte) × State) : State :=
  let req := [cmd, seq] ++ payload
  if svcServer s = 0 then s
  else if s.svc.last.1 = req then svcStat (s.upSvc (fun v => { v with reply := some v.last.2 }))
  else if (lifecycle s = 3 ∧ cmd ≠ 1 ∧ cmd ≠ 2) ∨ (svcServer s = 2 ∧ romServes cmd payload = false) ∨
      (svcServer s = 3 ∧ windowServes cmd payload = false) then svcReply s req (svcBody cmd seq 1 [])
  else
    let r := f s
    match r.1 with
    | some a => svcReply r.2 req (svcBody cmd seq a.1 a.2)
    | none => r.2.upSvc (fun v => { v with actReq := req })

/-- 19 R473: TOTAL and POSITION. -/
def svcTotal (s : State) : Nat := if s.svc.hdr = [] then 0 else hdrFld s.svc.hdr 28 4 + hdrFld s.svc.hdr 32 4
def svcPos (s : State) : Nat := s.svc.pos0 + s.svc.pos1

/-- SVC_HELLO (19 R468): identity, and a new rate after the reply. -/
def execSvcHello (seq : Byte) (payload : List Byte) (s : State) : Out :=
  .next (svcServe s 1 seq payload (fun s =>
    if payload.length ≠ 2 then (some (2, []), s) else
    let d := leNat payload
    let s := s.upSvc (fun v => { v with newDiv := if d = 0 then v.newDiv else some (clamp 16 417 d) })
    let div := s.svc.newDiv.getD (clamp 16 417 (s.fld SVC.CTRL 24 16))
    (some (0, leBytes 4 (s.rd SYS.ID).toNat ++ beBytes 8 (ownEui s) ++ [BitVec.ofNat 8 (lifecycle s), BitVec.ofNat 8 s.phase,
      BitVec.ofNat 8 (s.fld SYS.BOOTSEL 0 0)] ++ leBytes 4 (hdrFld (runHdr s) 8 4) ++ leBytes 2 div), s)))

/-- SVC_STATUS (19 R468): its REFUSE is a check of motion, too (19 R471, log 124). -/
def execSvcStatus (seq : Byte) (payload : List Byte) (s : State) : Out :=
  .next (svcServe s 2 seq payload (fun s =>
    let refuse := if svcRecovery s then 2 * natBit (svcLow s)
      else natBit (svcMoving s) + 2 * natBit (svcLow s) + 4 * natBit (svcLocked s)
    (some (0, [BitVec.ofNat 8 s.svc.ustate, BitVec.ofNat 8 refuse] ++ leBytes 2 (s.fld PWR.VBAT 11 0) ++ leBytes 4 (svcPos s) ++
      leBytes 4 (svcTotal s) ++ leBytes 2 (s.fld SYS.HEALTH 31 16)), if svcRecovery s then s else motionSeen s)))

/-- SVC_PROGRESS (19 R468, R474). -/
def execSvcProgress (seq : Byte) (payload : List Byte) (s : State) : Out :=
  .next (svcServe s 6 seq payload (fun s =>
    let u := s.svc.ustate
    let pct := if u = 0 then 0 else if u = 1 then (if svcTotal s = 0 then 0 else 100 * svcPos s / svcTotal s) else 100
    (some (0, [BitVec.ofNat 8 u, BitVec.ofNat 8 pct] ++ leBytes 4 (svcPos s) ++ leBytes 4 (svcTotal s)), s)))

end Sys2Proof.Machine
end

