-- ==== Sys2Proof/Machine/Update.lean ====
section
/-! DEFINITION. Owner statements, staging, verification, activation and fallback (19 R464, R465, R469, R473 to R476, R478). -/
namespace Sys2Proof.Machine
open Sys2Proof.Reg

/-! ### Keys and images -/

/-- Whether KEYSEL could name a key now: a VALID owner entry, or the provisioning key before OWNED; in RETIRED none (04 R96). -/
def keyselOk (s : State) (keysel : Nat) : Bool :=
  if keysel = 0xFF then decide (lifecycle s ≤ 1) else decide (keysel < 4) && ownerState s keysel == 1 && lifecycle s != 3

/-- 19 R464: whether a public key is the one that KEYSEL names. -/
def keyTest (s : State) (keysel : Nat) (pub : List Byte) : Bool :=
  keyselOk s keysel && sha256 pub == (if keysel = 0xFF then Config.provKeyHash else s.otpBytes (0x400 + 64 * keysel) 32)

/-- An ECDSA signature r ‖ s over a digest, by the key X ‖ Y. -/
def sigOk (pub digest sig : List Byte) : Bool :=
  let q := (beNat (pub.take 32), beNat ((pub.drop 32).take 32))
  onCurve q && ecdsaVerify q (beNat digest) (beNat (sig.take 32)) (beNat ((sig.drop 32).take 32))

/-- 19 R464: whether the fixed fields and the lengths of a header hold. -/
def hdrForm (h : List Byte) : Bool :=
  let tlen := hdrFld h 16 4
  hdrFld h 0 4 == 0x59444248 && hdrFld h 4 2 == 1 && decide (4096 ≤ tlen) && decide (tlen ≤ 65536) && tlen % 64 == 0 &&
  hdrFld h 28 4 == 320 + tlen + 128 && decide (64 ≤ hdrFld h 32 4) && decide (hdrFld h 32 4 ≤ 1566720)

/-- 19 R464, R465: the check of the block image in block `b`, and of its main image when `main`: a STATUS of 19 R468. -/
def imageCheck (s : State) (b : Nat) (main : Bool) (minver : Nat) : Nat :=
  let sec := blockSector b
  let h := imageBytes s sec 0 320
  let tlen := hdrFld h 16 4
  let man := imageBytes s sec (320 + tlen) 128
  if !hdrForm h then 12
  else if !keyTest s (hdrFld h 6 1) ((h.drop 132).take 64) then 10
  else if !sigOk ((h.drop 132).take 64) (sha256 (h.take 256)) (h.drop 256) then 11
  else if sha256 (imageBytes s sec 320 tlen) ≠ (h.drop 36).take 32 ∨ sha256 man ≠ (h.drop 68).take 32 ∨
      hdrFld man 0 4 ≠ 0x59444D46 ∨ hdrFld man 4 4 ≠ slotSector b then 12
  else if main ∧ sha256 (imageBytes s (slotSector b) 0 (hdrFld h 32 4)) ≠ (h.drop 100).take 32 then 12
  else if hdrFld h 8 4 < minver then 13 else 0

/-! ### Writing flash -/

/-- 04 R102: the highest EPOCH of the valid EPOCH bursts of a block whose DIGEST matches its header, 0 for none. -/
def burstList (s : State) (b : Nat) : List (Nat × Nat) :=
  let d := sha256 (imageBytes s (blockSector b) 0 320)
  (List.range 16).filterMap (fun i =>
    if s.bytes (flashAt (epochBurst b i) + 12) 32 = d then burstOf s (epochBurst b i) else none)
def blockEpoch (s : State) (b : Nat) : Nat := (burstList s b).foldl (fun m x => if x.1 = 1 then max m x.2 else m) 0
def blockConfirmed (s : State) (b : Nat) : Bool := (burstList s b).contains (3, blockEpoch s b)
def blockTrials (s : State) (b : Nat) : Nat := ((burstList s b).filter (fun x => x == (2, blockEpoch s b))).length

/-- 04 R101: the bytes of a burst of the epoch row. -/
def burstBytes (s : State) (b kind epoch : Nat) : List Byte :=
  let x := leBytes 4 0x59444845 ++ leBytes 4 kind ++ leBytes 4 epoch ++ sha256 (imageBytes s (blockSector b) 0 320) ++ List.replicate 16 0
  x ++ leBytes 4 (crc32 x)

/-- Shows the epochs of the blocks (04 R106). -/
def showEpochs (s : State) : State :=
  (s.wr SYS.EPOCHA (BitVec.ofNat 32 (blockEpoch s 0))).wr SYS.EPOCHB (BitVec.ofNat 32 (blockEpoch s 1))

/-- Programs the lowest blank burst of a block's epoch row, if one is left; `journal` is false for the boot sequencer's own burst
(07 R172). -/
def writeBurst (s : State) (b kind epoch : Nat) (journal : Bool := true) : State :=
  showEpochs (flashEpoch s b (burstBytes s b kind epoch) journal).2

/-- The trusted image erases a sector for an update: false when the flash controller refuses it. -/
def eraseImage (s : State) (sec : Nat) : Bool × State :=
  let r := flashErase s sec
  (r.1, r.2.upSvc (fun v => if r.1 then { v with erased := addOnce v.erased sec } else v))

/-- 04 R104: RECOVERY is entered with a reason; the ROM recovers the flash and sets JREADY (19 R478). -/
def enterRecovery (s : State) (reason : Nat) : State :=
  recoverFlash (((s.setFld SYS.PHASE 1 0 3).setFld SYS.BOOTSEL 14 12 reason).upBoot (fun b => { b with step := .done }))

/-! ### Owner statements -/

/-- SVC_AUTH (19 R469): a fresh nonce from the DRBG. -/
def execSvcAuth (seq : Byte) (payload : List Byte) (s : State) : Out :=
  .next (svcServe s 8 seq payload (fun s =>
    let r := s.drawBytes 8
    (some (0, r.1), r.2.upSvc (fun v => { v with nonce := some (r.1, s.uptime) }))))

/-- 19 R469: whether a statement passes the key test, names this node and the valid nonce, and its signature verifies. -/
def ownerOk (s : State) (p : List Byte) : Bool :=
  let op := (p.getD 4 0).toNat
  let keysel := (p.getD 5 0).toNat
  let pub := (p.drop 80).take 64
  hdrFld p 0 4 == 0x4F574E52 && (p.drop 8).take 8 == beBytes 8 (ownEui s) &&
  (match s.svc.nonce with
   | some n => (p.drop 16).take 32 == n.1 && decide (s.uptime - n.2 ≤ 60 * ticksPerSecond)
   | none => false) &&
  keyTest s keysel pub && (keysel != 0xFF || op == 4 || op == 6 || op == 9) &&
  sigOk pub (sha256 (p.take 144)) (p.drop 144)

/-- An OTP command on behalf of an owner statement: 0 OK, 2 BAD_ARG for a refusal by KEY (19 R469). -/
def ownerOtp (s : State) (w : Word) : Nat × State :=
  let r := otpRun s w true
  (if r.1 = 0 then 0 else 2, (r.2.setFld KEY.OTPSTAT 7 4 r.1))

/-- 19 R469: the operations of an owner statement: the STATUS and the effect. -/
def ownerRun (s : State) (op : Nat) (arg : List Byte) : Nat × State :=
  match op with
  | 1 => (0, settingsSet s 0 1 1)
  | 2 => (0, settingsSet s 0 1 0)
  | 3 => let v := leNat (arg.take 4); if v < updField s 8 4 0 then (2, s) else (0, settingsSet s 8 4 v)
  | 4 =>
    match (List.range 4).find? (fun n => ownerState s n == 0) with
    | some n => ownerOtp (s.wrWords (KEY.OWNERDATA 0) (beWords (arg.take 32))) (BitVec.ofNat 32 (1 + 256 * n))
    | none => (2, s)
  | 5 => if 4 ≤ (arg.getD 0 0).toNat then (2, s) else ownerOtp s (BitVec.ofNat 32 (2 + 256 * (arg.getD 0 0).toNat))
  | 6 => ownerOtp s 3
  | 7 => ownerOtp s 4
  | 8 => (0, s.setBit DBG.STATUS 8 true)
  | _ => if s.boot.step = .window then (0, enterRecovery s 6) else (2, s)

/-- An OWNER_* command (19 R469): the OWNERCMD whose statement has operation `op`; the nonce is spent. -/
def ownerServe (op : Nat) (seq : Byte) (payload : List Byte) (s : State) : State :=
  if (payload.getD 4 0).toNat ≠ op then s
  else svcServe s 9 seq payload (fun s =>
    let ok := ownerOk s payload
    let s := s.upSvc (fun v => { v with nonce := none })
    if payload.length ≠ 208 then (some (2, []), s)
    else if ok then let r := ownerRun s op ((payload.drop 48).take 32); (some (r.1, []), r.2)
    else (some (14, []), s))

/-- OWNER_LOCK (19 R469). -/
def execOwnerLock (seq : Byte) (payload : List Byte) (s : State) : Out := .next (ownerServe 1 seq payload s)
/-- OWNER_UNLOCK (19 R469). -/
def execOwnerUnlock (seq : Byte) (payload : List Byte) (s : State) : Out := .next (ownerServe 2 seq payload s)
/-- OWNER_SETMINVER (19 R469). -/
def execOwnerSetminver (seq : Byte) (payload : List Byte) (s : State) : Out := .next (ownerServe 3 seq payload s)
/-- OWNER_ADDKEY (19 R469). -/
def execOwnerAddkey (seq : Byte) (payload : List Byte) (s : State) : Out := .next (ownerServe 4 seq payload s)
/-- OWNER_REVOKE (19 R469). -/
def execOwnerRevoke (seq : Byte) (payload : List Byte) (s : State) : Out := .next (ownerServe 5 seq payload s)
/-- OWNER_BURN_OWNED (19 R469). -/
def execOwnerBurnOwned (seq : Byte) (payload : List Byte) (s : State) : Out := .next (ownerServe 6 seq payload s)
/-- OWNER_RETIRE (19 R469). -/
def execOwnerRetire (seq : Byte) (payload : List Byte) (s : State) : Out := .next (ownerServe 7 seq payload s)
/-- OWNER_DEBUG_UNLOCK (19 R469). -/
def execOwnerDebugUnlock (seq : Byte) (payload : List Byte) (s : State) : Out := .next (ownerServe 8 seq payload s)
/-- OWNER_RECOVERY_UNLOCK (19 R469, 04 R104). -/
def execOwnerRecoveryUnlock (seq : Byte) (payload : List Byte) (s : State) : Out := .next (ownerServe 9 seq payload s)

/-! ### Staging and verification -/

/-- 19 R473: the block that an update replaces. -/
def updTarget (s : State) : Nat := 1 - s.fld SYS.BOOTSEL 0 0

/-- Clears what is staged and sets USTATE. -/
def stageClear (s : State) (u : Nat) : State := s.upSvc (fun v => { v with ustate := u, hdr := [], pos0 := 0, pos1 := 0, erased := [] })

/-- Cuts image bytes from byte `j` of a region at the sectors, with the last burst padded. -/
def imagePieces : Nat → Nat → List Byte → List (Nat × List Byte)
  | 0, _, _ => []
  | fuel + 1, j, bs =>
    if bs.isEmpty then [] else
    let n := min bs.length (16320 - j % 16320)
    (j, bs.take n ++ List.replicate ((64 - n % 64) % 64) 0xFF) :: imagePieces fuel (j + n) (bs.drop n)

/-- Writes image bytes from byte `j` of a region; each sector is erased when its first byte arrives.  False when the flash refuses. -/
def imageWrite (s : State) (sec j : Nat) (bs : List Byte) : Bool × State :=
  (imagePieces (bs.length / 16320 + 2) j bs).foldl (fun (r : Bool × State) p =>
    if !r.1 then r else
    let f := imageOff sec p.1
    let e := if r.2.svc.erased.contains (f / 0x4000) then r else eraseImage r.2 (f / 0x4000)
    if e.1 then flashProgram e.2 f p.2 else e) (true, s)

/-- 19 R473: the check of the first LOAD's header: 0, BAD_ARG, BAD_KEY or ROLLBACK. -/
def loadHdr (s : State) (h : List Byte) : Nat :=
  if !hdrForm h then 2 else if !keyselOk s (hdrFld h 6 1) then 10
  else if !svcRecovery s && decide (hdrFld h 8 4 < updField s 8 4 0) then 13 else 0

/-- 19 R473: programs the data of a LOAD whose checks have passed; `ok` is false when the flash fails. -/
def loadData (s : State) (region : Nat) (data : List Byte) (ok : Bool) : Nat × State :=
  let b := updTarget s
  let r := if region = 0 then imageWrite s (blockSector b) s.svc.pos0 data else imageWrite s (slotSector b) s.svc.pos1 data
  let s := r.2
  let s := if region = 0 then s.upSvc (fun v => { v with pos0 := v.pos0 + data.length })
    else s.upSvc (fun v => { v with pos1 := v.pos1 + data.length })
  let rest := if region = 0 ∧ s.svc.pos0 = hdrFld s.svc.hdr 28 4 then
      (List.range 8).foldl (fun (e : Bool × State) i =>
        if !e.1 || e.2.svc.erased.contains (8 * b + i) then e else eraseImage e.2 (8 * b + i)) (r.1, s)
    else (r.1, s)
  if !ok || !rest.1 then (8, stageClear rest.2 0)
  else (0, if svcPos rest.2 = svcTotal rest.2 then rest.2.upSvc (fun v => { v with ustate := 2 }) else rest.2)

/-- 19 R473: a LOAD: the STATUS and the state it leaves. -/
def loadRun (s : State) (p : List Byte) (ok : Bool) : Nat × State :=
  let region := (p.getD 0 0).toNat
  let off := leNat ((p.drop 1).take 4)
  let data := p.drop 5
  let u := s.svc.ustate
  if p.length < 6 ∨ 1029 < p.length ∨ 1 < region then (2, s)
  else if svcRefusal s ≠ 0 then (svcRefusal s, svcRefused s)
  else if u = 3 ∨ 5 ≤ u then (3, s)
  else if u ≠ 1 then
    if region ≠ 0 ∨ off ≠ 0 then (7, s)
    else
      let h := data.take 320
      if data.length < 320 ∨ data.length % 64 ≠ 0 then (2, s)
      else if loadHdr s h ≠ 0 then (loadHdr s h, s)
      else
        let s := if rowValid s (updTarget s) then (flashRetire s (updTarget s)).2 else s
        loadData ((stageClear s 1).upSvc (fun v => { v with hdr := h })) 0 data ok
  else
    let blen := hdrFld s.svc.hdr 28 4
    let msize := hdrFld s.svc.hdr 32 4
    let size := if region = 0 then blen else msize
    let want := if s.svc.pos0 < blen then (0, s.svc.pos0) else (1, s.svc.pos1)
    if (region, off) ≠ want then (7, s)
    else if size < off + data.length ∨ (data.length % 64 ≠ 0 ∧ off + data.length ≠ size) then (2, s)
    else loadData s region data ok

/-- SVC_LOAD (19 R473): programs the next image bytes; `ok` is false when the flash fails. -/
def execSvcLoad (seq : Byte) (payload : List Byte) (ok : Bool) (s : State) : Out :=
  .next (svcServe s 3 seq payload (fun s => let r := loadRun s payload ok; (some (r.1, leBytes 4 (svcPos r.2)), r.2)))

/-- SVC_VERIFY (19 R474): the staged images are read back and checked. -/
def execSvcVerify (seq : Byte) (payload : List Byte) (s : State) : Out :=
  .next (svcServe s 4 seq payload (fun s =>
    if s.svc.ustate ≠ 2 then (some (9, []), s)
    else
      let c := imageCheck s (updTarget s) true (if svcRecovery s then 0 else updField s 8 4 0)
      if c = 0 then (some (0, leBytes 4 (hdrFld s.svc.hdr 8 4)), s.upSvc (fun v => { v with ustate := 4 }))
      else (some (c, leBytes 4 (hdrFld s.svc.hdr 8 4)), stageClear s 0)))

/-! ### Activation -/

/-- A field of the manifest of a block (19 R465). -/
def manifest (s : State) (b : Nat) : List Byte :=
  imageBytes s (blockSector b) (320 + hdrFld (imageBytes s (blockSector b) 0 320) 16 4) 128

/-- Loads a TCM image of a block's main image into the window of core `n` (19 R465). -/
def loadTcm (s : State) (b n off len : Nat) : State :=
  s.setBytes (0x11000000 + 0x100000 * n) (imageBytes s (slotSector b) off (min len 131072))

/-- 19 R475 step 3: the main image of a block is placed: TCM images and entry registers. -/
def placeImage (s : State) (b : Nat) : State :=
  let m := manifest s b
  let s := loadTcm s b 4 (hdrFld m 28 4) (hdrFld m 32 4)
  let s := if s.dom (Dom.app 0) = .off then s else loadTcm s b 0 (hdrFld m 36 4) (hdrFld m 40 4)
  (List.range 5).foldl (fun (s : State) n => s.wr (SYS.ENTRY n) (BitVec.ofNat 32 (hdrFld m (8 + 4 * n) 4 / 4 * 4))) s

/-- Holds all five players and remembers those that ran. -/
def pausePlayers (s : State) : State :=
  let ran := below 5 (fun n => !s.bit SYS.PLAYHOLD n)
  let s := (List.finRange 5).foldl (fun (s : State) (n : Fin 5) =>
    if s.bit SYS.PLAYHOLD n.val then s else wdRestart (s.setCore ⟨n.val, by omega⟩ { run := .held }) n.val) s
  (s.setFld SYS.PLAYHOLD 4 0 0x1F).upSvc (fun v => { v with ran := if v.holdover then v.ran else ran })

/-- Releases the players that ran before the pause. -/
def releasePlayers (s : State) : State :=
  (List.finRange 5).foldl (fun (s : State) (n : Fin 5) =>
    if s.svc.ran.contains n.val then enterCore (s.setBit SYS.PLAYHOLD n.val false) ⟨n.val, by omega⟩ else s) s

/-- 04 R103: the health timer starts; while it runs, or in the grace period, it starts anew (log 102). -/
def healthStart (s : State) : State :=
  ((s.setBit SYS.HEALTH 8 true).setFld SYS.HEALTH 31 16 0).upBoot (fun b => { b with grace := false, graceLeft := 0 })

/-- 04 R103: the health timer stops, with any grace period. -/
def healthStop (s : State) : State := (s.setBit SYS.HEALTH 8 false).upBoot (fun b => { b with grace := false, graceLeft := 0 })

/-- 19 R475: the pause: players held, the image of a block placed, the players that ran released, the link in hold-over. -/
def liveSwitch (s : State) (b : Nat) : State :=
  let s := placeImage (pausePlayers s) b
  let first := if s.svc.holdover then s.svc.pauseAt else s.uptime
  releasePlayers (s.upSvc (fun v => { v with holdover := true, ready := false, runBlock := b, pauseAt := first }))

/-- 19 R475: ACTIVATE's checks: NOT_STAGED, then the refusals of R472. -/
def activateCheck (s : State) : Nat := if s.svc.ustate ≠ 4 then 9 else svcRefusal s

/-- SVC_ACTIVATE_LIVE (19 R475): the drain of a live activation begins; the reply comes when it ends. -/
def execSvcActivateLive (seq : Byte) (s : State) : Out :=
  .next (svcServe s 5 seq [0] (fun s =>
    let b := updTarget s
    if activateCheck s ≠ 0 then (some (activateCheck s, []), if s.svc.ustate = 4 then svcRefused s else s)
    else if (s.svc.hdr.drop 36).take 32 ≠ ((runHdr s).drop 36).take 32 ∨ testB (hdrFld (manifest s b) 44 4) 0 = false then (some (15, []), s)
    else (none, (s.setBit STG.CTRL 1 false).upSvc (fun v => { v with ustate := 5, live := true, drainAt := s.uptime }))))

/-- The epoch of a new activation: one above the active block's, in RECOVERY one above the larger (19 R475, R478). -/
def newEpoch (s : State) : Nat :=
  let a := (s.rd SYS.EPOCHA).toNat
  let b := (s.rd SYS.EPOCHB).toNat
  (if svcRecovery s then max a b else if s.bit SYS.BOOTSEL 0 then b else a) + 1

/-- A software reset (04 R98). -/
def softReset (s : State) : State := mainReset s 0x10 false

/-- SVC_ACTIVATE_RESET (19 R475): the EPOCH burst, the reply, and a software reset. -/
def execSvcActivateReset (seq : Byte) (s : State) : Out :=
  let ok := svcServer s != 0 && activateCheck s == 0 && s.svc.last.1 != [5, seq, 1] && decide (lifecycle s ≠ 3) && svcServer s != 3
  let s := svcServe s 5 seq [1] (fun s =>
    if activateCheck s ≠ 0 then (some (activateCheck s, []), if s.svc.ustate = 4 then svcRefused s else s)
    else (some (0, []), (writeBurst s (updTarget s) 1 (newEpoch s)).upSvc (fun v => { v with ustate := 5, live := false })))
  .next (if ok then softReset s else s)

/-- 19 R475: whether any application player holds a task. -/
def anyTask (s : State) : Bool := s.stg.task.toList.any (· != 0)

/-- The reply of an ACTIVATE that waited. -/
def actReply (s : State) (st : Nat) : State :=
  match s.svc.actReq with
  | cmd :: seq :: rest => (svcReply s (cmd :: seq :: rest) (svcBody cmd seq st [])).upSvc (fun v => { v with actReq := [] })
  | _ => s

/-- ACTIVATE_DRAINED (19 R475 steps 2 and 3): EPOCH and TRIAL bursts, the pause, USTATE = TRIAL, the reply. -/
def execActivateDrained (s : State) : Out :=
  if s.svc.ustate = 5 ∧ s.svc.live ∧ anyTask s = false then
    let b := updTarget s
    let e := newEpoch s
    let s := writeBurst (writeBurst s b 1 e) b 2 e
    let s := healthStart (liveSwitch s b)
    .next (actReply (s.upSvc (fun v => { v with ustate := 6, trialAt := s.uptime })) 0)
  else .next s

/-- ACTIVATE_DRAIN_TIMEOUT (19 R475): DISPATCH returns to 1, nothing has changed. -/
def execActivateDrainTimeout (s : State) : Out :=
  if s.svc.ustate = 5 ∧ s.svc.live ∧ s.svc.drainAt + updField s 6 2 100 * (ticksPerSecond / 1000) ≤ s.uptime then
    let s := dispatchRun ((s.setBit STG.CTRL 1 true).upSvc (fun v => { v with ustate := 4 }))
    .next (actReply s 16)
  else .next s

/-! ### Trial, confirmation and fallback -/

/-- 19 R476: the fallback without reset: the new block is retired, which the flash controller refuses while that is the active one (07 R177);
after a LIVE activation the previous main image runs again under hold-over, after a RESET activation a software reset follows (log 43). -/
def fallback (s : State) : State :=
  let s := showEpochs (flashRetire s s.svc.runBlock).2
  if s.svc.live then healthStop (stageClear (liveSwitch s (s.fld SYS.BOOTSEL 0 0)) 0) else softReset s

/-- SVC_ABORT (19 R474). -/
def execSvcAbort (seq : Byte) (payload : List Byte) (s : State) : Out :=
  .next (svcServe s 7 seq payload (fun s =>
    let u := s.svc.ustate
    if u = 5 then (some (3, []), s) else if u = 6 then (some (0, []), fallback s)
    else if 1 ≤ u ∧ u ≤ 4 then (some (0, []), stageClear s 0) else (some (0, []), s)))

/-- 19 R476: takes a prompter service request of a kind from Q114 and answers it OK in the block format of 05 R120; a request of
another kind waits.  True when one was taken. -/
def serviceTake (s : State) (kind : Nat) : Bool × State :=
  match (qPeek s 114).1 with
  | none => (false, s)
  | some w =>
    match engineRead s 0 w.toNat 32 true with
    | (some b, s) =>
      if (b.getD 0 0).toNat ≠ kind then (false, s)
      else
        let s := (qTake s 114).2
        let s := (engineWrite s 0 (w.toNat + 28) (leBytes 4 1) true).2
        (true, s.when (testB (b.getD 1 0).toNat 0) (fun s => (qEnq s ((b.getD 2 0).toNat % 128) 0 w).2))
    | (none, _) => (false, (qTake s 114).2)

/-- SERVICE_READY (19 R475 step 4, R476): READY ends the hold-over and resumes dispatch. -/
def execServiceReady (s : State) : Out :=
  match serviceTake s 0x20 with
  | (false, s) => .next s
  | (true, s) =>
    let s := s.upSvc (fun v => { v with ready := true })
    .next (if s.svc.holdover then dispatchRun ((s.setBit STG.CTRL 1 true).upSvc (fun v => { v with holdover := false })) else s)

/-- SERVICE_CONFIRM (19 R476): in TRIAL the CONFIRM burst is programmed and the health timer stopped. -/
def execServiceConfirm (s : State) : Out :=
  match serviceTake s 0x21 with
  | (false, s) => .next s
  | (true, s) =>
    if s.svc.ustate = 6 then
      let b := s.svc.runBlock
      .next (stageClear (healthStop (writeBurst s b 3 (blockEpoch s b))) 0)
    else .next s

/-- READY_TIMEOUT (19 R476): no READY within 15 s of the trial's start. -/
def execReadyTimeout (s : State) : Out := .next (s.when (s.svc.ustate == 6 && !s.svc.ready && decide (s.svc.trialAt + 15 * ticksPerSecond ≤ s.uptime)) fallback)

/-- HOLDOVER_TIMEOUT (19 R476): the previous image misses READY within the 30 s of 01 R27, counted from the first pause. -/
def execHoldoverTimeout (s : State) : Out :=
  .next (s.when (s.svc.holdover && s.svc.ustate == 0 && decide (s.svc.pauseAt + 30 * ticksPerSecond ≤ s.uptime)) softReset)

end Sys2Proof.Machine
end

