-- ==== Sys2Proof/Machine/Boot.lean ====
section
/-! DEFINITION. Resets, start-up, the choice of the boot block, health, phases, holds (04 R87, R97 to R107) and the operating points
(01 R13, R14). -/
namespace Sys2Proof.Machine
open Sys2Proof.Reg

/-! ### Resets -/

/-- BACKUP_DOMAIN_POR (04 R98, 18 R458): everything is reset, the RTC and the backup registers included; `pwrDef` is the level sampled at
`PWR_DEF`, and `PWR_ON` starts at 1 unless it is high. -/
def execBackupDomainPor (pwrDef : Bool) (s : State) : Out :=
  let s := mainReset (resetBackup s) 1 true
  .next ((s.setBit RTC.STATUS 6 pwrDef).setBit RTC.PWRON 0 (!pwrDef))

/-- MAIN_POR (04 R98, R107): all domains but BKUP; `brownout` when VBAT fell while running. -/
def execMainPor (brownout : Bool) (s : State) : Out := .next (mainReset s (2 + 4 * natBit brownout) true)

/-- PIN_RESET (04 R98). -/
def execPinReset (s : State) : Out := .next (mainReset s 8 false)

/-- 04 R98, R106: a write of `SYS.SWRST`: 0xA5 makes a software reset. -/
def swrstWrite (s : State) (v : Word) : State := if bitsOf v 7 0 = 0xA5 then softReset s else s

/-! ### Holds -/

/-- A core enters at its entry, if its domain is powered. -/
def enterPowered (s : State) (p : Fin 6) : State := if s.dom (coreDom p) = .off then s.setCore p {} else enterCore s p

/-- 04 R98, 05 R128: a player reset asked for by a trusted write. -/
def playerRst (s : State) (p : Fin 6) : State :=
  let s := playerReset s p
  faultOf (if s.dom (coreDom p) = .off then s.setCore p {} else s) p

/-- 04 R105, R107: a write of `SYS.PLAYHOLD`: the resets first, then the holds; a hold is not cleared in STARTUP and RECOVERY. -/
def playholdWrite (s : State) (v : Word) : State :=
  let s := (List.finRange 5).foldl (fun (s : State) (n : Fin 5) =>
    s.when (testB v.toNat (8 + n.val)) (fun s => playerRst s ⟨n.val, by omega⟩)) s
  (List.finRange 5).foldl (fun (s : State) (n : Fin 5) =>
    let p : Fin 6 := ⟨n.val, by omega⟩
    let was := s.bit SYS.PLAYHOLD n.val
    if testB v.toNat n.val ∧ ¬ was then
      wdRestart ((s.setBit SYS.PLAYHOLD n.val true).upCore p (fun c => { c with run := if c.run = .stopped then .stopped else .held })) n.val
    else if ¬ testB v.toNat n.val ∧ was ∧ (s.phase = 1 ∨ s.phase = 2) then enterPowered (s.setBit SYS.PLAYHOLD n.val false) p
    else s) s

/-! ### Operating points -/

/-- 01 R14: a write of `CLK.APPDIV`; while the sequencer is busy it is kept for later. -/
def appdivWrite (s : State) (v : Word) (trusted : Bool) : State :=
  vcoreUpdate (s.plainWrite CLK.APPDIV v trusted)

/-- VCORE_SLEW_DONE (01 R14): the clocks of a raise switch; the sequencer moves on to the latest setting. -/
def execVcoreSlewDone (s : State) : Out :=
  if s.bit CLK.STATUS 8 then .next (vcoreStart (s.setBit CLK.STATUS 8 false)) else .next s

/-- PLAYER_POWERED (01 R14, 04 R87, 05 R127): an application player's domain is powered; with its hold at 0 it starts at its entry, at 50 MHz
until VCORE allows its code. -/
def execPlayerPowered (n : Fin 4) (s : State) : Out :=
  if s.dom (Dom.app n.val) = .off then
    .next (vcoreUpdate (playerClocked (enterCore (s.setDom (Dom.app n.val) .on) ⟨n.val, by omega⟩) n.val))
  else .next s

/-! ### The boot block -/

/-- 04 R102: a block is selected: the alias, TRIAL and REASON. -/
def takeBlock (s : State) (b trial reason : Nat) (rest : List Nat) : State :=
  let s := ((s.setFld SYS.BOOTSEL 0 0 b).setFld SYS.BOOTSEL 5 4 trial).setFld SYS.BOOTSEL 14 12 reason
  (s.upBoot (fun x => { x with order := rest })).upSvc (fun v => { v with runBlock := b })

/-- 04 R102: the loop over the remaining blocks; `reason` is the REASON so far, `fail` that of an empty order. -/
def selectBlock (s : State) (reason fail : Nat) : List Nat → State
  | [] => enterRecovery (s.upBoot (fun b => { b with order := [] })) fail
  | b :: rest =>
    if blockConfirmed s b then takeBlock s b (blockTrials s b) reason rest
    else if blockTrials s b < s.fld SYS.BOOTSEL 9 8 ∧ (blankBurst s b).isSome then
      let s := healthStart (writeBurst s b 2 (blockEpoch s b) false)
      takeBlock s b (blockTrials s b) reason rest
    else selectBlock s 1 fail rest

/-- 04 R102: the order of the blocks: by epoch descending; at equal epochs a confirmed block first, then BB-A. -/
def bootOrder (s : State) : List Nat :=
  let a := blockEpoch s 0
  let b := blockEpoch s 1
  let both := if a < b ∨ (a = b ∧ blockConfirmed s 1 ∧ ¬ blockConfirmed s 0) then [1, 0] else [0, 1]
  both.filter (fun x => decide (0 < blockEpoch s x))

/-- BOOT_SEQUENCER_START (04 R99 steps 2 and 3, R102, R104): the sequencer reads OTP, samples `SVC_REQ`, selects a block and releases
the prompter.  The EUI, TRIALLIM, TAMPEN and TAMPPOL are what the device configuration in OTP holds (log 44). -/
def execBootSequencerStart (svcReq : Bool) (eui : BitVec 64) (trialLim : Fin 4) (tampEn tampPol : Bool) (s : State) : Out :=
  if s.boot.step ≠ .power then .next s
  else
    let s := keyBoot s
    let s := (s.wr LNK.EUILO (BitVec.ofNat 32 eui.toNat)).wr LNK.EUIHI (BitVec.ofNat 32 (eui.toNat / 2 ^ 32))
    let s := s.setFld SYS.BOOTSEL 9 8 (if trialLim.val = 0 then 2 else trialLim.val)
    let s := (s.setBit KEY.ALARM 16 tampEn).setBit KEY.ALARM 17 tampPol
    let s := showEpochs (s.upBoot (fun b => { b with step := .clocks, svcReq := svcReq }))
    if lifecycle s = 3 then .next (startCore (enterRecovery s 0) 5 0 0)
    else .next (startCore (selectBlock s 0 3 (bootOrder s)) 5 0 0)

/-- CLOCKS_LOCKED (04 R99 step 4): HFXO is stable and the PLLs lock; then the unlock window, if `SVC_REQ` was high, or step 5. -/
def execClocksLocked (s : State) : Out :=
  if s.boot.step = .clocks then
    .next ((clocksOn s).upBoot (fun b => { b with step := if b.svcReq then .window else .verify }))
  else .next s

/-- RECOVERY_UNLOCK_WINDOW_END (04 R104): the normal start continues at step 5. -/
def execRecoveryUnlockWindowEnd (s : State) : Out :=
  if s.boot.step = .window then .next (s.upBoot (fun b => { b with step := .verify })) else .next s

/-- 04 R102: a write of 1 to `SYS.BOOTSEL.NEXT`: the active block is rejected and the loop goes on; outside STARTUP it does
nothing (log 45). -/
def bootNext (s : State) : State := if s.phase = 0 then selectBlock s 2 4 s.boot.order else s

/-- A write of `SYS.BOOTSEL`. -/
def bootselWrite (s : State) (v : Word) : State := if testB v.toNat 1 then bootNext s else s

/-- 04 R97: the first start: the root secret is drawn, burnt into an area and read back, then PROVISIONED; false when it fails, which leaves the
area burnt. -/
def provision (s : State) (ok : Bool) : Bool × State :=
  let burnt := fun (a : Nat) => (s.otpBytes a 128).any (· != 0)
  if burnt 0 && burnt 0x80 then (false, s)
  else
    let r := s.drawBytes 8
    let s := burnRoot r.2 (if burnt 0 then 0x80 else 0) r.1
    if ok then (true, keyBoot (burnFuse s 0)) else (false, s)

/-- 04 R99 step 5: the trusted image is copied into prompter SRAM, and the prompter enters it with `a0`. -/
def enterImage (s : State) (a0 : Word) : State :=
  let b := s.fld SYS.BOOTSEL 0 0
  let h := imageBytes s (blockSector b) 0 320
  let s := s.setBytes 0x18000000 (imageBytes s (blockSector b) 320 (hdrFld h 16 4))
  startCore s 5 (BitVec.ofNat 32 (0x18000000 + hdrFld h 20 4)) a0

/-- ROM_IMAGE_VERIFIED (04 R97, R99 step 5, R102): the boot ROM provisions a BLANK device, copies and verifies the trusted image and
enters it, or rejects the block; `burnOk` is whether the burnt root secret reads back. -/
def execRomImageVerified (burnOk : Bool) (s : State) : Out :=
  if s.boot.step ≠ .verify then .next s
  else
    match (if lifecycle s = 0 then provision s burnOk else (true, s)) with
    | (false, s) => .next (enterRecovery s 5)
    | (true, s) =>
      if imageCheck s (s.fld SYS.BOOTSEL 0 0) false 0 = 0 then
        let s := enterImage s 0
        let s := s.upSvc (fun v => { v with ustate := if s.fld SYS.BOOTSEL 5 4 = 0 then 0 else 6, live := false, trialAt := s.uptime })
        .next (svcPresent (s.upBoot (fun b => { b with step := .done })))
      else .next (bootNext s)

/-- WARM_ENTRY_DONE (20 R485): the warm entry compares the trusted image with its hash and enters it with a0 = 1; a changed image is
copied and verified first. -/
def execWarmEntryDone (s : State) : Out :=
  if !s.flt.warmEntry then .next s
  else
    let b := s.fld SYS.BOOTSEL 0 0
    let h := imageBytes s (blockSector b) 0 320
    let done := fun (s : State) => { s with flt := { s.flt with warmEntry := false } }
    if sha256 (s.bytes 0x18000000 (hdrFld h 16 4)) = (h.drop 36).take 32 then
      .next (done (startCore s 5 (BitVec.ofNat 32 (0x18000000 + hdrFld h 20 4)) 1))
    else if imageCheck s b false 0 = 0 then .next (done (enterImage s 1))
    else .next s

/-! ### Health and phases -/

/-- 04 R103, R107: whether DEADLINE seconds, at least 10, have passed since the start. -/
def healthDue (s : State) : Bool := decide (max 10 (s.fld SYS.HEALTHDL 15 0) ≤ s.fld SYS.HEALTH 31 16)

/-- 04 R103: the expiry: EXPIRED, which raises line 31, and the grace period. -/
def healthExpire (s : State) : State :=
  (s.setBit SYS.HEALTH 9 true).upBoot (fun b => { b with grace := true, graceLeft := orIfZero 1 (s.fld SYS.HEALTHDL 23 16) })

/-- 04 R103: a second of the health timer: ELAPSED counts, the deadline expires, the grace period runs out. -/
def healthSecond (s : State) : State :=
  if !s.bit SYS.HEALTH 8 then s
  else
    let s := s.bump SYS.HEALTH 31 16 1
    if s.boot.grace then
      (if s.boot.graceLeft ≤ 1 then mainReset s 0x20 false else s.upBoot (fun b => { b with graceLeft := b.graceLeft - 1 }))
    else if healthDue s then healthExpire s else s

/-- 04 R103, R107: a write of `SYS.HEALTH`: EXPIRED clears on 1, START and STOP act, STOP last. -/
def healthWrite (s : State) (v : Word) : State :=
  let s := s.when (testB v.toNat 9) (fun s => s.setBit SYS.HEALTH 9 false)
  let s := s.when (testB v.toNat 0) healthStart
  s.when (testB v.toNat 1) healthStop

/-- HEALTH_DEADLINE (04 R103): the deadline passes, if the second that ends it has not been counted yet; in a trial the trusted image, unless it
hangs, starts the fallback (19 R476). -/
def execHealthDeadline (served : Bool) (s : State) : Out :=
  if s.bit SYS.HEALTH 8 ∧ healthDue s then
    let s := if s.boot.grace then s else healthExpire s
    .next (s.when (served && s.svc.ustate == 6) fallback)
  else .next s

/-- HEALTH_GRACE_END (04 R103): the last second of the grace period ends without STOP: a health reset. -/
def execHealthGraceEnd (s : State) : Out :=
  .next (s.when (s.boot.grace && decide (s.boot.graceLeft ≤ 1)) (fun s => mainReset s 0x20 false))

/-- 04 R105: a write of `SYS.PHASE`: RUN from STARTUP, TEST from STARTUP after a debug unlock, RECOVERY from STARTUP by the boot ROM;
any other is ignored. -/
def phaseWrite (s : State) (who : Nat) (v : Word) : State :=
  let x := v.toNat % 4
  let rom := who == 0 && decide ((s.core 5).pc.toNat < 0x20000)
  if s.phase = 0 ∧ (x = 1 ∨ (x = 2 ∧ s.bit DBG.STATUS 8) ∨ (x = 3 ∧ rom)) then tmPhaseChange (s.setFld SYS.PHASE 1 0 x) else s

end Sys2Proof.Machine
end

