-- ==== Sys2Proof/Machine/Hub.lean ====
section
/-! DEFINITION. The sensor hub: triggers, steps, filter engines, compare units and records (chapter 13). -/
namespace Sys2Proof.Machine
open Sys2Proof.Reg

/-- 01 R23: the initiator id of the sensor hub. -/
def hubInit : Nat := 6

/-- Changes the state behind the hub's registers. -/
def State.upHub (s : State) (f : Hub → Hub) : State := { s with hub := f s.hub }

/-- Changes the run context of a sheet. -/
def upSheet (s : State) (n : Fin 32) (f : Sheet → Sheet) : State :=
  s.upHub (fun h => { h with sheets := h.sheets.set n (f h.sheets[n]) })

/-- An event of HUB (14 R349: MISCA 8). -/
def hubEvent (s : State) (b : Nat) : State := s.event HUB.EVT HUB.IEN b .misca 8

/-- 13 R345: STATE of a sheet: 0 IDLE, 1 READY, 2 RUN, 3 WAIT. -/
def sheetState (s : State) (n : Nat) : Nat := s.fld (HUB.SHSTAT n) 1 0

/-- 13 R340, R344: ACTIVE, and RC16 requested while a sheet is READY or RUN or waits in microseconds. -/
def hubStatus (s : State) : State :=
  let act := (List.range 32).any (fun n => sheetState s n != 0)
  let rc := (List.finRange 32).any (fun n => sheetState s n == 1 || sheetState s n == 2 ||
    (sheetState s n == 3 && testB (leNat ((s.hub.sheets[n].op.drop 4).take 4)) 31))
  (s.setBit HUB.STATUS 0 act).setBit HUB.STATUS 1 rc

/-- 18 R442, R460: whether RC16 runs: in RUN and DOZE from the first step of the start-up on (04 R99), in every entry and exit, and in SENSE
and REST for a timer or the hub. -/
def rcRuns (s : State) : Bool :=
  decide (2 ≤ pwrPhase s) || (decide (pwrState s ≤ 1) && s.boot.step != .power) || (List.finRange 8).any (tmEn s) || (hubStatus s).bit HUB.STATUS 1

/-- Moves a sheet to a state. -/
def setSheet (s : State) (n : Fin 32) (st : Nat) : State := hubStatus (s.setFld (HUB.SHSTAT n) 1 0 st)

/-! ### Ends of a run -/

/-- 13 R342: an abort: the switches the run turned on and that are still on open, ABORTS and `HUB.EVT.ABORT`. -/
def hubAbort (s : State) (n : Fin 32) : State :=
  let on := s.hub.sheets[n].on.toNat
  let s := s.setFld HUB.SPWR 3 0 (s.fld HUB.SPWR 3 0 &&& (15 - on))
  let s := hubEvent (s.bump (HUB.SHCNT n) 31 24 1) 2
  setSheet (upSheet s n (fun x => { x with on := 0, op := [], kill := false })) n 0

/-- 13 R327: an error: E, ERRCODE and `HUB.EVT.ERR`. -/
def hubError (s : State) (n : Fin 32) (code : Nat) : State :=
  let s := (s.setBit (HUB.SHSTAT n) 16 true).setFld (HUB.SHSTAT n) 27 24 code
  hubEvent s 0

/-- 13 R324: ABORTE of a step. -/
def stepAborts (op : List Byte) : Bool := testB (op.getD 1 0).toNat 4

/-- 13 R322, R327: the next step; the PC does not pass step 63. -/
def hubGoTo (s : State) (n : Fin 32) (pc : Nat) : State :=
  if 63 < pc then hubAbort (hubError s n 7) n
  else setSheet (upSheet (s.setFld (HUB.SHSTAT n) 13 8 pc) n (fun x => { x with op := [] })) n 1

/-- The next step in order. -/
def hubAdvance (s : State) (n : Fin 32) : State := hubGoTo s n (s.fld (HUB.SHSTAT n) 13 8 + 1)

/-- 13 R327: a step that fails: the run goes on, or aborts where the step or the code says so. -/
def hubFail (s : State) (n : Fin 32) (op : List Byte) (code : Nat) (always : Bool) : State :=
  let s := hubError s n code
  if always || stepAborts op then hubAbort s n else hubAdvance s n

/-! ### Triggers -/

/-- The number of the present XO32 period (12 R297, log 6). -/
def xoPeriod (s : State) : Nat := s.uptime * 16 / 15625

/-- 13 R341: the hub issues no step while the device is in REST or enters it. -/
def hubStopped (s : State) : Bool := pwrState s == 3 || (pwrPhase s == 2 && decide (3 ≤ s.pwr.target))

/-- 13 R322: a trigger that is missed; `cue` is the trigger input whose overrun it sets. -/
def hubMissed (s : State) (n : Fin 32) (cue : Option Nat) : State :=
  let s := hubEvent (s.bump (HUB.SHCNT n) 23 16 1) 1
  match cue with
  | some i => setOvr s (6 + i)
  | none => s

/-- 13 R322: a run begins. -/
def hubStart (s : State) (n : Fin 32) : State :=
  let s := ((s.setFld (HUB.SHSTAT n) 13 8 0).setBit (HUB.SHSTAT n) 16 false).bump (HUB.SHCNT n) 15 0 1
  let s := upSheet s n (fun x => { x with loop := 0, steps := 0, op := [], on := 0, sample := none, kill := false,
                                          period := some (xoPeriod s) })
  setSheet s n 1

/-- 13 R321, R322, R341: a trigger of a sheet; two in one XO32 period give one run. -/
def hubTrigger (s : State) (n : Fin 32) (cue : Option Nat) : State :=
  if !s.bit HUB.CTRL 0 || !s.bit (HUB.SHCFG n) 0 then s
  else if s.hub.sheets[n].period == some (xoPeriod s) then s
  else if sheetState s n ≠ 0 then hubMissed s n cue
  else if hubStopped s then
    if s.bit (HUB.SHCFG n) 16 then wakeEvent (hubStart s n) 5 else hubMissed s n cue
  else hubStart s n

/-- 13 R321: the time of the RTC in units of 1/1024 s. -/
def hubClock (s : State) : Nat := s.rtc.secs * 1024 + s.rtc.sub / 32

/-- HUB_RTC_TRIGGER (13 R321): the RTC takes a value T with T mod PERIOD = PHASE mod PERIOD. -/
def execHubRtcTrigger (n : Fin 32) (s : State) : Out :=
  let p := s.fld (HUB.SHPER n) 21 0
  if s.fld (HUB.SHCFG n) 2 1 = 0 ∧ p ≠ 0 ∧ s.rtc.sub % 32 = 0 ∧ hubClock s % p = s.fld (HUB.SHPHASE n) 21 0 % p then
    .next (hubTrigger s n none)
  else .next s

/-- HUB_CUE_TRIGGER (13 R321, 14 R352): trigger input `i` takes its event. -/
def execHubCueTrigger (i : Fin 8) (s : State) : Out :=
  if s.cueQ.contains (.cons (6 + i.val)) then
    let s := { s with cueQ := s.cueQ.filter (fun t => t != .cons (6 + i.val)) }
    .next ((List.finRange 32).foldl (fun (s : State) (n : Fin 32) =>
      if s.fld (HUB.SHCFG n) 2 1 = 1 ∧ s.fld (HUB.SHCFG n) 6 4 = i.val then hubTrigger s n (some i.val) else s) s)
  else .next s

/-- 13 R345, 21 R500: whether a filtered edge is one an EDGE field selects. -/
def edgeHit (edge : Nat) (rising : Bool) : Bool :=
  if rising then edge == 1 || edge == 3 else edge == 2 || edge == 3

/-- HUB_PIN_TRIGGER (13 R321): an edge has passed the filter of a pin. -/
def execHubPinTrigger (pin : Fin 48) (rising : Bool) (s : State) : Out :=
  let s := setExt s pin.val rising
  .next ((List.finRange 32).foldl (fun (s : State) (n : Fin 32) =>
    if s.fld (HUB.SHCFG n) 2 1 = 2 ∧ s.fld (HUB.SHCFG n) 13 8 = pin.val ∧ edgeHit (orIfZero 1 (s.fld (HUB.SHCFG n) 15 14)) rising
    then hubTrigger s n none else s) s)

/-- 13 R321: a write of `HUB.SWTRIG`. -/
def hubSwtrig (s : State) (v : Word) : State :=
  (List.finRange 32).foldl (fun (s : State) (n : Fin 32) => if testB v.toNat n.val then hubTrigger s n none else s) s

/-! ### Issue of a step -/

/-- Byte `i` of a step. -/
def stepByte (op : List Byte) (i : Nat) : Nat := (op.getD i 0).toNat

/-- KIND of a step (13 R324). -/
def stepKind (op : List Byte) : Nat := stepByte op 0 % 16

/-- 13 R324: whether a step executes: unconditional, or its flag XOR CINV is 1. -/
def stepRuns (s : State) (n : Nat) (op : List Byte) : Bool :=
  let b := stepByte op 1
  let f := b % 4
  let flag := if f = 3 then s.bit (HUB.SHSTAT n) 16 else s.bit (HUB.SHSTAT n) (17 + f)
  !testB b 2 || (flag != testB b 3)

/-- 13 R338: the most samples a record of ring `r` holds. -/
def ringSamples (s : State) (r : Nat) : Nat :=
  let z := qSize s (72 + r)
  if z = 16 then 2 else if z = 32 then 7 else if z = 64 then 8 else 0

/-- 13 R325, R327, R329, R332, R338: whether the fields of a step lie in their ranges. -/
def stepLegal (s : State) (op : List Byte) : Bool :=
  let b := stepByte op
  match stepKind op with
  | 3 => decide (b 2 % 8 ≤ 4) && decide (b 4 % 8 ≤ 4) && decide (b 4 / 16 % 8 ≤ 3)
  | 4 => decide (b 4 % 8 ≤ 4) && decide (b 4 / 16 % 8 ≤ 3) && decide (b 2 / 2 % 4 ≤ (if testB (b 2) 0 then 0 else 2))
  | 5 => decide (b 2 % 32 ≤ 18) && decide (b 3 % 8 ≤ 6)
  | 6 => decide (b 4 % 8 ≤ 4)
  | 7 => decide (b 2 % 64 < 48) && decide (b 3 % 4 < 3) && (b 3 % 4 != 1 || decide (b 3 / 32 < 3)) &&
    (b 3 % 4 != 2 || s.fld (PIN.CFG (b 2 % 64)) 7 0 == 1)
  | 10 => decide (b 4 % 4 < 3)
  | 11 => decide (b 3 % 8 + b 4 % 16 ≤ 8) && decide (2 ≤ b 4 % 16) && decide (b 4 % 16 ≤ 8) &&
    decide (b 4 % 16 ≤ ringSamples s (b 2 % 16))
  | 13 => decide (b 2 ≤ 63)
  | 14 => false
  | 15 => false
  | _ => true

/-- 13 R322, R331: whether the resource of a step is free: the ADC, a DSM channel, or a bus without a transaction. -/
def resourceFree (s : State) (op : List Byte) : Bool :=
  let b := stepByte op
  match stepKind op with
  | 3 => if b 2 % 8 ≤ 4 then !s.bit (TWB.STATUS (b 2 % 8)) 1 && !(s.twb.toList.getD (b 2 % 8) {}).keep &&
      !(s.twb.toList.getD (b 2 % 8) {}).hub && !(s.twb.toList.getD (b 2 % 8) {}).attnBus else true
  | 4 => !s.bit (CSP.STATUS (b 2 % 2)) 0 && !(s.csp.toList.getD (b 2 % 2) {}).hub
  | 5 => !s.bit ADC.STATUS 0
  | 6 => !s.bit DSM.STATUS (b 2 % 4)
  | _ => true

/-- 13 R320: fetches the next step of a sheet; none for an error response. -/
def hubFetch (s : State) (n : Fin 32) : Option (List Byte) × State :=
  engineRead s hubInit (s.fld HUB.SHEETBASE 31 15 * 32768 + 0x400 * n.val + 16 * s.fld (HUB.SHSTAT n) 13 8) 16 true

/-- Whether a sheet can issue its next step in this hub cycle. -/
def sheetReady (s : State) (n : Fin 32) : Bool :=
  sheetState s n == 1 &&
  (match (hubFetch s n).1 with
   | some op => !stepRuns s n op || !stepLegal s op || resourceFree s op
   | none => true)

/-- What a hub cycle finds for the sheet it serves. -/
inductive HubTurn where
  | skip
  | illegal
  | step (kind : Nat)
  | fault
  | runaway
  deriving DecidableEq, Repr

/-- 13 R322, R324, R327: the turn of the sheet whose step `op` was fetched. -/
def hubTurnOf (s : State) (n : Fin 32) (op : Option (List Byte)) : HubTurn :=
  if max 16 (s.fld HUB.MAXSTEPS 15 0) ≤ s.hub.sheets[n].steps then .runaway
  else match op with
    | none => .fault
    | some op => if !stepRuns s n op then .skip else if !stepLegal s op then .illegal else .step (stepKind op)

/-- 13 R322: one hub cycle of a turn of kind `want`: the lowest READY sheet whose step can issue is served when its turn is of
that kind; a fetch error or a runaway is served by whichever command comes (log 33). -/
def hubCycle (s : State) (want : HubTurn) (f : State → Fin 32 → List Byte → State) : State :=
  if hubStopped s then s else
  match (List.finRange 32).find? (sheetReady s) with
  | none => s
  | some n =>
    let r := hubFetch s n
    let t := hubTurnOf s n r.1
    let issued (s : State) := upSheet s n (fun x => { x with steps := x.steps + 1 })
    if t = .runaway then hubAbort (hubError s n 8) n
    else if t = .fault then hubAbort (hubError (issued r.2) n 6) n
    else if t = want then f (issued r.2) n (r.1.getD [])
    else s

/-! ### Values, stamps -/

/-- Value register `i` of a sheet. -/
def sheetV (s : State) (n : Fin 32) (i : Nat) : BitVec 24 := s.hub.sheets[n].v.toList.getD i 0

/-- Writes a value register. -/
def setV (s : State) (n : Fin 32) (i : Nat) (x : BitVec 24) : State :=
  upSheet s n (fun c => if h : i < 8 then { c with v := c.v.set i x h } else c)

/-- Saturates to 24 bits. -/
def sat24 (x : Int) : BitVec 24 := BitVec.ofInt 24 (clampI (-8388608) 8388607 x)

/-- 13 R333: network time now: the count, and on XO32 the count at the last edge plus 2 ticks for each RC16 cycle since. -/
def hubNow (s : State) : BitVec 64 :=
  if s.bit LNK.NTSTAT 7 then s.nt + BitVec.ofNat 64 (min 976 (s.ntime.xo / 16 / 2 * 2)) else s.nt

/-- A step with a resource begins: RUN, and PERIPH is requested (13 R340). -/
def hubRun (s : State) (n : Fin 32) (op : List Byte) : State :=
  let s := if s.dom Dom.periph = .od then s.setDom Dom.periph .on else s
  setSheet (upSheet s n (fun x => { x with op := op })) n 2

/-! ### The steps -/

/-- 13 R325 END: the run ends; the switches stay. -/
def stepEnd (s : State) (n : Fin 32) (_ : List Byte) : State :=
  setSheet (upSheet s n (fun x => { x with op := [], on := 0 })) n 0

/-- 13 R328 POWER: each switch of MASK takes its LEVEL bit. -/
def stepPower (s : State) (n : Fin 32) (op : List Byte) : State :=
  let m := stepByte op 2 % 16
  let l := stepByte op 3 % 16
  let s := s.setFld HUB.SPWR 3 0 ((s.fld HUB.SPWR 3 0 &&& (15 - m)) ||| (m &&& l))
  let s := upSheet s n (fun x => { x with on := BitVec.ofNat 4 ((x.on.toNat &&& (15 - m)) ||| (m &&& l)) })
  hubAdvance s n

/-- 13 R325: UNIT and COUNT of a WAIT step. -/
def waitUnit (op : List Byte) : Bool := testB (leNat ((op.drop 4).take 4)) 31
def waitCount (op : List Byte) : Nat := leNat ((op.drop 4).take 3)

/-- 13 R325: the clock of a WAIT step: XO32 edges, or microseconds. -/
def waitClock (s : State) (op : List Byte) : Nat := if waitUnit op then s.uptime / 32 else xoPeriod s

/-- 13 R325 WAIT: COUNT 0 waits for nothing. -/
def stepWait (s : State) (n : Fin 32) (op : List Byte) : State :=
  if waitCount op = 0 then hubAdvance s n
  else setSheet (upSheet s n (fun x => { x with op := op, due := waitClock s op + waitCount op })) n 3

/-- 13 R331 TWB. -/
def stepTwb (s : State) (n : Fin 32) (op : List Byte) : State :=
  let k := stepByte op 2 % 8
  if s.bit HUB.BUSGRANT k then
    let s := if h : k < 5 then { s with twb := s.twb.set k { s.twb[k] with hub := true } h } else s
    hubRun (s.setBit (TWB.STATUS k) 0 true) n op
  else hubFail s n op 3 false

/-- 13 R331, 16 R394 CSP: a port that the host window owns reports BUS_ERR. -/
def stepCsp (s : State) (n : Fin 32) (op : List Byte) : State :=
  let k := stepByte op 2 % 2
  if !s.bit HUB.BUSGRANT (8 + k) then hubFail s n op 3 false
  else if s.bit (CSP.STATUS k) 2 then hubFail s n op 2 false
  else
    let s := if h : k < 2 then { s with csp := s.csp.set k { s.csp[k] with hub := true } h } else s
    hubRun (s.setBit (CSP.STATUS k) 0 true) n op

/-- 13 R329 ADC. -/
def stepAdc (s : State) (n : Fin 32) (op : List Byte) : State := hubRun (s.setBit ADC.STATUS 0 true) n op

/-- 13 R330 DSM. -/
def stepDsm (s : State) (n : Fin 32) (op : List Byte) : State := hubRun (s.setBit DSM.STATUS (stepByte op 2 % 4) true) n op

/-- 13 R332 PIN, with the level sampled at the pad (21 R505). -/
def stepPin (s : State) (n : Fin 32) (op : List Byte) : State :=
  let p := stepByte op 2 % 64
  let b := stepByte op 3
  let level := padLevel s p
  let s := match b % 4 with
    | 0 => setV (padsSampled s) n (b / 32) (BitVec.ofNat 24 (natBit level))
    | 1 => (padsSampled s).setBit (HUB.SHSTAT n) (17 + b / 32) level
    | _ => s.upHub (fun h => { h with pins := (p, testB b 4) :: h.pins.filter (fun e => e.1 != p) })
  hubAdvance s n

/-- 13 R333, R334 CAPTURE: the stamp with HOLD and ERR of `LNK.NTSTAT`. -/
def stepCapture (s : State) (n : Fin 32) (op : List Byte) : State :=
  let x := s.hub.sheets[n]
  let t := if stepByte op 2 % 2 = 1 then x.sample.getD (hubNow s) else hubNow s
  let s := upSheet s n (fun x => { x with stamp := t, hold := s.bit LNK.NTSTAT 3, err := s.fld LNK.NTSTAT 31 16 })
  hubAdvance s n

/-- A biquad coefficient, signed Q2.22. -/
def coef (s : State) (a : Nat) : Int := sint 24 (s.rd a).toNat

/-- 13 R335: the five products summed exactly in an accumulator of 48 bits that saturates, rounded and brought to 24 bits. -/
def biquad (s : State) (k : Nat) (e : Engine) (x : Int) : Int :=
  let sum := coef s (HUB.FLTB0 k) * x + coef s (HUB.FLTB1 k) * e.xs.getD 0 0 + coef s (HUB.FLTB2 k) * e.xs.getD 1 0 -
    coef s (HUB.FLTA1 k) * e.y1 - coef s (HUB.FLTA2 k) * e.y2
  let acc := clampI (-(2 ^ 47)) (2 ^ 47 - 1) sum
  clampI (-8388608) 8388607 ((acc + 2 ^ 21) / 2 ^ 22)

/-- 13 R335: one stage after another of an integrator chain, each adding its input to itself. -/
def integrate (x : BitVec 48) : List (BitVec 48) → BitVec 48 × List (BitVec 48)
  | [] => (x, [])
  | i :: is => let r := integrate (i + x) is; (r.1, (i + x) :: r.2)

/-- 13 R335: one stage after another of a comb chain, each giving its input less its previous one. -/
def combine (x : BitVec 48) : List (BitVec 48) → BitVec 48 × List (BitVec 48)
  | [] => (x, [])
  | c :: cs => let r := combine (x - c) cs; (r.1, x :: r.2)

/-- ⌈log2 n⌉. -/
def clog2 (n : Nat) : Nat := ((List.range 48).find? (fun c => decide (n ≤ 2 ^ c))).getD 48

/-- 13 R335: one input of a filter engine: the output it produces, if any, and its new history. -/
def engineStep (s : State) (k : Nat) (e : Engine) (x : Int) : Option Int × Engine :=
  let cfg := s.rd (HUB.FLTCFG k)
  match bitsOf cfg 1 0 with
  | 0 =>
    let y := biquad s k e x
    (some y, { e with xs := (x :: e.xs).take 2, y1 := y, y2 := e.y1 })
  | 1 =>
    let xs := (x :: e.xs).take (clamp 1 64 (bitsOf cfg 13 8))
    let n : Int := Int.ofNat xs.length
    (some ((2 * xs.sum + n) / (2 * n)), { e with xs := xs })
  | 2 =>
    let xs := (x :: e.xs).take 5
    (some ((xs.foldr insertInt []).getD ((xs.length - 1) / 2) 0), { e with xs := xs })
  | _ =>
    let order := bitsOf cfg 17 16 + 1
    let ratio := clamp 2 64 (bitsOf cfg 29 24)
    let fill (l : List (BitVec 48)) := (l ++ List.replicate order 0).take order
    let i := integrate (BitVec.ofInt 48 x) (fill e.integ)
    let e := { e with integ := i.2, n := e.n + 1 }
    if e.n < ratio then (none, e)
    else
      let c := combine i.1 (fill e.comb)
      (some (c.1.toInt / 2 ^ clog2 (ratio ^ order)), { e with n := 0, comb := c.2 })

/-- 13 R335 FILTER. -/
def stepFilter (s : State) (n : Fin 32) (op : List Byte) : State :=
  let k : Fin 16 := Fin.ofNat 16 (stepByte op 2)
  let x := (sheetV s n (stepByte op 3 % 8)).toInt
  let r := engineStep s k s.hub.engines[k] x
  let s := s.upHub (fun h => { h with engines := h.engines.set k r.2 })
  let rdy := stepByte op 5 % 4
  let s := if rdy < 3 then s.setBit (HUB.SHSTAT n) (17 + rdy) r.1.isSome else s
  match r.1 with
  | some y => hubAdvance (setV (s.wr (HUB.FLTOUT k) (BitVec.ofNat 32 (sat24 y).toNat)) n (stepByte op 4 % 8) (sat24 y)) n
  | none => hubAdvance s n

/-- 13 R336: the output of a compare unit for an input, and its new history. -/
def compareStep (s : State) (k : Nat) (u : CmpUnit) (x : Int) : Bool × CmpUnit :=
  let cfg := s.rd (HUB.CMPCFG k)
  let hi := sint 24 (s.rd (HUB.CMPHI k)).toNat
  let lo := min hi (sint 24 (s.rd (HUB.CMPLO k)).toNat)
  let out := s.bit (HUB.CMPSTAT k) 0
  let win := (decide (hi ≤ x) :: u.win).take (orIfZero 32 (bitsOf cfg 12 8))
  let u := { u with win := win }
  match bitsOf cfg 1 0 with
  | 1 =>
    let d := match u.prev with | some p => x - p | none => 0
    let m := match bitsOf cfg 3 2 with
      | 0 => decide (hi ≤ d)
      | 1 => decide (hi ≤ -d)
      | _ => decide (hi ≤ d ∨ hi ≤ -d)
    (m, { u with prev := some x })
  | 2 => (decide (orIfZero 32 (bitsOf cfg 20 16) ≤ (win.filter id).length), { u with prev := some x })
  | _ => (if hi ≤ x then true else if x < lo then false else out, { u with prev := some x })

/-- 13 R336 COMPARE, with its event toward the cue lines. -/
def stepCompare (s : State) (n : Fin 32) (op : List Byte) : State :=
  let k : Fin 16 := Fin.ofNat 16 (stepByte op 2)
  let r := compareStep s k s.hub.cmps[k] (sheetV s n (stepByte op 3 % 8)).toInt
  let old := s.bit (HUB.CMPSTAT k) 0
  let s := s.upHub (fun h => { h with cmps := h.cmps.set k r.2 })
  let s := (s.setBit (HUB.CMPSTAT k) 0 r.1).setFld (HUB.CMPSTAT k) 13 8 (r.2.win.filter id).length
  let s := s.setBit (HUB.SHSTAT n) (17 + stepByte op 4 % 4) r.1
  let hit := (r.1 && !old && s.bit (HUB.CMPCFG k) 24) || (!r.1 && old && s.bit (HUB.CMPCFG k) 25)
  hubAdvance (s.when hit (fun s => emitProducer s .cmp k.val)) n

/-- 13 R338: the smallest c with ERR ≤ 2^c − 1. -/
def errCode (e : Nat) : Nat := ((List.range 17).find? (fun c => decide (e ≤ 2 ^ c - 1))).getD 16

/-- 13 R338: the record of a STORE step. -/
def hubRecord (s : State) (n : Fin 32) (first cnt size : Nat) : List Byte :=
  let x := s.hub.sheets[n]
  let b9 := errCode x.err + 64 * natBit (s.bit (HUB.SHSTAT n) 16) + 128 * natBit x.hold
  let head := leBytes 8 x.stamp.toNat ++ [BitVec.ofNat 8 (n.val + 32 * (cnt - 2)), BitVec.ofNat 8 b9]
  let body := (List.range cnt).flatMap (fun i => leBytes 3 (sheetV s n (first + i)).toNat)
  (head ++ body ++ List.replicate size 0).take size

/-- 13 R338, R339 STORE: the record goes to the ring; a refusal, a disabled ring, PROD without bit 6 and a failed write are
errors. -/
def stepStore (s : State) (n : Fin 32) (op : List Byte) : State :=
  let q := 72 + stepByte op 2 % 16
  if !qOn s q || !s.bit (QUE.QOWN q) 6 then hubFail s n op 5 false
  else
    let r := qProduce s q hubInit (hubRecord s n (stepByte op 3 % 8) (stepByte op 4 % 16) (qSize s q))
    match r.1 with
    | 1 => hubFail r.2 n op 4 false
    | 2 => hubFail r.2 n op 6 false
    | _ => hubAdvance r.2 n

/-- 13 R325 SIGNAL: one event on hub output HEVLINE. -/
def stepSignal (s : State) (n : Fin 32) (op : List Byte) : State :=
  hubAdvance (emitProducer s .misca (stepByte op 2 % 8)) n

/-- 13 R325 BRANCH. -/
def stepBranch (s : State) (n : Fin 32) (op : List Byte) : State :=
  if stepByte op 3 % 2 = 0 then hubGoTo s n (stepByte op 2)
  else
    let l := (if s.hub.sheets[n].loop = 0 then orIfZero 1 (leNat ((op.drop 4).take 2)) else s.hub.sheets[n].loop) - 1
    let s := upSheet s n (fun x => { x with loop := l })
    if l = 0 then hubAdvance s n else hubGoTo s n (stepByte op 2)

/-! ### Ends of bus and converter steps -/

/-- 13 R329, R346: the reference that a REFSEL bit selects, in µV. -/
def convRef (s : State) (cfg vref : Nat) : Nat := if s.bit cfg 0 then max 1 vref else 1250000

/-- 13 R329: the code of an input voltage in µV. -/
def adcCode (ref : Nat) (uv : Int) : Nat := (clampI 0 4095 (4096 * uv / Int.ofNat ref)).toNat

/-- 13 R329: a code after the factory corrections. -/
def adcCorrect (cal : Word) (raw : Nat) : Nat :=
  let x := (16 * Int.ofNat raw - sint 16 cal.toNat) * Int.ofNat (bitsOf cal 31 16)
  (clampI 0 4095 (divRound x (16 * 32768))).toNat

/-- 13 R329: the sum of the corrected codes × 2^(11 − OSR). -/
def adcValue (s : State) (op : List Byte) (uv : List Int) (vref : Nat) : BitVec 24 :=
  let osr := stepByte op 3 % 8
  BitVec.ofNat 24 (((uv.take (2 ^ osr)).map (fun v => adcCorrect (s.rd ADC.CAL) (adcCode (convRef s ADC.CFG vref) v))).sum * 2 ^ (11 - osr))

/-- 13 R330: the output of a channel for a differential input in nV, with GAIN, before its corrections. -/
def dsmOutput (ref gain : Nat) (nv : Int) : Int := divRound (2 ^ 23 * nv * 2 ^ gain) (1000 * Int.ofNat ref)

/-- 13 R330: the mean of the averaged outputs after the factory corrections, rounded with ties upward. -/
def dsmValue (s : State) (op : List Byte) (nv : List Int) (vref : Nat) : BitVec 24 :=
  let cal := s.rd (DSM.CAL (stepByte op 2 % 4))
  let fix (o : Int) : Int := clampI (-8388608) 8388607 (divRound ((16 * o - sint 16 cal.toNat) * Int.ofNat (bitsOf cal 31 16)) (16 * 32768))
  let n : Int := 2 ^ (stepByte op 4 % 8)
  let out (v : Int) : Int := fix (dsmOutput (convRef s DSM.CFG vref) (stepByte op 3 / 16 % 8) v)
  sat24 (divRound ((nv.take (2 ^ (stepByte op 4 % 8))).map out).sum n)

/-- 13 R325: the integer assembled from the bytes a bus step received. -/
def busValue (op : List Byte) (bs : List Byte) : BitVec 24 :=
  let rn := stepByte op 4 / 16 % 8
  let bs := bs.take rn
  let x := if testB (stepByte op 5) 4 then leNat bs else beNat bs
  if testB (stepByte op 5) 5 then BitVec.ofInt 24 (sint (8 * max 1 bs.length) x) else BitVec.ofNat 24 x

/-- 13 R333: the sampling instant of a converter or bus step that ends now. -/
def sampleInstant (s : State) (op : List Byte) : BitVec 64 :=
  match stepKind op with
  | 5 => hubNow s - BitVec.ofNat 64 (16 * 2 ^ (stepByte op 3 % 8))
  | 6 => hubNow s - BitVec.ofNat 64 ((2 ^ (stepByte op 4 % 8) + 2) * 500 * 2 ^ (stepByte op 3 % 8))
  | _ => hubNow s

/-- Frees the resource of a step. -/
def freeResource (s : State) (op : List Byte) : State :=
  let k := stepByte op 2
  match stepKind op with
  | 3 =>
    let s := s.setBit (TWB.STATUS (k % 8)) 0 false
    if h : k % 8 < 5 then { s with twb := s.twb.set (k % 8) { s.twb[k % 8] with hub := false, free := false } h } else s
  | 4 =>
    let s := s.setBit (CSP.STATUS (k % 2)) 0 false
    if h : k % 2 < 2 then { s with csp := s.csp.set (k % 2) { s.csp[k % 2] with hub := false } h } else s
  | 5 => s.setBit ADC.STATUS 0 false
  | 6 => s.setBit DSM.STATUS (k % 4) false
  | _ => s

/-- 13 R342: a sheet disabled while its step ran aborts with ABORTED. -/
def hubKilled (s : State) (n : Fin 32) : State := hubAbort (hubError s n 10) n

/-- The value a step that ended well writes, with its destination. -/
def resourceValue (s : State) (op : List Byte) (r : ResEnd) : Option (Nat × BitVec 24) :=
  match stepKind op, r with
  | 5, .volts uv vref => some (stepByte op 5 % 8, adcValue s op uv vref)
  | 6, .diffs nv vref => some (stepByte op 5 % 8, dsmValue s op nv vref)
  | 3, .bytes bs => if stepByte op 4 / 16 % 8 = 0 then none else some (stepByte op 5 % 8, busValue op bs)
  | 4, .bytes bs => if stepByte op 4 / 16 % 8 = 0 then none else some (stepByte op 5 % 8, busValue op bs)
  | _, _ => none

/-- HUB_RESOURCE_STEP_DONE (13 R322, R327, R342): a bus or converter step of sheet `n` ends. -/
def execHubResourceStepDone (n : Fin 32) (r : ResEnd) (s : State) : Out :=
  if sheetState s n ≠ 2 then .next s
  else
    let x := s.hub.sheets[n]
    let op := x.op
    let bus := stepKind op == 3 || stepKind op == 4
    let t := freeResource s op
    let t := upSheet t n (fun c => { c with sample := some (sampleInstant s op) })
    let v := match resourceValue s op r with
      | some (d, v) => if x.kill && !bus then t else setV t n d v
      | none => t
    if x.kill then .next (hubKilled v n)
    else match r with
      | .nack => .next (hubFail t n op 1 false)
      | .busErr => .next (hubFail t n op 2 false)
      | _ => .next (hubAdvance v n)

/-- HUB_WAIT_END (13 R322, R341): the time of a WAIT step has elapsed; in REST it wakes the device with RESTWAKE. -/
def execHubWaitEnd (n : Fin 32) (s : State) : Out :=
  if sheetState s n ≠ 3 ∨ waitClock s s.hub.sheets[n].op < s.hub.sheets[n].due then .next s
  else
    let s := hubAdvance s n
    .next (if hubStopped s ∧ s.bit (HUB.SHCFG n) 16 ∧ sheetState s n = 1 then wakeEvent s 5 else s)

/-! ### The hub cycles, one command for each kind of turn -/

/-- HUB_END (13 R325). -/
def execHubEnd (s : State) : Out := .next (hubCycle s (.step 0) stepEnd)
/-- HUB_POWER (13 R328). -/
def execHubPower (s : State) : Out := .next (hubCycle s (.step 1) stepPower)
/-- HUB_WAIT (13 R325). -/
def execHubWait (s : State) : Out := .next (hubCycle s (.step 2) stepWait)
/-- HUB_TWB (13 R325, R331). -/
def execHubTwb (s : State) : Out := .next (hubCycle s (.step 3) stepTwb)
/-- HUB_CSP (13 R325, R331). -/
def execHubCsp (s : State) : Out := .next (hubCycle s (.step 4) stepCsp)
/-- HUB_ADC (13 R329). -/
def execHubAdc (s : State) : Out := .next (hubCycle s (.step 5) stepAdc)
/-- HUB_DSM (13 R330). -/
def execHubDsm (s : State) : Out := .next (hubCycle s (.step 6) stepDsm)
/-- HUB_PIN (13 R332). -/
def execHubPin (s : State) : Out := .next (hubCycle s (.step 7) stepPin)
/-- HUB_CAPTURE (13 R333). -/
def execHubCapture (s : State) : Out := .next (hubCycle s (.step 8) stepCapture)
/-- HUB_FILTER (13 R335). -/
def execHubFilter (s : State) : Out := .next (hubCycle s (.step 9) stepFilter)
/-- HUB_COMPARE (13 R336). -/
def execHubCompare (s : State) : Out := .next (hubCycle s (.step 10) stepCompare)
/-- HUB_STORE (13 R338). -/
def execHubStore (s : State) : Out := .next (hubCycle s (.step 11) stepStore)
/-- HUB_SIGNAL (13 R325). -/
def execHubSignal (s : State) : Out := .next (hubCycle s (.step 12) stepSignal)
/-- HUB_BRANCH (13 R325). -/
def execHubBranch (s : State) : Out := .next (hubCycle s (.step 13) stepBranch)
/-- HUB_ILLEGAL_STEP (13 R327): ILLEGAL_STEP always aborts. -/
def execHubIllegalStep (s : State) : Out := .next (hubCycle s .illegal (fun s n op => hubFail s n op 7 true))
/-- HUB_STEP_SKIP (13 R324). -/
def execHubStepSkip (s : State) : Out := .next (hubCycle s .skip (fun s n _ => hubAdvance s n))

/-! ### Overcurrent, disabling and resets -/

/-- SPWR_OVERCURRENT (13 R328): the current limit of a switch has stayed engaged: it opens, and OCP is reported. -/
def execSpwrOvercurrent (k : Fin 4) (s : State) : Out :=
  if s.bit HUB.SPWR k.val then
    let s := hubEvent ((s.setBit HUB.SPWR k.val false).setBit HUB.SPWR (8 + k.val) true) 3
    .next ((List.finRange 32).foldl (fun (s : State) (n : Fin 32) =>
      if sheetState s n ≠ 0 ∧ testB s.hub.sheets[n].on.toNat k.val = true then hubError s n 9 else s) s)
  else .next s

/-- 13 R342: a sheet loses its enable: a step with a resource completes first, a WAIT ends at once; then the run aborts. -/
def sheetKill (s : State) (n : Fin 32) : State :=
  match sheetState s n with
  | 0 => s
  | 2 => upSheet s n (fun x => { x with kill := true })
  | _ => hubKilled s n

/-- A write of `HUB.SHnCFG` (13 R342, R345). -/
def shCfgWrite (s : State) (n : Fin 32) (v : Word) : State :=
  let s := s.wr (HUB.SHCFG n) (v &&& 0x1FF77)
  if testB v.toNat 0 then s else sheetKill s n

/-- A write of `HUB.CTRL` (13 R342). -/
def hubCtrlWrite (s : State) (v : Word) : State :=
  let s := s.setBit HUB.CTRL 0 (testB v.toNat 0)
  if testB v.toNat 0 then s else (List.finRange 32).foldl sheetKill s

/-- A write of `HUB.FLTkCFG` (13 R335): RST, or another TYPE, N, ORDER or RATIO, clears the history. -/
def fltCfgWrite (s : State) (k : Fin 16) (v : Word) : State :=
  let w := v &&& 0x3F033F03
  let clear := testB v.toNat 31 || w != s.rd (HUB.FLTCFG k)
  let s := s.wr (HUB.FLTCFG k) w
  if clear then s.upHub (fun h => { h with engines := h.engines.set k {} }) else s

/-- A write of `HUB.CMPkCFG` (13 R336): RST clears OUT, the previous input and the window. -/
def cmpCfgWrite (s : State) (k : Fin 16) (v : Word) : State :=
  let s := s.wr (HUB.CMPCFG k) (v &&& 0x31F1F0F)
  if testB v.toNat 31 then (s.wr (HUB.CMPSTAT k) 0).upHub (fun h => { h with cmps := h.cmps.set k {} }) else s

/-- A write of `HUB.SPWR`: OCP is W1C. -/
def spwrWrite (s : State) (v : Word) : State := s.setFld HUB.SPWR 11 8 (s.fld HUB.SPWR 11 8 &&& (15 - bitsOf v 11 8))

end Sys2Proof.Machine
end

