-- ==== Sys2Proof/Machine/CueTake.lean ====
section
/-! DEFINITION. What takes the events of cue lines, the logic cells, the writes of the CUE registers, and the pins (chapters 14
and 21). -/
namespace Sys2Proof.Machine
open Sys2Proof.Reg

/-! ### Producers -/

/-- The families in the order of 14 R349. -/
def famOf (n : Nat) : Fam :=
  match n with
  | 0 => .lc | 1 => .pev | 2 => .cmp | 3 => .hring | 4 => .rxq | 5 => .miscc | 6 => .teva | 7 => .tevb | 8 => .misca | _ => .miscb

/-- 14 R347: whether the domain of a producer is powered (01 R10). -/
def producerPowered (s : State) (f : Fam) (i : Nat) : Bool :=
  match f with
  | .misca => if 9 ≤ i ∧ i ≤ 11 then s.dom Dom.radio == .on else if i = 12 ∨ i = 13 then s.dom Dom.link == .on else true
  | .miscb => if 2 ≤ i ∧ i ≤ 10 then s.dom Dom.periph == .on else true
  | _ => true

/-- CUE_PRODUCER_EVENT (14 R347 to R349): member `i` of a family, numbered in the order of R349, emits an event; for RXQ `i` is the
queue. -/
def execCueProducerEvent (fam : Fin 10) (i : Fin 64) (s : State) : Out :=
  let f := famOf fam.val
  if !producerPowered s f i.val then .next s
  else if f = .rxq then .next (if slotOn s i.val 6 .rxq (i.val % 16) then emitChan s i.val else s)
  else .next (emitProducer s f i.val)

/-- PIN_EVENT (14 R349, 21 R500): pin-event unit `i` sees a filtered edge of its pin. -/
def execPinEvent (i : Fin 16) (rising : Bool) (s : State) : Out :=
  let p := s.fld (PIN.PEV i) 5 0
  if 48 ≤ p then .next s
  else
    let s := setExt s p rising
    .next (s.when (s.bit (PIN.PEV i) 15 && edgeHit (s.fld (PIN.PEV i) 9 8) rising) (fun s => emitProducer s .pev i.val))

/-! ### Consumers -/

/-- An event leaves the way to its target. -/
def unqueue (s : State) (t : CueTarget) : State := { s with cueQ := s.cueQ.filter (fun u => u != t) }

/-- 14 R350: the event latch of a core; a core whose domain is off or in retention discards the event. -/
def takeLatch (s : State) (p : Fin 6) : State :=
  match s.dom (coreDom p) with
  | .off => s
  | .ret => s
  | _ => if (s.core p).latch then setOvr s p.val else s.upCore p (fun c => { c with latch := true })

/-- 14 R351: an interrupt input: the pending bit, or the overrun of one already pending. -/
def takeIrq (s : State) (p j : Nat) : State :=
  if s.bit (CUE.IRQPEND p) j then s.setBit (CUE.IRQOVR p) j true else s.setBit (CUE.IRQPEND p) j true

/-- Changes the state behind a logic cell. -/
def upCell (s : State) (k : Fin 16) (f : Cell → Cell) : State := { s with cells := s.cells.set k (f s.cells[k]) }

/-- 14 R356: a cell input takes an event: the input latch, and the state bit of TOGGLE and LATCH. -/
def takeCell (s : State) (k : Fin 16) (j : Fin 4) : State :=
  let m := (cellIn s k j).2
  let s := upCell s k (fun c => { c with taken := c.taken ||| BitVec.ofNat 4 (2 ^ j.val) })
  match m with
  | 1 => s.setBit (CUE.LCSTAT k) (4 + j.val) (!s.bit (CUE.LCSTAT k) (4 + j.val))
  | 2 => s.setBit (CUE.LCSTAT k) (4 + j.val) true
  | _ => s

/-- 13 R321, R322: hub trigger input `i`. -/
def takeHub (s : State) (i : Nat) : State :=
  (List.finRange 32).foldl (fun (s : State) (n : Fin 32) =>
    if s.fld (HUB.SHCFG n) 2 1 = 1 ∧ s.fld (HUB.SHCFG n) 6 4 = i then hubTrigger s n (some i) else s) s

/-- 14 R350: consumer `k` takes an event. -/
def takeCons (s : State) (k : Nat) : State :=
  if h : k < 6 then takeLatch s ⟨k, h⟩
  else if k < 14 then takeHub s (k - 6)
  else if k < 30 then stageTrigger s (k - 14)
  else match k with
    | 30 => tmTakeTrg s 0 k
    | 31 => tmCueBreak s 0
    | 32 => tmTakeTrg s 1 k
    | 33 => tmCueBreak s 1
    | 40 => wakeEvent s 4
    | _ => if h : k - 32 < 8 then tmTakeTrg s ⟨k - 32, h⟩ k else s

/-- The target a taker names. -/
def takerTarget : Taker → CueTarget
  | .cons k => .cons k.val
  | .irq p j => .irq p.val j.val
  | .cell k j => .cell k.val j.val

/-- CUE_CONSUMER_TAKE (14 R350 to R352, R356): an event on its way is taken. -/
def execCueConsumerTake (t : Taker) (s : State) : Out :=
  if s.cueQ.contains (takerTarget t) then
    let s := unqueue s (takerTarget t)
    match t with
    | .cons k => .next (takeCons s k.val)
    | .irq p j => .next (takeIrq s p.val j.val)
    | .cell k j => .next (takeCell s k j)
  else .next s

/-- STG_TRIGGER (05 R129): stage-manager input `k` takes its event. -/
def execStgTrigger (k : Fin 16) (s : State) : Out :=
  if s.cueQ.contains (.cons (14 + k.val)) then .next (stageTrigger (unqueue s (.cons (14 + k.val))) k.val) else .next s

/-- 14 R353: one event on channel `c` and its software flag. -/
def cueSignal (s : State) (c : Nat) : State := (emitChan s c).setBit (CUE.CHSTAT c) 0 true

/-! ### Logic cells -/

/-- 14 R355, R356: xj of a cell. -/
def cellX (s : State) (k : Fin 16) (j : Nat) : Bool :=
  let i := cellIn s k j
  if chanSecure s i.1 && !s.bit (CUE.LCOWN k) 3 then false
  else match i.2 with
    | 0 => s.cells[k].taken.getLsbD j
    | 3 => false
    | _ => s.bit (CUE.LCSTAT k) (4 + j)

/-- 14 R357: F for the given x3. -/
def cellF (s : State) (k : Fin 16) (x3 : Bool) : Bool :=
  s.bit (CUE.LCCFG k) (8 * natBit x3 + 4 * natBit (cellX s k 2) + 2 * natBit (cellX s k 1) + natBit (cellX s k 0))

/-- 14 R356: the cell clock after an output event clears the LATCH inputs that take no event in it. -/
def clearLatches (s : State) (k : Fin 16) : State :=
  (List.range 4).foldl (fun s j =>
    if (cellIn s k j).2 = 2 ∧ ¬ s.cells[k].taken.getLsbD j then s.setBit (CUE.LCSTAT k) (4 + j) false else s) s

/-- 14 R357: the output before the filter. -/
def cellRaw (s : State) (k : Fin 16) (f : Bool) : Bool :=
  let c := s.cells[k]
  match s.fld (CUE.LCCFG k) 17 16 with
  | 1 => if cellX s k 3 then cellF s k false else c.raw
  | 2 => if f && !c.f then !c.raw else c.raw
  | _ => f

/-- LOGIC_CELL_CLOCK (14 R356 to R358): one cell clock of cell `k`. -/
def execLogicCellClock (k : Fin 16) (s : State) : Out :=
  let c := s.cells[k]
  let out := s.bit (CUE.LCSTAT k) 0
  let edge := s.fld (CUE.LCCFG k) 19 18
  let fires := c.changed && (if edge = 2 then true else if edge = 1 then !out else out)
  let s := s.when fires (fun s => emitProducer s .lc k.val)
  let s := s.when c.fired (fun s => clearLatches s k)
  let f := cellF s k (cellX s k 3)
  let raw := cellRaw s k f
  let n := s.fld (CUE.LCCFG k) 27 24
  let hold := if raw = out then 0 else if raw = c.raw then c.hold + 1 else 1
  let new := if raw != out && decide (n ≤ hold) then raw else out
  let s := s.setBit (CUE.LCSTAT k) 0 new
  .next (upCell s k (fun _ => { taken := 0, f := f, raw := raw, hold := if new = raw then 0 else hold, changed := new != out, fired := fires }))

/-- 14 R358: RST clears O, the filter count and the state bits. -/
def cellReset (s : State) (k : Fin 16) : State := upCell (s.wr (CUE.LCSTAT k) 0) k (fun _ => {})

/-! ### Register writes (14 R354, R355) -/

/-- The secure slots of channel `c`. -/
def secureSlots (s : State) (c : Nat) : Nat := packBits 8 (fun sl => secureProducer s (slotFam (c / 16) sl) (c % 16))

/-- A write of `CUE.CHcCFG`; true for a blocked access of an initiator that is neither the owner nor trusted. -/
def chanCfgWrite (s : State) (who c : Nat) (v : Word) : Bool × State :=
  if !ownsChan s who c then (true, s)
  else if s.trusted who then
    let old := s.fld (CUE.CHCFG c) 10 8
    let s := s.wr (CUE.CHCFG c) (v &&& 0x17FF)
    let s := if bitsOf v 10 8 = old then s else (s.setFld (CUE.CHCFG c) 7 0 0).setBit (CUE.CHSTAT c) 0 false
    (false, if testB v.toNat 12 then s else s.setFld (CUE.CHCFG c) 7 0 (s.fld (CUE.CHCFG c) 7 0 &&& (255 - secureSlots s c)))
  else
    let sec := secureSlots s c
    (false, s.setFld (CUE.CHCFG c) 7 0 ((bitsOf v 7 0 &&& (255 - sec)) ||| (s.fld (CUE.CHCFG c) 7 0 &&& sec)))

/-- A write of `CUE.LCkIN`, `LCkCFG` or `LCkSTAT` (`reg` 0, 1 or 3); true for a blocked access. -/
def cellWrite (s : State) (who : Nat) (k : Fin 16) (reg : Nat) (v : Word) : Bool × State :=
  if !ownsCell s who k then (true, s)
  else match reg with
    | 0 => (false, s.wr (CUE.LCIN k) v)
    | 1 =>
      let s := s.wr (CUE.LCCFG k) (v &&& 0x0F0FFFFF)
      (false, if testB v.toNat 31 then cellReset s k else s)
    | _ =>
      (false, (List.range 4).foldl (fun s j =>
        if (cellIn s k j).2 = 1 ∨ (cellIn s k j).2 = 2 then s.setBit (CUE.LCSTAT k) (4 + j) (testB v.toNat (4 + j)) else s) s)

/-- A trusted write of `CUE.LCkOWN`: another OWNER resets the cell. -/
def cellOwnWrite (s : State) (k : Fin 16) (v : Word) : State :=
  let old := s.fld (CUE.LCOWN k) 2 0
  let s := s.wr (CUE.LCOWN k) (v &&& 0xF)
  if bitsOf v 2 0 = old then s else cellReset s k

/-- A write of `CUE.SWSET0` or `SWSET1`: the channels the writer owns. -/
def swsetWrite (s : State) (who : Nat) (hi : Bool) (v : Word) : State :=
  (List.range 32).foldl (fun s b =>
    let c := b + 32 * natBit hi
    if testB v.toNat b ∧ ownsChan s who c = true then cueSignal s c else s) s

/-- A write of `CUE.CHcSTAT`. -/
def chanStatWrite (s : State) (who c : Nat) (v : Word) : State :=
  if ownsChan s who c then s.wr (CUE.CHSTAT c) (s.rd (CUE.CHSTAT c) &&& ~~~ v) else s

/-- The bits of channels 32 × hi to 32 × hi + 31 that a writer owns. -/
def ownedMask (s : State) (who : Nat) (hi : Bool) : Word := BitVec.ofNat 32 (packBits 32 (fun b => ownsChan s who (b + 32 * natBit hi)))

/-- A write of `CUE.CONSkLO` or `CONSkHI`. -/
def consWrite (s : State) (who k : Nat) (hi : Bool) (v : Word) : State :=
  let a := if hi then CUE.CONSHI k else CUE.CONSLO k
  let m := ownedMask s who hi
  s.wr a ((s.rd a &&& ~~~ m) ||| (v &&& m))

/-- A write of `CUE.IRQSELp`, fields 4j to 4j + 3: core p itself writes every field; another untrusted writer the fields whose
channel it owns before and after the write. -/
def irqSelWrite (s : State) (who p j : Nat) (v : Word) : State :=
  let own := s.trusted who || decide (initCore who = (List.finRange 6).find? (fun q => q.val == p)) && (initCore who).isSome
  (List.range 4).foldl (fun s b =>
    let x := bitsOf v (8 * b + 7) (8 * b)
    let old := s.fld (CUE.IRQSEL p j) (8 * b + 5) (8 * b)
    if own ∨ (ownsChan s who old = true ∧ ownsChan s who (x % 64) = true) then
      s.setFld (CUE.IRQSEL p j) (8 * b + 7) (8 * b) (x &&& 0xBF) else s) s

/-- Whether an initiator is core `p` or trusted. -/
def isCoreOrTrusted (s : State) (who p : Nat) : Bool :=
  s.trusted who || (match initCore who with | some q => q.val == p | none => false)

/-- A W1C write of `CUE.IRQPENDp` or `CUE.IRQOVRp`. -/
def irqClear (s : State) (who p a : Nat) (v : Word) : State :=
  if isCoreOrTrusted s who p then s.wr a (s.rd a &&& ~~~ (v &&& 0xFFFF)) else s

/-- 14 R354: whether an initiator may clear the overrun of consumer `k`. -/
def mayClearOvr (s : State) (who k : Nat) : Bool :=
  s.trusted who || (decide (k < 6) && isCoreOrTrusted s who k) ||
  (List.range 64).any (fun c => consOn s k c && ownsChan s who c)

/-- A W1C write of `CUE.OVR0` or `OVR1`. -/
def ovrWrite (s : State) (who : Nat) (hi : Bool) (v : Word) : State :=
  let a := if hi then CUE.OVR1 else CUE.OVR0
  let m := packBits 32 (fun b => testB v.toNat b && decide (b + 32 * natBit hi < 41) && mayClearOvr s who (b + 32 * natBit hi))
  s.wr a (s.rd a &&& ~~~ (BitVec.ofNat 32 m))

/-- 14 R355: `CUE.CHcCFG` as it reads: the PEN bits of secure slots read 0 while SEC is 0. -/
def chanCfgRead (s : State) (c : Nat) : Word :=
  let v := s.rd (CUE.CHCFG c)
  if testB v.toNat 12 then v else v &&& ~~~ (BitVec.ofNat 32 (secureSlots s c))

/-! ### Pins (chapter 21) -/

/-- 21 R498: a write of `PIN.CFGn` takes effect as a whole; the break inputs see the new assignment. -/
def pinCfgWrite (s : State) (n : Nat) (v : Word) (trusted : Bool) : State :=
  tmBreakCheck (tmBreakCheck (s.plainWrite (PIN.CFG n) v trusted) 0) 1

/-- 21 R502: OUTSET and OUTCLR. -/
def gpioSet (s : State) (p : Nat) (v : Word) (set : Bool) : State :=
  let m : Word := if p = 0 then v else v &&& 0xFFFF
  s.wr (GPIO.OUT p) ((if set then s.rd (GPIO.OUT p) ||| m else s.rd (GPIO.OUT p) &&& ~~~ m) &&& (if p = 0 then 0xFFFFFFFF else 0xFFFF))

end Sys2Proof.Machine
end

