-- ==== Sys2Proof/Machine/Monitor.lean ====
section
/-! DEFINITION. Clock and supply monitors, watchdogs and error injection (20 R482 to R484, R488, R491, R493, R494). -/
namespace Sys2Proof.Machine
open Sys2Proof.Reg

/-- VCORE_REG (20 R482): VCORE off its target is logged. -/
def execVcoreReg (s : State) : Out := .next (logFault s 0x0C 0 0 1 0)

/-- What the link hardware loses when its clock stops: receptions and the transmission in progress (20 R488, log 46). -/
def linkClockLost (s : State) : State :=
  let s := discardAll s 3 1
  match s.txc.job with
  | some j => if j.begun ∧ j.result.isNone then txCutShort s j 10 else s
  | none => s

/-- 20 R488: PLL `n` (0 PLLA, 1 PLLB, 2 PLLD) loses lock; it is logged with the injection flag `inj`. -/
def pllUnlock (s : State) (n inj : Nat) : State :=
  let s := logFault (s.setBit CLK.STATUS (2 + n) false) 0x0B inj 0 1 0
  if n = 1 then linkClockLost s else s

/-- PLL_UNLOCK (20 R488). -/
def execPllUnlock (pll : Fin 3) (s : State) : Out :=
  if s.bit CLK.STATUS (2 + pll.val) then .next (pllUnlock s pll.val 0) else .next s

/-- PLL_RELOCK (20 R488): a relock succeeds, or fails: the third failure within 1 s is logged as persistent. -/
def execPllRelock (pll : Fin 3) (ok : Bool) (s : State) : Out :=
  if s.bit CLK.STATUS (2 + pll.val) then .next s
  else
    let others := s.flt.relocks.filter (fun x => x.1 != pll.val)
    if ok then .next { s.setBit CLK.STATUS (2 + pll.val) true with flt := { s.flt with relocks := others } }
    else
      let r := (pll.val, s.uptime) :: (s.flt.relocks.filter (fun x => x.1 == pll.val && decide (s.uptime - x.2 ≤ ticksPerSecond)))
      let s : State := { s with flt := { s.flt with relocks := r.take 3 ++ others } }
      .next (s.when (r.length == 3) (fun s => logFault s 0x0B 0 1 0 0))

/-- HFXO_FAIL (20 R482): HFXO stops while requested: the bus clock moves to RC16; the PLLs lose their reference. -/
def execHfxoFail (s : State) : Out :=
  if s.bit CLK.STATUS 1 then
    .next (linkClockLost { logFault (s.setFld CLK.STATUS 4 1 0) 0x22 0 0 0 0 with flt := { s.flt with hfxoTry := s.uptime } }) else .next s

/-- HFXO_RESTART_TRY (20 R482): the restart tried every 1 s succeeds or not. -/
def execHfxoRestartTry (ok : Bool) (s : State) : Out :=
  if s.uptime < s.flt.hfxoTry + ticksPerSecond then .next s
  else
  let s : State := { s with flt := { s.flt with hfxoTry := s.uptime } }
  if ok && !s.bit CLK.STATUS 1 && decide (pwrState s ≤ 1) then .next (clocksOn s) else .next s

/-! ### Watchdogs -/

/-- 20 R483: a write of `FLT.WDKICK`. -/
def wdKick (s : State) (v : Word) : State := if bitsOf v 7 0 = 0xC3 ∧ bitsOf v 10 8 < 6 then wdRestart s (bitsOf v 10 8) else s

/-- 20 R483, R494: a write of `FLT.WDpCFG`; a change of TIMEOUT restarts the count. -/
def wdCfgWrite (s : State) (p : Nat) (v : Word) : State := wdRestart (s.plainWrite (FLT.WDCFG p) v true) p

/-- 20 R483, R492: whether the count of a core runs: its domain is on, it is neither held nor halted by the debug port. -/
def wdRuns (s : State) (p : Fin 6) : Bool :=
  s.fld (FLT.WDCFG p.val) 15 0 != 0 && s.dom (coreDom p) == .on && !coreHeld s p && (s.core p).run != .held && (s.core p).run != .debug

/-- 20 R494: the count at which the pre-expiry falls. -/
def wdPre (s : State) (p : Nat) : Nat := s.fld (FLT.WDCFG p) 15 0 / 2 ^ (1 + min 2 (s.fld (FLT.WDCFG p) 17 16))

/-- 20 R484: the pre-expiry: PREEXP, `FLT.EVT.WDPRE`, which raises line 26. -/
def wdPreExpire (s : State) (p : Fin 6) : State :=
  let s := if wdPre s p.val < s.fld (FLT.WDSTAT p.val) 15 0 then s.setFld (FLT.WDSTAT p.val) 15 0 (wdPre s p.val) else s
  fltEvent (s.setBit (FLT.WDSTAT p.val) 16 true) 1

/-- WATCHDOG_PRE_EXPIRY (20 R484): the count has at most the unit left whose end is the pre-expiry. -/
def execWatchdogPreExpiry (p : Fin 6) (s : State) : Out :=
  .next (s.when (wdRuns s p && decide (s.fld (FLT.WDSTAT p.val) 15 0 ≤ wdPre s p.val + 1)) (fun s => wdPreExpire s p))

/-- WATCHDOG_EXPIRY (20 R484): the count is in its last unit. -/
def execWatchdogExpiry (p : Fin 6) (s : State) : Out :=
  .next (s.when (wdRuns s p && decide (s.fld (FLT.WDSTAT p.val) 15 0 ≤ 1)) (fun s => wdExpire s p 0))

/-! ### Error injection -/

/-- 20 R491: a trusted write of `FLT.INJCTRL`, outside TEST ignored; kinds 4, 5 and 6 fire at once. -/
def injWrite (s : State) (v : Word) : State :=
  if s.phase ≠ 2 then s
  else
    let s := s.plainWrite FLT.INJCTRL v true
    if !testB v.toNat 16 then s
    else
      let core := bitsOf v 10 8
      let off := s.setBit FLT.INJCTRL 16 false
      match bitsOf v 3 0 with
      | 4 => if h : core < 6 then wdExpire off ⟨core, h⟩ 0x80 else off
      | 5 => if h : core < 6 then doubleFault off ⟨core, h⟩ 0x80 else off
      | 6 => if core % 4 < 3 then pllUnlock off (core % 4) 0x80 else off
      | _ => s

/-- 20 R493: a write of `FLT.CURTCNT`: bit 31 clears the record and the count. -/
def curtClear (s : State) (v : Word) : State :=
  if testB v.toNat 31 then ((s.wr FLT.CURT0 0).wr FLT.CURT1 0).wr FLT.CURTCNT 0 else s

end Sys2Proof.Machine
end

