-- ==== Sys2Proof/Machine/Serial.lean ====
section
/-! DEFINITION. The two-wire buses, the clocked serial ports and the host window (chapter 16). -/
namespace Sys2Proof.Machine
open Sys2Proof.Reg

/-! ### Two-wire buses -/

/-- 16 R381: SCLL and SCLH as they act, in kernel clocks of 62.5 ns. -/
def twbScll (s : State) (k : Fin 5) : Nat := max (if k.val = 0 then 8 else 21) (s.fld (TWB.TIMING k) 7 0)
def twbSclh (s : State) (k : Fin 5) : Nat := max (if k.val = 0 then 4 else 10) (s.fld (TWB.TIMING k) 15 8)

/-- 16 R381: the ticks of 31.25 ns that `n` bytes with their ninth clocks take at least (log 122). -/
def twbTicks (s : State) (k : Fin 5) (n : Nat) : Nat := 18 * n * (twbScll s k + twbSclh s k)

/-- 16 R383: whether a target acknowledges an address: its own, or the general call with GCEN. -/
def twbOwn (s : State) (k : Fin 5) (a : TwbAddr) : Bool :=
  (s.bit (TWB.ADDR k) 15 == a.ten && s.fld (TWB.ADDR k) (if a.ten then 9 else 6) 0 == a.addr.toNat) ||
  (s.bit (TWB.CTRL k) 3 && !a.ten && !a.read && a.addr == 0)

/-- Changes the state behind the registers of a bus. -/
def upTwb (s : State) (k : Fin 5) (f : Twb → Twb) : State := { s with twb := s.twb.set k (f s.twb[k]) }

/-- An event of a bus (14 R349: MISCB 2 to 6). -/
def twbEvent (s : State) (k : Fin 5) (b : Nat) : State := s.event (TWB.EVT k) (TWB.IEN k) b .miscb (2 + k.val)

/-- 16 R401: `TWBk.FIFO`. -/
def twbFifo (s : State) (k : Fin 5) : State :=
  s.wr (TWB.FIFO k) (BitVec.ofNat 32 (s.twb[k].tx.length + 256 * s.twb[k].rx.length))

def twbBusy (s : State) (k : Fin 5) : Bool := s.bit (TWB.STATUS k) 0
def twbActive (s : State) (k : Fin 5) : Bool := s.bit (TWB.STATUS k) 1

/-- The transfer of a command: its N, READ and STOP. -/
def cmdN (v : Word) : Nat := bitsOf v 23 16
def cmdRead (v : Word) : Bool := testB v.toNat 11
def cmdStop (v : Word) : Bool := testB v.toNat 13

/-- 16 R382: an active write takes the bytes that are due from the TX FIFO (log 34); an empty FIFO with a byte due asks for it. -/
def twbFeed (s : State) (k : Fin 5) : State :=
  let b := s.twb[k]
  match b.cmd with
  | some v =>
    if b.onBus && !cmdRead v then
      let n := min b.tx.length (cmdN v - b.moved)
      let s := twbFifo (upTwb s k (fun b => { b with tx := b.tx.drop n, moved := b.moved + n })) k
      s.when (decide (s.twb[k].moved < cmdN v) && s.twb[k].tx.isEmpty) (fun s => twbEvent s k 8)
    else s
  | none => s

/-- 16 R381, R382, R388: a waiting controller transfer, or else a waiting attention write, takes a bus that is free or kept. -/
def twbStart (s : State) (k : Fin 5) : State :=
  let b := s.twb[k]
  if b.hub || b.attnBus || b.recover || b.onBus then s
  else if b.cmd.isSome && (b.keep || (b.free && !twbBusy s k)) then
    twbFeed ((upTwb s k (fun b => { b with onBus := true, keep := false, since := s.uptime })).setBit (TWB.STATUS k) 0 true) k
  else if b.attn.isSome && b.free && !twbBusy s k then
    (upTwb s k (fun b => { b with attnBus := true })).setBit (TWB.STATUS k) 0 true
  else s

/-- A STOP: the bus is no longer between START and STOP, and BUF is counted anew. -/
def twbStop (s : State) (k : Fin 5) : State :=
  (upTwb s k (fun b => { b with free := false, keep := false, stopAt := some s.uptime })).setBit (TWB.STATUS k) 0 false

/-- The command ends. -/
def twbDrop (s : State) (k : Fin 5) : State :=
  (upTwb s k (fun b => { b with cmd := none, moved := 0, inbox := [], ended := false, onBus := false })).setBit (TWB.STATUS k) 1 false

/-- 16 R382: a write of `TWBk.CMD`: while ACTIVE, or without EN and CTLEN, it is discarded with CFGERR (log 35). -/
def twbCmd (s : State) (k : Fin 5) (v : Word) : State :=
  if twbActive s k || !s.bit (TWB.CTRL k) 0 || !s.bit (TWB.CTRL k) 1 then s.setBit (TWB.STATUS k) 6 true
  else
    let s := ((s.setBit (TWB.STATUS k) 6 false).setBit (TWB.STATUS k) 1 true).setFld (TWB.STATUS k) 15 8 0
    twbStart (upTwb s k (fun b => { b with cmd := some v, moved := 0, inbox := [], ended := false })) k

/-- 16 R382: a transfer whose bytes have all found room ends: DONE, and a STOP or the bus kept. -/
def twbFinish (s : State) (k : Fin 5) : State :=
  match s.twb[k].cmd with
  | some v =>
    let s := twbEvent (twbDrop s k) k 0
    if cmdStop v then twbStop s k else upTwb s k (fun b => { b with keep := true })
  | none => s

/-- 16 R382: received bytes enter the RX FIFO while it has room. -/
def twbTake (s : State) (k : Fin 5) : State :=
  let b := s.twb[k]
  let n := min b.inbox.length (8 - b.rx.length)
  let s := twbFifo (upTwb s k (fun b => { b with rx := b.rx ++ b.inbox.take n, inbox := b.inbox.drop n })) k
  let s := s.when (decide (0 < n)) (fun s => twbEvent s k 9)
  if s.twb[k].ended && s.twb[k].inbox.isEmpty then twbFinish s k else s

/-- 16 R382: the bytes on the bus of a transfer that ends: its address and what follows. -/
def twbBytes (v : Word) (acked : Nat) (nack : Bool) (rx : List Byte) : Nat :=
  1 + natBit (testB v.toNat 10) + (if nack then min acked (cmdN v) else if cmdRead v then min rx.length (cmdN v) else cmdN v)

/-- TWB_TRANSFER_DONE (16 R381, R382): the transfer on the bus ends, with the bytes acknowledged, whether by a byte not acknowledged, and
the bytes received. -/
def execTwbTransferDone (k : Fin 5) (acked : Nat) (nack : Bool) (rx : List Byte) (s : State) : Out :=
  let b := s.twb[k]
  match b.cmd with
  | none => .next s
  | some v =>
    if !b.onBus || b.ended || decide (s.uptime < b.since + twbTicks s k (twbBytes v acked nack rx)) then .next s
    else if nack then
      .next (twbStart (twbStop (twbEvent (twbDrop (s.setFld (TWB.STATUS k) 15 8 (min acked (cmdN v))) k) k 1) k) k)
    else if cmdRead v then
      let rx := rx.take (cmdN v)
      let s := s.setFld (TWB.STATUS k) 15 8 rx.length
      .next (twbTake (upTwb s k (fun b => { b with inbox := rx, ended := true })) k)
    else if b.moved < cmdN v then .next s
    else .next (twbFinish (s.setFld (TWB.STATUS k) 15 8 (cmdN v)) k)

/-- 16 R383: the address phase of a target: TGTSEL, TGTREAD, TGTADDR; a read with an empty TX FIFO asks for a byte. -/
def twbAddressed (s : State) (k : Fin 5) (read : Bool) : State :=
  let s := ((s.setBit (TWB.STATUS k) 0 true).setBit (TWB.STATUS k) 2 true).setBit (TWB.STATUS k) 3 read
  let s := twbEvent s k 6
  s.when (read && s.twb[k].tx.isEmpty) (fun s => twbEvent s k 8)

/-- 16 R388: a lost attempt of an attention write is repeated after the next free period, up to RETRY times. -/
def attnLost (s : State) (k : Fin 5) : State :=
  let s := upTwb s k (fun b => { b with attnBus := false })
  match s.twb[k].attn with
  | some (n + 1) => upTwb s k (fun b => { b with attn := some n })
  | some 0 => twbEvent (upTwb s k (fun b => { b with attn := none })) k 13
  | none => s

/-- TWB_ARBITRATION_LOST (16 R384): `bytes` were complete; `winner` is the winning address when the loss falls in one. -/
def execTwbArbitrationLost (k : Fin 5) (bytes : Nat) (winner : Option TwbAddr) (s : State) : Out :=
  let b := s.twb[k]
  let s := if b.onBus then
      let s := twbDrop (s.setFld (TWB.STATUS k) 15 8 (min 255 bytes)) k
      twbEvent (twbFifo (upTwb s k (fun b => { b with tx := [], free := false })) k) k 2
    else if b.attnBus then attnLost (upTwb s k (fun b => { b with free := false })) k
    else s
  if b.onBus ∨ b.attnBus then
    match winner with
    | some a => .next (if s.bit (TWB.CTRL k) 2 && twbOwn s k a then twbAddressed s k a.read else s)
    | none => .next s
  else .next s

/-- A target transfer ends. -/
def twbIdle (s : State) (k : Fin 5) : State := (s.setBit (TWB.STATUS k) 2 false).setBit (TWB.STATUS k) 3 false

/-- 16 R385: a controller that ends its transfer without a STOP of its own. -/
def twbRelease (s : State) (k : Fin 5) : State :=
  (upTwb (twbDrop s k) k (fun b => { b with keep := false, free := false, attnBus := false,
                                            attn := if b.attnBus then none else b.attn }))

/-- TWB_MISPLACED_CONDITION (16 R385): a START or STOP of another inside a byte; `ninth` is the acknowledge of a target
transmitter, where a START is a repeated START whose address comes next. -/
def execTwbMisplacedCondition (k : Fin 5) (start ninth : Bool) (s : State) : Out :=
  let b := s.twb[k]
  if b.onBus ∨ b.attnBus then
    let s := twbEvent (twbRelease s k) k 3
    .next (s.when b.attnBus (fun s => twbEvent s k 13))
  else if s.bit (TWB.STATUS k) 2 then
    let acked := s.bit (TWB.STATUS k) 3 && ninth
    if acked && start then .next s
    else
      let s := if start then s else twbStop s k
      .next (twbEvent (twbIdle s k) k (if acked then 7 else 3))
  else .next s

/-- 16 R386: what a timeout ends: a controller's transfer, an attention write, a target's transfer. -/
def twbTimeout (s : State) (k : Fin 5) : State :=
  let b := s.twb[k]
  let s := if b.onBus || b.attnBus || b.cmd.isSome then twbRelease s k else s
  let s := s.when b.attnBus (fun s => twbEvent s k 13)
  twbIdle s k

/-- TWB_SCL_TIMEOUT (16 R386, R387). -/
def execTwbSclTimeout (k : Fin 5) (s : State) : Out :=
  let s := twbTimeout (twbEvent (s.setBit (TWB.STATUS k) 4 true) k 4) k
  if s.twb[k].recover then .next (twbEvent (upTwb s k (fun b => { b with recover := false })) k 11) else .next s

/-- TWB_SDA_TIMEOUT (16 R386, R387): AUTOREC starts a recovery. -/
def execTwbSdaTimeout (k : Fin 5) (s : State) : Out :=
  let s := twbTimeout (twbEvent (s.setBit (TWB.STATUS k) 5 true) k 5) k
  if s.bit (TWB.CTRL k) 4 then .next (upTwb s k (fun b => { b with recover := true })) else .next s

/-- 16 R387: a write of `TWBk.RECOVER`. -/
def twbRecover (s : State) (k : Fin 5) (v : Word) : State :=
  if testB v.toNat 0 && !twbActive s k then upTwb s k (fun b => { b with recover := true }) else s

/-- TWB_RECOVER_DONE (16 R387): SDA reads high within nine pulses, and a STOP follows; or not. -/
def execTwbRecoverDone (k : Fin 5) (ok : Bool) (s : State) : Out :=
  if s.twb[k].recover then
    let s := upTwb s k (fun b => { b with recover := false })
    if ok then .next (twbEvent (twbStop (s.setBit (TWB.STATUS k) 5 false) k) k 10) else .next (twbEvent s k 11)
  else .next s

/-- 16 R389: whether the TWBs and CSPs answer: PERIPH on, and not in REST. -/
def serialOn (s : State) : Bool := s.dom Dom.periph == .on && pwrState s != 3

/-- 16 R383, R401: whether a TWB has the target role: EN and TGTEN. -/
def twbTarget (s : State) (k : Fin 5) : Bool := s.bit (TWB.CTRL k) 0 && s.bit (TWB.CTRL k) 2

/-- TWB_TARGET_ADDRESSED (16 R383): the own address, or the general call with GCEN, is acknowledged. -/
def execTwbTargetAddressed (k : Fin 5) (addr : TwbAddr) (s : State) : Out :=
  if serialOn s && twbTarget s k && twbOwn s k addr &&
    !s.twb[k].onBus && !s.twb[k].attnBus then .next (twbAddressed s k addr.read)
  else .next s

/-- TWB_TARGET_BYTE (16 R383): a byte of a target transfer; a full RX FIFO or an empty TX FIFO stretches instead. -/
def execTwbTargetByte (k : Fin 5) (b : Byte) (s : State) : Out :=
  if !s.bit (TWB.STATUS k) 2 then .next s
  else if s.bit (TWB.STATUS k) 3 then
    if s.twb[k].tx.isEmpty then .next s
    else
      let s := twbFifo (upTwb s k (fun t => { t with tx := t.tx.drop 1 })) k
      .next (s.when s.twb[k].tx.isEmpty (fun s => twbEvent s k 8))
  else if 8 ≤ s.twb[k].rx.length then .next s
  else .next (twbEvent (twbFifo (upTwb s k (fun t => { t with rx := t.rx ++ [b] })) k) k 9)

/-- TWB_TARGET_STOP (16 R383): a STOP, or a repeated START not addressed to the target. -/
def execTwbTargetStop (k : Fin 5) (stop : Bool) (s : State) : Out :=
  if s.bit (TWB.STATUS k) 2 then .next (twbEvent (if stop then twbStop (twbIdle s k) k else twbIdle s k) k 7) else .next s

/-- 16 R393: the status byte of the host window. -/
def hwnStatus (s : State) : Nat :=
  128 + 32 * natBit s.hwn.frameErr + 16 * natBit s.hwn.addrOvf +
  8 * natBit (qCount s 119 != 0 || s.hwn.hold.isSome) + 4 * natBit (!qOn s 118 || qFull s 118) +
  2 * natBit (s.bit HWN.CTRL 3) + natBit (s.bit HWN.CTRL 2)

/-- 16 R388: an attention write is asked for; while one is pending, or outside the target role, it is discarded. -/
def attnGo (s : State) (k : Fin 5) (src : Bool) : State :=
  if s.twb[k].attn.isSome || !twbTarget s k then s
  else
    let msg := if src && k == 0 then [BitVec.ofNat 8 (2 * s.fld HWN.CTRL 14 8), BitVec.ofNat 8 (hwnStatus s), BitVec.ofNat 8 (s.fld HWN.ATTNCODE 7 0)]
      else leBytes 3 (s.rd (TWB.ATTNDATA k)).toNat
    twbStart (upTwb s k (fun b => { b with attn := some (s.fld (TWB.ATTN k) 9 8), msg := msg })) k

/-- A write of `TWBk.ATTN` (16 R388, R401): SRC is there on TWB0 alone. -/
def twbAttn (s : State) (k : Fin 5) (v : Word) (trusted : Bool) : State :=
  let s := (s.plainWrite (TWB.ATTN k) (if k = 0 then v else v &&& ~~~ 0x10000) trusted).setBit (TWB.ATTN k) 31 false
  if testB v.toNat 31 then attnGo s k (s.bit (TWB.ATTN k) 16) else s

/-- TWB_ATTN_DONE (16 R388): the attempt on the bus ends, all bytes acknowledged or one not. -/
def execTwbAttnDone (k : Fin 5) (ok : Bool) (s : State) : Out :=
  if s.twb[k].attnBus then
    let s := upTwb s k (fun b => { b with attn := none, attnBus := false })
    .next (twbEvent (twbStop s k) k (if ok then 12 else 13))
  else .next s

/-- A write of `TWBk.TXDATA`: a byte into the TX FIFO, discarded when full. -/
def twbTxWrite (s : State) (k : Fin 5) (v : Word) : State :=
  if 8 ≤ s.twb[k].tx.length then s
  else twbFeed (twbFifo (upTwb s k (fun b => { b with tx := b.tx ++ [BitVec.ofNat 8 v.toNat] })) k) k

/-- A read of `TWBk.RXDATA`: the oldest byte with VALID. -/
def twbRxRead (s : State) (k : Fin 5) : Word × State :=
  match s.twb[k].rx with
  | b :: bs => (BitVec.ofNat 32 (256 + b.toNat), twbTake (upTwb s k (fun t => { t with rx := bs })) k)
  | [] => (0, s)

/-- A write of `TWBk.CTRL` (16 R400): EN or TGTEN cleared ends work as the role demands; TWB0 alone has FILT. -/
def twbCtrlWrite (s : State) (k : Fin 5) (v : Word) (trusted : Bool) : State :=
  let old := s.rd (TWB.CTRL k)
  let s := s.plainWrite (TWB.CTRL k) (if k.val = 0 then v else v &&& 0xFFFFF0FF) trusted
  let off := testB old.toNat 0 && !testB v.toNat 0
  let s := if off && (s.twb[k].cmd.isSome || s.twb[k].keep || s.twb[k].attnBus) then
      let s := twbStop (twbDrop s k) k
      twbFifo (upTwb s k (fun b => { b with tx := [], rx := [], attn := none, attnBus := false })) k
    else s
  if off ∨ (testB old.toNat 2 ∧ ¬ testB v.toNat 2) then twbIdle s k else s

/-- 16 R381: whether BUF kernel clocks have passed since the last STOP. -/
def twbRested (s : State) (k : Fin 5) : Bool := match s.twb[k].stopAt with
  | some t => decide (t + 2 * s.fld (TWB.TIMING k) 31 24 ≤ s.uptime)
  | none => true

/-- TWB_BUS_FREE (16 R381): the bus has been free for BUF. -/
def execTwbBusFree (k : Fin 5) (s : State) : Out :=
  if s.twb[k].onBus ∨ s.twb[k].keep ∨ s.twb[k].attnBus ∨ s.twb[k].hub ∨ ¬ twbRested s k then .next s
  else
    let s := (s.setFld (TWB.STATUS k) 5 4 0).setBit (TWB.STATUS k) 0 false
    .next (twbStart (upTwb s k (fun b => { b with free := true })) k)

/-- TWB_WAKE_DETECT (16 R389, 18 R443): a START on the pins of a target while PERIPH is powered down. -/
def execTwbWakeDetect (k : Fin 5) (s : State) : Out :=
  if s.bit (TWB.CTRL k) 2 && s.dom Dom.periph != .on then
    if pwrState s = 3 then .next (wakeEvent s 7)
    else .next ((s.setDom Dom.periph .on).setBit (TWB.STATUS k) 0 true)
  else .next s

/-! ### Clocked serial ports -/

/-- Changes the state behind the registers of a port. -/
def upCsp (s : State) (k : Fin 2) (f : Csp → Csp) : State := { s with csp := s.csp.set k (f s.csp[k]) }

/-- An event of a port (14 R349: MISCB 7 and 8). -/
def cspEvent (s : State) (k : Fin 2) (b : Nat) : State := s.event (CSP.EVT k) (CSP.IEN k) b .miscb (7 + k.val)

/-- Forms the FIFO counts of `CSPk.STATUS`. -/
def cspFifo (s : State) (k : Fin 2) : State :=
  (s.setFld (CSP.STATUS k) 11 8 s.csp[k].tx.length).setFld (CSP.STATUS k) 15 12 s.csp[k].rx.length

def cspSlave (s : State) (k : Fin 2) : Bool := s.bit (CSP.CTRL k) 1

/-- 16 R402: the frame size in bits. -/
def cspBits (s : State) (k : Fin 2) : Nat := max 3 (s.fld (CSP.CTRL k) 12 8) + 1

/-- A frame cut to its size. -/
def cspCut (s : State) (k : Fin 2) (v : Word) : Word := BitVec.ofNat 32 (v.toNat % 2 ^ cspBits s k)

/-- 16 R390: a frame as it is held, from its bits in the order received, the first the most significant: with LSBF they are reversed. -/
def cspIn (s : State) (k : Fin 2) (v : Word) : Word :=
  let n := cspBits s k
  if s.bit (CSP.CTRL k) 4 then BitVec.ofNat 32 (packBits n (fun i => testB v.toNat (n - 1 - i))) else cspCut s k v

/-- 16 R390: the ticks of 31.25 ns of a master frame at SCK = bus clock / (2 × (DIV + 1)) (log 122). -/
def cspTicks (s : State) (k : Fin 2) : Nat := cspBits s k * (s.fld (CSP.CTRL k) 31 24 + 1) * (if busOnRc s then 4 else 1)

/-- 16 R390: the master runs a frame while the TX FIFO is not empty and the RX FIFO has room. -/
def cspStart (s : State) (k : Fin 2) : State :=
  let c := s.csp[k]
  if s.bit (CSP.CTRL k) 0 && !cspSlave s k && !s.bit (CSP.STATUS k) 2 && !c.hub && c.frame.isNone && decide (c.rx.length < 8) then
    match c.tx with
    | w :: ws => (cspFifo (upCsp s k (fun c => { c with tx := ws, frame := some w, since := s.uptime })) k).setBit (CSP.STATUS k) 0 true
    | [] => s
  else s

/-- A write of `CSPk.TXDATA`: discarded when the FIFO is full. -/
def cspTxWrite (s : State) (k : Fin 2) (v : Word) : State :=
  if 8 ≤ s.csp[k].tx.length then s
  else cspStart (cspFifo (upCsp s k (fun c => { c with tx := c.tx ++ [cspCut s k v] })) k) k

/-- A read of `CSPk.RXDATA`. -/
def cspRxRead (s : State) (k : Fin 2) : Word × State :=
  match s.csp[k].rx with
  | w :: ws => (w, cspStart (cspFifo (upCsp s k (fun c => { c with rx := ws })) k) k)
  | [] => (0, s)

/-- CSP_MASTER_FRAME_DONE (16 R390): the frame in progress ends; the next one starts, or the port is idle. -/
def execCspMasterFrameDone (k : Fin 2) (rx : Word) (s : State) : Out :=
  if s.csp[k].frame.isSome ∧ s.csp[k].since + cspTicks s k ≤ s.uptime then
    let s := cspFifo (upCsp s k (fun c => { c with frame := none, rx := c.rx ++ [cspIn s k rx] })) k
    .next (cspStart (cspEvent (s.setBit (CSP.STATUS k) 0 false) k 0) k)
  else .next s

/-- 16 R391: whether a port serves as a slave of the firmware. -/
def cspServes (s : State) (k : Fin 2) : Bool := serialOn s && s.bit (CSP.CTRL k) 0 && cspSlave s k && !s.bit (CSP.STATUS k) 2

/-- CSP_SLAVE_SELECT (16 R391). -/
def execCspSlaveSelect (k : Fin 2) (s : State) : Out :=
  if cspServes s k then .next (s.setBit (CSP.STATUS k) 1 true) else .next s

/-- CSP_SLAVE_FRAME_DONE (16 R391): a frame of a selected slave, with its underrun and overrun. -/
def execCspSlaveFrameDone (k : Fin 2) (rx : Word) (s : State) : Out :=
  if cspServes s k && s.bit (CSP.STATUS k) 1 then
    let s := if s.csp[k].tx.isEmpty then cspEvent s k 1 else upCsp s k (fun c => { c with tx := c.tx.drop 1 })
    let s := if 8 ≤ s.csp[k].rx.length then cspEvent s k 2
      else cspEvent (upCsp s k (fun c => { c with rx := c.rx ++ [cspIn s k rx] })) k 0
    .next (cspFifo s k)
  else .next s

/-- CSP_SELECT_RELEASE (16 R391): `part` when a frame is unfinished. -/
def execCspSelectRelease (k : Fin 2) (part : Bool) (s : State) : Out :=
  if s.bit (CSP.STATUS k) 1 then
    let s := (s.setBit (CSP.STATUS k) 1 false).when part (fun s => cspEvent s k 3)
    .next (cspEvent s k 4)
  else .next s

/-- A write of `CSPk.CTRL` (16 R394, R400): discarded while the host window owns the port. -/
def cspCtrlWrite (s : State) (k : Fin 2) (v : Word) (trusted : Bool) : State :=
  if s.bit (CSP.STATUS k) 2 then s
  else
    let s := s.plainWrite (CSP.CTRL k) v trusted
    let s := if testB v.toNat 0 then s else s.setBit (CSP.STATUS k) 1 false
    cspStart s k

/-- CSP_WAKE_DETECT (16 R389, 18 R443): a falling select of a slave while PERIPH is powered down. -/
def execCspWakeDetect (k : Fin 2) (s : State) : Out :=
  if cspSlave s k && s.bit (CSP.CTRL k) 0 && s.dom Dom.periph != .on then
    if pwrState s = 3 then .next (wakeEvent s 8)
    else .next ((s.setDom Dom.periph .on).setBit (CSP.STATUS k) 1 true)
  else .next s

/-! ### The host window -/

/-- 16, 01 R23: the initiator id of the host window bridge. -/
def hwnInit : Nat := 0xE

/-- Changes the state behind the window's registers. -/
def State.upHwn (s : State) (f : Hwn → Hwn) : State := { s with hwn := f s.hwn }

/-- 16 R403: an event of the window; bit 0 is the host-write producer (14 R349: MISCB 9). -/
def hwnEvent (s : State) (b : Nat) : State :=
  if b = 0 then s.event HWN.EVT HWN.IEN 0 .miscb 9 else s.setBit HWN.EVT b true

/-- The firmware area as it stands. -/
def hwnArea (s : State) : List Byte := (List.range 64).map (fun i => BitVec.ofNat 8 (s.rd (HWN.REG (0x40 + i))).toNat)

/-- Whether the window is on CSP0. -/
def hwnOnCsp (s : State) : Bool := s.bit HWN.CTRL 1

/-- 16 R398, 05 R133: byte 0x0C is fetched: a non-stalling dequeue of Q119, whose consumer is the host bridge, while the holding word is not
valid. -/
def hwnFetch (s : State) : State :=
  if s.hwn.hold.isSome then s
  else
    match qTake s 119 with
    | (some w, s) => s.upHwn (fun h => { h with hold := some w.1 })
    | (none, s) => s

/-- 16 R392, R399: the byte the host reads at the pointer. -/
def hwnByte (s : State) (x : HwnTx) (a : Nat) : Byte :=
  if a = 0 then 0x96
  else if a = 1 then BitVec.ofNat 8 (s.fld SYS.ID 23 16)
  else if a = 2 then BitVec.ofNat 8 (hwnStatus s)
  else if a = 3 then BitVec.ofNat 8 (s.fld HWN.ATTNCODE 7 0)
  else if 0xC ≤ a ∧ a < 0x10 then BitVec.ofNat 8 ((s.hwn.hold.getD 0).toNat / 256 ^ (a - 0xC))
  else if 0x10 ≤ a ∧ a < 0x40 then BitVec.ofNat 8 (s.rd (HWN.REG a)).toNat
  else if 0x40 ≤ a ∧ a < 0x80 then x.area.getD (a - 0x40) 0
  else 0

/-- 16 R396: the pointer advances; past 0x7F it enters the overflow state. -/
def hwnAdvance (s : State) : State :=
  if s.hwn.ptr < 127 then s.upHwn (fun h => { h with ptr := h.ptr + 1 })
  else if s.hwn.ptr = 127 then hwnEvent (s.upHwn (fun h => { h with ptr := 128, addrOvf := true })) 3
  else s

/-- 16 R393: the status byte has been sent in full: the flags it shows are cleared. -/
def hwnShown (s : State) (st : Byte) : State :=
  s.upHwn (fun h => { h with frameErr := h.frameErr && !st.getLsbD 5, addrOvf := h.addrOvf && !st.getLsbD 4, sent := st })

/-- 16 R398, 05 R133: the commit of a byte of the input-queue port, the producer of Q118. -/
def hwnStage (s : State) (i : Nat) (b : Byte) : State :=
  let s := s.upHwn (fun h => { h with stage := withBits h.stage (8 * i + 7) (8 * i) b.toNat })
  if i = 3 then
    let r := qProduce s 118 hwnInit (leBytes 4 s.hwn.stage.toNat)
    if r.1 = 1 ∨ r.1 = 2 then hwnEvent r.2 5 else r.2
  else s

/-- 16 R392, R397: a host write commits at the pointer. -/
def hwnWrite (s : State) (x : HwnTx) (b : Byte) : State :=
  let a := s.hwn.ptr
  if 8 ≤ a ∧ a < 12 then hwnAdvance (hwnStage s (a - 8) b)
  else if 0x10 ≤ a ∧ a < 0x40 then
    let s := s.wr (HWN.REG a) (BitVec.ofNat 32 b.toNat)
    let span := match x.span with | some (f, _) => some (f, a) | none => some (a, a)
    hwnAdvance (s.upHwn (fun h => { h with tx := some { x with span := span } }))
  else if 128 ≤ a then s
  else hwnAdvance (hwnEvent s 4)

/-- 16 R397, R398: a host read commits at the pointer. -/
def hwnRead (s : State) (x : HwnTx) : State :=
  let a := s.hwn.ptr
  let s := if a = 0xC then hwnFetch s else s
  let s := s.upHwn (fun h => { h with sent := hwnByte s x a })
  let s := if a = 0xF then s.upHwn (fun h => { h with hold := none }) else s
  hwnAdvance s

/-- 16 R394, R395, R399: a transaction ends. -/
def hwnEnd (s : State) (x : HwnTx) (unfinished : Bool) : State :=
  let s := s.upHwn (fun h => { h with tx := none })
  let s := if unfinished then
      let s := if x.read && !x.cmd && x.status.isNone && s.hwn.ptr == 0xC then hwnFetch s else s
      hwnEvent (s.upHwn (fun h => { h with frameErr := true })) 2
    else s
  let s := match x.span with
    | some (f, l) => hwnEvent (s.wr HWN.WRSPAN (BitVec.ofNat 32 (f + 256 * l))) 0
    | none => s
  s.when (x.read && !x.cmd) (fun s => hwnEvent s 1)

/-- 16 R394, R395: whether the port of the window has its role: CSP0 as an enabled slave, TWB0 as an enabled target. -/
def hwnPortOn (s : State) : Bool := if hwnOnCsp s then s.bit (CSP.CTRL 0) 0 && cspSlave s 0 else twbTarget s 0

/-- HWN_TRANSACTION_START (16 R393 to R395): the select falls on CSP0, or the window is addressed on TWB0 with the direction `read`; a
repeated START ends the transaction in progress. -/
def execHwnTransactionStart (read : Bool) (s : State) : Out :=
  if !s.bit HWN.CTRL 0 || !serialOn s || !hwnPortOn s then .next s
  else if hwnOnCsp s then
    let st := BitVec.ofNat 8 (hwnStatus s)
    .next ((s.setBit (CSP.STATUS 0) 1 true).upHwn (fun h => { h with tx := some { cmd := true, status := some st, area := hwnArea s } }))
  else
    let s := match s.hwn.tx with
      | some x => hwnEnd s x false
      | none => s
    let s := twbEvent (s.setBit (TWB.STATUS 0) 0 true) 0 6
    let st := BitVec.ofNat 8 (hwnStatus s)
    .next (s.upHwn (fun h => { h with tx := some { read := read, cmd := !read, status := if read then some st else none, area := hwnArea s } }))

/-- HWN_BYTE_COMMIT (16 R394 to R398): a byte reaches its eighth clock edge; `b` is the host's byte. -/
def execHwnByteCommit (b : Byte) (s : State) : Out :=
  match s.hwn.tx with
  | none => .next s
  | some x =>
    if x.cmd then
      let s := match x.status with
        | some st => hwnShown s st
        | none => s
      let rd := if hwnOnCsp s then testB b.toNat 7 else false
      .next (s.upHwn (fun h => { h with ptr := b.toNat % 128, tx := some { x with cmd := false, status := none, read := rd } }))
    else match x.status with
      | some st => .next ((hwnShown s st).upHwn (fun h => { h with tx := some { x with status := none } }))
      | none => if x.read then .next (hwnRead s x) else .next (hwnWrite s x b)

/-- HWN_TRANSACTION_END (16 R394, R395, R397): the select rises, or a STOP or a repeated START ends the transaction. -/
def execHwnTransactionEnd (unfinished : Bool) (s : State) : Out :=
  match s.hwn.tx with
  | none => .next s
  | some x =>
    let s := hwnEnd s x unfinished
    .next (if hwnOnCsp s then s.setBit (CSP.STATUS 0) 1 false else twbStop s 0)

/-- A write of `HWN.CTRL` (16 R388, R394, R400, R403): PORT and ADDR only while EN is 0; EN cleared ends a transaction; ATTN set with
ATTNAUTO asks for the attention write. -/
def hwnCtrlWrite (s : State) (v : Word) : State :=
  let old := s.rd HWN.CTRL
  let m : Word := if testB old.toNat 0 then 0x1D else 0x7F1F
  let s := s.wr HWN.CTRL ((old &&& ~~~ m) ||| (v &&& m))
  let on := testB v.toNat 0
  let s := s.setBit (CSP.STATUS 0) 2 (on && hwnOnCsp s)
  let s := if testB old.toNat 0 && !on then s.upHwn (fun h => { h with tx := none, stage := 0, hold := none })
    else if on && !testB old.toNat 0 then s.upHwn (fun h => { h with ptr := 0 }) else s
  s.when (testB v.toNat 3 && !testB old.toNat 3 && testB v.toNat 4) (fun s => attnGo s 0 true)

/-- 16 R403: `HWN.STATUS` as a read finds it. -/
def hwnStatusRead (s : State) : Word :=
  BitVec.ofNat 32 (hwnStatus s + 256 * s.hwn.ptr + 65536 * natBit s.hwn.tx.isSome + 131072 * natBit s.hwn.hold.isSome)

end Sys2Proof.Machine
end

