-- ==== Sys2Proof/Machine/Access.lean ====
section
/-! DEFINITION. Accesses to the registers of the blocks, as the peripheral bus serves them (00 R4 to R9, 01 R11, R22, 04 R93): the
curtain, the power domain of the block, and what a read or a write of each register does beside its access code. -/
namespace Sys2Proof.Machine
open Sys2Proof.Reg

/-! ### Which accesses reach a block -/

/-- 01 R22: the power domain of the block whose page this is. -/
def pageDom (page : Nat) : Nat :=
  if 0x30005 ≤ page ∧ page ≤ 0x30009 then Dom.prompt
  else if page = 0x3000A ∨ page = 0x3000B then Dom.nvm
  else if page = 0x3000C then Dom.dramsys
  else if page = 0x30016 ∨ page = 0x30017 ∨ (0x30020 ≤ page ∧ page ≤ 0x30029) then Dom.periph
  else if page = 0x30030 ∨ page = 0x30038 then Dom.radio
  else if 0x30031 ≤ page ∧ page ≤ 0x30037 then Dom.link
  else if page = 0x30003 then Dom.bkup
  else Dom.green

/-- 04 R93: the query registers of STG, by offset. -/
def stgQuery (off : Nat) : Bool :=
  off == 0x4 || off == 0xC || (decide (0x20 ≤ off) && decide (off < 0x34)) || off == 0x8C || off == 0x9C ||
  (decide (0x100 ≤ off) && decide (off < 0x110)) || off == 0x140

/-- 04 R93: whether the safety curtain blocks an initiator's access to a register. -/
def curtainBlocks (s : State) (who a : Nat) (write : Bool) : Bool :=
  let page := a / 4096
  let off := a % 4096
  !s.trusted who &&
  (if page = 0x30001 ∨ (0x30005 ≤ page ∧ page ≤ 0x30009) ∨ page = 0x3000B ∨ page = 0x3000C then true
   else if page = 0x30000 ∨ page = 0x30004 ∨ page = 0x3000A then write
   else if page = 0x3000D then write || !stgQuery off
   else if page = 0x30010 then off / 0x20 == 108 || off / 0x20 == 109
   else false)

/-- 01 R11: whether an access is served, ends in a bus error, or waits for its domain. -/
inductive Reach where
  | serve | err | wait
  deriving DecidableEq, Repr

/-- 00 R4, R5, 01 R11: what becomes of an access to a peripheral address, the curtain apart. -/
def busReach (s : State) (a : Nat) : Reach :=
  if a % 4 ≠ 0 ∨ pageRows (a / 4096) = none then .err
  else
    let d := pageDom (a / 4096)
    match s.dom d with
    | .on => .serve
    | .cg => .serve
    | .sr => .serve
    | .off => if d = Dom.dramsys then .err else .wait
    | _ => .wait

/-- 20 R495: the bits of `DBG.HALT` and `DBG.STEP` that the debug port reaches. -/
def dbgMask (s : State) : Nat := if s.bit DBG.STATUS 8 then 0x3F else 0x1F

/-- 20 R495: every core whose HALT bit is set halts at its bundle boundary outside a delay window, its watchdog restarted as at a hold (R492); a
halted core whose bit is clear goes on. -/
def dbgApply (s : State) : State :=
  (List.finRange 6).foldl (fun (s : State) (p : Fin 6) =>
    let c := s.core p
    let want := s.bit DBG.HALT p.val
    if want ∧ c.run = .running ∧ c.xfer.isNone ∧ c.stall.isNone then
      (wdRestart (s.upCore p (fun c => { c with run := .debug })) p.val).setBit DBG.STATUS p.val true
    else if ¬ want ∧ c.run = .debug then (s.upCore p (fun c => { c with run := .running })).setBit DBG.STATUS p.val false
    else s) s

/-! ### Reads -/

/-- A read of DBG (20 R495). -/
def readDbg (s : State) (who a : Nat) : Word × State :=
  if who ≠ 0x10 then (0, s) else (s.rd a &&& (if a = DBG.HALT then BitVec.ofNat 32 (dbgMask s) else 0xFFFFFFFF), s)

/-- A read of STG (05 R136, 04 R93). -/
def readStg (s : State) (who a : Nat) : Word × State :=
  let off := a % 4096
  if 0x20 ≤ off ∧ off < 0x34 then (BitVec.ofNat 32 (min 0xFFFF (tierFree s ((off - 0x20) / 4))), s)
  else if off = 0x8C ∨ off = 0x9C then
    (s.rd a, if s.trusted who then migStatRead s (Fin.ofNat 2 ((off - 0x8C) / 0x10)) else s)
  else if 0x100 ≤ off ∧ off < 0x110 then
    (s.rd a, if s.trusted who ∨ who = (off - 0x100) / 4 + 2 then s.setBit a 0 false else s)
  else if off = 0x140 then (((s.stg.whereWords.find? (fun x => x.1 == who % 256)).map (fun x => x.2)).getD 0, s)
  else (s.rd a, s)

/-- The words that are formed when they are read, and the reads with an effect of their own; every other read is by access code. -/
def readHook (s : State) (who a : Nat) : Option (Word × State) :=
  let page := a / 4096
  let off := a % 4096
  if page = 0x30040 then some (readDbg s who a)
  else if page = 0x3000D then some (readStg s who a)
  else if page = 0x30010 ∧ off % 0x20 = 0x1C then some (qPop s (off / 0x20) who)
  else if page = 0x30014 ∧ off < 0x100 then some (chanCfgRead s (off / 4), s)
  else if 0x30018 ≤ page ∧ page < 0x30020 ∧ off = 4 then
    let t := tmStatus s (Fin.ofNat 8 (page - 0x30018))
    some (t.rd a, t)
  else if 0x30020 ≤ page ∧ page < 0x30025 ∧ off = 0x18 then some (twbRxRead s (Fin.ofNat 5 (page - 0x30020)))
  else if 0x30025 ≤ page ∧ page < 0x30027 ∧ off = 0xC then some (cspRxRead s (Fin.ofNat 2 (page - 0x30025)))
  else if page = 0x30032 ∧ off % 0x40 = 0x20 then
    let t := tsloLatch s (off / 0x40)
    some (t.rd a, t)
  else if a = SYS.LSTEP then some (s.setFld a 31 24 (s.pair.inlog.length / 2) |> fun t => (t.rd a, t))
  else if a = PWR.STATUS then some (showWaiting (s.setBit PWR.STATUS 13 (rcRuns s)) |> fun t => (t.rd a, t))
  else if a = CLK.STATUS then some (withBits (s.rd a) 0 0 (natBit (!s.bit RTC.STATUS 1)), s)
  else if a = RTC.SUBSEC then some (rtcLatch s |> fun t => (t.rd a, t))
  else if 0x30005020 ≤ a ∧ a < 0x30005040 then some (0, s)
  else if a = KEY.OTPDATA then some (otpDataRead s, s)
  else if a = RNG.DATA then some (rngRead s)
  else if a = DMC.POISONQ then some (poisonPop s)
  else if a = HUB.STATUS then some (hubStatus s |> fun t => (t.rd a, t))
  else if a = HWN.STATUS then some (hwnStatusRead s, s)
  else if a = GPIO.IN 0 ∨ a = PIN.LEVEL0 then some (portLevels s 0, padsSampled s)
  else if a = GPIO.IN 1 ∨ a = PIN.LEVEL1 then some (portLevels s 1, padsSampled s)
  else if a = RFE.TUNESTAT then some (s.rd a, tuneStatRead s)
  else if page = 0x30037 ∧ 0x420 ≤ off ∧ off < 0x4A0 ∧ off % 0x10 = 8 ∧ s.bit a 12 = true then some (withBits (s.rd a) 11 8 0, s)
  else if a = LNK.NTLO then some (ntLatch s |> fun t => (t.rd a, t))
  else none

/-- A served read: an RC register clears (00 R7); an offset no register occupies reads 0 (00 R5). -/
def regRead (s : State) (who a : Nat) : Word × State :=
  match readHook s who a with
  | some r => r
  | none =>
    match regRow a with
    | some r => (s.rd a, if r.rc then s.wr a 0 else s)
    | none => (0, s)

/-! ### Writes -/

/-- A write of SYS by a trusted initiator. -/
def writeSys (s : State) (who a : Nat) (v : Word) : State :=
  if a = SYS.PHASE then phaseWrite s who v
  else if a = SYS.BOOTSEL then bootselWrite s v
  else if a = SYS.HEALTH then healthWrite s v
  else if a = SYS.SWRST then swrstWrite s v
  else if a = SYS.PLAYHOLD then playholdWrite s v
  else s.plainWrite a v true

/-- A write of PWR: bits 10 to 12 of WAKEEN and WAKETO read 1 (18 R459). -/
def writePwr (s : State) (a : Nat) (v : Word) : State :=
  if a = PWR.REQ then pwrReqWrite s v
  else if a = PWR.WAKEEN ∨ a = PWR.WAKETO then s.wr a ((v &&& 0x1FFF) ||| 0x1C00)
  else s.plainWrite a v true

/-- A write of the RTC (18 R452, R455, R456). -/
def writeRtc (s : State) (a : Nat) (v : Word) (t : Bool) : State :=
  match rtcGroup a with
  | some g => if t then rtcStage s a g v else s
  | none =>
    if a = RTC.CMD then rtcCmd s v
    else if a = RTC.STATUS then rtcStatusWrite s v
    else if 0x30003100 ≤ a ∧ a < 0x30003180 then (if t ∨ a < 0x30003140 then s.wr a v else s)
    else s.plainWrite a v t

/-- A write of FLT by a trusted initiator. -/
def writeFlt (s : State) (a : Nat) (v : Word) : State :=
  if a = FLT.CURTCNT then curtClear s v
  else if a = FLT.WDKICK then wdKick s v
  else if a = FLT.INJCTRL then injWrite s v
  else if 0x30004040 ≤ a ∧ a < 0x30004070 ∧ a % 8 = 0 then wdCfgWrite s ((a - 0x30004040) / 8) v
  else s.plainWrite a v true

/-- A write of KEY by a trusted initiator; `KEY.WDATAi` is held for the command that takes it (17 R430). -/
def writeKey (s : State) (a : Nat) (v : Word) : State :=
  if a = KEY.CMD then keyCmdWrite s v
  else if 0x30005020 ≤ a ∧ a < 0x30005040 then s.wr a v
  else if a = KEY.ALARM then alarmWrite s v
  else if a = KEY.OTPCMD then otpCmdWrite s v
  else s.plainWrite a v true

/-- A write of PKA, HSH or RNG by a trusted initiator. -/
def writeUnits (s : State) (a : Nat) (v : Word) : State :=
  if a = PKA.CMD then pkaCmdWrite s v
  else if a = HSH.CTRL then hshCtrlWrite s v
  else if a = HSH.GO then hshGo s v
  else if a = HSH.DATA then hshPush s v
  else if a = RNG.CTRL then rngCtrlWrite s v
  else s.plainWrite a v true

/-- A write of DMC by a trusted initiator. -/
def writeDmc (s : State) (a : Nat) (v : Word) : State :=
  if a = DMC.CTRL then dmcCtrlWrite s v
  else if a = DMC.ADDRMAP then dmcMapWrite s v
  else if a = DMC.FREEZE then dmcRelease s (bitsOf v 5 4)
  else if a = DMC.DIAGCTRL then dmcDiag s v
  else s.plainWrite a v true

/-- 05 R125: FROZEN is cleared after the release: NORMAL T3 pages whose frame lost its contents or holds a poisoned word get L. -/
def frozenClear (s : State) : State :=
  let bad := s.dram.lost ++ s.dram.badChk.filterMap (fun e => if e.2 = 0xFF then some (frameOfDram e.1) else none)
  let s := s.setBit STG.STATUS 9 false
  let s := (s.stg.regions.flatMap regionPages).foldl (fun (s : State) p =>
    let e := s.pte p
    if pteBit e 0 ∧ ¬ pteBit e 3 ∧ pteFld e 14 12 = 3 ∧ bad.contains (pteFld e 29 15) = true then setPte s p (pteWith e 5 5 1) else s) s
  (s.upDram (fun d => { d with lost := [] })).upStg (fun g => { g with policyDue := true })

/-- A write of STG by a trusted initiator: XLATE is cleared in STARTUP only, DISPATCH rising runs the dispatcher (05 R114, R127). -/
def writeStg (s : State) (a : Nat) (v : Word) : State :=
  let off := a % 4096
  if a = STG.CTRL then
    let on := testB v.toNat 0 || (s.bit STG.CTRL 0 && s.phase != 0)
    let rises := testB v.toNat 1 && !s.bit STG.CTRL 1
    let s := (s.setBit STG.CTRL 0 on).setBit STG.CTRL 1 (testB v.toNat 1)
    if rises then dispatchRun s else s
  else if a = STG.STATUS then
    let frozen := testB v.toNat 9 && s.bit STG.STATUS 9 && !s.bit DMC.FREEZE 0
    let s := s.plainWrite a (v &&& ~~~ (0x200 : Word)) true
    if frozen then frozenClear s else s
  else if off = 0x88 ∨ off = 0x98 then (if testB v.toNat 0 then migGo s (Fin.ofNat 2 ((off - 0x88) / 0x10)) else s)
  else if 0x200 ≤ off ∧ off < 0x280 ∧ off % 8 = 4 then (s.setFld a 3 0 (bitsOf v 3 0)).setFld a 31 16 0
  else s.plainWrite a v true

/-- 05 R135: a queue that is not enabled any more completes the `deq` of every core that stalls on it. -/
def queueOff (s : State) (q : Nat) : State :=
  if qOn s q then s else
  { s with cores := s.cores.map (fun c =>
      match c.stall with
      | some st => if st.cause = .deq q then { c with got := c.got ++ [.done] } else c
      | none => c) }

/-- A write of a queue's registers (05 R131 to R135). -/
def writeQue (s : State) (who a : Nat) (v : Word) : State :=
  let t := s.trusted who
  let q := a % 4096 / 0x20
  match a % 0x20 with
  | 0x00 => qBaseWrite s q a v t
  | 0x04 => if t then queueOff (qCfgWrite s q v) q else s
  | 0x08 => if qOn s q then s else s.plainWrite a v t
  | 0x14 => if testB v.toNat 23 ∧ qMayClear s q who = true then s.setFld a 31 24 0 else s
  | 0x18 => qPush s q who v
  | _ => s

/-- A write of CUE (14 R354, R355, R360); true for a blocked access. -/
def writeCue (s : State) (who a : Nat) (v : Word) : Bool × State :=
  let off := a % 4096
  if off < 0x100 then chanCfgWrite s who (off / 4) v
  else if off < 0x200 then (false, chanStatWrite s who ((off - 0x100) / 4) v)
  else if off = 0x200 ∨ off = 0x204 then (false, swsetWrite s who (off == 0x204) v)
  else if off = 0x220 ∨ off = 0x224 then (false, ovrWrite s who (off == 0x224) v)
  else if 0x300 ≤ off ∧ off < 0x448 then (false, consWrite s who ((off - 0x300) / 8) (off % 8 == 4) v)
  else if 0x500 ≤ off ∧ off < 0x560 then (false, irqSelWrite s who ((off - 0x500) / 0x10) (off % 0x10 / 4) v)
  else if 0x580 ≤ off ∧ off < 0x598 then (false, irqClear s who ((off - 0x580) / 4) a v)
  else if 0x5A0 ≤ off ∧ off < 0x5B8 then (false, irqClear s who ((off - 0x5A0) / 4) a v)
  else if 0x600 ≤ off ∧ off < 0x700 then
    (let k := Fin.ofNat 16 ((off - 0x600) / 0x10)
     if off % 0x10 = 8 then (false, if s.trusted who then cellOwnWrite s k v else s)
     else cellWrite s who k (off % 0x10 / 4) v)
  else (false, s)

/-- A write of HUB (13 R344). -/
def writeHub (s : State) (a : Nat) (v : Word) (t : Bool) : State :=
  let off := a % 4096
  if a = HUB.CTRL then hubCtrlWrite s v
  else if a = HUB.SPWR then spwrWrite s v
  else if a = HUB.SWTRIG then hubSwtrig s v
  else if 0x80 ≤ off ∧ off < 0x280 ∧ off % 0x10 = 0 then shCfgWrite s (Fin.ofNat 32 ((off - 0x80) / 0x10)) v
  else if 0x400 ≤ off ∧ off < 0x600 ∧ off % 0x20 = 0 then fltCfgWrite s (Fin.ofNat 16 ((off - 0x400) / 0x20)) v
  else if 0x600 ≤ off ∧ off < 0x700 ∧ off % 0x10 = 0 then cmpCfgWrite s (Fin.ofNat 16 ((off - 0x600) / 0x10)) v
  else s.plainWrite a v t

/-- A write of a motion timer (15 R378). -/
def writeTm (s : State) (a : Nat) (v : Word) (t : Bool) : State :=
  let x := Fin.ofNat 8 (a / 4096 - 0x30018)
  let off := a % 4096
  let n := Fin.ofNat 4 ((off - 0x40) / 0x10)
  if (regRow a).isNone then s
  else if off = 0 then tmCtrlWrite s x v t
  else if off = 8 then tmCntWrite s x v t
  else if off = 0xC then tmPerWrite s x v t
  else if 0x40 ≤ off ∧ off < 0x80 ∧ off % 0x10 = 0 then tmChWrite s x n v t
  else if 0x40 ≤ off ∧ off < 0x80 ∧ off % 0x10 = 4 then tmCcWrite s x n v t
  else s.plainWrite a v t

/-- A write of a two-wire bus (16 R401). -/
def writeTwb (s : State) (a : Nat) (v : Word) (t : Bool) : State :=
  let k := Fin.ofNat 5 (a / 4096 - 0x30020)
  match a % 4096 with
  | 0x00 => twbCtrlWrite s k v t
  | 0x10 => twbCmd s k v
  | 0x14 => twbTxWrite s k v
  | 0x24 => twbRecover s k v
  | 0x28 => twbAttn s k v t
  | _ => s.plainWrite a v t

/-- A write of a clocked serial port (16 R402). -/
def writeCsp (s : State) (a : Nat) (v : Word) (t : Bool) : State :=
  let k := Fin.ofNat 2 (a / 4096 - 0x30025)
  match a % 4096 with
  | 0x00 => cspCtrlWrite s k v t
  | 0x08 => cspTxWrite s k v
  | _ => s.plainWrite a v t

/-- A write of SVC (19 R479). -/
def writeSvc (s : State) (a : Nat) (v : Word) (t : Bool) : State :=
  if a = SVC.RXFREE then svcRxfree s v
  else if a = SVC.RXCFG then svcStat (s.plainWrite a v t)
  else s.plainWrite a v t

/-- A write of PIN or GPIO (21 R500, R502). -/
def writePins (s : State) (a : Nat) (v : Word) (t : Bool) : State :=
  let off := a % 4096
  if a = GPIO.OUTSET 0 ∨ a = GPIO.OUTSET 1 then gpioSet s (off / 4 % 2) v true
  else if a = GPIO.OUTCLR 0 ∨ a = GPIO.OUTCLR 1 then gpioSet s (off / 4 % 2) v false
  else if a / 4096 = 0x3002A ∧ off < 0xC0 then pinCfgWrite s (off / 4) v t
  else s.plainWrite a v t

/-- A write of RFE, RXC, the channel array, TXC or CAL (08 R210, R213, 10 R263 to R266). -/
def writeRadio (s : State) (a : Nat) (v : Word) (t : Bool) : State :=
  let off := a % 4096
  if a = RFE.CTRL then rfeCtrlWrite s v
  else if a = RFE.TUNE then rfeTuneWrite s v
  else if a = RXC.CTRL then rxcCtrlWrite s v
  else if a = TXC.CTRL then txcCtrlWrite s v
  else if a = CAL.XTAL then calXtalWrite s v
  else if a / 4096 = 0x30032 ∧ off % 0x40 = 0 then chCfgWrite s (off / 0x40) v
  else if a / 4096 = 0x30032 ∧ off % 0x40 = 0x10 then setCca (s.plainWrite a v t) (off / 0x40)
  else s.plainWrite a v t

/-- A write of LNK (11 R293, R294, 12 R299, R313). -/
def writeLnk (s : State) (a : Nat) (v : Word) (t : Bool) : State :=
  if a = LNK.CTRL then lnkCtrlWrite s v
  else if a = LNK.POOLBASE then poolWrite s true v
  else if a = LNK.POOLCFG then poolWrite s false v
  else if a = LNK.BCNCFG then bcnCfgWrite s v
  else if a = LNK.PARENT0 then parentWrite s false v
  else if a = LNK.PARENT1 then parentWrite s true v
  else if a = LNK.NTADJ then ntAdjust s (sint 32 v.toNat) false
  else if a = LNK.NTSETHI then
    { s.wr a v with ntime := { s.ntime with set := some (BitVec.ofNat 64 (v.toNat * 2 ^ 32 + (s.rd LNK.NTSETLO).toNat)) } }
  else s.plainWrite a v t

/-- A write of DBG (20 R495): HALT acts at the boundaries, STEP is remembered for the core engine. -/
def writeDbg (s : State) (who a : Nat) (v : Word) : State :=
  let m := dbgMask s
  if who ≠ 0x10 then s
  else if a = DBG.HALT then dbgApply (s.wr a (BitVec.ofNat 32 ((v.toNat &&& m) ||| ((s.rd a).toNat &&& (0x3F - m)))))
  else if a = DBG.STEP then { s with flt := { s.flt with steps := v.toNat &&& m } }
  else s

/-- A served write; true when the block refuses the writer (14 R354). -/
def regWrite (s : State) (who a : Nat) (v : Word) : Bool × State :=
  let t := s.trusted who
  let page := a / 4096
  if page = 0x30014 then writeCue s who a v
  else (false,
    if page = 0x30000 then writeSys s who a v
    else if page = 0x30001 then writePwr s a v
    else if a = CLK.APPDIV then appdivWrite s v t
    else if page = 0x30003 then writeRtc s a v t
    else if page = 0x30004 then writeFlt s a v
    else if page = 0x30005 then writeKey s a v
    else if 0x30007 ≤ page ∧ page ≤ 0x30009 then writeUnits s a v
    else if page = 0x3000C then writeDmc s a v
    else if page = 0x3000D then writeStg s a v
    else if page = 0x30010 then writeQue s who a v
    else if page = 0x30015 then writeHub s a v t
    else if 0x30018 ≤ page ∧ page < 0x30020 then writeTm s a v t
    else if 0x30020 ≤ page ∧ page < 0x30025 then writeTwb s a v t
    else if page = 0x30025 ∨ page = 0x30026 then writeCsp s a v t
    else if a = HWN.CTRL then hwnCtrlWrite s v
    else if page = 0x30028 then writeSvc s a v t
    else if page = 0x30029 ∨ page = 0x3002A then writePins s a v t
    else if (0x30030 ≤ page ∧ page ≤ 0x30034) ∨ page = 0x30038 then writeRadio s a v t
    else if page = 0x30036 then writeLnk s a v t
    else if page = 0x30040 then writeDbg s who a v
    else s.plainWrite a v t)

/-! ### The bus -/

/-- How an access ends: with a word (0 for a write), with a bus error, or held until its domain is powered. -/
inductive Bus where
  | ok (w : Word)
  | err
  | held
  deriving DecidableEq, Repr

/-- Performs an access that the curtain and the domain let through. -/
def busServe (s : State) (who a : Nat) (d : Option Word) : Bus × State :=
  match d with
  | none => (.ok (regRead s who a).1, (regRead s who a).2)
  | some v =>
    match regWrite s who a v with
    | (false, s) => (.ok 0, s)
    | (true, s) => (.err, curtainViolation s who (BitVec.ofNat 32 a) true)

/-- Judges an access by 00 R5, 04 R93 and 01 R11; a held one is left to the caller. -/
def busTry (s : State) (who a : Nat) (d : Option Word) : Bus × State :=
  if busReach s a = .err then (.err, s)
  else if curtainBlocks s who a d.isSome then (.err, curtainViolation s who (BitVec.ofNat 32 a) d.isSome)
  else if busReach s a = .wait then (.held, s)
  else busServe s who a d

/-- 18 R443: an access that meets a power-state entry, finds its domain off, or comes from the debug port is a wake event. -/
def accessWake (s : State) (who d : Nat) : State :=
  if pwrPhase s = 2 ∨ s.dom d = .off ∨ (who = 0x10 ∧ 2 ≤ pwrState s) then wakeEvent s 11 else s

/-- A register access of an initiator (`d` is the data of a write): one that must wait is held until its domain powers up. -/
def busAccess (s : State) (who a : Nat) (d : Option Word) : Bus × State :=
  match busTry s who a d with
  | (.held, s) =>
    (.held, accessWake { s with heldAcc := s.heldAcc ++ [{ dom := pageDom (a / 4096), who := who, addr := a, data := d }] } who (pageDom (a / 4096)))
  | r => r

/-- What an access leaves: a read that is served leaves its word in `rdata`. -/
def State.access (s : State) (who a : Nat) (d : Option Word) : State :=
  match busAccess s who a d with
  | (.ok w, t) => if d.isNone then { t with rdata := w } else t
  | (_, t) => t

/-- 01 R10: what the managers may rest in RUN and DOZE, where the table gives a choice (log 94): an application player without a task or
code of its own, a bank, retained while pages lie in it, and DRAMSYS, in self-refresh while pages lie in it. -/
def restDown (s : State) (d : Nat) : State :=
  let pages := s.stg.regions.flatMap regionPages
  let bank := pages.any (fun p => pageIn s p (fun t f => t == 1 && 9 + f / 32 == d))
  if 1 < pwrState s ∨ pwrPhase s ≠ 0 then s
  else if h : 5 ≤ d ∧ d < 9 then
    let p : Fin 4 := ⟨d - 5, by omega⟩
    if (s.dom d).ready ∧ coreQuiet s ⟨p.val, by omega⟩ ∧ s.stg.task[p] = 0 ∧ ¬ pages.any (fun a => pageIn s a (fun t f => t == 0 && f / 32 == p.val)) then
      bankStat (vcoreUpdate (playerOff s p)) else s
  else if 9 ≤ d ∧ d < 25 ∧ s.dom d ≠ .off then
    bankStat (if bank then s.setDom d .ret else dropDom s d (0x20000000 + 0x20000 * (d - 9)) 0x20000 .off)
  else if d = Dom.dramsys ∧ s.dom d = .on ∧ dramIdle s then (if framesInT3 s = [] then dramsysOff s else if pwrState s = 1 then selfRefreshEnter s else s)
  else s

/-- DOMAIN_POWER_UP (01 R11): the domain is powered and the accesses it held are served in their order; a bank or the DRAM that rests by choice
is powered again. -/
def execDomainPowerUp (d : Fin 28) (s : State) : Out :=
  let c := s.dom d.val
  if c = .od ∨ c = .ret ∨ (c.ready = true ∧ s.heldAcc.any (fun h => h.dom == d.val) = true) then
    let mine := s.heldAcc.filter (fun h => h.dom == d.val)
    let s := (if c.ready then s else s.setDom d.val .on)
    let s := { s with heldAcc := s.heldAcc.filter (fun h => h.dom != d.val) }
    .next (mine.foldl (fun (s : State) h => s.access h.who h.addr h.data) (bankStat s))
  else if 1 < pwrState s ∨ pwrPhase s ≠ 0 then .next s
  else if 9 ≤ d.val ∧ d.val < 25 ∧ c = .off then .next (bankStat (s.setDom d.val .on))
  else if d.val = Dom.dramsys ∧ c = .off then .next (dramPowerUp s)
  else if d.val = Dom.dramsys ∧ c = .sr then .next (selfRefreshExit s)
  else .next s

/-- DOMAIN_POWER_DOWN (01 R10, 18 R442): an on-demand domain that is on powers down; the registers of its blocks are kept, FIFO
contents and transfers in progress are not. -/
def execDomainPowerDown (d : Fin 28) (s : State) : Out :=
  let idle := ¬ receiverWanted s ∧ s.txc.job = none
  let od := (d.val = Dom.radio ∧ idle) ∨ (2 ≤ pwrState s ∧ d.val = Dom.link ∧ lnkQuiet s = true ∧ idle) ∨ (1 ≤ pwrState s ∧ d.val = Dom.periph) ∨
    (1 ≤ pwrState s ∧ d.val = Dom.nvm ∧ flcState s = 0 ∧ s.nvm.mbuf = [])
  if s.dom d.val = .on ∧ od then
    .next (if d.val = Dom.nvm then nvmDown s .od else ((if d.val = Dom.periph then serialDown s else s).setDom d.val .od))
  else .next (restDown s d.val)

end Sys2Proof.Machine
end

