-- ==== Sys2Proof/Machine/Syllable.lean ====
section
/-! DEFINITION. Emord syllables: their fields, the sources and destinations of each configuration, and the checks of a bundle
(02 R33 to R50, 03 R84). -/
namespace Sys2Proof.Machine

/-! ### Units and slots -/

/-- 02 R39: the function units. -/
inductive FU where
  | alu0 | alu1 | mul | lsu | shf | simd | qu | cu
  deriving DecidableEq, Repr

/-- 02 R38: the unit of a slot. -/
def slotUnit (k : CoreKind) (slot : Nat) : Option FU :=
  match k, slot with
  | _, 0 => some .alu0
  | .large, 1 => some .alu1 | .large, 2 => some .mul | .large, 3 => some .lsu | .large, 4 => some .shf
  | .large, 5 => some .simd | .large, 6 => some .qu | .large, 7 => some .cu
  | .medium, 1 => some .mul | .medium, 2 => some .lsu | .medium, 3 => some .shf | .medium, 4 => some .qu
  | .medium, 5 => some .cu
  | .small, 1 => some .lsu | .small, 2 => some .cu
  | _, _ => none

/-- 02 R38: the highest slot, that of the CU. -/
def topSlot : CoreKind → Nat
  | .large => 7
  | .medium => 5
  | .small => 2

/-- The slot of a unit in a configuration; one above the slots where it has none. -/
def unitSlot (k : CoreKind) (u : FU) : Nat := ((List.range 8).find? (fun i => slotUnit k i == some u)).getD 8

/-- 03 R55: the ALU opcodes. -/
def aluCode : AluOp → Nat
  | .add => 0x00 | .sub => 0x01 | .and => 0x02 | .or => 0x03 | .xor => 0x04
  | .eq => 0x08 | .lt => 0x09 | .ltu => 0x0A | .ne => 0x0B | .ge => 0x0C | .geu => 0x0D
  | .min => 0x10 | .max => 0x11 | .minu => 0x12 | .maxu => 0x13
  | .sxb => 0x18 | .sxh => 0x19 | .zxb => 0x1A | .zxh => 0x1B | .mul => 0x20 | .mulh => 0x21

/-- 03 R57: the MUL opcodes. -/
def mulCode : MulOp → Nat
  | .mul => 0x00 | .mulh => 0x01 | .mulhu => 0x02 | .mac => 0x04 | .macu => 0x05 | .accw => 0x08
  | .div => 0x10 | .divu => 0x11 | .rem => 0x12 | .remu => 0x13

/-- 03 R61: the SHF opcodes. -/
def shfCode : ShfOp → Nat
  | .sll => 0x00 | .srl => 0x01 | .sra => 0x02 | .ror => 0x03 | .ext => 0x08 | .exts => 0x09 | .ins => 0x0A | .fsr => 0x0B
  | .clz => 0x10 | .pop => 0x11 | .rev => 0x12 | .bswap => 0x13

/-- 03 R62: the SIMD opcodes. -/
def simdCode : SimdOp → Nat
  | .addB => 0x00 | .subB => 0x01 | .addsB => 0x02 | .addusB => 0x03 | .avguB => 0x04 | .absdB => 0x05 | .sadB => 0x06
  | .cmpeqB => 0x07 | .shufB => 0x08 | .addH => 0x10 | .subH => 0x11 | .addsH => 0x12 | .subsH => 0x13 | .mulH => 0x14
  | .dotH => 0x15 | .maxH => 0x16 | .minH => 0x17

/-- 03 R63: the LSU opcodes. -/
def lsuCode : LsuOp → Nat
  | .ldW => 0x00 | .ldH => 0x01 | .ldHu => 0x02 | .ldB => 0x03 | .ldBu => 0x04 | .lrW => 0x05
  | .stW => 0x08 | .stH => 0x09 | .stB => 0x0A | .scW => 0x0B | .fence => 0x0C

/-- 03 R69: the QU opcodes. -/
def quCode : QuOp → Nat
  | .enq => 0x00 | .deq => 0x01 | .deqnb => 0x02 | .cnt => 0x03 | .sig => 0x08 | .wfe => 0x09

/-- 03 R72: the CU opcodes. -/
def cuCode : CuOp → Nat
  | .jmp => 0x00 | .br => 0x01 | .call => 0x02 | .callr => 0x03 | .ret => 0x04 | .loop => 0x08 | .trap => 0x10 | .eret => 0x11
  | .wfe => 0x19 | .limm => 0xFF

/-- 03: every operation of a configuration, with its unit and its opcode: the two multiplies of the ALU and the `wfe` of the CU
belong to the small configuration. -/
def unitOps (k : CoreKind) : List (FU × Nat × UnitOp) :=
  let small := k == .small
  let alus : List AluOp := [.add, .sub, .and, .or, .xor, .eq, .lt, .ltu, .ne, .ge, .geu, .min, .max, .minu, .maxu, .sxb, .sxh, .zxb, .zxh] ++
    (if small then [AluOp.mul, AluOp.mulh] else [])
  alus.map (fun o => (FU.alu0, aluCode o, UnitOp.alu 0 o)) ++
  alus.map (fun o => (FU.alu1, aluCode o, UnitOp.alu 1 o)) ++
  ([.mul, .mulh, .mulhu, .mac, .macu, .accw, .div, .divu, .rem, .remu] : List MulOp).map (fun o => (FU.mul, mulCode o, UnitOp.mul o)) ++
  ([.sll, .srl, .sra, .ror, .ext, .exts, .ins, .fsr, .clz, .pop, .rev, .bswap] : List ShfOp).map (fun o => (FU.shf, shfCode o, UnitOp.shf o)) ++
  ([.addB, .subB, .addsB, .addusB, .avguB, .absdB, .sadB, .cmpeqB, .shufB, .addH, .subH, .addsH, .subsH, .mulH, .dotH, .maxH, .minH]
    : List SimdOp).map (fun o => (FU.simd, simdCode o, UnitOp.simd o)) ++
  ([.ldW, .ldH, .ldHu, .ldB, .ldBu, .lrW, .stW, .stH, .stB, .scW, .fence] : List LsuOp).map (fun o => (FU.lsu, lsuCode o, UnitOp.lsu o)) ++
  ([.enq, .deq, .deqnb, .cnt, .sig, .wfe] : List QuOp).map (fun o => (FU.qu, quCode o, UnitOp.qu o)) ++
  (([.jmp, .br, .call, .callr, .ret, .loop, .trap, .eret, .limm] : List CuOp) ++ (if small then [CuOp.wfe] else [])).map
    (fun o => (FU.cu, cuCode o, UnitOp.cu o))

/-- The operation a trigger destination starts in a unit (02 R44, R45). -/
def unitOp (k : CoreKind) (u : FU) (code : Nat) : Option UnitOp :=
  ((unitOps k).find? (fun e => e.1 == u && e.2.1 == code)).map (fun e => e.2.2)

/-- The operand ports in the order of 03 R84: which CSR offset from 0x280 a unit's o and o2 have. -/
def oprIndex : FU → Nat
  | .alu0 => 0 | .alu1 => 1 | .mul => 2 | .lsu => 3 | .shf => 4 | .simd => 6 | .qu => 8 | .cu => 9

/-! ### Sources and CSRs -/

/-- Whether a configuration has a unit. -/
def hasUnit (k : CoreKind) (u : FU) : Bool := (List.range 8).any (fun i => slotUnit k i == some u)

/-- 03 R84: whether a CSR exists in a configuration. -/
def csrExists (k : CoreKind) (id : Nat) : Bool :=
  if 0x200 ≤ id ∧ id ≤ 0x213 then (id != 0x20B && id != 0x20C) || k != .small
  else if 0x280 ≤ id ∧ id ≤ 0x289 then
    hasUnit k (([.alu0, .alu1, .mul, .lsu, .shf, .shf, .simd, .simd, .qu, .cu] : List FU).getD (id - 0x280) .cu)
  else if 0x28A ≤ id ∧ id ≤ 0x290 then
    hasUnit k (([.alu0, .alu1, .shf, .simd, .qu, .cu, .cu] : List FU).getD (id - 0x28A) .cu)
  else if 0x2A0 ≤ id ∧ id ≤ 0x2A3 then hasUnit k .mul
  else decide (0x2A4 ≤ id) && decide (id ≤ 0x2A6)

/-- 03 R84: the read-only CSRs. -/
def csrReadOnly (id : Nat) : Bool :=
  id == 0x202 || id == 0x203 || id == 0x206 || id == 0x20A || id == 0x20C || (decide (0x210 ≤ id) && decide (id ≤ 0x213))

/-- 03 R84: the CSRs whose writes are marked P. -/
def csrPriv (id : Nat) : Bool :=
  id == 0x200 || id == 0x201 || id == 0x204 || id == 0x205 || (decide (0x207 ≤ id) && decide (id ≤ 0x209)) || decide (0x280 ≤ id)

/-- 02 R43: whether a source socket exists in a configuration. -/
def srcExists (k : CoreKind) (id : Nat) : Bool :=
  if id < 0x20 then true
  else if id < 0x40 then k != .small
  else if id < 0x44 then true
  else if 0x200 ≤ id ∧ id < 0x300 then csrExists k id
  else match id with
    | 0x100 => true
    | 0x101 => hasUnit k .alu1
    | 0x110 => hasUnit k .mul
    | 0x111 => hasUnit k .mul
    | 0x112 => hasUnit k .mul
    | 0x113 => hasUnit k .mul
    | 0x120 => true
    | 0x121 => true
    | 0x130 => hasUnit k .shf
    | 0x140 => hasUnit k .simd
    | 0x150 => hasUnit k .qu
    | 0x160 => true
    | 0x170 => true
    | _ => false

/-- The result port behind a result socket, as `Core.res` numbers them. -/
def resIndex (id : Nat) : Nat :=
  match id with
  | 0x100 => 0 | 0x101 => 1 | 0x130 => 2 | 0x140 => 3 | 0x150 => 4 | 0x160 => 5 | 0x170 => 6
  | 0x110 => 7 | 0x111 => 8 | 0x112 => 9 | 0x113 => 10 | 0x120 => 11 | _ => 12

/-! ### Destinations -/

/-- 02 R44: what a destination names. -/
inductive Dest where
  | regA (n : Nat)
  | regB (n : Nat)
  | guard (n : Nat)
  | csr (id : Nat)
  | opr (i : Nat)
  | trig (op : UnitOp)
  | null
  deriving DecidableEq, Repr

/-- 02 R44, R45, R50: a destination as a slot of a configuration names it, or the detail code 5 or 6. -/
def destOf (k : CoreKind) (slot dst : Nat) : Sum Nat Dest :=
  if dst < 0x20 then .inr (.regA dst)
  else if dst < 0x40 then (if k = .small then .inl 5 else .inr (.regB (dst - 0x20)))
  else if dst < 0x44 then .inr (.guard (dst - 0x40))
  else if 0x200 ≤ dst ∧ dst < 0x300 then
    (if !csrExists k dst || csrReadOnly dst then .inl 5 else if slot ≠ topSlot k then .inl 6 else .inr (.csr dst))
  else if dst = 0xFFF then .inr .null
  else match slotUnit k slot with
    | none => .inl 5
    | some u =>
      if dst = 0x800 then .inr (.opr (oprIndex u))
      else if dst = 0x801 then (if u = .shf ∨ u = .simd then .inr (.opr (oprIndex u + 1)) else .inl 5)
      else if 0x900 ≤ dst ∧ dst < 0xA00 then
        (match unitOp k u (dst - 0x900) with
         | some op => .inr (.trig op)
         | none => .inl 5)
      else .inl 5

/-! ### Syllables and bundles -/

/-- 02 R33: the stop bit of a syllable. -/
def sylStop (w : Word) : Bool := testB w.toNat 31
/-- 02 R33: SLOT. -/
def sylSlot (w : Word) : Nat := bitsOf w 30 28
/-- 02 R33: G. -/
def sylGuard (w : Word) : Nat := bitsOf w 27 25
/-- 02 R33: SRC. -/
def sylSrc (w : Word) : Nat := bitsOf w 24 12
/-- 02 R33: DST. -/
def sylDst (w : Word) : Nat := bitsOf w 11 0

/-- 02 R46: the source that a SRC field names. -/
def srcOf (src : Nat) : Src := if testB src 12 then .val (sextW 12 src) else .sock (src % 4096)

/-- The move of a syllable. -/
def moveOf (w : Word) : Move := { guard := sylGuard w, src := srcOf (sylSrc w), slot := sylSlot w, dst := sylDst w }

/-- 02 R43, R46: what the SRC field of a syllable spells: a socket id or an immediate. -/
inductive SylSrc where
  | socket (id : BitVec 12)
  | imm (v : BitVec 12)
  deriving DecidableEq, Repr

/-- 02 R33: the fields of a syllable but its stop bit. -/
structure Syl where
  slot : Fin 8
  guard : Fin 8
  src : SylSrc
  dst : BitVec 12
  deriving DecidableEq, Repr

/-- 02 R33: bits [24:12] of a syllable. -/
def srcBits : SylSrc → Nat
  | .socket id => id.toNat
  | .imm v => 0x1000 + v.toNat

/-- 02 R33: the word of a syllable. -/
def encodeSyl (stop : Bool) (x : Syl) : Word :=
  BitVec.ofNat 32 (0x80000000 * natBit stop + 0x10000000 * x.slot.val + 0x2000000 * x.guard.val + 0x1000 * srcBits x.src + x.dst.toNat)

/-- 02 R35: the words of the syllables of a bundle: the last has S = 1. -/
def encodeSyls : List Syl → List Word
  | [] => []
  | [x] => [encodeSyl true x]
  | x :: y :: rest => encodeSyl false x :: encodeSyls (y :: rest)

/-- The move that a syllable spells (02 R40, R43, R44, R46). -/
def sylMove (x : Syl) : Move :=
  { guard := x.guard.val
    src := match x.src with | .socket id => .sock id.toNat | .imm v => .val (v.signExtend 32)
    slot := x.slot.val
    dst := x.dst.toNat }

/-- 02 R35: whether the scan of a bundle ends at a syllable: at its stop bit, at the highest slot, or where the slot number does not
rise above that of the syllable before.  That it also ends at a slot the configuration does not have is the model's choice (log 106). -/
def sylEnds (k : CoreKind) (w : Word) (prev : Option Nat) : Bool :=
  sylStop w || decide (topSlot k ≤ sylSlot w) || (match prev with | some p => decide (sylSlot w ≤ p) | none => false)

/-- 02 R35: whether some slot number does not rise. -/
def orderBroken : List Nat → Bool
  | a :: b :: rest => decide (b ≤ a) || orderBroken (b :: rest)
  | _ => false

/-- The element repeated in a list, if one is. -/
def hasRepeat {α : Type} [BEq α] : List α → Bool
  | [] => false
  | x :: xs => xs.contains x || hasRepeat xs

/-- The list without repeats. -/
def distinct (l : List Nat) : List Nat := l.foldl addOnce []

/-- 02 R50: the detail codes that apply to the syllables of a bundle. -/
def illegalCodes (k : CoreKind) (ws : List Word) : List Nat :=
  let here := ws.filter (fun w => decide (sylSlot w ≤ topSlot k))
  let socks := here.filterMap (fun w => match srcOf (sylSrc w) with | .sock i => some i | .val _ => none)
  let dsts := here.map (fun w => destOf k (sylSlot w) (sylDst w))
  let ra := distinct (socks.filter (fun i => decide (i < 0x20)))
  let rb := distinct (socks.filter (fun i => decide (0x20 ≤ i) && decide (i < 0x40)))
  let dnum := (here.map sylDst).filter (fun d => decide (d < 0x44))
  let cnt := fun (lo hi : Nat) => (dnum.filter (fun d => decide (lo ≤ d) && decide (d < hi))).length
  (if orderBroken (ws.map sylSlot) then [1] else []) ++
  (if ws.any (fun w => decide (topSlot k < sylSlot w)) then [2] else []) ++
  (if ws.any (fun w => sylSlot w == topSlot k && !sylStop w) then [3] else []) ++
  (if socks.any (fun i => !srcExists k i) then [4] else []) ++
  (if dsts.contains (.inl 5) then [5] else []) ++
  (if dsts.contains (.inl 6) then [6] else []) ++
  (if 3 < ra.length ∨ 3 < rb.length ∨ 2 < cnt 0 0x20 ∨ 2 < cnt 0x20 0x40 then [7] else []) ++
  (if 2 < cnt 0x40 0x44 then [8] else []) ++
  (if hasRepeat dnum then [9] else []) ++
  (if here.any (fun w => sylSlot w == topSlot k && sylDst w == 0x9FF && sylSrc w != 0x1000) then [0xA] else [])

/-- 02 R50: the detail code of an illegal bundle, the lowest that applies. -/
def illegalCode (k : CoreKind) (ws : List Word) : Option Nat := (illegalCodes k ws).head?

/-- 02 R47: whether a bundle ends in a `cu.limm`, so that a literal word follows. -/
def endsInLimm (k : CoreKind) (ws : List Word) : Bool :=
  match ws.getLast? with
  | some w => sylSlot w == topSlot k && sylDst w == 0x9FF
  | none => false

/-- 02 R40: whether a guard selector holds for the guards. -/
def guardHolds (g : BitVec 4) (sel : Nat) : Bool :=
  match sel with
  | 1 => g.getLsbD 0 | 2 => !g.getLsbD 0
  | 3 => g.getLsbD 1 | 4 => !g.getLsbD 1
  | 5 => g.getLsbD 2 | 6 => !g.getLsbD 2
  | 7 => g.getLsbD 3
  | _ => true

end Sys2Proof.Machine
end

