-- ==== Sys2Proof/Machine/Csr.lean ====
section
/-! DEFINITION. The control and status registers of a core, results in flight, interrupt and exception entry and the return from them
(03 R52, R56, R75 to R86). -/
namespace Sys2Proof.Machine
open Sys2Proof.Reg

/-! ### Results in flight -/

/-- 03 R52: a result is written to its ports, or, for a division redirected by an entry, to the `mul.p0` of its frame (03 R76). -/
def landFlight (c : Core) (f : Flight) : Core :=
  let c := match f.frame with
    | some k => { c with frames := c.frames.set k { c.frames[k] with ports := f.writes.foldl (fun (v : Vector Word 6) (w : Nat × Word) => v.set 0 w.2) c.frames[k].ports } }
    | none => { c with res := f.writes.foldl (fun (v : Vector Word 13) (w : Nat × Word) => v.setIfInBounds w.1 w.2) c.res }
  { c with uflags := c.uflags ||| f.uflags, qstat := match f.qcode with | some q => BitVec.ofNat 32 q | none => c.qstat }

/-- 03 R52: the end of one cycle: the results whose latency has run out are written, in the order of their triggers (03 R56). -/
def tickCore (c : Core) : Core :=
  (c.fly.filter (fun f => decide (f.left ≤ 1))).foldl landFlight
    { c with fly := (c.fly.filter (fun f => decide (1 < f.left))).map (fun f => { f with left := f.left - 1 }), cycle := c.cycle + 1 }

/-- `n` cycle ends. -/
def tickCores : Nat → Core → Core
  | 0, c => c
  | n + 1, c => tickCores n (tickCore c)

/-- The longest time of the results in flight that have a property. -/
def flyLeft (c : Core) (p : Flight → Bool) : Nat := (c.fly.filter p).foldl (fun m f => max m f.left) 0

/-- 03 R53: `n` cycles pass, in which results are written. -/
def passCycles (n : Nat) (c : Core) : Core :=
  { tickCores (min n (flyLeft c (fun _ => true))) c with cycle := c.cycle + BitVec.ofNat 64 n }

/-- 03 R76 step 3: the fixed-latency operations in flight complete. -/
def drainFixed (c : Core) : Core := passCycles (flyLeft c (fun f => f.kind == .fixed)) c

/-- Whether a division is in flight (03 R59, `UFLAGS.DBUSY`). -/
def divBusy (c : Core) : Bool := c.fly.any (fun f => f.kind == .divide)

/-- UNIT_RESULT_WRITE (03 R52): the cycles pass until the next fixed-latency result of a core is written. -/
def execUnitResultWrite (p : Fin 6) (s : State) : Out :=
  match (s.core p).fly.filter (fun f => f.kind == .fixed) with
  | f :: fs => .next (s.upCore p (passCycles ((f :: fs).foldl (fun m g => min m g.left) f.left)))
  | [] => .next s

/-- ITERATIVE_MUL_DONE (03 R56): the iterative multiply of the small ALU0 writes its result. -/
def execIterativeMulDone (p : Fin 6) (s : State) : Out :=
  match (s.core p).fly.find? (fun f => f.kind == .iterative) with
  | some f => .next (s.upCore p (passCycles f.left))
  | none => .next s

/-- DIVIDE_DONE (03 R59): the division in flight writes its result and the divider is free. -/
def execDivideDone (p : Fin 6) (s : State) : Out :=
  match (s.core p).fly.find? (fun f => f.kind == .divide) with
  | some f => .next (s.upCore p (passCycles f.left))
  | none => .next s

/-! ### PSTAT and frames -/

abbrev PSTAT.ie : Nat := 0
abbrev PSTAT.priv : Nat := 1
abbrev PSTAT.exc : Nat := 2
abbrev PSTAT.lact : Nat := 3

/-- A bit of `PSTAT`. -/
def pstatBit (c : Core) (i : Nat) : Bool := testB c.pstat.toNat i

/-- Sets a bit of `PSTAT`. -/
def pstatSet (c : Core) (i : Nat) (v : Bool) : Core := { c with pstat := withBits c.pstat i i (natBit v) }

/-- 03 R85: the active levels, as bits. -/
def actLevels (c : Core) : Nat := bitsOf c.pstat 7 4

/-- The highest active level, one above it: 0 for none. -/
def actTop (c : Core) : Nat :=
  if testB (actLevels c) 3 then 4 else if testB (actLevels c) 2 then 3 else if testB (actLevels c) 1 then 2 else if testB (actLevels c) 0 then 1 else 0

/-- 03 R79: the current frame: that of the highest active level, or the exception frame, number 4. -/
def curFrame (c : Core) : Fin 5 :=
  if pstatBit c PSTAT.exc then 4
  else match actTop c with
    | 1 => 0 | 2 => 1 | 3 => 2 | 4 => 3 | _ => 4

/-- Changes the current frame. -/
def upCurFrame (c : Core) (f : Frame → Frame) : Core := { c with frames := c.frames.set (curFrame c) (f c.frames[curFrame c]) }

/-- 03 R76: what an entry saves of a core in a frame. -/
def saveFrame (c : Core) (f : Frame) (epc : Word) : Frame :=
  { f with
    epc := epc
    grd := c.g
    pstat := c.pstat
    ports := Vector.ofFn (fun i : Fin 6 => c.res[7 + i.val]) }

/-! ### Interrupt lines -/

/-- 14 R351: the pending lines of a core. -/
def ipend (s : State) (p : Fin 6) : Word :=
  let cue := s.fld (CUE.IRQPEND p.val) 15 0
  let own := if p.val < 4 then natBit (s.bit (STG.RUN p.val) 0)
    else if p.val = 4 then 0
    else
      natBit (s.bit FLT.EVT 0) * 2 ^ 24 + natBit (s.bit FLT.CURT0 31) * 2 ^ 25 + natBit (s.bit FLT.EVT 1) * 2 ^ 26 +
      natBit ((List.finRange 2).any (fun c => migState s c == 4 || migState s c == 5)) * 2 ^ 27 +
      natBit (s.bit SYS.LSTEP 16 || s.bit SYS.LSTEP 17) * 2 ^ 28 + natBit (s.bit DMC.FREEZE 0) * 2 ^ 29 +
      natBit (s.bit STG.STATUS 10) * 2 ^ 30 + natBit (s.bit SYS.HEALTH 9) * 2 ^ 31
  BitVec.ofNat 32 (own + 256 * cue)

/-- 03 R75, R84: the priority of a line. -/
def linePrio (c : Core) (n : Nat) : Nat :=
  if n < 16 then bitsOf c.iprio0 (2 * n + 1) (2 * n) else bitsOf c.iprio1 (2 * (n - 16) + 1) (2 * (n - 16))

/-- 03 R75: the lines of a core that may be taken. -/
def takeLines (s : State) (p : Fin 6) : List Nat :=
  let c := s.core p
  if pstatBit c PSTAT.ie && !pstatBit c PSTAT.exc then
    below 32 (fun n => testB (ipend s p &&& c.ien).toNat n && decide (actTop c ≤ linePrio c n))
  else []

/-- 03 R75: the line that is taken: of the highest priority, the lowest number among equals. -/
def selectLine (s : State) (p : Fin 6) : Option Nat :=
  (takeLines s p).foldl (fun (b : Option Nat) n =>
    match b with
    | some m => if linePrio (s.core p) m < linePrio (s.core p) n then some n else some m
    | none => some n) none

/-! ### Reading and writing CSRs -/

/-- 03 R84: the value a CSR reads as. -/
def csrRead (s : State) (p : Fin 6) (id : Nat) : Word :=
  let c := s.core p
  let f := c.frames[curFrame c]
  match id with
  | 0x200 => c.pstat
  | 0x201 => f.epc
  | 0x202 => f.ecause
  | 0x203 => f.eaddr
  | 0x204 => f.ebt
  | 0x205 => c.ivbase
  | 0x206 => ipend s p
  | 0x207 => c.ien
  | 0x208 => c.iprio0
  | 0x209 => c.iprio1
  | 0x20A => c.iline
  | 0x20B => (c.uflags &&& 7) ||| BitVec.ofNat 32 (256 * natBit (divBusy c))
  | 0x20C => c.qstat
  | 0x20D => c.lcount
  | 0x20E => c.lstart
  | 0x20F => c.lend
  | 0x210 => BitVec.ofNat 32 c.cycle.toNat
  | 0x211 => c.cycleh
  | 0x212 => BitVec.ofNat 32 (p.val + 16 * (match coreKind p with | .large => 0 | .medium => 1 | .small => 2))
  | 0x213 => match c.resv with | some g => BitVec.ofNat 32 (g + 1) | none => 0
  | 0x2A6 => f.grd.setWidth 32
  | _ =>
    if 0x280 ≤ id ∧ id ≤ 0x289 then c.opr.toList.getD (id - 0x280) 0
    else if 0x28A ≤ id ∧ id ≤ 0x290 then c.res.toList.getD (id - 0x28A) 0
    else if 0x2A0 ≤ id ∧ id ≤ 0x2A5 then f.ports.toList.getD (id - 0x2A0) 0
    else 0

/-- 03 R84 to R86: a write of a CSR by the core itself. -/
def csrWrite (c : Core) (id : Nat) (v : Word) : Core :=
  match id with
  | 0x200 => { c with pstat := (c.pstat &&& 0xF4) ||| (v &&& 0x0B) }
  | 0x201 => upCurFrame c (fun f => { f with epc := v })
  | 0x204 => upCurFrame c (fun f => { f with ebt := v })
  | 0x205 => { c with ivbase := v &&& 0xFFFFF000 }
  | 0x207 => { c with ien := v }
  | 0x208 => { c with iprio0 := v }
  | 0x209 => { c with iprio1 := v }
  | 0x20B => { c with uflags := c.uflags &&& ~~~ (v &&& 7) }
  | 0x20D => { c with lcount := v }
  | 0x20E => { c with lstart := v }
  | 0x20F => { c with lend := v }
  | 0x2A6 => upCurFrame c (fun f => { f with grd := v.setWidth 4 })
  | _ =>
    if 0x280 ≤ id ∧ id ≤ 0x289 then { c with opr := c.opr.setIfInBounds (id - 0x280) v }
    else if 0x28A ≤ id ∧ id ≤ 0x290 then { c with fly := c.fly ++ [{ left := 1, writes := [(id - 0x28A, v)] }] }
    else if 0x2A0 ≤ id ∧ id ≤ 0x2A5 then upCurFrame c (fun f => { f with ports := f.ports.setIfInBounds (id - 0x2A0) v })
    else c

/-! ### Entry and return -/

/-- 03 R82, R85: `ECAUSE` of an exception, with the transfer that waits. -/
def causeWord (code detail : Nat) (x : Option Xfer) : Word :=
  BitVec.ofNat 32 (code + 256 * detail + (match x with | some t => 65536 * t.left + 2 ^ 18 * natBit t.eret | none => 0))

/-- 03 R82: exception entry of a core whose `PSTAT.EXC` is 0. -/
def exceptionEntry (c : Core) (code detail : Nat) (eaddr epc : Word) : Core :=
  let c := drainFixed c
  let f : Frame := { saveFrame c c.frames[4] epc with
    ecause := causeWord code detail c.xfer
    eaddr := eaddr
    ebt := match c.xfer with | some t => (if t.eret then 0 else t.target) | none => 0 }
  { c with
    frames := c.frames.set 4 f
    pstat := (c.pstat &&& 0xF0) ||| 0x06
    fly := c.fly.map (fun x => if x.kind = .divide ∧ x.frame = none then { x with frame := some 4 } else x)
    resv := none
    pc := c.ivbase + 0x800
    xfer := none
    stall := none
    got := []
    flines := [] }

/-- 03 R80, R82, R83: a core raises an exception; while `PSTAT.EXC` is 1 it is a double fault. -/
def raiseException (s : State) (p : Fin 6) (code detail : Nat) (eaddr epc : Word) : State :=
  if pstatBit (s.core p) PSTAT.exc then doubleFault s p 0
  else s.upCore p (fun c => exceptionEntry c code detail eaddr epc)

/-- 03 R76: interrupt entry of a core for a line. -/
def interruptEntry (c : Core) (line : Nat) : Core :=
  let c := drainFixed c
  let k : Fin 5 := Fin.ofNat 5 (linePrio c line % 4)
  { c with
    frames := c.frames.set k (saveFrame c c.frames[k] c.pc)
    pstat := withBits ((c.pstat ||| 0x02) &&& 0xF7) (4 + k.val) (4 + k.val) 1
    fly := c.fly.map (fun x => if x.kind = .divide ∧ x.frame = none then { x with frame := some k } else x)
    resv := none
    iline := BitVec.ofNat 32 line
    pc := c.ivbase + BitVec.ofNat 32 (0x40 * line)
    stall := none
    got := []
    flines := [] }

/-- 03 R79: the return from the current frame. -/
def leaveFrame (c : Core) : Core :=
  let k := curFrame c
  let f := c.frames[k]
  let dly := bitsOf f.ecause 17 16
  { c with
    g := f.grd
    pstat := f.pstat
    res := Vector.ofFn (fun i : Fin 13 => if 7 ≤ i.val then f.ports.toList.getD (i.val - 7) 0 else c.res[i])
    pc := f.epc
    fly := c.fly.map (fun x => if x.frame = some k then { x with frame := none } else x)
    xfer := if dly = 0 then none else some { target := f.ebt, left := dly, eret := testB f.ecause.toNat 18 } }

end Sys2Proof.Machine
end

