-- ==== Sys2Proof/Machine/Lsu.lean ====
section
/-! DEFINITION. The memory side of a core: the fetch of bundles, loads and stores, the write buffer, reservations, and what the link pair
logs of them (02 R34 to R36, R50, 03 R54, R63 to R68, 04 R88 to R94). -/
namespace Sys2Proof.Machine
open Sys2Proof.Reg

/-! ### Places -/

/-- 03 R65, R511: whether a physical address lies in a core's own TCM, or, for the prompter, in prompter SRAM. -/
def ownMem (p : Fin 6) (ph : Nat) : Bool :=
  match targetOf ph with
  | .tcm n => n == p.val
  | .psram => p.val == 5
  | _ => false

/-- 03 R68: the memories that support reservations. -/
def reservable (ph : Nat) : Bool :=
  match targetOf ph with
  | .tcm _ => true
  | .sram _ => true
  | .psram => true
  | .dram => true
  | _ => false

/-- Where an access of a program goes: to a physical address, or how it fails at its trigger (03 R64). -/
inductive Place where
  | at (ph : Nat) (cp : Option Nat) (sec : Bool)
  | unmapped
  | bus
  | blocked (ph : Nat)
  deriving DecidableEq, Repr

/-- 03 R64, 05 R114: translates an address of a program, or judges a physical one.  A scene access that its ACL refuses is recorded here;
one that the curtain blocks is left to the caller. -/
def placeOf (s : State) (who va : Nat) (acc : Acc) : Place × State :=
  if isScene va then
    match translate s who acc va true with
    | (.ok ph cp sec, s) => (.at ph cp sec, s)
    | (.unmapped, s) => (.unmapped, s)
    | (.bus, s) => (.bus, s)
    | (.curtain, s) => (.bus, curtainViolation s who (BitVec.ofNat 32 va) (acc == .write))
  else if memCurtain s who va then (.blocked (resolve s who va), s)
  else (.at (resolve s who va) none false, s)

/-! ### What the read path of a memory finds -/

/-- The end of a read in its memory: good data, an uncorrectable error not yet handled, or an error response. -/
inductive ReadEnd where
  | good | bad | err
  deriving DecidableEq, Repr

/-- 06 R143, 07 R167, R179, 20 R482: the read of the place of a physical address, with what its error correction finds: `e` (and
`mirror` for a flash mirror) outside DRAM, the syndrome `syn` in DRAM. -/
def lineRead (s : State) (who ph : Nat) (fetch : Bool) (e mirror : Ecc) (syn : BitVec 8) : ReadEnd × State :=
  match targetOf ph with
  | .flash => let r := flashLine s who (ph - 0x08000000) fetch e mirror; (if r.1 then .good else .err, r.2)
  | .mram => let r := mramRead s who ph e; (if r.1 then .good else .bad, r.2)
  | .dram => let r := dramReadWord (dramOpenRow s ph) who ph 0 (.syndrome syn); (if r.1 then .good else .err, r.2)
  | .rom => (.good, s)
  | .periph => (.good, s)
  | .nothing => (.good, s)
  | _ =>
    match e with
    | .ok => (.good, s)
    | .ce => let m := memClass ph; (.good, correctable s m.1 who m.2.1 m.2.2.1 m.2.2.2 (BitVec.ofNat 32 (ph / 8 * 8)))
    | .ue => (.bad, s)

/-- A read of `n` bytes at the address `va` of a program, whose physical address is `ph`: a scene page with a second copy survives an
uncorrectable error (05 R124); none for an error response. -/
def pathRead (s : State) (who va ph : Nat) (cp : Option Nat) (n : Nat) (sec fetch : Bool) (e mirror : Ecc) (syn : BitVec 8) :
    Option (List Byte) × State :=
  let s := if isScene va then sceneTouch s ph else s
  if physErr s who ph false then (none, touch s ph)
  else
    match lineRead s who ph fetch e mirror syn with
    | (.err, s) => (none, s)
    | (.good, s) =>
      if isScene va then mappedRead s who va ph n sec
      else
        match physRead s who ph n with
        | (some bs, s) => (some bs, noteRead s who ph n)
        | r => r
    | (.bad, s) =>
      if isScene va then
        match cp with
        | some q => mappedRead (pageFault s who (memClass ph).1 va ph) who va q n sec
        | none => (none, pageFault s who (memClass ph).1 va ph)
      else (none, readFault s (memClass ph).1 who 0 0 (BitVec.ofNat 32 ph))

/-- A write at the address `va` of a program; true for an error response.  A partial write to DRAM reads its word first (06 R145). -/
def pathWrite (s : State) (who va ph : Nat) (cp : Option Nat) (bs : List Byte) (sec : Bool) (syn : BitVec 8) : Bool × State :=
  let s := if isScene va then sceneTouch s ph else s
  if physErr s who ph true then (true, touch s ph)
  else
    let r := if targetOf ph = .dram ∧ bs.length < 8 then dramReadWord (dramOpenRow s ph) who ph 1 (.syndrome syn) else (true, s)
    if r.1 = false then (true, r.2)
    else if isScene va then copyWrite r.2 who va ph cp bs sec
    else
      let w := physWrite r.2 who ph bs
      if w.1 then w else (false, noteWrite w.2 who ph bs.length)

/-! ### What the link pair logs -/

/-- 04 R90: whether a core is the link pair and takes its inputs from the log. -/
def replays (s : State) (p : Fin 6) : Bool := p.val == 4 && s.pair.replay && !s.pair.rin.isEmpty

/-- 04 R90: whether a core is the link pair in a replay that is not at its end: interrupts and imprecise errors enter as recorded. -/
def inReplay (s : State) (p : Fin 6) : Bool := p.val == 4 && s.pair.replay && (!s.pair.rin.isEmpty || decide (0 < s.pair.rout))

/-- 04 R89: an input of the link pair is recorded. -/
def logInput (s : State) (p : Fin 6) (e : InEntry) : State :=
  if p.val = 4 then s.upPair (fun l => { l with inlog := l.inlog ++ [e] }) else s

/-- 04 R90: the next logged value, taken during a replay. -/
def takeValue (s : State) : Nat × State :=
  match s.pair.rin with
  | .value v :: rest => (v, s.upPair (fun l => { l with rin := rest }))
  | _ => (0, s)

/-- 04 R89, R90: an output of a core: true when it is released; a replayed one of the pair is not. -/
def release (s : State) (p : Fin 6) : Bool × State :=
  if p.val = 4 then
    if s.pair.replay ∧ 0 < s.pair.rout then (false, s.upPair (fun l => { l with rout := l.rout - 1 }))
    else (true, s.upPair (fun l => { l with outs := l.outs + 1 }))
  else (true, s)

/-- 04 R89: the old contents of a D-TCM word that the link pair writes. -/
def logUndo (s : State) (p : Fin 6) (ph : Nat) : State :=
  if p.val = 4 ∧ 0x11410000 ≤ ph ∧ ph < 0x11420000 then
    s.upPair (fun l => { l with undo := l.undo ++ [(ph / 4 * 4, s.ldw (ph / 4 * 4))] })
  else s

/-! ### The write buffer -/

/-- 03 R65, R80: an error response for a buffered store of a core arrives. -/
def holdError (s : State) (p : Fin 6) (va : Nat) : State := s.upCore p (fun c => { c with held := c.held ++ [BitVec.ofNat 32 va] })

/-- 03 R65: the oldest entry of a core's write buffer is accepted by its target, or answered with an error. -/
def drainOne (s : State) (p : Fin 6) (syn : BitVec 8) : State :=
  match (s.core p).wbuf with
  | [] => s
  | e :: rest =>
    let s := s.upCore p (fun c => { c with wbuf := rest })
    if e.bad then holdError s p e.va
    else
      match pathWrite s (coreInit p) e.va e.addr e.cp (leBytes e.size e.data.toNat) e.sec syn with
      | (true, s) => holdError s p e.va
      | (false, s) => s

/-- 03 R66: every entry of a core's write buffer is performed. -/
def drainAll (s : State) (p : Fin 6) : State := (s.core p).wbuf.foldl (fun (s : State) _ => drainOne s p 0) s

/-- WRITE_BUFFER_DRAIN (03 R65): `syn` is the syndrome that the read of a partial DRAM write finds. -/
def execWriteBufferDrain (p : Fin 6) (syn : BitVec 8) (s : State) : Out := .next (drainOne s p syn)

/-- 03 R65: a load returns the data of the core's own earlier stores to the same bytes. -/
def forward (c : Core) (ph : Nat) (bs : List Byte) : List Byte :=
  c.wbuf.foldl (fun (l : List Byte) e =>
    if e.bad then l else
    (List.range e.size).foldl (fun (l : List Byte) i =>
      if ph ≤ e.addr + i then modAt l (e.addr + i - ph) (fun _ => BitVec.ofNat 8 (e.data.toNat / 256 ^ i)) else l) l) bs

/-! ### Fetching bundles -/

/-- How the fetch of a word ends: with the word, by a stall for its line, or with the exception of the given cause. -/
inductive Fetched where
  | word (w : Word)
  | stall (va line : Nat)
  | fault (code va : Nat)
  deriving DecidableEq, Repr

/-- 03 R54: whether a fetch from a physical address waits for its line: it lies in flash, MRAM or DRAM, and neither the core nor the
read path of 07 R167 holds it. -/
def lineWaits (s : State) (p : Fin 6) (ph : Nat) : Bool :=
  let far := match targetOf ph with
    | .flash => !lineHeld s ((ph - 0x08000000) / 32)
    | .mram => true
    | .dram => true
    | _ => false
  far && !(s.core p).flines.contains (ph / 32 * 32)

/-- The core holds a line until the bundle that needs it ends. -/
def holdLine (s : State) (p : Fin 6) (line : Nat) : State := s.upCore p (fun c => { c with flines := addOnce c.flines line })

/-- The fetch of a word from a physical address. -/
def fetchAt (s : State) (p : Fin 6) (va ph : Nat) (sec : Bool) : Fetched × State :=
  let who := coreInit p
  let s := if isScene va then sceneTouch s ph else s
  if targetOf ph = .periph then (.fault 2 va, s)
  else if physErr s who ph false then (.fault 2 va, touch s ph)
  else if lineWaits s p ph then (.stall va (ph / 32 * 32), s)
  else
    let s := if targetOf ph = .flash ∧ ¬ (s.core p).flines.contains (ph / 32 * 32) then
        holdLine (flashTouch s who ((ph - 0x08000000) / 32) true) p (ph / 32 * 32) else s
    match (if isScene va then mappedRead s who va ph 4 sec else physRead s who ph 4) with
    | (some bs, s) => (.word (leWord bs), s)
    | (none, s) => (.fault 2 va, s)

/-- The fetch of the word at an address. -/
def fetchWord (s : State) (p : Fin 6) (va : Nat) : Fetched × State :=
  match placeOf s (coreInit p) va .fetch with
  | (.at ph _ sec, s) => fetchAt s p va ph sec
  | (.unmapped, s) => (.fault 5 va, s)
  | (.bus, s) => (.fault 2 va, s)
  | (.blocked _, s) => (.fault 2 va, curtainViolation s (coreInit p) (BitVec.ofNat 32 va) false)

/-- 02 R35: the words of a bundle from an address, and how a fetch that stopped the scan ended. -/
def fetchSyls (p : Fin 6) : Nat → State → Nat → Option Nat → List Word × Option Fetched × State
  | 0, s, _, _ => ([], none, s)
  | n + 1, s, va, prev =>
    match fetchWord s p va with
    | (.word w, s) =>
      if sylEnds (coreKind p) w prev then ([w], none, s)
      else
        let r := fetchSyls p n s ((va + 4) % 2 ^ 32) (some (sylSlot w))
        (w :: r.1, r.2)
    | (f, s) => ([], some f, s)

/-- What decoding at an address gives. -/
inductive Decoded where
  | bundle (b : Bundle)
  | illegal (detail len : Nat)
  | stall (va line : Nat)
  | fault (code va : Nat)
  deriving DecidableEq, Repr

/-- The outcome of a fetch that did not bring a word. -/
def fetchedEnd : Fetched → Decoded
  | .stall va l => .stall va l
  | .fault c va => .fault c va
  | .word _ => .illegal 0 0

/-- 02 R35, R47, R50: the bundle at an address.  It is decoded completely, so a line still to come is awaited first; an illegal bundle does
not consume a literal, and is reported before the fetch fault of a later word (03 R81). -/
def decodeAt (s : State) (p : Fin 6) (pc : Word) : Decoded × State :=
  let r := fetchSyls p 8 s pc.toNat none
  let n := r.1.length
  match r.2.1, illegalCode (coreKind p) r.1 with
  | some (.stall va l), _ => (.stall va l, r.2.2)
  | _, some d => (.illegal d (4 * n), r.2.2)
  | some f, none => (fetchedEnd f, r.2.2)
  | none, none =>
    let moves := r.1.map moveOf
    if endsInLimm (coreKind p) r.1 then
      match fetchWord r.2.2 p ((pc.toNat + 4 * n) % 2 ^ 32) with
      | (.word w, s) => (.bundle { moves := moves, lit := some w, len := 4 * n + 4 }, s)
      | (f, s) => (fetchedEnd f, s)
    else (.bundle { moves := moves, len := 4 * n }, r.2.2)

/-! ### The LSU -/

/-- How an LSU operation ends at its trigger: with its result, in a stall, or with an exception. -/
inductive LsuRes where
  | done (fl : List Flight)
  | stall (c : StallCause)
  | fault (code : Nat)
  deriving DecidableEq, Repr

/-- The flight of a loaded number. -/
def loadFlight (op : LsuOp) (v : Nat) : Flight := { left := 2, writes := [(11, lsuExtend op v)] }
/-- The flight of the code of a `sc.w`. -/
def scFlight (code : Nat) : Flight := { left := 2, writes := [(12, BitVec.ofNat 32 code)] }

/-- 03 R80: the detail code of an access. -/
def lsuDetail (op : LsuOp) : Nat := if lsuWrites op then 2 else 1

/-- 05 R115: whether a write to a physical address waits for a page in its final copy. -/
def inFinal (s : State) (ph : Nat) : Bool :=
  (List.finRange 2).any (fun c => migState s c == 3 && decide (s.stg.mig[c].src ≤ ph) && decide (ph < s.stg.mig[c].src + 4096))

/-- 02 R30: a reservation set or cleared by a bundle holds from its end. -/
def leaveResv (s : State) (p : Fin 6) (r : Option Nat) : State := s.upCore p (fun c => { c with got := c.got ++ [.resv r] })

/-- 03 R67: `lr.w` sets the reservation, or clears it on a memory without reservations. -/
def reserve (s : State) (p : Fin 6) (op : LsuOp) (ph : Nat) : State :=
  if op = .lrW then leaveResv s p (if reservable ph then some (ph / 32 * 32) else none) else s

/-- 03 R68: the code of a `sc.w` at a physical address. -/
def scCode (c : Core) (ph : Nat) : Nat := if reservable ph then (if c.resv = some (ph / 32 * 32) then 0 else 1) else 2

/-- 03 R68: a `sc.w` performed at its target; none for an error response. -/
def performSc (s : State) (p : Fin 6) (va ph : Nat) (cp : Option Nat) (sec : Bool) (data : Word) (syn : BitVec 8) : Option Nat × State :=
  let code := scCode (s.core p) ph
  let s := leaveResv s p none
  if code = 0 then
    match pathWrite (logUndo s p ph) (coreInit p) va ph cp (leBytes 4 data.toNat) sec syn with
    | (true, s) => (none, s)
    | (false, s) => (some 0, s)
  else (some code, s)

/-- An access to the core's own memory, at once (03 R65, R511); a load meets what its error correction finds there (20 R482). -/
def ownAccess (s : State) (p : Fin 6) (op : LsuOp) (va ph : Nat) (cp : Option Nat) (sec : Bool) (data : Word) (e : Ecc := .ok) :
    LsuRes × State :=
  let who := coreInit p
  if op = .scW then
    match performSc s p va ph cp sec data 0 with
    | (some c, s) => (.done [scFlight c], s)
    | (none, s) => (.fault 2, s)
  else if lsuWrites op then
    match pathWrite (logUndo s p ph) who va ph cp (leBytes (lsuSize op) data.toNat) sec 0 with
    | (true, s) => (.fault 2, s)
    | (false, s) => (.done [], s)
  else
    match pathRead s who va ph cp (lsuSize op) sec false e .ok 0 with
    | (some bs, s) => (.done [loadFlight op (leNat bs)], reserve s p op ph)
    | (none, s) => (.fault 2, s)

/-- An access to any other memory at a placed address: a store enters the buffer, everything else stalls (03 R54, R65). -/
def farAccess (s : State) (p : Fin 6) (op : LsuOp) (va ph : Nat) (cp : Option Nat) (sec : Bool) (data : Word) : LsuRes × State :=
  if targetOf ph = .periph then
    if lsuSize op ≠ 4 ∨ busReach s ph = .err then (.fault 2, s)
    else if op = .scW then
      if curtainBlocks s (coreInit p) ph true then (.fault 2, curtainViolation s (coreInit p) (BitVec.ofNat 32 va) true)
      else (.stall (.access va ph none false), s)
    else (.stall (.access va ph none false), s)
  else if lsuWrites op && op != .scW then
    if 4 ≤ (s.core p).wbuf.length then (.stall .bufferFull, s)
    else
      match release s p with
      | (false, s) => (.done [], s)
      | (true, s) =>
        let e : WEntry := { addr := ph, size := lsuSize op, data := data, va := va, cp := cp, sec := sec }
        (.done [], s.upCore p (fun c => { c with wbuf := c.wbuf ++ [e] }))
  else (.stall (.access va ph cp sec), s)

/-- 04 R90: the error that the log records next, if this bundle met it: its cause. -/
def loggedError (s : State) : Option Nat :=
  match s.pair.rin with
  | .error n code :: _ => if n = s.pair.bundles then some code else none
  | _ => none

/-- 04 R90: an access of the link pair outside its TCM during a replay: its input comes from the log, its output is not released.  The
reservation goes as in the first execution (03 R67). -/
def replayAccess (s : State) (p : Fin 6) (op : LsuOp) (va : Nat) : LsuRes × State :=
  if (loggedError s).isSome then ((.fault ((loggedError s).getD 2)), s.upPair (fun l => { l with rin := l.rin.drop 1 }))
  else if lsuWrites op && op != .scW then (.done [], (release s p).2)
  else
    let r := takeValue s
    if op = .scW then (.done [scFlight r.1], leaveResv (release r.2 p).2 p none)
    else
      (.done [loadFlight op r.1], match placeOf r.2 (coreInit p) va .read with
        | (.at ph _ _, _) => reserve r.2 p op ph
        | _ => r.2)

/-- 04 R89: whether an address of the link pair is not that of its TCM. -/
def outsideTcm (p : Fin 6) (va : Nat) : Bool := p.val == 4 && !(decide (0x10000000 ≤ va) && decide (va < 0x10020000))

/-- 04 R89: the pair records that an access of its bundle outside its TCM was answered with an error. -/
def logError (s : State) (p : Fin 6) (va code : Nat) : State :=
  s.when (outsideTcm p va) (fun s => logInput s p (.error s.pair.bundles code))

/-- Whether an access of the link pair is replayed: its address is not that of its TCM and logged inputs or outputs are left. -/
def isReplayed (s : State) (p : Fin 6) (op : LsuOp) (va : Nat) : Bool :=
  outsideTcm p va && s.pair.replay &&
  ((loggedError s).isSome || if lsuWrites op && op != .scW then decide (0 < s.pair.rout)
   else match s.pair.rin with | .value _ :: _ => true | _ => false)

/-- 03 R63 to R68: an LSU operation other than `fence`, aligned, with address `va` and data `data`; `got` is what earlier stalls of its
bundle brought (of the access at the address that its stall began with: log 107), `e` what the error correction of the core's own memory
finds. -/
def lsuAccess (s : State) (p : Fin 6) (op : LsuOp) (va : Nat) (data : Word) (got : List Got) (e : Ecc := .ok) : LsuRes × State :=
  let ended := got.findSome? (fun g => match g with
    | .load v => some (LsuRes.done [loadFlight op v])
    | .sc c => some (LsuRes.done [scFlight c])
    | .stored => some (LsuRes.done [])
    | .err => some (LsuRes.fault 2)
    | _ => none)
  match ended with
  | some r => (r, s)
  | none =>
    if isReplayed s p op va then replayAccess s p op va
    else
      match placeOf s (coreInit p) va (if lsuWrites op then .write else .read) with
      | (.unmapped, s) => (.fault 5, s)
      | (.bus, s) => (.fault 2, s)
      | (.blocked ph, s) =>
        if lsuWrites op && op != .scW then
          if 4 ≤ (s.core p).wbuf.length then (.stall .bufferFull, s)
          else
            let b : WEntry := { addr := ph, size := lsuSize op, data := data, va := va, bad := true }
            (.done [], (curtainViolation s (coreInit p) (BitVec.ofNat 32 va) true).upCore p (fun c => { c with wbuf := c.wbuf ++ [b] }))
        else (.fault 2, curtainViolation s (coreInit p) (BitVec.ofNat 32 va) (lsuWrites op))
      | (.at ph cp sec, s) =>
        if lsuWrites op && inFinal s ph then (.stall (.remap (ph / 4096 * 4096)), s)
        else if ownMem p ph then ownAccess s p op va ph cp sec data e
        else farAccess s p op va ph cp sec data

/-- 03 R66: a `fence` waits until the core's write buffer and that of the MRAM (07 R179) have been performed. -/
def lsuFence (s : State) (p : Fin 6) : LsuRes :=
  if (s.core p).wbuf = [] ∧ s.nvm.mbuf = [] then .done [] else .stall .fence

/-! ### The end of an access -/

/-- A register access of a core (03 R65): none while its domain is not powered. -/
def coreBus (s : State) (p : Fin 6) (a : Nat) (d : Option Word) : Option Got × State :=
  match busTry s (coreInit p) a d with
  | (.ok w, s) => (some (if d.isSome then .stored else .load w.toNat), s)
  | (.err, s) => (some .err, s)
  | (.held, s) => (none, accessWake s (coreInit p) (pageDom (a / 4096)))

/-- 03 R54: the access for which a bundle stalls is performed with what the read path finds; none while it must wait. -/
def finishAccess (s : State) (p : Fin 6) (op : LsuOp) (va ph : Nat) (cp : Option Nat) (sec : Bool) (data : Word)
    (e mirror : Ecc) (syn : BitVec 8) : Option Got × State :=
  let who := coreInit p
  if targetOf ph = .periph then
    if (s.core p).wbuf ≠ [] then (none, s)
    else if op = .scW then (some (.sc 2), leaveResv s p none)
    else
      match coreBus s p ph (if lsuWrites op then some data else none) with
      | (some g, s) => (some g, if lsuWrites op then s else reserve s p op ph)
      | r => r
  else if op = .scW then
    match performSc (drainAll s p) p va ph cp sec data syn with
    | (some c, s) => (some (.sc c), s)
    | (none, s) => (some .err, s)
  else
    match pathRead s who va ph cp (lsuSize op) sec false e mirror syn with
    | (some bs, s) => (some (.load (leNat (forward (s.core p) ph bs))), reserve s p op ph)
    | (none, s) => (some .err, s)

end Sys2Proof.Machine
end

