-- ==== Sys2Proof/Machine/Lockstep.lean ====
section
/-! DEFINITION. The lockstep of the link pair: checkpoint, mismatch, rollback and replay (04 R88 to R91). -/
namespace Sys2Proof.Machine
open Sys2Proof.Reg

/-- Whether a core stands at a bundle boundary: it does not stall, or its `wfe` or `deq` bundle has done nothing yet. -/
def atBoundary (c : Core) : Bool :=
  match c.stall with
  | none => true
  | some st => c.got.isEmpty && (match st.cause with | .wfe => true | .deq _ => true | _ => false)

/-- 04 R89: a checkpoint: 64 cycles pass, the state is saved and the logs start anew. -/
def pairCheckpoint (s : State) : State :=
  let s := s.upCore 4 (fun c => passCycles 64 c)
  s.upPair (fun l => { l with chk := s.core 4, undo := [], inlog := [], outs := 0, bundles := 0 })

/-- 04 R89: whether a log has reached 3/4 of its capacity. -/
def logsFill (l : Lockstep) : Bool := decide (384 ≤ l.undo.length) || decide (192 ≤ l.inlog.length)

/-- LOCKSTEP_CHECKPOINT (04 R89): at a slot boundary, or with a log at 3/4, the running pair takes a checkpoint at its bundle boundary. -/
def execLockstepCheckpoint (s : State) : Out :=
  let c := s.core 4
  .next (s.when (c.run == .running && atBoundary c && !s.pair.restoring && !s.pair.replay) pairCheckpoint)

/-- 04 R90, R91: a mismatch: the pair halts and rolls back; a second one before the replay ends halts it for good. -/
def pairMismatch (s : State) (inj : Nat) : State :=
  let s := s.bump SYS.LSTEP 15 0 1
  if s.bit SYS.LSTEP 16 then
    let s := (s.setBit SYS.LSTEP 17 true).upCore 4 (fun c => { c with run := .held })
    logFault s 0x08 (1 + inj) 0 0 0
  else
    let s := (s.setBit SYS.LSTEP 16 true).upPair (fun l => { l with restoring := true })
    logFault s 0x07 (1 + inj) 0 1 0

/-- LOCKSTEP_MISMATCH (04 R90): the comparator of the running pair sees unequal outputs. -/
def execLockstepMismatch (s : State) : Out :=
  .next (s.when ((s.core 4).run == .running && !s.pair.restoring) (fun s => pairMismatch s 0))

/-- LOCKSTEP_RESTORE_DONE (04 R90): the D-TCM is rolled back and the checkpointed state restored; the write buffer, the errors it brought
and the cycle counter go on; the replay starts. -/
def execLockstepRestoreDone (s : State) : Out :=
  if s.pair.restoring ∧ (s.core 4).run = .running then
    let s := s.pair.undo.reverse.foldl (fun (s : State) (e : Nat × Word) => s.stw e.1 e.2) s
    let s := s.upCore 4 (fun c => { s.pair.chk with
      run := .running, wbuf := c.wbuf, held := c.held, cycle := c.cycle, flines := c.flines, latch := c.latch, stall := none, got := [] })
    .next (s.upPair (fun l => { l with undo := [], bundles := 0, restoring := false, replay := true, rin := l.inlog, rout := l.outs }))
  else .next s

/-- LOCKSTEP_REPLAY_END (04 R90): the log is exhausted: RESTORING clears and execution continues normally. -/
def execLockstepReplayEnd (s : State) : Out :=
  if s.pair.replay ∧ s.pair.rin = [] ∧ s.pair.rout = 0 then
    .next ((s.upPair (fun l => { l with replay := false })).setBit SYS.LSTEP 16 false)
  else .next s

end Sys2Proof.Machine
end

