-- ==== Sys2Proof/Machine/Player.lean ====
section
/-! DEFINITION. The execution of bundles (chapters 02 and 03): sources, stalls, the operations of the units, and what a bundle leaves. -/
namespace Sys2Proof.Machine
open Sys2Proof.Reg

/-! ### Moves -/

/-- 02 R43, R46: the value of a source; `cyc` is what `CYCLE` reads as. -/
def srcVal (s : State) (p : Fin 6) (cyc : Word) : Src → Word
  | .val w => w
  | .sock id =>
    let c := s.core p
    if id < 0x20 then c.a.toList.getD id 0
    else if id < 0x40 then c.b.toList.getD (id - 0x20) 0
    else if id < 0x44 then (if c.g.getLsbD (id - 0x40) then 1 else 0)
    else if id = 0x210 then cyc
    else if 0x200 ≤ id then csrRead s p id
    else c.res.toList.getD (resIndex id) 0

/-- The low word of the cycle counter. -/
def cycleWord (c : Core) : Word := BitVec.ofNat 32 c.cycle.toNat

/-- 02 R41: the moves whose guard holds. -/
def execMoves (c : Core) (b : Bundle) : List Move := b.moves.filter (fun m => guardHolds c.g m.guard)

/-- The operation that a move triggers. -/
def trigOf (k : CoreKind) (m : Move) : Option UnitOp :=
  match destOf k m.slot m.dst with
  | .inr (.trig op) => some op
  | _ => none

/-- The LSU operation of a bundle with its source. -/
def lsuOf (k : CoreKind) (ms : List Move) : Option (LsuOp × Src) :=
  ms.findSome? (fun m => match trigOf k m with | some (.lsu op) => some (op, m.src) | _ => none)
/-- The QU operation of a bundle with its source. -/
def quOf (k : CoreKind) (ms : List Move) : Option (QuOp × Src) :=
  ms.findSome? (fun m => match trigOf k m with | some (.qu op) => some (op, m.src) | _ => none)
/-- The CU operation of a bundle with its source. -/
def cuOf (k : CoreKind) (ms : List Move) : Option (CuOp × Src) :=
  ms.findSome? (fun m => match trigOf k m with | some (.cu op) => some (op, m.src) | _ => none)
/-- Whether a bundle triggers MUL. -/
def mulIn (k : CoreKind) (ms : List Move) : Bool :=
  ms.any (fun m => match trigOf k m with | some (.mul _) => true | _ => false)

/-! ### Faults and stalls before any effect -/

/-- 03 R74: whether a bundle executed as a delay bundle is in conflict. -/
def delayConflict (k : CoreKind) (ms : List Move) : Bool :=
  (match cuOf k ms with
   | some (.limm, _) => false
   | some _ => true
   | none => false) ||
  (match quOf k ms with
   | some (.deq, _) => true
   | some (.wfe, _) => true
   | _ => false)

/-- 03 R84, R79: whether a move needs `PSTAT.PRIV`: the write of a CSR marked P, or `eret`. -/
def needsPriv (k : CoreKind) (m : Move) : Bool :=
  match destOf k m.slot m.dst with
  | .inr (.csr id) => csrPriv id
  | .inr (.trig (.cu .eret)) => true
  | _ => false

/-- 03 R81: the exception that a bundle raises before it accesses memory: its cause, detail and address. -/
def earlyFault (s : State) (p : Fin 6) (ms : List Move) : Option (Nat × Nat × Word) :=
  let c := s.core p
  let k := coreKind p
  let user := !pstatBit c PSTAT.priv
  if c.xfer.isSome && delayConflict k ms then some (1, 0xB, 0)
  else match ms.find? (fun m => user && needsPriv k m) with
    | some m => if m.dst < 0x300 then some (4, 1, BitVec.ofNat 32 m.dst) else some (4, 2, 0)
    | none =>
      match lsuOf k ms with
      | some (op, src) =>
        let va := srcVal s p (cycleWord c) src
        if op ≠ .fence ∧ va.toNat % lsuSize op ≠ 0 then some (3, lsuDetail op, va) else none
      | none => none

/-- 03 R71: whether an interrupt line enabled in `IEN` is pending. -/
def wakeLine (s : State) (p : Fin 6) : Bool := ipend s p &&& (s.core p).ien != 0

/-- Whether a bundle waits for an event, in the QU or in the CU of the small configuration. -/
def waitsEvent (k : CoreKind) (ms : List Move) : Bool :=
  (match quOf k ms with | some (.wfe, _) => true | _ => false) || (match cuOf k ms with | some (.wfe, _) => true | _ => false)

/-- The cause that woke a stalled `wfe`. -/
def wakeGot (got : List Got) : Option Nat := got.findSome? (fun g => match g with | .wake n => some n | _ => none)

/-- 03 R69: the queue on which the bundle's `deq` stalls. -/
def deqWaits (s : State) (p : Fin 6) (ms : List Move) : Option Nat :=
  match quOf (coreKind p) ms with
  | some (.deq, src) =>
    let q := (srcVal s p (cycleWord (s.core p)) src).toNat % 128
    if !replays s p && !(s.core p).got.contains .done && qOn s q && qAllowed s q (coreInit p) false && qCount s q == 0 then some q else none
  | _ => none

/-- 03 R54: why a bundle stalls before it accesses memory. -/
def earlyStall (s : State) (p : Fin 6) (ms : List Move) : Option StallCause :=
  let c := s.core p
  let k := coreKind p
  let reads := ms.any (fun m => match m.src with | .sock id => decide (0x280 ≤ id) && decide (id ≤ 0x2A7) | .val _ => false)
  if reads && !c.fly.isEmpty then some .csr
  else if mulIn k ms && divBusy c then some .divider
  else if waitsEvent k ms && (wakeGot c.got).isNone && !c.latch && !wakeLine s p && !replays s p then some .wfe
  else (deqWaits s p ms).map .deq

/-- How the look ahead at the length of a bundle ends. -/
inductive Ahead where
  | len (n : Nat)
  | stall (va line : Nat)
  | fault (code va : Nat)
  deriving DecidableEq, Repr

/-- 03 R72: the length of the bundle at an address, from its stop bits and its long immediate. -/
def aheadLen (s : State) (p : Fin 6) (a : Word) : Ahead × State :=
  match decodeAt s p a with
  | (.bundle b, s) => (.len b.len, s)
  | (.illegal _ n, s) => (.len n, s)
  | (.stall va l, s) => (.stall va l, s)
  | (.fault c va, s) => (.fault c va, s)

/-- The bundles a CU operation looks ahead to: the two delay bundles of a call (03 R72), the end bundle of a loop with o = 0
(03 R73).  `len n` is the way from the first of them to the bundle after the last. -/
def lookAhead (s : State) (p : Fin 6) (b : Bundle) (ms : List Move) : Ahead × State :=
  let c := s.core p
  let next := c.pc + BitVec.ofNat 32 b.len
  match cuOf (coreKind p) ms with
  | some (.call, _) | some (.callr, _) =>
    (match aheadLen s p next with
     | (.len m, s) =>
       match aheadLen s p (next + BitVec.ofNat 32 m) with
       | (.len n, s) => (.len (m + n), s)
       | r => r
     | r => r)
  | some (.loop, src) => if c.opr[9] = 0 then aheadLen s p (c.pc + srcVal s p (cycleWord c) src) else (.len 0, s)
  | _ => (.len 0, s)

/-! ### The operations of the units -/

/-- 03 R57: the accumulator after the operations in flight. -/
def accNow (c : Core) : BitVec 64 :=
  let port := fun (n : Nat) => ((c.fly.reverse.findSome? (fun f => (f.writes.find? (fun w => w.1 == n)).map (fun w => w.2))).getD
    (c.res.toList.getD n 0)).toNat
  BitVec.ofNat 64 (port 9 + 2 ^ 32 * port 10)

/-- 03 R58: whether the next product goes to `mul.p1`. -/
def nextP1 (c : Core) : Bool := decide (c.prodAge < 2) && !c.prodP1

/-- 03 R57, R59: the result of a MUL operation. -/
def mulFlight (c : Core) (op : MulOp) (t : Word) : Flight :=
  let o := c.opr[2]
  match op with
  | .mul | .mulh | .mulhu => { left := 3, writes := [(if nextP1 c then 8 else 7, mulProduct op o t)] }
  | .mac | .macu | .accw =>
    let acc := accResult op (accNow c) o t
    { left := 3, writes := [(9, BitVec.ofNat 32 acc.toNat), (10, BitVec.ofNat 32 (acc.toNat / 2 ^ 32))], uflags := accFlags op (accNow c) o t }
  | _ => { left := 18, kind := .divide, writes := [(7, divResult op o t)], uflags := divFlags t }

/-- 03 R55, R56: the result of an ALU operation. -/
def aluFlight (c : Core) (u : Nat) (op : AluOp) (t : Word) : Flight :=
  let r := aluFn op (if u = 0 then c.opr[0] else c.opr[1]) t
  match op with
  | .mul | .mulh => { left := 8, kind := .iterative, writes := [(u, r)] }
  | _ => { left := 1, writes := [(u, r)] }

/-- The result of the operation a move triggers, with the trigger value `t`; those of the LSU and the QU are given, as are the link of a
call and the literal of a long immediate. -/
def unitFlights (c : Core) (op : UnitOp) (t : Word) (lsu qu : List Flight) (link : Word) (lit : Word) : List Flight :=
  match op with
  | .alu u op => [aluFlight c u op t]
  | .mul op => [mulFlight c op t]
  | .shf op => [{ left := 1, writes := [(2, shfFn op c.opr[4] c.opr[5] t)] }]
  | .simd op => [{ left := 2, writes := [(3, simdFn op c.opr[6] c.opr[7] t)], uflags := simdFlags op c.opr[6] t }]
  | .lsu _ => lsu
  | .qu _ => qu
  | .cu .call => [{ left := 1, writes := [(5, link)] }]
  | .cu .callr => [{ left := 1, writes := [(5, link)] }]
  | .cu .limm => [{ left := 1, writes := [(6, lit)] }]
  | .cu _ => []

/-- 03 R71: the cause with which the `wfe` of a bundle completes. -/
def wakeCause (c : Core) : Nat := (wakeGot c.got).getD (if c.latch then 1 else 2)

/-- 03 R71: the latch after a `wfe` that was not woken from a stall. -/
def clearLatch (s : State) (p : Fin 6) : State :=
  if (wakeGot (s.core p).got).isSome then s else s.upCore p (fun c => { c with latch := false })

/-- The result and the code of a QU operation as the queue block and the cue lines give them (03 R69, R66, 14 R353, R354). -/
def quPerform (s : State) (p : Fin 6) (op : QuOp) (t : Word) : Word × Nat × State :=
  let who := coreInit p
  let q := t.toNat % 128
  match op with
  | .enq =>
    let r := qEnq (drainAll s p) q who (s.core p).opr[8]
    (0, r.1, (release r.2 p).2)
  | .deq =>
    if (s.core p).got.contains .done then (0, 2, s)
    else let r := qDeq s q who; (if r.1 = 0 then r.2.1 else 0, r.1, r.2.2)
  | .deqnb => let r := qDeq s q who; (if r.1 = 0 then r.2.1 else 0, r.1, r.2.2)
  | .cnt => let r := qCnt s q who; (BitVec.ofNat 32 r.2, r.1, s)
  | .sig =>
    if ownsChan s who (t.toNat % 64) then (0, 0, (release (cueSignal s (t.toNat % 64)) p).2) else (0, 2, s)
  | .wfe => (BitVec.ofNat 32 (wakeCause (s.core p)), 0, clearLatch s p)

/-- 03 R69, 04 R90: the QU operation of a bundle: the pair takes its outcome from the log during a replay, and records it otherwise. -/
def quCommit (s : State) (p : Fin 6) (op : QuOp) (t : Word) : List Flight × State :=
  let r := match replays s p, s.pair.rin with
    | true, .queue w c :: rest =>
      let s := s.upPair (fun l => { l with rin := rest })
      (w, c, if op = QuOp.enq ∨ (op = QuOp.sig ∧ c = 0) then (release s p).2 else if op = QuOp.wfe then clearLatch s p else s)
    | _, _ =>
      let r := quPerform s p op t
      (r.1, r.2.1, logInput r.2.2 p (.queue r.1 r.2.1))
  ([{ left := 2, writes := [(4, r.1)], qcode := some r.2.1 }], r.2.2)

/-- The QU operation of a bundle, if it has one, with its source value. -/
def quStep (s : State) (p : Fin 6) : Option (QuOp × Word) → List Flight × State
  | some (op, t) => quCommit s p op t
  | none => ([], s)

/-! ### The end of a bundle -/

/-- 02 R29: the write of a move that is no trigger, at the end of its bundle. -/
def applyMove (k : CoreKind) (c : Core) (m : Move) (v : Word) : Core :=
  match destOf k m.slot m.dst with
  | .inr (.regA n) => { c with a := c.a.setIfInBounds n v }
  | .inr (.regB n) => { c with b := c.b.setIfInBounds n v }
  | .inr (.guard n) => { c with g := if v.getLsbD 0 then c.g ||| BitVec.ofNat 4 (2 ^ n) else c.g &&& ~~~ (BitVec.ofNat 4 (2 ^ n)) }
  | .inr (.opr i) => { c with opr := c.opr.setIfInBounds i v }
  | .inr (.csr id) => csrWrite c id v
  | _ => c

/-- 03 R72, R73: what the CU operation of a bundle at `pc` leaves: a transfer that waits, an armed loop, or the place after the loop.
`next` is the bundle that follows, `ahead` what was looked ahead to. -/
def cuEffect (c : Core) (op : CuOp) (pc next t : Word) (ahead : Nat) : Core :=
  match op with
  | .jmp | .ret | .callr => { c with xfer := some { target := t, left := 2 } }
  | .br | .call => { c with xfer := some { target := pc + t, left := 2 } }
  | .eret => { c with xfer := some { target := 0, left := 2, eret := true } }
  | .loop =>
    let o := c.opr[9]
    let c := pstatSet { c with lcount := o, lstart := next, lend := pc + t } PSTAT.lact (o != 0)
    if o = 0 then { c with pc := pc + t + BitVec.ofNat 32 ahead } else c
  | _ => c

/-- 03 R73: the completion of the bundle at `LEND` while a loop is armed. -/
def loopEnd (c : Core) (pc : Word) : Core :=
  if pstatBit c PSTAT.lact ∧ pc = c.lend then
    let n := c.lcount - 1
    if n = 0 then pstatSet { c with lcount := n } PSTAT.lact false
    else { c with lcount := n, pc := c.lstart }
  else c

/-- 02 R36, 03 R72, R79: a delay bundle has completed: its transfer comes closer or takes effect. -/
def xferStep (c : Core) (x : Xfer) : Core :=
  if x.left ≤ 1 then
    if x.eret then leaveFrame { c with xfer := none } else { c with pc := x.target, xfer := none }
  else { c with xfer := some { x with left := x.left - 1 } }

/-- 03 R58: how far the last product trigger lies back, in bundles, and whether it used `mul.p1`. -/
def productStep (c : Core) (k : CoreKind) (ms : List Move) (old : Core) : Core :=
  let prod := ms.any (fun m => match trigOf k m with
    | some (.mul op) => op == .mul || op == .mulh || op == .mulhu
    | _ => false)
  if prod then { c with prodAge := 0, prodP1 := nextP1 old } else { c with prodAge := min 2 (old.prodAge + 1) }

/-- The CU operation of moves with the values of their sources. -/
def cuTrig (k : CoreKind) (mvs : List (Move × Word)) : Option (CuOp × Word) :=
  mvs.findSome? (fun mv => match trigOf k mv.1 with | some (.cu op) => some (op, mv.2) | _ => none)

/-- The QU operation of moves with the values of their sources. -/
def quTrig (k : CoreKind) (mvs : List (Move × Word)) : Option (QuOp × Word) :=
  mvs.findSome? (fun mv => match trigOf k mv.1 with | some (.qu op) => some (op, mv.2) | _ => none)

/-- The results that the triggers of moves start. -/
def newFlights (k : CoreKind) (c0 : Core) (mvs : List (Move × Word)) (lsu qu : List Flight) (link lit : Word) : List Flight :=
  mvs.flatMap (fun mv => match trigOf k mv.1 with
    | some op => unitFlights c0 op mv.2 lsu qu link lit
    | none => [])

/-- 03 R67, R68: the reservation that a bundle leaves. -/
def gotResv (got : List Got) (r : Option Nat) : Option Nat :=
  got.foldl (fun (r : Option Nat) g => match g with | .resv x => x | _ => r) r

/-- 02 R30, 03 R52, R56: the core at the end of a bundle that completes: its moves and triggers together, with the values read at its
start, then the results due at the end of this cycle. -/
def bundleEnd (c0 c : Core) (k : CoreKind) (ms : List (Move × Word)) (lsu qu : List Flight) (ahead : Nat) (b : Bundle) : Core :=
  let next := c0.pc + BitVec.ofNat 32 b.len
  let link := next + BitVec.ofNat 32 ahead
  let new := newFlights k c0 ms lsu qu link (b.lit.getD 0)
  let keep := if new.any (fun f => f.kind == .iterative) then c.fly.filter (fun f => f.kind != .iterative) else c.fly
  let c := productStep { c with fly := keep ++ new, pc := next, stall := none, got := [], flines := [], resv := gotResv c.got c.resv } k (ms.map (fun mv => mv.1)) c0
  let c := ms.foldl (fun (c : Core) mv => applyMove k c mv.1 mv.2) c
  let c := tickCore c
  match c0.xfer with
  | some x => xferStep c x
  | none =>
    match cuTrig k ms with
    | some (.loop, t) => cuEffect c .loop c0.pc next t ahead
    | some (op, t) => cuEffect (loopEnd c c0.pc) op c0.pc next t ahead
    | none => loopEnd c c0.pc

/-- 03 R84: the value that reads of `CYCLE` in a bundle return, logged by the pair; `CYCLEH` is latched. -/
def readCycle (s : State) (p : Fin 6) (ms : List Move) : Word × State :=
  let c := s.core p
  if ms.any (fun m => m.src == .sock 0x210) then
    let s := s.upCore p (fun c => { c with cycleh := BitVec.ofNat 32 (c.cycle.toNat / 2 ^ 32) })
    if replays s p then let r := takeValue s; (BitVec.ofNat 32 r.1, r.2)
    else (cycleWord c, logInput s p (.value (cycleWord c).toNat))
  else (cycleWord c, s)

/-- What a completed bundle raises: the misaligned target of a transfer or of a loop (02 R36), or its `trap` (03 R80). -/
def afterBundle (s : State) (p : Fin 6) (cu : Option (CuOp × Word)) : State :=
  let pc := (s.core p).pc
  if pc.toNat % 4 ≠ 0 then raiseException s p 3 3 pc pc
  else match cu with
    | some (.trap, t) => raiseException s p 6 (t.toNat % 256) 0 pc
    | _ => s

/-- A bundle completes: the queue operation is performed and everything it writes takes effect together. -/
def commitBundle (s : State) (p : Fin 6) (b : Bundle) (ms : List Move) (lsu : List Flight) (ahead : Nat) : State :=
  let k := coreKind p
  let c0 := s.core p
  let cy := readCycle s p ms
  let mvs := ms.map (fun m => (m, srcVal s p cy.1 m.src))
  let q := quStep cy.2 p (quTrig k mvs)
  let cu := cuTrig k mvs
  let s := if cu.map (fun x => x.1) = some .wfe then clearLatch q.2 p else q.2
  let s := s.upCore p (fun c => bundleEnd c0 c k mvs lsu q.1 ahead b)
  let s := if p.val = 4 then s.upPair (fun l => { l with bundles := l.bundles + 1 }) else s
  let s := afterBundle s p cu
  let s := s.when (p.val == 4 && logsFill s.pair && !s.pair.replay && (s.core 4).run == .running) pairCheckpoint
  dbgApply s

/-- 20 R491: whether a bundle of the link pair has an output, for an injected mismatch: an access outside its TCM, a queue or cue
operation, or a CSR write (04 R88). -/
def pairOutput (s : State) (p : Fin 6) (ms : List Move) : Bool :=
  let k := coreKind p
  p.val == 4 && ms.any (fun m => match destOf k m.slot m.dst with
    | .inr (.csr _) => true
    | .inr (.trig (.qu op)) => op != .wfe
    | .inr (.trig (.lsu op)) =>
      let a := (srcVal s p 0 m.src).toNat
      op != .fence && !(decide (0x10000000 ≤ a) && decide (a < 0x10020000))
    | _ => false)

/-- 03 R53: the stall cycles that pass at once when a bundle stalls, or stalls on: none where the command that ends the stall brings them
(log 108). -/
def stallCycles : StallCause → Nat
  | .fetch _ _ => 0
  | .delayFetch _ _ => 0
  | .access _ _ _ _ => 0
  | _ => 1

/-- 03 R53: a bundle stalls, and its stall cycle passes; a `wfe` that begins to wait restarts the watchdog (20 R483). -/
def stallOn (s : State) (p : Fin 6) (b : Option Bundle) (c : StallCause) : State :=
  let s := s.upCore p (fun x => { passCycles (stallCycles c) x with stall := some { cause := c, bundle := b } })
  if c = .wfe then wdRestart s p.val else s

/-- 03 R81: the exception of a bundle whose look-ahead failed with a cause at an address: its LSU operation may raise one that comes
first, an unmapped address before a bus error and, within a cause, the lower slot (log 109). -/
def aheadFault (s : State) (p : Fin 6) (ms : List Move) (code va : Nat) (e : Ecc) : State :=
  let c := s.core p
  let own := raiseException s p code 3 (BitVec.ofNat 32 va) c.pc
  match lsuOf (coreKind p) ms with
  | some (op, src) =>
    let a := srcVal s p (cycleWord c) src
    if op = .fence then own else
    (match lsuAccess s p op a.toNat c.opr[3] c.got e with
     | (.fault x, s) => if x = 5 ∨ code ≠ 5 then raiseException s p x (lsuDetail op) a c.pc else own
     | _ => own)
  | none => own

/-- 03: a decoded bundle is executed at the core's pc: it completes, stalls, or raises an exception; a load of its own memory meets `e`. -/
def runBundle (s : State) (p : Fin 6) (b : Bundle) (e : Ecc := .ok) : State :=
  let c := s.core p
  let k := coreKind p
  let ms := execMoves c b
  match earlyFault s p ms with
  | some (code, detail, addr) => raiseException s p code detail addr c.pc
  | none =>
    match earlyStall s p ms with
    | some w => stallOn s p (some b) w
    | none =>
      if pairOutput s p ms && s.bit FLT.INJCTRL 16 && s.fld FLT.INJCTRL 3 0 == 3 then pairMismatch (injDisarm s) 0x80
      else
        match lookAhead s p b ms with
        | (.stall va l, s) => stallOn s p (some b) (.delayFetch va l)
        | (.fault code va, s) => aheadFault s p ms code va e
        | (.len n, s) =>
          match lsuOf k ms with
          | none => commitBundle s p b ms [] n
          | some (.fence, _) =>
            (match lsuFence s p with
             | .stall w => stallOn s p (some b) w
             | _ => commitBundle s p b ms [] n)
          | some (op, src) =>
            let va := srcVal s p (cycleWord c) src
            match lsuAccess s p op va.toNat c.opr[3] c.got e with
            | (.done fl, s) => commitBundle s p b ms fl n
            | (.stall w, s) => stallOn s p (some b) w
            | (.fault code, t) => raiseException (if isReplayed s p op va.toNat then t else logError t p va.toNat code) p code (lsuDetail op) va c.pc

/-! ### The commands of a core -/

/-- Whether a core executes: it runs, its domain has power and clock, and the pair does not roll back. -/
def canRun (s : State) (p : Fin 6) : Bool :=
  (s.core p).run == .running && s.dom (coreDom p) == .on && !(p.val == 4 && s.pair.restoring)

/-- Whether a bundle that stalls may end its stall: as `canRun`, also in a core that the debug port halted and steps (20 R495). -/
def canFinish (s : State) (p : Fin 6) : Bool :=
  ((s.core p).run == .running || (s.core p).run == .debug) && s.dom (coreDom p) == .on && !(p.val == 4 && s.pair.restoring)

/-- 03 R80: an imprecise error that may be taken at this boundary. -/
def impreciseDue (c : Core) : Bool := !c.held.isEmpty && c.xfer.isNone && c.stall.isNone && !pstatBit c PSTAT.exc

/-- 03 R80: the oldest imprecise bus error is taken. -/
def takeImprecise (s : State) (p : Fin 6) : State :=
  match (s.core p).held with
  | a :: rest =>
    let s := s.upCore p (fun c => { c with held := rest })
    let s := logInput s p (.imprecise s.pair.bundles a)
    raiseException s p 2 4 a (s.core p).pc
  | [] => s

/-- 04 R90: during a replay, the entry that the log records at this bundle count. -/
def replayEntry (s : State) (p : Fin 6) : Option State :=
  if replays s p then
    match s.pair.rin with
    | .irq n line :: rest =>
      if n = s.pair.bundles then some ((s.upPair (fun l => { l with rin := rest })).upCore p (fun c => interruptEntry c line)) else none
    | .imprecise n a :: rest =>
      if n = s.pair.bundles then some (raiseException (s.upPair (fun l => { l with rin := rest })) p 2 4 a (s.core p).pc) else none
    | _ => none
  else none

/-- 02 R50, 03: the next bundle of a core is fetched, decoded and executed. -/
def freshBundle (s : State) (p : Fin 6) (e : Ecc := .ok) : State :=
  let pc := (s.core p).pc
  match decodeAt s p pc with
  | (.bundle b, s) => runBundle s p b e
  | (.illegal d _, s) => raiseException s p 1 d 0 pc
  | (.stall va l, s) => stallOn s p none (.fetch va l)
  | (.fault code va, s) => raiseException s p code 3 (BitVec.ofNat 32 va) pc

/-- A bundle that stalls is executed again; fetches, accesses, empty queues and waits end by commands of their own, and meanwhile a
stall cycle passes for the last two (03 R53). -/
def stalledBundle (s : State) (p : Fin 6) (st : Stall) (e : Ecc := .ok) : State :=
  match st.bundle with
  | none => s
  | some b =>
    match st.cause with
    | .fetch _ _ => s
    | .delayFetch _ _ => s
    | .access _ _ _ _ => s
    | .deq _ => if (s.core p).got.contains .done then runBundle s p b e else s.upCore p (passCycles 1)
    | .wfe => s.upCore p (passCycles 1)
    | _ => runBundle s p b e

/-- 20 R482: what error correction finds where the next bundle is fetched from a memory that needs no line; false when the fetch fails. -/
def fetchFinds (s : State) (p : Fin 6) (f : Ecc) : Bool × State :=
  let pc := (s.core p).pc.toNat
  if f = .ok then (true, s)
  else match placeOf s (coreInit p) pc .fetch with
    | (.at ph _ _, s1) =>
      (match targetOf ph with
       | .flash => (true, s)
       | .mram => (true, s)
       | .dram => (true, s)
       | _ =>
         if physErr s1 (coreInit p) ph false then (true, s)
         else match lineRead s1 (coreInit p) ph true f .ok 0 with
           | (.bad, s2) =>
             if isScene pc then (pteBit (s2.pte pc) 3, pageFault s2 (coreInit p) (memClass ph).1 pc ph)
             else (false, readFault s2 (memClass ph).1 (coreInit p) 3 0 (BitVec.ofNat 32 ph))
           | (_, s2) => (true, s2))
    | _ => (true, s)

/-- One bundle of a core; `f` is what the error correction of the memory it is fetched from finds, `e` that of its own memory on a load. -/
def stepCore (s : State) (p : Fin 6) (f : Ecc := .ok) (e : Ecc := .ok) : State :=
  match (s.core p).stall with
  | some st => stalledBundle s p st e
  | none =>
    match replayEntry s p with
    | some t => t
    | none =>
      if impreciseDue (s.core p) && !inReplay s p then takeImprecise s p
      else
        match fetchFinds s p f with
        | (true, s) => freshBundle s p e
        | (false, s) => raiseException s p 2 3 (s.core p).pc (s.core p).pc

/-- BUNDLE_EXECUTE (02 R50, chapter 03). -/
def execBundleExecute (p : Fin 6) (f e : Ecc) (s : State) : Out := .next (s.when (canRun s p) (fun s => stepCore s p f e))

/-- Whether an interrupt may enter now (03 R76, R77): outside a delay window, at a boundary or in a stalled `deq`; during a replay the
pair takes the recorded entries only. -/
def entryOpen (s : State) (p : Fin 6) : Bool :=
  let c := s.core p
  canRun s p && c.xfer.isNone && !inReplay s p &&
  (match c.stall with
   | none => true
   | some st => (match st.cause with | .deq _ => true | _ => false))

/-- INTERRUPT_ENTRY (03 R75, R76). -/
def execInterruptEntry (p : Fin 6) (s : State) : Out :=
  match selectLine s p with
  | some n =>
    if entryOpen s p then
      let s := logInput s p (.irq s.pair.bundles n)
      .next (s.upCore p (fun c => interruptEntry c n))
    else .next s
  | none => .next s

/-- IMPRECISE_BUS_ERROR (03 R80): the error response of a buffered store is taken at a boundary outside a delay window. -/
def execImpreciseBusError (p : Fin 6) (s : State) : Out :=
  .next (s.when (canRun s p && impreciseDue (s.core p) && !inReplay s p) (fun s => takeImprecise s p))

/-- 03 R54: the bundle of a core goes on with what the end of its stall brought, after `wait` stall cycles. -/
def resume (s : State) (p : Fin 6) (b : Bundle) (g : Got) (wait : Nat) : State :=
  runBundle (s.upCore p (fun c => { passCycles wait c with got := c.got ++ [g], stall := none })) p b

/-- 04 R89: what the pair records of a finished access. -/
def logAccess (s : State) (p : Fin 6) (g : Got) : State :=
  match g with
  | .load v => logInput s p (.value v)
  | .sc c => logInput (release s p).2 p (.value c)
  | .stored => (release s p).2
  | _ => s

/-- 01 R12, R13: the frequency of a core in MHz. -/
def coreMhz (s : State) (p : Fin 6) : Nat :=
  if p.val < 4 then 400 / 2 ^ (s.pwr.divs / 4 ^ p.val % 4) else if p.val = 4 then 200 else if s.bit CLK.STATUS 3 then 64 else 16

/-- 07 R168: whether the read of a physical address waits for the flash array. -/
def flashWaits (s : State) (ph : Nat) : Bool :=
  targetOf ph == .flash && !sectorBlocked s ((ph - 0x08000000) / 0x4000) && readWaits s (ph - 0x08000000)

/-- 07 R168: a read of a core has been served after some stall cycles. -/
def waitServed (s : State) (p : Fin 6) (ph wait : Nat) : State := s.when (targetOf ph == .flash) (fun s => readServed s (wait / coreMhz s p))

/-- LOAD_RETURN (03 R54, R68): the access for which a bundle stalls returns, with what the error correction of the memory finds and the
stall cycles it took.  The access is that of the address the stall began with (log 107); a read of flash waits while the array is busy
(07 R168). -/
def execLoadReturn (p : Fin 6) (e mirror : Ecc) (syn : BitVec 8) (wait : Nat) (s : State) : Out :=
  let c := s.core p
  match c.stall with
  | some { cause := .access va ph cp sec, bundle := some b } =>
    (match lsuOf (coreKind p) (execMoves c b) with
     | some (op, _) =>
       if !canFinish s p then .next s
       else if flashWaits s ph then .next (noteWait s)
       else
         match finishAccess s p op va ph cp sec c.opr[3] e mirror syn with
         | (some g, s) => .next (resume (logAccess (waitServed s p ph wait) p g) p b g wait)
         | (none, s) => .next s
     | none => .next s)
  | _ => .next s

/-- The line for which a fetch stalls arrives: true when it may be used. -/
def fetchLine (s : State) (p : Fin 6) (va line : Nat) (e mirror : Ecc) (syn : BitVec 8) : Bool × State :=
  let who := coreInit p
  if physErr s who line false then (false, touch s line)
  else match lineRead s who line true e mirror syn with
    | (.good, s) => (true, holdLine s p line)
    | (.err, s) => (false, s)
    | (.bad, s) =>
      if isScene va then (pteBit (s.pte va) 3, pageFault s who (memClass line).1 va line)
      else (false, readFault s (memClass line).1 who 3 0 (BitVec.ofNat 32 line))

/-- FETCH_COMPLETE (03 R54, 07 R167): the line for which a core's fetch stalls arrives, with what its error correction finds; one from
flash waits while the array is busy (07 R168). -/
def execFetchComplete (p : Fin 6) (e mirror : Ecc) (syn : BitVec 8) (wait : Nat) (s : State) : Out :=
  if canFinish s p then
    match (s.core p).stall with
    | some { cause := .fetch va l, bundle := _ } =>
      if flashWaits s l then .next (noteWait s) else
      let r := fetchLine s p va l e mirror syn
      let s := (waitServed r.2 p l wait).upCore p (fun c => { passCycles wait c with stall := none })
      .next (if r.1 then (if (s.core p).run = .debug then freshBundle s p else s) else raiseException s p 2 3 (BitVec.ofNat 32 va) (s.core p).pc)
    | some { cause := .delayFetch va l, bundle := some b } =>
      if flashWaits s l then .next (noteWait s) else
      let r := fetchLine s p va l e mirror syn
      let s := (waitServed r.2 p l wait).upCore p (fun c => { passCycles wait c with stall := none })
      .next (if r.1 then runBundle s p b else raiseException s p 2 3 (BitVec.ofNat 32 va) (s.core p).pc)
    | _ => .next s
  else .next s

/-- 03 R70: the `deq` of a core that stalls on a queue is served when the queue has an entry. -/
def serveWaiter (s : State) (q : Nat) (p : Fin 6) : State :=
  match (s.core p).stall with
  | some { cause := .deq r, bundle := some b } =>
    if r = q ∧ canFinish s p = true ∧ qCount s q ≠ 0 then runBundle (s.upCore p (fun c => { c with stall := none })) p b else s
  | _ => s

/-- DEQ_ENTRY_ARRIVES (03 R70): the waiters on a queue are served in the order of their initiator ids. -/
def execDeqEntryArrives (q : Fin 128) (s : State) : Out :=
  .next (([4, 0, 1, 2, 3] : List (Fin 6)).foldl (fun (s : State) p => serveWaiter s q.val p) s)

/-- WFE_WAKE (03 R71): the latch or an enabled line wakes a waiting core; the latch is then cleared. -/
def execWfeWake (p : Fin 6) (s : State) : Out :=
  let c := s.core p
  let cause := natBit c.latch + 2 * natBit (wakeLine s p)
  match c.stall with
  | some { cause := .wfe, bundle := some b } =>
    if cause ≠ 0 ∧ canFinish s p = true then .next (resume (s.upCore p (fun c => { c with latch := false })) p b (.wake cause) 0)
    else .next s
  | _ => .next s

/-- A unit operation on its own: a bundle of the one syllable `{ src -> unit.op }` executed at the core's pc (02 R35). -/
def runUnitOp (s : State) (p : Fin 6) (u : FU) (code : Nat) (g : Fin 8) (src : BitVec 13) (lit : Option Word) (e : Ecc := .ok) : State :=
  let slot := unitSlot (coreKind p) u
  let w : Word := BitVec.ofNat 32 (2 ^ 31 + 2 ^ 28 * (slot % 8) + 2 ^ 25 * g.val + 2 ^ 12 * src.toNat + 0x900 + code)
  if canRun s p ∧ (s.core p).stall = none then
    if impreciseDue (s.core p) && !inReplay s p then takeImprecise s p
    else if 8 ≤ slot then raiseException s p 1 2 0 (s.core p).pc
    else match illegalCode (coreKind p) [w] with
      | some d => raiseException s p 1 d 0 (s.core p).pc
      | none => runBundle s p { moves := [moveOf w], lit := lit, len := if lit.isSome then 8 else 4 } e
  else s

end Sys2Proof.Machine
end

