-- ==== Sys2Proof/Machine/Debug.lean ====
section
/-! DEFINITION. The debug port: its accesses, which the service port carries, and the stepping of halted cores (19 R470, 20 R495). -/
namespace Sys2Proof.Machine
open Sys2Proof.Reg

/-- 01 R23: the initiator id of the debug port. -/
def debugInit : Nat := 0x10

/-- 20 R495: the cores that a write of `DBG.STEP` named and that are halted run one bundle each. -/
def runSteps (s : State) : State :=
  let m := s.flt.steps
  let s : State := { s with flt := { s.flt with steps := 0 } }
  (List.finRange 6).foldl (fun (s : State) p =>
    if testB m p.val && (s.core p).run == .debug && s.dom (coreDom p) == .on then stepCore s p else s) s

/-- REGISTER_WRITE (00 R4 to R9): an initiator writes the register at an address. -/
def execRegisterWrite (who a : Nat) (v : Word) (s : State) : Out := .next (runSteps (s.access who a (some v)))

/-- DBG_STEP (20 R495). -/
def execDbgStep (who : Nat) (v : Word) (s : State) : Out := .next (runSteps (s.access who DBG.STEP (some v)))

/-- 19 R470: a word access of the debug port at a physical address (`d` is the data of a write): none for an error response.  A register
access that meets a powered-down domain powers it. -/
def debugWord (s : State) (a : Nat) (d : Option Word) : Option Word × State :=
  if targetOf a = .periph then
    let r := match busTry s debugInit a d with
      | (.held, s) => busServe (accessWake (s.setDom (pageDom (a / 4096)) .on) debugInit (pageDom (a / 4096))) debugInit a d
      | r => r
    match r with
    | (.ok w, s) => (some w, runSteps s)
    | (_, s) => (none, s)
  else if memCurtain s debugInit a then (none, curtainViolation s debugInit (BitVec.ofNat 32 a) d.isSome)
  else
    let ph := resolve s debugInit a
    match d with
    | none => (match physRead s debugInit ph 4 with
       | (some bs, s) => (some (leWord bs), s)
       | (none, s) => (none, s))
    | some v => (match physWrite s debugInit ph (leBytes 4 v.toNat) with
       | (true, s) => (none, s)
       | (false, s) => (some 0, s))

/-- 19 R470: word reads in ascending order, until one ends in an error response. -/
def debugReads : Nat → State → Nat → List Word × Bool × State
  | 0, s, _ => ([], true, s)
  | n + 1, s, a =>
    match debugWord s a none with
    | (some w, s) => let r := debugReads n s (a + 4); (w :: r.1, r.2)
    | (none, s) => ([], false, s)

/-- 19 R470: word writes in ascending order, until one ends in an error response. -/
def debugWrites : List Word → State → Nat → Bool × State
  | [], s, _ => (true, s)
  | w :: ws, s, a =>
    match debugWord s a (some w) with
    | (some _, s) => debugWrites ws s (a + 4)
    | (none, s) => (false, s)

/-- Answers a debug packet. -/
def debugReply (s : State) (cmd seq : Byte) (status : Nat) (data : List Byte) : State :=
  svcStat (s.upSvc (fun v => { v with reply := some (svcBody cmd seq status data), dbg := none }))

/-- 19 R470: serves the waiting debug packet if its command is `cmd`. -/
def debugServe (s : State) (cmd : Byte) (f : State → Byte → List Byte → State) : State :=
  match s.svc.dbg with
  | some (c :: seq :: payload) =>
    if c = cmd then (if lifecycle s = 3 then debugReply s cmd seq 1 [] else f s seq payload) else s
  | _ => s

/-- SVC_DBGRD (19 R470). -/
def execSvcDbgrd (s : State) : Out :=
  .next (debugServe s 0x0A (fun s seq pl =>
    let a := leNat (pl.take 4)
    let n := leNat (pl.drop 4)
    if pl.length ≠ 5 ∨ a % 4 ≠ 0 ∨ n = 0 ∨ 64 < n then debugReply s 0x0A seq 2 []
    else
      let r := debugReads n s a
      debugReply r.2.2 0x0A seq (if r.2.1 then 0 else 17) (r.1.flatMap (fun w => leBytes 4 w.toNat))))

/-- SVC_DBGWR (19 R470). -/
def execSvcDbgwr (s : State) : Out :=
  .next (debugServe s 0x0B (fun s seq pl =>
    let a := leNat (pl.take 4)
    let ws := leWords (pl.drop 4)
    if pl.length % 4 ≠ 0 ∨ pl.length < 8 ∨ 260 < pl.length ∨ a % 4 ≠ 0 then debugReply s 0x0B seq 2 []
    else
      let r := debugWrites ws s a
      debugReply r.2 0x0B seq (if r.1 then 0 else 17) []))

end Sys2Proof.Machine
end

