-- ==== Sys2Proof/Machine/Rows.lean ====
section
/-! DEFINITION. The commands that are one read or write of a register with a row of its own: each is that access of the initiator `who` to the
register, judged and served as any other (chapter 00, 01 R11, 04 R93), with the bits set that name the row. -/
namespace Sys2Proof.Machine
open Sys2Proof.Reg

/-- A word with bit `b` set. -/
def vSet (v : Word) (b : Nat) : Word := v ||| BitVec.ofNat 32 (2 ^ b)
/-- A word with bit `b` clear. -/
def vClr (v : Word) (b : Nat) : Word := v &&& ~~~ (BitVec.ofNat 32 (2 ^ b))

/-- APPDIV_WRITE (01 R14): A trusted write of CLK.APPDIV starts an operating-point change of a player. -/
def execAppdivWrite (who : Nat) (v : Word) (s : State) : Out := .next (s.access who CLK.APPDIV (some v))

/-- SOFTWARE_RESET (04 R98): A trusted write of 0xA5 to SYS.SWRST.KEY causes a main reset. -/
def execSoftwareReset (who : Nat) (v : Word) (s : State) : Out := .next (s.access who SYS.SWRST (some (withBits v 7 0 0xA5)))

/-- PLAYER_RESET (04 R98): A trusted write of SYS.PLAYHOLD.RST resets one core, keeping its TCM. -/
def execPlayerReset (who : Nat) (n : Fin 5) (v : Word) (s : State) : Out := .next (s.access who SYS.PLAYHOLD (some (vSet v (8 + n))))

/-- PLAYER_HOLD_SET (04 R107): Setting a hold bit stops the core at a bundle boundary. -/
def execPlayerHoldSet (who : Nat) (n : Fin 5) (v : Word) (s : State) : Out := .next (s.access who SYS.PLAYHOLD (some (vSet v n)))

/-- PLAYER_HOLD_RELEASE (04 R87): Clearing a hold bit starts the core at its SYS.ENTRYn, ignored in STARTUP and RECOVERY. -/
def execPlayerHoldRelease (who : Nat) (n : Fin 5) (v : Word) (s : State) : Out := .next (s.access who SYS.PLAYHOLD (some (vClr v n)))

/-- BOOTSEL_NEXT (04 R102): A write of 1 to SYS.BOOTSEL.NEXT rejects the active block and selects the next candidate. -/
def execBootselNext (who : Nat) (v : Word) (s : State) : Out := .next (s.access who SYS.BOOTSEL (some (vSet v 1)))

/-- HEALTH_START (04 R103): Writing SYS.HEALTH.START starts the health timer. -/
def execHealthStart (who : Nat) (v : Word) (s : State) : Out := .next (s.access who SYS.HEALTH (some (vClr (vSet v 0) 1)))

/-- HEALTH_STOP (04 R103): Writing SYS.HEALTH.STOP stops the timer and ends any grace period. -/
def execHealthStop (who : Nat) (v : Word) (s : State) : Out := .next (s.access who SYS.HEALTH (some (vSet v 1)))

/-- PHASE_WRITE (04 R105): A trusted write of SYS.PHASE changes the phase where permitted. -/
def execPhaseWrite (who : Nat) (v : Word) (s : State) : Out := .next (s.access who SYS.PHASE (some v))

/-- MIGRATION_GO (05 R115): A trusted GO reserves the destination, sets PTE.M and starts the page copy. -/
def execMigrationGo (who : Nat) (c : Fin 2) (v : Word) (s : State) : Out := .next (s.access who (STG.MIGCTRL c) (some (vSet v 0)))

/-- MIGSTAT_READ (05 R115): The policy reads the migration status; DONE or ABORT is counted and the channel returns to IDLE. -/
def execMigstatRead (who : Nat) (c : Fin 2) (s : State) : Out := .next (s.access who (STG.MIGSTAT c) none)

/-- STG_FROZEN_CLEAR (05 R125): Trusted firmware clears STG.STATUS.FROZEN and the stage manager leaves freeze handling. -/
def execStgFrozenClear (who : Nat) (v : Word) (s : State) : Out := .next (s.access who STG.STATUS (some (vSet v 9)))

/-- DISPATCH_ENABLE (05 R127): Setting STG.CTRL.DISPATCH from 0 to 1 runs the dispatcher. -/
def execDispatchEnable (who : Nat) (v : Word) (s : State) : Out := .next (s.access who STG.CTRL (some (vSet v 1)))

/-- TRIGQ_WRITE (05 R136): A trusted write of STG.TRIGQk sets the queue and clears MISSED. -/
def execTrigqWrite (who : Nat) (k : Fin 16) (v : Word) (s : State) : Out := .next (s.access who (STG.TRIGQ k) (some v))

/-- STG_RUN_READ (05 R136): A read of STG.RUNn by its player or a trusted initiator clears NEW. -/
def execStgRunRead (who : Nat) (n : Fin 4) (s : State) : Out := .next (s.access who (STG.RUN n) none)

/-- QUEUE_PUSH_ENQUEUE (05 R132): A QnPUSH write enqueues DATA on an ESIZE-4 queue. -/
def execQueuePushEnqueue (who : Nat) (q : Fin 128) (v : Word) (s : State) : Out := .next (s.access who (QUE.QPUSH q) (some v))

/-- QUEUE_PUSH_RELEASE (05 R133): A QnPUSH write with bit 31 releases held elements, moving FREE. -/
def execQueuePushRelease (who : Nat) (q : Fin 128) (v : Word) (s : State) : Out := .next (s.access who (QUE.QPUSH q) (some (vSet v 31)))

/-- QUEUE_POP (05 R132): A QnPOP read performs a non-stalling dequeue. -/
def execQueuePop (who : Nat) (q : Fin 128) (s : State) : Out := .next (s.access who (QUE.QPOP q) none)

/-- QUEUE_ENABLE (05 R135): Setting EN checks the ring geometry and enables the queue or sets CFGERR. -/
def execQueueEnable (who : Nat) (q : Fin 128) (v : Word) (s : State) : Out := .next (s.access who (QUE.QCFG q) (some (vSet v 10)))

/-- QUEUE_DISABLE (05 R135): Clearing EN makes operations fail with code 2 and completes stalled deqs. -/
def execQueueDisable (who : Nat) (q : Fin 128) (v : Word) (s : State) : Out := .next (s.access who (QUE.QCFG q) (some (vClr v 10)))

/-- QUEUE_CLEAR (05 R135): Writing CLR while disabled clears indices, COUNT and HELD. -/
def execQueueClear (who : Nat) (q : Fin 128) (v : Word) (s : State) : Out := .next (s.access who (QUE.QCFG q) (some (vClr (vSet v 11) 10)))

/-- QUEUE_CLEAR_DROPS (05 R132): Writing QnSTAT.CLRD clears DROPS for a permitted initiator. -/
def execQueueClearDrops (who : Nat) (q : Fin 128) (v : Word) (s : State) : Out := .next (s.access who (QUE.QSTAT q) (some (vSet v 23)))

/-- DRAM_SPEED_SWITCH (06 R150): A write changing LOWSPEED starts a frequency set-point switch. -/
def execDramSpeedSwitch (who : Nat) (v : Word) (s : State) : Out := .next (s.access who DMC.CTRL (some (withBits v 1 1 (1 - s.fld DMC.CTRL 1 1))))

/-- DRAM_RETRAIN (06 R150): RETRAIN while frozen or disabled starts a retrain of the present set point. -/
def execDramRetrain (who : Nat) (v : Word) (s : State) : Out := .next (s.access who DMC.CTRL (some (vSet v 3)))

/-- CHANNEL1_OFF (06 R156): Writing CH1OFF = 1 with interleave off powers channel 1 down, else CFGERR. -/
def execChannel1Off (who : Nat) (v : Word) (s : State) : Out := .next (s.access who DMC.CTRL (some (vSet v 2)))

/-- CHANNEL1_ON (06 R156): Writing CH1OFF = 0 powers channel 1 up and retrains it. -/
def execChannel1On (who : Nat) (v : Word) (s : State) : Out := .next (s.access who DMC.CTRL (some (vClr v 2)))

/-- DIAG_READ (06 R159): A diagnostic read bypasses ECC and returns raw data and syndrome. -/
def execDiagRead (who : Nat) (s : State) : Out := .next (s.access who DMC.DIAGCTRL (some 1))

/-- DIAG_WRITE (06 R159): A diagnostic write stores raw data and check byte. -/
def execDiagWrite (who : Nat) (s : State) : Out := .next (s.access who DMC.DIAGCTRL (some 2))

/-- DIAG_POISON (06 R161): A diagnostic poison rewrites the word with its check byte inverted. -/
def execDiagPoison (who : Nat) (s : State) : Out := .next (s.access who DMC.DIAGCTRL (some 4))

/-- RELEASE_RESUME (06 R160): A RESUME release clears the capture and resumes service. -/
def execReleaseResume (who : Nat) (s : State) : Out := .next (s.access who DMC.FREEZE (some 0x10))

/-- RELEASE_SCRUB (06 R160): A SCRUB release reads every valid frame, poisoning uncorrectable words. -/
def execReleaseScrub (who : Nat) (s : State) : Out := .next (s.access who DMC.FREEZE (some 0x20))

/-- RELEASE_RESET (06 R160): A RESET release clears the validity map and retrains, losing contents. -/
def execReleaseReset (who : Nat) (s : State) : Out := .next (s.access who DMC.FREEZE (some 0x30))

/-- DMC_ADDRMAP_WRITE (06 R161): A write to ADDRMAP while disabled sets GRAIN and clears the validity map, else CFGERR. -/
def execDmcAddrmapWrite (who : Nat) (v : Word) (s : State) : Out := .next (s.access who DMC.ADDRMAP (some v))

/-- POISONQ_READ (06 R161): A read of DMC.POISONQ pops the oldest poisoned frame number. -/
def execPoisonqRead (who : Nat) (s : State) : Out := .next (s.access who DMC.POISONQ none)

/-- CECOUNT_READ (06 R161): A read of DMC.CECOUNT returns and clears the CE and POISON counts. -/
def execCecountRead (who : Nat) (s : State) : Out := .next (s.access who DMC.CECOUNT none)

/-- FLASH_JREADY_SET (07 R172): Trusted firmware sets JREADY after recovery and queued descriptors become eligible. -/
def execFlashJreadySet (who : Nat) (v : Word) (s : State) : Out := .next (s.access who FLC.CTRL (some (vSet v 0)))

/-- FLC_ECCCNT_READ (07 R189): A read of FLC.ECCCNT returns and clears the counts. -/
def execFlcEcccntRead (who : Nat) (s : State) : Out := .next (s.access who FLC.ECCCNT none)

/-- STALLMAX_READ (07 R189): A read of FLC.STALLMAX returns and clears the longest wait. -/
def execStallmaxRead (who : Nat) (s : State) : Out := .next (s.access who FLC.STALLMAX none)

/-- MRC_ECCCNT_READ (07 R190): A read of MRC.ECCCNT returns and clears the counts. -/
def execMrcEcccntRead (who : Nat) (s : State) : Out := .next (s.access who MRC.ECCCNT none)

/-- DEMOD_ENABLE (08 R193): Setting a demodulator's EN enables it in SEARCH or is refused with CFGERR. -/
def execDemodEnable (who : Nat) (n : Fin 64) (v : Word) (s : State) : Out := .next (s.access who (CH.CH_CFG n) (some (vSet v 12)))

/-- DEMOD_DISABLE (08 R194): Clearing EN abandons any frame and returns the demodulator to OFF. -/
def execDemodDisable (who : Nat) (n : Fin 64) (v : Word) (s : State) : Out := .next (s.access who (CH.CH_CFG n) (some (vClr v 12)))

/-- RXC_APPLY (08 R205): Writing APPLY validates staged values and applies them now or pending. -/
def execRxcApply (who : Nat) (v : Word) (s : State) : Out := .next (s.access who RXC.CTRL (some (vSet v 2)))

/-- RECEIVER_ENABLE (08 R211): Setting RXC.CTRL.EN starts the receiver. -/
def execReceiverEnable (who : Nat) (v : Word) (s : State) : Out := .next (s.access who RXC.CTRL (some (vSet v 0)))

/-- RECEIVER_DISABLE (08 R205): Clearing RXC.CTRL.EN abandons frames and stops the receiver. -/
def execReceiverDisable (who : Nat) (v : Word) (s : State) : Out := .next (s.access who RXC.CTRL (some (vClr v 0)))

/-- TSLO_READ (08 R213): A read of RXC.CHn.TSLO latches TSHI. -/
def execTsloRead (who : Nat) (n : Fin 64) (s : State) : Out := .next (s.access who (CH.CH_TSLO n) none)

/-- RXC_CNT0_READ (08 R213): A read of RXC.CHn.CNT0 returns and clears DET and SYNC. -/
def execRxcCnt0Read (who : Nat) (n : Fin 64) (s : State) : Out := .next (s.access who (CH.CH_CNT0 n) none)

/-- RXC_CNT1_READ (08 R213): A read of RXC.CHn.CNT1 returns and clears HDRERR and FRAMES. -/
def execRxcCnt1Read (who : Nat) (n : Fin 64) (s : State) : Out := .next (s.access who (CH.CH_CNT1 n) none)

/-- RXC_CNT2_READ (08 R213): A read of RXC.CHn.CNT2 returns and clears TRUNC and ABANDON. -/
def execRxcCnt2Read (who : Nat) (n : Fin 64) (s : State) : Out := .next (s.access who (CH.CH_CNT2 n) none)

/-- AGCCNT_READ (08 R210): A read of RXC.AGCCNT returns and clears OVR and CLIPLOST. -/
def execAgccntRead (who : Nat) (s : State) : Out := .next (s.access who RXC.AGCCNT none)

/-- CWCNT_READ (09 R239): A read of FEC.CWCNT returns and clears OK and FAIL. -/
def execCwcntRead (who : Nat) (s : State) : Out := .next (s.access who FEC.CWCNT none)

/-- FRMCNT_READ (09 R239): A read of FEC.FRMCNT returns and clears the frame counts. -/
def execFrmcntRead (who : Nat) (s : State) : Out := .next (s.access who FEC.FRMCNT none)

/-- ITERSUM_READ (09 R239): A read of FEC.ITERSUM returns and clears the iteration sum. -/
def execItersumRead (who : Nat) (s : State) : Out := .next (s.access who FEC.ITERSUM none)

/-- ITERMAX_READ (09 R239): A read of FEC.ITERMAX returns and clears it. -/
def execItermaxRead (who : Nat) (s : State) : Out := .next (s.access who FEC.ITERMAX none)

/-- HDRCNT_READ (09 R239): A read of FEC.HDRCNT returns and clears it. -/
def execHdrcntRead (who : Nat) (s : State) : Out := .next (s.access who FEC.HDRCNT none)

/-- LATMAX_READ (09 R239): A read of FEC.LATMAX returns and clears it. -/
def execLatmaxRead (who : Nat) (s : State) : Out := .next (s.access who FEC.LATMAX none)

/-- VITCNT_READ (09 R239): A read of FEC.VITCNT returns and clears it. -/
def execVitcntRead (who : Nat) (s : State) : Out := .next (s.access who FEC.VITCNT none)

/-- RFE_VCOCAL (10 R265): Writing RFE.CTRL.VCOCAL sets CALDUE. -/
def execRfeVcocal (who : Nat) (v : Word) (s : State) : Out := .next (s.access who RFE.CTRL (some (vSet v 2)))

/-- TX_ABORT (10 R252): Writing TXC.CTRL.ABORT ends the committed transmission ABORTED. -/
def execTxAbort (who : Nat) (v : Word) (s : State) : Out := .next (s.access who TXC.CTRL (some (vSet v 1)))

/-- TX_DISABLE (10 R252): Clearing TXC.CTRL.EN aborts the committed transmission and stops commits. -/
def execTxDisable (who : Nat) (v : Word) (s : State) : Out := .next (s.access who TXC.CTRL (some (vClr v 0)))

/-- TXC_CNT_READ (10 R263): A read of TXC.CNT returns and clears it. -/
def execTxcCntRead (who : Nat) (s : State) : Out := .next (s.access who TXC.CNT none)

/-- AIRTIME_READ (10 R263): A read of TXC.AIRTIME returns and clears it. -/
def execAirtimeRead (who : Nat) (s : State) : Out := .next (s.access who TXC.AIRTIME none)

/-- MASKSTAT_READ (10 R263): A read of TXC.MASKSTAT returns and clears it. -/
def execMaskstatRead (who : Nat) (s : State) : Out := .next (s.access who TXC.MASKSTAT none)

/-- MASKWORST_READ (10 R263): A read of TXC.MASKWORST returns and clears it. -/
def execMaskworstRead (who : Nat) (s : State) : Out := .next (s.access who TXC.MASKWORST none)

/-- TUNESTAT_READ (10 R265): A read of RFE.TUNESTAT restarts its maximum |Γ|. -/
def execTunestatRead (who : Nat) (s : State) : Out := .next (s.access who RFE.TUNESTAT none)

/-- LNK_ENABLE (11 R284): Setting LNK.CTRL.EN after reset sets FLOOR to the present time. -/
def execLnkEnable (who : Nat) (v : Word) (s : State) : Out := .next (s.access who LNK.CTRL (some (vSet v 0)))

/-- LNK_DISABLE (11 R293): Clearing LNK.CTRL.EN discards frames and drops pending relays and ACK. -/
def execLnkDisable (who : Nat) (v : Word) (s : State) : Out := .next (s.access who LNK.CTRL (some (vClr v 0)))

/-- ACKEN_DISABLE (11 R293): Clearing ACKEN drops uncommitted ACKs. -/
def execAckenDisable (who : Nat) (v : Word) (s : State) : Out := .next (s.access who LNK.CTRL (some (vClr v 1)))

/-- RELAYEN_DISABLE (11 R293): Clearing RELAYEN drops uncommitted relays and releases their elements. -/
def execRelayenDisable (who : Nat) (v : Word) (s : State) : Out := .next (s.access who LNK.CTRL (some (vClr v 2)))

/-- EXTEN_ENABLE (11 R283): Setting EXTEN starts clearing the extension's V bits. -/
def execExtenEnable (who : Nat) (v : Word) (s : State) : Out := .next (s.access who LNK.CTRL (some (vSet v 3)))

/-- EXTEN_DISABLE (11 R293): Clearing EXTEN acts as an extension loss without the event. -/
def execExtenDisable (who : Nat) (v : Word) (s : State) : Out := .next (s.access who LNK.CTRL (some (vClr v 3)))

/-- POOL_CONFIG_WRITE (11 R293): A write of POOLCFG or POOLBASE is refused while any buffer is in use. -/
def execPoolConfigWrite (who : Nat) (base : Bool) (v : Word) (s : State) : Out := .next (s.access who (if base then LNK.POOLBASE else LNK.POOLCFG) (some v))

/-- CNTRX_READ (11 R294): A read of LNK.CNTRX returns and clears it. -/
def execCntrxRead (who : Nat) (s : State) : Out := .next (s.access who LNK.CNTRX none)

/-- CNTREJ_READ (11 R294): A read of LNK.CNTREJ returns and clears it. -/
def execCntrejRead (who : Nat) (s : State) : Out := .next (s.access who LNK.CNTREJ none)

/-- CNTSEC_READ (11 R294): A read of LNK.CNTSEC returns and clears it. -/
def execCntsecRead (who : Nat) (s : State) : Out := .next (s.access who LNK.CNTSEC none)

/-- CNTDROP_READ (11 R294): A read of LNK.CNTDROP returns and clears it. -/
def execCntdropRead (who : Nat) (s : State) : Out := .next (s.access who LNK.CNTDROP none)

/-- CNTACK_READ (11 R294): A read of LNK.CNTACK returns and clears it. -/
def execCntackRead (who : Nat) (s : State) : Out := .next (s.access who LNK.CNTACK none)

/-- CNTRLY_READ (11 R294): A read of LNK.CNTRLY returns and clears it. -/
def execCntrlyRead (who : Nat) (s : State) : Out := .next (s.access who LNK.CNTRLY none)

/-- CNTRLYD_READ (11 R294): A read of LNK.CNTRLYD returns and clears it. -/
def execCntrlydRead (who : Nat) (s : State) : Out := .next (s.access who LNK.CNTRLYD none)

/-- CNTOVL_READ (11 R294): A read of LNK.CNTOVL returns and clears it. -/
def execCntovlRead (who : Nat) (s : State) : Out := .next (s.access who LNK.CNTOVL none)

/-- NT_ADJUST (12 R299): A write of LNK.NTADJ slews or steps network time. -/
def execNtAdjust (who : Nat) (v : Word) (s : State) : Out := .next (s.access who LNK.NTADJ (some v))

/-- NT_SET (12 R299): A write of LNK.NTSETHI sets network time at the next increment. -/
def execNtSet (who : Nat) (v : Word) (s : State) : Out := .next (s.access who LNK.NTSETHI (some v))

/-- NT_READ (12 R300): A read of LNK.NTLO latches NTHI and NTSEC. -/
def execNtRead (who : Nat) (s : State) : Out := .next (s.access who LNK.NTLO none)

/-- TRACKER_ROOT (12 R313): Setting BCNCFG.ROOT makes the node the time root. -/
def execTrackerRoot (who : Nat) (v : Word) (s : State) : Out := .next (s.access who LNK.BCNCFG (some (vSet v 1)))

/-- TRACKER_DISABLE (12 R313): Clearing TRACKEN leaves NT free-running in OFF. -/
def execTrackerDisable (who : Nat) (v : Word) (s : State) : Out := .next (s.access who LNK.BCNCFG (some (vClr (vClr v 0) 1)))

/-- TRACKER_ENABLE (12 R313): Setting TRACKEN with ROOT clear enters UNSYNC. -/
def execTrackerEnable (who : Nat) (v : Word) (s : State) : Out := .next (s.access who LNK.BCNCFG (some (vClr (vSet v 0) 1)))

/-- PARENT_WRITE (12 R313): A write of the parent address moves a synced tracker to LOST. -/
def execParentWrite (who : Nat) (hi : Bool) (v : Word) (s : State) : Out := .next (s.access who (if hi then LNK.PARENT1 else LNK.PARENT0) (some v))

/-- SCHCNT_READ (12 R318): A read of LNK.SCHCNT returns and clears it. -/
def execSchcntRead (who : Nat) (s : State) : Out := .next (s.access who LNK.SCHCNT none)

/-- CNTBCN_READ (12 R318): A read of LNK.CNTBCN returns and clears it. -/
def execCntbcnRead (who : Nat) (s : State) : Out := .next (s.access who LNK.CNTBCN none)

/-- HUB_SWTRIG (13 R321): A write to HUB.SWTRIG triggers the named sheets. -/
def execHubSwtrig (who : Nat) (v : Word) (s : State) : Out := .next (s.access who HUB.SWTRIG (some v))

/-- SHEET_DISABLE (13 R342): Clearing a sheet's EN mid-run aborts it and switches off its power. -/
def execSheetDisable (who : Nat) (n : Fin 32) (v : Word) (s : State) : Out := .next (s.access who (HUB.SHCFG n) (some (vClr v 0)))

/-- HUB_DISABLE (13 R342): Clearing HUB.CTRL.EN aborts every running sheet. -/
def execHubDisable (who : Nat) (v : Word) (s : State) : Out := .next (s.access who HUB.CTRL (some (vClr v 0)))

/-- FILTER_RESET (13 R335): Writing RST clears a filter engine's history. -/
def execFilterReset (who : Nat) (k : Fin 16) (v : Word) (s : State) : Out := .next (s.access who (HUB.FLTCFG k) (some (vSet v 31)))

/-- FILTER_CONFIG_WRITE (13 R335): A FLTkCFG write changing type or parameters clears its history. -/
def execFilterConfigWrite (who : Nat) (k : Fin 16) (v : Word) (s : State) : Out := .next (s.access who (HUB.FLTCFG k) (some v))

/-- COMPARE_RESET (13 R336): Writing RST clears a compare unit. -/
def execCompareReset (who : Nat) (k : Fin 16) (v : Word) (s : State) : Out := .next (s.access who (HUB.CMPCFG k) (some (vSet v 31)))

/-- SHCNT_READ (13 R344): A read of HUB.SHnCNT returns and clears it. -/
def execShcntRead (who : Nat) (n : Fin 32) (s : State) : Out := .next (s.access who (HUB.SHCNT n) none)

/-- CUE_SOFTWARE_SIGNAL (14 R353): A write to CUE.SWSET emits an event and sets SWF. -/
def execCueSoftwareSignal (who : Nat) (hi : Bool) (v : Word) (s : State) : Out := .next (s.access who (if hi then CUE.SWSET1 else CUE.SWSET0) (some v))

/-- LOGIC_CELL_RESET (14 R358): Writing RST clears a cell's output, filter and state bits. -/
def execLogicCellReset (who : Nat) (k : Fin 16) (v : Word) (s : State) : Out := .next (s.access who (CUE.LCCFG k) (some (vSet v 31)))

/-- CHANNEL_OWNER_WRITE (14 R355): A trusted change of a channel owner clears PEN and SWF. -/
def execChannelOwnerWrite (who : Nat) (c : Fin 64) (v : Word) (s : State) : Out := .next (s.access who (CUE.CHCFG c) (some v))

/-- CELL_OWNER_WRITE (14 R355): A trusted change of a cell owner resets the cell. -/
def execCellOwnerWrite (who : Nat) (k : Fin 16) (v : Word) (s : State) : Out := .next (s.access who (CUE.LCOWN k) (some v))

/-- IRQPEND_CLEAR (14 R351): A W1C write clears a cue interrupt pending bit. -/
def execIrqpendClear (who : Nat) (p : Fin 6) (v : Word) (s : State) : Out := .next (s.access who (CUE.IRQPEND p) (some v))

/-- OVR_CLEAR (14 R354): A W1C write to CUE.OVR clears permitted overrun bits. -/
def execOvrClear (who : Nat) (hi : Bool) (v : Word) (s : State) : Out := .next (s.access who (if hi then CUE.OVR1 else CUE.OVR0) (some v))

/-- TIMER_ENABLE (15 R377): Setting EN resumes counting and outputs. -/
def execTimerEnable (who : Nat) (x : Fin 8) (v : Word) (s : State) : Out := .next (s.access who (TM.CTRL x) (some (vSet v 0)))

/-- TIMER_DISABLE (15 R377): Clearing EN holds CNT and drives IDLE. -/
def execTimerDisable (who : Nat) (x : Fin 8) (v : Word) (s : State) : Out := .next (s.access who (TM.CTRL x) (some (vClr v 0)))

/-- TIMER_CNT_WRITE (15 R372): A write of CNT takes effect in the next bus clock without event. -/
def execTimerCntWrite (who : Nat) (x : Fin 8) (v : Word) (s : State) : Out := .next (s.access who (TM.CNT x) (some v))

/-- TIMER_IMMEDIATE_WRITE (15 R370): With IMM a PER or CC write reaches the active copy at once. -/
def execTimerImmediateWrite (who : Nat) (x : Fin 8) (cc : Option (Fin 4)) (v : Word) (s : State) : Out := .next (s.access who (match cc with | some n => TM.CC x n | none => TM.PER x) (some v))

/-- TIMER_MODE_CHANGE (15 R377): A channel mode change takes effect from the next bus clock without CC event. -/
def execTimerModeChange (who : Nat) (x : Fin 8) (n : Fin 4) (v : Word) (s : State) : Out := .next (s.access who (TM.CHCFG x n) (some v))

/-- TWB_CMD (16 R382): A write of TWBk.CMD starts a controller transfer. -/
def execTwbCmd (who : Nat) (k : Fin 5) (v : Word) (s : State) : Out := .next (s.access who (TWB.CMD k) (some v))

/-- TWB_RECOVER (16 R387): Writing RECOVER.GO starts bus-clear pulsing. -/
def execTwbRecover (who : Nat) (k : Fin 5) (v : Word) (s : State) : Out := .next (s.access who (TWB.RECOVER k) (some (vSet v 0)))

/-- TWB_ATTN (16 R388): Writing ATTN.GO starts an attention write. -/
def execTwbAttn (who : Nat) (k : Fin 5) (v : Word) (s : State) : Out := .next (s.access who (TWB.ATTN k) (some (vSet v 31)))

/-- TWB_TXDATA_WRITE (16 R401): A write of TXDATA pushes a byte into the TX FIFO. -/
def execTwbTxdataWrite (who : Nat) (k : Fin 5) (v : Word) (s : State) : Out := .next (s.access who (TWB.TXDATA k) (some v))

/-- TWB_RXDATA_READ (16 R401): A read of RXDATA pops the oldest received byte. -/
def execTwbRxdataRead (who : Nat) (k : Fin 5) (s : State) : Out := .next (s.access who (TWB.RXDATA k) none)

/-- TWB_DISABLE (16 R400): Clearing TWB EN or TGTEN ends work as the role demands. -/
def execTwbDisable (who : Nat) (k : Fin 5) (v : Word) (s : State) : Out := .next (s.access who (TWB.CTRL k) (some (vClr v 0)))

/-- CSP_TXDATA_WRITE (16 R402): A write of CSPk.TXDATA pushes a frame. -/
def execCspTxdataWrite (who : Nat) (k : Fin 2) (v : Word) (s : State) : Out := .next (s.access who (CSP.TXDATA k) (some v))

/-- CSP_RXDATA_READ (16 R402): A read of CSPk.RXDATA pops the oldest frame. -/
def execCspRxdataRead (who : Nat) (k : Fin 2) (s : State) : Out := .next (s.access who (CSP.RXDATA k) none)

/-- CSP_DISABLE (16 R400): Clearing CSP EN ends the frame per role. -/
def execCspDisable (who : Nat) (k : Fin 2) (v : Word) (s : State) : Out := .next (s.access who (CSP.CTRL k) (some (vClr v 0)))

/-- HWN_DISABLE (16 R400): Clearing HWN EN releases the port and clears the staging and holding words. -/
def execHwnDisable (who : Nat) (v : Word) (s : State) : Out := .next (s.access who HWN.CTRL (some (vClr v 0)))

/-- HWN_ATTN_SET (16 R403): Setting ATTN with ATTNAUTO starts the TWB0 attention write. -/
def execHwnAttnSet (who : Nat) (v : Word) (s : State) : Out := .next (s.access who HWN.CTRL (some (vSet v 3)))

/-- OTP_PROG_OWNER (17 R406): PROG_OWNER burns an owner-key digest and CRC. -/
def execOtpProgOwner (who : Nat) (v : Word) (s : State) : Out := .next (s.access who KEY.OTPCMD (some (withBits v 3 0 1)))

/-- OTP_REVOKE (17 R406): REVOKE burns an entry's revocation fuse. -/
def execOtpRevoke (who : Nat) (v : Word) (s : State) : Out := .next (s.access who KEY.OTPCMD (some (withBits v 3 0 2)))

/-- OTP_BURN_OWNED (17 R406): BURN_OWNED burns the OWNED fuse. -/
def execOtpBurnOwned (who : Nat) (v : Word) (s : State) : Out := .next (s.access who KEY.OTPCMD (some (withBits v 3 0 3)))

/-- OTP_BURN_RETIRED (17 R406): BURN_RETIRED burns the RETIRED fuse. -/
def execOtpBurnRetired (who : Nat) (v : Word) (s : State) : Out := .next (s.access who KEY.OTPCMD (some (withBits v 3 0 4)))

/-- KEY_GENERATE (17 R415): GENERATE fills a slot with DRBG key material. -/
def execKeyGenerate (who : Nat) (v : Word) (s : State) : Out := .next (s.access who KEY.CMD (some (withBits v 3 0 1)))

/-- KEY_WRITE (17 R415): WRITE stores WDATA as a WRITTEN slot. -/
def execKeyWrite (who : Nat) (v : Word) (s : State) : Out := .next (s.access who KEY.CMD (some (withBits v 3 0 2)))

/-- KEY_DERIVE (17 R415): DERIVE derives a slot from a KDF slot. -/
def execKeyDerive (who : Nat) (v : Word) (s : State) : Out := .next (s.access who KEY.CMD (some (withBits v 3 0 3)))

/-- KEY_DELETE (17 R415): DELETE zeroes a slot. -/
def execKeyDelete (who : Nat) (v : Word) (s : State) : Out := .next (s.access who KEY.CMD (some (withBits v 3 0 4)))

/-- KEY_SETATTR (17 R415): SETATTR narrows a slot's attributes. -/
def execKeySetattr (who : Nat) (v : Word) (s : State) : Out := .next (s.access who KEY.CMD (some (withBits v 3 0 5)))

/-- KEY_ATTEST (17 R417): ATTEST writes a signed statement for an INTERNAL slot. -/
def execKeyAttest (who : Nat) (v : Word) (s : State) : Out := .next (s.access who KEY.CMD (some (withBits v 3 0 6)))

/-- KEY_SIGNID (17 R418): SIGNID signs a digest with the identity key. -/
def execKeySignid (who : Nat) (v : Word) (s : State) : Out := .next (s.access who KEY.CMD (some (withBits v 3 0 7)))

/-- KEY_REKEY (17 R408): REKEY derives the root-derived keys and arms KEY. -/
def execKeyRekey (who : Nat) (v : Word) (s : State) : Out := .next (s.access who KEY.CMD (some (withBits v 3 0 8)))

/-- AES_CNT_READ (17 R431): A read of AES.CNT returns and clears it. -/
def execAesCntRead (who : Nat) (s : State) : Out := .next (s.access who AES.CNT none)

/-- AES_AUTHFAIL_READ (17 R431): A read of AES.AUTHFAIL returns and clears it. -/
def execAesAuthfailRead (who : Nat) (s : State) : Out := .next (s.access who AES.AUTHFAIL none)

/-- AES_MEMERR_READ (17 R431): A read of AES.MEMERR returns and clears it. -/
def execAesMemerrRead (who : Nat) (s : State) : Out := .next (s.access who AES.MEMERR none)

/-- PKA_ECDSA_SIGN (17 R427): PKA ECDSA P-256 sign. -/
def execPkaEcdsaSign (who : Nat) (s : State) : Out := .next (s.access who PKA.CMD (some 1))

/-- PKA_ECDSA_VERIFY (17 R427): PKA ECDSA P-256 verify. -/
def execPkaEcdsaVerify (who : Nat) (s : State) : Out := .next (s.access who PKA.CMD (some 2))

/-- PKA_ECDH (17 R427): PKA ECDH P-256. -/
def execPkaEcdh (who : Nat) (s : State) : Out := .next (s.access who PKA.CMD (some 3))

/-- PKA_KEYGEN (17 R427): PKA P-256 key generation. -/
def execPkaKeygen (who : Nat) (s : State) : Out := .next (s.access who PKA.CMD (some 4))

/-- PKA_POINT_CHECK (17 R427): PKA P-256 point check. -/
def execPkaPointCheck (who : Nat) (s : State) : Out := .next (s.access who PKA.CMD (some 5))

/-- PKA_X25519 (17 R427): PKA X25519. -/
def execPkaX25519 (who : Nat) (s : State) : Out := .next (s.access who PKA.CMD (some 6))

/-- HSH_INIT (17 R428): Writing HSH.CTRL.INIT starts a message. -/
def execHshInit (who : Nat) (v : Word) (s : State) : Out := .next (s.access who HSH.CTRL (some (vSet v 1)))

/-- HSH_FEED_MEMORY (17 R428): HSH.GO feeds LEN bytes from memory. -/
def execHshFeedMemory (who : Nat) (s : State) : Out := .next (s.access who HSH.GO (some 1))

/-- HSH_FEED_LAST (17 R428): HSH.GO with LAST pads after the memory feed. -/
def execHshFeedLast (who : Nat) (s : State) : Out := .next (s.access who HSH.GO (some 3))

/-- HSH_PUSHED_LAST (17 R428): HSH.GO pads after the pushed words. -/
def execHshPushedLast (who : Nat) (s : State) : Out := .next (s.access who HSH.GO (some 4))

/-- HSH_DATA_PUSH (17 R428): A write of HSH.DATA pushes a message word. -/
def execHshDataPush (who : Nat) (v : Word) (s : State) : Out := .next (s.access who HSH.DATA (some v))

/-- RNG_RESTART (17 R429): RNG.CTRL.RESTART reruns the start-up test. -/
def execRngRestart (who : Nat) (s : State) : Out := .next (s.access who RNG.CTRL (some 3))

/-- RNG_RESEED (17 R429): RNG.CTRL.RESEED reseeds the DRBG. -/
def execRngReseed (who : Nat) (s : State) : Out := .next (s.access who RNG.CTRL (some 5))

/-- RNG_DATA_READ (17 R432): A read of RNG.DATA pops 32 random bits or sets EMPTY. -/
def execRngDataRead (who : Nat) (s : State) : Out := .next (s.access who RNG.DATA none)

/-- POWER_REQUEST (18 R436): A trusted PWR.REQ write enters PREP toward SENSE, REST or BLACKOUT. -/
def execPowerRequest (who : Nat) (v : Word) (s : State) : Out := .next (s.access who PWR.REQ (some v))

/-- POWER_REQUEST_CANCEL (18 R436): A write of RUN during PREP cancels the request. -/
def execPowerRequestCancel (who : Nat) (v : Word) (s : State) : Out := .next (s.access who PWR.REQ (some (withBits v 2 0 0)))

/-- RTC_APPLY (18 R452): Writing RTC.CMD.APPLY sets BUSY and stages values. -/
def execRtcApply (who : Nat) (v : Word) (s : State) : Out := .next (s.access who RTC.CMD (some (vSet v 0)))

/-- RTC_SUBSEC_READ (18 R451): A read of RTC.SUBSEC latches the seconds and calendar snapshot. -/
def execRtcSubsecRead (who : Nat) (s : State) : Out := .next (s.access who RTC.SUBSEC none)

/-- OSF_CLEAR (18 R455): A W1C of OSF while OSCSTOP = 0 clears it. -/
def execOsfClear (who : Nat) (v : Word) (s : State) : Out := .next (s.access who RTC.STATUS (some (vSet v 0)))

/-- SVC_RXFREE (19 R467): A write of SVC.RXFREE frees a receive buffer. -/
def execSvcRxfree (who : Nat) (v : Word) (s : State) : Out := .next (s.access who SVC.RXFREE (some v))

/-- SVC_CNT_READ (19 R479): A read of SVC.CNT returns and clears it. -/
def execSvcCntRead (who : Nat) (s : State) : Out := .next (s.access who SVC.CNT none)

/-- WATCHDOG_KICK (20 R483): A trusted write of FLT.WDKICK restarts a core's watchdog. -/
def execWatchdogKick (who : Nat) (v : Word) (s : State) : Out := .next (s.access who FLT.WDKICK (some v))

/-- INJECT_ARM (20 R491): A write of FLT.INJCTRL in TEST arms an injection. -/
def execInjectArm (who : Nat) (v : Word) (s : State) : Out := .next (s.access who FLT.INJCTRL (some (vSet v 16)))

/-- CURTAIN_RECORD_CLEAR (20 R493): Writing 1 to FLT.CURTCNT bit 31 clears the violation record and count. -/
def execCurtainRecordClear (who : Nat) (v : Word) (s : State) : Out := .next (s.access who FLT.CURTCNT (some (vSet v 31)))

/-- CECNT0_READ (20 R493): A read of FLT.CECNT0 returns and clears it. -/
def execCecnt0Read (who : Nat) (s : State) : Out := .next (s.access who FLT.CECNT0 none)

/-- CECNT1_READ (20 R493): A read of FLT.CECNT1 returns and clears it. -/
def execCecnt1Read (who : Nat) (s : State) : Out := .next (s.access who FLT.CECNT1 none)

/-- DBG_HALT (20 R495): A debug-port write of DBG.HALT halts cores at a boundary. -/
def execDbgHalt (who : Nat) (v : Word) (s : State) : Out := .next (s.access who DBG.HALT (some v))

/-- PIN_CONFIG_WRITE (21 R498): A write of PIN.CFGn changes function, pull, drain and drive together. -/
def execPinConfigWrite (who : Nat) (n : Fin 48) (v : Word) (s : State) : Out := .next (s.access who (PIN.CFG n) (some v))

/-- GPIO_OUTSET (21 R502): A write of GPIO.OUTSETp sets output bits. -/
def execGpioOutset (who : Nat) (p : Fin 2) (v : Word) (s : State) : Out := .next (s.access who (GPIO.OUTSET p) (some v))

/-- GPIO_OUTCLR (21 R502): A write of GPIO.OUTCLRp clears output bits. -/
def execGpioOutclr (who : Nat) (p : Fin 2) (v : Word) (s : State) : Out := .next (s.access who (GPIO.OUTCLR p) (some v))

end Sys2Proof.Machine
end

