-- ==== Sys2Proof/Machine/StageRows.lean ====
section
/-! DEFINITION. The commands of the stage manager: its requests, the page walk, migration, the epoch, the dispatcher (05). -/
namespace Sys2Proof.Machine
open Sys2Proof.Reg

/-- REQ_ALLOC (05 R118, R121): the place, the access entry, the frames and the second-level tables are the policy's choice; under pressure
the policy then runs. -/
def execReqAlloc (base index acl : Nat) (fs tables : List (Nat × Nat)) (s : State) : Out :=
  let s := serveRequest s false (fun k => k == 1) (fun s q => allocProp s q base index acl fs tables)
  .next (s.when (underPressure s) policyRun)
/-- REQ_FREE (05 R121). -/
def execReqFree (s : State) : Out := .next (serveRequest s false (fun k => k == 2) freeProp)
/-- REQ_HINT (05 R121). -/
def execReqHint (s : State) : Out := .next (serveRequest s false (fun k => k == 3) hintProp)
/-- REQ_PIN (05 R119). -/
def execReqPin (s : State) : Out := .next (serveRequest s false (fun k => k == 4) pinProp)
/-- REQ_UNPIN (05 R121). -/
def execReqUnpin (s : State) : Out := .next (serveRequest s false (fun k => k == 5) unpinProp)
/-- REQ_QUERY (05 R121). -/
def execReqQuery (s : State) : Out := .next (serveRequest s false (fun k => k == 6) queryProp)
/-- REQ_SEAL (05 R121). -/
def execReqSeal (s : State) : Out := .next (serveRequest s false (fun k => k == 7) sealProp)
/-- REQ_UNSEAL (05 R121): `fs` are the T2 frames the policy chose for pages in T4. -/
def execReqUnseal (fs : List Nat) (s : State) : Out := .next (serveRequest s false (fun k => k == 8) (fun s q => unsealProp s q fs))
/-- REQ_DONE (05 R127). -/
def execReqDone (s : State) : Out := .next (serveRequest s true (fun k => k == 0x10) doneTask)

/-- 05 R121: the kinds that are defined. -/
def kindDefined (k : Nat) : Bool := decide (1 ≤ k) && decide (k ≤ 8) || k == 0x10

/-- REQ_BAD_KIND (05 R120): a request of an undefined KIND is answered BAD_KIND. -/
def execReqBadKind (s : State) : Out := .next (serveRequest s false (fun k => !kindDefined k) (fun s _ => ({ status := 8 }, s)))

/-- PAGE_WALK (05 R113, R114): an initiator's scene access is translated, with its walk on a TLB miss, where the walker meets `e`. -/
def execPageWalk (who a : Nat) (write : Bool) (e : Ecc) (s : State) : Out :=
  if isScene a then
    match translate s who (if write then .write else .read) a true e with
    | (.curtain, s) => .next (curtainViolation s who (BitVec.ofNat 32 a) write)
    | (_, s) => .next s
  else .next s

/-- MIGRATION_COPY_DONE (05 R115). -/
def execMigrationCopyDone (c : Fin 2) (s : State) : Out := .next (migCopyDone s c)
/-- MIGRATION_PASS_DONE (05 R115). -/
def execMigrationPassDone (c : Fin 2) (s : State) : Out := .next (migPassDone s c)
/-- MIGRATION_FINAL_DONE (05 R115). -/
def execMigrationFinalDone (c : Fin 2) (s : State) : Out := .next (migFinalDone s c)

/-- EPOCH_BOUNDARY (05 R117): the epoch counts up, the sweep starts, the budget of the epoch is granted. -/
def execEpochBoundary (s : State) : Out :=
  let s := (s.wr STG.EPOCH (s.rd STG.EPOCH + 1)).setBit STG.STATUS 8 true
  .next (s.upStg (fun g => { g with budget := s.fld STG.MIGCFG 31 16 }))

/-- SWEEP_DONE (05 R117, R118): the sweep ends and the policy runs. -/
def execSweepDone (s : State) : Out :=
  if s.bit STG.STATUS 8 then
    .next (policyRun ((sweepPages s).setBit STG.STATUS 8 false))
  else .next s

/-- DISPATCHER_RUN (05 R127). -/
def execDispatcherRun (s : State) : Out := .next (dispatchRun s)

end Sys2Proof.Machine
end

