-- ==== Sys2Proof/Machine/Tick.lean ====
section
/-! DEFINITION. One tick of 31.25 ns with no command waiting: what happens by time alone (log 6): network time, the RTC, the watchdogs, and
the counts of seconds and milliseconds. -/
namespace Sys2Proof.Machine
open Sys2Proof.Reg

/-! ### Network time -/

/-- 12 R297: `LNK.NTRATE` in ppb. -/
def ntRate (s : State) : Int := clampI (-2000) 2000 (sint 16 (s.fld LNK.NTRATE 15 0))

/-- 12 R297: network time advances by a number of 10^-13 ticks, whole ticks at a time; the rest is kept. -/
def ntAdvance (s : State) (units : Int) : State :=
  let x := (Int.ofNat s.ntime.frac + units).toNat
  match s.ntime.set with
  | some v => (ntSlew (ntStep s v) 0).upTime (fun t => { t with set := none })
  | none => { s with nt := s.nt + BitVec.ofNat 64 (x / 10000000000000), ntime := { s.ntime with frac := x % 10000000000000 } }

/-- 12 R299: `ticks` ticks of a slew, which moves NT by one tick in 2^SLEWLOG. -/
def ntSlewStep (s : State) (ticks : Nat) : State :=
  if s.ntime.slew = 0 then s
  else
    let every := 2 ^ clamp 6 14 (s.fld LNK.NTCFG 11 8)
    let n := min ((s.ntime.slewAcc + ticks) / every) s.ntime.slew.natAbs
    let d : Int := if s.ntime.slew < 0 then -(Int.ofNat n) else Int.ofNat n
    let s := { s with nt := s.nt + BitVec.ofInt 64 d,
                      ntime := { s.ntime with slew := s.ntime.slew - d, slewAcc := (s.ntime.slewAcc + ticks) % every } }
    if s.ntime.slew = 0 then s.setBit LNK.NTSTAT 4 false else s

/-- 12 R299: BACKHOLD clears when NT has reached its old highest value. -/
def ntBackhold (s : State) : State :=
  if s.bit LNK.NTSTAT 5 ∧ s.ntime.top.toNat ≤ s.nt.toNat then s.setBit LNK.NTSTAT 5 false else s

/-- 12 R297: whether the high-frequency tick carries network time. -/
def ntFast (s : State) : Bool := !s.bit LNK.NTSTAT 7 && s.bit CLK.STATUS 1

/-- 12 R297: one tick of network time while HFXO runs. -/
def ntTick (s : State) : State :=
  if ntFast s then ntBackhold (ntSlewStep (ntAdvance s ((1000000000 + ntRate s - xtalApplied s) * 10000)) 1) else s

/-- 12 R297: one XO32 period of network time while HFXO is stopped. -/
def ntEdge (s : State) : State :=
  if ntFast s then s
  else
    let r := ntRate s - trimResidual s
    ntBackhold (ntSlewStep (ntAdvance s ((1000000000 + r) * 9765625)) 977)

/-- 01 R12, 18 R450: XO32 has an edge every 976.5625 ticks, unless it has stopped. -/
def xoTick (s : State) : State :=
  if s.bit RTC.STATUS 1 then s
  else
    let x := s.ntime.xo + 16
    if x < 15625 then s.upTime (fun t => { t with xo := x }) else ntEdge (rtcEdge (s.upTime (fun t => { t with xo := x - 15625 })))

/-! ### Counts -/

/-- 20 R483, R484: one unit of 1/1024 s of a core's watchdog, which XO32 counts. -/
def wdTick (s : State) (p : Fin 6) : State :=
  if wdRuns s p then
    let left := s.fld (FLT.WDSTAT p.val) 15 0
    let n := (if left = 0 then s.fld (FLT.WDCFG p.val) 15 0 else left) - 1
    let s := s.setFld (FLT.WDSTAT p.val) 15 0 n
    if n = 0 then wdExpire s p 0 else if n = wdPre s p.val then wdPreExpire s p else s
  else if s.dom (coreDom p) = .on then s
  else wdRestart s p

/-- What a full second changes: the age of network time and its state (12 R302, R304), the health timer (04 R103), the load of the hub
(13 R343). -/
def secondTick (s : State) : State :=
  let s := if trkState s = 0 ∨ (s.rd LNK.NTAGE).toNat = 0xFFFFFFFF then s else s.wr LNK.NTAGE (s.rd LNK.NTAGE + 1)
  let s := ntStat s
  let s := s.setFld HUB.STATUS 25 16 (s.hub.busy * 1000 / ticksPerSecond)
  healthSecond { s with hub := { s.hub with busy := 0 } }

/-- 08 R199: the milliseconds of a frozen period of the AGC. -/
def frozenTick (s : State) : State :=
  if s.bit RXC.AGCSTAT 8 ∧ (s.uptime - s.rxc.frozenAt) % 32000 = 0 then s.bump RXC.AGCSTAT 31 16 1 else s

/-- The phases that move with every tick: the prescalers of the enabled timers (15 R363), the relay credit (11 R283), the hub's busy
time (13 R343). -/
def phaseTick (s : State) : State :=
  { s with
    timers := Vector.ofFn (prescale s)
    lnk := { s.lnk with spent := s.lnk.spent - s.fld LNK.RELAYCFG 23 20 }
    hub := { s.hub with busy := s.hub.busy + natBit ((List.finRange 32).any (fun n => sheetState s n == 1 || sheetState s n == 2)) } }

/-- 01 R12, R18: the half periods of the source of `CLKOUT` in one tick, in millionths; 0 while the source is stopped. -/
def clkHalves (s : State) : Nat :=
  match s.fld CLK.OUTSEL 2 0 with
  | 1 => if s.bit RTC.STATUS 1 then 0 else 2048
  | 2 => if rcRuns s then 1000000 else 0
  | 3 => if s.bit CLK.STATUS 1 then 2400000 else 0
  | 4 => if s.bit CLK.STATUS 3 then 4000000 else if rcRuns s then 1000000 else 0
  | _ => if s.bit CLK.STATUS 3 then 2000000 else 0

/-- 01 R18: `CLKOUT` after a tick: low for SRC 0, 6 and 7, else the source divided by 2^DIV (log 105). -/
def clkoutTick (s : State) : State :=
  let src := s.fld CLK.OUTSEL 2 0
  if src = 0 ∨ 6 ≤ src then { s with pins := { s.pins with clkout := false, clkAcc := 0 } }
  else
    let n := (s.pins.clkAcc + clkHalves s) % 65536000000
    { s with pins := { s.pins with clkAcc := n, clkout := testB (n / 1000000 / 2 ^ s.fld CLK.OUTSEL 7 4) 0 } }

/-- 05 R118: the policy runs after a fault, at the next tick. -/
def policyTick (s : State) : State := if s.stg.policyDue then policyRun s else s

/-- One tick (log 6). -/
def tick (s : State) : State :=
  let s := policyTick s
  let s : State := clkoutTick { s with uptime := s.uptime + 1 }
  let s := frozenTick (xoTick (ntTick (phaseTick s)))
  let s := if s.uptime % 31250 = 0 ∧ s.bit RTC.STATUS 1 = false then (List.finRange 6).foldl wdTick s else s
  if s.uptime % ticksPerSecond = 0 then secondTick s else s

end Sys2Proof.Machine
end

