-- ==== Sys2Proof/Machine/UnitRows.lean ====
section
/-! DEFINITION. The operations of the function units as commands: each is a bundle of one syllable `{ g? src -> unit.op }` executed at the
pc of a core (chapters 02 and 03).  `g` is the guard selector and `src` the SRC field of the syllable. -/
namespace Sys2Proof.Machine

/-- ALU_ADD (R55). -/
def execAluAdd (p : Fin 6) (alu1 : Bool) (g : Fin 8) (src : BitVec 13) (s : State) : Out := .next (runUnitOp s p (if alu1 then .alu1 else .alu0) (aluCode .add) g src none)
/-- ALU_SUB (R55). -/
def execAluSub (p : Fin 6) (alu1 : Bool) (g : Fin 8) (src : BitVec 13) (s : State) : Out := .next (runUnitOp s p (if alu1 then .alu1 else .alu0) (aluCode .sub) g src none)
/-- ALU_AND (R55). -/
def execAluAnd (p : Fin 6) (alu1 : Bool) (g : Fin 8) (src : BitVec 13) (s : State) : Out := .next (runUnitOp s p (if alu1 then .alu1 else .alu0) (aluCode .and) g src none)
/-- ALU_OR (R55). -/
def execAluOr (p : Fin 6) (alu1 : Bool) (g : Fin 8) (src : BitVec 13) (s : State) : Out := .next (runUnitOp s p (if alu1 then .alu1 else .alu0) (aluCode .or) g src none)
/-- ALU_XOR (R55). -/
def execAluXor (p : Fin 6) (alu1 : Bool) (g : Fin 8) (src : BitVec 13) (s : State) : Out := .next (runUnitOp s p (if alu1 then .alu1 else .alu0) (aluCode .xor) g src none)
/-- ALU_EQ (R55). -/
def execAluEq (p : Fin 6) (alu1 : Bool) (g : Fin 8) (src : BitVec 13) (s : State) : Out := .next (runUnitOp s p (if alu1 then .alu1 else .alu0) (aluCode .eq) g src none)
/-- ALU_LT (R55). -/
def execAluLt (p : Fin 6) (alu1 : Bool) (g : Fin 8) (src : BitVec 13) (s : State) : Out := .next (runUnitOp s p (if alu1 then .alu1 else .alu0) (aluCode .lt) g src none)
/-- ALU_LTU (R55). -/
def execAluLtu (p : Fin 6) (alu1 : Bool) (g : Fin 8) (src : BitVec 13) (s : State) : Out := .next (runUnitOp s p (if alu1 then .alu1 else .alu0) (aluCode .ltu) g src none)
/-- ALU_NE (R55). -/
def execAluNe (p : Fin 6) (alu1 : Bool) (g : Fin 8) (src : BitVec 13) (s : State) : Out := .next (runUnitOp s p (if alu1 then .alu1 else .alu0) (aluCode .ne) g src none)
/-- ALU_GE (R55). -/
def execAluGe (p : Fin 6) (alu1 : Bool) (g : Fin 8) (src : BitVec 13) (s : State) : Out := .next (runUnitOp s p (if alu1 then .alu1 else .alu0) (aluCode .ge) g src none)
/-- ALU_GEU (R55). -/
def execAluGeu (p : Fin 6) (alu1 : Bool) (g : Fin 8) (src : BitVec 13) (s : State) : Out := .next (runUnitOp s p (if alu1 then .alu1 else .alu0) (aluCode .geu) g src none)
/-- ALU_MIN (R55). -/
def execAluMin (p : Fin 6) (alu1 : Bool) (g : Fin 8) (src : BitVec 13) (s : State) : Out := .next (runUnitOp s p (if alu1 then .alu1 else .alu0) (aluCode .min) g src none)
/-- ALU_MAX (R55). -/
def execAluMax (p : Fin 6) (alu1 : Bool) (g : Fin 8) (src : BitVec 13) (s : State) : Out := .next (runUnitOp s p (if alu1 then .alu1 else .alu0) (aluCode .max) g src none)
/-- ALU_MINU (R55). -/
def execAluMinu (p : Fin 6) (alu1 : Bool) (g : Fin 8) (src : BitVec 13) (s : State) : Out := .next (runUnitOp s p (if alu1 then .alu1 else .alu0) (aluCode .minu) g src none)
/-- ALU_MAXU (R55). -/
def execAluMaxu (p : Fin 6) (alu1 : Bool) (g : Fin 8) (src : BitVec 13) (s : State) : Out := .next (runUnitOp s p (if alu1 then .alu1 else .alu0) (aluCode .maxu) g src none)
/-- ALU_SXB (R55). -/
def execAluSxb (p : Fin 6) (alu1 : Bool) (g : Fin 8) (src : BitVec 13) (s : State) : Out := .next (runUnitOp s p (if alu1 then .alu1 else .alu0) (aluCode .sxb) g src none)
/-- ALU_SXH (R55). -/
def execAluSxh (p : Fin 6) (alu1 : Bool) (g : Fin 8) (src : BitVec 13) (s : State) : Out := .next (runUnitOp s p (if alu1 then .alu1 else .alu0) (aluCode .sxh) g src none)
/-- ALU_ZXB (R55). -/
def execAluZxb (p : Fin 6) (alu1 : Bool) (g : Fin 8) (src : BitVec 13) (s : State) : Out := .next (runUnitOp s p (if alu1 then .alu1 else .alu0) (aluCode .zxb) g src none)
/-- ALU_ZXH (R55). -/
def execAluZxh (p : Fin 6) (alu1 : Bool) (g : Fin 8) (src : BitVec 13) (s : State) : Out := .next (runUnitOp s p (if alu1 then .alu1 else .alu0) (aluCode .zxh) g src none)
/-- ALU_MUL (R56). -/
def execAluMul (p : Fin 6) (g : Fin 8) (src : BitVec 13) (s : State) : Out := .next (runUnitOp s p .alu0 (aluCode .mul) g src none)
/-- ALU_MULH (R56). -/
def execAluMulh (p : Fin 6) (g : Fin 8) (src : BitVec 13) (s : State) : Out := .next (runUnitOp s p .alu0 (aluCode .mulh) g src none)
/-- MUL_MUL (R57). -/
def execMulMul (p : Fin 6) (g : Fin 8) (src : BitVec 13) (s : State) : Out := .next (runUnitOp s p .mul (mulCode .mul) g src none)
/-- MUL_MULH (R57). -/
def execMulMulh (p : Fin 6) (g : Fin 8) (src : BitVec 13) (s : State) : Out := .next (runUnitOp s p .mul (mulCode .mulh) g src none)
/-- MUL_MULHU (R57). -/
def execMulMulhu (p : Fin 6) (g : Fin 8) (src : BitVec 13) (s : State) : Out := .next (runUnitOp s p .mul (mulCode .mulhu) g src none)
/-- MUL_MAC (R57). -/
def execMulMac (p : Fin 6) (g : Fin 8) (src : BitVec 13) (s : State) : Out := .next (runUnitOp s p .mul (mulCode .mac) g src none)
/-- MUL_MACU (R57). -/
def execMulMacu (p : Fin 6) (g : Fin 8) (src : BitVec 13) (s : State) : Out := .next (runUnitOp s p .mul (mulCode .macu) g src none)
/-- MUL_ACCW (R57). -/
def execMulAccw (p : Fin 6) (g : Fin 8) (src : BitVec 13) (s : State) : Out := .next (runUnitOp s p .mul (mulCode .accw) g src none)
/-- MUL_DIV (R60). -/
def execMulDiv (p : Fin 6) (g : Fin 8) (src : BitVec 13) (s : State) : Out := .next (runUnitOp s p .mul (mulCode .div) g src none)
/-- MUL_DIVU (R60). -/
def execMulDivu (p : Fin 6) (g : Fin 8) (src : BitVec 13) (s : State) : Out := .next (runUnitOp s p .mul (mulCode .divu) g src none)
/-- MUL_REM (R60). -/
def execMulRem (p : Fin 6) (g : Fin 8) (src : BitVec 13) (s : State) : Out := .next (runUnitOp s p .mul (mulCode .rem) g src none)
/-- MUL_REMU (R60). -/
def execMulRemu (p : Fin 6) (g : Fin 8) (src : BitVec 13) (s : State) : Out := .next (runUnitOp s p .mul (mulCode .remu) g src none)
/-- SHF_SLL (R61). -/
def execShfSll (p : Fin 6) (g : Fin 8) (src : BitVec 13) (s : State) : Out := .next (runUnitOp s p .shf (shfCode .sll) g src none)
/-- SHF_SRL (R61). -/
def execShfSrl (p : Fin 6) (g : Fin 8) (src : BitVec 13) (s : State) : Out := .next (runUnitOp s p .shf (shfCode .srl) g src none)
/-- SHF_SRA (R61). -/
def execShfSra (p : Fin 6) (g : Fin 8) (src : BitVec 13) (s : State) : Out := .next (runUnitOp s p .shf (shfCode .sra) g src none)
/-- SHF_ROR (R61). -/
def execShfRor (p : Fin 6) (g : Fin 8) (src : BitVec 13) (s : State) : Out := .next (runUnitOp s p .shf (shfCode .ror) g src none)
/-- SHF_EXT (R61). -/
def execShfExt (p : Fin 6) (g : Fin 8) (src : BitVec 13) (s : State) : Out := .next (runUnitOp s p .shf (shfCode .ext) g src none)
/-- SHF_EXTS (R61). -/
def execShfExts (p : Fin 6) (g : Fin 8) (src : BitVec 13) (s : State) : Out := .next (runUnitOp s p .shf (shfCode .exts) g src none)
/-- SHF_INS (R61). -/
def execShfIns (p : Fin 6) (g : Fin 8) (src : BitVec 13) (s : State) : Out := .next (runUnitOp s p .shf (shfCode .ins) g src none)
/-- SHF_FSR (R61). -/
def execShfFsr (p : Fin 6) (g : Fin 8) (src : BitVec 13) (s : State) : Out := .next (runUnitOp s p .shf (shfCode .fsr) g src none)
/-- SHF_CLZ (R61). -/
def execShfClz (p : Fin 6) (g : Fin 8) (src : BitVec 13) (s : State) : Out := .next (runUnitOp s p .shf (shfCode .clz) g src none)
/-- SHF_POP (R61). -/
def execShfPop (p : Fin 6) (g : Fin 8) (src : BitVec 13) (s : State) : Out := .next (runUnitOp s p .shf (shfCode .pop) g src none)
/-- SHF_REV (R61). -/
def execShfRev (p : Fin 6) (g : Fin 8) (src : BitVec 13) (s : State) : Out := .next (runUnitOp s p .shf (shfCode .rev) g src none)
/-- SHF_BSWAP (R61). -/
def execShfBswap (p : Fin 6) (g : Fin 8) (src : BitVec 13) (s : State) : Out := .next (runUnitOp s p .shf (shfCode .bswap) g src none)
/-- SIMD_ADD_B (R62). -/
def execSimdAddB (p : Fin 6) (g : Fin 8) (src : BitVec 13) (s : State) : Out := .next (runUnitOp s p .simd (simdCode .addB) g src none)
/-- SIMD_SUB_B (R62). -/
def execSimdSubB (p : Fin 6) (g : Fin 8) (src : BitVec 13) (s : State) : Out := .next (runUnitOp s p .simd (simdCode .subB) g src none)
/-- SIMD_ADDS_B (R62). -/
def execSimdAddsB (p : Fin 6) (g : Fin 8) (src : BitVec 13) (s : State) : Out := .next (runUnitOp s p .simd (simdCode .addsB) g src none)
/-- SIMD_ADDUS_B (R62). -/
def execSimdAddusB (p : Fin 6) (g : Fin 8) (src : BitVec 13) (s : State) : Out := .next (runUnitOp s p .simd (simdCode .addusB) g src none)
/-- SIMD_AVGU_B (R62). -/
def execSimdAvguB (p : Fin 6) (g : Fin 8) (src : BitVec 13) (s : State) : Out := .next (runUnitOp s p .simd (simdCode .avguB) g src none)
/-- SIMD_ABSD_B (R62). -/
def execSimdAbsdB (p : Fin 6) (g : Fin 8) (src : BitVec 13) (s : State) : Out := .next (runUnitOp s p .simd (simdCode .absdB) g src none)
/-- SIMD_SAD_B (R62). -/
def execSimdSadB (p : Fin 6) (g : Fin 8) (src : BitVec 13) (s : State) : Out := .next (runUnitOp s p .simd (simdCode .sadB) g src none)
/-- SIMD_CMPEQ_B (R62). -/
def execSimdCmpeqB (p : Fin 6) (g : Fin 8) (src : BitVec 13) (s : State) : Out := .next (runUnitOp s p .simd (simdCode .cmpeqB) g src none)
/-- SIMD_SHUF_B (R62). -/
def execSimdShufB (p : Fin 6) (g : Fin 8) (src : BitVec 13) (s : State) : Out := .next (runUnitOp s p .simd (simdCode .shufB) g src none)
/-- SIMD_ADD_H (R62). -/
def execSimdAddH (p : Fin 6) (g : Fin 8) (src : BitVec 13) (s : State) : Out := .next (runUnitOp s p .simd (simdCode .addH) g src none)
/-- SIMD_SUB_H (R62). -/
def execSimdSubH (p : Fin 6) (g : Fin 8) (src : BitVec 13) (s : State) : Out := .next (runUnitOp s p .simd (simdCode .subH) g src none)
/-- SIMD_ADDS_H (R62). -/
def execSimdAddsH (p : Fin 6) (g : Fin 8) (src : BitVec 13) (s : State) : Out := .next (runUnitOp s p .simd (simdCode .addsH) g src none)
/-- SIMD_SUBS_H (R62). -/
def execSimdSubsH (p : Fin 6) (g : Fin 8) (src : BitVec 13) (s : State) : Out := .next (runUnitOp s p .simd (simdCode .subsH) g src none)
/-- SIMD_MUL_H (R62). -/
def execSimdMulH (p : Fin 6) (g : Fin 8) (src : BitVec 13) (s : State) : Out := .next (runUnitOp s p .simd (simdCode .mulH) g src none)
/-- SIMD_DOT_H (R62). -/
def execSimdDotH (p : Fin 6) (g : Fin 8) (src : BitVec 13) (s : State) : Out := .next (runUnitOp s p .simd (simdCode .dotH) g src none)
/-- SIMD_MAX_H (R62). -/
def execSimdMaxH (p : Fin 6) (g : Fin 8) (src : BitVec 13) (s : State) : Out := .next (runUnitOp s p .simd (simdCode .maxH) g src none)
/-- SIMD_MIN_H (R62). -/
def execSimdMinH (p : Fin 6) (g : Fin 8) (src : BitVec 13) (s : State) : Out := .next (runUnitOp s p .simd (simdCode .minH) g src none)
/-- LSU_LD_W (R63). -/
def execLsuLdW (p : Fin 6) (g : Fin 8) (src : BitVec 13) (e : Ecc) (s : State) : Out := .next (runUnitOp s p .lsu (lsuCode .ldW) g src none e)
/-- LSU_LD_H (R63). -/
def execLsuLdH (p : Fin 6) (g : Fin 8) (src : BitVec 13) (e : Ecc) (s : State) : Out := .next (runUnitOp s p .lsu (lsuCode .ldH) g src none e)
/-- LSU_LD_HU (R63). -/
def execLsuLdHu (p : Fin 6) (g : Fin 8) (src : BitVec 13) (e : Ecc) (s : State) : Out := .next (runUnitOp s p .lsu (lsuCode .ldHu) g src none e)
/-- LSU_LD_B (R63). -/
def execLsuLdB (p : Fin 6) (g : Fin 8) (src : BitVec 13) (e : Ecc) (s : State) : Out := .next (runUnitOp s p .lsu (lsuCode .ldB) g src none e)
/-- LSU_LD_BU (R63). -/
def execLsuLdBu (p : Fin 6) (g : Fin 8) (src : BitVec 13) (e : Ecc) (s : State) : Out := .next (runUnitOp s p .lsu (lsuCode .ldBu) g src none e)
/-- LSU_LR_W (R67). -/
def execLsuLrW (p : Fin 6) (g : Fin 8) (src : BitVec 13) (e : Ecc) (s : State) : Out := .next (runUnitOp s p .lsu (lsuCode .lrW) g src none e)
/-- LSU_ST_W (R65). -/
def execLsuStW (p : Fin 6) (g : Fin 8) (src : BitVec 13) (s : State) : Out := .next (runUnitOp s p .lsu (lsuCode .stW) g src none)
/-- LSU_ST_H (R65). -/
def execLsuStH (p : Fin 6) (g : Fin 8) (src : BitVec 13) (s : State) : Out := .next (runUnitOp s p .lsu (lsuCode .stH) g src none)
/-- LSU_ST_B (R65). -/
def execLsuStB (p : Fin 6) (g : Fin 8) (src : BitVec 13) (s : State) : Out := .next (runUnitOp s p .lsu (lsuCode .stB) g src none)
/-- LSU_SC_W (R68). -/
def execLsuScW (p : Fin 6) (g : Fin 8) (src : BitVec 13) (s : State) : Out := .next (runUnitOp s p .lsu (lsuCode .scW) g src none)
/-- LSU_FENCE (R66). -/
def execLsuFence (p : Fin 6) (g : Fin 8) (src : BitVec 13) (s : State) : Out := .next (runUnitOp s p .lsu (lsuCode .fence) g src none)
/-- QU_ENQ (R69). -/
def execQuEnq (p : Fin 6) (g : Fin 8) (src : BitVec 13) (s : State) : Out := .next (runUnitOp s p .qu (quCode .enq) g src none)
/-- QU_DEQ (R69). -/
def execQuDeq (p : Fin 6) (g : Fin 8) (src : BitVec 13) (s : State) : Out := .next (runUnitOp s p .qu (quCode .deq) g src none)
/-- QU_DEQNB (R69). -/
def execQuDeqnb (p : Fin 6) (g : Fin 8) (src : BitVec 13) (s : State) : Out := .next (runUnitOp s p .qu (quCode .deqnb) g src none)
/-- QU_CNT (R69). -/
def execQuCnt (p : Fin 6) (g : Fin 8) (src : BitVec 13) (s : State) : Out := .next (runUnitOp s p .qu (quCode .cnt) g src none)
/-- QU_SIG (R353). -/
def execQuSig (p : Fin 6) (g : Fin 8) (src : BitVec 13) (s : State) : Out := .next (runUnitOp s p .qu (quCode .sig) g src none)
/-- QU_WFE (R71). -/
def execQuWfe (p : Fin 6) (g : Fin 8) (src : BitVec 13) (s : State) : Out := .next (runUnitOp s p .qu (quCode .wfe) g src none)
/-- CU_JMP (R72). -/
def execCuJmp (p : Fin 6) (g : Fin 8) (src : BitVec 13) (s : State) : Out := .next (runUnitOp s p .cu (cuCode .jmp) g src none)
/-- CU_BR (R72). -/
def execCuBr (p : Fin 6) (g : Fin 8) (src : BitVec 13) (s : State) : Out := .next (runUnitOp s p .cu (cuCode .br) g src none)
/-- CU_CALL (R72). -/
def execCuCall (p : Fin 6) (g : Fin 8) (src : BitVec 13) (s : State) : Out := .next (runUnitOp s p .cu (cuCode .call) g src none)
/-- CU_CALLR (R72). -/
def execCuCallr (p : Fin 6) (g : Fin 8) (src : BitVec 13) (s : State) : Out := .next (runUnitOp s p .cu (cuCode .callr) g src none)
/-- CU_RET (R72). -/
def execCuRet (p : Fin 6) (g : Fin 8) (src : BitVec 13) (s : State) : Out := .next (runUnitOp s p .cu (cuCode .ret) g src none)
/-- CU_LOOP (R73). -/
def execCuLoop (p : Fin 6) (g : Fin 8) (src : BitVec 13) (s : State) : Out := .next (runUnitOp s p .cu (cuCode .loop) g src none)
/-- CU_TRAP (R80). -/
def execCuTrap (p : Fin 6) (g : Fin 8) (src : BitVec 13) (s : State) : Out := .next (runUnitOp s p .cu (cuCode .trap) g src none)
/-- CU_ERET (R79). -/
def execCuEret (p : Fin 6) (g : Fin 8) (src : BitVec 13) (s : State) : Out := .next (runUnitOp s p .cu (cuCode .eret) g src none)
/-- CU_WFE (R72). -/
def execCuWfe (p : Fin 6) (g : Fin 8) (src : BitVec 13) (s : State) : Out := .next (runUnitOp s p .cu (cuCode .wfe) g src none)
/-- CU_LIMM (R47). -/
def execCuLimm (p : Fin 6) (g : Fin 8) (lit : Word) (s : State) : Out := .next (runUnitOp s p .cu (cuCode .limm) g 0x1000 (some lit))

end Sys2Proof.Machine
end

