-- ==== Sys2Proof/Machine/Dispatch.lean ====
section
/-! DEFINITION. The dispatch of the commands: one arm per row of the table, each a direct call of its meaning. -/
namespace Sys2Proof.Machine

/-- The effect of a command on everything but the queue. -/
def exec (i : Instr) (s : State) : Host.Outcome State Fault Refusal :=
  match i with
  | .registerWrite who a v => Sys2Proof.Machine.execRegisterWrite who a v s
  | .domainPowerUp d => Sys2Proof.Machine.execDomainPowerUp d s
  | .domainPowerDown d => Sys2Proof.Machine.execDomainPowerDown d s
  | .appdivWrite who v => Sys2Proof.Machine.execAppdivWrite who v s
  | .vcoreSlewDone => Sys2Proof.Machine.execVcoreSlewDone s
  | .bundleExecute p f e => Sys2Proof.Machine.execBundleExecute p f e s
  | .interruptEntry p => Sys2Proof.Machine.execInterruptEntry p s
  | .impreciseBusError p => Sys2Proof.Machine.execImpreciseBusError p s
  | .unitResultWrite p => Sys2Proof.Machine.execUnitResultWrite p s
  | .iterativeMulDone p => Sys2Proof.Machine.execIterativeMulDone p s
  | .divideDone p => Sys2Proof.Machine.execDivideDone p s
  | .loadReturn p e mirror syn wait => Sys2Proof.Machine.execLoadReturn p e mirror syn wait s
  | .fetchComplete p e mirror syn wait => Sys2Proof.Machine.execFetchComplete p e mirror syn wait s
  | .writeBufferDrain p syn => Sys2Proof.Machine.execWriteBufferDrain p syn s
  | .aluAdd p alu1 g src => Sys2Proof.Machine.execAluAdd p alu1 g src s
  | .aluSub p alu1 g src => Sys2Proof.Machine.execAluSub p alu1 g src s
  | .aluAnd p alu1 g src => Sys2Proof.Machine.execAluAnd p alu1 g src s
  | .aluOr p alu1 g src => Sys2Proof.Machine.execAluOr p alu1 g src s
  | .aluXor p alu1 g src => Sys2Proof.Machine.execAluXor p alu1 g src s
  | .aluEq p alu1 g src => Sys2Proof.Machine.execAluEq p alu1 g src s
  | .aluLt p alu1 g src => Sys2Proof.Machine.execAluLt p alu1 g src s
  | .aluLtu p alu1 g src => Sys2Proof.Machine.execAluLtu p alu1 g src s
  | .aluNe p alu1 g src => Sys2Proof.Machine.execAluNe p alu1 g src s
  | .aluGe p alu1 g src => Sys2Proof.Machine.execAluGe p alu1 g src s
  | .aluGeu p alu1 g src => Sys2Proof.Machine.execAluGeu p alu1 g src s
  | .aluMin p alu1 g src => Sys2Proof.Machine.execAluMin p alu1 g src s
  | .aluMax p alu1 g src => Sys2Proof.Machine.execAluMax p alu1 g src s
  | .aluMinu p alu1 g src => Sys2Proof.Machine.execAluMinu p alu1 g src s
  | .aluMaxu p alu1 g src => Sys2Proof.Machine.execAluMaxu p alu1 g src s
  | .aluSxb p alu1 g src => Sys2Proof.Machine.execAluSxb p alu1 g src s
  | .aluSxh p alu1 g src => Sys2Proof.Machine.execAluSxh p alu1 g src s
  | .aluZxb p alu1 g src => Sys2Proof.Machine.execAluZxb p alu1 g src s
  | .aluZxh p alu1 g src => Sys2Proof.Machine.execAluZxh p alu1 g src s
  | .aluMul p g src => Sys2Proof.Machine.execAluMul p g src s
  | .aluMulh p g src => Sys2Proof.Machine.execAluMulh p g src s
  | .mulMul p g src => Sys2Proof.Machine.execMulMul p g src s
  | .mulMulh p g src => Sys2Proof.Machine.execMulMulh p g src s
  | .mulMulhu p g src => Sys2Proof.Machine.execMulMulhu p g src s
  | .mulMac p g src => Sys2Proof.Machine.execMulMac p g src s
  | .mulMacu p g src => Sys2Proof.Machine.execMulMacu p g src s
  | .mulAccw p g src => Sys2Proof.Machine.execMulAccw p g src s
  | .mulDiv p g src => Sys2Proof.Machine.execMulDiv p g src s
  | .mulDivu p g src => Sys2Proof.Machine.execMulDivu p g src s
  | .mulRem p g src => Sys2Proof.Machine.execMulRem p g src s
  | .mulRemu p g src => Sys2Proof.Machine.execMulRemu p g src s
  | .shfSll p g src => Sys2Proof.Machine.execShfSll p g src s
  | .shfSrl p g src => Sys2Proof.Machine.execShfSrl p g src s
  | .shfSra p g src => Sys2Proof.Machine.execShfSra p g src s
  | .shfRor p g src => Sys2Proof.Machine.execShfRor p g src s
  | .shfExt p g src => Sys2Proof.Machine.execShfExt p g src s
  | .shfExts p g src => Sys2Proof.Machine.execShfExts p g src s
  | .shfIns p g src => Sys2Proof.Machine.execShfIns p g src s
  | .shfFsr p g src => Sys2Proof.Machine.execShfFsr p g src s
  | .shfClz p g src => Sys2Proof.Machine.execShfClz p g src s
  | .shfPop p g src => Sys2Proof.Machine.execShfPop p g src s
  | .shfRev p g src => Sys2Proof.Machine.execShfRev p g src s
  | .shfBswap p g src => Sys2Proof.Machine.execShfBswap p g src s
  | .simdAddB p g src => Sys2Proof.Machine.execSimdAddB p g src s
  | .simdSubB p g src => Sys2Proof.Machine.execSimdSubB p g src s
  | .simdAddsB p g src => Sys2Proof.Machine.execSimdAddsB p g src s
  | .simdAddusB p g src => Sys2Proof.Machine.execSimdAddusB p g src s
  | .simdAvguB p g src => Sys2Proof.Machine.execSimdAvguB p g src s
  | .simdAbsdB p g src => Sys2Proof.Machine.execSimdAbsdB p g src s
  | .simdSadB p g src => Sys2Proof.Machine.execSimdSadB p g src s
  | .simdCmpeqB p g src => Sys2Proof.Machine.execSimdCmpeqB p g src s
  | .simdShufB p g src => Sys2Proof.Machine.execSimdShufB p g src s
  | .simdAddH p g src => Sys2Proof.Machine.execSimdAddH p g src s
  | .simdSubH p g src => Sys2Proof.Machine.execSimdSubH p g src s
  | .simdAddsH p g src => Sys2Proof.Machine.execSimdAddsH p g src s
  | .simdSubsH p g src => Sys2Proof.Machine.execSimdSubsH p g src s
  | .simdMulH p g src => Sys2Proof.Machine.execSimdMulH p g src s
  | .simdDotH p g src => Sys2Proof.Machine.execSimdDotH p g src s
  | .simdMaxH p g src => Sys2Proof.Machine.execSimdMaxH p g src s
  | .simdMinH p g src => Sys2Proof.Machine.execSimdMinH p g src s
  | .lsuLdW p g src e => Sys2Proof.Machine.execLsuLdW p g src e s
  | .lsuLdH p g src e => Sys2Proof.Machine.execLsuLdH p g src e s
  | .lsuLdHu p g src e => Sys2Proof.Machine.execLsuLdHu p g src e s
  | .lsuLdB p g src e => Sys2Proof.Machine.execLsuLdB p g src e s
  | .lsuLdBu p g src e => Sys2Proof.Machine.execLsuLdBu p g src e s
  | .lsuLrW p g src e => Sys2Proof.Machine.execLsuLrW p g src e s
  | .lsuStW p g src => Sys2Proof.Machine.execLsuStW p g src s
  | .lsuStH p g src => Sys2Proof.Machine.execLsuStH p g src s
  | .lsuStB p g src => Sys2Proof.Machine.execLsuStB p g src s
  | .lsuScW p g src => Sys2Proof.Machine.execLsuScW p g src s
  | .lsuFence p g src => Sys2Proof.Machine.execLsuFence p g src s
  | .quEnq p g src => Sys2Proof.Machine.execQuEnq p g src s
  | .quDeq p g src => Sys2Proof.Machine.execQuDeq p g src s
  | .quDeqnb p g src => Sys2Proof.Machine.execQuDeqnb p g src s
  | .quCnt p g src => Sys2Proof.Machine.execQuCnt p g src s
  | .quSig p g src => Sys2Proof.Machine.execQuSig p g src s
  | .quWfe p g src => Sys2Proof.Machine.execQuWfe p g src s
  | .deqEntryArrives q => Sys2Proof.Machine.execDeqEntryArrives q s
  | .wfeWake p => Sys2Proof.Machine.execWfeWake p s
  | .cuJmp p g src => Sys2Proof.Machine.execCuJmp p g src s
  | .cuBr p g src => Sys2Proof.Machine.execCuBr p g src s
  | .cuCall p g src => Sys2Proof.Machine.execCuCall p g src s
  | .cuCallr p g src => Sys2Proof.Machine.execCuCallr p g src s
  | .cuRet p g src => Sys2Proof.Machine.execCuRet p g src s
  | .cuLoop p g src => Sys2Proof.Machine.execCuLoop p g src s
  | .cuTrap p g src => Sys2Proof.Machine.execCuTrap p g src s
  | .cuEret p g src => Sys2Proof.Machine.execCuEret p g src s
  | .cuWfe p g src => Sys2Proof.Machine.execCuWfe p g src s
  | .cuLimm p g lit => Sys2Proof.Machine.execCuLimm p g lit s
  | .lockstepCheckpoint => Sys2Proof.Machine.execLockstepCheckpoint s
  | .lockstepMismatch => Sys2Proof.Machine.execLockstepMismatch s
  | .lockstepRestoreDone => Sys2Proof.Machine.execLockstepRestoreDone s
  | .lockstepReplayEnd => Sys2Proof.Machine.execLockstepReplayEnd s
  | .backupDomainPor pwrDef => Sys2Proof.Machine.execBackupDomainPor pwrDef s
  | .mainPor brownout => Sys2Proof.Machine.execMainPor brownout s
  | .pinReset => Sys2Proof.Machine.execPinReset s
  | .softwareReset who v => Sys2Proof.Machine.execSoftwareReset who v s
  | .playerReset who n v => Sys2Proof.Machine.execPlayerReset who n v s
  | .playerHoldSet who n v => Sys2Proof.Machine.execPlayerHoldSet who n v s
  | .playerHoldRelease who n v => Sys2Proof.Machine.execPlayerHoldRelease who n v s
  | .playerPowered n => Sys2Proof.Machine.execPlayerPowered n s
  | .bootSequencerStart svcReq eui trialLim tampEn tampPol => Sys2Proof.Machine.execBootSequencerStart svcReq eui trialLim tampEn tampPol s
  | .clocksLocked => Sys2Proof.Machine.execClocksLocked s
  | .romImageVerified burnOk => Sys2Proof.Machine.execRomImageVerified burnOk s
  | .bootselNext who v => Sys2Proof.Machine.execBootselNext who v s
  | .recoveryUnlockWindowEnd => Sys2Proof.Machine.execRecoveryUnlockWindowEnd s
  | .healthStart who v => Sys2Proof.Machine.execHealthStart who v s
  | .healthStop who v => Sys2Proof.Machine.execHealthStop who v s
  | .healthDeadline served => Sys2Proof.Machine.execHealthDeadline served s
  | .healthGraceEnd => Sys2Proof.Machine.execHealthGraceEnd s
  | .phaseWrite who v => Sys2Proof.Machine.execPhaseWrite who v s
  | .reqAlloc base index acl fs tables => Sys2Proof.Machine.execReqAlloc base index acl fs tables s
  | .reqFree => Sys2Proof.Machine.execReqFree s
  | .reqHint => Sys2Proof.Machine.execReqHint s
  | .reqPin => Sys2Proof.Machine.execReqPin s
  | .reqUnpin => Sys2Proof.Machine.execReqUnpin s
  | .reqQuery => Sys2Proof.Machine.execReqQuery s
  | .reqSeal => Sys2Proof.Machine.execReqSeal s
  | .reqUnseal fs => Sys2Proof.Machine.execReqUnseal fs s
  | .reqDone => Sys2Proof.Machine.execReqDone s
  | .reqBadKind => Sys2Proof.Machine.execReqBadKind s
  | .pageWalk who a write e => Sys2Proof.Machine.execPageWalk who a write e s
  | .migrationGo who c v => Sys2Proof.Machine.execMigrationGo who c v s
  | .migrationCopyDone c => Sys2Proof.Machine.execMigrationCopyDone c s
  | .migrationPassDone c => Sys2Proof.Machine.execMigrationPassDone c s
  | .migrationFinalDone c => Sys2Proof.Machine.execMigrationFinalDone c s
  | .migstatRead who c => Sys2Proof.Machine.execMigstatRead who c s
  | .epochBoundary => Sys2Proof.Machine.execEpochBoundary s
  | .sweepDone => Sys2Proof.Machine.execSweepDone s
  | .stgFrozenClear who v => Sys2Proof.Machine.execStgFrozenClear who v s
  | .dispatcherRun => Sys2Proof.Machine.execDispatcherRun s
  | .dispatchEnable who v => Sys2Proof.Machine.execDispatchEnable who v s
  | .stgTrigger k => Sys2Proof.Machine.execStgTrigger k s
  | .trigqWrite who k v => Sys2Proof.Machine.execTrigqWrite who k v s
  | .stgRunRead who n => Sys2Proof.Machine.execStgRunRead who n s
  | .queuePushEnqueue who q v => Sys2Proof.Machine.execQueuePushEnqueue who q v s
  | .queuePushRelease who q v => Sys2Proof.Machine.execQueuePushRelease who q v s
  | .queuePop who q => Sys2Proof.Machine.execQueuePop who q s
  | .queueEnable who q v => Sys2Proof.Machine.execQueueEnable who q v s
  | .queueDisable who q v => Sys2Proof.Machine.execQueueDisable who q v s
  | .queueClear who q v => Sys2Proof.Machine.execQueueClear who q v s
  | .queueClearDrops who q v => Sys2Proof.Machine.execQueueClearDrops who q v s
  | .dramTrainingDone failStep => Sys2Proof.Machine.execDramTrainingDone failStep s
  | .dramAccess who a data path => Sys2Proof.Machine.execDramAccess who a data path s
  | .dramBackgroundFill => Sys2Proof.Machine.execDramBackgroundFill s
  | .patrolScrubRead path => Sys2Proof.Machine.execPatrolScrubRead path s
  | .zqCalibration => Sys2Proof.Machine.execZqCalibration s
  | .dqsOscRead drift => Sys2Proof.Machine.execDqsOscRead drift s
  | .dramSpeedSwitch who v => Sys2Proof.Machine.execDramSpeedSwitch who v s
  | .dramSpeedSwitchDone => Sys2Proof.Machine.execDramSpeedSwitchDone s
  | .dramRetrain who v => Sys2Proof.Machine.execDramRetrain who v s
  | .dramRetrainDone failStep => Sys2Proof.Machine.execDramRetrainDone failStep s
  | .dramPageTimerExpiry c bank => Sys2Proof.Machine.execDramPageTimerExpiry c bank s
  | .refreshDue c idle => Sys2Proof.Machine.execRefreshDue c idle s
  | .refreshPullIn c => Sys2Proof.Machine.execRefreshPullIn c s
  | .mr4Poll code0 code1 => Sys2Proof.Machine.execMr4Poll code0 code1 s
  | .channel1Off who v => Sys2Proof.Machine.execChannel1Off who v s
  | .channel1On who v => Sys2Proof.Machine.execChannel1On who v s
  | .diagRead who => Sys2Proof.Machine.execDiagRead who s
  | .diagWrite who => Sys2Proof.Machine.execDiagWrite who s
  | .diagPoison who => Sys2Proof.Machine.execDiagPoison who s
  | .releaseResume who => Sys2Proof.Machine.execReleaseResume who s
  | .releaseScrub who => Sys2Proof.Machine.execReleaseScrub who s
  | .scrubReleaseDone bad => Sys2Proof.Machine.execScrubReleaseDone bad s
  | .releaseReset who => Sys2Proof.Machine.execReleaseReset who s
  | .dmcAddrmapWrite who v => Sys2Proof.Machine.execDmcAddrmapWrite who v s
  | .poisonqRead who => Sys2Proof.Machine.execPoisonqRead who s
  | .cecountRead who => Sys2Proof.Machine.execCecountRead who s
  | .flashProgram env => Sys2Proof.Machine.execFlashProgram env s
  | .flashErase env => Sys2Proof.Machine.execFlashErase env s
  | .flashEpoch env => Sys2Proof.Machine.execFlashEpoch env s
  | .flashRetire env => Sys2Proof.Machine.execFlashRetire env s
  | .flashBlankcheck => Sys2Proof.Machine.execFlashBlankcheck s
  | .flashAbort => Sys2Proof.Machine.execFlashAbort s
  | .flashRelease env => Sys2Proof.Machine.execFlashRelease env s
  | .progBurstDone ok differs => Sys2Proof.Machine.execProgBurstDone ok differs s
  | .erasePulseDone verified => Sys2Proof.Machine.execErasePulseDone verified s
  | .eraseSuspend => Sys2Proof.Machine.execEraseSuspend s
  | .eraseResume => Sys2Proof.Machine.execEraseResume s
  | .flashRead who f fetch e mirror wait => Sys2Proof.Machine.execFlashRead who f fetch e mirror wait s
  | .flashPrefetch => Sys2Proof.Machine.execFlashPrefetch s
  | .flashJreadySet who v => Sys2Proof.Machine.execFlashJreadySet who v s
  | .flcEcccntRead who => Sys2Proof.Machine.execFlcEcccntRead who s
  | .stallmaxRead who => Sys2Proof.Machine.execStallmaxRead who s
  | .mramWritePerform => Sys2Proof.Machine.execMramWritePerform s
  | .mrcEcccntRead who => Sys2Proof.Machine.execMrcEcccntRead who s
  | .demodEnable who n v => Sys2Proof.Machine.execDemodEnable who n v s
  | .demodDisable who n v => Sys2Proof.Machine.execDemodDisable who n v s
  | .preambleDetected n corr dgain => Sys2Proof.Machine.execPreambleDetected n corr dgain s
  | .syncFound n x => Sys2Proof.Machine.execSyncFound n x s
  | .syncWindowTimeout n symbols => Sys2Proof.Machine.execSyncWindowTimeout n symbols s
  | .headerDecision n soft => Sys2Proof.Machine.execHeaderDecision n soft s
  | .payloadCaptured n rest => Sys2Proof.Machine.execPayloadCaptured n rest s
  | .agcMeasurement power overloads now => Sys2Proof.Machine.execAgcMeasurement power overloads now s
  | .rxcApply who v => Sys2Proof.Machine.execRxcApply who v s
  | .rxcApplyPendingDone => Sys2Proof.Machine.execRxcApplyPendingDone s
  | .rxcSwitchDone => Sys2Proof.Machine.execRxcSwitchDone s
  | .receiverEnable who v => Sys2Proof.Machine.execReceiverEnable who v s
  | .receiverDisable who v => Sys2Proof.Machine.execReceiverDisable who v s
  | .receiverReturn => Sys2Proof.Machine.execReceiverReturn s
  | .tsloRead who n => Sys2Proof.Machine.execTsloRead who n s
  | .rxcCnt0Read who n => Sys2Proof.Machine.execRxcCnt0Read who n s
  | .rxcCnt1Read who n => Sys2Proof.Machine.execRxcCnt1Read who n s
  | .rxcCnt2Read who n => Sys2Proof.Machine.execRxcCnt2Read who n s
  | .agccntRead who => Sys2Proof.Machine.execAgccntRead who s
  | .codewordDecodeStart captured => Sys2Proof.Machine.execCodewordDecodeStart captured s
  | .codewordDecodeDone us => Sys2Proof.Machine.execCodewordDecodeDone us s
  | .altHypothesisStart => Sys2Proof.Machine.execAltHypothesisStart s
  | .viterbiDecode soft => Sys2Proof.Machine.execViterbiDecode soft s
  | .cwcntRead who => Sys2Proof.Machine.execCwcntRead who s
  | .frmcntRead who => Sys2Proof.Machine.execFrmcntRead who s
  | .itersumRead who => Sys2Proof.Machine.execItersumRead who s
  | .itermaxRead who => Sys2Proof.Machine.execItermaxRead who s
  | .hdrcntRead who => Sys2Proof.Machine.execHdrcntRead who s
  | .latmaxRead who => Sys2Proof.Machine.execLatmaxRead who s
  | .vitcntRead who => Sys2Proof.Machine.execVitcntRead who s
  | .txCommit => Sys2Proof.Machine.execTxCommit s
  | .txDeferEnd => Sys2Proof.Machine.execTxDeferEnd s
  | .txDeferDeadline => Sys2Proof.Machine.execTxDeferDeadline s
  | .txSequenceStep pdet => Sys2Proof.Machine.execTxSequenceStep pdet s
  | .txLastSymbol x => Sys2Proof.Machine.execTxLastSymbol x s
  | .txLate => Sys2Proof.Machine.execTxLate s
  | .synthLock drift => Sys2Proof.Machine.execSynthLock drift s
  | .synthLockTimeout => Sys2Proof.Machine.execSynthLockTimeout s
  | .synthLockLost => Sys2Proof.Machine.execSynthLockLost s
  | .vcoCalibrationDone => Sys2Proof.Machine.execVcoCalibrationDone s
  | .rfeVcocal who v => Sys2Proof.Machine.execRfeVcocal who v s
  | .txAbort who v => Sys2Proof.Machine.execTxAbort who v s
  | .txDisable who v => Sys2Proof.Machine.execTxDisable who v s
  | .tunerTrialStep gamma => Sys2Proof.Machine.execTunerTrialStep gamma s
  | .tunerTrialJudge gamma => Sys2Proof.Machine.execTunerTrialJudge gamma s
  | .calPendingApply => Sys2Proof.Machine.execCalPendingApply s
  | .rtcTrimLearn temp meas => Sys2Proof.Machine.execRtcTrimLearn temp meas s
  | .txcCntRead who => Sys2Proof.Machine.execTxcCntRead who s
  | .airtimeRead who => Sys2Proof.Machine.execAirtimeRead who s
  | .maskstatRead who => Sys2Proof.Machine.execMaskstatRead who s
  | .maskworstRead who => Sys2Proof.Machine.execMaskworstRead who s
  | .tunestatRead who => Sys2Proof.Machine.execTunestatRead who s
  | .lnkFrameReceive => Sys2Proof.Machine.execLnkFrameReceive s
  | .micVerifyDone => Sys2Proof.Machine.execMicVerifyDone s
  | .relayStart k => Sys2Proof.Machine.execRelayStart k s
  | .floorExpire => Sys2Proof.Machine.execFloorExpire s
  | .lnkEnable who v => Sys2Proof.Machine.execLnkEnable who v s
  | .lnkDisable who v => Sys2Proof.Machine.execLnkDisable who v s
  | .ackenDisable who v => Sys2Proof.Machine.execAckenDisable who v s
  | .relayenDisable who v => Sys2Proof.Machine.execRelayenDisable who v s
  | .extenEnable who v => Sys2Proof.Machine.execExtenEnable who v s
  | .extClearDone => Sys2Proof.Machine.execExtClearDone s
  | .extenDisable who v => Sys2Proof.Machine.execExtenDisable who v s
  | .poolConfigWrite who base v => Sys2Proof.Machine.execPoolConfigWrite who base v s
  | .cntrxRead who => Sys2Proof.Machine.execCntrxRead who s
  | .cntrejRead who => Sys2Proof.Machine.execCntrejRead who s
  | .cntsecRead who => Sys2Proof.Machine.execCntsecRead who s
  | .cntdropRead who => Sys2Proof.Machine.execCntdropRead who s
  | .cntackRead who => Sys2Proof.Machine.execCntackRead who s
  | .cntrlyRead who => Sys2Proof.Machine.execCntrlyRead who s
  | .cntrlydRead who => Sys2Proof.Machine.execCntrlydRead who s
  | .cntovlRead who => Sys2Proof.Machine.execCntovlRead who s
  | .ntSourceChange => Sys2Proof.Machine.execNtSourceChange s
  | .ntAdjust who v => Sys2Proof.Machine.execNtAdjust who v s
  | .ntSet who v => Sys2Proof.Machine.execNtSet who v s
  | .slewDone => Sys2Proof.Machine.execSlewDone s
  | .backholdEnd => Sys2Proof.Machine.execBackholdEnd s
  | .ntRead who => Sys2Proof.Machine.execNtRead who s
  | .beaconWindowOpen => Sys2Proof.Machine.execBeaconWindowOpen s
  | .beaconWindowClose => Sys2Proof.Machine.execBeaconWindowClose s
  | .searchStart => Sys2Proof.Machine.execSearchStart s
  | .searchWindowOpen => Sys2Proof.Machine.execSearchWindowOpen s
  | .searchWindowEnd => Sys2Proof.Machine.execSearchWindowEnd s
  | .trackerRoot who v => Sys2Proof.Machine.execTrackerRoot who v s
  | .trackerDisable who v => Sys2Proof.Machine.execTrackerDisable who v s
  | .trackerEnable who v => Sys2Proof.Machine.execTrackerEnable who v s
  | .parentWrite who hi v => Sys2Proof.Machine.execParentWrite who hi v s
  | .listenWindowOpen => Sys2Proof.Machine.execListenWindowOpen s
  | .listenWindowClose => Sys2Proof.Machine.execListenWindowClose s
  | .announcedWindowOpen => Sys2Proof.Machine.execAnnouncedWindowOpen s
  | .scheduleCycleBoundary => Sys2Proof.Machine.execScheduleCycleBoundary s
  | .schcntRead who => Sys2Proof.Machine.execSchcntRead who s
  | .cntbcnRead who => Sys2Proof.Machine.execCntbcnRead who s
  | .hubRtcTrigger n => Sys2Proof.Machine.execHubRtcTrigger n s
  | .hubCueTrigger idx => Sys2Proof.Machine.execHubCueTrigger idx s
  | .hubPinTrigger pin rising => Sys2Proof.Machine.execHubPinTrigger pin rising s
  | .hubSwtrig who v => Sys2Proof.Machine.execHubSwtrig who v s
  | .hubEnd => Sys2Proof.Machine.execHubEnd s
  | .hubPower => Sys2Proof.Machine.execHubPower s
  | .hubWait => Sys2Proof.Machine.execHubWait s
  | .hubTwb => Sys2Proof.Machine.execHubTwb s
  | .hubCsp => Sys2Proof.Machine.execHubCsp s
  | .hubAdc => Sys2Proof.Machine.execHubAdc s
  | .hubDsm => Sys2Proof.Machine.execHubDsm s
  | .hubPin => Sys2Proof.Machine.execHubPin s
  | .hubCapture => Sys2Proof.Machine.execHubCapture s
  | .hubFilter => Sys2Proof.Machine.execHubFilter s
  | .hubCompare => Sys2Proof.Machine.execHubCompare s
  | .hubStore => Sys2Proof.Machine.execHubStore s
  | .hubSignal => Sys2Proof.Machine.execHubSignal s
  | .hubBranch => Sys2Proof.Machine.execHubBranch s
  | .hubIllegalStep => Sys2Proof.Machine.execHubIllegalStep s
  | .hubStepSkip => Sys2Proof.Machine.execHubStepSkip s
  | .hubResourceStepDone n r => Sys2Proof.Machine.execHubResourceStepDone n r s
  | .hubWaitEnd n => Sys2Proof.Machine.execHubWaitEnd n s
  | .spwrOvercurrent k => Sys2Proof.Machine.execSpwrOvercurrent k s
  | .sheetDisable who n v => Sys2Proof.Machine.execSheetDisable who n v s
  | .hubDisable who v => Sys2Proof.Machine.execHubDisable who v s
  | .filterReset who k v => Sys2Proof.Machine.execFilterReset who k v s
  | .filterConfigWrite who k v => Sys2Proof.Machine.execFilterConfigWrite who k v s
  | .compareReset who k v => Sys2Proof.Machine.execCompareReset who k v s
  | .shcntRead who n => Sys2Proof.Machine.execShcntRead who n s
  | .cueProducerEvent fam idx => Sys2Proof.Machine.execCueProducerEvent fam idx s
  | .pinEvent idx rising => Sys2Proof.Machine.execPinEvent idx rising s
  | .cueConsumerTake t => Sys2Proof.Machine.execCueConsumerTake t s
  | .cueSoftwareSignal who hi v => Sys2Proof.Machine.execCueSoftwareSignal who hi v s
  | .logicCellClock k => Sys2Proof.Machine.execLogicCellClock k s
  | .logicCellReset who k v => Sys2Proof.Machine.execLogicCellReset who k v s
  | .channelOwnerWrite who c v => Sys2Proof.Machine.execChannelOwnerWrite who c v s
  | .cellOwnerWrite who k v => Sys2Proof.Machine.execCellOwnerWrite who k v s
  | .irqpendClear who p v => Sys2Proof.Machine.execIrqpendClear who p v s
  | .ovrClear who hi v => Sys2Proof.Machine.execOvrClear who hi v s
  | .timerCountTick x => Sys2Proof.Machine.execTimerCountTick x s
  | .deadTimeExpiry x n neg => Sys2Proof.Machine.execDeadTimeExpiry x n neg s
  | .timerBreakPin x => Sys2Proof.Machine.execTimerBreakPin x s
  | .timerBreakCue x => Sys2Proof.Machine.execTimerBreakCue x s
  | .timerTrgStart x => Sys2Proof.Machine.execTimerTrgStart x s
  | .timerTrgRestart x => Sys2Proof.Machine.execTimerTrgRestart x s
  | .timerTrgStop x => Sys2Proof.Machine.execTimerTrgStop x s
  | .timerCaptureEdge x n rising => Sys2Proof.Machine.execTimerCaptureEdge x n rising s
  | .timerPulseEdge x n rising => Sys2Proof.Machine.execTimerPulseEdge x n rising s
  | .timerEnable who x v => Sys2Proof.Machine.execTimerEnable who x v s
  | .timerDisable who x v => Sys2Proof.Machine.execTimerDisable who x v s
  | .timerCntWrite who x v => Sys2Proof.Machine.execTimerCntWrite who x v s
  | .timerImmediateWrite who x cc v => Sys2Proof.Machine.execTimerImmediateWrite who x cc v s
  | .timerModeChange who x n v => Sys2Proof.Machine.execTimerModeChange who x n v s
  | .twbCmd who k v => Sys2Proof.Machine.execTwbCmd who k v s
  | .twbTransferDone k acked nack rx => Sys2Proof.Machine.execTwbTransferDone k acked nack rx s
  | .twbArbitrationLost k bytes winner => Sys2Proof.Machine.execTwbArbitrationLost k bytes winner s
  | .twbMisplacedCondition k start ninth => Sys2Proof.Machine.execTwbMisplacedCondition k start ninth s
  | .twbSclTimeout k => Sys2Proof.Machine.execTwbSclTimeout k s
  | .twbSdaTimeout k => Sys2Proof.Machine.execTwbSdaTimeout k s
  | .twbRecover who k v => Sys2Proof.Machine.execTwbRecover who k v s
  | .twbRecoverDone k ok => Sys2Proof.Machine.execTwbRecoverDone k ok s
  | .twbTargetAddressed k addr => Sys2Proof.Machine.execTwbTargetAddressed k addr s
  | .twbTargetByte k b => Sys2Proof.Machine.execTwbTargetByte k b s
  | .twbTargetStop k stop => Sys2Proof.Machine.execTwbTargetStop k stop s
  | .twbAttn who k v => Sys2Proof.Machine.execTwbAttn who k v s
  | .twbAttnDone k ok => Sys2Proof.Machine.execTwbAttnDone k ok s
  | .twbTxdataWrite who k v => Sys2Proof.Machine.execTwbTxdataWrite who k v s
  | .twbRxdataRead who k => Sys2Proof.Machine.execTwbRxdataRead who k s
  | .twbDisable who k v => Sys2Proof.Machine.execTwbDisable who k v s
  | .twbWakeDetect k => Sys2Proof.Machine.execTwbWakeDetect k s
  | .cspWakeDetect k => Sys2Proof.Machine.execCspWakeDetect k s
  | .cspTxdataWrite who k v => Sys2Proof.Machine.execCspTxdataWrite who k v s
  | .cspRxdataRead who k => Sys2Proof.Machine.execCspRxdataRead who k s
  | .cspMasterFrameDone k rx => Sys2Proof.Machine.execCspMasterFrameDone k rx s
  | .cspSlaveFrameDone k rx => Sys2Proof.Machine.execCspSlaveFrameDone k rx s
  | .cspSelectRelease k part => Sys2Proof.Machine.execCspSelectRelease k part s
  | .cspDisable who k v => Sys2Proof.Machine.execCspDisable who k v s
  | .hwnTransactionStart read => Sys2Proof.Machine.execHwnTransactionStart read s
  | .hwnByteCommit b => Sys2Proof.Machine.execHwnByteCommit b s
  | .hwnTransactionEnd unfinished => Sys2Proof.Machine.execHwnTransactionEnd unfinished s
  | .hwnDisable who v => Sys2Proof.Machine.execHwnDisable who v s
  | .hwnAttnSet who v => Sys2Proof.Machine.execHwnAttnSet who v s
  | .otpProgOwner who v => Sys2Proof.Machine.execOtpProgOwner who v s
  | .otpRevoke who v => Sys2Proof.Machine.execOtpRevoke who v s
  | .otpBurnOwned who v => Sys2Proof.Machine.execOtpBurnOwned who v s
  | .otpBurnRetired who v => Sys2Proof.Machine.execOtpBurnRetired who v s
  | .otpCommandDone ok => Sys2Proof.Machine.execOtpCommandDone ok s
  | .keyGenerate who v => Sys2Proof.Machine.execKeyGenerate who v s
  | .keyWrite who v => Sys2Proof.Machine.execKeyWrite who v s
  | .keyDerive who v => Sys2Proof.Machine.execKeyDerive who v s
  | .keyDelete who v => Sys2Proof.Machine.execKeyDelete who v s
  | .keySetattr who v => Sys2Proof.Machine.execKeySetattr who v s
  | .keyAttest who v => Sys2Proof.Machine.execKeyAttest who v s
  | .keySignid who v => Sys2Proof.Machine.execKeySignid who v s
  | .keyRekey who v => Sys2Proof.Machine.execKeyRekey who v s
  | .keyCommandDone err => Sys2Proof.Machine.execKeyCommandDone err s
  | .jobEcbEncrypt => Sys2Proof.Machine.execJobEcbEncrypt s
  | .jobEcbDecrypt => Sys2Proof.Machine.execJobEcbDecrypt s
  | .jobCtr => Sys2Proof.Machine.execJobCtr s
  | .jobCbcMac => Sys2Proof.Machine.execJobCbcMac s
  | .jobCmacGenerate => Sys2Proof.Machine.execJobCmacGenerate s
  | .jobCmacVerify => Sys2Proof.Machine.execJobCmacVerify s
  | .jobCcmSeal => Sys2Proof.Machine.execJobCcmSeal s
  | .jobCcmOpen => Sys2Proof.Machine.execJobCcmOpen s
  | .cipherJobDone => Sys2Proof.Machine.execCipherJobDone s
  | .aesCntRead who => Sys2Proof.Machine.execAesCntRead who s
  | .aesAuthfailRead who => Sys2Proof.Machine.execAesAuthfailRead who s
  | .aesMemerrRead who => Sys2Proof.Machine.execAesMemerrRead who s
  | .alarmSupplyGlitch words => Sys2Proof.Machine.execAlarmSupplyGlitch words s
  | .alarmClockGlitch words => Sys2Proof.Machine.execAlarmClockGlitch words s
  | .alarmTemperature words => Sys2Proof.Machine.execAlarmTemperature words s
  | .alarmTamp words => Sys2Proof.Machine.execAlarmTamp words s
  | .pkaEcdsaSign who => Sys2Proof.Machine.execPkaEcdsaSign who s
  | .pkaEcdsaVerify who => Sys2Proof.Machine.execPkaEcdsaVerify who s
  | .pkaEcdh who => Sys2Proof.Machine.execPkaEcdh who s
  | .pkaKeygen who => Sys2Proof.Machine.execPkaKeygen who s
  | .pkaPointCheck who => Sys2Proof.Machine.execPkaPointCheck who s
  | .pkaX25519 who => Sys2Proof.Machine.execPkaX25519 who s
  | .pkaDone => Sys2Proof.Machine.execPkaDone s
  | .hshInit who v => Sys2Proof.Machine.execHshInit who v s
  | .hshFeedMemory who => Sys2Proof.Machine.execHshFeedMemory who s
  | .hshFeedLast who => Sys2Proof.Machine.execHshFeedLast who s
  | .hshPushedLast who => Sys2Proof.Machine.execHshPushedLast who s
  | .hshDataPush who v => Sys2Proof.Machine.execHshDataPush who v s
  | .hshDone => Sys2Proof.Machine.execHshDone s
  | .rngRestart who => Sys2Proof.Machine.execRngRestart who s
  | .rngReseed who => Sys2Proof.Machine.execRngReseed who s
  | .rngDataRead who => Sys2Proof.Machine.execRngDataRead who s
  | .trngStartupDone => Sys2Proof.Machine.execTrngStartupDone s
  | .trngHealthFail => Sys2Proof.Machine.execTrngHealthFail s
  | .powerRequest who v => Sys2Proof.Machine.execPowerRequest who v s
  | .powerRequestCancel who v => Sys2Proof.Machine.execPowerRequestCancel who v s
  | .powerCommit rest => Sys2Proof.Machine.execPowerCommit rest s
  | .powerStateReached => Sys2Proof.Machine.execPowerStateReached s
  | .wakeEvent b => Sys2Proof.Machine.execWakeEvent b s
  | .powerExitComplete => Sys2Proof.Machine.execPowerExitComplete s
  | .dozeEnter => Sys2Proof.Machine.execDozeEnter s
  | .dozeExit => Sys2Proof.Machine.execDozeExit s
  | .autoRestReturn => Sys2Proof.Machine.execAutoRestReturn s
  | .vbatCheck mv bkup => Sys2Proof.Machine.execVbatCheck mv bkup s
  | .backupSupplySwitch mv bkup => Sys2Proof.Machine.execBackupSupplySwitch mv bkup s
  | .backupRetentionTrip => Sys2Proof.Machine.execBackupRetentionTrip s
  | .rtcApply who v => Sys2Proof.Machine.execRtcApply who v s
  | .rtcApplyTransfer => Sys2Proof.Machine.execRtcApplyTransfer s
  | .rtcApplyCommit => Sys2Proof.Machine.execRtcApplyCommit s
  | .rtcSubsecRead who => Sys2Proof.Machine.execRtcSubsecRead who s
  | .rtcAlarm n => Sys2Proof.Machine.execRtcAlarm n s
  | .rtcTrimUpdate temp => Sys2Proof.Machine.execRtcTrimUpdate temp s
  | .oscStopDetect => Sys2Proof.Machine.execOscStopDetect s
  | .oscRestart => Sys2Proof.Machine.execOscRestart s
  | .osfClear who v => Sys2Proof.Machine.execOsfClear who v s
  | .blackoutWake src => Sys2Proof.Machine.execBlackoutWake src s
  | .svcPacketReceive body crcOk => Sys2Proof.Machine.execSvcPacketReceive body crcOk s
  | .svcReplyDone => Sys2Proof.Machine.execSvcReplyDone s
  | .svcRxfree who v => Sys2Proof.Machine.execSvcRxfree who v s
  | .svcRateRevert => Sys2Proof.Machine.execSvcRateRevert s
  | .svcCntRead who => Sys2Proof.Machine.execSvcCntRead who s
  | .svcHello seq payload => Sys2Proof.Machine.execSvcHello seq payload s
  | .svcStatus seq payload => Sys2Proof.Machine.execSvcStatus seq payload s
  | .svcLoad seq payload ok => Sys2Proof.Machine.execSvcLoad seq payload ok s
  | .svcVerify seq payload => Sys2Proof.Machine.execSvcVerify seq payload s
  | .svcActivateLive seq => Sys2Proof.Machine.execSvcActivateLive seq s
  | .svcActivateReset seq => Sys2Proof.Machine.execSvcActivateReset seq s
  | .svcProgress seq payload => Sys2Proof.Machine.execSvcProgress seq payload s
  | .svcAbort seq payload => Sys2Proof.Machine.execSvcAbort seq payload s
  | .svcAuth seq payload => Sys2Proof.Machine.execSvcAuth seq payload s
  | .ownerLock seq payload => Sys2Proof.Machine.execOwnerLock seq payload s
  | .ownerUnlock seq payload => Sys2Proof.Machine.execOwnerUnlock seq payload s
  | .ownerSetminver seq payload => Sys2Proof.Machine.execOwnerSetminver seq payload s
  | .ownerAddkey seq payload => Sys2Proof.Machine.execOwnerAddkey seq payload s
  | .ownerRevoke seq payload => Sys2Proof.Machine.execOwnerRevoke seq payload s
  | .ownerBurnOwned seq payload => Sys2Proof.Machine.execOwnerBurnOwned seq payload s
  | .ownerRetire seq payload => Sys2Proof.Machine.execOwnerRetire seq payload s
  | .ownerDebugUnlock seq payload => Sys2Proof.Machine.execOwnerDebugUnlock seq payload s
  | .ownerRecoveryUnlock seq payload => Sys2Proof.Machine.execOwnerRecoveryUnlock seq payload s
  | .svcDbgrd => Sys2Proof.Machine.execSvcDbgrd s
  | .svcDbgwr => Sys2Proof.Machine.execSvcDbgwr s
  | .activateDrained => Sys2Proof.Machine.execActivateDrained s
  | .activateDrainTimeout => Sys2Proof.Machine.execActivateDrainTimeout s
  | .serviceReady => Sys2Proof.Machine.execServiceReady s
  | .serviceConfirm => Sys2Proof.Machine.execServiceConfirm s
  | .readyTimeout => Sys2Proof.Machine.execReadyTimeout s
  | .holdoverTimeout => Sys2Proof.Machine.execHoldoverTimeout s
  | .vcoreReg => Sys2Proof.Machine.execVcoreReg s
  | .hfxoFail => Sys2Proof.Machine.execHfxoFail s
  | .hfxoRestartTry ok => Sys2Proof.Machine.execHfxoRestartTry ok s
  | .watchdogKick who v => Sys2Proof.Machine.execWatchdogKick who v s
  | .watchdogPreExpiry p => Sys2Proof.Machine.execWatchdogPreExpiry p s
  | .watchdogExpiry p => Sys2Proof.Machine.execWatchdogExpiry p s
  | .warmEntryDone => Sys2Proof.Machine.execWarmEntryDone s
  | .pllUnlock pll => Sys2Proof.Machine.execPllUnlock pll s
  | .pllRelock pll ok => Sys2Proof.Machine.execPllRelock pll ok s
  | .injectArm who v => Sys2Proof.Machine.execInjectArm who v s
  | .curtainRecordClear who v => Sys2Proof.Machine.execCurtainRecordClear who v s
  | .cecnt0Read who => Sys2Proof.Machine.execCecnt0Read who s
  | .cecnt1Read who => Sys2Proof.Machine.execCecnt1Read who s
  | .dbgHalt who v => Sys2Proof.Machine.execDbgHalt who v s
  | .dbgStep who v => Sys2Proof.Machine.execDbgStep who v s
  | .pinConfigWrite who n v => Sys2Proof.Machine.execPinConfigWrite who n v s
  | .gpioOutset who p v => Sys2Proof.Machine.execGpioOutset who p v s
  | .gpioOutclr who p v => Sys2Proof.Machine.execGpioOutclr who p v s
  | .announcedWindowClose => Sys2Proof.Machine.execAnnouncedWindowClose s
  | .twbBusFree k => Sys2Proof.Machine.execTwbBusFree k s
  | .cspSlaveSelect k => Sys2Proof.Machine.execCspSlaveSelect k s
  | .timerBreakRelease x => Sys2Proof.Machine.execTimerBreakRelease x s
  | .alarmConditionEnd src => Sys2Proof.Machine.execAlarmConditionEnd src s
  | .svcGapTimeout => Sys2Proof.Machine.execSvcGapTimeout s

end Sys2Proof.Machine
end

