-- ==== Sys2Proof/Safety.lean ====
section
/-! DEFINITION. What a safe state is, and the conditions on a state and a command in whose terms the claims are made. -/
namespace Sys2Proof.Safety
open Sys2Proof.Machine Sys2Proof.Reg

/-- A state is sound when its memory and its register file are in canonical form. -/
abbrev Sound (s : State) : Prop := Memory.wf s

/-- A command completes in a state when its meaning answers a next state. -/
abbrev Completes (i : Instr) (s : State) : Prop := ∃ t, exec i s = .next t

/-- A command completes in a state, and what it leaves there has a property. -/
abbrev Leaves (i : Instr) (s : State) (q : State → Prop) : Prop := ∃ t, exec i s = .next t ∧ q t

/-- 01 R11, 04 R93: an access of the initiator `who` to the register at an address, a write or a read, reaches its block: a block lies
there, its domain has power, and the safety curtain lets the initiator through. -/
abbrev Reaches (s : State) (who a : Nat) (write : Bool) : Prop :=
  busReach s a = .serve ∧ curtainBlocks s who a write = false

/-- Every register but those of a list keeps its value, and so does every byte of memory. -/
abbrev OnlyRegs (s t : State) (l : List Nat) : Prop := (∀ b, b ∉ l → t.rd b = s.rd b) ∧ ∀ b, t.byte b = s.byte b

/-! ### Cores -/

/-- 20 R495: no core is halted by the debug port or about to be. -/
abbrev Unwatched (s : State) : Prop := ∀ p : Fin 6, s.bit DBG.HALT p.val = false ∧ (s.core p).run ≠ .debug

/-- A core at a bundle boundary that nothing holds up: it runs, it does not stall, no transfer, result or bus error waits, and its pc is
aligned and is not the end of an armed loop.  The link pair neither replays nor has its logs nearly full (04 R89). -/
abbrev CoreReady (s : State) (p : Fin 6) : Prop :=
  canRun s p = true ∧ (s.core p).stall = none ∧ (s.core p).held = [] ∧ (s.core p).xfer = none ∧ (s.core p).fly = [] ∧
  (s.core p).got = [] ∧ (s.core p).flines = [] ∧ (s.core p).pc.toNat % 4 = 0 ∧
  ¬ (pstatBit (s.core p) PSTAT.lact = true ∧ (s.core p).pc = (s.core p).lend) ∧
  logsFill s.pair = false ∧ s.pair.replay = false ∧ s.bit FLT.INJCTRL 16 = false ∧ Unwatched s

/-- 02 R43, R46: the value `v` that the SRC field `src` of a syllable reads, from a source that exists and is not the cycle counter, whose
read has an effect of its own (03 R84). -/
abbrev SrcReads (s : State) (p : Fin 6) (src : BitVec 13) (v : Word) : Prop :=
  (∀ id, srcOf src.toNat = .sock id → srcExists (coreKind p) id = true ∧ id ≠ 0x210) ∧ v = srcVal s p (cycleWord (s.core p)) (srcOf src.toNat)

/-- 02 R40: the guard of a syllable holds. -/
abbrev GuardHolds (s : State) (p : Fin 6) (g : Fin 8) : Prop := guardHolds (s.core p).g g.val = true

/-- A core one bundle of a single syllable later, but for what the syllable does: one cycle has passed, the pc stands behind the
syllable, and the last product trigger lies one bundle further back (03 R58). -/
abbrev oneOn (c : Core) : Core := { c with pc := c.pc + 4, cycle := c.cycle + 1, prodAge := min 2 (c.prodAge + 1) }

/-- A command completes, leaving the core `p` as `c` and every other core, every register and every byte of memory as they were. -/
abbrev RunsOn (i : Instr) (s : State) (p : Fin 6) (c : Core) : Prop :=
  Leaves i s (fun t => t.core p = c ∧ (∀ q, q ≠ p → t.core q = s.core q) ∧ t.regs = s.regs ∧ t.mem = s.mem)

/-! ### Bundles -/

/-- 02 R29, R44: whether a move writes a register, a guard or an operand port, or nothing, from a source other than the cycle counter: it
triggers no unit and writes no CSR. -/
def plainMove (k : CoreKind) (m : Move) : Bool :=
  m.src != .sock 0x210 && match destOf k m.slot m.dst with
    | .inr (.regA _) => true | .inr (.regB _) => true | .inr (.guard _) => true | .inr (.opr _) => true | .inr .null => true
    | _ => false

/-- A core `c` after the moves of a bundle of the core `p`, whose sources are read at its start. -/
abbrev movesDone (s : State) (p : Fin 6) (b : Bundle) (c : Core) : Core :=
  (execMoves (s.core p) b).foldl (fun d m => applyMove (coreKind p) d m (srcVal s p (cycleWord (s.core p)) m.src)) c

/-- A core a bundle later, but for its moves: one cycle has passed and the pc stands behind the bundle. -/
abbrev bundleOn (b : Bundle) (c : Core) : Core :=
  { c with pc := c.pc + BitVec.ofNat 32 b.len, cycle := c.cycle + 1, prodAge := min 2 (c.prodAge + 1) }

/-- 02 R50: the bundle `b` lies at an address: a core fetches and decodes it there without a stall, whatever the cores hold. -/
abbrev BundleAt (s : State) (p : Fin 6) (a : Word) (b : Bundle) : Prop :=
  ∀ (cs : Vector Core 6) (l : Lockstep), decodeAt { s with cores := cs, pair := l } p a = (.bundle b, { s with cores := cs, pair := l })

/-- A command leaves a property two bundles of the core `p` later. -/
abbrev LeavesInTwo (i : Instr) (s : State) (p : Fin 6) (q : State → Prop) : Prop :=
  Leaves i s (fun s1 => Leaves (.bundleExecute p .ok .ok) s1 (fun s2 => Leaves (.bundleExecute p .ok .ok) s2 q))

/-- The bundle of one unit operation (02 R35). -/
abbrev unitBundle (p : Fin 6) (u : FU) (code : Nat) (g : Fin 8) (src : BitVec 13) : Bundle :=
  { moves := [{ guard := g.val, src := srcOf src.toNat, slot := unitSlot (coreKind p) u, dst := 0x900 + code }], lit := none, len := 4 }

/-- The state in which a core no longer stalls. -/
abbrev unstalled (s : State) (p : Fin 6) : State := s.upCore p (fun c => { c with stall := none })

/-- A core that stalls in a bundle and that nothing else holds up. -/
abbrev StallsIn (s : State) (p : Fin 6) (c : StallCause) (b : Bundle) : Prop :=
  (s.core p).stall = some { cause := c, bundle := some b } ∧ CoreReady (unstalled s p) p

end Sys2Proof.Safety
end

