-- ==== Sys2Proof/Certificates/Slice0/Obligations.lean ====
section
/-! DEFINITION. The statements made about the model. -/
open Sys2Proof Sys2Proof.Machine Sys2Proof.Safety Sys2Proof.Reg

/-- 00 R7: a read of a register whose fields are counts that clear when read returns the counts and leaves the register 0; nothing else changes. -/
def Obligations.CountReadsReturnAndClear : Prop :=
  ∀ (who : Nat) (n : Fin 64) (m : Fin 32) (s : State), ∀ x ∈ ([(.cecountRead who, DMC.CECOUNT), (.flcEcccntRead who, FLC.ECCCNT), (.stallmaxRead who, FLC.STALLMAX), (.mrcEcccntRead who, MRC.ECCCNT),
   (.rxcCnt0Read who n, CH.CH_CNT0 n), (.rxcCnt1Read who n, CH.CH_CNT1 n), (.rxcCnt2Read who n, CH.CH_CNT2 n), (.agccntRead who, RXC.AGCCNT),
   (.cwcntRead who, FEC.CWCNT), (.frmcntRead who, FEC.FRMCNT), (.itersumRead who, FEC.ITERSUM), (.itermaxRead who, FEC.ITERMAX),
   (.hdrcntRead who, FEC.HDRCNT), (.latmaxRead who, FEC.LATMAX), (.vitcntRead who, FEC.VITCNT), (.txcCntRead who, TXC.CNT),
   (.airtimeRead who, TXC.AIRTIME), (.maskstatRead who, TXC.MASKSTAT), (.maskworstRead who, TXC.MASKWORST), (.cntrxRead who, LNK.CNTRX),
   (.cntrejRead who, LNK.CNTREJ), (.cntsecRead who, LNK.CNTSEC), (.cntdropRead who, LNK.CNTDROP), (.cntackRead who, LNK.CNTACK),
   (.cntrlyRead who, LNK.CNTRLY), (.cntrlydRead who, LNK.CNTRLYD), (.cntovlRead who, LNK.CNTOVL), (.schcntRead who, LNK.SCHCNT),
   (.cntbcnRead who, LNK.CNTBCN), (.shcntRead who m, HUB.SHCNT m), (.aesCntRead who, AES.CNT), (.aesAuthfailRead who, AES.AUTHFAIL),
   (.aesMemerrRead who, AES.MEMERR), (.svcCntRead who, SVC.CNT), (.cecnt0Read who, FLT.CECNT0), (.cecnt1Read who, FLT.CECNT1)] : List (Instr × Nat)), Reaches s who x.2 false →
    exec x.1 s = .next { s.wr x.2 0 with rdata := s.rd x.2 }

/-- 03 R55, R52: an ALU operation whose guard holds writes its result to the port of its ALU one bundle later, and nothing else: `r` is the
result for the operand `o` and the trigger value `t`. -/
def Obligations.AluOperationWritesItsResult : Prop :=
  ∀ (p : Fin 6) (alu1 : Bool) (g : Fin 8) (src : BitVec 13) (v : Word) (s : State),
    CoreReady s p → SrcReads s p src v → GuardHolds s p g → (alu1 = true → p.val < 4) →
    ∀ x ∈ ([(.aluAdd p alu1 g src, fun o t => o + t), (.aluSub p alu1 g src, fun o t => o - t), (.aluAnd p alu1 g src, fun o t => o &&& t),
        (.aluOr p alu1 g src, fun o t => o ||| t), (.aluXor p alu1 g src, fun o t => o ^^^ t),
        (.aluEq p alu1 g src, fun o t => if o = t then 1 else 0), (.aluNe p alu1 g src, fun o t => if o = t then 0 else 1),
        (.aluLt p alu1 g src, fun o t => if o.toInt < t.toInt then 1 else 0), (.aluGe p alu1 g src, fun o t => if o.toInt < t.toInt then 0 else 1),
        (.aluLtu p alu1 g src, fun o t => if o.toNat < t.toNat then 1 else 0), (.aluGeu p alu1 g src, fun o t => if o.toNat < t.toNat then 0 else 1),
        (.aluMin p alu1 g src, fun o t => if o.toInt < t.toInt then o else t), (.aluMax p alu1 g src, fun o t => if o.toInt < t.toInt then t else o),
        (.aluMinu p alu1 g src, fun o t => if o.toNat < t.toNat then o else t), (.aluMaxu p alu1 g src, fun o t => if o.toNat < t.toNat then t else o),
        (.aluSxb p alu1 g src, fun _ t => (t.setWidth 8).signExtend 32), (.aluSxh p alu1 g src, fun _ t => (t.setWidth 16).signExtend 32),
        (.aluZxb p alu1 g src, fun _ t => (t.setWidth 8).setWidth 32), (.aluZxh p alu1 g src, fun _ t => (t.setWidth 16).setWidth 32)]
      : List (Instr × (Word → Word → Word))),
    RunsOn x.1 s p { oneOn (s.core p) with
      res := (s.core p).res.setIfInBounds (if alu1 then 1 else 0) (x.2 (if alu1 then (s.core p).opr[1] else (s.core p).opr[0]) v) }

/-- 03 R61, R52: an operation of the shifter whose guard holds writes `shf.r` one bundle later, and nothing else; `o`, `o2` and `t` are its
operands, `fieldWidth` and `fieldPos` the width and position of the field descriptor (R61). -/
def Obligations.ShiftOperationWritesItsResult : Prop :=
  ∀ (p : Fin 6) (g : Fin 8) (src : BitVec 13) (t : Word) (s : State),
    CoreReady s p → SrcReads s p src t → GuardHolds s p g → p.val < 5 →
    ∀ x ∈ ([(.shfSll p g src, fun o _ => o <<< (t.toNat % 32)), (.shfSrl p g src, fun o _ => o >>> (t.toNat % 32)),
        (.shfSra p g src, fun o _ => o.sshiftRight (t.toNat % 32)), (.shfRor p g src, fun o _ => o.rotateRight (t.toNat % 32)),
        (.shfExt p g src, fun o _ => BitVec.ofNat 32 (o.toNat / 2 ^ fieldPos t % 2 ^ fieldWidth t)),
        (.shfExts p g src, fun o _ => if fieldWidth t = 0 then 0 else sextW (fieldWidth t) (o.toNat / 2 ^ fieldPos t)),
        (.shfIns p g src, fun o o2 => (o2 &&& ~~~ (BitVec.ofNat 32 ((2 ^ fieldWidth t - 1) * 2 ^ fieldPos t))) |||
          ((o <<< fieldPos t) &&& BitVec.ofNat 32 ((2 ^ fieldWidth t - 1) * 2 ^ fieldPos t))),
        (.shfFsr p g src, fun o o2 => BitVec.ofNat 32 ((o2.toNat * 2 ^ 32 + o.toNat) / 2 ^ (t.toNat % 32))),
        (.shfClz p g src, fun _ _ => BitVec.ofNat 32 (clzOf t)), (.shfPop p g src, fun _ _ => BitVec.ofNat 32 (onesBelow 32 t.toNat)),
        (.shfRev p g src, fun _ _ => t.reverse), (.shfBswap p g src, fun _ _ => leWord (leBytes 4 t.toNat).reverse)]
      : List (Instr × (Word → Word → Word))),
    RunsOn x.1 s p { oneOn (s.core p) with res := (s.core p).res.setIfInBounds 2 (x.2 (s.core p).opr[4] (s.core p).opr[5]) }

/-- 03 R62, R52: an operation of the vector unit of an application core whose guard holds puts its result in flight to `simd.r`, which it
reaches at the end of the next bundle, with the saturation flag where a lane saturated (R62, R84); nothing else changes. -/
def Obligations.SimdOperationStartsItsResult : Prop :=
  ∀ (p : Fin 6) (g : Fin 8) (src : BitVec 13) (t : Word) (s : State),
    CoreReady s p → SrcReads s p src t → GuardHolds s p g → p.val < 4 →
    ∀ x ∈ ([(.simdAddB p g src, .addB, fun o _ => fromLanes 8 (fun i => lane 8 i o + lane 8 i t)),
        (.simdSubB p g src, .subB, fun o _ => fromLanes 8 (fun i => lane 8 i o + 256 - lane 8 i t)),
        (.simdAddsB p g src, .addsB, fun o _ => fromLanes 8 (fun i => satS 8 (sint 8 (lane 8 i o) + sint 8 (lane 8 i t)))),
        (.simdAddusB p g src, .addusB, fun o _ => fromLanes 8 (fun i => min 255 (lane 8 i o + lane 8 i t))),
        (.simdAvguB p g src, .avguB, fun o _ => fromLanes 8 (fun i => (lane 8 i o + lane 8 i t + 1) / 2)),
        (.simdAbsdB p g src, .absdB, fun o _ => fromLanes 8 (fun i => if lane 8 i o < lane 8 i t then lane 8 i t - lane 8 i o else lane 8 i o - lane 8 i t)),
        (.simdSadB p g src, .sadB, fun o o2 =>
          let d := fun i => if lane 8 i o < lane 8 i t then lane 8 i t - lane 8 i o else lane 8 i o - lane 8 i t
          o2 + BitVec.ofNat 32 (d 0 + d 1 + d 2 + d 3)),
        (.simdCmpeqB p g src, .cmpeqB, fun o _ => fromLanes 8 (fun i => if lane 8 i o = lane 8 i t then 0xFF else 0)),
        (.simdShufB p g src, .shufB, fun o _ => fromLanes 8 (fun i => lane 8 (t.toNat / 4 ^ i % 4) o)),
        (.simdAddH p g src, .addH, fun o _ => fromLanes 16 (fun i => lane 16 i o + lane 16 i t)),
        (.simdSubH p g src, .subH, fun o _ => fromLanes 16 (fun i => lane 16 i o + 65536 - lane 16 i t)),
        (.simdAddsH p g src, .addsH, fun o _ => fromLanes 16 (fun i => satS 16 (sint 16 (lane 16 i o) + sint 16 (lane 16 i t)))),
        (.simdSubsH p g src, .subsH, fun o _ => fromLanes 16 (fun i => satS 16 (sint 16 (lane 16 i o) - sint 16 (lane 16 i t)))),
        (.simdMulH p g src, .mulH, fun o _ => fromLanes 16 (fun i => lane 16 i o * lane 16 i t)),
        (.simdDotH p g src, .dotH, fun o o2 => o2 + BitVec.ofInt 32 (sint 16 (lane 16 0 o) * sint 16 (lane 16 0 t) + sint 16 (lane 16 1 o) * sint 16 (lane 16 1 t))),
        (.simdMaxH p g src, .maxH, fun o _ => fromLanes 16 (fun i => if sint 16 (lane 16 i o) < sint 16 (lane 16 i t) then lane 16 i t else lane 16 i o)),
        (.simdMinH p g src, .minH, fun o _ => fromLanes 16 (fun i => if sint 16 (lane 16 i o) < sint 16 (lane 16 i t) then lane 16 i o else lane 16 i t))]
      : List (Instr × SimdOp × (Word → Word → Word))),
    RunsOn x.1 s p { oneOn (s.core p) with
      fly := [{ left := 1, writes := [(3, x.2.2 (s.core p).opr[6] (s.core p).opr[7])], uflags := simdFlags x.2.1 (s.core p).opr[6] t }] }

/-- 03 R57, R58: a product whose guard holds goes to `mul.p1` when the last product trigger lies at most two bundles back and used
`mul.p0`, else to `mul.p0`; it is in flight for two more bundles.  `mac`, `macu` and `accw` put the new accumulator in flight, with AOVF where
the sum leaves its range (R57). -/
def Obligations.MulOperationStartsItsResult : Prop :=
  ∀ (p : Fin 6) (g : Fin 8) (src : BitVec 13) (t : Word) (s : State),
    CoreReady s p → SrcReads s p src t → GuardHolds s p g → p.val < 5 →
    (∀ x ∈ ([(.mulMul p g src, fun o => o * t), (.mulMulh p g src, fun o => BitVec.ofInt 32 (o.toInt * t.toInt / 2 ^ 32)),
        (.mulMulhu p g src, fun o => BitVec.ofNat 32 (o.toNat * t.toNat / 2 ^ 32))] : List (Instr × (Word → Word))),
      RunsOn x.1 s p { s.core p with
        pc := (s.core p).pc + 4, cycle := (s.core p).cycle + 1, prodAge := 0,
        prodP1 := decide ((s.core p).prodAge < 2) && !(s.core p).prodP1,
        fly := [{ left := 2, writes := [(if (s.core p).prodAge < 2 ∧ (s.core p).prodP1 = false then 8 else 7, x.2 (s.core p).opr[2])] }] }) ∧
    (∀ x ∈ ([(.mulMac p g src, .mac, fun acc o => acc + BitVec.ofInt 64 (o.toInt * t.toInt)),
        (.mulMacu p g src, .macu, fun acc o => acc + BitVec.ofNat 64 (o.toNat * t.toNat)),
        (.mulAccw p g src, .accw, fun _ _ => BitVec.ofInt 64 t.toInt)] : List (Instr × MulOp × (BitVec 64 → Word → BitVec 64))),
      let acc := BitVec.ofNat 64 ((s.core p).res[9].toNat + 2 ^ 32 * (s.core p).res[10].toNat)
      RunsOn x.1 s p { oneOn (s.core p) with
        fly := [{ left := 2, writes := [(9, BitVec.ofNat 32 (x.2.2 acc (s.core p).opr[2]).toNat),
                   (10, BitVec.ofNat 32 ((x.2.2 acc (s.core p).opr[2]).toNat / 2 ^ 32))], uflags := accFlags x.2.1 acc (s.core p).opr[2] t }] })

/-- 03 R59, R60: a division whose guard holds on an idle divider is in flight for 17 more bundles; a zero divisor gives all ones or the
dividend and sets DZ.  03 R56: the two multiplies of the small configuration's ALU are in flight for seven more. -/
def Obligations.LongOperationStartsItsResult : Prop :=
  ∀ (p : Fin 6) (g : Fin 8) (src : BitVec 13) (t : Word) (s : State),
    CoreReady s p → SrcReads s p src t → GuardHolds s p g →
    (p.val < 5 → ∀ x ∈ ([(.mulDiv p g src, fun o => if t = 0 then 0xFFFFFFFF else BitVec.ofInt 32 (o.toInt.tdiv t.toInt)),
        (.mulDivu p g src, fun o => if t = 0 then 0xFFFFFFFF else BitVec.ofNat 32 (o.toNat / t.toNat)),
        (.mulRem p g src, fun o => if t = 0 then o else BitVec.ofInt 32 (o.toInt.tmod t.toInt)),
        (.mulRemu p g src, fun o => if t = 0 then o else BitVec.ofNat 32 (o.toNat % t.toNat))] : List (Instr × (Word → Word))),
      RunsOn x.1 s p { oneOn (s.core p) with
        fly := [{ left := 17, kind := .divide, writes := [(7, x.2 (s.core p).opr[2])], uflags := if t = 0 then 1 else 0 }] }) ∧
    (p.val = 5 → ∀ x ∈ ([(.aluMul p g src, fun o => o * t), (.aluMulh p g src, fun o => BitVec.ofInt 32 (o.toInt * t.toInt / 2 ^ 32))]
        : List (Instr × (Word → Word))),
      RunsOn x.1 s p { oneOn (s.core p) with fly := [{ left := 7, kind := .iterative, writes := [(0, x.2 (s.core p).opr[0])] }] })

/-- 03 R52, R56, R59: the cycles pass until the one result in flight is written: its port takes the value, `UFLAGS` its flags, and
`QSTAT.CODE` its code; the unit is then free. -/
def Obligations.ResultInFlightIsWritten : Prop :=
  ∀ (p : Fin 6) (s : State) (left i : Nat) (r u : Word),
    ∀ x ∈ ([(.unitResultWrite p, .fixed), (.iterativeMulDone p, .iterative), (.divideDone p, .divide)] : List (Instr × FlightKind)),
    (s.core p).fly = [{ left := left, kind := x.2, writes := [(i, r)], uflags := u }] → 0 < left →
    RunsOn x.1 s p { s.core p with
      fly := [], cycle := (s.core p).cycle + BitVec.ofNat 64 left,
      res := (s.core p).res.setIfInBounds i r, uflags := (s.core p).uflags ||| u }

/-- 03 R72, R79, 02 R36: a control transfer whose guard holds takes effect after the two bundles behind it; until then the core runs on with
the transfer waiting.  `br` and `call` count from their own bundle; a call writes the address behind its two delay bundles, `b1` and `b2`, to
`cu.ra`; `eret` needs PRIV and will restore the current frame.  Where the two bundles behind it are of plain moves, their execution ends with
the transfer: the core stands at the target, or `eret` has restored the pc, the guards, `PSTAT` and the shadowed ports of the current frame. -/
def Obligations.TransferWaitsForItsDelayBundles : Prop :=
  ∀ (p : Fin 6) (g : Fin 8) (src : BitVec 13) (t : Word) (s : State),
    CoreReady s p → SrcReads s p src t → GuardHolds s p g →
    (∀ x ∈ ([(.cuJmp p g src, t), (.cuRet p g src, t), (.cuBr p g src, (s.core p).pc + t)] : List (Instr × Word)),
      RunsOn x.1 s p { oneOn (s.core p) with xfer := some { target := x.2, left := 2 } }) ∧
    (∀ b1 b2 : Bundle, decodeAt s p ((s.core p).pc + 4) = (.bundle b1, s) →
      decodeAt s p ((s.core p).pc + 4 + BitVec.ofNat 32 b1.len) = (.bundle b2, s) →
      ∀ x ∈ ([(.cuCall p g src, (s.core p).pc + t), (.cuCallr p g src, t)] : List (Instr × Word)),
        RunsOn x.1 s p { oneOn (s.core p) with
          xfer := some { target := x.2, left := 2 }
          res := (s.core p).res.setIfInBounds 5 ((s.core p).pc + 4 + BitVec.ofNat 32 (b1.len + b2.len)) }) ∧
    (pstatBit (s.core p) PSTAT.priv = true →
      RunsOn (.cuEret p g src) s p { oneOn (s.core p) with xfer := some { target := 0, left := 2, eret := true } }) ∧
    (∀ b1 b2 : Bundle, BundleAt s p ((s.core p).pc + 4) b1 → BundleAt s p ((s.core p).pc + 4 + BitVec.ofNat 32 b1.len) b2 →
      b1.moves.all (plainMove (coreKind p)) = true → b2.moves.all (plainMove (coreKind p)) = true → b1.len % 4 = 0 →
      let f := (s.core p).frames[curFrame (s.core p)]
      let apart := fun (u : State) => (∀ q, q ≠ p → u.core q = s.core q) ∧ u.regs = s.regs ∧ u.mem = s.mem
      (∀ x ∈ ([(.cuJmp p g src, t), (.cuRet p g src, t), (.cuBr p g src, (s.core p).pc + t)] : List (Instr × Word)), x.2.toNat % 4 = 0 →
        LeavesInTwo x.1 s p (fun u => (u.core p).pc = x.2 ∧ (u.core p).xfer = none ∧ (u.core p).res = (s.core p).res ∧ (u.core p).pstat = (s.core p).pstat ∧ apart u)) ∧
      (∀ x ∈ ([(.cuCall p g src, (s.core p).pc + t), (.cuCallr p g src, t)] : List (Instr × Word)), x.2.toNat % 4 = 0 →
        LeavesInTwo x.1 s p (fun u => (u.core p).pc = x.2 ∧ (u.core p).xfer = none ∧
          (u.core p).res = (s.core p).res.setIfInBounds 5 ((s.core p).pc + 4 + BitVec.ofNat 32 (b1.len + b2.len)) ∧ (u.core p).pstat = (s.core p).pstat ∧ apart u)) ∧
      (pstatBit (s.core p) PSTAT.priv = true → f.epc.toNat % 4 = 0 → bitsOf f.ecause 17 16 = 0 →
        LeavesInTwo (.cuEret p g src) s p (fun u => (u.core p).pc = f.epc ∧ (u.core p).xfer = none ∧ (u.core p).g = f.grd ∧ (u.core p).pstat = f.pstat ∧
          (∀ i : Fin 6, (u.core p).res[7 + i.val] = f.ports[i]) ∧ apart u)))

/-- 03 R73, 02 R47: `loop` with a count other than 0 arms the loop from the next bundle to the one at the distance given; with a count of 0
the core goes on behind that bundle, with no loop armed; `limm` writes its
literal word to `cu.imm` and the core goes on behind the literal. -/
def Obligations.LoopArmsAndLimmWrites : Prop :=
  ∀ (p : Fin 6) (g : Fin 8) (s : State), CoreReady s p → GuardHolds s p g →
    (∀ (src : BitVec 13) (t : Word), SrcReads s p src t → (s.core p).opr[9] ≠ 0 →
      RunsOn (.cuLoop p g src) s p { oneOn (s.core p) with
        lcount := (s.core p).opr[9], lstart := (s.core p).pc + 4, lend := (s.core p).pc + t
        pstat := withBits (s.core p).pstat 3 3 1 }) ∧
    (∀ (src : BitVec 13) (t : Word) (b : Bundle), SrcReads s p src t → (s.core p).opr[9] = 0 → t.toNat % 4 = 0 →
      decodeAt s p ((s.core p).pc + t) = (.bundle b, s) → b.len % 4 = 0 →
      RunsOn (.cuLoop p g src) s p { oneOn (s.core p) with
        lcount := 0, lstart := (s.core p).pc + 4, lend := (s.core p).pc + t, pc := (s.core p).pc + t + BitVec.ofNat 32 b.len
        pstat := withBits (s.core p).pstat 3 3 0 }) ∧
    (∀ lit : Word, RunsOn (.cuLimm p g lit) s p { oneOn (s.core p) with
        pc := (s.core p).pc + 8, res := (s.core p).res.setIfInBounds 6 lit })

/-- 03 R80, R82: a `trap` whose guard holds completes and then takes the exception of cause 6 with the low byte of its source as detail: the
exception frame takes the address behind the bundle, the guards, `PSTAT` and the shadowed ports, `PSTAT` becomes privileged with EXC set, IE,
and LACT clear, the reservation is lost, and the core goes on at `IVBASE` + 0x800. -/
def Obligations.TrapTakesTheSoftwareException : Prop :=
  ∀ (p : Fin 6) (g : Fin 8) (src : BitVec 13) (t : Word) (s : State),
    CoreReady s p → SrcReads s p src t → GuardHolds s p g → pstatBit (s.core p) PSTAT.exc = false →
    let c := s.core p
    RunsOn (.cuTrap p g src) s p { oneOn c with
      frames := c.frames.set 4 { c.frames[4] with
        epc := c.pc + 4, grd := c.g, pstat := c.pstat, ports := Vector.ofFn (fun i : Fin 6 => c.res[7 + i.val])
        ecause := BitVec.ofNat 32 (6 + 256 * (t.toNat % 256)), eaddr := 0, ebt := 0 }
      pstat := (c.pstat &&& 0xF0) ||| 0x06, resv := none, pc := c.ivbase + 0x800 }

/-- 03 R63, R67, 01 R21: a load of a core with a TCM from its own TCM, aligned, is in flight for one more bundle with the bytes there,
extended as the operation says; `lr.w` also sets the reservation of its 32-byte granule. -/
def Obligations.LoadReadsOwnTcm : Prop :=
  ∀ (p : Fin 6) (g : Fin 8) (src : BitVec 13) (o : Nat) (s : State),
    CoreReady s p → SrcReads s p src (BitVec.ofNat 32 (0x10000000 + o)) → GuardHolds s p g → p.val < 5 → o < 0x20000 →
    let ph := 0x11000000 + 0x100000 * p.val + o
    (∀ x ∈ ([(.lsuLdW p g src .ok, 4, fun n => BitVec.ofNat 32 n), (.lsuLdH p g src .ok, 2, fun n => (BitVec.ofNat 16 n).signExtend 32),
        (.lsuLdHu p g src .ok, 2, fun n => BitVec.ofNat 32 n), (.lsuLdB p g src .ok, 1, fun n => (BitVec.ofNat 8 n).signExtend 32),
        (.lsuLdBu p g src .ok, 1, fun n => BitVec.ofNat 32 n)] : List (Instr × Nat × (Nat → Word))),
      o % x.2.1 = 0 →
      RunsOn x.1 s p { oneOn (s.core p) with fly := [{ left := 1, writes := [(11, x.2.2 (s.ld ph x.2.1))] }] }) ∧
    (o % 4 = 0 →
      RunsOn (.lsuLrW p g src .ok) s p { oneOn (s.core p) with
        fly := [{ left := 1, writes := [(11, BitVec.ofNat 32 (s.ld ph 4))] }], resv := some (ph / 32 * 32) })

/-- 03 R66: a `fence` whose guard holds is past once the write buffer of its core and that of the MRAM are empty. -/
def Obligations.FencePassesWithEmptyBuffers : Prop :=
  ∀ (p : Fin 6) (g : Fin 8) (src : BitVec 13) (a : Word) (s : State),
    CoreReady s p → SrcReads s p src a → GuardHolds s p g → (s.core p).wbuf = [] → s.nvm.mbuf = [] →
    RunsOn (.lsuFence p g src) s p (oneOn (s.core p))

/-- 03 R65, R67, R68: a store of a core with a TCM to its own TCM, aligned, while no page is in its final copy: the bytes of the stored
size at that address take the low bytes of `lsu.o`, no other byte changes, and every other core loses a reservation that the bytes touch.
`sc.w` stores so, with code 0, when the reservation of the core is on the granule; otherwise it stores nothing and its code is 1; it
always ends the reservation. -/
def Obligations.StoreWritesOwnTcm : Prop :=
  ∀ (p : Fin 6) (g : Fin 8) (src : BitVec 13) (o : Nat) (s : State),
    CoreReady s p → SrcReads s p src (BitVec.ofNat 32 (0x10000000 + o)) → GuardHolds s p g → p.val < 5 → o < 0x20000 →
    s.pair.undo.length < 383 → (∀ c, migState s c ≠ 3) →
    let ph := 0x11000000 + 0x100000 * p.val + o
    let stores := fun (i : Instr) (n : Nat) (c : Core) => Leaves i s (fun t =>
      t.core p = c ∧ t.regs = s.regs ∧
      (∀ b, t.byte b = if ph ≤ b ∧ b < ph + n then BitVec.ofNat 8 ((s.core p).opr[3].toNat / 256 ^ (b - ph)) else s.byte b) ∧
      ∀ q, q ≠ p → t.core q = match (s.core q).resv with
        | some r => if r < ph + n ∧ ph < r + 32 then { s.core q with resv := none } else s.core q
        | none => s.core q)
    (∀ x ∈ ([(.lsuStW p g src, 4), (.lsuStH p g src, 2), (.lsuStB p g src, 1)] : List (Instr × Nat)),
      o % x.2 = 0 → stores x.1 x.2 (oneOn (s.core p))) ∧
    (o % 4 = 0 → if (s.core p).resv = some (ph / 32 * 32) then
        stores (.lsuScW p g src) 4 { oneOn (s.core p) with fly := [{ left := 1, writes := [(12, 0)] }], resv := none }
      else RunsOn (.lsuScW p g src) s p { oneOn (s.core p) with fly := [{ left := 1, writes := [(12, 1)] }], resv := none })

/-- 03 R69, R353, R71: the QU operations of a core whose guard holds.  `cnt` is in flight with the entries of the queue; `deqnb`, and
`deq` where it need not wait, with what the queue block answers in `s1`; `enq` and `sig` with 0, `QSTAT` to take the code; the queue
block leaves its registers and the rings as in `s1`.  The operations of the queue block and of the cue lines that reach no core here
(`Apart`) are those whose events no core waits for. -/
def Obligations.QueueOperationStartsItsResult : Prop :=
  ∀ (p : Fin 6) (g : Fin 8) (src : BitVec 13) (t : Word) (s : State),
    CoreReady s p → SrcReads s p src t → GuardHolds s p g → p.val < 5 → s.pair.inlog.length < 191 →
    let q := t.toNat % 128
    let ends := fun (w : Word) (c : Nat) => { oneOn (s.core p) with fly := [{ left := 1, writes := [(4, w)], qcode := some c }] }
    let apart := fun (s1 : State) => s1.cores = s.cores ∧ s1.pair = s.pair ∧ s1.rd DBG.HALT = s.rd DBG.HALT
    let runs := fun (i : Instr) (c : Core) (s1 : State) => Leaves i s (fun u => u.core p = c ∧ (∀ r, r ≠ p → u.core r = s.core r) ∧
      u.regs = s1.regs ∧ u.mem = s1.mem)
    RunsOn (.quCnt p g src) s p (ends (BitVec.ofNat 32 (qCnt s q (coreInit p)).2) (qCnt s q (coreInit p)).1) ∧
    (∀ (c : Nat) (w : Word) (s1 : State), qDeq s q (coreInit p) = (c, w, s1) → apart s1 →
      runs (.quDeqnb p g src) (ends (if c = 0 then w else 0) c) s1 ∧
      ((qOn s q = true → qAllowed s q (coreInit p) false = true → qCount s q ≠ 0) →
        runs (.quDeq p g src) (ends (if c = 0 then w else 0) c) s1)) ∧
    (∀ (c : Nat) (s1 : State), (s.core p).wbuf = [] → qEnq s q (coreInit p) ((s.core p).opr[8]) = (c, s1) → apart s1 →
      runs (.quEnq p g src) (ends 0 c) s1) ∧
    (if ownsChan s (coreInit p) (t.toNat % 64) = true then
        apart (cueSignal s (t.toNat % 64)) → runs (.quSig p g src) (ends 0 0) (cueSignal s (t.toNat % 64))
      else runs (.quSig p g src) (ends 0 2) s) ∧
    ((s.core p).latch = true → RunsOn (.quWfe p g src) s p { ends 1 0 with latch := false })

/-- 03 R71, R72: a `cu.wfe` of the prompter with its event latch set completes at once and clears the latch. -/
def Obligations.WaitEndsWithTheEventLatch : Prop :=
  ∀ (g : Fin 8) (src : BitVec 13) (t : Word) (s : State), CoreReady s 5 → SrcReads s 5 src t → GuardHolds s 5 g → (s.core 5).latch = true →
    RunsOn (.cuWfe 5 g src) s 5 { oneOn (s.core 5) with latch := false }

/-- 02 R50, R29, 03 R81: at a boundary, a core fetches and decodes the bundle at its pc completely and then executes it; a bundle that decoding
refuses raises the illegal-bundle exception with the address of the bundle.  A bundle of plain moves completes: its moves whose guards hold
write what their sources held at its start, one cycle has passed, and the core stands behind it. -/
def Obligations.BundleAtThePcIsExecuted : Prop :=
  ∀ (p : Fin 6) (e : Ecc) (s s1 : State), canRun s p = true → (s.core p).stall = none → (s.core p).held = [] → replays s p = false →
    (∀ b : Bundle, decodeAt s p (s.core p).pc = (.bundle b, s1) → exec (.bundleExecute p .ok e) s = .next (runBundle s1 p b e)) ∧
    (∀ d n : Nat, decodeAt s p (s.core p).pc = (.illegal d n, s1) → pstatBit (s1.core p) PSTAT.exc = false →
      exec (.bundleExecute p .ok e) s = .next (s1.upCore p (fun c => exceptionEntry c 1 d 0 (s.core p).pc))) ∧
    (∀ b : Bundle, CoreReady s p → decodeAt s p (s.core p).pc = (.bundle b, s) → b.moves.all (plainMove (coreKind p)) = true → b.len % 4 = 0 →
      RunsOn (.bundleExecute p .ok e) s p (movesDone s p b (bundleOn b (s.core p))))

/-- 03 R75, R76: the line that is selected enters at a boundary outside a delay window: once the fixed-latency results in flight are written,
the frame of its priority takes the pc, the guards, `PSTAT` and the shadowed ports, the level becomes active, PRIV is set and LACT clear, the
reservation is lost, a division in flight is redirected to the frame, and the core goes on at `IVBASE` + 0x40 × line.
03 R80, R82: the oldest error response of a buffered store, with address `a`, raises the imprecise bus error at a boundary outside a delay
window while EXC is 0: the exception frame takes the cause 2 with detail 4, the address, and what an entry saves. -/
def Obligations.InterruptsAndBusErrorsAreTaken : Prop :=
  (∀ (p : Fin 6) (n : Nat) (s : State), selectLine s p = some n → entryOpen s p = true →
      let c := drainFixed (s.core p)
      let k : Fin 5 := Fin.ofNat 5 (linePrio c n % 4)
      RunsOn (.interruptEntry p) s p { c with
        frames := c.frames.set k { c.frames[k] with epc := c.pc, grd := c.g, pstat := c.pstat, ports := Vector.ofFn (fun i : Fin 6 => c.res[7 + i.val]) }
        pstat := withBits ((c.pstat ||| 0x02) &&& 0xF7) (4 + k.val) (4 + k.val) 1
        fly := c.fly.map (fun x => if x.kind = .divide ∧ x.frame = none then { x with frame := some k } else x)
        resv := none, iline := BitVec.ofNat 32 n, pc := c.ivbase + BitVec.ofNat 32 (0x40 * n), stall := none, got := [], flines := [] }) ∧
  (∀ (p : Fin 6) (a : Word) (rest : List Word) (s : State), canRun s p = true → (s.core p).held = a :: rest → (s.core p).xfer = none →
      (s.core p).stall = none → (s.core p).fly = [] → pstatBit (s.core p) PSTAT.exc = false → inReplay s p = false →
      let c := s.core p
      RunsOn (.impreciseBusError p) s p { c with
        held := rest
        frames := c.frames.set 4 { c.frames[4] with
          epc := c.pc, grd := c.g, pstat := c.pstat, ports := Vector.ofFn (fun i : Fin 6 => c.res[7 + i.val]), ecause := 0x402, eaddr := a, ebt := 0 }
        pstat := (c.pstat &&& 0xF0) ||| 0x06, resv := none, pc := c.ivbase + 0x800, got := [], flines := [] })

/-- 02 R33 to R36, R40, R43, R44, R46, R47: decoding reads back what encoding spells.  For every configuration and every legal bundle, whatever its slots, guards, sources, immediates and
destinations, the syllables (the last with its stop bit) and the literal of a long immediate, as they are fetched from an address on, decode to exactly these moves, this literal and
the length of these words; and a core fetches from its own TCM the word whose bytes lie there lowest first. -/
def Obligations.DecodingReadsBackEveryBundle : Prop :=
  (∀ (p : Fin 6) (a : Word) (xs : List Syl) (lit : Option Word) (s : State), xs ≠ [] → illegalCode (coreKind p) (encodeSyls xs) = none →
    lit.isSome = endsInLimm (coreKind p) (encodeSyls xs) →
    let ws := encodeSyls xs ++ lit.toList
    (∀ (i : Nat) (w : Word), ws[i]? = some w → fetchWord s p ((a.toNat + 4 * i) % 2 ^ 32) = (.word w, s)) →
    decodeAt s p a = (.bundle { moves := xs.map sylMove, lit := lit, len := 4 * ws.length }, s)) ∧
  (∀ (p : Fin 6) (o : Nat) (s : State), p.val < 5 → o < 0x20000 → o % 4 = 0 → s.dom (coreDom p) = .on → s.bit FLT.INJCTRL 16 = false →
    let b := fun i : Nat => (s.byte (0x11000000 + 0x100000 * p.val + o + i)).toNat
    fetchWord s p (0x10000000 + o) = (.word (BitVec.ofNat 32 (b 0 + 0x100 * b 1 + 0x10000 * b 2 + 0x1000000 * b 3)), s))

/-- 03 R71: a core that waits in a `wfe` wakes by its event latch, by an enabled line, or by both; the latch is cleared and its bundle completes
with the cause that it will read: the bundle of a `qu.wfe` on its own puts that cause in flight. -/
def Obligations.WaitWakesWithItsCause : Prop :=
  (∀ (p : Fin 6) (b : Bundle) (s : State), (s.core p).stall = some { cause := .wfe, bundle := some b } → canFinish s p = true →
    (s.core p).latch = true ∨ wakeLine s p = true → (s.core p).got = [] →
    exec (.wfeWake p) s = .next (runBundle (s.upCore p (fun c => { c with
      latch := false, stall := none, got := [.wake (natBit c.latch + 2 * natBit (wakeLine s p))] })) p b)) ∧
  (∀ (p : Fin 6) (g : Fin 8) (src : BitVec 13) (s : State), p.val < 5 → StallsIn s p .wfe (unitBundle p .qu (quCode .wfe) g src) →
    (∀ id, srcOf src.toNat = .sock id → srcExists (coreKind p) id = true ∧ id ≠ 0x210) → GuardHolds s p g → s.pair.inlog.length < 191 →
    (s.core p).latch = true ∨ wakeLine s p = true →
    RunsOn (.wfeWake p) s p { oneOn ((unstalled s p).core p) with
      latch := false, fly := [{ left := 1, writes := [(4, BitVec.ofNat 32 (natBit (s.core p).latch + 2 * natBit (wakeLine s p)))], qcode := some 0 }] })

/-- 03 R70, R69: an entry on a queue serves the core that waits for it: its bundle is executed again, and the bundle of a `deq` on its own
puts in flight what the queue block answers in `s1`. -/
def Obligations.ArrivingEntryServesTheWaiter : Prop :=
  (∀ (q : Fin 128) (p : Fin 6) (b : Bundle) (s : State), p.val < 5 → (s.core p).stall = some { cause := .deq q, bundle := some b } → canFinish s p = true →
    qCount s q ≠ 0 → (∀ r, r ≠ p → (s.core r).stall = none) → (∀ r, r ≠ p → ((runBundle (unstalled s p) p b).core r).stall = none) →
    exec (.deqEntryArrives q) s = .next (runBundle (unstalled s p) p b)) ∧
  (∀ (q : Fin 128) (p : Fin 6) (g : Fin 8) (src : BitVec 13) (t w : Word) (c : Nat) (s s1 : State), p.val < 5 →
    StallsIn s p (.deq q) (unitBundle p .qu (quCode .deq) g src) → SrcReads (unstalled s p) p src t → t.toNat % 128 = q.val → GuardHolds s p g →
    s.pair.inlog.length < 191 → qCount s q ≠ 0 → (∀ r, r ≠ p → (s.core r).stall = none) → qDeq (unstalled s p) q (coreInit p) = (c, w, s1) →
    s1.cores = (unstalled s p).cores → s1.pair = s.pair → s1.rd DBG.HALT = s.rd DBG.HALT →
    Leaves (.deqEntryArrives q) s (fun u => u.core p = { oneOn ((unstalled s p).core p) with
        fly := [{ left := 1, writes := [(4, if c = 0 then w else 0)], qcode := some c }] } ∧
      (∀ r, r ≠ p → u.core r = s.core r) ∧ u.regs = s1.regs ∧ u.mem = s1.mem))

/-- 03 R54, R63, R52: a load for which a bundle stalls returns after `wait` stall cycles: the bundle is executed again with the number
read from the bytes of memory, and with the bytes of the core's own earlier stores (R65); the bundle of a load on its own puts that number,
extended as the operation says, in flight. -/
def Obligations.LoadReturnsItsBytes : Prop :=
  (∀ (p : Fin 6) (va ph wait : Nat) (b : Bundle) (op : LsuOp) (src : Src) (bs : List Byte) (s s1 : State),
    (s.core p).stall = some { cause := .access va ph none false, bundle := some b } → lsuOf (coreKind p) (execMoves (s.core p) b) = some (op, src) →
    op ≠ .scW → op ≠ .lrW → targetOf ph ≠ .periph → flashWaits s ph = false → canFinish s p = true →
    pathRead s (coreInit p) va ph none (lsuSize op) false false .ok .ok 0 = (some bs, s1) →
    exec (.loadReturn p .ok .ok 0 wait) s =
      .next (resume (logInput (waitServed s1 p ph wait) p (.value (leNat (forward (s1.core p) ph bs)))) p b (.load (leNat (forward (s1.core p) ph bs))) wait)) ∧
  (∀ (p : Fin 6) (g : Fin 8) (src : BitVec 13) (a : Word) (va ph wait : Nat) (op : LsuOp) (bs : List Byte) (s s1 : State),
    StallsIn s p (.access va ph none false) (unitBundle p .lsu (lsuCode op) g src) → op ≠ .scW → op ≠ .lrW → op ≠ .fence →
    targetOf ph ≠ .periph → targetOf ph ≠ .flash → pathRead s (coreInit p) va ph none (lsuSize op) false false .ok .ok 0 = (some bs, s1) →
    s1.cores = s.cores → s1.pair = s.pair → s1.regs = s.regs → s1.doms = s.doms → s.pair.inlog.length < 191 → GuardHolds s p g →
    let n := leNat (forward (s.core p) ph bs)
    SrcReads ((logInput s1 p (.value n)).upCore p (fun c => { passCycles wait c with got := c.got ++ [.load n], stall := none })) p src a → a.toNat % lsuSize op = 0 →
    Leaves (.loadReturn p .ok .ok 0 wait) s (fun t => t.core p = { oneOn ((unstalled s p).core p) with
        cycle := (s.core p).cycle + BitVec.ofNat 64 wait + 1, fly := [{ left := 1, writes := [(11, lsuExtend op n)] }] } ∧
      (∀ q, q ≠ p → t.core q = s.core q) ∧ t.regs = s.regs ∧ t.mem = s1.mem))

/-- 03 R54, 02 R50: the line for which the fetch of a bundle stalls arrives: its stall ends, `wait` cycles have passed, and the core holds the
line until the bundle ends. -/
def Obligations.FetchBringsItsLine : Prop :=
  ∀ (p : Fin 6) (va line wait : Nat) (s s1 : State), (s.core p).stall = some { cause := .fetch va line, bundle := none } → canFinish s p = true →
    (s.core p).run = .running → flashWaits s line = false → fetchLine s p va line .ok .ok 0 = (true, s1) → (s1.core p).run = .running →
    exec (.fetchComplete p .ok .ok 0 wait) s = .next ((waitServed s1 p line wait).upCore p (fun c => { passCycles wait c with stall := none }))

/-- 03 R65, R80: the oldest entry of a write buffer is performed at its address; an error response of its target is held for the core. -/
def Obligations.OldestBufferedStoreIsPerformed : Prop :=
  ∀ (p : Fin 6) (syn : BitVec 8) (e : WEntry) (rest : List WEntry) (s s1 : State), (s.core p).wbuf = e :: rest → e.bad = false →
    (pathWrite (s.upCore p (fun c => { c with wbuf := rest })) (coreInit p) e.va e.addr e.cp (leBytes e.size e.data.toNat) e.sec syn = (false, s1) →
      exec (.writeBufferDrain p syn) s = .next s1) ∧
    (pathWrite (s.upCore p (fun c => { c with wbuf := rest })) (coreInit p) e.va e.addr e.cp (leBytes e.size e.data.toNat) e.sec syn = (true, s1) →
      exec (.writeBufferDrain p syn) s = .next (s1.upCore p (fun c => { c with held := c.held ++ [BitVec.ofNat 32 e.va] })))

/-- 04 R98, 01 R10: what a main reset leaves.  A pin, software or health reset keeps every byte of memory and adds its cause to
`SYS.RSTCAUSE`; a power-on reset loses every memory but flash and MRAM and sets its causes alone; a flash operation in progress is first cut
short (`flashCut`, 07 R187; nothing where there is none).  Every register of a list that is kept keeps its value, every other one but
`RSTCAUSE` and, kept apart, the warm count `FLT.ESC`, has its reset value, and so has an unlearned entry of the trim table (18 R454); the
lifecycle alone may change where an OTP command is cut short.  The cores stand as after reset and the commands that wait stay.  A reset of the
backup domain (18 R458) also takes the level of `PWR_DEF`. -/
def Obligations.MainResetLeavesResetRegisters : Prop :=
  ∀ (s : State),
    let kept := fun (t : State) (keep : Nat → Bool) (a : Nat) => (a = SYS.LIFECYCLE → s.keys.otpCmd = none) → (unlearned (a, s.rd a) = true → sparseWf regReset s.regs = true) →
      t.rd a = if (keep a && !unlearned (a, s.rd a)) = true then s.rd a else regReset a
    let cold := fun (i : Instr) (cause : Nat) => Leaves i s (fun t => t.rd SYS.RSTCAUSE = BitVec.ofNat 32 cause ∧
      (∀ a, a ≠ SYS.RSTCAUSE → kept t keptAtPower a) ∧
      (∀ b, t.byte b = if nonVolatile b = true then (flashCut s).byte b else memDefault b) ∧ t.cores = State.reset.cores ∧ t.doms = State.reset.doms ∧ t.pending = s.pending)
    let warm := fun (i : Instr) (cause : Nat) => Leaves i s (fun t => t.rd SYS.RSTCAUSE = BitVec.ofNat 32 ((s.rd SYS.RSTCAUSE).toNat ||| cause) ∧
      (∀ a, a ≠ SYS.RSTCAUSE → a ≠ FLT.ESC → kept t keptReg a) ∧
      t.fld FLT.ESC 15 8 = s.fld FLT.ESC 15 8 ∧
      (∀ b, t.byte b = (flashCut s).byte b) ∧ t.cores = State.reset.cores ∧ t.doms = State.reset.doms ∧ t.pending = s.pending)
    (s.nvm.prog = none → s.nvm.erase = none → flashCut s = s) ∧
    cold (.mainPor false) 2 ∧ cold (.mainPor true) 6 ∧ warm .pinReset 8 ∧ (s.boot.grace = true → s.boot.graceLeft ≤ 1 → warm .healthGraceEnd 0x20) ∧
    (∀ (who : Nat) (v : Word), Reaches s who SYS.SWRST true → warm (.softwareReset who v) 0x10) ∧
    (∀ pwrDef : Bool, Leaves (.backupDomainPor pwrDef) s (fun t => t.rd SYS.RSTCAUSE = 1 ∧ (∀ a, a ≠ SYS.RSTCAUSE → a / 4096 ≠ 0x30003 → kept t keptAtPower a) ∧
      (∀ a, a / 4096 = 0x30003 → a ≠ RTC.CAPSTEP → a ≠ RTC.STATUS → a ≠ RTC.PWRON → (unlearned (a, regReset a) = true → sparseWf regReset s.regs = true) → t.rd a = regReset a) ∧ t.rd RTC.CAPSTEP = s.rd RTC.CAPSTEP ∧
      t.bit RTC.STATUS 6 = pwrDef ∧ t.bit RTC.PWRON 0 = !pwrDef ∧ t.cores = State.reset.cores ∧ t.pending = s.pending))

/-- 04 R103, R105, R107: what a write of the SYS registers does beside its fields.  HEALTH START runs the timer from 0 and STOP ends it with any
grace period (EXPIRED clears on 1); PHASE goes from STARTUP to RUN, and to TEST after a debug unlock, and keeps its value on any other write but
the boot ROM's; a set hold bit stops its core; a cleared one starts a powered core at its `SYS.ENTRYn`, in RUN and TEST only; a player reset of a
released powered core restarts it there; BOOTSEL.NEXT moves on in the order of the blocks. -/
def Obligations.SystemRegisterWritesAct : Prop :=
  ∀ (who : Nat) (v : Word) (s : State),
    (Reaches s who SYS.HEALTH true →
      Leaves (.healthStart who v) s (fun t => t.bit SYS.HEALTH 8 = true ∧ t.fld SYS.HEALTH 31 16 = 0 ∧ t.boot.grace = false ∧
        t.bit SYS.HEALTH 9 = (s.bit SYS.HEALTH 9 && !v.getLsbD 9) ∧ OnlyRegs s t [SYS.HEALTH]) ∧
      Leaves (.healthStop who v) s (fun t => t.bit SYS.HEALTH 8 = false ∧ t.boot.grace = false ∧
        t.bit SYS.HEALTH 9 = (s.bit SYS.HEALTH 9 && !v.getLsbD 9) ∧ OnlyRegs s t [SYS.HEALTH])) ∧
    (Reaches s who SYS.PHASE true → ¬ (who = 0 ∧ (s.core 5).pc.toNat < 0x20000) →
      Leaves (.phaseWrite who v) s (fun t => OnlyRegs s t [SYS.PHASE] ∧
        t.phase = if s.phase = 0 ∧ (v.toNat % 4 = 1 ∨ (v.toNat % 4 = 2 ∧ s.bit DBG.STATUS 8 = true)) then v.toNat % 4 else s.phase)) ∧
    (Reaches s who SYS.PLAYHOLD true → ∀ n : Fin 5,
      let p : Fin 6 := ⟨n.val, by omega⟩
      let word := fun (b : Bool) => BitVec.ofNat 32 (bitsOf (withBits (s.rd SYS.PLAYHOLD) n.val n.val (natBit b)) 4 0)
      Leaves (.playerHoldSet who n (word true)) s (fun t => t.bit SYS.PLAYHOLD n = true ∧
        (s.bit SYS.PLAYHOLD n = false → t.core p = { s.core p with run := if (s.core p).run = .stopped then .stopped else .held })) ∧
      ((s.phase = 1 ∨ s.phase = 2) → s.bit SYS.PLAYHOLD n = true → s.dom (coreDom p) ≠ .off →
        Leaves (.playerHoldRelease who n (word false)) s (fun t => t.bit SYS.PLAYHOLD n = false ∧
          t.core p = { pc := s.rd (SYS.ENTRY n), run := .running })) ∧
      (s.phase ≠ 1 → s.phase ≠ 2 → exec (.playerHoldRelease who n (word false)) s = .next s) ∧
      exec (.playerReset who n (word (s.bit SYS.PLAYHOLD n))) s = .next (playholdWrite s (vSet (word (s.bit SYS.PLAYHOLD n)) (8 + n)))) ∧
    (Reaches s who SYS.BOOTSEL true → exec (.bootselNext who v) s = .next (if s.phase = 0 then selectBlock s 2 4 s.boot.order else s)) ∧
    (Reaches s who CLK.APPDIV true → exec (.appdivWrite who v) s = .next (appdivWrite s v (s.trusted who)))

/-- 04 R99, R102, R103, R104, 20 R485, 01 R14: the events of start-up.  The boot sequencer at its power step reads OTP, puts the EUI and the trial
limit in their registers, samples `SVC_REQ`, and starts the prompter at the cold entry 0 in the block it selects, or in RECOVERY when the
device is retired; the clocks lock, RC16 is measured (01 R12), and the window or the verification follows; a window that ends leaves the verification; the boot ROM enters
an image that passes its check with a0 = 0 at the entry of its header, and takes the next block otherwise; the health deadline, of at least 10 seconds, sets EXPIRED and
grants the grace time, 0 acting as 1; a warm entry whose image has its hash enters it with a0 = 1; a powered player whose hold is 0 starts at its
`SYS.ENTRYn`, at 50 MHz where VCORE does not yet allow its code; the sequencer of the operating point moves to the latest setting. -/
def Obligations.StartUpFollowsItsSteps : Prop :=
  ∀ (s : State),
    (∀ (svc : Bool) (eui : BitVec 64) (lim : Fin 4) (en pol : Bool), s.boot.step = .power →
      let s1 := ((keyBoot s).wr LNK.EUILO (BitVec.ofNat 32 eui.toNat)).wr LNK.EUIHI (BitVec.ofNat 32 (eui.toNat / 2 ^ 32))
      let s2 := ((s1.setFld SYS.BOOTSEL 9 8 (if lim.val = 0 then 2 else lim.val)).setBit KEY.ALARM 16 en).setBit KEY.ALARM 17 pol
      let s3 := showEpochs (s2.upBoot (fun b => { b with step := .clocks, svcReq := svc }))
      exec (.bootSequencerStart svc eui lim en pol) s = .next ((if lifecycle s3 = 3 then enterRecovery s3 0 else selectBlock s3 0 3 (bootOrder s3)).setCore 5
        { pc := 0, run := .running })) ∧
    (s.boot.step = .clocks → Leaves .clocksLocked s (fun t => t.fld CLK.STATUS 5 1 = 31 ∧ t.fld CLK.RCCAL 23 0 ≥ 15920000 ∧ t.fld CLK.RCCAL 23 0 ≤ 16080000 ∧
      OnlyRegs s t [CLK.STATUS, CLK.RCCAL] ∧ t.cores = s.cores ∧ t.boot = { s.boot with step := if s.boot.svcReq = true then .window else .verify })) ∧
    (s.boot.step = .window → exec .recoveryUnlockWindowEnd s = .next (s.upBoot (fun b => { b with step := .verify }))) ∧
    (∀ ok : Bool, s.boot.step = .verify → lifecycle s ≠ 0 → imageCheck s (s.fld SYS.BOOTSEL 0 0) false 0 ≠ 0 →
      exec (.romImageVerified ok) s = .next (bootNext s)) ∧
    (∀ ok : Bool, s.boot.step = .verify → lifecycle s ≠ 0 → imageCheck s (s.fld SYS.BOOTSEL 0 0) false 0 = 0 →
      let h := imageBytes s (blockSector (s.fld SYS.BOOTSEL 0 0)) 0 320
      exec (.romImageVerified ok) s = .next (svcPresent (((startCore
        (s.setBytes 0x18000000 (imageBytes s (blockSector (s.fld SYS.BOOTSEL 0 0)) 320 (hdrFld h 16 4))) 5 (BitVec.ofNat 32 (0x18000000 + hdrFld h 20 4)) 0).upSvc
          (fun v => { v with ustate := if (s.fld SYS.BOOTSEL 5 4) = 0 then 0 else 6, live := false, trialAt := s.uptime })).upBoot (fun b => { b with step := .done })))) ∧
    (∀ served : Bool, s.bit SYS.HEALTH 8 = true → s.boot.grace = false → s.svc.ustate ≠ 6 → max 10 (s.fld SYS.HEALTHDL 15 0) ≤ s.fld SYS.HEALTH 31 16 →
      exec (.healthDeadline served) s = .next ((s.setBit SYS.HEALTH 9 true).upBoot (fun b => { b with
        grace := true, graceLeft := if s.fld SYS.HEALTHDL 23 16 = 0 then 1 else s.fld SYS.HEALTHDL 23 16 }))) ∧
    (let h := imageBytes s (blockSector (s.fld SYS.BOOTSEL 0 0)) 0 320
     s.flt.warmEntry = true → sha256 (s.bytes 0x18000000 (hdrFld h 16 4)) = (h.drop 36).take 32 →
      Leaves .warmEntryDone s (fun t => t.core 5 = { pc := BitVec.ofNat 32 (0x18000000 + hdrFld h 20 4), a := (Vector.replicate 32 0).set 0 1, run := .running } ∧
        t.flt.warmEntry = false ∧ t.regs = s.regs ∧ t.mem = s.mem)) ∧
    (∀ n : Fin 4, s.dom (Dom.app n) = .off → s.bit SYS.PLAYHOLD n = false →
      Leaves (.playerPowered n) s (fun t => t.core ⟨n.val, by omega⟩ = { pc := s.rd (SYS.ENTRY n), run := .running } ∧ t.dom (Dom.app n) = .on ∧
        (s.fld CLK.VCORE 6 0 < t.fld CLK.VCORE 6 0 ∨ s.bit CLK.STATUS 8 = true →
          t.pwr.divs = s.pwr.divs - s.pwr.divs / 4 ^ n.val % 4 * 4 ^ n.val + 3 * 4 ^ n.val) ∧ OnlyRegs s t [CLK.VCORE, CLK.STATUS])) ∧
    (s.bit CLK.STATUS 8 = true → exec .vcoreSlewDone s = .next (vcoreStart (s.setBit CLK.STATUS 8 false)))

/-- 20 R482, R489: VCORE off its target writes one entry of class 0x0C at the head of the ring: the network time, CLASS, REC, REPEAT where the
entry before has the same CLASS and LOC, and LOC 0.  The head moves on round the ring, the entry is counted, NEW is set, and an entry that
overwrites the oldest adds 1 to OVF.  The 63 other entries, every register outside FLT and CUE and every byte of memory stay. -/
def Obligations.FaultTakesOneLogEntry : Prop :=
  ∀ s : State, Leaves .vcoreReg s (fun t =>
    let h := s.fld FLT.LOGHEAD 5 0
    let n := s.fld FLT.LOGHEAD 31 16
    t.rd (FLT.LOG h 0) = BitVec.ofNat 32 s.nt.toNat ∧ t.rd (FLT.LOG h 1) = BitVec.ofNat 32 (s.nt.toNat / 2 ^ 32) ∧
    t.rd (FLT.LOG h 2) = BitVec.ofNat 32 (0x0C + 0x1000000 * (1 + if n ≠ 0 ∧ s.fld (FLT.LOG ((h + 63) % 64) 2) 7 0 = 0x0C ∧
      s.rd (FLT.LOG ((h + 63) % 64) 3) = 0 then 4 else 0)) ∧
    t.rd (FLT.LOG h 3) = 0 ∧
    t.fld FLT.LOGHEAD 5 0 = (h + 1) % 64 ∧ t.fld FLT.LOGHEAD 31 16 = min (n + 1) 0xFFFF ∧
    t.fld FLT.LOGHEAD 15 8 = (if 64 ≤ n then min (s.fld FLT.LOGHEAD 15 8 + 1) 0xFF else s.fld FLT.LOGHEAD 15 8) ∧
    t.bit FLT.EVT 0 = true ∧ (64 ≤ n → t.bit FLT.EVT 2 = true) ∧
    (∀ i w : Nat, i < 64 → w < 4 → i ≠ h → t.rd (FLT.LOG i w) = s.rd (FLT.LOG i w)) ∧
    (∀ a : Nat, a / 4096 ≠ 0x30004 → a / 4096 ≠ 0x30014 → t.rd a = s.rd a) ∧ ∀ a : Nat, t.byte a = s.byte a)

/-- 04 R89, R90, R91: the lockstep of the link pair.  A checkpoint stalls the pair for 64 cycles, saves its state and starts the logs anew; a
mismatch is counted, logged as class 0x07 and sets RESTORING; a second one before the replay ends sets HALTED, stops the pair and is logged as
class 0x08; the restore rolls back the D-TCM from the newest entry of the undo log and gives the pair its checkpointed registers, with the
inputs and the outputs still to be replayed; RESTORING clears when the log is exhausted. -/
def Obligations.LockstepRollsBackAndReplays : Prop :=
  ∀ s : State, (s.core 4).run = .running →
    ((s.core 4).stall = none → s.pair.restoring = false → s.pair.replay = false →
      Leaves .lockstepCheckpoint s (fun t => t.core 4 = passCycles 64 (s.core 4) ∧ (t.core 4).cycle = (s.core 4).cycle + 64 ∧
        t.pair = { s.pair with chk := passCycles 64 (s.core 4), undo := [], inlog := [], outs := 0, bundles := 0 } ∧ t.regs = s.regs ∧ t.mem = s.mem)) ∧
    (s.pair.restoring = false → s.bit SYS.LSTEP 16 = false →
      Leaves .lockstepMismatch s (fun t => t.bit SYS.LSTEP 16 = true ∧ t.fld SYS.LSTEP 15 0 = min (s.fld SYS.LSTEP 15 0 + 1) 0xFFFF ∧
        t.pair = { s.pair with restoring := true } ∧ t.cores = s.cores ∧ t.fld (FLT.LOG (s.fld FLT.LOGHEAD 5 0) 2) 7 0 = 7 ∧ t.mem = s.mem)) ∧
    (s.pair.restoring = false → s.bit SYS.LSTEP 16 = true →
      Leaves .lockstepMismatch s (fun t => t.bit SYS.LSTEP 17 = true ∧ t.core 4 = { s.core 4 with run := .held } ∧
        t.fld (FLT.LOG (s.fld FLT.LOGHEAD 5 0) 2) 7 0 = 8 ∧ t.mem = s.mem)) ∧
    (s.pair.restoring = true →
      Leaves .lockstepRestoreDone s (fun t =>
        t.core 4 = { s.pair.chk with run := .running, wbuf := (s.core 4).wbuf, held := (s.core 4).held, cycle := (s.core 4).cycle,
                                     flines := (s.core 4).flines, latch := (s.core 4).latch, stall := none, got := [] } ∧
        t.pair = { s.pair with undo := [], bundles := 0, restoring := false, replay := true, rin := s.pair.inlog, rout := s.pair.outs } ∧
        t.mem = (s.pair.undo.reverse.foldl (fun (u : State) (e : Nat × Word) => u.stw e.1 e.2) s).mem ∧ t.regs = s.regs)) ∧
    (s.pair.replay = true → s.pair.rin = [] → s.pair.rout = 0 →
      Leaves .lockstepReplayEnd s (fun t => t.bit SYS.LSTEP 16 = false ∧ t.pair = { s.pair with replay := false } ∧
        t.cores = s.cores ∧ OnlyRegs s t [SYS.LSTEP]))

/-- 20 R482, R483, R484, R488: what the monitors of clocks and cores do.  A PLL that loses lock shows it, is logged as class 0x0B, and PLLB takes
the link hardware's receptions and transmission with it; a relock shows it, its own third failure within 1 s is logged with INIT 0 and DETAIL 1; HFXO lost moves the bus
clock to RC16 and takes the link's clock, and a restart, tried no more than once a second, brings the clocks back; a watchdog at its pre-expiry sets PREEXP and `FLT.EVT.WDPRE`,
one at 0 expires, and a kick with the key restarts the count. -/
def Obligations.MonitorsAndWatchdogsAct : Prop :=
  ∀ (s : State),
    (∀ pll : Fin 3, s.bit CLK.STATUS (2 + pll) = true →
      exec (.pllUnlock pll) s = .next (if pll.val = 1 then linkClockLost (logFault (s.setBit CLK.STATUS (2 + pll) false) 0x0B 0 0 1 0)
        else logFault (s.setBit CLK.STATUS (2 + pll) false) 0x0B 0 0 1 0)) ∧
    (∀ pll : Fin 3, s.bit CLK.STATUS (2 + pll) = false →
      Leaves (.pllRelock pll true) s (fun t => t.bit CLK.STATUS (2 + pll) = true ∧ OnlyRegs s t [CLK.STATUS]) ∧
      ((s.flt.relocks.filter (fun x => x.1 == pll.val && decide (s.uptime - x.2 ≤ 32000000))).length = 2 →
        Leaves (.pllRelock pll false) s (fun t => t.fld (FLT.LOG (s.fld FLT.LOGHEAD 5 0) 2) 23 0 = 0x01000B ∧ t.rd CLK.STATUS = s.rd CLK.STATUS))) ∧
    (s.bit CLK.STATUS 1 = true → exec .hfxoFail s = .next (linkClockLost { logFault (s.setFld CLK.STATUS 4 1 0) 0x22 0 0 0 0 with flt := { s.flt with hfxoTry := s.uptime } })) ∧
    (s.bit CLK.STATUS 1 = false → pwrState s ≤ 1 → s.flt.hfxoTry + 32000000 ≤ s.uptime →
      Leaves (.hfxoRestartTry true) s (fun t => t.fld CLK.STATUS 4 1 = 15 ∧ OnlyRegs s t [CLK.STATUS, CLK.RCCAL] ∧ t.flt = { s.flt with hfxoTry := s.uptime })) ∧
    (∀ p : Fin 6, wdRuns s p = true → s.fld (FLT.WDSTAT p) 15 0 ≤ wdPre s p + 1 →
      Leaves (.watchdogPreExpiry p) s (fun t => t.bit (FLT.WDSTAT p) 16 = true ∧ t.bit FLT.EVT 1 = true ∧
        t.fld (FLT.WDSTAT p) 15 0 = min (s.fld (FLT.WDSTAT p) 15 0) (wdPre s p) ∧ t.cores = s.cores ∧ t.mem = s.mem)) ∧
    (∀ p : Fin 6, wdRuns s p = true → s.fld (FLT.WDSTAT p) 15 0 ≤ 1 →
      exec (.watchdogExpiry p) s = .next (coreFailure (logFault ((s.setFld (FLT.WDSTAT p) 15 0 0).setBit (FLT.WDSTAT p) 17 true) 0x09 p p 0 0) p 0)) ∧
    (∀ (who : Nat) (p : Fin 6), Reaches s who FLT.WDKICK true →
      Leaves (.watchdogKick who (BitVec.ofNat 32 (256 * p + 0xC3))) s (fun t =>
        t.fld (FLT.WDSTAT p) 15 0 = s.fld (FLT.WDCFG p) 15 0 ∧ OnlyRegs s t [FLT.WDSTAT p]))

/-- 20 R491, R493: error injection fires in TEST only: a write with ARM set and KIND 4 is at once a watchdog expiry of the core named, KIND 5
a double fault, KIND 6 a loss of lock, each with the injection flag and with ARM cleared; any other phase ignores the write; a write of 1 to bit 31 of
`FLT.CURTCNT` clears the record of the violations and their count. -/
def Obligations.InjectionFiresInTestOnly : Prop :=
  ∀ (who : Nat) (p : Fin 6) (s : State),
    (Reaches s who FLT.INJCTRL true → s.phase ≠ 2 → ∀ v : Word, exec (.injectArm who v) s = .next s) ∧
    (Reaches s who FLT.INJCTRL true → s.phase = 2 →
      let armed := fun k : Nat => (s.plainWrite FLT.INJCTRL (BitVec.ofNat 32 (0x10000 + 256 * p + k)) true)
      exec (.injectArm who (BitVec.ofNat 32 (0x10000 + 256 * p + 3))) s = .next (armed 3) ∧
      exec (.injectArm who (BitVec.ofNat 32 (0x10000 + 256 * p + 4))) s = .next (wdExpire ((armed 4).setBit FLT.INJCTRL 16 false) p 0x80) ∧
      exec (.injectArm who (BitVec.ofNat 32 (0x10000 + 256 * p + 5))) s = .next (doubleFault ((armed 5).setBit FLT.INJCTRL 16 false) p 0x80) ∧
      (p.val % 4 < 3 → exec (.injectArm who (BitVec.ofNat 32 (0x10000 + 256 * p + 6))) s =
        .next (pllUnlock ((armed 6).setBit FLT.INJCTRL 16 false) (p % 4) 0x80))) ∧
    (Reaches s who FLT.CURTCNT true →
      Leaves (.curtainRecordClear who 0x80000000) s (fun t => t.rd FLT.CURT0 = 0 ∧ t.rd FLT.CURT1 = 0 ∧ t.rd FLT.CURTCNT = 0 ∧
        OnlyRegs s t [FLT.CURT0, FLT.CURT1, FLT.CURTCNT]))

/-- 19 R470, 20 R495: debug.  A HALT bit halts a running core that waits for nothing at its bundle boundary and shows it in `DBG.STATUS`; any other initiator's write
changes nothing; a STEP bit runs one bundle of a halted core.  The debug packets DBGRD and DBGWR answer the words
read, or the success of the words written, in ascending order, ACCESS_ERR where an access ends in an error response, BAD_ARG where the address is misaligned or the count is 0,
and BAD_CMD where the device is retired. -/
def Obligations.DebugPortActsOnCores : Prop :=
  ∀ (s : State),
    (∀ p : Fin 5, let q : Fin 6 := ⟨p, by omega⟩
      Reaches s 0x10 DBG.HALT true → s.rd DBG.HALT = 0 → (s.core q).run = .running → (s.core q).xfer = none → (s.core q).stall = none →
      (∀ r, (s.core r).run ≠ .debug) →
      Leaves (.dbgHalt 0x10 (BitVec.ofNat 32 (2 ^ p.val))) s (fun t => t.rd DBG.HALT = BitVec.ofNat 32 (2 ^ p.val) ∧ t.bit DBG.STATUS p = true ∧
        t.core q = { s.core q with run := .debug } ∧ (∀ r, r ≠ q → t.core r = s.core r) ∧ OnlyRegs s t [DBG.HALT, DBG.STATUS, FLT.WDSTAT p] ∧
        t.fld (FLT.WDSTAT p) 15 0 = s.fld (FLT.WDCFG p) 15 0)) ∧
    (∀ (who : Nat) (v : Word), who ≠ 0x10 → Reaches s who DBG.HALT true → exec (.dbgHalt who v) s = .next s) ∧
    (∀ p : Fin 5, let q : Fin 6 := ⟨p, by omega⟩
      Reaches s 0x10 DBG.STEP true → (s.core q).run = .debug → s.dom (coreDom q) = .on → s.flt.steps = 0 →
      exec (.dbgStep 0x10 (BitVec.ofNat 32 (2 ^ p.val))) s = .next (stepCore s q)) ∧
    (∀ (seq : Byte) (a : Nat) (n : Fin 64), s.svc.dbg = some (0x0A :: seq :: (leBytes 4 a ++ leBytes 1 (n + 1))) → a < 2 ^ 32 → a % 4 = 0 → lifecycle s ≠ 3 →
      exec .svcDbgrd s = .next (let r := debugReads (n + 1) s a
        debugReply r.2.2 0x0A seq (if r.2.1 then 0 else 17) (r.1.flatMap (fun w => leBytes 4 w.toNat)))) ∧
    (∀ (seq : Byte) (a : Nat) (v : Word), s.svc.dbg = some (0x0B :: seq :: (leBytes 4 a ++ leBytes 4 v.toNat)) → a < 2 ^ 32 → a % 4 = 0 → lifecycle s ≠ 3 →
      exec .svcDbgwr s = .next (let r := debugWrites [v] s a
        debugReply r.2 0x0B seq (if r.1 then 0 else 17) [])) ∧
    (∀ (seq : Byte) (a : Nat) (v : Word), lifecycle s ≠ 3 → a < 2 ^ 32 → a % 4 ≠ 0 →
      (s.svc.dbg = some (0x0A :: seq :: (leBytes 4 a ++ [1])) → exec .svcDbgrd s = .next (debugReply s 0x0A seq 2 [])) ∧
      (s.svc.dbg = some (0x0B :: seq :: (leBytes 4 a ++ leBytes 4 v.toNat)) → exec .svcDbgwr s = .next (debugReply s 0x0B seq 2 []))) ∧
    (∀ (seq : Byte) (a : Nat), lifecycle s ≠ 3 → s.svc.dbg = some (0x0A :: seq :: (leBytes 4 a ++ [0])) →
      exec .svcDbgrd s = .next (debugReply s 0x0A seq 2 [])) ∧
    (∀ (seq : Byte) (pl : List Byte), lifecycle s = 3 →
      (s.svc.dbg = some (0x0A :: seq :: pl) → exec .svcDbgrd s = .next (debugReply s 0x0A seq 1 [])) ∧
      (s.svc.dbg = some (0x0B :: seq :: pl) → exec .svcDbgwr s = .next (debugReply s 0x0B seq 1 [])))

/-- One step executes the command at the front of the queue on the rest of it, and answers its outcome.  With no command waiting the device
lets one tick of time pass (the model's choice: log 6). -/
def Obligations.StepRunsTheFrontCommand : Prop :=
  (∀ (c : Instr) (rest : List Instr) (s : State), step { s with pending := c :: rest } = exec c { s with pending := rest }) ∧
  ∀ s : State, s.pending = [] → step s = .next (tick s)

/-- 00 R6, R7: a write of a register that has nothing but its access codes: a W1C bit clears where a 1 is written, an RW bit takes the value
written, an RWT bit takes it from a trusted initiator only, every other bit (RO, RC, reserved) keeps its value; no other register and no byte of
memory changes. -/
def Obligations.RegisterWriteFollowsAccessCodes : Prop :=
  ∀ (who a : Nat) (v : Word) (r : RegRow) (s : State), s.flt.steps = 0 → Reaches s who a true → regRow a = some r →
    a ∈ [SYS.ID, SYS.RSTCAUSE, SYS.ENTRY 2, SYS.HEALTHDL, PWR.EVT, PWR.IEN, RTC.EVT, RTC.IEN, FLT.EVT, FLT.IEN, FLT.LOGHEAD, FLT.CECNT0, AES.EVT, AES.IEN,
      PKA.EVT, DMC.CECOUNT, HUB.EVT, HUB.IEN, TM.EVT 3, TWB.EVT 1, TWB.IEN 1, CSP.EVT 0, HWN.EVT, SVC.EVT, SVC.IEN, RFE.EVT, RXC.EVT, RXC.IEN, TXC.EVT, TXC.IEN,
      LNK.EVT, LNK.IEN, LNK.TEVT, LNK.TIEN] →
    Leaves (.registerWrite who a v) s (fun t => OnlyRegs s t [a] ∧ ∀ i < 32, (t.rd a).getLsbD i =
      if r.w1c.testBit i && v.getLsbD i then false
      else if r.rw.testBit i || (r.rwt.testBit i && s.trusted who) then v.getLsbD i else (s.rd a).getLsbD i)

/-- 00 R5, 01 R11, 04 R93, R94: accesses that no block serves.  One to an address in no block, or not to a whole word, changes nothing; one to an offset that no register occupies changes nothing; one that
the safety curtain blocks is not performed: it is counted, logged as class 0x20 with the initiator and the address, and the first one since the record
was cleared is recorded; one to a block whose domain waits for power is held, and is performed when the domain has power. -/
def Obligations.AccessesMayBeTurnedAway : Prop :=
  ∀ (who a : Nat) (v : Word) (s : State), s.flt.steps = 0 →
    (a % 4 ≠ 0 ∨ pageRows (a / 4096) = none → exec (.registerWrite who a v) s = .next s) ∧
    (Reaches s who a true → regRow a = none → a / 4096 ∈ [0x30000, 0x30006, 0x3000A, 0x3000B, 0x30016, 0x30017, 0x30028, 0x30035, 0x30037] →
      exec (.registerWrite who a v) s = .next s) ∧
    (busReach s a ≠ .err → curtainBlocks s who a true = true → a < 2 ^ 32 →
      Leaves (.registerWrite who a v) s (fun t =>
        t.fld FLT.CURTCNT 15 0 = min (s.fld FLT.CURTCNT 15 0 + 1) 0xFFFF ∧
        (s.bit FLT.CURT0 31 = false → t.rd FLT.CURT0 = BitVec.ofNat 32 (who % 32 + 256 + 2 ^ 31) ∧ t.rd FLT.CURT1 = BitVec.ofNat 32 a) ∧
        (s.bit FLT.CURT0 31 = true → t.rd FLT.CURT0 = s.rd FLT.CURT0 ∧ t.rd FLT.CURT1 = s.rd FLT.CURT1) ∧
        t.fld (FLT.LOG (s.fld FLT.LOGHEAD 5 0) 2) 7 0 = 0x20 ∧ t.rd (FLT.LOG (s.fld FLT.LOGHEAD 5 0) 3) = BitVec.ofNat 32 a ∧
        (∀ b : Nat, b / 4096 ≠ 0x30004 → b / 4096 ≠ 0x30014 → t.rd b = s.rd b) ∧ ∀ b : Nat, t.byte b = s.byte b)) ∧
    (∀ d : Fin 28, pageDom (a / 4096) = d → s.dom d = .od → a % 4 = 0 → pageRows (a / 4096) ≠ none → curtainBlocks s who a true = false →
      pwrPhase s ≠ 2 → who ≠ 0x10 →
      exec (.registerWrite who a v) s = .next { s with heldAcc := s.heldAcc ++ [{ dom := d, who := who, addr := a, data := some v }] } ∧
      (s.heldAcc = [{ dom := d, who := who, addr := a, data := some v }] →
        exec (.domainPowerUp d) s = .next ((bankStat { (s.setDom d .on) with heldAcc := [] }).access who a (some v)))) ∧
    (s.dom Dom.radio = .on → receiverWanted s = false → s.txc.job = none → s.doms.length = 28 → Leaves (.domainPowerDown 4) s (fun t => t.dom Dom.radio = .od ∧ t.regs = s.regs ∧ t.mem = s.mem))

/-- 05 R120, R121: a request that the stage manager takes is served by its kind and answered.  Only the owner or a trusted requester may name a prop, by its
base.  HINT sets the hint of the prop, PIN its pin and tier, UNPIN clears the pin, SEAL sets RDONLY and clears W in every page, UNSEAL undoes it, with its
T4 pages moved to the frames chosen; FREE aborts the prop's migrations and unmaps it unless it backs the ring of an enabled queue; QUERY reports its attributes and size; ALLOC maps a new
prop of zero pages at the place chosen, and the policy runs when it brings pressure (R118); DONE ends a task of its requester; an undefined kind is answered BAD_KIND. -/
def Obligations.RequestsAreServedAndAnswered : Prop :=
  ∀ (k n : Nat) (q : Request) (r : Region) (s t : State), requestQueue s (k == 0x10) = some n → headKind s n = some k → takeRequest s n = (some q, t) →
    (k ∈ [2, 3, 4, 5, 7, 8] → regionAt t q.arg0 = some r → r.base = q.arg0 → ownsRegion q r = false →
      ∀ x ∈ [(.reqFree, 2), (.reqHint, 3), (.reqPin, 4), (.reqUnpin, 5), (.reqSeal, 7), (.reqUnseal [], 8)], x.2 = k →
        exec x.1 s = .next (answerRequest t q { status := 4 })) ∧
    (requestRegion t q true = .inr r →
      (k = 2 → backsRing t r = true → exec .reqFree s = .next (answerRequest t q { status := 7 })) ∧
      (k = 2 → backsRing t r = false → exec .reqFree s = .next (answerRequest
        ((mapPtes (migAbortIf t 2 (fun m => decide (r.base ≤ m.page) && decide (m.page < r.base + r.size))) r (fun _ => 0)).upStg (fun g => { g with
          regions := g.regions.filter (fun x => x.base != r.base),
          zeroFill := g.zeroFill.filter (fun p => decide (p < r.base ∨ r.base + r.size ≤ p)) })) q { status := 1 })) ∧
      (k = 3 → exec .reqHint s = .next (answerRequest (setRegion t { r with attr := withBits r.attr 1 0 (q.arg1 % 4) }) q { status := 1 })) ∧
      (k = 4 → q.arg1 % 8 < 5 → tierAllowed r.attr (q.arg1 % 8) (attrOwner r.attr - 2) = true → ¬ (q.arg1 % 8 = 0 ∧ attrPers r.attr = 1) →
        exec .reqPin s = .next (answerRequest (setRegion t { r with attr := withBits (withBits r.attr 24 24 1) 18 16 (q.arg1 % 8) }) q { status := 1 })) ∧
      (k = 5 → exec .reqUnpin s = .next (answerRequest (setRegion t { r with attr := withBits r.attr 24 24 0 }) q { status := 1 })) ∧
      (k = 7 → exec .reqSeal s = .next (answerRequest (mapPtes (setRegion t { r with attr := withBits r.attr 7 7 1 }) r (fun e => pteWith e 1 1 0)) q { status := 1 })) ∧
      (k = 8 → (∀ p ∈ regionPages r, pteFld (t.pte p) 14 12 ≠ 4) →
        ∀ fs : List Nat, exec (.reqUnseal fs) s = .next (answerRequest (mapPtes (setRegion t { r with attr := withBits r.attr 7 7 0 }) r
          (fun e => if pteFld e 14 12 = 4 then e else pteWith e 1 1 1)) q { status := 1 }))) ∧
    (k = 6 → requestRegion t q false = .inr r → testB q.arg1 0 = false →
      exec .reqQuery s = .next (answerRequest t q { status := 1, r0 := (reportAttr t r).toNat, r1 := r.size + r.index })) ∧
    (∀ (base index acl : Nat) (fs tables : List (Nat × Nat)), k = 1 → q.trust = true → q.arg0 % 4096 = 0 → 4096 ≤ q.arg0 → q.arg0 ≤ 0x4000000 →
      let attr0 : Word := BitVec.ofNat 32 (q.arg1 % 2048)
      let attr := withBits attr0 10 8 (attrOwner attr0)
      let new : Region := { base := base, size := q.arg0, attr := attr, acl := acl, index := index }
      let placed := fun (u : State) => (tables.foldl (fun (s : State) e => s.st ((s.rd STG.PTBASE).toNat + 4 * (e.1 % 512)) 4 (e.2 / 4096 * 4096 + 1)) u).wr (STG.ACL acl)
        (BitVec.ofNat 32 (q.arg2 % 65536 ||| (2 ^ attrOwner attr0 + 2 ^ (attrOwner attr0 + 8))))
      let u := (List.range fs.length).foldl (fun s i => setPte (zeroPage (bankOn s (fs.getD i (1, 0)).1 (fs.getD i (1, 0)).2) (base + 4096 * i)
        (frameAddr (fs.getD i (1, 0)).1 (fs.getD i (1, 0)).2) (attrSecure attr)) (base + 4096 * i) (newPte attr acl (fs.getD i (1, 0)).1 (fs.getD i (1, 0)).2)) (placed t)
      attrPers attr ≠ 3 → ¬ (attrFast attr = true ∧ attrPers attr = 2) → t.stg.regions.length < 4096 →
      framesOk t attr (q.arg0 / 4096) fs = true → rangeFree t base q.arg0 = true → rangeTables t tables base q.arg0 = true → (q.arg3 = 0 ∨ q.arg3 = base) →
      index < 4096 → (∀ x ∈ t.stg.regions, x.index ≠ index) → acl < 64 → (∀ x ∈ t.stg.regions, x.acl ≠ acl) →
      let v := answerRequest (u.upStg (fun g => { g with regions := g.regions ++ [new] })) q { status := 1, r0 := base, r1 := index }
      exec (.reqAlloc base index acl fs tables) s = .next (if underPressure v = true then policyRun v else v) ∧
        (attrSecure attr = false → u.stg.regions = t.stg.regions)) ∧
    (∀ p : Fin 4, k = 0x10 → q.who = p.val + 2 → q.arg0 ≠ 0 → t.stg.task[p] = q.arg0 →
      exec .reqDone s = .next (answerRequest (wdRestart (clearTrigger ((setDescState t q.arg0 (descState 2 p (descField t q.arg0 25 1))).upStg (fun g => { g with
        task := g.task.set p 0 })) q.arg0) p) q { status := 1 })) ∧
    ((k = 0 ∨ 8 < k ∧ k ≠ 0x10 ∧ k < 0x100) → exec .reqBadKind s = .next (answerRequest t q { status := 8 }))

/-- 05 R113, R114, R117, R122, 04 R94: while translation is enabled, a scene access that misses its TLB walks the page table: the translation of a page that a prop
covers and whose entry is valid enters the initiator's TLB, `STG.WHERE` will tell the initiator its tiers and its page, and nothing in memory but the page's entry
changes.  While translation is off, and for a page that no prop covers or whose entry is not valid, no scene address translates: no TLB takes an entry. -/
def Obligations.PageWalkFillsTheTlb : Prop :=
  ∀ (who a : Nat) (write : Bool) (e : Ecc) (s : State), isScene a = true →
    (s.bit STG.CTRL 0 = false → Leaves (.pageWalk who a write e) s (fun t => t.stg.tlb = s.stg.tlb ∧ t.regs = s.regs ∧ t.mem = s.mem ∧ t.cores = s.cores)) ∧
    (s.bit STG.CTRL 0 = true → s.stg.zeroFill.contains (a / 4096 * 4096) = false →
      s.stg.tlb.find? (fun t => t.init == who % 256 && t.page == a / 4096 * 4096) = none →
      (pteBit (s.pte a) 0 = true → (regionAt s a).isSome = true →
        Leaves (.pageWalk who a write e) s (fun t =>
          ({ init := who % 256, page := a / 4096 * 4096, pte := s.pte a, epoch := (s.rd STG.EPOCH).toNat } : TlbEntry) ∈ t.stg.tlb ∧
          t.stg.whereWords.head? = some (who % 256, BitVec.ofNat 32 (pteFld (s.pte a) 14 12 + 8 * ((pteCopy (s.pte a)).map (fun c => c.1)).getD 7 + a / 4096 * 4096)) ∧
          t.cores = s.cores ∧ ∀ p, pteAddr s a = some p → ∀ b, (b < p ∨ p + 8 ≤ b) → t.byte b = s.byte b)) ∧
      (pteBit (s.pte a) 0 = false ∨ regionAt s a = none →
        Leaves (.pageWalk who a write e) s (fun t => t.stg.tlb = s.stg.tlb ∧ t.mem = s.mem ∧ t.cores = s.cores)))

/-- 05 R113, R115, R116: the migration of a page, transition by transition: GO on an idle channel to a place that R110 and R125 allow, GO for a page already in a
migration, the whole-page copy complete, a recopy pass complete (within FINALMAX, another pass, or ABORT with HOT), the final copy complete with the page in no TLB any
more, a copy whose source cannot be read (ABORT with SRC_ERR), and the status read by the policy, which then starts the next move of its plan. -/
def Obligations.MigrationFollowsItsStates : Prop :=
  ∀ (who : Nat) (c : Fin 2) (s : State),
    let m := s.stg.mig[c]
    let page := (s.rd (STG.MIGSRC c)).toNat / 4096 * 4096
    let aborted := fun (t : State) => migState t c = 5 ∧ t.fld (STG.MIGSTAT c) 14 12 = 3
    (∀ v : Word, Reaches s who (STG.MIGCTRL c) true →
      (pteBit (s.pte page) 4 = true → exec (.migrationGo who c v) s = .next (s.setBit (STG.MIGSTAT c) 15 true)) ∧
      (pteBit (s.pte page) 4 = false → migState s c = 0 → migAllowed s page (s.fld (STG.MIGDST c) 2 0) (s.fld (STG.MIGDST c) 17 3) (s.bit (STG.MIGDST c) 18) = true →
        Leaves (.migrationGo who c v) s (fun t => migState t c = 1 ∧ t.fld (STG.MIGSTAT c) 14 0 = 0 ∧ t.bit (STG.MIGSTAT c) 15 = false ∧
        t.stg.mig[c] = { page := page, src := frameAddr (pteFld (s.pte page) 14 12) (pteFld (s.pte page) 29 15),
                         dst := frameAddr (s.fld (STG.MIGDST c) 2 0) (s.fld (STG.MIGDST c) 17 3), tier := s.fld (STG.MIGDST c) 2 0,
                         frame := s.fld (STG.MIGDST c) 17 3, second := s.bit (STG.MIGDST c) 18 } ∧
        t.mem = (setPte s page (pteWith (s.pte page) 4 4 1)).mem))) ∧
    (migState s c = 1 → migRefused s m = false → ∀ u : State,
      (migCopy s c m 0 4096 = (true, u) → Leaves (.migrationCopyDone c) s (fun t => migState t c = 2 ∧ t.fld (STG.MIGSTAT c) 3 0 = 1 ∧
        t.fld (STG.MIGSTAT c) 10 4 = dirtyCount m % 128 ∧ t.stg.mig[c] = { u.stg.mig[c] with dirty := 0 } ∧ t.mem = u.mem)) ∧
      (migCopy s c m 0 4096 = (false, u) → Leaves (.migrationCopyDone c) s aborted)) ∧
    (migState s c = 2 → migRefused s m = false →
      (dirtyCount m ≤ finalMax m.tier → Leaves (.migrationPassDone c) s (fun t => migState t c = 3 ∧ t.stg = s.stg ∧ t.mem = s.mem)) ∧
      (finalMax m.tier < dirtyCount m → s.fld (STG.MIGSTAT c) 3 0 < orIfZero 1 (s.fld STG.MIGCFG 3 0) → ∀ u : State,
        (copyDirty (s.setFld (STG.MIGSTAT c) 10 4 (dirtyCount m)) c m = (true, u) →
          Leaves (.migrationPassDone c) s (fun t => t.fld (STG.MIGSTAT c) 3 0 = min (u.fld (STG.MIGSTAT c) 3 0 + 1) 15 ∧ t.stg.mig[c] = { u.stg.mig[c] with dirty := 0 } ∧
            OnlyRegs u t [STG.MIGSTAT c])) ∧
        (copyDirty (s.setFld (STG.MIGSTAT c) 10 4 (dirtyCount m)) c m = (false, u) → Leaves (.migrationPassDone c) s aborted)) ∧
      (finalMax m.tier < dirtyCount m → orIfZero 1 (s.fld STG.MIGCFG 3 0) ≤ s.fld (STG.MIGSTAT c) 3 0 →
        Leaves (.migrationPassDone c) s (fun t => migState t c = 5 ∧ t.fld (STG.MIGSTAT c) 14 12 = 1 ∧ t.mem = (setPte s m.page (pteWith (s.pte m.page) 4 4 0)).mem))) ∧
    (migState s c = 3 → migRefused s m = false → (∀ p : Fin 6, (s.core p).wbuf = []) → ∀ u : State,
      (copyDirty s c m = (true, u) → (pteAddr u m.page).isSome = true →
        Leaves (.migrationFinalDone c) s (fun t => migState t c = 4 ∧ t.fld (STG.MIGSTAT c) 10 4 = 0 ∧ ∀ e ∈ t.stg.tlb, e.page ≠ m.page / 4096 * 4096)) ∧
      (copyDirty s c m = (false, u) → Leaves (.migrationFinalDone c) s aborted)) ∧
    (Reaches s who (STG.MIGSTAT c) false → s.trusted who = true → migState s c = 4 ∨ migState s c = 5 →
      let u := (if migState s c = 4 then s.bump (STG.MIGSTAT c) 31 16 1 else s).setFld (STG.MIGCTRL c) 7 4 0
      exec (.migstatRead who c) s = .next { policyStart u s.stg.plan.length with rdata := s.rd (STG.MIGSTAT c) } ∧
      (s.stg.plan = [] → Leaves (.migstatRead who c) s (fun t => t.rdata = s.rd (STG.MIGSTAT c) ∧ migState t c = 0 ∧
        t.fld (STG.MIGSTAT c) 31 16 = (if migState s c = 4 then min (s.fld (STG.MIGSTAT c) 31 16 + 1) 0xFFFF else s.fld (STG.MIGSTAT c) 31 16) ∧
        OnlyRegs s t [STG.MIGSTAT c, STG.MIGCTRL c])))

/-- 05 R117, R125, R127, R129, R136: the epoch counts and its sweep starts, with the budget of the epoch; the sweep ends, and the policy plans and starts its moves on the idle channels; the dispatcher, while enabled, gives
the head of the first source to its best player, with `STG.RUNn` naming the descriptor; a trigger whose descriptor is still queued or running, or that its queue
refuses, is counted as missed with its overrun bit, any other sets PENDING, and a disabled one is ignored; a write of `STG.TRIGQk` sets the queue and clears MISSED; NEW clears on a read by its
player or a trusted initiator only; FROZEN clears after the release of DRAM. -/
def Obligations.StageManagerRunsTheStage : Prop :=
  ∀ (who : Nat) (v : Word) (s : State),
    Leaves .epochBoundary s (fun t => t.rd STG.EPOCH = s.rd STG.EPOCH + 1 ∧ t.bit STG.STATUS 8 = true ∧ t.stg.budget = s.fld STG.MIGCFG 31 16 ∧
      OnlyRegs s t [STG.EPOCH, STG.STATUS]) ∧
    (s.bit STG.STATUS 8 = true → let u := (sweepPages s).setBit STG.STATUS 8 false
      exec .sweepDone s = .next (policyStart (u.upStg (fun g => { g with plan := policyPlan u, policyDue := false })) (policyPlan u).length) ∧
      ((∀ c : Fin 2, migState s c ≠ 0) → Leaves .sweepDone s (fun t => t.bit STG.STATUS 8 = false ∧ t.regs = (s.setBit STG.STATUS 8 false).regs ∧
        t.mem = (sweepPages s).mem ∧ t.stg.plan = policyPlan u))) ∧
    (s.bit STG.CTRL 1 = false → exec .dispatcherRun s = .next s) ∧
    (∀ (src : TaskSource) (d : Nat) (p : Fin 4), s.bit STG.CTRL 1 = true → taskSources s = [src] → sourceHead s src = some d → bestPlayer s d = some p → d % 32 = 0 → d < 2 ^ 32 →
      exec .dispatcherRun s = .next (assignTask s src d p) ∧ (assignTask s src d p).rd (STG.RUN p) = BitVec.ofNat 32 (d + 1)) ∧
    (Reaches s who STG.CTRL true → s.bit STG.CTRL 1 = false → s.bit STG.CTRL 0 = true → s.phase ≠ 0 →
      exec (.dispatchEnable who v) s = .next (dispatchRun ((s.setBit STG.CTRL 0 true).setBit STG.CTRL 1 true))) ∧
    (∀ k : Fin 16, s.cueQ.contains (.cons (14 + k)) = true →
      (s.bit (STG.TRIG k) 0 = false → exec (.stgTrigger k) s = .next (unqueue s (.cons (14 + k)))) ∧
      (s.bit (STG.TRIG k) 0 = true → s.bit (STG.TRIGQ k) 4 = true →
        Leaves (.stgTrigger k) s (fun t => t.fld (STG.TRIGQ k) 31 16 = min (s.fld (STG.TRIGQ k) 31 16 + 1) 0xFFFF ∧ t.bit CUE.OVR0 (14 + k) = true ∧
          t.bit (STG.TRIGQ k) 4 = true ∧ OnlyRegs s t [STG.TRIGQ k, CUE.OVR0]))) ∧
    (∀ k : Fin 16, Reaches s who (STG.TRIGQ k) true →
      Leaves (.trigqWrite who k v) s (fun t => t.fld (STG.TRIGQ k) 3 0 = v.toNat % 16 ∧ t.fld (STG.TRIGQ k) 31 16 = 0 ∧ t.bit (STG.TRIGQ k) 4 = s.bit (STG.TRIGQ k) 4 ∧
        OnlyRegs s t [STG.TRIGQ k])) ∧
    (∀ n : Fin 4, Reaches s who (STG.RUN n) false →
      (s.trusted who = true ∨ who = n.val + 2 → Leaves (.stgRunRead who n) s (fun t => t.rdata = s.rd (STG.RUN n) ∧ t.bit (STG.RUN n) 0 = false ∧ OnlyRegs s t [STG.RUN n])) ∧
      (s.trusted who = false → who ≠ n.val + 2 → Leaves (.stgRunRead who n) s (fun t => t.rdata = s.rd (STG.RUN n) ∧ t.regs = s.regs))) ∧
    (Reaches s who STG.STATUS true → s.bit STG.STATUS 9 = true → s.bit DMC.FREEZE 0 = false →
      exec (.stgFrozenClear who v) s = .next (frozenClear (s.plainWrite STG.STATUS (vSet v 9 &&& ~~~ (0x200 : Word)) true)))

/-- 05 R132, R133, R135: the queue registers.  A PUSH of a permitted producer stores its word in the slot at TAIL and counts it; one on a full ring adds 1 to DROPS with LASTCODE 1,
but where the policy lets the oldest entry go;
one that is not permitted, or on a disabled queue, changes only LASTCODE, to 2; bit 31 releases held elements of a larger size.  A POP of an empty queue reads 0 with
LASTCODE 1; one of a queue with entries reads the word of the head and hands it out.  EN checks the geometry and enables the queue or sets CFGERR; it is
cleared at any time; CLR while disabled clears the indices, COUNT and HELD; CLRD clears DROPS for a permitted initiator. -/
def Obligations.QueueRegistersOperateQueues : Prop :=
  ∀ (who : Nat) (q : Fin 128) (v : Word) (s : State),
    (Reaches s who (QUE.QPUSH q) true →
      (qOn s q = false ∨ (qSize s q = 4 ∧ qAllowed s q who true = false) ∨ (qSize s q ≠ 4 ∧ v.getLsbD 31 = false) →
        Leaves (.queuePushEnqueue who q v) s (fun t => t.fld (QUE.QSTAT q) 21 20 = 2 ∧ t.fld (QUE.QSTAT q) 14 0 = s.fld (QUE.QSTAT q) 14 0 ∧ OnlyRegs s t [QUE.QSTAT q])) ∧
      (qOn s q = true → qSize s q = 4 → qAllowed s q who true = true →
        exec (.queuePushEnqueue who q v) s = .next (let r := qAppend s q who (leBytes 4 v.toNat); qLast r.2 q r.1) ∧
        (qNoRoom s q = true → s.bit (QUE.QCFG q) 8 = false ∨ qOldestAtTail s q = false →
          Leaves (.queuePushEnqueue who q v) s (fun t => t.fld (QUE.QSTAT q) 21 20 = 1 ∧ t.fld (QUE.QSTAT q) 31 24 = min (s.fld (QUE.QSTAT q) 31 24 + 1) 255 ∧
            t.fld (QUE.QSTAT q) 14 0 = s.fld (QUE.QSTAT q) 14 0 ∧ OnlyRegs s t [QUE.QSTAT q])) ∧
        (∀ u : State, qNoRoom s q = false → engineWrite s queueBlock (qSlot s q (qTail s q)) (leBytes 4 v.toNat) false = (false, u) →
          exec (.queuePushEnqueue who q v) s = .next (
            let w := qSetTag (u.setFld (QUE.QTAIL q) 13 0 (qAdvance u q (qTail u q) 1)) q (qTail s q) who
            qLast (qSetCount w q (qCount w q + 1)) q 0))) ∧
      (qOn s q = true → qSize s q ≠ 4 → qAllowed s q who false = true →
        exec (.queuePushRelease who q v) s = .next (qLast (qRelease s q (v.toNat % 65536)) q 0))) ∧
    (Reaches s who (QUE.QPOP q) false → qOn s q = true → qAllowed s q who false = true →
      (qCount s q = 0 → Leaves (.queuePop who q) s (fun t => t.rdata = 0 ∧ t.fld (QUE.QSTAT q) 21 20 = 1 ∧ OnlyRegs s t [QUE.QSTAT q])) ∧
      (∀ (w : Word) (u : State), qCount s q ≠ 0 → qSize s q = 4 → qRead s q (qHead s q) = (some w, u) →
        exec (.queuePop who q) s = .next { qLast (qClearPending (qHandOut u q) q w) q 0 with rdata := w })) ∧
    (Reaches s who (QUE.QCFG q) true → s.trusted who = true →
      (qOn s q = false → v.getLsbD 11 = false → (∀ p : Fin 6, (s.core p).stall = none) →
        Leaves (.queueEnable who q v) s (fun t => t.bit (QUE.QCFG q) 10 = qGeometryOk ((if s.fld (QUE.QCFG q) 6 0 != bitsOf (vSet v 10) 6 0 then qUnclear s q else s).wr (QUE.QCFG q) (vSet v 10 &&& BitVec.ofNat 32 0xFFFF017F)) q (vSet v 10) ∧
          t.bit (QUE.QSTAT q) 19 = !t.bit (QUE.QCFG q) 10 ∧
          OnlyRegs s t [QUE.QCFG q, QUE.QSTAT q])) ∧
      (qOn s q = true → (∀ p : Fin 6, (s.core p).stall = none) →
        Leaves (.queueDisable who q v) s (fun t => t.bit (QUE.QCFG q) 10 = false ∧ t.fld (QUE.QCFG q) 9 0 = s.fld (QUE.QCFG q) 9 0 ∧
          t.fld (QUE.QCFG q) 31 16 = v.toNat / 65536 ∧ t.cores = s.cores ∧ OnlyRegs s t [QUE.QCFG q, QUE.QSTAT q])) ∧
      (qOn s q = false → let u := qClear (if s.fld (QUE.QCFG q) 6 0 != bitsOf (vClr (vSet v 11) 10) 6 0 then qUnclear s q else s) q
        u.cores = s.cores → (∀ p : Fin 6, (s.core p).stall = none) →
        exec (.queueClear who q v) s = .next (qFlags (u.wr (QUE.QCFG q) (vClr (vSet v 11) 10 &&& BitVec.ofNat 32 0xFFFF017F)) q))) ∧
    (Reaches s who (QUE.QSTAT q) true → qMayClear s q who = true →
      Leaves (.queueClearDrops who q v) s (fun t => t.fld (QUE.QSTAT q) 31 24 = 0 ∧ t.fld (QUE.QSTAT q) 23 0 = s.fld (QUE.QSTAT q) 23 0 ∧ OnlyRegs s t [QUE.QSTAT q]))

/-- 14 R347, R348, R353, R354: events of cue lines.  A software signal on an owned channel sets its flag and SEEN, and the event leaves for every consumer input that the channel
is enabled for at this moment; a producer's event reaches the channels that enable its slot; one of an unpowered domain reaches none; a pin-event unit emits on an edge that it is
enabled for; a channel that the writer does not own is left alone. -/
def Obligations.CueEventsLeaveForTheirTargets : Prop :=
  ∀ (who : Nat) (s : State),
    (∀ c : Fin 32, Reaches s who CUE.SWSET0 true → ownsChan s who c = true → s.svc.motionLine ≠ some c →
      Leaves (.cueSoftwareSignal who false (BitVec.ofNat 32 (2 ^ c.val))) s (fun t => t.bit (CUE.CHSTAT c) 0 = true ∧ t.bit (CUE.CHSTAT c) 1 = true ∧
        (∀ x ∈ cueTargets s c, x ∈ t.cueQ) ∧ (∀ x ∈ s.cueQ, x ∈ t.cueQ) ∧ t.mem = s.mem ∧ t.cores = s.cores ∧
        ∀ a, a / 4096 ≠ 0x30014 → t.rd a = s.rd a)) ∧
    (∀ c : Fin 32, Reaches s who CUE.SWSET0 true → ownsChan s who c = false → exec (.cueSoftwareSignal who false (BitVec.ofNat 32 (2 ^ c.val))) s = .next s) ∧
    (∀ (f : Fin 10) (i : Fin 64), producerPowered s (famOf f) i = false → exec (.cueProducerEvent f i) s = .next s) ∧
    (∀ (f : Fin 10) (i : Fin 64), producerPowered s (famOf f) i = true → f.val ≠ 4 → exec (.cueProducerEvent f i) s = .next (emitProducer s (famOf f) i)) ∧
    (∀ c : Fin 64, slotOn s c 6 .rxq (c % 16) = true → exec (.cueProducerEvent 4 c) s = .next (emitChan s c)) ∧
    (∀ (i : Fin 16) (rising : Bool), s.fld (PIN.PEV i) 5 0 < 48 →
      exec (.pinEvent i rising) s = .next (if s.bit (PIN.PEV i) 15 && edgeHit (s.fld (PIN.PEV i) 9 8) rising
        then emitProducer (setExt s (s.fld (PIN.PEV i) 5 0) rising) .pev i else setExt s (s.fld (PIN.PEV i) 5 0) rising))

/-- 14 R350, R351, R354, R355, R357, R358: what takes the events of cue lines, and the logic cells.  A core's event latch is set by an event, or its overrun when set already; an interrupt
input sets its pending bit, or its overrun; a cell clock forms F of the truth table and gives it to the output, which changes when the filter is off; RST clears the cell;
another OWNER clears PEN and the flag of a channel, or resets a cell, on a trusted write; another writer of a channel is blocked; pending bits clear for their core and for trusted writers. -/
def Obligations.CueConsumersTakeEvents : Prop :=
  ∀ (who : Nat) (v : Word) (s : State),
    (∀ p : Fin 6, s.cueQ.contains (.cons p) = true → s.dom (coreDom p) = .on →
      Leaves (.cueConsumerTake (.cons ⟨p, by omega⟩)) s (fun t => t.cueQ = s.cueQ.filter (fun u => u != .cons p) ∧
        ((s.core p).latch = false → t.core p = { s.core p with latch := true } ∧ t.regs = s.regs) ∧
        ((s.core p).latch = true → t.bit CUE.OVR0 p = true ∧ t.core p = s.core p ∧ OnlyRegs s t [CUE.OVR0]))) ∧
    (∀ (p : Fin 6) (j : Fin 16), s.cueQ.contains (.irq p j) = true →
      Leaves (.cueConsumerTake (.irq p j)) s (fun t => t.bit (CUE.IRQPEND p) j = true ∧ t.bit (CUE.IRQOVR p) j = (s.bit (CUE.IRQPEND p) j || s.bit (CUE.IRQOVR p) j) ∧
        t.cueQ = s.cueQ.filter (fun u => u != .irq p j) ∧ OnlyRegs s t [CUE.IRQPEND p, CUE.IRQOVR p])) ∧
    (∀ k : Fin 16, s.cells[k].changed = false → s.cells[k].fired = false → s.fld (CUE.LCCFG k) 17 16 = 0 → s.fld (CUE.LCCFG k) 27 24 = 0 →
      Leaves (.logicCellClock k) s (fun t => t.bit (CUE.LCSTAT k) 0 = cellF s k (cellX s k 3) ∧
        t.cells[k] = { taken := 0, f := cellF s k (cellX s k 3), raw := cellF s k (cellX s k 3), hold := 0, changed := cellF s k (cellX s k 3) != s.bit (CUE.LCSTAT k) 0, fired := false } ∧
        OnlyRegs s t [CUE.LCSTAT k])) ∧
    (∀ k : Fin 16, Reaches s who (CUE.LCCFG k) true → ownsCell s who k = true →
      Leaves (.logicCellReset who k v) s (fun t => t.rd (CUE.LCSTAT k) = 0 ∧ t.cells[k] = {} ∧ OnlyRegs s t [CUE.LCCFG k, CUE.LCSTAT k])) ∧
    (∀ c : Fin 64, Reaches s who (CUE.CHCFG c) true →
      (s.trusted who = true → bitsOf v 10 8 ≠ s.fld (CUE.CHCFG c) 10 8 → v.getLsbD 12 = true →
        Leaves (.channelOwnerWrite who c v) s (fun t => t.fld (CUE.CHCFG c) 10 8 = bitsOf v 10 8 ∧ t.fld (CUE.CHCFG c) 7 0 = 0 ∧ t.bit (CUE.CHSTAT c) 0 = false ∧
          OnlyRegs s t [CUE.CHCFG c, CUE.CHSTAT c])) ∧
      (ownsChan s who c = false → exec (.channelOwnerWrite who c v) s = .next (curtainViolation s who (BitVec.ofNat 32 (CUE.CHCFG c)) true))) ∧
    (∀ k : Fin 16, Reaches s who (CUE.LCOWN k) true → s.trusted who = true →
      Leaves (.cellOwnerWrite who k v) s (fun t => t.rd (CUE.LCOWN k) = v &&& 0xF ∧ (bitsOf v 2 0 ≠ s.fld (CUE.LCOWN k) 2 0 → t.cells[k] = {} ∧ t.rd (CUE.LCSTAT k) = 0))) ∧
    (∀ p : Fin 6, Reaches s who (CUE.IRQPEND p) true →
      exec (.irqpendClear who p v) s = .next (if isCoreOrTrusted s who p then s.wr (CUE.IRQPEND p) (s.rd (CUE.IRQPEND p) &&& ~~~ (v &&& 0xFFFF)) else s)) ∧
    (Reaches s who CUE.OVR0 true → s.trusted who = true → exec (.ovrClear who false v) s = .next (s.wr CUE.OVR0 (s.rd CUE.OVR0 &&& ~~~ v)))

/-- 06 R147, R148, R149, R150, R152, R153, R154, R156, R161: the DRAM controller.  Training ends READY with an empty validity map and a filler that starts anew, or with TRAINFAIL and
its step; the filler makes the next frame valid; tracking changes no contents and reports its drift; a write of CTRL starts a switch of the set point, which ends at the other one, and a
retrain where one is accepted (frozen or disabled), powers channel 1 down, forgetting its frames, or up, with a retrain and a fill, and refuses CH1OFF with CFGERR while channels
interleave; a page timer closes its row alone; a due refresh lowers D, at −8 a burst brings it to 0; a pull-in, or a postponed refresh of an idle channel, raises D; in self-refresh none falls
due; the MR4 codes are reported and 0b111 is logged; ADDRMAP is refused with CFGERR where it does not apply, and a change forgets every frame. -/
def Obligations.DramTrainsSwitchesAndRefreshes : Prop :=
  ∀ (who : Nat) (v : Word) (s : State),
    let ctrl := fun (w : Word) (t : State) =>
      let refused := w.getLsbD 2 && s.fld DMC.ADDRMAP 3 0 != 0
      t.bit DMC.CTRL 0 = w.getLsbD 0 ∧ t.bit DMC.CTRL 1 = w.getLsbD 1 ∧ t.bit DMC.CTRL 2 = (if refused then s.bit DMC.CTRL 2 else w.getLsbD 2) ∧
      t.bit DMC.STATUS 6 = (s.bit DMC.STATUS 6 || (w.getLsbD 1 != s.bit DMC.CTRL 1 && w.getLsbD 1 != s.dram.speed)) ∧ t.bit DMC.STATUS 7 = refused ∧
      (w.getLsbD 0 = s.bit DMC.CTRL 0 → t.bit DMC.STATUS 1 = (s.bit DMC.STATUS 1 || (s.bit DMC.CTRL 2 && !w.getLsbD 2) || (w.getLsbD 3 && (s.bit DMC.FREEZE 0 || !s.bit DMC.CTRL 0)))) ∧
      t.bit DMC.STATUS 4 = (s.bit DMC.STATUS 4 || (s.bit DMC.CTRL 2 && !w.getLsbD 2)) ∧ t.dram.speed = s.dram.speed ∧
      t.dram.valid = (if w.getLsbD 2 && s.fld DMC.ADDRMAP 3 0 == 0 then s.dram.valid.filter (fun f => decide (f < 14336)) else s.dram.valid) ∧
      OnlyRegs s t [DMC.CTRL, DMC.STATUS, DMC.FILLPTR]
    (∀ f : Fin 6, s.dom Dom.dramsys = .on → s.dram.trainAll = true →
      Leaves (.dramTrainingDone f) s (fun t => t.fld DMC.TRAIN 3 0 = f.val ∧ t.bit DMC.STATUS 0 = (f.val == 0) ∧ t.bit DMC.STATUS 8 = (f.val != 0) ∧ t.bit DMC.STATUS 1 = false ∧
        t.bit DMC.STATUS 4 = (f.val == 0) ∧ t.dram.valid = [] ∧ t.rd DMC.FILLPTR = 0 ∧ OnlyRegs s t [DMC.TRAIN, DMC.STATUS, DMC.FREEZE, DMC.FILLPTR])) ∧
    (s.bit DMC.STATUS 4 = true → s.bit DMC.STATUS 0 = true → s.bit DMC.FREEZE 0 = false → s.dom Dom.dramsys = .on →
      let f := s.fld DMC.FILLPTR 14 0
      (f + 1 < framesPowered s → Leaves .dramBackgroundFill s (fun t => t.dram.valid.contains f = true ∧ t.fld DMC.FILLPTR 14 0 = f + 1 ∧ t.bit DMC.STATUS 4 = true)) ∧
      (framesPowered s ≤ f + 1 → Leaves .dramBackgroundFill s (fun t => t.dram.valid.contains f = true ∧ t.bit DMC.STATUS 4 = false))) ∧
    exec .zqCalibration s = .next s ∧
    (∀ d : BitVec 16, Leaves (.dqsOscRead d) s (fun t => t.fld DMC.TRAIN 31 16 = d.toNat ∧ OnlyRegs s t [DMC.TRAIN])) ∧
    (Reaches s who DMC.CTRL true →
      Leaves (.dramSpeedSwitch who v) s (ctrl (withBits v 1 1 (1 - s.fld DMC.CTRL 1 1))) ∧ Leaves (.dramRetrain who v) s (ctrl (vSet v 3)) ∧
      Leaves (.channel1Off who v) s (ctrl (vSet v 2)) ∧ Leaves (.channel1On who v) s (ctrl (vClr v 2))) ∧
    (s.bit DMC.STATUS 6 = true → (∀ c : Fin 2, migState s c ≠ 3) →
      Leaves .dramSpeedSwitchDone s (fun t => t.dram.speed = (!s.dram.speed) ∧ t.bit DMC.STATUS 6 = (s.bit DMC.CTRL 1 != !s.dram.speed) ∧ OnlyRegs s t [DMC.STATUS])) ∧
    (∀ f : Fin 6, s.bit DMC.STATUS 1 = true → s.dram.trainAll = false →
      Leaves (.dramRetrainDone f) s (fun t => t.bit DMC.STATUS 1 = false ∧ t.fld DMC.TRAIN 3 0 = f.val ∧ t.bit DMC.STATUS 8 = (f.val != 0) ∧ t.dram = s.dram ∧ OnlyRegs s t [DMC.TRAIN, DMC.STATUS])) ∧
    (∀ (c : Fin 2) (b : Fin 8), Leaves (.dramPageTimerExpiry c b) s (fun t => t.dram.rows = s.dram.rows.filter (fun r => r.1 != 8 * c.val + b.val) ∧ t.regs = s.regs ∧ t.mem = s.mem)) ∧
    (∀ (c : Fin 2) (idle : Bool), s.dom Dom.dramsys ≠ .on → exec (.refreshDue c idle) s = .next s ∧ exec (.refreshPullIn c) s = .next s) ∧
    (∀ (c : Fin 2) (idle : Bool), s.dom Dom.dramsys = .on →
      (refreshCredit s c ≤ -7 → Leaves (.refreshDue c idle) s (fun t => refreshCredit t c = 0 ∧ t.fld DMC.REFSTAT 31 16 = min (s.fld DMC.REFSTAT 31 16 + 1) 0xFFFF ∧
        t.dram.rows = s.dram.rows.filter (fun r => r.1 / 8 != c.val) ∧ OnlyRegs s t [DMC.REFSTAT])) ∧
      (-7 < refreshCredit s c → refreshCredit s c ≤ 0 → (s.bit DMC.REFCFG 0 = false ∨ idle = true) → Leaves (.refreshDue c idle) s (fun t => refreshCredit t c = refreshCredit s c ∧
        t.dram.rows = s.dram.rows.filter (fun r => r.1 / 8 != c.val) ∧ OnlyRegs s t [DMC.REFSTAT])) ∧
      (-7 < refreshCredit s c → (0 < refreshCredit s c ∨ s.bit DMC.REFCFG 0 = true ∧ idle = false) → refreshCredit s c ≤ 8 →
        Leaves (.refreshDue c idle) s (fun t => refreshCredit t c = refreshCredit s c - 1 ∧ t.dram = s.dram ∧ OnlyRegs s t [DMC.REFSTAT])) ∧
      (s.bit DMC.REFCFG 1 = true ∨ refreshCredit s c < 0 → -8 ≤ refreshCredit s c → refreshCredit s c < 8 → Leaves (.refreshPullIn c) s (fun t => refreshCredit t c = refreshCredit s c + 1 ∧
        t.dram.rows = s.dram.rows.filter (fun r => r.1 / 8 != c.val) ∧ OnlyRegs s t [DMC.REFSTAT]))) ∧
    (∀ x y : Fin 8, Leaves (.mr4Poll x y) s (fun t => t.fld DMC.STATUS 18 16 = x.val ∧ t.fld DMC.STATUS 22 20 = y.val ∧ (x.val ≠ 7 → y.val ≠ 7 → OnlyRegs s t [DMC.STATUS]) ∧
      (x.val = 7 → y.val ≠ 7 → t.fld (FLT.LOG (s.fld FLT.LOGHEAD 5 0) 2) 7 0 = 0x0E))) ∧
    (Reaches s who DMC.ADDRMAP true →
      (s.bit DMC.CTRL 0 = true ∨ 9 < v.toNat % 16 → Leaves (.dmcAddrmapWrite who v) s (fun t => t.bit DMC.STATUS 7 = true ∧ t.dram = s.dram ∧ OnlyRegs s t [DMC.STATUS])) ∧
      (s.bit DMC.CTRL 0 = false → v.toNat % 16 ≤ 9 → Leaves (.dmcAddrmapWrite who v) s (fun t => t.fld DMC.ADDRMAP 3 0 = v.toNat % 16 ∧ t.bit DMC.STATUS 7 = false ∧
        (v.toNat % 16 ≠ s.fld DMC.ADDRMAP 3 0 → t.dram.valid = [] ∧ t.bit DMC.STATUS 4 = true ∧ t.rd DMC.FILLPTR = 0) ∧ OnlyRegs s t [DMC.ADDRMAP, DMC.STATUS, DMC.FILLPTR])))

/-- 06 R142, R143, R146, R148, R157, R159, R160, R161: errors of DRAM words.  A clean word is read as it is and a patrol read moves to the next word; a single-bit error is counted and written back; a poisoned word
is an error without a freeze; an uncorrectable one freezes the controller; a whole word is written without a read, and a partial write of a poisoned word writes nothing; a diagnostic access acts while frozen only, shows the raw word, writes it, or poisons it; RESUME clears the capture
and the freeze, SCRUB and RESET start, and a scrub that has poisoned its damaged words ends the freeze; a read of POISONQ pops the oldest frame. -/
def Obligations.DramErrorsFreezeAndRelease : Prop :=
  ∀ (who a : Nat) (s : State), s.bit FLT.INJCTRL 16 = false →
    (targetOf a = .dram → dramServes s a = true →
      (∀ p, pathSyn s (a / 8 * 8) p = 0 → exec (.dramAccess who a none p) s = .next (dramOpenRow s a)) ∧
      (∀ p, s.dram.valid.contains (frameOfDram a) = true → pathSyn s (a / 8 * 8) p = 0xFF →
        Leaves (.dramAccess who a none p) s (fun t => t.fld DMC.CECOUNT 31 16 = min (s.fld DMC.CECOUNT 31 16 + 1) 0xFFFF ∧ OnlyRegs s t [DMC.CECOUNT])) ∧
      (∀ p, s.dram.valid.contains (frameOfDram a) = true → synSingle (pathSyn s (a / 8 * 8) p) = true →
        Leaves (.dramAccess who a none p) s (fun t => t.fld DMC.CECOUNT 15 0 = min (s.fld DMC.CECOUNT 15 0 + 1) 0xFFFF ∧ t.rd DMC.CEADDR = BitVec.ofNat 32 (a / 8 * 8) ∧
          storedSyn t (a / 8 * 8) = 0)) ∧
      (∀ p, let x := pathSyn s (a / 8 * 8) p
        s.dram.valid.contains (frameOfDram a) = true → x ≠ 0 → x ≠ 0xFF → synSingle x = false →
        Leaves (.dramAccess who a none p) s (fun t => t = dramFreeze (dramOpenRow s a) who a (pathWord s (a / 8 * 8) p) 0 x ∧ t.fld DMC.FREEZE 2 0 = 3 ∧
          t.rd DMC.FRZADDR = BitVec.ofNat 32 (a / 8 * 8) ∧ t.fld DMC.FRZSYN 7 0 = x.toNat)) ∧
      (∀ bs p, exec (.dramAccess who a (some bs) p) s = .next (performWrite s who a (bs.take (8 - a % 8)) p).2) ∧
      (∀ (bs : List Byte) p, a % 8 = 0 → bs.length = 8 →
        Leaves (.dramAccess who a (some bs) p) s (fun t => storedSyn t a = 0 ∧ (∀ i < 8, t.byte (a + i) = bs.getD i 0) ∧ t.dram.valid.contains (frameOfDram a) = true ∧ t.regs = s.regs)) ∧
      (∀ (bs : List Byte) p, 0 < bs.length → a % 8 + bs.length < 8 → s.dram.valid.contains (frameOfDram a) = true → pathSyn s (a / 8 * 8) p = 0xFF →
        Leaves (.dramAccess who a (some bs) p) s (fun t => t.mem = s.mem ∧ OnlyRegs s t [DMC.CECOUNT]))) ∧
    (let w := 0x80000000 + 8 * s.dram.patrol
     s.fld DMC.SCRUB 7 0 ≠ 0 → dramServes s 0x80000000 = true → dramServes s w = true → storedSyn s w = 0 →
      Leaves (.patrolScrubRead .clean) s (fun t => t.dram = { (dramOpenRow s w).dram with patrol := (s.dram.patrol + 1) % 0xE00000 } ∧ t.regs = s.regs ∧ t.mem = s.mem)) ∧
    (Reaches s who DMC.DIAGCTRL true → s.bit DMC.FREEZE 0 = false →
      exec (.diagRead who) s = .next s ∧ exec (.diagWrite who) s = .next s ∧ exec (.diagPoison who) s = .next s) ∧
    (Reaches s who DMC.DIAGCTRL true → s.bit DMC.FREEZE 0 = true → s.bit DMC.CTRL 2 = false → s.fld DMC.DIAGADDR 25 3 * 8 < 0x03800000 →
      let w := dramUnmap s (s.fld DMC.DIAGADDR 31 31) (s.fld DMC.DIAGADDR 25 3 * 8)
      Leaves (.diagRead who) s (fun t => t.fld DMC.DIAGCTRL 9 8 = 1 ∧ t.rd DMC.DIAGDLO = BitVec.ofNat 32 (s.viewNat w 8) ∧ t.rd DMC.DIAGDHI = BitVec.ofNat 32 (s.viewNat w 8 / 2 ^ 32) ∧
        t.bit DMC.FREEZE 0 = true ∧ t.dram = s.dram ∧ OnlyRegs s t [DMC.DIAGCTRL, DMC.DIAGDLO, DMC.DIAGDHI, DMC.DIAGCHK]) ∧
      Leaves (.diagWrite who) s (fun t => t.fld DMC.DIAGCTRL 9 8 = 1 ∧ (∀ i < 8, t.byte (w + i) = (leBytes 4 (s.rd DMC.DIAGDLO).toNat ++ leBytes 4 (s.rd DMC.DIAGDHI).toNat).getD i 0)) ∧
      Leaves (.diagPoison who) s (fun t => t.fld DMC.DIAGCTRL 9 8 = 1 ∧ storedSyn t w = 0xFF ∧ (s.dram.valid.contains (frameOfDram w) = true → t.mem = s.mem))) ∧
    (Reaches s who DMC.FREEZE true → s.bit DMC.FREEZE 0 = true → s.fld DMC.FREEZE 2 1 ≠ 2 → s.dram.release = 0 →
      Leaves (.releaseResume who) s (fun t => t.rd DMC.FREEZE = 0 ∧ t.bit DMC.STATUS 2 = false ∧ t.dram = s.dram ∧
        OnlyRegs s t [DMC.FREEZE, DMC.STATUS, DMC.FRZADDR, DMC.FRZCMD, DMC.FRZSYN, DMC.FRZDLO, DMC.FRZDHI]) ∧
      Leaves (.releaseScrub who) s (fun t => t.dram = { s.dram with release := 2 } ∧ t.bit DMC.STATUS 5 = true ∧ OnlyRegs s t [DMC.STATUS]) ∧
      Leaves (.releaseReset who) s (fun t => t.dram = { s.dram with release := 3, trainAll := true, valid := [], lost := s.dram.valid ++ s.dram.lost } ∧ t.bit DMC.STATUS 0 = false ∧ t.bit DMC.STATUS 1 = true)) ∧
    (s.dram.release = 2 → s.dram.badChk = [] →
      Leaves (.scrubReleaseDone []) s (fun t => t.rd DMC.FREEZE = 0 ∧ t.bit DMC.STATUS 2 = false ∧ t.bit DMC.STATUS 5 = false ∧ t.dram = { s.dram with release := 0 } ∧
        OnlyRegs s t [DMC.FREEZE, DMC.STATUS])) ∧
    (Reaches s who DMC.POISONQ false → s.dram.poisonq = [] → Leaves (.poisonqRead who) s (fun t => t = { s with rdata := 0 })) ∧
    (∀ (f : Nat) (l : List Nat), Reaches s who DMC.POISONQ false → s.dram.poisonq = f :: l → f < 28672 →
      Leaves (.poisonqRead who) s (fun t => t.rdata = BitVec.ofNat 32 (f + 2 ^ 30 * natBit s.dram.poisonOvf + 2 ^ 31) ∧ t.dram = { s.dram with poisonq := l, poisonOvf := false } ∧ t.regs = s.regs ∧ t.mem = s.mem))

/-- 07 R167 to R173, R175 to R179, R182: the descriptors of flash and the journal.  With JREADY 0 no PROGRAM, ERASE, RETIRE or RELEASE is taken; a head descriptor that fails a check ends with its code and alters
nothing; otherwise its opening record is committed and it starts; a burst is programmed by clearing bits and one that fails is torn; a pulse that verifies ends the erase; an erase is suspended for a read or an urgent descriptor and resumed after it; a
read waits for the busy array unless its line is held; the prefetch takes the line after the last miss; the oldest MRAM write is performed. -/
def Obligations.FlashRunsItsDescriptors : Prop :=
  ∀ (env : FlashEnv) (who : Nat) (v : Word) (d : FlashDesc) (u : Bool) (s s1 : State),
    (s.bit FLC.CTRL 0 = false → exec (.flashProgram env) s = .next s ∧ exec (.flashErase env) s = .next s ∧ exec (.flashRetire env) s = .next s ∧ exec (.flashRelease env) s = .next s) ∧
    (flcTakes s = true → s.bit FLC.CTRL 0 = true →
      (takeDesc s (fun op => op == 1) = (some (d, u), s1) →
        let c := programRefusal s1 d env
        let s2 := if c.1 = 0 ∨ (12 ≤ c.1 ∧ c.1 ≤ 17) then (physRead s1 flashInit d.src d.len).2 else s1
        (c.1 ≠ 0 → exec (.flashProgram env) s = .next (finishDesc s2 d.addr c.1 c.2 0)) ∧
        (c.1 = 0 →
          let crc := crc32 (((physRead s2 flashInit d.src d.len).1).getD [])
          let r := journalOpen s2 3 0 (d.flash / 0x4000) d.flash d.len crc d.addr
          let o : FlashOp := { desc := d.addr, op := 1, off := d.flash, len := d.len, crc := crc, openSeq := r.2.1, openSlot := r.1, safe := d.safe }
          exec (.flashProgram env) s = .next (prepareBurst (invalidateSectors (startProg r.2.2 o) d.flash d.len) o))) ∧
      (takeDesc s (fun op => op == 2) = (some (d, u), s1) →
        (d.flash % 0x4000 ≠ 0 ∨ 0x400000 ≤ d.flash → exec (.flashErase env) s = .next (finishDesc s1 d.addr 8 0 0)) ∧
        (d.flash % 0x4000 = 0 → d.flash < 0x400000 → blockLocked s1 d.flash = false → flcState s1 ≠ 3 → env.jErr = false →
          let r := journalOpen (retireCloses s1 (d.flash / 0x4000)) 1 0 (d.flash / 0x4000) d.flash 0x4000 (wearCount (retireCloses s1 (d.flash / 0x4000)) (d.flash / 0x4000) + 1) d.addr
          let o : FlashOp := { desc := d.addr, op := 2, off := d.flash, len := 0x4000, openSeq := r.2.1, openSlot := r.1 }
          exec (.flashErase env) s = .next (invalidateSectors (descStatus ((setFlcState (r.2.2.upNvm (fun v => { v with erase := some o, eraseAt := (retireCloses s1 (d.flash / 0x4000)).uptime })) 2).wr FLC.CUR
            (BitVec.ofNat 32 d.addr)) d.addr 1) d.flash 0x4000))) ∧
      (takeDesc s (fun op => op == 4) = (some (d, u), s1) →
        (s1.fld SYS.BOOTSEL 0 0 = d.flash % 2 → exec (.flashRetire env) s = .next (finishDesc s1 d.addr 10 0 0)) ∧
        (s1.fld SYS.BOOTSEL 0 0 ≠ d.flash % 2 → sectorBlocked s1 (8 * (d.flash % 2) + 7) = false → env.jErr = false →
          let b := d.flash % 2
          let r := journalOpen s1 9 b (8 * b + 7) (epochBurst b 0) 1024 0 d.addr
          exec (.flashRetire env) s = .next (invalidateSectors (startProg r.2.2 { desc := d.addr, op := 4, off := b, len := 1024, openSeq := r.2.1, openSlot := r.1 }) (epochBurst b 0) 2048))) ∧
      (takeDesc s (fun op => op == 7) = (some (d, u), s1) → env.jErr = true → exec (.flashRelease env) s = .next (finishDesc s1 d.addr 17 0 0))) ∧
    (flcTakes s = true →
      (takeDesc s (fun op => op == 3) = (some (d, u), s1) →
        (srcOk d.src = false → exec (.flashEpoch env) s = .next (finishDesc s1 d.addr 8 0 0)) ∧
        (srcOk d.src = true → blankBurst s1 (d.flash % 2) = none → exec (.flashEpoch env) s = .next (finishDesc s1 d.addr 16 0 0)) ∧
        (∀ (i : Nat) (bs : List Byte), srcOk d.src = true → blankBurst s1 (d.flash % 2) = some i → s1.bit (FLC.UNSETTLED 0) (8 * (d.flash % 2) + 7) = false → sectorBlocked s1 (8 * (d.flash % 2) + 7) = false →
          env.srcErr = false → (physRead s1 flashInit d.src 64).1 = some bs → env.jErr = false →
          let b := d.flash % 2
          let r := journalOpen s1 7 b (8 * b + 7) (epochBurst b i) 64 i d.addr
          exec (.flashEpoch env) s = .next (invalidateSectors (startProg r.2.2 { desc := d.addr, op := 3, off := epochBurst b i, len := 64, crc := i, openSeq := r.2.1, openSlot := r.1 }) (epochBurst b i) 64))) ∧
      (takeDesc s (fun op => op == 5) = (some (d, u), s1) →
        (rangeBad d.flash d.len true = true → exec .flashBlankcheck s = .next (finishDesc s1 d.addr 8 0 0)) ∧
        (rangeBad d.flash d.len true = false → s1.bit (FLC.UNSETTLED (d.flash / 0x4000 / 32)) (d.flash / 0x4000 % 32) = false → sectorBlocked s1 (d.flash / 0x4000) = false →
          ((∀ i < d.len / 64, flashBlank s1 (d.flash + 64 * i) 64 = true) → exec .flashBlankcheck s = .next (finishDesc s1 d.addr 3 0 0)) ∧
          (∀ g, firstDirty s1 d.flash d.len = some g → exec .flashBlankcheck s = .next (finishDesc s1 d.addr 4 g 0))))) ∧
    (flcState s ≠ 4 → takeDesc s (fun op => op == 6) = (some (d, u), s1) →
      (u = false → exec .flashAbort s = .next (finishDesc s1 d.addr 9 0 0)) ∧
      (u = true → s1.nvm.erase = none → exec .flashAbort s = .next (finishDesc s1 d.addr 3 0 0)) ∧
      (∀ o, u = true → s1.nvm.erase = some o → exec .flashAbort s = .next (finishDesc (abandonErase s1 o 2 15) d.addr 3 0 0))) ∧
    (∀ (o : FlashOp) (r : Option Nat), s.nvm.prog = some o →
      (o.op = 1 → o.done + 64 < o.len → o.backup = none →
        let o2 := { o with done := o.done + 64 }
        let w := s.setBytes (flashAt (burstAt o)) (List.zipWith (fun a b => a &&& b) (s.bytes (flashAt (burstAt o)) 64) (s.viewBytes ((readDesc s o.desc).src + o.done) 64))
        let p := descProgress w o.desc (o.done + 64)
        exec (.progBurstDone true r) s = .next (prepareBurst (p.upNvm (fun v => { v with prog := some o2, gap := v.readAt.isSome })) o2)) ∧
      (let x := releaseBackup (tearBurst s (burstAt o)) o
       let c := closeProg x.2 x.1 false
       exec (.progBurstDone false r) s = .next (endProg (finishDesc c.2 o.desc 5 (burstAt o) c.1)))) ∧
    (∀ o, s.nvm.erase = some o → flcState s = 2 →
      (o.done + 1 < 48 → exec (.erasePulseDone false) s = .next (descProgress (s.upNvm (fun v => { v with erase := some { o with done := o.done + 1 } })) o.desc (o.done + 1))) ∧
      (let o2 := { o with done := o.done + 1 }
       let r := eraseDone (descProgress (s.upNvm (fun v => { v with erase := some o2 })) o.desc (o.done + 1)) o2
       exec (.erasePulseDone true) s = .next ((setFlcState ((finishDesc r.2 o.desc 3 0 r.1).upNvm (fun v => { v with erase := none })) 0).wr FLC.CUR 0)) ∧
      (s.nvm.eraseAt + usTicks (minRun s) ≤ s.uptime → (urgentRuns s = true ∨ ∃ k, s.nvm.readAt = some k ∧ k + usTicks (suspLim s) ≤ s.uptime) →
        exec .eraseSuspend s = .next (descStatus ((((setFlcState s 3).wr FLC.SUSPDESC (BitVec.ofNat 32 o.desc)).wr FLC.CUR 0).upNvm
          (fun v => { v with eraseAt := s.uptime, quietAt := s.uptime, readAt := none })) o.desc 2)) ∧
      (s.uptime < s.nvm.eraseAt + usTicks (minRun s) → exec .eraseSuspend s = .next s)) ∧
    (∀ o, s.nvm.erase = some o → flcState s = 3 →
      ((s.nvm.quietAt + usTicks (suspLim s) ≤ s.uptime ∧ urgentRuns s = false) ∨ s.nvm.eraseAt + usTicks (maxSusp s) ≤ s.uptime ∨ s.bit FLC.STATUS 4 = true →
        exec .eraseResume s = .next (descStatus ((((setFlcState s 2).wr FLC.SUSPDESC 0).wr FLC.CUR (BitVec.ofNat 32 o.desc)).upNvm (fun v => { v with eraseAt := s.uptime })) o.desc 1)) ∧
      (urgentRuns s = true → s.uptime < s.nvm.eraseAt + usTicks (maxSusp s) → s.bit FLC.STATUS 4 = false → exec .eraseResume s = .next s)) ∧
    (∀ (f wait : Nat) (fetch : Bool) (mir : Ecc), f < 0x400000 →
      let s2 := touch s (flashAt f)
      (sectorBlocked s2 (f / 0x4000) = true → exec (.flashRead who f fetch .ok mir wait) s = .next (readServed s2 wait)) ∧
      (sectorBlocked s2 (f / 0x4000) = false → readWaits s2 f = true → exec (.flashRead who f fetch .ok mir wait) s = .next (noteWait s2)) ∧
      (sectorBlocked s2 (f / 0x4000) = false → readWaits s2 f = false → exec (.flashRead who f fetch .ok mir wait) s = .next (readServed (flashTouch s2 who (f / 32) fetch) wait))) ∧
    (∀ l, s.nvm.miss = some l → s.bit FLC.CTRL 1 = true → flcState s = 0 ∨ flcState s = 3 → s.nvm.pf.contains (l + 1) = false → 32 * (l + 1) < 0x400000 →
      sectorBlocked s (32 * (l + 1) / 0x4000) = false →
      Leaves .flashPrefetch s (fun t => t.nvm.pf = lruTouch 4 (l + 1) s.nvm.pf ∧ t.nvm.miss = none ∧ t.regs = s.regs ∧ t.mem = s.mem)) ∧
    (Reaches s who FLC.CTRL true → Leaves (.flashJreadySet who v) s (fun t => t.bit FLC.CTRL 0 = true ∧ OnlyRegs s t [FLC.CTRL])) ∧
    (∀ (e : Nat × List (Nat × Byte)) (l : List (Nat × List (Nat × Byte))), s.nvm.mbuf = e :: l →
      Leaves .mramWritePerform s (fun t => t.nvm.mbuf = l ∧ t.mem = (e.2.foldl (fun (s : State) (x : Nat × Byte) => s.setByte x.1 x.2) s).mem ∧ t.bit MRC.STATUS 0 = !l.isEmpty))

/-- 08 R193, R194, R197, R201, R202, R205, R207, R209, R211, R213: the receiver.  A preamble, a sync word, a header and the last symbol of the payload move a demodulator on, with their counts and measurements; a window without a sync
word and a failed header send it back to SEARCH; EN is refused where the bin is taken; the AGC keeps its gain in HOLD and takes 12 steps off a clip in TRACK; an APPLY out of its range sets CFGERR, with busy demodulators it waits and is
made when they are gone, and otherwise at once; the receiver starts, stops, and returns after a transmission; a read of TSLO latches TSHI. -/
def Obligations.ReceiverFollowsItsFrames : Prop :=
  ∀ (who : Nat) (v : Word) (n : Fin 64) (s : State),
    (∀ (k : Nat) (d : BitVec 8), s.bit RXC.STATUS 0 = true → demodState s n = 1 → detThr s n ≤ k →
      Leaves (.preambleDetected n k d) s (fun t => demodState t n = 2 ∧ t.fld (CH.CH_CNT0 n) 15 0 = min (s.fld (CH.CH_CNT0 n) 15 0 + 1) 0xFFFF ∧ t.fld (CH.CH_STAT n) 15 8 = d.toNat ∧
        (demodFrame t n).isSome = true ∧ t.mem = s.mem)) ∧
    (∀ (k : Nat) (d : BitVec 8), k < detThr s n → exec (.preambleDetected n k d) s = .next s) ∧
    (∀ (x : SyncMeas) (m : RxMeta), demodFrame s n = some m → demodState s n = 2 → sfdMatches s m x = true →
      let ts := s.nt - BitVec.ofNat 64 x.back - BitVec.ofNat 64 (s.fld (RXC.GDLY m.mode) 15 0)
      Leaves (.syncFound n x) s (fun t => demodState t n = 3 ∧ t.fld (CH.CH_CNT0 n) 31 16 = min (s.fld (CH.CH_CNT0 n) 31 16 + 1) 0xFFFF ∧ t.rd (CH.CH_TSLO n) = BitVec.ofNat 32 ts.toNat ∧
        t.fld (CH.CH_RSSI n) 9 0 = x.rssi.val ∧ t.fld (CH.CH_FOFS n) 15 0 = x.fofs.toNat ∧ t.mem = s.mem)) ∧
    (∀ k : Nat, (demodState s n = 2 → syncWin s n ≤ k → Leaves (.syncWindowTimeout n k) s (fun t => demodState t n = 1 ∧ demodFrame t n = none ∧ t.mem = s.mem)) ∧
      (k < syncWin s n → exec (.syncWindowTimeout n k) s = .next s)) ∧
    (∀ (soft : List Int) (m : RxMeta), demodFrame s n = some m → demodState s n = 3 →
      (m.sun = false → headerOk m.mode (headerDecode s.free soft) = true →
        Leaves (.headerDecision n soft) s (fun t => demodState t n = 4 ∧ t.fld FEC.HDRCNT 15 0 = min (s.fld FEC.HDRCNT 15 0 + 1) 0xFFFF ∧ t.mem = s.mem)) ∧
      ((m.sun = false ∧ headerOk m.mode (headerDecode s.free soft) = false) ∨ (m.sun = true ∧ phrSwitch (sunDecode m.coded (testB s.rxc.sunCfg.toNat 2) soft) = true) →
        Leaves (.headerDecision n soft) s (fun t => demodState t n = 1 ∧ demodFrame t n = none ∧ t.fld (CH.CH_CNT1 n) 15 0 = min (s.fld (CH.CH_CNT1 n) 15 0 + 1) 0xFFFF ∧ t.mem = s.mem)) ∧
      (m.sun = true → phrSwitch (sunDecode m.coded (testB s.rxc.sunCfg.toNat 2) soft) = false →
        Leaves (.headerDecision n soft) s (fun t => demodState t n = 4 ∧ t.mem = s.mem))) ∧
    (∀ (m : RxMeta) (rest : List (List (List Int))), demodFrame s n = some m → demodState s n = 4 → m.sun = true →
      Leaves (.payloadCaptured n rest) s (fun t => demodState t n = 1 ∧ demodFrame t n = none ∧ t.fld (CH.CH_CNT1 n) 31 16 = min (s.fld (CH.CH_CNT1 n) 31 16 + 1) 0xFFFF ∧
        (∃ f ∈ t.fec.frames, f.id = s.fec.next ∧ f.m = m) ∧ t.mem = s.mem)) ∧
    (Reaches s who (CH.CH_CFG n) true → demodOn s n = false →
      (demodMayStart s n (vSet v 12) = false → Leaves (.demodEnable who n v) s (fun t => demodOn t n = false ∧ t.bit (CH.CH_FLAGS n) 4 = true ∧ OnlyRegs s t [CH.CH_CFG n, CH.CH_FLAGS n])) ∧
      (demodMayStart s n (vSet v 12) = true → s.bit RXC.STATUS 0 = true → s.bit RXC.STATUS 1 = false → demodState s n = 0 →
        Leaves (.demodEnable who n v) s (fun t => demodOn t n = true ∧ demodState t n = 1 ∧ demodBin t n = bitsOf v 6 0 ∧ t.mem = s.mem))) ∧
    (Reaches s who (CH.CH_CFG n) true → demodOn s n = true → demodState s n = 1 → s.bit RXC.STATUS 1 = false → bitsOf v 6 0 = demodBin s n → bitsOf v 10 8 = demodMode s n →
      Leaves (.demodDisable who n v) s (fun t => demodOn t n = false ∧ demodState t n = 0 ∧ t.mem = s.mem)) ∧
    (∀ (p : Int) (k : Nat), (s.rxc.agc = .hold → exec (.agcMeasurement p k []) s = .next s) ∧
      (s.rxc.agc = .track → orIfZero 1 (s.fld RXC.AGCCFG 19 16) ≤ k →
        Leaves (.agcMeasurement p k []) s (fun t => t.fld RXC.AGCSTAT 4 0 = s.fld RXC.AGCSTAT 4 0 - 12 ∧ OnlyRegs s t [RXC.AGCSTAT])) ∧
      (s.rxc.agc = .frozen → k < orIfZero 1 (s.fld RXC.AGCCFG 19 16) → exec (.agcMeasurement p k []) s = .next s)) ∧
    (Reaches s who RXC.CTRL true → v.getLsbD 0 = s.bit RXC.CTRL 0 →
      let u := s.wr RXC.CTRL (vSet v 2 &&& 0xB)
      let w := (u.setBit RXC.STATUS 6 false).upRxc (fun r => { r with want := some (staged u) })
      (applyInRange u = false → exec (.rxcApply who v) s = .next (u.setBit RXC.STATUS 6 true)) ∧
      (applyInRange u = true → s.bit RXC.STATUS 4 = false → busyCnt s ≠ 0 → v.getLsbD 3 = false → exec (.rxcApply who v) s = .next (w.setBit RXC.STATUS 2 true)) ∧
      (applyInRange u = true → s.bit RXC.STATUS 4 = false → busyCnt s = 0 → exec (.rxcApply who v) s = .next (applyNow w))) ∧
    (s.bit RXC.STATUS 2 = true → busyCnt s = 0 → s.bit RXC.STATUS 4 = false → exec .rxcApplyPendingDone s = .next (applyNow s)) ∧
    (s.bit RXC.STATUS 3 = true → exec .rxcSwitchDone s = .next (receiverReady (rxcEvent (s.setBit RXC.STATUS 3 false) 2))) ∧
    (Reaches s who RXC.CTRL true → s.bit RXC.CTRL 0 = false → s.bit RXC.STATUS 4 = false → v.getLsbD 2 = false →
      receiverWanted (s.wr RXC.CTRL (vSet v 0 &&& 0xB)) = true → exec (.receiverEnable who v) s = .next (receiverStart (s.wr RXC.CTRL (vSet v 0 &&& 0xB)))) ∧
    (Reaches s who RXC.CTRL true → s.bit RXC.CTRL 0 = true → v.getLsbD 2 = false → receiverWanted (s.wr RXC.CTRL (vClr v 0 &&& 0xB)) = false →
      exec (.receiverDisable who v) s = .next (receiverStop (s.wr RXC.CTRL (vClr v 0 &&& 0xB)))) ∧
    (s.bit RXC.STATUS 4 = true → s.txc.job = none →
      let u := receiverReady (s.setBit RXC.STATUS 4 false)
      (s.rxc.applyHeld = false → exec .receiverReturn s = .next u) ∧
      (s.rxc.applyHeld = true → exec .receiverReturn s = .next (applyOutcome (u.upRxc (fun r => { r with applyHeld := false }))))) ∧
    (∀ ts : BitVec 64, Reaches s who (CH.CH_TSLO n) false → s.rxc.stamps.find? (fun e => e.1 == n.val) = some (n.val, ts) →
      Leaves (.tsloRead who n) s (fun t => t.rdata = s.rd (CH.CH_TSLO n) ∧ t.rd (CH.CH_TSHI n) = BitVec.ofNat 32 (ts.toNat / 2 ^ 32) ∧ OnlyRegs s t [CH.CH_TSHI n]))

/-- 09 R230, R231, R234, 10 R244 to R250, R252, R257 to R259, R265: the decoder and the transmitter.  The oldest waiting codeword is taken, one that fails under every hypothesis fails its frame, an alternative hypothesis runs
when nothing waits, a SUN-FSK frame with a correct FCS goes to LNK; the candidate of highest precedence commits, defers, runs its table and ends LATE, LOCK_TIMEOUT, LOCK_LOST or ABORTED by its rules; a lock, a calibration of the
VCO, a trial of the tuner and the pending values of CAL act as told; outside a sequence the front-end pins show FEMIDLE behind FEMINV, and without RADIO there is no bias. -/
def Obligations.DecoderAndTransmitterFollowTheirSchedules : Prop :=
  ∀ (who : Nat) (v : Word) (s : State),
    (∀ (c : Cw) (l : List Cw), s.fec.waiting = c :: l → s.fec.cur = none →
      Leaves (.codewordDecodeStart []) s (fun t => t.fec.cur = some (if c.hyp = 0 then { c with cfg := s.rd FEC.DECCFG } else c) ∧ t.fec.waiting = l ∧ t.bit FEC.STATUS 8 = true ∧
        OnlyRegs s t [FEC.STATUS])) ∧
    (∀ (c : Cw) (f : FecFrame) (us : Nat), s.fec.cur = some c → s.fec.frames.find? (fun x => x.id == c.frame) = some f →
      (f.failed = true → Leaves (.codewordDecodeDone us) s (fun t => t.fec = { s.fec with cur := none } ∧ OnlyRegs s t [FEC.ITERSUM, FEC.STATUS])) ∧
      (f.failed = false → (decodeOf f c).ok = true →
        Leaves (.codewordDecodeDone us) s (fun t => t.fec.cur = none ∧ t.fld FEC.CWCNT 15 0 = min (s.fld FEC.CWCNT 15 0 + 1) 0xFFFF ∧ t.mem = s.mem)) ∧
      (f.failed = false → (decodeOf f c).ok = false → c.hyp + 1 < cfgHypo c.cfg →
        Leaves (.codewordDecodeDone us) s (fun t => t.fec.alts = (if c.hyp = 0 then s.fec.alts ++ [{ c with hyp := c.hyp + 1 }] else { c with hyp := c.hyp + 1 } :: s.fec.alts) ∧
          t.fec.frames = s.fec.frames ∧ OnlyRegs s t [FEC.ITERSUM, FEC.STATUS])) ∧
      (f.failed = false → (decodeOf f c).ok = false → cfgHypo c.cfg ≤ c.hyp + 1 →
        Leaves (.codewordDecodeDone us) s (fun t => t.fec.cur = none ∧ t.fec.waiting = s.fec.waiting.filter (fun x => x.frame != f.id) ∧ t.fec.alts = s.fec.alts.filter (fun x => x.frame != f.id) ∧
          t.fec.frames = (if s.rxc.frames.any (fun m => m.demod == f.m.demod && m.ts == f.m.ts) then s.fec.frames.map (fun x => if x.id = f.id then { x with failed := true } else x)
            else s.fec.frames.filter (fun x => x.id != f.id)) ∧
          t.fld FEC.CWCNT 31 16 = min (s.fld FEC.CWCNT 31 16 + 1) 0xFFFF ∧ t.lnk = s.lnk ∧ t.mem = s.mem))) ∧
    (∀ (c : Cw) (l : List Cw), s.fec.waiting = [] → s.fec.cur = none → s.fec.alts = c :: l → Leaves .altHypothesisStart s (fun t => t.fec.cur = some c ∧ t.fec.alts = l ∧ OnlyRegs s t [FEC.STATUS])) ∧
    (∀ (soft : List Int) (f : FecFrame), s.fec.frames.find? (fun x => x.m.sun) = some f →
      let m := sunMpdu (testB f.m.code 2) (testB f.m.code 1) f.m.len (sunDecode f.m.coded (testB s.rxc.sunCfg.toNat 2) soft)
      (∀ mpdu, m = some mpdu → Leaves (.viterbiDecode soft) s (fun t => (t.lnk.rx.map (fun x => x.mpdu)) = s.lnk.rx.map (fun x => x.mpdu) ++ [mpdu] ∧
        t.fld FEC.VITCNT 15 0 = min (s.fld FEC.VITCNT 15 0 + 1) 0xFFFF ∧ OnlyRegs s t [FEC.VITCNT])) ∧
      (m = none → Leaves (.viterbiDecode soft) s (fun t => t.lnk = s.lnk ∧ t.fld FEC.VITCNT 31 16 = min (s.fld FEC.VITCNT 31 16 + 1) 0xFFFF ∧ OnlyRegs s t [FEC.VITCNT]))) ∧
    (s.bit TXC.CTRL 0 = false → exec .txCommit s = .next s) ∧
    (∀ (js : List TxJob) (s1 : State) (j : TxJob), s.bit TXC.CTRL 0 = true → s.txc.job = none → txCandidates s = (js, s1) → txChoose s1 [] js = some j → exec .txCommit s = .next (Machine.txCommit s1 j)) ∧
    (∀ j : TxJob, s.txc.job = some j →
      (j.begun = false → txWaits s j = false → exec .txDeferEnd s = .next (txStepZero s j)) ∧
      (j.begun = false → lastCommit s j ≤ s.nt.toNat → ¬ (j.cls = 2 ∧ carrierBusy s j = true) → exec .txDeferDeadline s = .next (txStepZero s j)) ∧
      (j.begun = false → lastCommit s j ≤ s.nt.toNat → j.cls = 2 → carrierBusy s j = true →
        exec .txDeferDeadline s = .next (txDone (setTxState (s.upTxc (fun t => { t with job := none })) 0) j 5)) ∧
      (∀ p : BitVec 12, j.begun = true → (j.data = false ∨ j.after = true) → (j.step ≠ 1 ∨ s.bit RFE.STATUS 0 = true ∨ j.result ≠ none) →
        (stepDue j ≤ s.uptime → exec (.txSequenceStep p) s = .next (txStep s j j.step (stepDue j) p.toNat)) ∧
        (s.uptime < stepDue j → exec (.txSequenceStep p) s = .next s)) ∧
      (∀ x : TxMeas, j.data = true →
        (j.after = false → j.inst + jobTicks j ≤ s.uptime →
          exec (.txLastSymbol x) s = .next (txMeasured (s.upJob (fun j => { j with after := true, result := some 2, inst := j.inst + jobTicks j })) j x (jobTicks j))) ∧
        (j.after = false → s.uptime < j.inst + jobTicks j → exec (.txLastSymbol x) s = .next s) ∧
        (j.after = true → j.measured = false → exec (.txLastSymbol x) s = .next (txMeasured s j x j.dur))) ∧
      (projectedLate s j = true → exec .txLate s = .next (txGiveUp s j 4)) ∧
      (j.begun = true → s.bit RFE.STATUS 0 = false → j.step ≤ 1 → j.inst + lockTimeout s ≤ s.uptime → exec .synthLockTimeout s = .next (txGiveUp s j (if projectedLate s j then 4 else 3))) ∧
      (j.begun = true → j.result = none → s.bit RFE.STATUS 0 = true → exec .synthLockLost s = .next (txCutShort (rfeEvent (s.setBit RFE.STATUS 0 false) 1) j 10)) ∧
      (∀ g : BitVec 8, trialDue s j = true → s.txc.trialFrom = none → s.txc.trial = 0 → tuneBank (s.rd RFE.TUNE) 0 < 63 →
        Leaves (.tunerTrialStep g) s (fun t => tuneBank (t.rd RFE.TUNE) 0 = tuneBank (s.rd RFE.TUNE) 0 + 1 ∧ t.txc.trialFrom = some (s.rd RFE.TUNE) ∧ t.txc.trial = 1 ∧ t.fld RFE.TUNESTAT 7 0 = g.toNat ∧
          (g.toNat ≤ s.fld RFE.TUNECFG 7 0 → OnlyRegs s t [RFE.TUNE, RFE.TUNESTAT]))) ∧
      (Reaches s who TXC.CTRL true → j.data = true → j.begun = true → j.result = none → exec (.txAbort who v) s = .next (txCutShort (s.wr TXC.CTRL (vSet v 1 &&& 1)) j 9)) ∧
      (Reaches s who TXC.CTRL true → j.data = false → j.begun = true → exec (.txDisable who v) s = .next (txGiveUp (s.wr TXC.CTRL (vClr v 0 &&& 1)) j 9))) ∧
    (∀ j : TxJob, s.bit RFE.STATUS 1 = false → s.txc.job = some j → s.bit CAL.CTRL 9 = false → Leaves (.synthLock false) s (fun t => t.bit RFE.STATUS 0 = true ∧
      (j.begun = true → j.step ≤ 1 → t.txc.job = some { j with lockAt := s.uptime }) ∧ OnlyRegs s t [RFE.STATUS])) ∧
    (s.bit RFE.STATUS 1 = true → Leaves .vcoCalibrationDone s (fun t => t.bit RFE.STATUS 2 = false ∧ t.cal.band = s.cal.calAt ∧
      t.bit RFE.STATUS 1 = (decide (s.cal.calAt + 10000000 < s.fld RFE.LOFREQ 29 0) || decide (s.fld RFE.LOFREQ 29 0 + 10000000 < s.cal.calAt)) ∧ OnlyRegs s t [RFE.STATUS])) ∧
    (Reaches s who RFE.CTRL true → Leaves (.rfeVcocal who v) s (fun t => t.bit RFE.STATUS 2 = true ∧ t.rd RFE.CTRL = vSet v 2 &&& 3 ∧ OnlyRegs s t [RFE.CTRL, RFE.STATUS])) ∧
    (∀ (w : Word) (g : BitVec 8), s.txc.trialFrom = some w →
      (s.txc.gamma < g.toNat + orIfZero 1 (s.fld RFE.TUNECFG 15 8) → Leaves (.tunerTrialJudge g) s (fun t => t.rd RFE.TUNE = w ∧ t.txc.trialFrom = none ∧
        (s.txc.job = none ∨ g.toNat ≤ s.fld RFE.TUNECFG 7 0 → OnlyRegs s t [RFE.TUNE, RFE.TUNESTAT]))) ∧
      (g.toNat + orIfZero 1 (s.fld RFE.TUNECFG 15 8) ≤ s.txc.gamma → s.txc.tuneWait = none →
        Leaves (.tunerTrialJudge g) s (fun t => t.fld RFE.TUNESTAT 31 16 = min (s.fld RFE.TUNESTAT 31 16 + 1) 0xFFFF ∧ t.txc.trialFrom = none ∧
          (s.txc.job = none ∨ g.toNat ≤ s.fld RFE.TUNECFG 7 0 → OnlyRegs s t [RFE.TUNESTAT])))) ∧
    (∀ w : Word, busyCnt s = 0 → s.cal.dc = some w → s.cal.iq = none → Leaves .calPendingApply s (fun t => t.rd CAL.RXDC = w ∧ t.bit CAL.STATUS 0 = true ∧ t.cal.dc = none ∧ OnlyRegs s t [CAL.RXDC, CAL.STATUS])) ∧
    (∀ (t0 : BitVec 16) (p : BitVec 24), s.bit CLK.STATUS 1 = true → s.bit CAL.CTRL 10 = true → Leaves (.rtcTrimLearn t0 p) s (fun t =>
      t.fld (RTC.TTAB (trimIndex t0.toInt)) 23 0 = unsint 24 (trimEntry s p.toInt) ∧
      t.bit (RTC.TTAB (trimIndex t0.toInt)) 31 = true ∧ t.bit CAL.STATUS 10 = true ∧ OnlyRegs s t [CAL.TEMP, CAL.STATUS, RTC.TTAB (trimIndex t0.toInt)])) ∧
    (Reaches s who RFE.TUNESTAT false → Leaves (.tunestatRead who) s (fun t => t.rdata = s.rd RFE.TUNESTAT ∧ t.fld RFE.TUNESTAT 15 8 = 0 ∧ OnlyRegs s t [RFE.TUNESTAT])) ∧
    (∀ pin : Nat, pin < 3 → s.txc.fem = none → femLevel s pin = (s.bit TXC.FEMIDLE pin != s.bit TXC.FEMINV pin)) ∧
    (s.dom Dom.radio = .off → femBias s = 0)

/-- 11 R275, R277, R282, R283, R284, R285, R289, R293: the link.  A frame is discarded while LNK is disabled, when no buffer is free and when its fields do not read, and goes on to its window and seen cache otherwise; a failed MIC drops
its frame; a relay at its start is offered, or dropped for want of credit; FLOOR expires; enabling after reset sets FLOOR to the present time; each of EN, ACKEN, RELAYEN and EXTEN cleared alone drops what it carries; EXTEN set starts clearing
the extension, which ends ready, or lost where an access of it ends in an error; the pool is not moved while a buffer of it is in use. -/
def Obligations.LinkTakesFramesAndDropsWhatItMust : Prop :=
  ∀ (who : Nat) (v : Word) (s : State),
    (∀ (x : RxFrame) (l : List RxFrame), s.lnk.rx = x :: l →
      let u := xtalSample (s.upLnk (fun k => { k with rx := l })) x.m (match parseFrame x.mpdu with | some f => if f.sam = 0 then noSource else f.src | none => noSource)
      let lost : Prop := Leaves .lnkFrameReceive s (fun t => t = u.bump LNK.CNTRX 31 16 1 ∧ t.lnk.rx = l ∧ t.fld LNK.CNTRX 31 16 = min (s.fld LNK.CNTRX 31 16 + 1) 0xFFFF ∧
        (s.bit CAL.CTRL 2 = false → OnlyRegs s t [LNK.CNTRX]))
      (s.bit LNK.CTRL 0 = false → lost) ∧
      (s.bit LNK.CTRL 0 = true → freeBuf u = none → exec .lnkFrameReceive s = .next (dropNoBuf u)) ∧
      (∀ b, s.bit LNK.CTRL 0 = true → freeBuf u = some b → x.mpdu.length ≤ 2 ^ bufLog u → parseFrame x.mpdu = none → lost) ∧
      (∀ (b : Nat) (f : Machine.Frm), s.bit LNK.CTRL 0 = true → freeBuf u = some b → x.mpdu.length ≤ 2 ^ bufLog u → parseFrame x.mpdu = some f →
        (frameValid f = false → lost) ∧
        (frameValid f = true → f.sec = true → f.type = 1 → f.nid = s.fld LNK.NID 15 0 → exec .lnkFrameReceive s = .next (rxWindow u x f b)))) ∧
    (s.bit AES.CTRL 0 = false → exec .micVerifyDone s = .next s) ∧
    (∀ (w : MicWait) (l : List MicWait) (f : Machine.Frm) (b : Nat), s.bit AES.CTRL 0 = true → s.lnk.mic = w :: l → parseFrame w.x.mpdu = some f → w.buf = some b → f.type ≠ 3 →
      let r := micOpen (s.upLnk (fun k => { k with mic := l })) w.x.mpdu f
      let u := jobEvents (jobTally r.2.2 r.1) r.1
      (r.1 = 2 → exec .micVerifyDone s = .next (rxAccept u w.x r.2.1 f b)) ∧
      (r.1 = 3 → exec .micVerifyDone s = .next (lnkStat (lnkEvent ((engineWrite u lnkInit (bufAt u b) r.2.1 true).2.bump LNK.CNTSEC 15 0 1) 5))) ∧
      (r.1 ≠ 2 → r.1 ≠ 3 → exec .micVerifyDone s = .next (lnkStat (lnkEvent (u.bump LNK.CNTSEC 15 0 1) 5)))) ∧
    (∀ (k : Nat) (r : Relay), s.lnk.relays[k]? = some r → r.offered = false →
      (s.nt.toNat < r.start.toNat → exec (.relayStart k) s = .next s) ∧
      (r.start.toNat ≤ s.nt.toNat → (s.fld LNK.RELAYCFG 23 20 = 0 ∨ s.lnk.spent + 16 * r.air ≤ s.fld LNK.RELAYCFG 23 20 * 4096000000) →
        Leaves (.relayStart k) s (fun t => t.lnk.relays = s.lnk.relays.map (fun x => if x = r then { r with offered := true } else x) ∧ t.regs = s.regs ∧ t.mem = s.mem)) ∧
      (r.start.toNat ≤ s.nt.toNat → s.fld LNK.RELAYCFG 23 20 ≠ 0 → s.fld LNK.RELAYCFG 23 20 * 4096000000 < s.lnk.spent + 16 * r.air → exec (.relayStart k) s = .next (relayGone (s.bump LNK.CNTRLYD 31 16 1) r))) ∧
    (s.bit LNK.STATUS 2 = true → fcntExpired s (s.rd LNK.FLOOR) = true → Leaves .floorExpire s (fun t => t.bit LNK.STATUS 2 = false ∧ OnlyRegs s t [LNK.STATUS])) ∧
    (s.bit LNK.STATUS 1 = true →
      let base := s.fld LNK.SCEXT 31 12 * 4096
      let r := engineRead s lnkInit base 524288 true
      let w := engineWrite r.2 lnkInit base (clearV (r.1.getD []) 0) true
      exec .extClearDone s = .next (if r.1.isNone = true then extLost r.2 true else if w.1 = true then extLost w.2 true
        else lnkEvent (((w.2.setBit LNK.STATUS 1 false).setBit LNK.STATUS 0 true).wr LNK.SCEXTSTAT 0) 6)) ∧
    (Reaches s who LNK.CTRL true → (∀ i, i < 5 → v.getLsbD i = s.bit LNK.CTRL i) →
      (s.bit LNK.CTRL 0 = false → s.lnk.fresh = true →
        exec (.lnkEnable who v) s = .next (lnkStat ((floorNow (s.wr LNK.CTRL (vSet v 0 &&& 0x1F))).upLnk (fun l => { l with fresh := false })))) ∧
      (s.bit LNK.CTRL 0 = true → exec (.lnkDisable who v) s = .next (lnkStat (dropRelays (dropAcks (s.wr LNK.CTRL (vClr v 0 &&& 0x1F)))))) ∧
      (s.bit LNK.CTRL 1 = true → exec (.ackenDisable who v) s = .next (lnkStat (dropAcks (s.wr LNK.CTRL (vClr v 1 &&& 0x1F))))) ∧
      (s.bit LNK.CTRL 2 = true → exec (.relayenDisable who v) s = .next (lnkStat (dropRelays (s.wr LNK.CTRL (vClr v 2 &&& 0x1F))))) ∧
      (s.bit LNK.CTRL 3 = false → exec (.extenEnable who v) s = .next (lnkStat ((s.wr LNK.CTRL (vSet v 3 &&& 0x1F)).setBit LNK.STATUS 1 true))) ∧
      (s.bit LNK.CTRL 3 = true → exec (.extenDisable who v) s = .next (lnkStat (extLost (s.wr LNK.CTRL (vClr v 3 &&& 0x1F)) false)))) ∧
    (∀ base : Bool, Reaches s who (if base then LNK.POOLBASE else LNK.POOLCFG) true →
      ((List.range (s.fld LNK.POOLCFG 9 0)).any (bufBusy s) = true → Leaves (.poolConfigWrite who base v) s (fun t => t.bit LNK.STATUS 3 = true ∧ OnlyRegs s t [LNK.STATUS])) ∧
      ((List.range (s.fld LNK.POOLCFG 9 0)).any (bufBusy s) = false → Leaves (.poolConfigWrite who base v) s (fun t => t.bit LNK.STATUS 3 = false ∧ t.lnk.bufs = [] ∧
        t.rd (if base then LNK.POOLBASE else LNK.POOLCFG) = v &&& (if base then 0xFFFFFF80 else 0xF03FF) ∧ OnlyRegs s t [LNK.STATUS, LNK.POOLSTAT, LNK.POOLBASE, LNK.POOLCFG])))

/-- 12 R297 to R300, R313: network time.  At an XO32 edge it takes the source HFXO gives it without a jump; a small adjustment is slewed and replaces a slew in progress, a large one is a step, a backward one only where
BACKSTEP permits it; a slew that is used up ends SLEWING; the hold after a backward step ends when the time is again at the highest value it held; a write of NTSETHI sets the time at the next
increment; a read of NTLO latches NTHI and NTSEC; ROOT, TRACKEN and a new parent move the tracker to their states. -/
def Obligations.NetworkTimeFollowsItsAdjustments : Prop :=
  ∀ (who : Nat) (v : Word) (s : State),
    Leaves .ntSourceChange s (fun t => t.bit LNK.NTSTAT 7 = (!s.bit CLK.STATUS 1) ∧ t.nt = s.nt ∧ OnlyRegs s t [LNK.NTSTAT]) ∧
    (s.bit LNK.NTSTAT 4 = true → s.ntime.slew = 0 → Leaves .slewDone s (fun t => t.nt = s.nt ∧ t.bit LNK.NTSTAT 4 = false ∧ t.ntime = s.ntime ∧ OnlyRegs s t [LNK.NTSTAT])) ∧
    (s.bit LNK.NTSTAT 5 = true → s.ntime.top.toNat ≤ s.nt.toNat → Leaves .backholdEnd s (fun t => t.bit LNK.NTSTAT 5 = false ∧ t.nt = s.nt ∧ OnlyRegs s t [LNK.NTSTAT])) ∧
    (Reaches s who LNK.NTADJ true →
      (v.toInt ≤ 32000 → (-32000 ≤ v.toInt ∨ s.bit LNK.NTCFG 0 = false) →
        Leaves (.ntAdjust who v) s (fun t => t.nt = s.nt ∧ t.ntime.slew = v.toInt ∧ t.bit LNK.NTSTAT 4 = (v.toInt != 0) ∧ OnlyRegs s t [LNK.NTSTAT])) ∧
      (32000 < v.toInt → Leaves (.ntAdjust who v) s (fun t => t.nt = s.nt + BitVec.ofInt 64 v.toInt ∧ t.bit LNK.NTSTAT 4 = false ∧ t.bit LNK.TEVT 2 = true ∧
        (s.nt.toNat < t.nt.toNat → t.bit LNK.NTSTAT 5 = (s.bit LNK.NTSTAT 5 && decide (t.nt.toNat < s.ntime.top.toNat))))) ∧
      (v.toInt < -32000 → s.bit LNK.NTCFG 0 = true → Leaves (.ntAdjust who v) s (fun t => t.nt = s.nt + BitVec.ofInt 64 v.toInt ∧ t.bit LNK.NTSTAT 4 = false ∧ t.bit LNK.TEVT 2 = true ∧
        (t.nt.toNat < s.nt.toNat → t.bit LNK.NTSTAT 5 = true)))) ∧
    (Reaches s who LNK.NTSETHI true → Leaves (.ntSet who v) s (fun t => t.ntime.set = some (BitVec.ofNat 64 (v.toNat * 2 ^ 32 + (s.rd LNK.NTSETLO).toNat)) ∧ t.nt = s.nt ∧ OnlyRegs s t [LNK.NTSETHI])) ∧
    (Reaches s who LNK.NTLO false → Leaves (.ntRead who) s (fun t => t.rdata = BitVec.ofNat 32 s.nt.toNat ∧ t.rd LNK.NTHI = BitVec.ofNat 32 (s.nt.toNat / 2 ^ 32) ∧
      t.rd LNK.NTSEC = BitVec.ofNat 32 (s.nt.toNat / 32000000) ∧ OnlyRegs s t [LNK.NTLO, LNK.NTHI, LNK.NTSEC])) ∧
    (Reaches s who LNK.BCNCFG true →
      (trkState s ≠ 6 → let u := (setTrk (s.wr LNK.BCNCFG (vSet v 1 &&& 0xFF0F)) 6).upTrk (fun t => { t with window := false })
        exec (.trackerRoot who v) s = .next (receiverRelease u) ∧ trkState u = 6 ∧ u.trk.window = false ∧ u.nt = s.nt ∧ OnlyRegs s u [LNK.BCNCFG, LNK.NTSTAT]) ∧
      (s.bit LNK.BCNCFG 0 = true → exec (.trackerDisable who v) s =
        .next (receiverRelease ((setTrk (s.wr LNK.BCNCFG (vClr (vClr v 0) 1 &&& 0xFF0F)) 7).upTrk (fun t => { t with window := false })))) ∧
      (trkState s = 6 ∨ trkState s = 7 → Leaves (.trackerEnable who v) s (fun t => trkState t = 0 ∧ t.rd LNK.NTAGE = 0xFFFFFFFF ∧ t.nt = s.nt ∧ OnlyRegs s t [LNK.BCNCFG, LNK.NTSTAT, LNK.NTAGE]))) ∧
    (∀ hi : Bool, Reaches s who (if hi then LNK.PARENT1 else LNK.PARENT0) true →
      (trkState s = 0 ∨ 4 ≤ trkState s → Leaves (.parentWrite who hi v) s (fun t => t.rd (if hi then LNK.PARENT1 else LNK.PARENT0) = v ∧ OnlyRegs s t [LNK.PARENT0, LNK.PARENT1])) ∧
      (trkState s = 1 ∨ trkState s = 2 ∨ trkState s = 3 →
        exec (.parentWrite who hi v) s = .next (receiverForce ((setTrk (s.wr (if hi then LNK.PARENT1 else LNK.PARENT0) v) 4).upTrk (fun t => { t with since := s.nt, search := 0, window := false })))))

/-- 12 R309, R310, R312 to R316, R319: the tracker and the listen schedule.  The window of an expected beacon opens with the receiver on, and closes as a miss without an applied beacon: SYNCED, MISS1, MISS2 and then LOST in
turn, the expected instant one period on; LOST plans the searches, whose windows open and end; the own listen window opens, stays open while the channel is active up to its limit, and closes; an announced window opens and
closes; a staged schedule takes effect at a cycle boundary. -/
def Obligations.TrackerAndScheduleKeepTheirWindows : Prop :=
  ∀ s : State,
    (trkState s = 1 ∨ trkState s = 2 ∨ trkState s = 3 →
      (beaconStart s ≤ s.nt.toNat + beaconGuard s →
        exec .beaconWindowOpen s = .next (receiverForce ((beaconPlan s).upTrk (fun t => { t with window := true, applied := false, next := beaconEnd s })))) ∧
      (s.nt.toNat + beaconGuard s < beaconStart s → exec .beaconWindowOpen s = .next s) ∧
      (s.nt.toNat < s.trk.next.toNat → exec .beaconWindowClose s = .next s) ∧
      (s.trk.window = true → busyCnt s = 0 → s.trk.next.toNat ≤ s.nt.toNat →
        let u := s.upTrk (fun t => { t with window := false, applied := false })
        (s.trk.applied = true → exec .beaconWindowClose s = .next (receiverRelease u)) ∧
        (s.trk.applied = false →
          let m := (u.bump LNK.CNTBCN 31 16 1).upTrk (fun t => { t with x := t.x + BitVec.ofNat 64 (beaconPeriod s) })
          (trkState s = 1 → exec .beaconWindowClose s = .next (receiverRelease (beaconPlan (setTrk m 2)))) ∧
          (trkState s = 2 → exec .beaconWindowClose s = .next (receiverRelease (beaconPlan (setTrk m 3)))) ∧
          (trkState s = 3 → exec .beaconWindowClose s = .next (receiverRelease (trackerLost m true)))))) ∧
    (trkState s = 4 → s.trk.since.toNat + 2 * beaconPeriod s ≤ s.nt.toNat → exec .searchStart s = .next (receiverRelease (planSearch (setTrk s 5) 1))) ∧
    (s.nt.toNat < s.trk.since.toNat + 2 * beaconPeriod s → exec .searchStart s = .next s) ∧
    (trkState s = 5 →
      (s.trk.window = false → s.trk.next.toNat ≤ s.nt.toNat → exec .searchWindowOpen s = .next (receiverForce (s.upTrk (fun t => { t with window := true, since := s.nt })))) ∧
      (s.trk.window = true → s.trk.since.toNat + beaconPeriod s + 3200000 ≤ s.nt.toNat → exec .searchWindowEnd s = .next (receiverRelease (planSearch s (s.trk.search + 1))))) ∧
    (∀ i, (planSearch s i).trk.next = s.nt + BitVec.ofNat 64 (min (2 ^ i * beaconPeriod s) (1800 * 32000000)) ∧ (planSearch s i).trk.search = i ∧ (planSearch s i).trk.window = false ∧
      OnlyRegs s (planSearch s i) [LNK.BCNNEXT]) ∧
    (testB s.sched.cfg.toNat 0 = true → s.sched.own = false →
      (thisListen s ≤ s.nt.toNat → exec .listenWindowOpen s = .next (schNext (receiverForce
        ((s.upSched (fun c => { c with own := true, ext := false, at_ := BitVec.ofNat 64 (thisListen s), win := c.cfg })).bump LNK.SCHCNT 15 0 1)))) ∧
      (s.nt.toNat < thisListen s → exec .listenWindowOpen s = .next s)) ∧
    (s.sched.own = true →
      let fin := s.sched.at_.toNat + 8000 * max 4 (bitsOf s.sched.win 23 16)
      let limit := fin + 128000 * bitsOf s.sched.win 31 24
      (s.nt.toNat < fin → exec .listenWindowClose s = .next s) ∧
      (fin ≤ s.nt.toNat → channelActive s = true → s.nt.toNat < limit → Leaves .listenWindowClose s (fun t => t.sched = { s.sched with ext := true } ∧
        t.fld LNK.SCHCNT 31 16 = (if s.sched.ext then s.fld LNK.SCHCNT 31 16 else min (s.fld LNK.SCHCNT 31 16 + 1) 0xFFFF) ∧ OnlyRegs s t [LNK.SCHCNT])) ∧
      (limit ≤ s.nt.toNat → busyCnt s ≠ 0 → exec .listenWindowClose s = .next s) ∧
      (fin ≤ s.nt.toNat → channelActive s = false ∨ limit ≤ s.nt.toNat → busyCnt s = 0 →
        exec .listenWindowClose s = .next (receiverRelease (s.upSched (fun c => { c with own := false, ext := false }))))) ∧
    (∀ x, s.sched.ann = some x →
      (x.toNat ≤ s.nt.toNat → exec .announcedWindowOpen s = .next (receiverForce (s.upSched (fun c => { c with annOpen := true, annAt := x, annWin := s.sched.cfg, ann := none })))) ∧
      (s.nt.toNat < x.toNat → exec .announcedWindowOpen s = .next s)) ∧
    (s.sched.annOpen = true → s.sched.annAt.toNat + 32000 + winTicks s.sched.annWin ≤ s.nt.toNat →
      exec .announcedWindowClose s = .next (receiverRelease (s.upSched (fun c => { c with annOpen := false })))) ∧
    Leaves .scheduleCycleBoundary s (fun t => t.sched = { s.sched with cfg := s.rd LNK.SCHCFG } ∧ OnlyRegs s t [LNK.SCHNEXT])

/-- 13 R320 to R325, R327, R328, R331, R335, R336, R338, R339, R341, R342: the sensor hub.  A trigger of an idle enabled sheet starts its run and that of a busy one is missed, whatever its source; a hub cycle serves the lowest
sheet that can issue: a step whose condition fails is skipped, one with a field out of range aborts as ILLEGAL_STEP, and every other does what its KIND says; a step with a resource ends with its value, NACK or BUS_ERR; a
WAIT ends; an overcurrent opens its switch; disabling a sheet or the hub, and the resets of filter engines and compare units, act as told. -/
def Obligations.HubRunsItsSheets : Prop :=
  ∀ (who : Nat) (v : Word) (s : State),
    (∀ n : Fin 32, s.fld (HUB.SHCFG n) 2 1 = 0 → s.fld (HUB.SHPER n) 21 0 ≠ 0 → s.rtc.sub % 32 = 0 →
      hubClock s % s.fld (HUB.SHPER n) 21 0 = s.fld (HUB.SHPHASE n) 21 0 % s.fld (HUB.SHPER n) 21 0 →
      s.bit HUB.CTRL 0 = true → s.bit (HUB.SHCFG n) 0 = true → s.hub.sheets[n].period ≠ some (xoPeriod s) →
      (sheetState s n = 0 → hubStopped s = false → exec (.hubRtcTrigger n) s = .next (hubStart s n)) ∧
      (sheetState s n ≠ 0 → exec (.hubRtcTrigger n) s = .next (hubMissed s n none))) ∧
    (∀ i : Fin 8, s.cueQ.contains (.cons (6 + i.val)) = true → exec (.hubCueTrigger i) s =
      .next ((List.finRange 32).foldl (fun (s : State) (n : Fin 32) => if s.fld (HUB.SHCFG n) 2 1 = 1 ∧ s.fld (HUB.SHCFG n) 6 4 = i.val then hubTrigger s n (some i.val) else s)
        { s with cueQ := s.cueQ.filter (fun t => t != .cons (6 + i.val)) })) ∧
    (∀ (p : Fin 48) (up : Bool), exec (.hubPinTrigger p up) s =
      .next ((List.finRange 32).foldl (fun (s : State) (n : Fin 32) => if s.fld (HUB.SHCFG n) 2 1 = 2 ∧ s.fld (HUB.SHCFG n) 13 8 = p.val ∧ edgeHit (orIfZero 1 (s.fld (HUB.SHCFG n) 15 14)) up = true
        then hubTrigger s n none else s) (setExt s p.val up))) ∧
    (Reaches s who HUB.SWTRIG true → exec (.hubSwtrig who v) s =
      .next ((List.finRange 32).foldl (fun (s : State) (n : Fin 32) => if testB v.toNat n.val then hubTrigger s n none else s) s)) ∧
    (∀ (n : Fin 32) (op : List Byte) (s1 : State), hubStopped s = false → (List.finRange 32).find? (sheetReady s) = some n →
      s.hub.sheets[n].steps < max 16 (s.fld HUB.MAXSTEPS 15 0) → hubFetch s n = (some op, s1) →
      let u := upSheet s1 n (fun x => { x with steps := x.steps + 1 })
      (stepRuns s n op = false → exec .hubStepSkip s = .next (hubAdvance u n)) ∧
      (stepRuns s n op = true → stepLegal s op = false → exec .hubIllegalStep s = .next (hubAbort (hubError u n 7) n)) ∧
      (stepRuns s n op = true → stepLegal s op = true →
        (stepKind op = 0 → exec .hubEnd s = .next (setSheet (upSheet u n (fun x => { x with op := [], on := 0 })) n 0)) ∧
        (stepKind op = 1 → exec .hubPower s = .next (stepPower u n op)) ∧
        (stepKind op = 2 → exec .hubWait s = .next (if waitCount op = 0 then hubAdvance u n else setSheet (upSheet u n (fun x => { x with op := op, due := waitClock u op + waitCount op })) n 3)) ∧
        (stepKind op = 3 → exec .hubTwb s = .next (stepTwb u n op)) ∧
        (stepKind op = 3 → u.bit HUB.BUSGRANT (stepByte op 2 % 8) = false → exec .hubTwb s = .next (hubFail u n op 3 false)) ∧
        (stepKind op = 4 → exec .hubCsp s = .next (stepCsp u n op)) ∧
        (stepKind op = 4 → u.bit HUB.BUSGRANT (8 + stepByte op 2 % 2) = true → u.bit (CSP.STATUS (stepByte op 2 % 2)) 2 = true → exec .hubCsp s = .next (hubFail u n op 2 false)) ∧
        (stepKind op = 5 → exec .hubAdc s = .next (hubRun (u.setBit ADC.STATUS 0 true) n op)) ∧
        (stepKind op = 6 → exec .hubDsm s = .next (hubRun (u.setBit DSM.STATUS (stepByte op 2 % 4) true) n op)) ∧
        (stepKind op = 7 → exec .hubPin s = .next (stepPin u n op)) ∧
        (stepKind op = 8 → exec .hubCapture s = .next (stepCapture u n op)) ∧
        (stepKind op = 9 → exec .hubFilter s = .next (stepFilter u n op)) ∧
        (stepKind op = 10 → exec .hubCompare s = .next (stepCompare u n op)) ∧
        (stepKind op = 11 → exec .hubStore s = .next (stepStore u n op)) ∧
        (stepKind op = 11 → qOn u (72 + stepByte op 2 % 16) = false → exec .hubStore s = .next (hubFail u n op 5 false)) ∧
        (stepKind op = 12 → exec .hubSignal s = .next (hubAdvance (emitProducer u .misca (stepByte op 2 % 8)) n)) ∧
        (stepKind op = 13 → stepByte op 3 % 2 = 0 → exec .hubBranch s = .next (hubGoTo u n (stepByte op 2))) ∧
        (stepKind op = 13 → exec .hubBranch s = .next (stepBranch u n op)))) ∧
    (∀ n : Fin 32, sheetState s n = 2 → s.hub.sheets[n].kill = false →
      let op := s.hub.sheets[n].op
      let t := upSheet (freeResource s op) n (fun c => { c with sample := some (sampleInstant s op) })
      exec (.hubResourceStepDone n .nack) s = .next (hubFail t n op 1 false) ∧
      exec (.hubResourceStepDone n .busErr) s = .next (hubFail t n op 2 false) ∧
      (∀ uv vref, stepKind op = 5 → exec (.hubResourceStepDone n (.volts uv vref)) s = .next (hubAdvance (setV t n (stepByte op 5 % 8) (adcValue s op uv vref)) n)) ∧
      (∀ nv vref, stepKind op = 6 → exec (.hubResourceStepDone n (.diffs nv vref)) s = .next (hubAdvance (setV t n (stepByte op 5 % 8) (dsmValue s op nv vref)) n)) ∧
      (∀ bs, stepKind op = 3 → stepByte op 4 / 16 % 8 ≠ 0 → exec (.hubResourceStepDone n (.bytes bs)) s = .next (hubAdvance (setV t n (stepByte op 5 % 8) (busValue op bs)) n))) ∧
    (∀ n : Fin 32, sheetState s n = 3 →
      (s.hub.sheets[n].due ≤ waitClock s s.hub.sheets[n].op → hubStopped (hubAdvance s n) = false → exec (.hubWaitEnd n) s = .next (hubAdvance s n)) ∧
      (waitClock s s.hub.sheets[n].op < s.hub.sheets[n].due → exec (.hubWaitEnd n) s = .next s)) ∧
    (∀ k : Fin 4, s.bit HUB.SPWR k.val = true → (∀ n : Fin 32, sheetState s n = 0) →
      Leaves (.spwrOvercurrent k) s (fun t => t.bit HUB.SPWR k.val = false ∧ t.bit HUB.SPWR (8 + k.val) = true ∧ t.bit HUB.EVT 3 = true ∧ t.mem = s.mem)) ∧
    (∀ n : Fin 32, Reaches s who (HUB.SHCFG n) true →
      let u := s.wr (HUB.SHCFG n) (vClr v 0 &&& 0x1FF77)
      (sheetState u n = 0 → exec (.sheetDisable who n v) s = .next u) ∧
      (sheetState u n = 2 → exec (.sheetDisable who n v) s = .next (upSheet u n (fun x => { x with kill := true }))) ∧
      (sheetState u n = 1 ∨ sheetState u n = 3 → exec (.sheetDisable who n v) s = .next (hubAbort (hubError u n 10) n))) ∧
    (Reaches s who HUB.CTRL true → exec (.hubDisable who v) s = .next ((List.finRange 32).foldl sheetKill (s.setBit HUB.CTRL 0 false))) ∧
    (∀ k : Fin 16, Reaches s who (HUB.FLTCFG k) true →
      Leaves (.filterReset who k v) s (fun t => t.hub.engines[k] = {} ∧ OnlyRegs s t [HUB.FLTCFG k]) ∧
      (v &&& 0x3F033F03 ≠ s.rd (HUB.FLTCFG k) → Leaves (.filterConfigWrite who k v) s (fun t => t.hub.engines[k] = {} ∧ t.rd (HUB.FLTCFG k) = v &&& 0x3F033F03 ∧ OnlyRegs s t [HUB.FLTCFG k])) ∧
      (v &&& 0x3F033F03 = s.rd (HUB.FLTCFG k) → v.getLsbD 31 = false → Leaves (.filterConfigWrite who k v) s (fun t => t.hub = s.hub ∧ OnlyRegs s t [HUB.FLTCFG k]))) ∧
    (∀ k : Fin 16, Reaches s who (HUB.CMPCFG k) true → Leaves (.compareReset who k v) s (fun t => t.hub.cmps[k] = {} ∧ t.rd (HUB.CMPSTAT k) = 0 ∧ OnlyRegs s t [HUB.CMPCFG k, HUB.CMPSTAT k]))

/-- 15 R362, R365 to R377, 21 R498, R502: the motion timers, and the pins they reach.  A count tick that the prescaler has given moves CNT by the mode of the timer and copies the preloaded values at a copy point; an output rises after its dead time; the
break pin and the break cue clear MOE; a taken trigger starts, restarts or stops the timer; a capture edge counts toward its prescaler and captures, a pulse is measured outside RUN; the writes of EN, CNT, PER, CCn and MODE,
of a pin's configuration and of OUTSET and OUTCLR act as told. -/
def Obligations.TimersCountAndCapture : Prop :=
  ∀ (who : Nat) (v : Word) (s : State) (x : Fin 8),
    (tmEn s x = false ∨ s.timers[x].owed = 0 → exec (.timerCountTick x) s = .next s) ∧
    (tmEn s x = true → s.timers[x].owed ≠ 0 →
      let u := tmCounters (upTimer s x (fun t => { t with owed := t.owed - 1 })) x
      let moved := fun c d => ((u.wr (TM.CNT x) (BitVec.ofNat 32 c)).setBit (TM.STATUS x) 0 d)
      (u.rd (TM.PERACT x) = 0 → exec (.timerCountTick x) s = .next (tmRefs (u.wr (TM.CNT x) 0) x false)) ∧
      (u.rd (TM.PERACT x) ≠ 0 → u.bit (TM.CTRL x) 1 = false →
        ((u.rd (TM.CNT x)).toNat + 1 < (u.rd (TM.PERACT x)).toNat → exec (.timerCountTick x) s = .next (tmRefs (moved ((u.rd (TM.CNT x)).toNat + 1) false) x true)) ∧
        ((u.rd (TM.PERACT x)).toNat ≤ (u.rd (TM.CNT x)).toNat + 1 → exec (.timerCountTick x) s = .next (tmRefs (tmCopy (moved 0 false) x) x true))) ∧
      (u.rd (TM.PERACT x) ≠ 0 → u.bit (TM.CTRL x) 1 = true → u.bit (TM.STATUS x) 0 = true → 0 < (u.rd (TM.CNT x)).toNat →
        exec (.timerCountTick x) s = .next (tmRefs (moved ((u.rd (TM.CNT x)).toNat - 1) true) x true))) ∧
    (∀ (y : Fin 2) (n : Fin 4), let z : Fin 8 := ⟨y.val, by omega⟩
      (s.timers[z].chans[n].dead = some 0 → exec (.deadTimeExpiry y n false) s = .next (upChan s z n (fun c => { c with out := true, dead := none }))) ∧
      (s.timers[z].chans[n].deadN = some 0 → exec (.deadTimeExpiry y n true) s = .next (upChan s z n (fun c => { c with outN := true, deadN := none })))) ∧
    (∀ y : Fin 2, let z : Fin 8 := ⟨y.val, by omega⟩
      (∀ p, pinOfFunc s (0x18 + 16 * y.val) = some p → exec (.timerBreakPin y) s = .next (setExt s p (s.bit (TM.CTRL y) 19)) ∧ exec (.timerBreakRelease y) s = .next (setExt s p (!s.bit (TM.CTRL y) 19))) ∧
      (s.cueQ.contains (.cons (31 + 2 * y.val)) = true →
        let u := { s with cueQ := s.cueQ.filter (fun t => t != .cons (31 + 2 * y.val)) }
        (s.bit (TM.CTRL z) 20 = true → exec (.timerBreakCue y) s = .next (tmBreak u z)) ∧ (s.bit (TM.CTRL z) 20 = false → exec (.timerBreakCue y) s = .next u)) ∧
      (tmBreak s z).bit (TM.CTRL z) 16 = false ∧ (tmBreak s z).bit (TM.EVT z) 5 = true) ∧
    (s.timers[x].trg = true →
      let u := upTimer s x (fun t => { t with trg := false })
      (s.fld (TM.CTRL x) 13 12 = 1 → tmEn u x = false → exec (.timerTrgStart x) s = .next (tmStart u x)) ∧
      (s.fld (TM.CTRL x) 13 12 = 2 → exec (.timerTrgRestart x) s = .next (tmRestart u x)) ∧
      (s.fld (TM.CTRL x) 13 12 = 3 → exec (.timerTrgStop x) s = .next (tmStop u x))) ∧
    (∀ (n : Fin 4) (up : Bool), n.val < tmC x → tmMode s x n = 5 →
      (s.phase = 1 → (if up then testB (orIfZero 1 (s.fld (TM.CHCFG x n) 9 8)) 0 else testB (orIfZero 1 (s.fld (TM.CHCFG x n) 9 8)) 1) = true →
        (s.timers[x].chans[n].edges + 1 < 2 ^ s.fld (TM.CHCFG x n) 17 16 →
          exec (.timerCaptureEdge x n up) s = .next (upChan s x n (fun c => { c with edges := s.timers[x].chans[n].edges + 1 }))) ∧
        (2 ^ s.fld (TM.CHCFG x n) 17 16 ≤ s.timers[x].chans[n].edges + 1 → exec (.timerCaptureEdge x n up) s = .next (tmCapture (upChan s x n (fun c => { c with edges := 0 })) x n))) ∧
      (s.phase ≠ 1 → up = !s.bit (TM.OUTCFG x) n.val → exec (.timerPulseEdge x n up) s = .next (upChan (s.wr (TM.CC x n) (s.rd (TM.CNT x))) x n (fun c => { c with width := some 0 }))) ∧
      (∀ w, s.phase ≠ 1 → up = s.bit (TM.OUTCFG x) n.val → s.timers[x].chans[n].width = some w → s.bit (TM.EVT x) n.val = false →
        exec (.timerPulseEdge x n up) s = .next (tmEvent (((upChan s x n (fun c => { c with width := none })).wr (TM.CAPF x n) (s.rd (TM.CNT x))).wr (TM.WIDTH x n) (BitVec.ofNat 32 w)) x n.val))) ∧
    (Reaches s who (TM.CTRL x) true → exec (.timerEnable who x v) s = .next (tmCtrlWrite s x (vSet v 0) (s.trusted who)) ∧ exec (.timerDisable who x v) s = .next (tmCtrlWrite s x (vClr v 0) (s.trusted who))) ∧
    (Reaches s who (TM.CNT x) true → exec (.timerCntWrite who x v) s = .next (tmRefs (s.plainWrite (TM.CNT x) v (s.trusted who)) x false)) ∧
    (Reaches s who (TM.PER x) true → exec (.timerImmediateWrite who x none v) s = .next (tmPerWrite s x v (s.trusted who))) ∧
    (∀ n : Fin 4, n.val < tmC x →
      (Reaches s who (TM.CC x n) true → (tmMode s x n = 5 → exec (.timerImmediateWrite who x (some n) v) s = .next s) ∧
        (tmMode s x n ≠ 5 → exec (.timerImmediateWrite who x (some n) v) s = .next (tmCcWrite s x n v (s.trusted who)))) ∧
      (Reaches s who (TM.CHCFG x n) true → exec (.timerModeChange who x n v) s = .next (tmChWrite s x n v (s.trusted who)))) ∧
    (∀ n : Fin 48, Reaches s who (PIN.CFG n) true → exec (.pinConfigWrite who n v) s = .next (tmBreakCheck (tmBreakCheck (s.plainWrite (PIN.CFG n) v (s.trusted who)) 0) 1)) ∧
    (∀ p : Fin 2, let m : Word := if p.val = 0 then 0xFFFFFFFF else 0xFFFF
      (Reaches s who (GPIO.OUTSET p) true → Leaves (.gpioOutset who p v) s (fun t => t.rd (GPIO.OUT p) = (s.rd (GPIO.OUT p) ||| v) &&& m ∧ OnlyRegs s t [GPIO.OUT p])) ∧
      (Reaches s who (GPIO.OUTCLR p) true → Leaves (.gpioOutclr who p v) s (fun t => t.rd (GPIO.OUT p) = s.rd (GPIO.OUT p) &&& ~~~ v &&& m ∧ OnlyRegs s t [GPIO.OUT p])))

/-- 16 R381 to R391: the two-wire buses and the clocked serial ports.  A command while ACTIVE or without EN and CTLEN sets CFGERR and is discarded, otherwise ACTIVE is set and the transfer waits for the bus; once its bytes have had their time on the bus (log 122) it ends
with DONE or NACK, is lost to arbitration, a misplaced condition or a timeout; a bus is recovered and freed; a target is addressed, moves bytes and stops; an attention write is sent; the FIFOs and the frames of a port move as
told; a target or slave that is addressed while PERIPH is off wakes it. -/
def Obligations.SerialPortsMoveTheirBytes : Prop :=
  ∀ (who : Nat) (v : Word) (s : State),
    (∀ k : Fin 5,
      (Reaches s who (TWB.CMD k) true →
        (s.bit (TWB.STATUS k) 1 = true ∨ s.bit (TWB.CTRL k) 0 = false ∨ s.bit (TWB.CTRL k) 1 = false →
          Leaves (.twbCmd who k v) s (fun t => t.bit (TWB.STATUS k) 6 = true ∧ t.twb = s.twb ∧ OnlyRegs s t [TWB.STATUS k])) ∧
        (s.bit (TWB.STATUS k) 1 = false → s.bit (TWB.CTRL k) 0 = true → s.bit (TWB.CTRL k) 1 = true → exec (.twbCmd who k v) s =
          .next (twbStart (upTwb (((s.setBit (TWB.STATUS k) 6 false).setBit (TWB.STATUS k) 1 true).setFld (TWB.STATUS k) 15 8 0) k (fun b => { b with cmd := some v, moved := 0, inbox := [], ended := false })) k))) ∧
      (∀ w acked rx, s.twb[k].cmd = some w → s.twb[k].onBus = true → s.twb[k].ended = false →
        let late := fun n => s.twb[k].since + twbTicks s k (twbBytes w acked n rx) ≤ s.uptime
        (late true → exec (.twbTransferDone k acked true rx) s = .next (twbStart (twbStop (twbEvent (twbDrop (s.setFld (TWB.STATUS k) 15 8 (min acked (cmdN w))) k) k 1) k) k)) ∧
        (late false → cmdRead w = true → exec (.twbTransferDone k acked false rx) s =
          .next (twbTake (upTwb (s.setFld (TWB.STATUS k) 15 8 (rx.take (cmdN w)).length) k (fun b => { b with inbox := rx.take (cmdN w), ended := true })) k)) ∧
        (late false → cmdRead w = false → cmdN w ≤ s.twb[k].moved → exec (.twbTransferDone k acked false rx) s = .next (twbFinish (s.setFld (TWB.STATUS k) 15 8 (cmdN w)) k))) ∧
      (∀ n, s.twb[k].onBus = true → exec (.twbArbitrationLost k n none) s =
        .next (twbEvent (twbFifo (upTwb (twbDrop (s.setFld (TWB.STATUS k) 15 8 (min 255 n)) k) k (fun b => { b with tx := [], free := false })) k) k 2)) ∧
      (∀ st ninth, s.twb[k].onBus = true → s.twb[k].attnBus = false → exec (.twbMisplacedCondition k st ninth) s = .next (twbEvent (twbRelease s k) k 3)) ∧
      (s.twb[k].onBus = false → s.twb[k].attnBus = false → s.bit (TWB.STATUS k) 2 = true →
        (s.bit (TWB.STATUS k) 3 = true → exec (.twbMisplacedCondition k true true) s = .next s ∧ exec (.twbMisplacedCondition k false true) s = .next (twbEvent (twbIdle (twbStop s k) k) k 7)) ∧
        exec (.twbMisplacedCondition k true false) s = .next (twbEvent (twbIdle s k) k 3) ∧ exec (.twbMisplacedCondition k false false) s = .next (twbEvent (twbIdle (twbStop s k) k) k 3)) ∧
      (s.twb[k].recover = false → s.bit (TWB.CTRL k) 4 = false →
        (twbTimeout (twbEvent (s.setBit (TWB.STATUS k) 4 true) k 4) k).twb[k].recover = false → exec (.twbSclTimeout k) s = .next (twbTimeout (twbEvent (s.setBit (TWB.STATUS k) 4 true) k 4) k)) ∧
      ((twbTimeout (twbEvent (s.setBit (TWB.STATUS k) 5 true) k 5) k).bit (TWB.CTRL k) 4 = true →
        exec (.twbSdaTimeout k) s = .next (upTwb (twbTimeout (twbEvent (s.setBit (TWB.STATUS k) 5 true) k 5) k) k (fun b => { b with recover := true }))) ∧
      (Reaches s who (TWB.RECOVER k) true → s.bit (TWB.STATUS k) 1 = false → Leaves (.twbRecover who k v) s (fun t => t.twb[k] = { s.twb[k] with recover := true } ∧ t.regs = s.regs ∧ t.mem = s.mem)) ∧
      (s.twb[k].recover = true →
        let u := upTwb s k (fun b => { b with recover := false })
        exec (.twbRecoverDone k true) s = .next (twbEvent (twbStop (u.setBit (TWB.STATUS k) 5 false) k) k 10) ∧ exec (.twbRecoverDone k false) s = .next (twbEvent u k 11)) ∧
      (serialOn s = true → s.bit (TWB.CTRL k) 0 = true → s.bit (TWB.CTRL k) 2 = true → s.twb[k].onBus = false → s.twb[k].attnBus = false →
        ∀ a : TwbAddr, (s.bit (TWB.ADDR k) 15 = a.ten → s.fld (TWB.ADDR k) (if a.ten then 9 else 6) 0 = a.addr.toNat → exec (.twbTargetAddressed k a) s = .next (twbAddressed s k a.read)) ∧
        (a = ⟨0, false, false⟩ → s.bit (TWB.CTRL k) 3 = true → exec (.twbTargetAddressed k a) s = .next (twbAddressed s k false)) ∧
        (twbOwn s k a = false → exec (.twbTargetAddressed k a) s = .next s)) ∧
      (∀ b, s.bit (TWB.STATUS k) 2 = true → s.bit (TWB.STATUS k) 3 = false →
        (s.twb[k].rx.length < 8 → exec (.twbTargetByte k b) s = .next (twbEvent (twbFifo (upTwb s k (fun t => { t with rx := t.rx ++ [b] })) k) k 9)) ∧
        (8 ≤ s.twb[k].rx.length → exec (.twbTargetByte k b) s = .next s)) ∧
      (s.bit (TWB.STATUS k) 2 = true → exec (.twbTargetStop k true) s = .next (twbEvent (twbStop (twbIdle s k) k) k 7) ∧ exec (.twbTargetStop k false) s = .next (twbEvent (twbIdle s k) k 7)) ∧
      (Reaches s who (TWB.ATTN k) true →
        let u := (s.plainWrite (TWB.ATTN k) (if k = 0 then vSet v 31 else vSet v 31 &&& ~~~ 0x10000) (s.trusted who)).setBit (TWB.ATTN k) 31 false
        exec (.twbAttn who k v) s = .next (attnGo u k (u.bit (TWB.ATTN k) 16)) ∧ (s.twb[k].attn.isSome = true ∨ twbTarget s k = false → exec (.twbAttn who k v) s = .next u)) ∧
      (s.twb[k].attnBus = true → ∀ ok, exec (.twbAttnDone k ok) s = .next (twbEvent (twbStop (upTwb s k (fun b => { b with attn := none, attnBus := false })) k) k (if ok then 12 else 13))) ∧
      (Reaches s who (TWB.TXDATA k) true → (8 ≤ s.twb[k].tx.length → exec (.twbTxdataWrite who k v) s = .next s) ∧
        (s.twb[k].tx.length < 8 → exec (.twbTxdataWrite who k v) s = .next (twbFeed (twbFifo (upTwb s k (fun b => { b with tx := b.tx ++ [BitVec.ofNat 8 v.toNat] })) k) k))) ∧
      (Reaches s who (TWB.RXDATA k) false → (s.twb[k].rx = [] → exec (.twbRxdataRead who k) s = .next { s with rdata := 0 }) ∧
        (∀ b l, s.twb[k].rx = b :: l → exec (.twbRxdataRead who k) s = .next { twbTake (upTwb s k (fun t => { t with rx := l })) k with rdata := BitVec.ofNat 32 (256 + b.toNat) })) ∧
      (Reaches s who (TWB.CTRL k) true → exec (.twbDisable who k v) s = .next (twbCtrlWrite s k (vClr v 0) (s.trusted who))) ∧
      (s.bit (TWB.CTRL k) 2 = true → s.dom Dom.periph = .od → pwrState s ≠ 3 → Leaves (.twbWakeDetect k) s (fun t => t.dom Dom.periph = .on ∧ t.bit (TWB.STATUS k) 0 = true ∧ OnlyRegs s t [TWB.STATUS k])) ∧
      (s.twb[k].onBus = false → s.twb[k].keep = false → s.twb[k].attnBus = false → s.twb[k].hub = false → twbRested s k = true → exec (.twbBusFree k) s =
        .next (twbStart (upTwb ((s.setFld (TWB.STATUS k) 5 4 0).setBit (TWB.STATUS k) 0 false) k (fun b => { b with free := true })) k))) ∧
    (∀ k : Fin 2,
      (cspSlave s k = true → s.bit (CSP.CTRL k) 0 = true → s.dom Dom.periph = .od → pwrState s ≠ 3 →
        Leaves (.cspWakeDetect k) s (fun t => t.dom Dom.periph = .on ∧ t.bit (CSP.STATUS k) 1 = true ∧ OnlyRegs s t [CSP.STATUS k])) ∧
      (Reaches s who (CSP.TXDATA k) true → (8 ≤ s.csp[k].tx.length → exec (.cspTxdataWrite who k v) s = .next s) ∧
        (s.csp[k].tx.length < 8 → exec (.cspTxdataWrite who k v) s = .next (cspStart (cspFifo (upCsp s k (fun c => { c with tx := c.tx ++ [cspCut s k v] })) k) k))) ∧
      (Reaches s who (CSP.RXDATA k) false → (s.csp[k].rx = [] → exec (.cspRxdataRead who k) s = .next { s with rdata := 0 }) ∧
        (∀ w l, s.csp[k].rx = w :: l → exec (.cspRxdataRead who k) s = .next { cspStart (cspFifo (upCsp s k (fun c => { c with rx := l })) k) k with rdata := w })) ∧
      (∀ w, s.csp[k].frame.isSome = true → s.csp[k].since + cspTicks s k ≤ s.uptime → exec (.cspMasterFrameDone k w) s =
        .next (cspStart (cspEvent ((cspFifo (upCsp s k (fun c => { c with frame := none, rx := c.rx ++ [cspIn s k w] })) k).setBit (CSP.STATUS k) 0 false) k 0) k)) ∧
      (∀ w, cspServes s k = true → s.bit (CSP.STATUS k) 1 = true → s.csp[k].tx ≠ [] → s.csp[k].rx.length < 8 →
        let u := upCsp s k (fun c => { c with tx := c.tx.drop 1 })
        exec (.cspSlaveFrameDone k w) s = .next (cspFifo (cspEvent (upCsp u k (fun c => { c with rx := c.rx ++ [cspIn u k w] })) k 0) k)) ∧
      (s.bit (CSP.STATUS k) 1 = true → exec (.cspSelectRelease k false) s = .next (cspEvent (s.setBit (CSP.STATUS k) 1 false) k 4) ∧
        exec (.cspSelectRelease k true) s = .next (cspEvent (cspEvent (s.setBit (CSP.STATUS k) 1 false) k 3) k 4)) ∧
      (Reaches s who (CSP.CTRL k) true → (s.bit (CSP.STATUS k) 2 = true → exec (.cspDisable who k v) s = .next s) ∧
        (s.bit (CSP.STATUS k) 2 = false → exec (.cspDisable who k v) s = .next (cspStart ((s.plainWrite (CSP.CTRL k) (vClr v 0) (s.trusted who)).setBit (CSP.STATUS k) 1 false) k))) ∧
      (cspServes s k = true → Leaves (.cspSlaveSelect k) s (fun t => t.bit (CSP.STATUS k) 1 = true ∧ OnlyRegs s t [CSP.STATUS k])))

/-- 16 R392 to R400, R403, 17 R404 to R407, R415, R416: the host window, OTP and the key slots.  A transaction of the window starts, its first byte loads the pointer, every later byte is read or written at the pointer, and it
ends; disabling the window drops the transaction and its words.  A command of OTP or KEY is taken with its arguments and makes its block busy; while one is busy it is discarded; at its end it acts and writes its result: an OTP
command under 2.0 V or in the wrong lifecycle and a slot command without a root secret burn and write nothing, DELETE writes zeros. -/
def Obligations.HostWindowAndKeysTakeTheirCommands : Prop :=
  ∀ (who : Nat) (v : Word) (s : State),
    (∀ rd : Bool,
      (s.bit HWN.CTRL 0 = false → exec (.hwnTransactionStart rd) s = .next s) ∧
      (s.bit HWN.CTRL 0 = true → serialOn s = true → s.bit HWN.CTRL 1 = true → s.bit (CSP.CTRL 0) 0 = true → s.bit (CSP.CTRL 0) 1 = true → Leaves (.hwnTransactionStart rd) s (fun t => t.bit (CSP.STATUS 0) 1 = true ∧
        t.hwn = { s.hwn with tx := some { cmd := true, status := some (BitVec.ofNat 8 (hwnStatus s)), area := hwnArea s } } ∧ OnlyRegs s t [CSP.STATUS 0])) ∧
      (s.bit HWN.CTRL 0 = true → serialOn s = true → s.bit HWN.CTRL 1 = false → s.bit (TWB.CTRL 0) 0 = true → s.bit (TWB.CTRL 0) 2 = true → s.hwn.tx = none →
        let u := twbEvent (s.setBit (TWB.STATUS 0) 0 true) 0 6
        exec (.hwnTransactionStart rd) s = .next (u.upHwn (fun h => { h with tx := some { read := rd, cmd := !rd, status := if rd then some (BitVec.ofNat 8 (hwnStatus u)) else none, area := hwnArea u } })))) ∧
    (∀ (x : HwnTx) (b : Byte), s.hwn.tx = some x →
      (x.cmd = true → x.status = none → Leaves (.hwnByteCommit b) s (fun t => t.hwn.ptr = b.toNat % 128 ∧
        t.hwn.tx = some { x with cmd := false, status := none, read := if hwnOnCsp s then testB b.toNat 7 else false } ∧ t.regs = s.regs ∧ t.mem = s.mem)) ∧
      (x.cmd = false → x.status = none → exec (.hwnByteCommit b) s = .next (if x.read then hwnRead s x else hwnWrite s x b)) ∧
      (∀ p, s.bit HWN.CTRL 1 = true → x.span = none → x.read = false → p = false →
        exec (.hwnTransactionEnd p) s = .next ((s.upHwn (fun h => { h with tx := none })).setBit (CSP.STATUS 0) 1 false))) ∧
    (Reaches s who HWN.CTRL true →
      (s.bit HWN.CTRL 0 = true → v.getLsbD 3 = false ∨ s.bit HWN.CTRL 3 = true → Leaves (.hwnDisable who v) s (fun t => t.hwn.tx = none ∧ t.hwn.stage = 0 ∧ t.hwn.hold = none ∧ t.bit (CSP.STATUS 0) 2 = false)) ∧
      exec (.hwnAttnSet who v) s = .next (hwnCtrlWrite s (vSet v 3))) ∧
    (Reaches s who KEY.OTPCMD true →
      (∀ w, s.keys.otpCmd = some w → exec (.otpProgOwner who v) s = .next s ∧ exec (.otpRevoke who v) s = .next s ∧ exec (.otpBurnOwned who v) s = .next s ∧ exec (.otpBurnRetired who v) s = .next s) ∧
      (s.keys.otpCmd = none → ∀ c ∈ [(Instr.otpProgOwner who v, 1), (.otpRevoke who v, 2), (.otpBurnOwned who v, 3), (.otpBurnRetired who v, 4)],
        Leaves c.1 s (fun t => t.keys = { s.keys with otpCmd := some (withBits v 3 0 c.2) } ∧ t.bit KEY.OTPSTAT 0 = true ∧ OnlyRegs s t [KEY.OTPSTAT]))) ∧
    (∀ w ok, s.keys.otpCmd = some w →
      exec (.otpCommandDone ok) s = .next ((((otpRun s w ok).2.setFld KEY.OTPSTAT 7 4 (otpRun s w ok).1).setBit KEY.OTPSTAT 0 false).upKeys (fun k => { k with otpCmd := none })) ∧
      (s.fld PWR.VBAT 11 0 < 2000 → Leaves (.otpCommandDone ok) s (fun t => t.fld KEY.OTPSTAT 7 4 = 1 ∧ t.bit KEY.OTPSTAT 0 = false ∧ t.keys = { s.keys with otpCmd := none } ∧ OnlyRegs s t [KEY.OTPSTAT])) ∧
      (2000 ≤ s.fld PWR.VBAT 11 0 → bitsOf w 3 0 = 4 → lifecycle s ≠ 2 →
        Leaves (.otpCommandDone ok) s (fun t => t.fld KEY.OTPSTAT 7 4 = 5 ∧ t.keys = { s.keys with otpCmd := none } ∧ OnlyRegs s t [KEY.OTPSTAT]))) ∧
    (Reaches s who KEY.CMD true → ∀ c ∈ [(Instr.keyGenerate who v, 1), (.keyWrite who v, 2), (.keyDerive who v, 3), (.keyDelete who v, 4), (.keySetattr who v, 5), (.keyAttest who v, 6), (.keySignid who v, 7), (.keyRekey who v, 8)],
      (∀ w, s.keys.cmd = some w → Leaves c.1 s (fun t => t.bit KEY.STATUS 4 = true ∧ t.keys = s.keys ∧ OnlyRegs s t [KEY.STATUS])) ∧
      (s.keys.cmd = none → Leaves c.1 s (fun t => t.bit KEY.STATUS 0 = true ∧ t.bit KEY.STATUS 4 = false ∧ OnlyRegs s t [KEY.STATUS] ∧
        ∃ w : KeyCmd, t.keys = { s.keys with cmd := some w } ∧ w.cmd = withBits v 3 0 c.2 ∧ w.arg0 = s.rd KEY.ARG0 ∧ w.arg1 = s.rd KEY.ARG1 ∧ w.arg2 = s.rd KEY.ARG2 ∧ w.addr = (s.rd KEY.ADDR).toNat))) ∧
    (∀ (c : KeyCmd) (e : Bool), s.keys.cmd = some c →
      exec (.keyCommandDone e) s = .next (keyEnd (keyRun s c e).2 c (keyRun s c e).1) ∧
      (s.bit KEY.STATUS 2 = false ∨ rootSecret s = none → exec (.keyCommandDone e) s = .next (keyEnd s c 9)) ∧
      (∀ root, s.bit KEY.STATUS 2 = true → rootSecret s = some root → s.bit KEY.STATUS 3 = false →
        (bitsOf c.cmd 3 0 ≠ 8 → s.bit KEY.STATUS 1 = false → exec (.keyCommandDone e) s = .next (keyEnd s c 9)) ∧
        (bitsOf c.cmd 3 0 = 4 → s.bit KEY.STATUS 1 = true → exec (.keyCommandDone false) s = .next (keyEnd (slotWriteWords s (bitsOf c.cmd 12 8) 8 (List.replicate 64 0)) c 0)) ∧
        (bitsOf c.cmd 3 0 = 8 → s.fld KEY.ALARM 3 0 = 0 → exec (.keyCommandDone false) s = .next (keyEnd (rekey s root) c 0))))

/-- 17 R419 to R429, R432: the cipher jobs, the alarms, PKA, HSH and RNG.  A job command takes the next descriptor of its operation, a finished job ends with its status; an alarm without work in flight erases the keys, disarms
KEY and the memory pipeline and latches its source; PKA and HSH take an operation when idle, discard it when busy, and end it with its result; a push feeds HSH, a feed of a bad length sets BADLEN; RNG restarts, reseeds, gives
its words in order, and stops at a failed test. -/
def Obligations.CryptoUnitsRunTheirCommands : Prop :=
  ∀ (who : Nat) (v : Word) (s : State),
    (∀ (q : Nat) (w : Word) (s1 s2 : State) (enq : Nat) (trust : Bool) (b : List Byte), jobNext s = some q → qPeek s q = (some w, s1) → qTake s q = (some (w, enq, trust), s2) →
      (engineRead s (jobInit (qTag s q (qHead s q)).1) w.toNat 64 true).1 = some b →
      ∀ c ∈ [(Instr.jobEcbEncrypt, 1), (.jobEcbDecrypt, 2), (.jobCtr, 3), (.jobCbcMac, 4), (.jobCmacGenerate, 5), (.jobCmacVerify, 6), (.jobCcmSeal, 7), (.jobCcmOpen, 8)],
        (descOf b).op = c.2 → exec c.1 s = .next (jobTake s2 q w enq trust)) ∧
    (∀ (j : Job) (l : List Job), s.keys.jobs = j :: l →
      let u := s.upKeys (fun k => { k with jobs := l })
      (∀ st, j.status = some st → exec .cipherJobDone s = .next (jobShow (jobEnd u j st))) ∧
      (j.status = none → exec .cipherJobDone s = .next (jobShow (jobEnd (jobRun u j).2 j (jobRun u j).1)))) ∧
    (pwrState s ≠ 4 → s.keys.cmd = none → s.keys.jobs = [] → s.keys.pka = none → ∀ words, ∀ c ∈ [(Instr.alarmSupplyGlitch words, 0), (.alarmClockGlitch words, 1), (.alarmTemperature words, 2), (.alarmTamp words, 3)],
      (c.2 = 3 → s.bit KEY.ALARM 16 = true) →
      Leaves c.1 s (fun t => t.keys.mem = none ∧ t.keys.wrap = none ∧ t.keys.tag = none ∧ t.keys.ident = none ∧ t.keys.cache = [] ∧ t.keys.otp = s.keys.otp ∧ t.mem = s.mem ∧
        t.bit KEY.STATUS 1 = false ∧ t.bit AES.STATUS 8 = false ∧ t.bit KEY.ALARM c.2 = true ∧ t.bit KEY.ALARM (8 + c.2) = true)) ∧
    (∀ i : Fin 4, Leaves (.alarmConditionEnd i) s (fun t => t.bit KEY.ALARM i.val = false ∧ OnlyRegs s t [KEY.ALARM])) ∧
    (Reaches s who PKA.CMD true → ∀ c ∈ [(Instr.pkaEcdsaSign who, 1), (.pkaEcdsaVerify who, 2), (.pkaEcdh who, 3), (.pkaKeygen who, 4), (.pkaPointCheck who, 5), (.pkaX25519 who, 6)],
      (∀ k, s.keys.pka = some k → exec c.1 s = .next s) ∧
      (s.keys.pka = none → keyHoldsPka s = true → exec c.1 s = .next (pkaEnd s 5)) ∧
      (s.keys.pka = none → keyHoldsPka s = false → Leaves c.1 s (fun t => t.keys = { s.keys with pka := some c.2 } ∧ t.bit PKA.STATUS 0 = true ∧ OnlyRegs s t [PKA.STATUS]))) ∧
    (∀ k, s.keys.pka = some k → exec .pkaDone s =
      .next (pkaEnd (if k = 4 ∧ (pkaOp s k).1 = 0 then (pkaOp s k).2 else pkaPut (pkaOp s k).2 0x400 (List.replicate 32 0)) (pkaOp s k).1)) ∧
    (Reaches s who HSH.CTRL true → Leaves (.hshInit who v) s (fun t => t.rd HSH.STATUS = 0 ∧ t.keys.hash.part = [] ∧ t.keys.hash.count = 0 ∧ t.keys.hash.go = none ∧
      t.keys.hash.chain = (if t.bit HSH.CTRL 0 then h512.map BitVec.toNat else h256.map BitVec.toNat) ∧ OnlyRegs s t [HSH.CTRL, HSH.STATUS])) ∧
    (Reaches s who HSH.GO true →
      (∀ k, s.keys.hash.go = some k → exec (.hshFeedMemory who) s = .next s ∧ exec (.hshFeedLast who) s = .next s ∧ exec (.hshPushedLast who) s = .next s) ∧
      (s.keys.hash.go = none →
        ((s.rd HSH.LEN).toNat % hshBlock s ≠ 0 → Leaves (.hshFeedMemory who) s (fun t => t.bit HSH.STATUS 2 = true ∧ t.keys = s.keys ∧ OnlyRegs s t [HSH.STATUS])) ∧
        ((s.rd HSH.LEN).toNat % hshBlock s = 0 → Leaves (.hshFeedMemory who) s (fun t => t.keys.hash = { s.keys.hash with go := some 1 } ∧ t.rd HSH.STATUS = 1 ∧ OnlyRegs s t [HSH.STATUS])) ∧
        Leaves (.hshFeedLast who) s (fun t => t.keys.hash = { s.keys.hash with go := some 3 } ∧ t.rd HSH.STATUS = 1 ∧ OnlyRegs s t [HSH.STATUS]) ∧
        Leaves (.hshPushedLast who) s (fun t => t.keys.hash = { s.keys.hash with go := some 4 } ∧ t.rd HSH.STATUS = 1 ∧ OnlyRegs s t [HSH.STATUS]))) ∧
    (Reaches s who HSH.DATA true → (s.keys.hash.go.isSome = true → exec (.hshDataPush who v) s = .next s) ∧ (s.keys.hash.go = none → exec (.hshDataPush who v) s = .next (hshFeed s (beBytes 4 v.toNat)))) ∧
    (let u := s.upKeys (fun k => { k with hash := { k.hash with go := none } });
      (s.keys.hash.go = some 4 →
        let t := hshFeed (hshFeed u []) (shaPad (hshBlock (hshFeed u [])) (hshFeed u []).keys.hash.count)
        exec .hshDone s = .next (emitProducer ((t.wrWords (HSH.DIGEST 0) (hshDigest t)).wr HSH.STATUS 2) .miscb 14)) ∧
      (∀ bs s1, s.keys.hash.go = some 1 → physRead u 0 (u.rd HSH.SRC).toNat (u.rd HSH.LEN).toNat = (some bs, s1) → exec .hshDone s = .next (emitProducer ((hshFeed s1 bs).wr HSH.STATUS 2) .miscb 14)) ∧
      (∀ s1, s.keys.hash.go = some 1 → physRead u 0 (u.rd HSH.SRC).toNat (u.rd HSH.LEN).toNat = (none, s1) → exec .hshDone s = .next (s1.wr HSH.STATUS 8))) ∧
    (Reaches s who RNG.CTRL true →
      exec (.rngRestart who) s = .next (rngStop ((s.plainWrite RNG.CTRL 3 true).setBit RNG.STATUS 2 true)) ∧
      (s.bit RNG.CTRL 0 = true → exec (.rngReseed who) s = .next (s.plainWrite RNG.CTRL 5 true).draw.2)) ∧
    (Reaches s who RNG.DATA false →
      (s.keys.fifo = [] → Leaves (.rngDataRead who) s (fun t => t.rdata = 0 ∧ t.bit RNG.EVT 1 = true ∧ OnlyRegs s t [RNG.EVT])) ∧
      (∀ w l, s.keys.fifo = w :: l → Leaves (.rngDataRead who) s (fun t => t.rdata = w ∧ t.keys.fifo = l ++ [s.draw.1] ∧ OnlyRegs s t [RNG.STATUS]))) ∧
    (s.bit RNG.STATUS 2 = true → s.bit RNG.CTRL 0 = true → exec .trngStartupDone s =
      .next (rngShow (((s.drawBytes 16).2.setFld RNG.STATUS 2 0 1).upKeys (fun k => { k with fifo := leWords (s.drawBytes 16).1 })))) ∧
    (s.bit RNG.CTRL 0 = true → Leaves .trngHealthFail s (fun t => t.keys.fifo = [] ∧ t.bit RNG.STATUS 0 = false ∧ t.bit RNG.STATUS 1 = true ∧ t.bit RNG.STATUS 2 = false ∧ t.bit RNG.EVT 0 = true ∧ t.mem = s.mem))

/-- 18 R435 to R443, R447, R448, R450 to R455, R457: the power states and the RTC.  A request enters PREP toward its state, is held during a transition, and RUN cancels it; the commit and the arrival act when their phase is
reached; a wake event ends PREP, is latched on the way down, or starts the exit; DOZE is entered when every core is quiet and left with the first that is not; a measured VBAT sets its flags; the backup supply has hysteresis;
staged RTC values pass over two edges; a read of SUBSEC latches the snapshot; an alarm fires at its instant; a lost oscillator sets OSF, which clears only while it runs, and XO32_OK reads as the inverse
of OSCSTOP. -/
def Obligations.PowerAndClockFollowTheirStates : Prop :=
  ∀ (who : Nat) (v : Word) (s : State),
    (Reaches s who PWR.REQ true →
      (∀ c, v.toNat % 8 = c → 2 ≤ c → c ≤ 4 →
        (pwrPhase s = 0 ∨ pwrPhase s = 1 → Leaves (.powerRequest who v) s (fun t => t.rd PWR.REQ = BitVec.ofNat 32 c ∧ pwrPhase t = 1 ∧ pwrState t = pwrState s ∧ t.pwr = { s.pwr with target := c } ∧ t.bit FLC.STATUS 4 = decide (3 ≤ c) ∧ OnlyRegs s t [PWR.REQ, PWR.STATUS, FLC.STATUS])) ∧
        (pwrPhase s = 2 ∨ pwrPhase s = 3 → Leaves (.powerRequest who v) s (fun t => t.bit PWR.STATUS 6 = true ∧ t.pwr = { s.pwr with held := some c } ∧ OnlyRegs s t [PWR.REQ, PWR.STATUS]))) ∧
      (v.toNat % 8 = 1 ∨ 4 < v.toNat % 8 → exec (.powerRequest who v) s = .next s) ∧
      (pwrPhase s = 1 → Leaves (.powerRequestCancel who v) s (fun t => pwrPhase t = 0 ∧ pwrState t = pwrState s ∧ t.pwr = { s.pwr with target := 0 } ∧ t.bit FLC.STATUS 4 = false ∧ OnlyRegs s t [PWR.REQ, PWR.STATUS, FLC.STATUS]))) ∧
    (∀ rest, pwrPhase s = 1 →
      (prepWaiting s = 0 → exec (.powerCommit rest) s = .next (powerCommit s (keepDram s rest))) ∧
      (prepWaiting s ≠ 0 → Leaves (.powerCommit rest) s (fun t => t.fld PWR.STATUS 12 8 = prepWaiting s % 32 ∧ pwrPhase t = 1 ∧ t.pwr = s.pwr ∧ OnlyRegs s t [PWR.STATUS]))) ∧
    (pwrPhase s = 2 → s.pwr.target ≠ 4 → s.pwr.latch = [] →
      exec .powerStateReached s = .next (heldRequest ((pwrEvent (receiverRelease (clocksOff (setPwr s s.pwr.target 0))) 0).upPwr (fun p => { p with target := 0, latch := [], ran := false, fromRest := false })))) ∧
    (∀ b : Fin 13, let u := s.setBit PWR.WAKESTAT b.val true
      (wakeEnabled s b.val = false → exec (.wakeEvent b) s = .next s) ∧
      (wakeEnabled s b.val = true → pwrPhase u = 1 → exec (.wakeEvent b) s = .next (showWaiting (setHold ((setPwr (pwrEvent u 2) (pwrState u) 0).upPwr (fun p => { p with target := 0 })) false))) ∧
      (wakeEnabled s b.val = true → pwrPhase u = 2 → exec (.wakeEvent b) s = .next (u.upPwr (fun p => { p with latch := addOnce p.latch b.val }))) ∧
      (wakeEnabled s b.val = true → pwrPhase u = 0 → pwrState u = 3 → exec (.wakeEvent b) s = .next (startExit u b.val (wakesToRun u b.val) false)) ∧
      (wakeEnabled s b.val = true → pwrPhase u = 0 → pwrState u ≠ 3 → pwrState u ≠ 2 → exec (.wakeEvent b) s = .next u)) ∧
    (pwrPhase s = 3 →
      let r := pwrState s == 3
      let u := if r then ((setHold s false).setBit SYS.PLAYHOLD 4 true).upCore 4 (fun _ => { run := .held }) else setHold s false
      (s.pwr.toRun = true →
        let d := (clocksOn (domsRun u)).setFld CLK.VCORE 6 0 65
        let w := if receiverWanted d = true ∧ ¬ d.bit RXC.STATUS 0 = true then receiverStart d else d
        exec .powerExitComplete s = .next (heldRequest ((bankStat (pwrEvent (policyRun (vcoreUpdate (prompterResume (setPwr w 0 0)))) 1)).upPwr (fun p => { p with ran := true, fromRest := false })))) ∧
      (s.pwr.toRun = false →
        let d := (List.range 16).foldl (fun (s : State) k => if s.dom (Dom.sram k) = .ret then s.setDom (Dom.sram k) .on else s) u
        let w := setPwr ((((d.setDom Dom.link .od).setDom Dom.nvm .od).setDom Dom.periph .od).setDom Dom.radio .od) 2 0
        exec .powerExitComplete s = .next (heldRequest ((bankStat (pwrEvent (if receiverWanted w then receiverForce w else w) 1)).upPwr (fun p => { p with fromRest := r }))))) ∧
    (s.bit PWR.CFG 0 = true → pwrState s = 0 → pwrPhase s = 0 → (List.finRange 6).all (coreQuiet s) = true → Leaves .dozeEnter s (fun t => pwrState t = 1 ∧ pwrPhase t = 0 ∧ OnlyRegs s t [PWR.STATUS, CLK.VCORE, CLK.STATUS])) ∧
    (pwrState s = 1 → (List.finRange 6).all (coreQuiet s) = false → Leaves .dozeExit s (fun t => pwrState t = 0 ∧ pwrPhase t = 0 ∧ OnlyRegs s t [PWR.STATUS, CLK.VCORE, CLK.STATUS])) ∧
    (s.bit PWR.CFG 1 = true → pwrState s = 2 → pwrPhase s = 0 → s.pwr.fromRest = true → s.pwr.ran = false → (∀ n, n < 32 → s.fld (HUB.SHSTAT n) 1 0 = 0) → s.sched.own = false → s.sched.annOpen = false →
      s.trk.window = false → s.lnk.relays = [] → s.lnk.acks = [] → exec .autoRestReturn s = .next (powerCommit (s.upPwr (fun p => { p with target := 3 })) (s.pwr.refresh && s.dom Dom.dramsys != .off))) ∧
    (∀ (mv : BitVec 12) (bk : Nat), 2200 < mv.toNat → 1500 ≤ bk → s.fld PWR.VBATWARN 11 0 ≤ mv.toNat → s.dom Dom.dramsys ≠ .off ∨ pwrState s ≠ 0 ∨ pwrPhase s ≠ 0 →
      Leaves (.vbatCheck mv bk) s (fun t => t.fld PWR.VBAT 11 0 = mv.toNat ∧ t.bit PWR.VBAT 16 = false ∧ t.bit PWR.VBAT 17 = false ∧ t.bit PWR.VBAT 18 = false ∧ OnlyRegs s t [PWR.VBAT])) ∧
    (∀ mv bk : Nat, (bk + 100 < mv → 1750 ≤ mv → Leaves (.backupSupplySwitch mv bk) s (fun t => t.bit RTC.STATUS 5 = false ∧ OnlyRegs s t [RTC.STATUS])) ∧
      (mv ≤ bk + 50 ∨ mv < 1700 → Leaves (.backupSupplySwitch mv bk) s (fun t => t.bit RTC.STATUS 5 = true ∧ OnlyRegs s t [RTC.STATUS])) ∧
      (bk + 50 < mv → mv ≤ bk + 100 → 1700 ≤ mv → exec (.backupSupplySwitch mv bk) s = .next s)) ∧
    exec .backupRetentionTrip s = .next (resetBackup s) ∧
    (Reaches s who RTC.CMD true →
      (s.bit RTC.STATUS 3 = false → Leaves (.rtcApply who v) s (fun t => t.bit RTC.STATUS 3 = true ∧ t.rtc = { s.rtc with apply := .asked } ∧ OnlyRegs s t [RTC.STATUS])) ∧
      (s.bit RTC.STATUS 3 = true → Leaves (.rtcApply who v) s (fun t => t.bit RTC.STATUS 4 = true ∧ t.rtc = s.rtc ∧ OnlyRegs s t [RTC.STATUS]))) ∧
    (s.rtc.apply = .asked → Leaves .rtcApplyTransfer s (fun t => t.rtc = { s.rtc with apply := .moved, moving := s.rtc.staged, values := rtcValues s, staged := [] } ∧ t.regs = s.regs ∧ t.mem = s.mem)) ∧
    (s.rtc.apply = .moved → s.rtc.moving = [0] → s.bit RTC.STATUS 1 = false → Leaves .rtcApplyCommit s (fun t =>
      t.rtc.secs = (s.rtc.values.getD 1 0).toNat + 2 ^ 32 * bitsOf (s.rtc.values.getD 2 0) 15 0 ∧ t.rtc.sub = bitsOf (s.rtc.values.getD 0 0) 14 0 ∧ t.rtc.apply = .idle ∧
      t.bit RTC.STATUS 0 = false ∧ t.bit RTC.STATUS 3 = false ∧ OnlyRegs s t [RTC.STATUS])) ∧
    (Reaches s who RTC.SUBSEC false → Leaves (.rtcSubsecRead who) s (fun t => t.rdata = BitVec.ofNat 32 s.rtc.sub ∧ t.rd RTC.SECLO = BitVec.ofNat 32 s.rtc.secs ∧ t.rd RTC.CALDATE = calDate s.rtc.secs ∧
      t.rd RTC.CALTIME = calTime s.rtc.secs ∧ OnlyRegs s t [RTC.SUBSEC, RTC.SECLO, RTC.SECHI, RTC.CALDATE, RTC.CALTIME])) ∧
    (∀ n : Fin 2, let a := s.rtc.alarms[n]
      (a.en = false ∨ a.fired = true ∨ rtcCount s < alarmCount a → exec (.rtcAlarm n) s = .next s) ∧
      (a.en = true → a.fired = false → alarmCount a = rtcCount s → a.rep = 0 → s.pwr.blackout = false →
        exec (.rtcAlarm n) s = .next (wakeEvent ((((s.setBit RTC.EVT n.val true).when (s.bit RTC.IEN n.val) (fun s => emitProducer s .misca (14 + n.val))).upRtc (fun r => { r with alarms := r.alarms.set n { a with en := false, fired := true } })).setBit (RTC.ALMCFG n.val) 0 false) n.val))) ∧
    (∀ temp : BitVec 16, let u := s.setFld RTC.TEMP 15 0 temp.toNat
      (s.bit RTC.TRIM 8 = false ∨ s.pwr.blackout = true → exec (.rtcTrimUpdate temp) s = .next u) ∧
      (s.pwr.blackout = false → s.bit RTC.TRIM 8 = true → exec (.rtcTrimUpdate temp) s =
        .next (u.setFld RTC.TRIM 20 16 (clampI 0 31 (16 + divRound (trimError u temp.toInt) (Int.ofNat (orIfZero 1000 (u.fld RTC.CAPSTEP 11 0))))).toNat))) ∧
    Leaves .oscStopDetect s (fun t => t.bit RTC.STATUS 1 = true ∧ t.bit RTC.STATUS 0 = true ∧ (regRead t who CLK.STATUS).1.getLsbD 0 = false ∧ OnlyRegs s t [RTC.STATUS]) ∧
    (s.bit CLK.STATUS 1 = true → Leaves .oscRestart s (fun t => t.bit RTC.STATUS 1 = false ∧ (regRead t who CLK.STATUS).1.getLsbD 0 = true ∧ OnlyRegs s t [RTC.STATUS])) ∧
    (s.bit CLK.STATUS 1 = false → Leaves .oscRestart s (fun t => t.bit RTC.STATUS 1 = false ∧ (regRead t who CLK.STATUS).1.getLsbD 0 = true ∧ t.bit CLK.STATUS 5 = true ∧
      OnlyRegs s t [RTC.STATUS, CLK.STATUS, CLK.RCCAL])) ∧
    (Reaches s who RTC.STATUS true → Leaves (.osfClear who v) s (fun t => t.bit RTC.STATUS 0 = (s.bit RTC.STATUS 0 && s.bit RTC.STATUS 1) ∧ OnlyRegs s t [RTC.STATUS])) ∧
    (∀ i : Fin 4, s.pwr.blackout = true → wakesBlackout s i.val = true → exec (.blackoutWake i) s = .next (blackoutWake s i.val))

/-- 19 R466 to R468: the service port.  While it listens, a bad packet, one that finds no buffer and a gap are discarded, counted and signalled; a debug packet is kept for the hardware; any other is written into the lowest free
buffer (log 41) and its scene address enqueued in Q120.  A reply that is out leaves TXDONE, a new rate then applies on trial, and without a good packet the port returns to DIV 417; RXFREE frees a buffer.  (An event may also record
motion, 19 R471.) -/
def Obligations.ServicePortTakesItsPackets : Prop :=
  ∀ (who : Nat) (v : Word) (body : List Byte) (ok : Bool) (s : State),
    (svcListens s = false ∨ svcNbuf s = 0 → exec (.svcPacketReceive body ok) s = .next s ∧ exec .svcGapTimeout s = .next s) ∧
    (svcListens s = true → svcNbuf s ≠ 0 →
      (body.length < 2 ∨ 1040 < body.length ∨ ok = false → Leaves (.svcPacketReceive body ok) s (fun t => t.bit SVC.EVT 1 = true ∧ t.fld SVC.CNT 31 16 = min (s.fld SVC.CNT 31 16 + 1) 0xFFFF ∧
        t.fld SVC.CNT 15 0 = s.fld SVC.CNT 15 0 ∧ (∃ m, t.svc = { s.svc with motionAt := m }) ∧ t.mem = s.mem)) ∧
      (2 ≤ body.length → body.length ≤ 1040 → ok = true →
        (body.head? = some 0x0A ∨ body.head? = some 0x0B → Leaves (.svcPacketReceive body ok) s (fun t => t.bit SVC.EVT 0 = true ∧ t.fld SVC.CNT 15 0 = min (s.fld SVC.CNT 15 0 + 1) 0xFFFF ∧
          t.fld SVC.CNT 31 16 = s.fld SVC.CNT 31 16 ∧ (∃ m, t.svc = { s.svc with probing := false, dbg := some body, motionAt := m }) ∧ t.mem = s.mem)) ∧
        (body.head? ≠ some 0x0A → body.head? ≠ some 0x0B →
          (svcFree s = none → Leaves (.svcPacketReceive body ok) s (fun t => t.bit SVC.EVT 2 = true ∧ t.fld SVC.CNT 31 16 = min (s.fld SVC.CNT 31 16 + 1) 0xFFFF ∧ (∃ m, t.svc = { s.svc with motionAt := m }) ∧ t.mem = s.mem)) ∧
          (∀ i, svcFree s = some i →
            let a := (s.rd SVC.RXBASE).toNat + 2048 * i
            let r := engineWrite s svcInit a (leBytes 2 body.length ++ body) true
            (r.1 = true → exec (.svcPacketReceive body ok) s = .next (svcDiscard r.2 2)) ∧
            (r.1 = false → exec (.svcPacketReceive body ok) s =
              .next (svcGood (qProduce (svcStat (r.2.upSvc (fun v => { v with used := addOnce v.used i }))) 120 svcInit (leBytes 4 a)).2))))) ∧
      Leaves .svcGapTimeout s (fun t => t.bit SVC.EVT 3 = true ∧ t.bit SVC.STATUS 0 = false ∧ t.fld SVC.CNT 31 16 = min (s.fld SVC.CNT 31 16 + 1) 0xFFFF ∧ (∃ m, t.svc = { s.svc with motionAt := m }) ∧ t.mem = s.mem)) ∧
    (s.bit SVC.CTRL 0 = true → svcClock s = true → pwrState s ≤ 1 →
      (s.svc.reply.isSome = true → s.svc.newDiv = none → Leaves .svcReplyDone s (fun t => (∃ m, t.svc = { s.svc with reply := none, motionAt := m }) ∧ t.bit SVC.EVT 4 = true ∧ t.bit SVC.STATUS 1 = false ∧ t.rd SVC.CTRL = s.rd SVC.CTRL ∧ t.mem = s.mem)) ∧
      (∀ d, s.svc.reply.isSome = true → s.svc.newDiv = some d → d < 512 → Leaves .svcReplyDone s (fun t => (∃ m, t.svc = { s.svc with reply := none, newDiv := none, probing := true, probeAt := s.uptime, motionAt := m }) ∧ t.fld SVC.CTRL 24 16 = d ∧
        t.bit SVC.EVT 4 = true ∧ t.mem = s.mem)) ∧
      (∀ w tr, s.svc.reply = none → (qTake s 121).1 = some (w, tr) → exec .svcReplyDone s = .next (svcEvent (engineWrite (qTake s 121).2 svcInit w.toNat [0, 0] true).2 4))) ∧
    (s.svc.probing = true → s.svc.probeAt + ticksPerSecond ≤ s.uptime → Leaves .svcRateRevert s (fun t => t.fld SVC.CTRL 24 16 = 417 ∧ t.svc = { s.svc with probing := false } ∧ OnlyRegs s t [SVC.CTRL])) ∧
    (s.svc.probing = false ∨ s.uptime < s.svc.probeAt + ticksPerSecond → exec .svcRateRevert s = .next s) ∧
    (Reaches s who SVC.RXFREE true → Leaves (.svcRxfree who v) s (fun t => t.svc = { s.svc with used := s.svc.used.filter (fun i => i != bitsOf v 3 0) } ∧
      t.fld SVC.STATUS 11 8 = (below (svcNbuf s) (fun i => !t.svc.used.contains i)).length % 16 ∧ OnlyRegs s t [SVC.STATUS]))

/-- 19 R468, R469, R472 to R475: requests on the service port.  A request that nobody serves changes nothing; a repeat gets the stored reply and runs nothing; any other is answered with CMD + 0x80, its SEQ and a STATUS.
HELLO, STATUS and PROGRESS report; AUTH draws a nonce; LOAD, VERIFY, ABORT and ACTIVATE follow USTATE and the refusals; an owner statement that fails its checks is answered AUTH_FAIL and spends the nonce. -/
def Obligations.ServiceRequestsAreServed : Prop :=
  ∀ (seq : Byte) (p : List Byte) (ok : Bool) (s : State),
    (∀ cmd c, (cmd, c) ∈ [((1 : Byte), Instr.svcHello seq p), (2, .svcStatus seq p), (3, .svcLoad seq p ok), (4, .svcVerify seq p), (6, .svcProgress seq p), (7, .svcAbort seq p), (8, .svcAuth seq p)] →
      (svcServer s = 0 → exec c s = .next s) ∧
      (svcServer s ≠ 0 → s.svc.last.1 = [cmd, seq] ++ p → exec c s = .next (svcStat (s.upSvc (fun v => { v with reply := some v.last.2 }))))) ∧
    (svcServer s = 1 → lifecycle s ≠ 3 →
      let req := fun (cmd : Byte) => [cmd, seq] ++ p
      let done := fun (t : State) (cmd : Byte) (st : Nat) (data : List Byte) => (.next (svcReply t (req cmd) ([cmd + 0x80, seq, BitVec.ofNat 8 st] ++ data)) : Host.Outcome State Fault Refusal);
      (s.svc.last.1 ≠ req 1 →
        (p.length ≠ 2 → exec (.svcHello seq p) s = done s 1 2 []) ∧
        (p.length = 2 → leNat p ≠ 0 → exec (.svcHello seq p) s = done (s.upSvc (fun v => { v with newDiv := some (clamp 16 417 (leNat p)) })) 1 0
          (leBytes 4 (s.rd SYS.ID).toNat ++ beBytes 8 (ownEui s) ++ [BitVec.ofNat 8 (lifecycle s), BitVec.ofNat 8 s.phase, BitVec.ofNat 8 (s.fld SYS.BOOTSEL 0 0)] ++ leBytes 4 (hdrFld (runHdr s) 8 4) ++
            leBytes 2 (clamp 16 417 (leNat p))))) ∧
      (s.svc.last.1 ≠ req 2 → exec (.svcStatus seq p) s = done (if svcRecovery s then s else motionSeen s) 2 0 ([BitVec.ofNat 8 s.svc.ustate, BitVec.ofNat 8 (if svcRecovery s then 2 * natBit (svcLow s) else natBit (svcMoving s) + 2 * natBit (svcLow s) +
        4 * natBit (svcLocked s))] ++ leBytes 2 (s.fld PWR.VBAT 11 0) ++ leBytes 4 (svcPos s) ++ leBytes 4 (svcTotal s) ++ leBytes 2 (s.fld SYS.HEALTH 31 16))) ∧
      (s.svc.last.1 ≠ req 6 → s.svc.ustate = 1 → svcTotal s ≠ 0 → exec (.svcProgress seq p) s = done s 6 0 ([1, BitVec.ofNat 8 (100 * svcPos s / svcTotal s)] ++ leBytes 4 (svcPos s) ++ leBytes 4 (svcTotal s))) ∧
      (s.svc.last.1 ≠ req 8 → let r := s.drawBytes 8; exec (.svcAuth seq p) s = done (r.2.upSvc (fun v => { v with nonce := some (r.1, s.uptime) })) 8 0 r.1) ∧
      (s.svc.last.1 ≠ req 3 →
        let off := leNat ((p.drop 1).take 4)
        let refuse := fun (st : Nat) => exec (.svcLoad seq p ok) s = done s 3 st (leBytes 4 (svcPos s))
        (exec (.svcLoad seq p ok) s = done (loadRun s p ok).2 3 (loadRun s p ok).1 (leBytes 4 (svcPos (loadRun s p ok).2))) ∧
        (p.length < 6 ∨ 1029 < p.length ∨ 1 < (p.getD 0 0).toNat → refuse 2) ∧
        (6 ≤ p.length → p.length ≤ 1029 → (p.getD 0 0).toNat ≤ 1 →
          (svcRefusal s ≠ 0 → exec (.svcLoad seq p ok) s = done (svcRefused s) 3 (svcRefusal s) (leBytes 4 (svcPos s)) ∧ OnlyRegs s (svcRefused s) [CUE.IRQOVR 5]) ∧
          (svcRefusal s = 0 → (s.svc.ustate = 3 ∨ 5 ≤ s.svc.ustate) → refuse 3) ∧
          (svcRefusal s = 0 → s.svc.ustate = 1 → s.svc.pos0 < hdrFld s.svc.hdr 28 4 → ((p.getD 0 0).toNat ≠ 0 ∨ off ≠ s.svc.pos0) → refuse 7))) ∧
      (s.svc.last.1 ≠ req 4 →
        (s.svc.ustate ≠ 2 → exec (.svcVerify seq p) s = done s 4 9 []) ∧
        (s.svc.ustate = 2 → let c := imageCheck s (updTarget s) true (updField s 8 4 0)
          exec (.svcVerify seq p) s = done (if c = 0 then s.upSvc (fun v => { v with ustate := 4 }) else stageClear s 0) 4 c (leBytes 4 (hdrFld s.svc.hdr 8 4)))) ∧
      (s.svc.last.1 ≠ req 7 →
        (s.svc.ustate = 5 → exec (.svcAbort seq p) s = done s 7 3 []) ∧
        (s.svc.ustate = 6 → exec (.svcAbort seq p) s = done (fallback s) 7 0 []) ∧
        (1 ≤ s.svc.ustate → s.svc.ustate ≤ 4 → exec (.svcAbort seq p) s = done (stageClear s 0) 7 0 [])) ∧
      (s.svc.last.1 ≠ req 9 →
        ∀ op c, (op, c) ∈ [(1, Instr.ownerLock seq p), (2, .ownerUnlock seq p), (3, .ownerSetminver seq p), (4, .ownerAddkey seq p), (5, .ownerRevoke seq p), (6, .ownerBurnOwned seq p), (7, .ownerRetire seq p),
            (8, .ownerDebugUnlock seq p), (9, .ownerRecoveryUnlock seq p)] → (p.getD 4 0).toNat = op →
          let u := s.upSvc (fun v => { v with nonce := none })
          let arg := (p.drop 48).take 32
          (p.length ≠ 208 → exec c s = done u 9 2 []) ∧
          (p.length = 208 → ownerOk s p = false → exec c s = done u 9 14 []) ∧
          (p.length = 208 → ownerOk s p = true → exec c s = done (ownerRun u op arg).2 9 (ownerRun u op arg).1 []) ∧
          (op ≤ 2 → ownerRun u op arg = (0, settingsSet u 0 1 (2 - op))) ∧ (op = 8 → ownerRun u op arg = (0, u.setBit DBG.STATUS 8 true))))

/-- 19 R475, R476: activation, trial and fallback.  ACTIVATE needs VERIFIED and no refusal, LIVE also the running image's THASH and LIVEOK; LIVE stops dispatch and waits for the drain, whose timeout puts everything back; when
drained the bursts are written, the players pause over the placement of the new image and USTATE is TRIAL; RESET answers and makes a software reset.  READY ends the hold-over, CONFIRM the trial; a missing READY falls back, where
the flash controller refuses to retire the active block (log 43), and the previous image missing it resets. -/
def Obligations.ActivationRunsToTrialAndBack : Prop :=
  ∀ (seq : Byte) (s : State),
    (svcServer s = 1 → lifecycle s ≠ 3 →
      (s.svc.last.1 ≠ [5, seq, 0] →
        (activateCheck s ≠ 0 → exec (.svcActivateLive seq) s = .next (svcReply (if s.svc.ustate = 4 then svcRefused s else s) [5, seq, 0] [0x85, seq, BitVec.ofNat 8 (activateCheck s)])) ∧
        (activateCheck s = 0 → (s.svc.hdr.drop 36).take 32 ≠ ((runHdr s).drop 36).take 32 ∨ testB (hdrFld (manifest s (updTarget s)) 44 4) 0 = false →
          exec (.svcActivateLive seq) s = .next (svcReply s [5, seq, 0] [0x85, seq, 15])) ∧
        (activateCheck s = 0 → (s.svc.hdr.drop 36).take 32 = ((runHdr s).drop 36).take 32 → testB (hdrFld (manifest s (updTarget s)) 44 4) 0 = true →
          Leaves (.svcActivateLive seq) s (fun t => t.bit STG.CTRL 1 = false ∧ t.svc = { s.svc with ustate := 5, live := true, actReq := [5, seq, 0], drainAt := s.uptime } ∧ OnlyRegs s t [STG.CTRL]))) ∧
      (s.svc.last.1 ≠ [5, seq, 1] →
        (activateCheck s ≠ 0 → exec (.svcActivateReset seq) s = .next (svcReply (if s.svc.ustate = 4 then svcRefused s else s) [5, seq, 1] [0x85, seq, BitVec.ofNat 8 (activateCheck s)])) ∧
        (activateCheck s = 0 → exec (.svcActivateReset seq) s =
          .next (softReset (svcReply ((writeBurst s (updTarget s) 1 (newEpoch s)).upSvc (fun v => { v with ustate := 5, live := false })) [5, seq, 1] [0x85, seq, 0]))))) ∧
    (s.svc.ustate ≠ 4 → activateCheck s = 9) ∧ (s.svc.ustate = 4 → activateCheck s = svcRefusal s) ∧
    (s.svc.ustate = 5 → s.svc.live = true →
      (anyTask s = true → exec .activateDrained s = .next s) ∧
      (anyTask s = false → ∀ b e, b = 1 - s.fld SYS.BOOTSEL 0 0 → e = newEpoch s →
        let u := healthStart (liveSwitch (writeBurst (writeBurst s b 1 e) b 2 e) b)
        exec .activateDrained s = .next (actReply (u.upSvc (fun v => { v with ustate := 6, trialAt := u.uptime })) 0)) ∧
      (s.svc.drainAt + updField s 6 2 100 * (ticksPerSecond / 1000) ≤ s.uptime →
        exec .activateDrainTimeout s = .next (actReply (dispatchRun ((s.setBit STG.CTRL 1 true).upSvc (fun v => { v with ustate := 4 }))) 16))) ∧
    (s.svc.ustate ≠ 5 ∨ s.svc.live = false → exec .activateDrained s = .next s ∧ exec .activateDrainTimeout s = .next s) ∧
    ((serviceTake s 0x20).1 = true →
      ((serviceTake s 0x20).2.svc.holdover = true → exec .serviceReady s = .next (dispatchRun ((((serviceTake s 0x20).2.upSvc (fun v => { v with ready := true })).setBit STG.CTRL 1 true).upSvc (fun v => { v with holdover := false })))) ∧
      ((serviceTake s 0x20).2.svc.holdover = false → exec .serviceReady s = .next ((serviceTake s 0x20).2.upSvc (fun v => { v with ready := true })))) ∧
    ((serviceTake s 0x21).1 = true →
      ((serviceTake s 0x21).2.svc.ustate = 6 → exec .serviceConfirm s = .next (stageClear (healthStop (writeBurst (serviceTake s 0x21).2 (serviceTake s 0x21).2.svc.runBlock 3 (blockEpoch (serviceTake s 0x21).2 (serviceTake s 0x21).2.svc.runBlock))) 0)) ∧
      ((serviceTake s 0x21).2.svc.ustate ≠ 6 → exec .serviceConfirm s = .next (serviceTake s 0x21).2)) ∧
    (s.svc.ustate = 6 → s.svc.ready = false → s.svc.trialAt + 15 * ticksPerSecond ≤ s.uptime →
      let u := showEpochs (flashRetire s s.svc.runBlock).2
      (u.svc.live = true → exec .readyTimeout s = .next (healthStop (stageClear (liveSwitch u (u.fld SYS.BOOTSEL 0 0)) 0))) ∧
      (u.svc.live = false → exec .readyTimeout s = .next (softReset u))) ∧
    (∀ b, b = s.fld SYS.BOOTSEL 0 0 → flashRetire s b = (false, s)) ∧
    (s.svc.ustate ≠ 6 ∨ s.svc.ready = true ∨ s.uptime < s.svc.trialAt + 15 * ticksPerSecond → exec .readyTimeout s = .next s) ∧
    (s.svc.holdover = true → s.svc.ustate = 0 → s.svc.pauseAt + 30 * ticksPerSecond ≤ s.uptime → exec .holdoverTimeout s = .next (softReset s)) ∧
    (s.svc.holdover = false ∨ s.svc.ustate ≠ 0 ∨ s.uptime < s.svc.pauseAt + 30 * ticksPerSecond → exec .holdoverTimeout s = .next s)

/-- The register tables of the spec and 04 R98: right after reset the memory and the register file are in canonical form with nothing listed, so every register reads the reset value of its table row; the queue of commands is
empty, START-UP is shown, every player is held and no core has started, the network clock is UNSYNC and the device is in RUN. -/
def Obligations.ResetIsSoundAndReadsTheTables : Prop :=
  Sound State.reset ∧ State.reset.pending = [] ∧ State.reset.regs = [] ∧ State.reset.mem = [] ∧
  (∀ a, State.reset.rd a = regReset a) ∧
  (∀ e ∈ [(SYS.ID, 0x48010096), (SYS.PHASE, 0), (SYS.HEALTHDL, 0x00020258), (SYS.PLAYHOLD, 0x1F), (CLK.APPDIV, 0x55), (CLK.VCORE, 0x41), (STG.MIGCFG, 0x00400004), (STG.PROMOTE, 0xC0), (STG.SRBREAK, 0x3C),
      (DMC.ADDRMAP, 5), (DMC.REFCFG, 0x1003), (DMC.SCRUB, 0x18), (DMC.TRACK, 0x0420), (FLC.CTRL, 6), (FLC.SUSPLIM, 0x14), (FLC.SUSPCFG, 0x00C80064), (MRC.CTRL, 1)],
    State.reset.rd e.1 = BitVec.ofNat 32 e.2) ∧
  (∀ e ∈ [(RXC.WINBASE, 0x8ED0), (RXC.SUNFREQ, 0x3689CAC0), (RXC.AGCSTAT, 0x1E), (FEC.DECCFG, 0x13080C32), (FEC.ENCCFG, 0x60), (FEC.SYNCW, 0x5F0B3A6D), (TXC.LOCKTMO, 0x78), (TXC.HOPLEAD, 0x3C), (TXC.RAMP, 10),
      (RFE.TUNE, 0x80202020), (CAL.CTRL, 0xFFF), (LNK.NID, 0xFFFF), (LNK.SHORT, 0xFFFE), (LNK.POOLCFG, 0x000A0000), (LNK.NTSTAT, 0xFFFF0F08), (LNK.NTAGE, 0xFFFFFFFF), (LNK.SCHCFG, 0x40140500),
      (HUB.MAXSTEPS, 0x400), (HWN.CTRL, 0x5C00), (PWR.WAKEEN, 0x1C00), (PWR.VBATWARN, 0x898), (PWR.BANKSTAT, 0xAAAAAAAA), (RTC.CALDATE, 0x06010100), (RTC.TRIM, 0x110), (SVC.CTRL, 0x01A10003), (SVC.STATUS, 4),
      (SVC.GAP, 0x2710), (FLT.ESC, 0x3C)], State.reset.rd e.1 = BitVec.ofNat 32 e.2) ∧
  (∀ n : Fin 6, (State.reset.core n).run = .stopped) ∧ pwrState State.reset = 0 ∧ pwrPhase State.reset = 0 ∧ State.reset.svc.ustate = 0

/-- The model's invariant: from every state whose memory and register file are in canonical form, reached or not, every step, of whatever command at the front of the queue or of a tick on the empty queue, leaves a state of
that form; equal memories and equal register files thus stay equal data. -/
def Obligations.EveryStepKeepsTheCanonicalForms : Prop :=
  ∀ s t : State, Sound s → step s = .next t → Sound t
end

