-- ==== Sys2Proof/Laws/Bits.lean ====
section
/-! SUPPORT. Bit fields: what each bit of a word is after a field of it is replaced. -/
namespace Sys2Proof.Machine

theorem testB_eq (n i : Nat) : testB n i = n.testBit i := by
  rw [Nat.testBit_eq_decide_div_mod_eq, testB, Nat.shiftRight_eq_div_pow]
  by_cases h : n / 2 ^ i % 2 = 1 <;> simp [h]

theorem testB_toNat (v : Word) (i : Nat) : testB v.toNat i = v.getLsbD i := testB_eq _ _

theorem getLsbD_maskOf {hi lo : Nat} (h : hi < 32) (hl : lo ≤ hi) (i : Nat) :
    (maskOf hi lo).getLsbD i = (decide (lo ≤ i) && decide (i ≤ hi)) := by
  unfold maskOf
  rw [BitVec.getLsbD_ofNat, Nat.testBit_shiftLeft, Nat.testBit_two_pow_sub_one]
  by_cases h1 : lo ≤ i <;> by_cases h2 : i ≤ hi <;> simp [h1, h2] <;> omega

/-- Each bit of a word with a field replaced. -/
theorem getLsbD_withBits (v : Word) {hi lo : Nat} (x : Nat) (h : hi < 32) (hl : lo ≤ hi) (i : Nat) :
    (withBits v hi lo x).getLsbD i = if lo ≤ i ∧ i ≤ hi then x.testBit (i - lo) else v.getLsbD i := by
  unfold withBits
  rw [BitVec.getLsbD_or, BitVec.getLsbD_and, BitVec.getLsbD_and, BitVec.getLsbD_not, getLsbD_maskOf h hl,
    BitVec.getLsbD_ofNat, Nat.testBit_shiftLeft]
  by_cases h1 : lo ≤ i <;> by_cases h2 : i ≤ hi <;> by_cases h3 : i < 32 <;> simp [h1, h2, h3]
  · omega
  all_goals exact BitVec.getLsbD_of_ge v i (by omega)

theorem testBit_bitsOf (v : Word) (hi lo j : Nat) : (bitsOf v hi lo).testBit j = (decide (j < hi + 1 - lo) && v.getLsbD (lo + j)) := by
  unfold bitsOf
  rw [Nat.testBit_mod_two_pow, Nat.testBit_shiftRight]
  rfl

/-- A field just written reads as the low bits written. -/
theorem bitsOf_withBits_self (v : Word) {hi lo : Nat} (x : Nat) (h : hi < 32) (hl : lo ≤ hi) :
    bitsOf (withBits v hi lo x) hi lo = x % 2 ^ (hi + 1 - lo) := by
  apply Nat.eq_of_testBit_eq
  intro j
  rw [testBit_bitsOf, getLsbD_withBits v x h hl, Nat.testBit_mod_two_pow]
  by_cases hj : j < hi + 1 - lo
  · have h1 : lo ≤ lo + j ∧ lo + j ≤ hi := by omega
    simp [hj, h1]
  · simp [hj]

/-- A field apart from the one written keeps its value. -/
theorem bitsOf_withBits_ne (v : Word) {hi lo hi' lo' : Nat} (x : Nat) (h : hi < 32) (hl : lo ≤ hi) (hd : hi' < lo ∨ hi < lo') :
    bitsOf (withBits v hi lo x) hi' lo' = bitsOf v hi' lo' := by
  apply Nat.eq_of_testBit_eq
  intro j
  rw [testBit_bitsOf, testBit_bitsOf, getLsbD_withBits v x h hl]
  by_cases hj : j < hi' + 1 - lo'
  · have h1 : ¬ (lo ≤ lo' + j ∧ lo' + j ≤ hi) := by omega
    simp [h1]
  · simp [hj]

/-- A bit apart from the field written keeps its value. -/
theorem testB_withBits_ne (v : Word) {hi lo i : Nat} (x : Nat) (h : hi < 32) (hl : lo ≤ hi) (hd : i < lo ∨ hi < i) :
    testB (withBits v hi lo x).toNat i = testB v.toNat i := by
  rw [testB_toNat, testB_toNat, getLsbD_withBits v x h hl, if_neg (by omega)]

/-- A bit of the field written. -/
theorem testB_withBits_mem (v : Word) {hi lo i : Nat} (x : Nat) (h : hi < 32) (hl : lo ≤ i) (hh : i ≤ hi) :
    testB (withBits v hi lo x).toNat i = x.testBit (i - lo) := by
  rw [testB_toNat, getLsbD_withBits v x h (by omega), if_pos ⟨hl, hh⟩]

@[simp] theorem testBit_natBit (b : Bool) : (natBit b).testBit 0 = b := by cases b <;> rfl

theorem bitsOf_lt (v : Word) (hi lo : Nat) : bitsOf v hi lo < 2 ^ (hi + 1 - lo) := Nat.mod_lt _ (Nat.two_pow_pos _)

@[simp] theorem leBytes_length (n v : Nat) : (leBytes n v).length = n := by
  induction n generalizing v with
  | zero => rfl
  | succ n ih => simp [leBytes, ih]

/-- The bytes of a number spell its low bytes. -/
theorem leNat_leBytes (n v : Nat) : leNat (leBytes n v) = v % 256 ^ n := by
  induction n generalizing v with
  | zero => simp [leBytes, leNat, Nat.mod_one]
  | succ n ih =>
    have h := Nat.mod_mul (x := v) (a := 256) (b := 256 ^ n)
    rw [Nat.pow_succ, Nat.mul_comm (256 ^ n) 256, h]
    simp [leBytes, leNat, ih]

end Sys2Proof.Machine
end

