-- ==== Sys2Proof/Laws/Sparse.lean ====
section
/-! SUPPORT. Sparse tables: what a write leaves at each key, and that writes and filters keep the canonical form. -/
namespace Sys2Proof.Machine

variable {α : Type}

/-! ### What is found -/

theorem sparseFind_drop_self (k : Nat) (l : List (Nat × α)) : sparseFind k (sparseDrop k l) = none := by
  induction l with
  | nil => rfl
  | cons e rest ih =>
    obtain ⟨j, v⟩ := e
    by_cases h : j = k <;> simp [sparseDrop, sparseFind, h, ih]

theorem sparseFind_drop_ne {j k : Nat} (h : j ≠ k) (l : List (Nat × α)) : sparseFind j (sparseDrop k l) = sparseFind j l := by
  induction l with
  | nil => rfl
  | cons e rest ih =>
    obtain ⟨i, v⟩ := e
    by_cases hk : i = k
    · subst hk
      simp [sparseDrop, sparseFind, ih, Ne.symm h]
    · by_cases hj : i = j
      · subst hj; simp [sparseDrop, sparseFind, hk]
      · simp [sparseDrop, sparseFind, hk, hj, ih]

theorem sparseFind_insert_self (k : Nat) (v : α) (l : List (Nat × α)) (h : sparseFind k l = none) :
    sparseFind k (sparseInsert k v l) = some v := by
  induction l with
  | nil => simp [sparseInsert, sparseFind]
  | cons e rest ih =>
    obtain ⟨j, w⟩ := e
    have hj : j ≠ k := by intro e; simp [sparseFind, e] at h
    have hr : sparseFind k rest = none := by simpa [sparseFind, hj] using h
    by_cases hk : k < j <;> simp [sparseInsert, sparseFind, hk, hj, ih hr]

theorem sparseFind_insert_ne {j k : Nat} (h : j ≠ k) (v : α) (l : List (Nat × α)) :
    sparseFind j (sparseInsert k v l) = sparseFind j l := by
  induction l with
  | nil => simp [sparseInsert, sparseFind, Ne.symm h]
  | cons e rest ih =>
    obtain ⟨i, w⟩ := e
    by_cases hk : k < i
    · simp [sparseInsert, sparseFind, hk, Ne.symm h]
    · by_cases hj : i = j
      · subst hj; simp [sparseInsert, sparseFind, hk]
      · simp [sparseInsert, sparseFind, hk, hj, ih]

/-- The key just written reads as the value written. -/
@[simp] theorem sparseGet_set_self [DecidableEq α] (d : Nat → α) (l : List (Nat × α)) (k : Nat) (v : α) :
    sparseGet d (sparseSet d l k v) k = v := by
  unfold sparseGet sparseSet
  by_cases h : v = d k
  · simp [h, sparseFind_drop_self]
  · simp [h, sparseFind_insert_self k v _ (sparseFind_drop_self k l)]

/-- Every other key reads as before. -/
theorem sparseGet_set_ne [DecidableEq α] (d : Nat → α) (l : List (Nat × α)) {j k : Nat} (h : j ≠ k) (v : α) :
    sparseGet d (sparseSet d l k v) j = sparseGet d l j := by
  unfold sparseGet sparseSet
  by_cases hv : v = d k
  · simp [hv, sparseFind_drop_ne h]
  · simp [hv, sparseFind_insert_ne h, sparseFind_drop_ne h]

/-- What any key reads as after a write. -/
theorem sparseGet_set [DecidableEq α] (d : Nat → α) (l : List (Nat × α)) (j k : Nat) (v : α) :
    sparseGet d (sparseSet d l k v) j = if j = k then v else sparseGet d l j := by
  by_cases h : j = k
  · subst h; simp
  · simp [h, sparseGet_set_ne d l h]

/-! ### The canonical form -/

/-- The keys rise strictly, as a pairwise relation. -/
theorem sparseRising_iff (l : List (Nat × α)) : sparseRising l = true ↔ l.Pairwise (fun a b => a.1 < b.1) := by
  induction l with
  | nil => simp [sparseRising]
  | cons e rest ih =>
    obtain ⟨j, v⟩ := e
    cases rest with
    | nil => simp [sparseRising]
    | cons e2 r2 =>
      obtain ⟨k, w⟩ := e2
      rw [List.pairwise_cons]
      simp only [sparseRising, Bool.and_eq_true, decide_eq_true_eq, ih]
      constructor
      · rintro ⟨hjk, hp⟩
        refine ⟨?_, hp⟩
        intro b hb
        rcases List.mem_cons.1 hb with rfl | hb
        · exact hjk
        · exact lt_trans hjk ((List.pairwise_cons.1 hp).1 b hb)
      · rintro ⟨h1, hp⟩
        exact ⟨h1 (k, w) (by simp), hp⟩

/-- The canonical form, as a pairwise relation and a condition on every entry. -/
theorem sparseWf_iff [DecidableEq α] (d : Nat → α) (l : List (Nat × α)) :
    sparseWf d l = true ↔ l.Pairwise (fun a b => a.1 < b.1) ∧ ∀ e ∈ l, e.2 ≠ d e.1 := by
  simp [sparseWf, sparseRising_iff]

theorem sparseDrop_eq_filter (k : Nat) (l : List (Nat × α)) : sparseDrop k l = l.filter (fun e => decide (e.1 ≠ k)) := by
  induction l with
  | nil => rfl
  | cons e rest ih =>
    obtain ⟨j, v⟩ := e
    by_cases h : j = k <;> simp [sparseDrop, h, ih]

/-- A filter keeps the canonical form. -/
theorem sparseWf_filter [DecidableEq α] (d : Nat → α) (l : List (Nat × α)) (q : Nat × α → Bool) (h : sparseWf d l = true) :
    sparseWf d (l.filter q) = true := by
  rw [sparseWf_iff] at h ⊢
  exact ⟨h.1.filter _, fun e he => h.2 e (List.mem_filter.1 he).1⟩

theorem mem_sparseInsert {k : Nat} {v : α} {l : List (Nat × α)} {e : Nat × α} :
    e ∈ sparseInsert k v l ↔ e = (k, v) ∨ e ∈ l := by
  induction l with
  | nil => simp [sparseInsert]
  | cons a rest ih =>
    obtain ⟨j, w⟩ := a
    by_cases h : k < j
    · simp [sparseInsert, h]
    · simp only [sparseInsert, h, if_false, List.mem_cons, ih]
      tauto

theorem sparseInsert_rising (k : Nat) (v : α) (l : List (Nat × α)) (h : l.Pairwise (fun a b => a.1 < b.1))
    (hk : ∀ e ∈ l, e.1 ≠ k) : (sparseInsert k v l).Pairwise (fun a b => a.1 < b.1) := by
  induction l with
  | nil => simp [sparseInsert]
  | cons a rest ih =>
    obtain ⟨j, w⟩ := a
    rw [List.pairwise_cons] at h
    by_cases hlt : k < j
    · simp only [sparseInsert, hlt, if_true, List.pairwise_cons, List.mem_cons]
      refine ⟨?_, h.1, h.2⟩
      rintro e (rfl | he)
      · exact hlt
      · exact lt_trans hlt (h.1 e he)
    · simp only [sparseInsert, hlt, if_false, List.pairwise_cons]
      refine ⟨?_, ih h.2 (fun e he => hk e (List.mem_cons_of_mem _ he))⟩
      intro e he
      rcases mem_sparseInsert.1 he with rfl | he
      · have := hk (j, w) (by simp)
        simp only [ne_eq] at this
        simp only
        omega
      · exact h.1 e he

/-- A write keeps the canonical form. -/
theorem sparseWf_set [DecidableEq α] (d : Nat → α) (l : List (Nat × α)) (k : Nat) (v : α) (h : sparseWf d l = true) :
    sparseWf d (sparseSet d l k v) = true := by
  have hd : sparseWf d (sparseDrop k l) = true := by rw [sparseDrop_eq_filter]; exact sparseWf_filter d l _ h
  unfold sparseSet
  by_cases hv : v = d k
  · simpa [hv] using hd
  · rw [sparseWf_iff] at hd
    simp only [hv, if_false]
    rw [sparseWf_iff]
    refine ⟨sparseInsert_rising k v _ hd.1 ?_, ?_⟩
    · intro e he
      rw [sparseDrop_eq_filter, List.mem_filter] at he
      simpa using he.2
    · intro e he
      rcases mem_sparseInsert.1 he with rfl | he
      · exact hv
      · exact hd.2 e he

end Sys2Proof.Machine
end

