-- ==== Sys2Proof/Laws/State.lean ====
section
/-! SUPPORT. One lemma per field per update of the state: what each named update of the state leaves in each field. -/
namespace Sys2Proof.Machine

variable (s : State)

/-! `State.wr` -/
@[simp] theorem State.wr_regs (a : Nat) (v : Word) : (s.wr a v).regs = sparseSet regReset s.regs a v := rfl
@[simp] theorem State.wr_mem (a : Nat) (v : Word) : (s.wr a v).mem = s.mem := rfl
@[simp] theorem State.wr_doms (a : Nat) (v : Word) : (s.wr a v).doms = s.doms := rfl
@[simp] theorem State.wr_cores (a : Nat) (v : Word) : (s.wr a v).cores = s.cores := rfl
@[simp] theorem State.wr_pair (a : Nat) (v : Word) : (s.wr a v).pair = s.pair := rfl
@[simp] theorem State.wr_boot (a : Nat) (v : Word) : (s.wr a v).boot = s.boot := rfl
@[simp] theorem State.wr_stg (a : Nat) (v : Word) : (s.wr a v).stg = s.stg := rfl
@[simp] theorem State.wr_dram (a : Nat) (v : Word) : (s.wr a v).dram = s.dram := rfl
@[simp] theorem State.wr_nvm (a : Nat) (v : Word) : (s.wr a v).nvm = s.nvm := rfl
@[simp] theorem State.wr_flt (a : Nat) (v : Word) : (s.wr a v).flt = s.flt := rfl
@[simp] theorem State.wr_cueQ (a : Nat) (v : Word) : (s.wr a v).cueQ = s.cueQ := rfl
@[simp] theorem State.wr_cells (a : Nat) (v : Word) : (s.wr a v).cells = s.cells := rfl
@[simp] theorem State.wr_rxc (a : Nat) (v : Word) : (s.wr a v).rxc = s.rxc := rfl
@[simp] theorem State.wr_fec (a : Nat) (v : Word) : (s.wr a v).fec = s.fec := rfl
@[simp] theorem State.wr_txc (a : Nat) (v : Word) : (s.wr a v).txc = s.txc := rfl
@[simp] theorem State.wr_cal (a : Nat) (v : Word) : (s.wr a v).cal = s.cal := rfl
@[simp] theorem State.wr_lnk (a : Nat) (v : Word) : (s.wr a v).lnk = s.lnk := rfl
@[simp] theorem State.wr_ntime (a : Nat) (v : Word) : (s.wr a v).ntime = s.ntime := rfl
@[simp] theorem State.wr_trk (a : Nat) (v : Word) : (s.wr a v).trk = s.trk := rfl
@[simp] theorem State.wr_sched (a : Nat) (v : Word) : (s.wr a v).sched = s.sched := rfl
@[simp] theorem State.wr_rtc (a : Nat) (v : Word) : (s.wr a v).rtc = s.rtc := rfl
@[simp] theorem State.wr_pwr (a : Nat) (v : Word) : (s.wr a v).pwr = s.pwr := rfl
@[simp] theorem State.wr_hub (a : Nat) (v : Word) : (s.wr a v).hub = s.hub := rfl
@[simp] theorem State.wr_timers (a : Nat) (v : Word) : (s.wr a v).timers = s.timers := rfl
@[simp] theorem State.wr_twb (a : Nat) (v : Word) : (s.wr a v).twb = s.twb := rfl
@[simp] theorem State.wr_csp (a : Nat) (v : Word) : (s.wr a v).csp = s.csp := rfl
@[simp] theorem State.wr_hwn (a : Nat) (v : Word) : (s.wr a v).hwn = s.hwn := rfl
@[simp] theorem State.wr_pins (a : Nat) (v : Word) : (s.wr a v).pins = s.pins := rfl
@[simp] theorem State.wr_keys (a : Nat) (v : Word) : (s.wr a v).keys = s.keys := rfl
@[simp] theorem State.wr_svc (a : Nat) (v : Word) : (s.wr a v).svc = s.svc := rfl
@[simp] theorem State.wr_heldAcc (a : Nat) (v : Word) : (s.wr a v).heldAcc = s.heldAcc := rfl
@[simp] theorem State.wr_rdata (a : Nat) (v : Word) : (s.wr a v).rdata = s.rdata := rfl
@[simp] theorem State.wr_nt (a : Nat) (v : Word) : (s.wr a v).nt = s.nt := rfl
@[simp] theorem State.wr_uptime (a : Nat) (v : Word) : (s.wr a v).uptime = s.uptime := rfl
@[simp] theorem State.wr_free (a : Nat) (v : Word) : (s.wr a v).free = s.free := rfl
@[simp] theorem State.wr_pending (a : Nat) (v : Word) : (s.wr a v).pending = s.pending := rfl

/-! `State.setFld` -/
@[simp] theorem State.setFld_mem (a hi lo x : Nat) : (s.setFld a hi lo x).mem = s.mem := rfl
@[simp] theorem State.setFld_doms (a hi lo x : Nat) : (s.setFld a hi lo x).doms = s.doms := rfl
@[simp] theorem State.setFld_cores (a hi lo x : Nat) : (s.setFld a hi lo x).cores = s.cores := rfl
@[simp] theorem State.setFld_pair (a hi lo x : Nat) : (s.setFld a hi lo x).pair = s.pair := rfl
@[simp] theorem State.setFld_boot (a hi lo x : Nat) : (s.setFld a hi lo x).boot = s.boot := rfl
@[simp] theorem State.setFld_stg (a hi lo x : Nat) : (s.setFld a hi lo x).stg = s.stg := rfl
@[simp] theorem State.setFld_dram (a hi lo x : Nat) : (s.setFld a hi lo x).dram = s.dram := rfl
@[simp] theorem State.setFld_nvm (a hi lo x : Nat) : (s.setFld a hi lo x).nvm = s.nvm := rfl
@[simp] theorem State.setFld_flt (a hi lo x : Nat) : (s.setFld a hi lo x).flt = s.flt := rfl
@[simp] theorem State.setFld_cueQ (a hi lo x : Nat) : (s.setFld a hi lo x).cueQ = s.cueQ := rfl
@[simp] theorem State.setFld_cells (a hi lo x : Nat) : (s.setFld a hi lo x).cells = s.cells := rfl
@[simp] theorem State.setFld_rxc (a hi lo x : Nat) : (s.setFld a hi lo x).rxc = s.rxc := rfl
@[simp] theorem State.setFld_fec (a hi lo x : Nat) : (s.setFld a hi lo x).fec = s.fec := rfl
@[simp] theorem State.setFld_txc (a hi lo x : Nat) : (s.setFld a hi lo x).txc = s.txc := rfl
@[simp] theorem State.setFld_cal (a hi lo x : Nat) : (s.setFld a hi lo x).cal = s.cal := rfl
@[simp] theorem State.setFld_lnk (a hi lo x : Nat) : (s.setFld a hi lo x).lnk = s.lnk := rfl
@[simp] theorem State.setFld_ntime (a hi lo x : Nat) : (s.setFld a hi lo x).ntime = s.ntime := rfl
@[simp] theorem State.setFld_trk (a hi lo x : Nat) : (s.setFld a hi lo x).trk = s.trk := rfl
@[simp] theorem State.setFld_sched (a hi lo x : Nat) : (s.setFld a hi lo x).sched = s.sched := rfl
@[simp] theorem State.setFld_rtc (a hi lo x : Nat) : (s.setFld a hi lo x).rtc = s.rtc := rfl
@[simp] theorem State.setFld_pwr (a hi lo x : Nat) : (s.setFld a hi lo x).pwr = s.pwr := rfl
@[simp] theorem State.setFld_hub (a hi lo x : Nat) : (s.setFld a hi lo x).hub = s.hub := rfl
@[simp] theorem State.setFld_timers (a hi lo x : Nat) : (s.setFld a hi lo x).timers = s.timers := rfl
@[simp] theorem State.setFld_twb (a hi lo x : Nat) : (s.setFld a hi lo x).twb = s.twb := rfl
@[simp] theorem State.setFld_csp (a hi lo x : Nat) : (s.setFld a hi lo x).csp = s.csp := rfl
@[simp] theorem State.setFld_hwn (a hi lo x : Nat) : (s.setFld a hi lo x).hwn = s.hwn := rfl
@[simp] theorem State.setFld_pins (a hi lo x : Nat) : (s.setFld a hi lo x).pins = s.pins := rfl
@[simp] theorem State.setFld_keys (a hi lo x : Nat) : (s.setFld a hi lo x).keys = s.keys := rfl
@[simp] theorem State.setFld_svc (a hi lo x : Nat) : (s.setFld a hi lo x).svc = s.svc := rfl
@[simp] theorem State.setFld_heldAcc (a hi lo x : Nat) : (s.setFld a hi lo x).heldAcc = s.heldAcc := rfl
@[simp] theorem State.setFld_rdata (a hi lo x : Nat) : (s.setFld a hi lo x).rdata = s.rdata := rfl
@[simp] theorem State.setFld_nt (a hi lo x : Nat) : (s.setFld a hi lo x).nt = s.nt := rfl
@[simp] theorem State.setFld_uptime (a hi lo x : Nat) : (s.setFld a hi lo x).uptime = s.uptime := rfl
@[simp] theorem State.setFld_free (a hi lo x : Nat) : (s.setFld a hi lo x).free = s.free := rfl
@[simp] theorem State.setFld_pending (a hi lo x : Nat) : (s.setFld a hi lo x).pending = s.pending := rfl

/-! `State.setBit` -/
@[simp] theorem State.setBit_mem (a i : Nat) (v : Bool) : (s.setBit a i v).mem = s.mem := rfl
@[simp] theorem State.setBit_doms (a i : Nat) (v : Bool) : (s.setBit a i v).doms = s.doms := rfl
@[simp] theorem State.setBit_cores (a i : Nat) (v : Bool) : (s.setBit a i v).cores = s.cores := rfl
@[simp] theorem State.setBit_pair (a i : Nat) (v : Bool) : (s.setBit a i v).pair = s.pair := rfl
@[simp] theorem State.setBit_boot (a i : Nat) (v : Bool) : (s.setBit a i v).boot = s.boot := rfl
@[simp] theorem State.setBit_stg (a i : Nat) (v : Bool) : (s.setBit a i v).stg = s.stg := rfl
@[simp] theorem State.setBit_dram (a i : Nat) (v : Bool) : (s.setBit a i v).dram = s.dram := rfl
@[simp] theorem State.setBit_nvm (a i : Nat) (v : Bool) : (s.setBit a i v).nvm = s.nvm := rfl
@[simp] theorem State.setBit_flt (a i : Nat) (v : Bool) : (s.setBit a i v).flt = s.flt := rfl
@[simp] theorem State.setBit_cueQ (a i : Nat) (v : Bool) : (s.setBit a i v).cueQ = s.cueQ := rfl
@[simp] theorem State.setBit_cells (a i : Nat) (v : Bool) : (s.setBit a i v).cells = s.cells := rfl
@[simp] theorem State.setBit_rxc (a i : Nat) (v : Bool) : (s.setBit a i v).rxc = s.rxc := rfl
@[simp] theorem State.setBit_fec (a i : Nat) (v : Bool) : (s.setBit a i v).fec = s.fec := rfl
@[simp] theorem State.setBit_txc (a i : Nat) (v : Bool) : (s.setBit a i v).txc = s.txc := rfl
@[simp] theorem State.setBit_cal (a i : Nat) (v : Bool) : (s.setBit a i v).cal = s.cal := rfl
@[simp] theorem State.setBit_lnk (a i : Nat) (v : Bool) : (s.setBit a i v).lnk = s.lnk := rfl
@[simp] theorem State.setBit_ntime (a i : Nat) (v : Bool) : (s.setBit a i v).ntime = s.ntime := rfl
@[simp] theorem State.setBit_trk (a i : Nat) (v : Bool) : (s.setBit a i v).trk = s.trk := rfl
@[simp] theorem State.setBit_sched (a i : Nat) (v : Bool) : (s.setBit a i v).sched = s.sched := rfl
@[simp] theorem State.setBit_rtc (a i : Nat) (v : Bool) : (s.setBit a i v).rtc = s.rtc := rfl
@[simp] theorem State.setBit_pwr (a i : Nat) (v : Bool) : (s.setBit a i v).pwr = s.pwr := rfl
@[simp] theorem State.setBit_hub (a i : Nat) (v : Bool) : (s.setBit a i v).hub = s.hub := rfl
@[simp] theorem State.setBit_timers (a i : Nat) (v : Bool) : (s.setBit a i v).timers = s.timers := rfl
@[simp] theorem State.setBit_twb (a i : Nat) (v : Bool) : (s.setBit a i v).twb = s.twb := rfl
@[simp] theorem State.setBit_csp (a i : Nat) (v : Bool) : (s.setBit a i v).csp = s.csp := rfl
@[simp] theorem State.setBit_hwn (a i : Nat) (v : Bool) : (s.setBit a i v).hwn = s.hwn := rfl
@[simp] theorem State.setBit_pins (a i : Nat) (v : Bool) : (s.setBit a i v).pins = s.pins := rfl
@[simp] theorem State.setBit_keys (a i : Nat) (v : Bool) : (s.setBit a i v).keys = s.keys := rfl
@[simp] theorem State.setBit_svc (a i : Nat) (v : Bool) : (s.setBit a i v).svc = s.svc := rfl
@[simp] theorem State.setBit_heldAcc (a i : Nat) (v : Bool) : (s.setBit a i v).heldAcc = s.heldAcc := rfl
@[simp] theorem State.setBit_rdata (a i : Nat) (v : Bool) : (s.setBit a i v).rdata = s.rdata := rfl
@[simp] theorem State.setBit_nt (a i : Nat) (v : Bool) : (s.setBit a i v).nt = s.nt := rfl
@[simp] theorem State.setBit_uptime (a i : Nat) (v : Bool) : (s.setBit a i v).uptime = s.uptime := rfl
@[simp] theorem State.setBit_free (a i : Nat) (v : Bool) : (s.setBit a i v).free = s.free := rfl
@[simp] theorem State.setBit_pending (a i : Nat) (v : Bool) : (s.setBit a i v).pending = s.pending := rfl

/-! `State.bump` -/
@[simp] theorem State.bump_mem (a hi lo n : Nat) : (s.bump a hi lo n).mem = s.mem := rfl
@[simp] theorem State.bump_doms (a hi lo n : Nat) : (s.bump a hi lo n).doms = s.doms := rfl
@[simp] theorem State.bump_cores (a hi lo n : Nat) : (s.bump a hi lo n).cores = s.cores := rfl
@[simp] theorem State.bump_pair (a hi lo n : Nat) : (s.bump a hi lo n).pair = s.pair := rfl
@[simp] theorem State.bump_boot (a hi lo n : Nat) : (s.bump a hi lo n).boot = s.boot := rfl
@[simp] theorem State.bump_stg (a hi lo n : Nat) : (s.bump a hi lo n).stg = s.stg := rfl
@[simp] theorem State.bump_dram (a hi lo n : Nat) : (s.bump a hi lo n).dram = s.dram := rfl
@[simp] theorem State.bump_nvm (a hi lo n : Nat) : (s.bump a hi lo n).nvm = s.nvm := rfl
@[simp] theorem State.bump_flt (a hi lo n : Nat) : (s.bump a hi lo n).flt = s.flt := rfl
@[simp] theorem State.bump_cueQ (a hi lo n : Nat) : (s.bump a hi lo n).cueQ = s.cueQ := rfl
@[simp] theorem State.bump_cells (a hi lo n : Nat) : (s.bump a hi lo n).cells = s.cells := rfl
@[simp] theorem State.bump_rxc (a hi lo n : Nat) : (s.bump a hi lo n).rxc = s.rxc := rfl
@[simp] theorem State.bump_fec (a hi lo n : Nat) : (s.bump a hi lo n).fec = s.fec := rfl
@[simp] theorem State.bump_txc (a hi lo n : Nat) : (s.bump a hi lo n).txc = s.txc := rfl
@[simp] theorem State.bump_cal (a hi lo n : Nat) : (s.bump a hi lo n).cal = s.cal := rfl
@[simp] theorem State.bump_lnk (a hi lo n : Nat) : (s.bump a hi lo n).lnk = s.lnk := rfl
@[simp] theorem State.bump_ntime (a hi lo n : Nat) : (s.bump a hi lo n).ntime = s.ntime := rfl
@[simp] theorem State.bump_trk (a hi lo n : Nat) : (s.bump a hi lo n).trk = s.trk := rfl
@[simp] theorem State.bump_sched (a hi lo n : Nat) : (s.bump a hi lo n).sched = s.sched := rfl
@[simp] theorem State.bump_rtc (a hi lo n : Nat) : (s.bump a hi lo n).rtc = s.rtc := rfl
@[simp] theorem State.bump_pwr (a hi lo n : Nat) : (s.bump a hi lo n).pwr = s.pwr := rfl
@[simp] theorem State.bump_hub (a hi lo n : Nat) : (s.bump a hi lo n).hub = s.hub := rfl
@[simp] theorem State.bump_timers (a hi lo n : Nat) : (s.bump a hi lo n).timers = s.timers := rfl
@[simp] theorem State.bump_twb (a hi lo n : Nat) : (s.bump a hi lo n).twb = s.twb := rfl
@[simp] theorem State.bump_csp (a hi lo n : Nat) : (s.bump a hi lo n).csp = s.csp := rfl
@[simp] theorem State.bump_hwn (a hi lo n : Nat) : (s.bump a hi lo n).hwn = s.hwn := rfl
@[simp] theorem State.bump_pins (a hi lo n : Nat) : (s.bump a hi lo n).pins = s.pins := rfl
@[simp] theorem State.bump_keys (a hi lo n : Nat) : (s.bump a hi lo n).keys = s.keys := rfl
@[simp] theorem State.bump_svc (a hi lo n : Nat) : (s.bump a hi lo n).svc = s.svc := rfl
@[simp] theorem State.bump_heldAcc (a hi lo n : Nat) : (s.bump a hi lo n).heldAcc = s.heldAcc := rfl
@[simp] theorem State.bump_rdata (a hi lo n : Nat) : (s.bump a hi lo n).rdata = s.rdata := rfl
@[simp] theorem State.bump_nt (a hi lo n : Nat) : (s.bump a hi lo n).nt = s.nt := rfl
@[simp] theorem State.bump_uptime (a hi lo n : Nat) : (s.bump a hi lo n).uptime = s.uptime := rfl
@[simp] theorem State.bump_free (a hi lo n : Nat) : (s.bump a hi lo n).free = s.free := rfl
@[simp] theorem State.bump_pending (a hi lo n : Nat) : (s.bump a hi lo n).pending = s.pending := rfl

/-! `State.resetRegs` -/
@[simp] theorem State.resetRegs_mem (a n : Nat) : (s.resetRegs a n).mem = s.mem := rfl
@[simp] theorem State.resetRegs_doms (a n : Nat) : (s.resetRegs a n).doms = s.doms := rfl
@[simp] theorem State.resetRegs_cores (a n : Nat) : (s.resetRegs a n).cores = s.cores := rfl
@[simp] theorem State.resetRegs_pair (a n : Nat) : (s.resetRegs a n).pair = s.pair := rfl
@[simp] theorem State.resetRegs_boot (a n : Nat) : (s.resetRegs a n).boot = s.boot := rfl
@[simp] theorem State.resetRegs_stg (a n : Nat) : (s.resetRegs a n).stg = s.stg := rfl
@[simp] theorem State.resetRegs_dram (a n : Nat) : (s.resetRegs a n).dram = s.dram := rfl
@[simp] theorem State.resetRegs_nvm (a n : Nat) : (s.resetRegs a n).nvm = s.nvm := rfl
@[simp] theorem State.resetRegs_flt (a n : Nat) : (s.resetRegs a n).flt = s.flt := rfl
@[simp] theorem State.resetRegs_cueQ (a n : Nat) : (s.resetRegs a n).cueQ = s.cueQ := rfl
@[simp] theorem State.resetRegs_cells (a n : Nat) : (s.resetRegs a n).cells = s.cells := rfl
@[simp] theorem State.resetRegs_rxc (a n : Nat) : (s.resetRegs a n).rxc = s.rxc := rfl
@[simp] theorem State.resetRegs_fec (a n : Nat) : (s.resetRegs a n).fec = s.fec := rfl
@[simp] theorem State.resetRegs_txc (a n : Nat) : (s.resetRegs a n).txc = s.txc := rfl
@[simp] theorem State.resetRegs_cal (a n : Nat) : (s.resetRegs a n).cal = s.cal := rfl
@[simp] theorem State.resetRegs_lnk (a n : Nat) : (s.resetRegs a n).lnk = s.lnk := rfl
@[simp] theorem State.resetRegs_ntime (a n : Nat) : (s.resetRegs a n).ntime = s.ntime := rfl
@[simp] theorem State.resetRegs_trk (a n : Nat) : (s.resetRegs a n).trk = s.trk := rfl
@[simp] theorem State.resetRegs_sched (a n : Nat) : (s.resetRegs a n).sched = s.sched := rfl
@[simp] theorem State.resetRegs_rtc (a n : Nat) : (s.resetRegs a n).rtc = s.rtc := rfl
@[simp] theorem State.resetRegs_pwr (a n : Nat) : (s.resetRegs a n).pwr = s.pwr := rfl
@[simp] theorem State.resetRegs_hub (a n : Nat) : (s.resetRegs a n).hub = s.hub := rfl
@[simp] theorem State.resetRegs_timers (a n : Nat) : (s.resetRegs a n).timers = s.timers := rfl
@[simp] theorem State.resetRegs_twb (a n : Nat) : (s.resetRegs a n).twb = s.twb := rfl
@[simp] theorem State.resetRegs_csp (a n : Nat) : (s.resetRegs a n).csp = s.csp := rfl
@[simp] theorem State.resetRegs_hwn (a n : Nat) : (s.resetRegs a n).hwn = s.hwn := rfl
@[simp] theorem State.resetRegs_pins (a n : Nat) : (s.resetRegs a n).pins = s.pins := rfl
@[simp] theorem State.resetRegs_keys (a n : Nat) : (s.resetRegs a n).keys = s.keys := rfl
@[simp] theorem State.resetRegs_svc (a n : Nat) : (s.resetRegs a n).svc = s.svc := rfl
@[simp] theorem State.resetRegs_heldAcc (a n : Nat) : (s.resetRegs a n).heldAcc = s.heldAcc := rfl
@[simp] theorem State.resetRegs_rdata (a n : Nat) : (s.resetRegs a n).rdata = s.rdata := rfl
@[simp] theorem State.resetRegs_nt (a n : Nat) : (s.resetRegs a n).nt = s.nt := rfl
@[simp] theorem State.resetRegs_uptime (a n : Nat) : (s.resetRegs a n).uptime = s.uptime := rfl
@[simp] theorem State.resetRegs_free (a n : Nat) : (s.resetRegs a n).free = s.free := rfl
@[simp] theorem State.resetRegs_pending (a n : Nat) : (s.resetRegs a n).pending = s.pending := rfl

/-! `State.setByte` -/
@[simp] theorem State.setByte_regs (a : Nat) (v : Byte) : (s.setByte a v).regs = s.regs := rfl
@[simp] theorem State.setByte_mem (a : Nat) (v : Byte) : (s.setByte a v).mem = sparseSet memDefault s.mem a v := rfl
@[simp] theorem State.setByte_doms (a : Nat) (v : Byte) : (s.setByte a v).doms = s.doms := rfl
@[simp] theorem State.setByte_cores (a : Nat) (v : Byte) : (s.setByte a v).cores = s.cores := rfl
@[simp] theorem State.setByte_pair (a : Nat) (v : Byte) : (s.setByte a v).pair = s.pair := rfl
@[simp] theorem State.setByte_boot (a : Nat) (v : Byte) : (s.setByte a v).boot = s.boot := rfl
@[simp] theorem State.setByte_stg (a : Nat) (v : Byte) : (s.setByte a v).stg = s.stg := rfl
@[simp] theorem State.setByte_dram (a : Nat) (v : Byte) : (s.setByte a v).dram = s.dram := rfl
@[simp] theorem State.setByte_nvm (a : Nat) (v : Byte) : (s.setByte a v).nvm = s.nvm := rfl
@[simp] theorem State.setByte_flt (a : Nat) (v : Byte) : (s.setByte a v).flt = s.flt := rfl
@[simp] theorem State.setByte_cueQ (a : Nat) (v : Byte) : (s.setByte a v).cueQ = s.cueQ := rfl
@[simp] theorem State.setByte_cells (a : Nat) (v : Byte) : (s.setByte a v).cells = s.cells := rfl
@[simp] theorem State.setByte_rxc (a : Nat) (v : Byte) : (s.setByte a v).rxc = s.rxc := rfl
@[simp] theorem State.setByte_fec (a : Nat) (v : Byte) : (s.setByte a v).fec = s.fec := rfl
@[simp] theorem State.setByte_txc (a : Nat) (v : Byte) : (s.setByte a v).txc = s.txc := rfl
@[simp] theorem State.setByte_cal (a : Nat) (v : Byte) : (s.setByte a v).cal = s.cal := rfl
@[simp] theorem State.setByte_lnk (a : Nat) (v : Byte) : (s.setByte a v).lnk = s.lnk := rfl
@[simp] theorem State.setByte_ntime (a : Nat) (v : Byte) : (s.setByte a v).ntime = s.ntime := rfl
@[simp] theorem State.setByte_trk (a : Nat) (v : Byte) : (s.setByte a v).trk = s.trk := rfl
@[simp] theorem State.setByte_sched (a : Nat) (v : Byte) : (s.setByte a v).sched = s.sched := rfl
@[simp] theorem State.setByte_rtc (a : Nat) (v : Byte) : (s.setByte a v).rtc = s.rtc := rfl
@[simp] theorem State.setByte_pwr (a : Nat) (v : Byte) : (s.setByte a v).pwr = s.pwr := rfl
@[simp] theorem State.setByte_hub (a : Nat) (v : Byte) : (s.setByte a v).hub = s.hub := rfl
@[simp] theorem State.setByte_timers (a : Nat) (v : Byte) : (s.setByte a v).timers = s.timers := rfl
@[simp] theorem State.setByte_twb (a : Nat) (v : Byte) : (s.setByte a v).twb = s.twb := rfl
@[simp] theorem State.setByte_csp (a : Nat) (v : Byte) : (s.setByte a v).csp = s.csp := rfl
@[simp] theorem State.setByte_hwn (a : Nat) (v : Byte) : (s.setByte a v).hwn = s.hwn := rfl
@[simp] theorem State.setByte_pins (a : Nat) (v : Byte) : (s.setByte a v).pins = s.pins := rfl
@[simp] theorem State.setByte_keys (a : Nat) (v : Byte) : (s.setByte a v).keys = s.keys := rfl
@[simp] theorem State.setByte_svc (a : Nat) (v : Byte) : (s.setByte a v).svc = s.svc := rfl
@[simp] theorem State.setByte_heldAcc (a : Nat) (v : Byte) : (s.setByte a v).heldAcc = s.heldAcc := rfl
@[simp] theorem State.setByte_rdata (a : Nat) (v : Byte) : (s.setByte a v).rdata = s.rdata := rfl
@[simp] theorem State.setByte_nt (a : Nat) (v : Byte) : (s.setByte a v).nt = s.nt := rfl
@[simp] theorem State.setByte_uptime (a : Nat) (v : Byte) : (s.setByte a v).uptime = s.uptime := rfl
@[simp] theorem State.setByte_free (a : Nat) (v : Byte) : (s.setByte a v).free = s.free := rfl
@[simp] theorem State.setByte_pending (a : Nat) (v : Byte) : (s.setByte a v).pending = s.pending := rfl

/-! `State.setCore` -/
@[simp] theorem State.setCore_regs (p : Fin 6) (c : Core) : (s.setCore p c).regs = s.regs := rfl
@[simp] theorem State.setCore_mem (p : Fin 6) (c : Core) : (s.setCore p c).mem = s.mem := rfl
@[simp] theorem State.setCore_doms (p : Fin 6) (c : Core) : (s.setCore p c).doms = s.doms := rfl
@[simp] theorem State.setCore_cores (p : Fin 6) (c : Core) : (s.setCore p c).cores = s.cores.set p c := rfl
@[simp] theorem State.setCore_pair (p : Fin 6) (c : Core) : (s.setCore p c).pair = s.pair := rfl
@[simp] theorem State.setCore_boot (p : Fin 6) (c : Core) : (s.setCore p c).boot = s.boot := rfl
@[simp] theorem State.setCore_stg (p : Fin 6) (c : Core) : (s.setCore p c).stg = s.stg := rfl
@[simp] theorem State.setCore_dram (p : Fin 6) (c : Core) : (s.setCore p c).dram = s.dram := rfl
@[simp] theorem State.setCore_nvm (p : Fin 6) (c : Core) : (s.setCore p c).nvm = s.nvm := rfl
@[simp] theorem State.setCore_flt (p : Fin 6) (c : Core) : (s.setCore p c).flt = s.flt := rfl
@[simp] theorem State.setCore_cueQ (p : Fin 6) (c : Core) : (s.setCore p c).cueQ = s.cueQ := rfl
@[simp] theorem State.setCore_cells (p : Fin 6) (c : Core) : (s.setCore p c).cells = s.cells := rfl
@[simp] theorem State.setCore_rxc (p : Fin 6) (c : Core) : (s.setCore p c).rxc = s.rxc := rfl
@[simp] theorem State.setCore_fec (p : Fin 6) (c : Core) : (s.setCore p c).fec = s.fec := rfl
@[simp] theorem State.setCore_txc (p : Fin 6) (c : Core) : (s.setCore p c).txc = s.txc := rfl
@[simp] theorem State.setCore_cal (p : Fin 6) (c : Core) : (s.setCore p c).cal = s.cal := rfl
@[simp] theorem State.setCore_lnk (p : Fin 6) (c : Core) : (s.setCore p c).lnk = s.lnk := rfl
@[simp] theorem State.setCore_ntime (p : Fin 6) (c : Core) : (s.setCore p c).ntime = s.ntime := rfl
@[simp] theorem State.setCore_trk (p : Fin 6) (c : Core) : (s.setCore p c).trk = s.trk := rfl
@[simp] theorem State.setCore_sched (p : Fin 6) (c : Core) : (s.setCore p c).sched = s.sched := rfl
@[simp] theorem State.setCore_rtc (p : Fin 6) (c : Core) : (s.setCore p c).rtc = s.rtc := rfl
@[simp] theorem State.setCore_pwr (p : Fin 6) (c : Core) : (s.setCore p c).pwr = s.pwr := rfl
@[simp] theorem State.setCore_hub (p : Fin 6) (c : Core) : (s.setCore p c).hub = s.hub := rfl
@[simp] theorem State.setCore_timers (p : Fin 6) (c : Core) : (s.setCore p c).timers = s.timers := rfl
@[simp] theorem State.setCore_twb (p : Fin 6) (c : Core) : (s.setCore p c).twb = s.twb := rfl
@[simp] theorem State.setCore_csp (p : Fin 6) (c : Core) : (s.setCore p c).csp = s.csp := rfl
@[simp] theorem State.setCore_hwn (p : Fin 6) (c : Core) : (s.setCore p c).hwn = s.hwn := rfl
@[simp] theorem State.setCore_pins (p : Fin 6) (c : Core) : (s.setCore p c).pins = s.pins := rfl
@[simp] theorem State.setCore_keys (p : Fin 6) (c : Core) : (s.setCore p c).keys = s.keys := rfl
@[simp] theorem State.setCore_svc (p : Fin 6) (c : Core) : (s.setCore p c).svc = s.svc := rfl
@[simp] theorem State.setCore_heldAcc (p : Fin 6) (c : Core) : (s.setCore p c).heldAcc = s.heldAcc := rfl
@[simp] theorem State.setCore_rdata (p : Fin 6) (c : Core) : (s.setCore p c).rdata = s.rdata := rfl
@[simp] theorem State.setCore_nt (p : Fin 6) (c : Core) : (s.setCore p c).nt = s.nt := rfl
@[simp] theorem State.setCore_uptime (p : Fin 6) (c : Core) : (s.setCore p c).uptime = s.uptime := rfl
@[simp] theorem State.setCore_free (p : Fin 6) (c : Core) : (s.setCore p c).free = s.free := rfl
@[simp] theorem State.setCore_pending (p : Fin 6) (c : Core) : (s.setCore p c).pending = s.pending := rfl

/-! `State.upCore` -/
@[simp] theorem State.upCore_regs (p : Fin 6) (f : Core → Core) : (s.upCore p f).regs = s.regs := rfl
@[simp] theorem State.upCore_mem (p : Fin 6) (f : Core → Core) : (s.upCore p f).mem = s.mem := rfl
@[simp] theorem State.upCore_doms (p : Fin 6) (f : Core → Core) : (s.upCore p f).doms = s.doms := rfl
@[simp] theorem State.upCore_cores (p : Fin 6) (f : Core → Core) : (s.upCore p f).cores = s.cores.set p (f (s.core p)) := rfl
@[simp] theorem State.upCore_pair (p : Fin 6) (f : Core → Core) : (s.upCore p f).pair = s.pair := rfl
@[simp] theorem State.upCore_boot (p : Fin 6) (f : Core → Core) : (s.upCore p f).boot = s.boot := rfl
@[simp] theorem State.upCore_stg (p : Fin 6) (f : Core → Core) : (s.upCore p f).stg = s.stg := rfl
@[simp] theorem State.upCore_dram (p : Fin 6) (f : Core → Core) : (s.upCore p f).dram = s.dram := rfl
@[simp] theorem State.upCore_nvm (p : Fin 6) (f : Core → Core) : (s.upCore p f).nvm = s.nvm := rfl
@[simp] theorem State.upCore_flt (p : Fin 6) (f : Core → Core) : (s.upCore p f).flt = s.flt := rfl
@[simp] theorem State.upCore_cueQ (p : Fin 6) (f : Core → Core) : (s.upCore p f).cueQ = s.cueQ := rfl
@[simp] theorem State.upCore_cells (p : Fin 6) (f : Core → Core) : (s.upCore p f).cells = s.cells := rfl
@[simp] theorem State.upCore_rxc (p : Fin 6) (f : Core → Core) : (s.upCore p f).rxc = s.rxc := rfl
@[simp] theorem State.upCore_fec (p : Fin 6) (f : Core → Core) : (s.upCore p f).fec = s.fec := rfl
@[simp] theorem State.upCore_txc (p : Fin 6) (f : Core → Core) : (s.upCore p f).txc = s.txc := rfl
@[simp] theorem State.upCore_cal (p : Fin 6) (f : Core → Core) : (s.upCore p f).cal = s.cal := rfl
@[simp] theorem State.upCore_lnk (p : Fin 6) (f : Core → Core) : (s.upCore p f).lnk = s.lnk := rfl
@[simp] theorem State.upCore_ntime (p : Fin 6) (f : Core → Core) : (s.upCore p f).ntime = s.ntime := rfl
@[simp] theorem State.upCore_trk (p : Fin 6) (f : Core → Core) : (s.upCore p f).trk = s.trk := rfl
@[simp] theorem State.upCore_sched (p : Fin 6) (f : Core → Core) : (s.upCore p f).sched = s.sched := rfl
@[simp] theorem State.upCore_rtc (p : Fin 6) (f : Core → Core) : (s.upCore p f).rtc = s.rtc := rfl
@[simp] theorem State.upCore_pwr (p : Fin 6) (f : Core → Core) : (s.upCore p f).pwr = s.pwr := rfl
@[simp] theorem State.upCore_hub (p : Fin 6) (f : Core → Core) : (s.upCore p f).hub = s.hub := rfl
@[simp] theorem State.upCore_timers (p : Fin 6) (f : Core → Core) : (s.upCore p f).timers = s.timers := rfl
@[simp] theorem State.upCore_twb (p : Fin 6) (f : Core → Core) : (s.upCore p f).twb = s.twb := rfl
@[simp] theorem State.upCore_csp (p : Fin 6) (f : Core → Core) : (s.upCore p f).csp = s.csp := rfl
@[simp] theorem State.upCore_hwn (p : Fin 6) (f : Core → Core) : (s.upCore p f).hwn = s.hwn := rfl
@[simp] theorem State.upCore_pins (p : Fin 6) (f : Core → Core) : (s.upCore p f).pins = s.pins := rfl
@[simp] theorem State.upCore_keys (p : Fin 6) (f : Core → Core) : (s.upCore p f).keys = s.keys := rfl
@[simp] theorem State.upCore_svc (p : Fin 6) (f : Core → Core) : (s.upCore p f).svc = s.svc := rfl
@[simp] theorem State.upCore_heldAcc (p : Fin 6) (f : Core → Core) : (s.upCore p f).heldAcc = s.heldAcc := rfl
@[simp] theorem State.upCore_rdata (p : Fin 6) (f : Core → Core) : (s.upCore p f).rdata = s.rdata := rfl
@[simp] theorem State.upCore_nt (p : Fin 6) (f : Core → Core) : (s.upCore p f).nt = s.nt := rfl
@[simp] theorem State.upCore_uptime (p : Fin 6) (f : Core → Core) : (s.upCore p f).uptime = s.uptime := rfl
@[simp] theorem State.upCore_free (p : Fin 6) (f : Core → Core) : (s.upCore p f).free = s.free := rfl
@[simp] theorem State.upCore_pending (p : Fin 6) (f : Core → Core) : (s.upCore p f).pending = s.pending := rfl

/-! `State.setDom` -/
@[simp] theorem State.setDom_regs (d : Nat) (c : DomCond) : (s.setDom d c).regs = s.regs := rfl
@[simp] theorem State.setDom_mem (d : Nat) (c : DomCond) : (s.setDom d c).mem = s.mem := rfl
@[simp] theorem State.setDom_doms (d : Nat) (c : DomCond) : (s.setDom d c).doms = modAt s.doms d (fun _ => c) := rfl
@[simp] theorem State.setDom_cores (d : Nat) (c : DomCond) : (s.setDom d c).cores = s.cores := rfl
@[simp] theorem State.setDom_pair (d : Nat) (c : DomCond) : (s.setDom d c).pair = s.pair := rfl
@[simp] theorem State.setDom_boot (d : Nat) (c : DomCond) : (s.setDom d c).boot = s.boot := rfl
@[simp] theorem State.setDom_stg (d : Nat) (c : DomCond) : (s.setDom d c).stg = s.stg := rfl
@[simp] theorem State.setDom_dram (d : Nat) (c : DomCond) : (s.setDom d c).dram = s.dram := rfl
@[simp] theorem State.setDom_nvm (d : Nat) (c : DomCond) : (s.setDom d c).nvm = s.nvm := rfl
@[simp] theorem State.setDom_flt (d : Nat) (c : DomCond) : (s.setDom d c).flt = s.flt := rfl
@[simp] theorem State.setDom_cueQ (d : Nat) (c : DomCond) : (s.setDom d c).cueQ = s.cueQ := rfl
@[simp] theorem State.setDom_cells (d : Nat) (c : DomCond) : (s.setDom d c).cells = s.cells := rfl
@[simp] theorem State.setDom_rxc (d : Nat) (c : DomCond) : (s.setDom d c).rxc = s.rxc := rfl
@[simp] theorem State.setDom_fec (d : Nat) (c : DomCond) : (s.setDom d c).fec = s.fec := rfl
@[simp] theorem State.setDom_txc (d : Nat) (c : DomCond) : (s.setDom d c).txc = s.txc := rfl
@[simp] theorem State.setDom_cal (d : Nat) (c : DomCond) : (s.setDom d c).cal = s.cal := rfl
@[simp] theorem State.setDom_lnk (d : Nat) (c : DomCond) : (s.setDom d c).lnk = s.lnk := rfl
@[simp] theorem State.setDom_ntime (d : Nat) (c : DomCond) : (s.setDom d c).ntime = s.ntime := rfl
@[simp] theorem State.setDom_trk (d : Nat) (c : DomCond) : (s.setDom d c).trk = s.trk := rfl
@[simp] theorem State.setDom_sched (d : Nat) (c : DomCond) : (s.setDom d c).sched = s.sched := rfl
@[simp] theorem State.setDom_rtc (d : Nat) (c : DomCond) : (s.setDom d c).rtc = s.rtc := rfl
@[simp] theorem State.setDom_pwr (d : Nat) (c : DomCond) : (s.setDom d c).pwr = s.pwr := rfl
@[simp] theorem State.setDom_hub (d : Nat) (c : DomCond) : (s.setDom d c).hub = s.hub := rfl
@[simp] theorem State.setDom_timers (d : Nat) (c : DomCond) : (s.setDom d c).timers = s.timers := rfl
@[simp] theorem State.setDom_twb (d : Nat) (c : DomCond) : (s.setDom d c).twb = s.twb := rfl
@[simp] theorem State.setDom_csp (d : Nat) (c : DomCond) : (s.setDom d c).csp = s.csp := rfl
@[simp] theorem State.setDom_hwn (d : Nat) (c : DomCond) : (s.setDom d c).hwn = s.hwn := rfl
@[simp] theorem State.setDom_pins (d : Nat) (c : DomCond) : (s.setDom d c).pins = s.pins := rfl
@[simp] theorem State.setDom_keys (d : Nat) (c : DomCond) : (s.setDom d c).keys = s.keys := rfl
@[simp] theorem State.setDom_svc (d : Nat) (c : DomCond) : (s.setDom d c).svc = s.svc := rfl
@[simp] theorem State.setDom_heldAcc (d : Nat) (c : DomCond) : (s.setDom d c).heldAcc = s.heldAcc := rfl
@[simp] theorem State.setDom_rdata (d : Nat) (c : DomCond) : (s.setDom d c).rdata = s.rdata := rfl
@[simp] theorem State.setDom_nt (d : Nat) (c : DomCond) : (s.setDom d c).nt = s.nt := rfl
@[simp] theorem State.setDom_uptime (d : Nat) (c : DomCond) : (s.setDom d c).uptime = s.uptime := rfl
@[simp] theorem State.setDom_free (d : Nat) (c : DomCond) : (s.setDom d c).free = s.free := rfl
@[simp] theorem State.setDom_pending (d : Nat) (c : DomCond) : (s.setDom d c).pending = s.pending := rfl

/-! `State.upStg` -/
@[simp] theorem State.upStg_regs (f : Stage → Stage) : (s.upStg f).regs = s.regs := rfl
@[simp] theorem State.upStg_mem (f : Stage → Stage) : (s.upStg f).mem = s.mem := rfl
@[simp] theorem State.upStg_doms (f : Stage → Stage) : (s.upStg f).doms = s.doms := rfl
@[simp] theorem State.upStg_cores (f : Stage → Stage) : (s.upStg f).cores = s.cores := rfl
@[simp] theorem State.upStg_pair (f : Stage → Stage) : (s.upStg f).pair = s.pair := rfl
@[simp] theorem State.upStg_boot (f : Stage → Stage) : (s.upStg f).boot = s.boot := rfl
@[simp] theorem State.upStg_stg (f : Stage → Stage) : (s.upStg f).stg = f s.stg := rfl
@[simp] theorem State.upStg_dram (f : Stage → Stage) : (s.upStg f).dram = s.dram := rfl
@[simp] theorem State.upStg_nvm (f : Stage → Stage) : (s.upStg f).nvm = s.nvm := rfl
@[simp] theorem State.upStg_flt (f : Stage → Stage) : (s.upStg f).flt = s.flt := rfl
@[simp] theorem State.upStg_cueQ (f : Stage → Stage) : (s.upStg f).cueQ = s.cueQ := rfl
@[simp] theorem State.upStg_cells (f : Stage → Stage) : (s.upStg f).cells = s.cells := rfl
@[simp] theorem State.upStg_rxc (f : Stage → Stage) : (s.upStg f).rxc = s.rxc := rfl
@[simp] theorem State.upStg_fec (f : Stage → Stage) : (s.upStg f).fec = s.fec := rfl
@[simp] theorem State.upStg_txc (f : Stage → Stage) : (s.upStg f).txc = s.txc := rfl
@[simp] theorem State.upStg_cal (f : Stage → Stage) : (s.upStg f).cal = s.cal := rfl
@[simp] theorem State.upStg_lnk (f : Stage → Stage) : (s.upStg f).lnk = s.lnk := rfl
@[simp] theorem State.upStg_ntime (f : Stage → Stage) : (s.upStg f).ntime = s.ntime := rfl
@[simp] theorem State.upStg_trk (f : Stage → Stage) : (s.upStg f).trk = s.trk := rfl
@[simp] theorem State.upStg_sched (f : Stage → Stage) : (s.upStg f).sched = s.sched := rfl
@[simp] theorem State.upStg_rtc (f : Stage → Stage) : (s.upStg f).rtc = s.rtc := rfl
@[simp] theorem State.upStg_pwr (f : Stage → Stage) : (s.upStg f).pwr = s.pwr := rfl
@[simp] theorem State.upStg_hub (f : Stage → Stage) : (s.upStg f).hub = s.hub := rfl
@[simp] theorem State.upStg_timers (f : Stage → Stage) : (s.upStg f).timers = s.timers := rfl
@[simp] theorem State.upStg_twb (f : Stage → Stage) : (s.upStg f).twb = s.twb := rfl
@[simp] theorem State.upStg_csp (f : Stage → Stage) : (s.upStg f).csp = s.csp := rfl
@[simp] theorem State.upStg_hwn (f : Stage → Stage) : (s.upStg f).hwn = s.hwn := rfl
@[simp] theorem State.upStg_pins (f : Stage → Stage) : (s.upStg f).pins = s.pins := rfl
@[simp] theorem State.upStg_keys (f : Stage → Stage) : (s.upStg f).keys = s.keys := rfl
@[simp] theorem State.upStg_svc (f : Stage → Stage) : (s.upStg f).svc = s.svc := rfl
@[simp] theorem State.upStg_heldAcc (f : Stage → Stage) : (s.upStg f).heldAcc = s.heldAcc := rfl
@[simp] theorem State.upStg_rdata (f : Stage → Stage) : (s.upStg f).rdata = s.rdata := rfl
@[simp] theorem State.upStg_nt (f : Stage → Stage) : (s.upStg f).nt = s.nt := rfl
@[simp] theorem State.upStg_uptime (f : Stage → Stage) : (s.upStg f).uptime = s.uptime := rfl
@[simp] theorem State.upStg_free (f : Stage → Stage) : (s.upStg f).free = s.free := rfl
@[simp] theorem State.upStg_pending (f : Stage → Stage) : (s.upStg f).pending = s.pending := rfl

/-! `State.upDram` -/
@[simp] theorem State.upDram_regs (f : Dram → Dram) : (s.upDram f).regs = s.regs := rfl
@[simp] theorem State.upDram_mem (f : Dram → Dram) : (s.upDram f).mem = s.mem := rfl
@[simp] theorem State.upDram_doms (f : Dram → Dram) : (s.upDram f).doms = s.doms := rfl
@[simp] theorem State.upDram_cores (f : Dram → Dram) : (s.upDram f).cores = s.cores := rfl
@[simp] theorem State.upDram_pair (f : Dram → Dram) : (s.upDram f).pair = s.pair := rfl
@[simp] theorem State.upDram_boot (f : Dram → Dram) : (s.upDram f).boot = s.boot := rfl
@[simp] theorem State.upDram_stg (f : Dram → Dram) : (s.upDram f).stg = s.stg := rfl
@[simp] theorem State.upDram_dram (f : Dram → Dram) : (s.upDram f).dram = f s.dram := rfl
@[simp] theorem State.upDram_nvm (f : Dram → Dram) : (s.upDram f).nvm = s.nvm := rfl
@[simp] theorem State.upDram_flt (f : Dram → Dram) : (s.upDram f).flt = s.flt := rfl
@[simp] theorem State.upDram_cueQ (f : Dram → Dram) : (s.upDram f).cueQ = s.cueQ := rfl
@[simp] theorem State.upDram_cells (f : Dram → Dram) : (s.upDram f).cells = s.cells := rfl
@[simp] theorem State.upDram_rxc (f : Dram → Dram) : (s.upDram f).rxc = s.rxc := rfl
@[simp] theorem State.upDram_fec (f : Dram → Dram) : (s.upDram f).fec = s.fec := rfl
@[simp] theorem State.upDram_txc (f : Dram → Dram) : (s.upDram f).txc = s.txc := rfl
@[simp] theorem State.upDram_cal (f : Dram → Dram) : (s.upDram f).cal = s.cal := rfl
@[simp] theorem State.upDram_lnk (f : Dram → Dram) : (s.upDram f).lnk = s.lnk := rfl
@[simp] theorem State.upDram_ntime (f : Dram → Dram) : (s.upDram f).ntime = s.ntime := rfl
@[simp] theorem State.upDram_trk (f : Dram → Dram) : (s.upDram f).trk = s.trk := rfl
@[simp] theorem State.upDram_sched (f : Dram → Dram) : (s.upDram f).sched = s.sched := rfl
@[simp] theorem State.upDram_rtc (f : Dram → Dram) : (s.upDram f).rtc = s.rtc := rfl
@[simp] theorem State.upDram_pwr (f : Dram → Dram) : (s.upDram f).pwr = s.pwr := rfl
@[simp] theorem State.upDram_hub (f : Dram → Dram) : (s.upDram f).hub = s.hub := rfl
@[simp] theorem State.upDram_timers (f : Dram → Dram) : (s.upDram f).timers = s.timers := rfl
@[simp] theorem State.upDram_twb (f : Dram → Dram) : (s.upDram f).twb = s.twb := rfl
@[simp] theorem State.upDram_csp (f : Dram → Dram) : (s.upDram f).csp = s.csp := rfl
@[simp] theorem State.upDram_hwn (f : Dram → Dram) : (s.upDram f).hwn = s.hwn := rfl
@[simp] theorem State.upDram_pins (f : Dram → Dram) : (s.upDram f).pins = s.pins := rfl
@[simp] theorem State.upDram_keys (f : Dram → Dram) : (s.upDram f).keys = s.keys := rfl
@[simp] theorem State.upDram_svc (f : Dram → Dram) : (s.upDram f).svc = s.svc := rfl
@[simp] theorem State.upDram_heldAcc (f : Dram → Dram) : (s.upDram f).heldAcc = s.heldAcc := rfl
@[simp] theorem State.upDram_rdata (f : Dram → Dram) : (s.upDram f).rdata = s.rdata := rfl
@[simp] theorem State.upDram_nt (f : Dram → Dram) : (s.upDram f).nt = s.nt := rfl
@[simp] theorem State.upDram_uptime (f : Dram → Dram) : (s.upDram f).uptime = s.uptime := rfl
@[simp] theorem State.upDram_free (f : Dram → Dram) : (s.upDram f).free = s.free := rfl
@[simp] theorem State.upDram_pending (f : Dram → Dram) : (s.upDram f).pending = s.pending := rfl

/-! `State.upNvm` -/
@[simp] theorem State.upNvm_regs (f : Nvm → Nvm) : (s.upNvm f).regs = s.regs := rfl
@[simp] theorem State.upNvm_mem (f : Nvm → Nvm) : (s.upNvm f).mem = s.mem := rfl
@[simp] theorem State.upNvm_doms (f : Nvm → Nvm) : (s.upNvm f).doms = s.doms := rfl
@[simp] theorem State.upNvm_cores (f : Nvm → Nvm) : (s.upNvm f).cores = s.cores := rfl
@[simp] theorem State.upNvm_pair (f : Nvm → Nvm) : (s.upNvm f).pair = s.pair := rfl
@[simp] theorem State.upNvm_boot (f : Nvm → Nvm) : (s.upNvm f).boot = s.boot := rfl
@[simp] theorem State.upNvm_stg (f : Nvm → Nvm) : (s.upNvm f).stg = s.stg := rfl
@[simp] theorem State.upNvm_dram (f : Nvm → Nvm) : (s.upNvm f).dram = s.dram := rfl
@[simp] theorem State.upNvm_nvm (f : Nvm → Nvm) : (s.upNvm f).nvm = f s.nvm := rfl
@[simp] theorem State.upNvm_flt (f : Nvm → Nvm) : (s.upNvm f).flt = s.flt := rfl
@[simp] theorem State.upNvm_cueQ (f : Nvm → Nvm) : (s.upNvm f).cueQ = s.cueQ := rfl
@[simp] theorem State.upNvm_cells (f : Nvm → Nvm) : (s.upNvm f).cells = s.cells := rfl
@[simp] theorem State.upNvm_rxc (f : Nvm → Nvm) : (s.upNvm f).rxc = s.rxc := rfl
@[simp] theorem State.upNvm_fec (f : Nvm → Nvm) : (s.upNvm f).fec = s.fec := rfl
@[simp] theorem State.upNvm_txc (f : Nvm → Nvm) : (s.upNvm f).txc = s.txc := rfl
@[simp] theorem State.upNvm_cal (f : Nvm → Nvm) : (s.upNvm f).cal = s.cal := rfl
@[simp] theorem State.upNvm_lnk (f : Nvm → Nvm) : (s.upNvm f).lnk = s.lnk := rfl
@[simp] theorem State.upNvm_ntime (f : Nvm → Nvm) : (s.upNvm f).ntime = s.ntime := rfl
@[simp] theorem State.upNvm_trk (f : Nvm → Nvm) : (s.upNvm f).trk = s.trk := rfl
@[simp] theorem State.upNvm_sched (f : Nvm → Nvm) : (s.upNvm f).sched = s.sched := rfl
@[simp] theorem State.upNvm_rtc (f : Nvm → Nvm) : (s.upNvm f).rtc = s.rtc := rfl
@[simp] theorem State.upNvm_pwr (f : Nvm → Nvm) : (s.upNvm f).pwr = s.pwr := rfl
@[simp] theorem State.upNvm_hub (f : Nvm → Nvm) : (s.upNvm f).hub = s.hub := rfl
@[simp] theorem State.upNvm_timers (f : Nvm → Nvm) : (s.upNvm f).timers = s.timers := rfl
@[simp] theorem State.upNvm_twb (f : Nvm → Nvm) : (s.upNvm f).twb = s.twb := rfl
@[simp] theorem State.upNvm_csp (f : Nvm → Nvm) : (s.upNvm f).csp = s.csp := rfl
@[simp] theorem State.upNvm_hwn (f : Nvm → Nvm) : (s.upNvm f).hwn = s.hwn := rfl
@[simp] theorem State.upNvm_pins (f : Nvm → Nvm) : (s.upNvm f).pins = s.pins := rfl
@[simp] theorem State.upNvm_keys (f : Nvm → Nvm) : (s.upNvm f).keys = s.keys := rfl
@[simp] theorem State.upNvm_svc (f : Nvm → Nvm) : (s.upNvm f).svc = s.svc := rfl
@[simp] theorem State.upNvm_heldAcc (f : Nvm → Nvm) : (s.upNvm f).heldAcc = s.heldAcc := rfl
@[simp] theorem State.upNvm_rdata (f : Nvm → Nvm) : (s.upNvm f).rdata = s.rdata := rfl
@[simp] theorem State.upNvm_nt (f : Nvm → Nvm) : (s.upNvm f).nt = s.nt := rfl
@[simp] theorem State.upNvm_uptime (f : Nvm → Nvm) : (s.upNvm f).uptime = s.uptime := rfl
@[simp] theorem State.upNvm_free (f : Nvm → Nvm) : (s.upNvm f).free = s.free := rfl
@[simp] theorem State.upNvm_pending (f : Nvm → Nvm) : (s.upNvm f).pending = s.pending := rfl

/-! `State.upPair` -/
@[simp] theorem State.upPair_regs (f : Lockstep → Lockstep) : (s.upPair f).regs = s.regs := rfl
@[simp] theorem State.upPair_mem (f : Lockstep → Lockstep) : (s.upPair f).mem = s.mem := rfl
@[simp] theorem State.upPair_doms (f : Lockstep → Lockstep) : (s.upPair f).doms = s.doms := rfl
@[simp] theorem State.upPair_cores (f : Lockstep → Lockstep) : (s.upPair f).cores = s.cores := rfl
@[simp] theorem State.upPair_pair (f : Lockstep → Lockstep) : (s.upPair f).pair = f s.pair := rfl
@[simp] theorem State.upPair_boot (f : Lockstep → Lockstep) : (s.upPair f).boot = s.boot := rfl
@[simp] theorem State.upPair_stg (f : Lockstep → Lockstep) : (s.upPair f).stg = s.stg := rfl
@[simp] theorem State.upPair_dram (f : Lockstep → Lockstep) : (s.upPair f).dram = s.dram := rfl
@[simp] theorem State.upPair_nvm (f : Lockstep → Lockstep) : (s.upPair f).nvm = s.nvm := rfl
@[simp] theorem State.upPair_flt (f : Lockstep → Lockstep) : (s.upPair f).flt = s.flt := rfl
@[simp] theorem State.upPair_cueQ (f : Lockstep → Lockstep) : (s.upPair f).cueQ = s.cueQ := rfl
@[simp] theorem State.upPair_cells (f : Lockstep → Lockstep) : (s.upPair f).cells = s.cells := rfl
@[simp] theorem State.upPair_rxc (f : Lockstep → Lockstep) : (s.upPair f).rxc = s.rxc := rfl
@[simp] theorem State.upPair_fec (f : Lockstep → Lockstep) : (s.upPair f).fec = s.fec := rfl
@[simp] theorem State.upPair_txc (f : Lockstep → Lockstep) : (s.upPair f).txc = s.txc := rfl
@[simp] theorem State.upPair_cal (f : Lockstep → Lockstep) : (s.upPair f).cal = s.cal := rfl
@[simp] theorem State.upPair_lnk (f : Lockstep → Lockstep) : (s.upPair f).lnk = s.lnk := rfl
@[simp] theorem State.upPair_ntime (f : Lockstep → Lockstep) : (s.upPair f).ntime = s.ntime := rfl
@[simp] theorem State.upPair_trk (f : Lockstep → Lockstep) : (s.upPair f).trk = s.trk := rfl
@[simp] theorem State.upPair_sched (f : Lockstep → Lockstep) : (s.upPair f).sched = s.sched := rfl
@[simp] theorem State.upPair_rtc (f : Lockstep → Lockstep) : (s.upPair f).rtc = s.rtc := rfl
@[simp] theorem State.upPair_pwr (f : Lockstep → Lockstep) : (s.upPair f).pwr = s.pwr := rfl
@[simp] theorem State.upPair_hub (f : Lockstep → Lockstep) : (s.upPair f).hub = s.hub := rfl
@[simp] theorem State.upPair_timers (f : Lockstep → Lockstep) : (s.upPair f).timers = s.timers := rfl
@[simp] theorem State.upPair_twb (f : Lockstep → Lockstep) : (s.upPair f).twb = s.twb := rfl
@[simp] theorem State.upPair_csp (f : Lockstep → Lockstep) : (s.upPair f).csp = s.csp := rfl
@[simp] theorem State.upPair_hwn (f : Lockstep → Lockstep) : (s.upPair f).hwn = s.hwn := rfl
@[simp] theorem State.upPair_pins (f : Lockstep → Lockstep) : (s.upPair f).pins = s.pins := rfl
@[simp] theorem State.upPair_keys (f : Lockstep → Lockstep) : (s.upPair f).keys = s.keys := rfl
@[simp] theorem State.upPair_svc (f : Lockstep → Lockstep) : (s.upPair f).svc = s.svc := rfl
@[simp] theorem State.upPair_heldAcc (f : Lockstep → Lockstep) : (s.upPair f).heldAcc = s.heldAcc := rfl
@[simp] theorem State.upPair_rdata (f : Lockstep → Lockstep) : (s.upPair f).rdata = s.rdata := rfl
@[simp] theorem State.upPair_nt (f : Lockstep → Lockstep) : (s.upPair f).nt = s.nt := rfl
@[simp] theorem State.upPair_uptime (f : Lockstep → Lockstep) : (s.upPair f).uptime = s.uptime := rfl
@[simp] theorem State.upPair_free (f : Lockstep → Lockstep) : (s.upPair f).free = s.free := rfl
@[simp] theorem State.upPair_pending (f : Lockstep → Lockstep) : (s.upPair f).pending = s.pending := rfl

/-! `State.upBoot` -/
@[simp] theorem State.upBoot_regs (f : Boot → Boot) : (s.upBoot f).regs = s.regs := rfl
@[simp] theorem State.upBoot_mem (f : Boot → Boot) : (s.upBoot f).mem = s.mem := rfl
@[simp] theorem State.upBoot_doms (f : Boot → Boot) : (s.upBoot f).doms = s.doms := rfl
@[simp] theorem State.upBoot_cores (f : Boot → Boot) : (s.upBoot f).cores = s.cores := rfl
@[simp] theorem State.upBoot_pair (f : Boot → Boot) : (s.upBoot f).pair = s.pair := rfl
@[simp] theorem State.upBoot_boot (f : Boot → Boot) : (s.upBoot f).boot = f s.boot := rfl
@[simp] theorem State.upBoot_stg (f : Boot → Boot) : (s.upBoot f).stg = s.stg := rfl
@[simp] theorem State.upBoot_dram (f : Boot → Boot) : (s.upBoot f).dram = s.dram := rfl
@[simp] theorem State.upBoot_nvm (f : Boot → Boot) : (s.upBoot f).nvm = s.nvm := rfl
@[simp] theorem State.upBoot_flt (f : Boot → Boot) : (s.upBoot f).flt = s.flt := rfl
@[simp] theorem State.upBoot_cueQ (f : Boot → Boot) : (s.upBoot f).cueQ = s.cueQ := rfl
@[simp] theorem State.upBoot_cells (f : Boot → Boot) : (s.upBoot f).cells = s.cells := rfl
@[simp] theorem State.upBoot_rxc (f : Boot → Boot) : (s.upBoot f).rxc = s.rxc := rfl
@[simp] theorem State.upBoot_fec (f : Boot → Boot) : (s.upBoot f).fec = s.fec := rfl
@[simp] theorem State.upBoot_txc (f : Boot → Boot) : (s.upBoot f).txc = s.txc := rfl
@[simp] theorem State.upBoot_cal (f : Boot → Boot) : (s.upBoot f).cal = s.cal := rfl
@[simp] theorem State.upBoot_lnk (f : Boot → Boot) : (s.upBoot f).lnk = s.lnk := rfl
@[simp] theorem State.upBoot_ntime (f : Boot → Boot) : (s.upBoot f).ntime = s.ntime := rfl
@[simp] theorem State.upBoot_trk (f : Boot → Boot) : (s.upBoot f).trk = s.trk := rfl
@[simp] theorem State.upBoot_sched (f : Boot → Boot) : (s.upBoot f).sched = s.sched := rfl
@[simp] theorem State.upBoot_rtc (f : Boot → Boot) : (s.upBoot f).rtc = s.rtc := rfl
@[simp] theorem State.upBoot_pwr (f : Boot → Boot) : (s.upBoot f).pwr = s.pwr := rfl
@[simp] theorem State.upBoot_hub (f : Boot → Boot) : (s.upBoot f).hub = s.hub := rfl
@[simp] theorem State.upBoot_timers (f : Boot → Boot) : (s.upBoot f).timers = s.timers := rfl
@[simp] theorem State.upBoot_twb (f : Boot → Boot) : (s.upBoot f).twb = s.twb := rfl
@[simp] theorem State.upBoot_csp (f : Boot → Boot) : (s.upBoot f).csp = s.csp := rfl
@[simp] theorem State.upBoot_hwn (f : Boot → Boot) : (s.upBoot f).hwn = s.hwn := rfl
@[simp] theorem State.upBoot_pins (f : Boot → Boot) : (s.upBoot f).pins = s.pins := rfl
@[simp] theorem State.upBoot_keys (f : Boot → Boot) : (s.upBoot f).keys = s.keys := rfl
@[simp] theorem State.upBoot_svc (f : Boot → Boot) : (s.upBoot f).svc = s.svc := rfl
@[simp] theorem State.upBoot_heldAcc (f : Boot → Boot) : (s.upBoot f).heldAcc = s.heldAcc := rfl
@[simp] theorem State.upBoot_rdata (f : Boot → Boot) : (s.upBoot f).rdata = s.rdata := rfl
@[simp] theorem State.upBoot_nt (f : Boot → Boot) : (s.upBoot f).nt = s.nt := rfl
@[simp] theorem State.upBoot_uptime (f : Boot → Boot) : (s.upBoot f).uptime = s.uptime := rfl
@[simp] theorem State.upBoot_free (f : Boot → Boot) : (s.upBoot f).free = s.free := rfl
@[simp] theorem State.upBoot_pending (f : Boot → Boot) : (s.upBoot f).pending = s.pending := rfl

/-! `State.upLnk` -/
@[simp] theorem State.upLnk_regs (f : Lnk → Lnk) : (s.upLnk f).regs = s.regs := rfl
@[simp] theorem State.upLnk_mem (f : Lnk → Lnk) : (s.upLnk f).mem = s.mem := rfl
@[simp] theorem State.upLnk_doms (f : Lnk → Lnk) : (s.upLnk f).doms = s.doms := rfl
@[simp] theorem State.upLnk_cores (f : Lnk → Lnk) : (s.upLnk f).cores = s.cores := rfl
@[simp] theorem State.upLnk_pair (f : Lnk → Lnk) : (s.upLnk f).pair = s.pair := rfl
@[simp] theorem State.upLnk_boot (f : Lnk → Lnk) : (s.upLnk f).boot = s.boot := rfl
@[simp] theorem State.upLnk_stg (f : Lnk → Lnk) : (s.upLnk f).stg = s.stg := rfl
@[simp] theorem State.upLnk_dram (f : Lnk → Lnk) : (s.upLnk f).dram = s.dram := rfl
@[simp] theorem State.upLnk_nvm (f : Lnk → Lnk) : (s.upLnk f).nvm = s.nvm := rfl
@[simp] theorem State.upLnk_flt (f : Lnk → Lnk) : (s.upLnk f).flt = s.flt := rfl
@[simp] theorem State.upLnk_cueQ (f : Lnk → Lnk) : (s.upLnk f).cueQ = s.cueQ := rfl
@[simp] theorem State.upLnk_cells (f : Lnk → Lnk) : (s.upLnk f).cells = s.cells := rfl
@[simp] theorem State.upLnk_rxc (f : Lnk → Lnk) : (s.upLnk f).rxc = s.rxc := rfl
@[simp] theorem State.upLnk_fec (f : Lnk → Lnk) : (s.upLnk f).fec = s.fec := rfl
@[simp] theorem State.upLnk_txc (f : Lnk → Lnk) : (s.upLnk f).txc = s.txc := rfl
@[simp] theorem State.upLnk_cal (f : Lnk → Lnk) : (s.upLnk f).cal = s.cal := rfl
@[simp] theorem State.upLnk_lnk (f : Lnk → Lnk) : (s.upLnk f).lnk = f s.lnk := rfl
@[simp] theorem State.upLnk_ntime (f : Lnk → Lnk) : (s.upLnk f).ntime = s.ntime := rfl
@[simp] theorem State.upLnk_trk (f : Lnk → Lnk) : (s.upLnk f).trk = s.trk := rfl
@[simp] theorem State.upLnk_sched (f : Lnk → Lnk) : (s.upLnk f).sched = s.sched := rfl
@[simp] theorem State.upLnk_rtc (f : Lnk → Lnk) : (s.upLnk f).rtc = s.rtc := rfl
@[simp] theorem State.upLnk_pwr (f : Lnk → Lnk) : (s.upLnk f).pwr = s.pwr := rfl
@[simp] theorem State.upLnk_hub (f : Lnk → Lnk) : (s.upLnk f).hub = s.hub := rfl
@[simp] theorem State.upLnk_timers (f : Lnk → Lnk) : (s.upLnk f).timers = s.timers := rfl
@[simp] theorem State.upLnk_twb (f : Lnk → Lnk) : (s.upLnk f).twb = s.twb := rfl
@[simp] theorem State.upLnk_csp (f : Lnk → Lnk) : (s.upLnk f).csp = s.csp := rfl
@[simp] theorem State.upLnk_hwn (f : Lnk → Lnk) : (s.upLnk f).hwn = s.hwn := rfl
@[simp] theorem State.upLnk_pins (f : Lnk → Lnk) : (s.upLnk f).pins = s.pins := rfl
@[simp] theorem State.upLnk_keys (f : Lnk → Lnk) : (s.upLnk f).keys = s.keys := rfl
@[simp] theorem State.upLnk_svc (f : Lnk → Lnk) : (s.upLnk f).svc = s.svc := rfl
@[simp] theorem State.upLnk_heldAcc (f : Lnk → Lnk) : (s.upLnk f).heldAcc = s.heldAcc := rfl
@[simp] theorem State.upLnk_rdata (f : Lnk → Lnk) : (s.upLnk f).rdata = s.rdata := rfl
@[simp] theorem State.upLnk_nt (f : Lnk → Lnk) : (s.upLnk f).nt = s.nt := rfl
@[simp] theorem State.upLnk_uptime (f : Lnk → Lnk) : (s.upLnk f).uptime = s.uptime := rfl
@[simp] theorem State.upLnk_free (f : Lnk → Lnk) : (s.upLnk f).free = s.free := rfl
@[simp] theorem State.upLnk_pending (f : Lnk → Lnk) : (s.upLnk f).pending = s.pending := rfl

/-! `State.upHub` -/
@[simp] theorem State.upHub_regs (f : Hub → Hub) : (s.upHub f).regs = s.regs := rfl
@[simp] theorem State.upHub_mem (f : Hub → Hub) : (s.upHub f).mem = s.mem := rfl
@[simp] theorem State.upHub_doms (f : Hub → Hub) : (s.upHub f).doms = s.doms := rfl
@[simp] theorem State.upHub_cores (f : Hub → Hub) : (s.upHub f).cores = s.cores := rfl
@[simp] theorem State.upHub_pair (f : Hub → Hub) : (s.upHub f).pair = s.pair := rfl
@[simp] theorem State.upHub_boot (f : Hub → Hub) : (s.upHub f).boot = s.boot := rfl
@[simp] theorem State.upHub_stg (f : Hub → Hub) : (s.upHub f).stg = s.stg := rfl
@[simp] theorem State.upHub_dram (f : Hub → Hub) : (s.upHub f).dram = s.dram := rfl
@[simp] theorem State.upHub_nvm (f : Hub → Hub) : (s.upHub f).nvm = s.nvm := rfl
@[simp] theorem State.upHub_flt (f : Hub → Hub) : (s.upHub f).flt = s.flt := rfl
@[simp] theorem State.upHub_cueQ (f : Hub → Hub) : (s.upHub f).cueQ = s.cueQ := rfl
@[simp] theorem State.upHub_cells (f : Hub → Hub) : (s.upHub f).cells = s.cells := rfl
@[simp] theorem State.upHub_rxc (f : Hub → Hub) : (s.upHub f).rxc = s.rxc := rfl
@[simp] theorem State.upHub_fec (f : Hub → Hub) : (s.upHub f).fec = s.fec := rfl
@[simp] theorem State.upHub_txc (f : Hub → Hub) : (s.upHub f).txc = s.txc := rfl
@[simp] theorem State.upHub_cal (f : Hub → Hub) : (s.upHub f).cal = s.cal := rfl
@[simp] theorem State.upHub_lnk (f : Hub → Hub) : (s.upHub f).lnk = s.lnk := rfl
@[simp] theorem State.upHub_ntime (f : Hub → Hub) : (s.upHub f).ntime = s.ntime := rfl
@[simp] theorem State.upHub_trk (f : Hub → Hub) : (s.upHub f).trk = s.trk := rfl
@[simp] theorem State.upHub_sched (f : Hub → Hub) : (s.upHub f).sched = s.sched := rfl
@[simp] theorem State.upHub_rtc (f : Hub → Hub) : (s.upHub f).rtc = s.rtc := rfl
@[simp] theorem State.upHub_pwr (f : Hub → Hub) : (s.upHub f).pwr = s.pwr := rfl
@[simp] theorem State.upHub_hub (f : Hub → Hub) : (s.upHub f).hub = f s.hub := rfl
@[simp] theorem State.upHub_timers (f : Hub → Hub) : (s.upHub f).timers = s.timers := rfl
@[simp] theorem State.upHub_twb (f : Hub → Hub) : (s.upHub f).twb = s.twb := rfl
@[simp] theorem State.upHub_csp (f : Hub → Hub) : (s.upHub f).csp = s.csp := rfl
@[simp] theorem State.upHub_hwn (f : Hub → Hub) : (s.upHub f).hwn = s.hwn := rfl
@[simp] theorem State.upHub_pins (f : Hub → Hub) : (s.upHub f).pins = s.pins := rfl
@[simp] theorem State.upHub_keys (f : Hub → Hub) : (s.upHub f).keys = s.keys := rfl
@[simp] theorem State.upHub_svc (f : Hub → Hub) : (s.upHub f).svc = s.svc := rfl
@[simp] theorem State.upHub_heldAcc (f : Hub → Hub) : (s.upHub f).heldAcc = s.heldAcc := rfl
@[simp] theorem State.upHub_rdata (f : Hub → Hub) : (s.upHub f).rdata = s.rdata := rfl
@[simp] theorem State.upHub_nt (f : Hub → Hub) : (s.upHub f).nt = s.nt := rfl
@[simp] theorem State.upHub_uptime (f : Hub → Hub) : (s.upHub f).uptime = s.uptime := rfl
@[simp] theorem State.upHub_free (f : Hub → Hub) : (s.upHub f).free = s.free := rfl
@[simp] theorem State.upHub_pending (f : Hub → Hub) : (s.upHub f).pending = s.pending := rfl

/-! `State.upKeys` -/
@[simp] theorem State.upKeys_regs (f : Keys → Keys) : (s.upKeys f).regs = s.regs := rfl
@[simp] theorem State.upKeys_mem (f : Keys → Keys) : (s.upKeys f).mem = s.mem := rfl
@[simp] theorem State.upKeys_doms (f : Keys → Keys) : (s.upKeys f).doms = s.doms := rfl
@[simp] theorem State.upKeys_cores (f : Keys → Keys) : (s.upKeys f).cores = s.cores := rfl
@[simp] theorem State.upKeys_pair (f : Keys → Keys) : (s.upKeys f).pair = s.pair := rfl
@[simp] theorem State.upKeys_boot (f : Keys → Keys) : (s.upKeys f).boot = s.boot := rfl
@[simp] theorem State.upKeys_stg (f : Keys → Keys) : (s.upKeys f).stg = s.stg := rfl
@[simp] theorem State.upKeys_dram (f : Keys → Keys) : (s.upKeys f).dram = s.dram := rfl
@[simp] theorem State.upKeys_nvm (f : Keys → Keys) : (s.upKeys f).nvm = s.nvm := rfl
@[simp] theorem State.upKeys_flt (f : Keys → Keys) : (s.upKeys f).flt = s.flt := rfl
@[simp] theorem State.upKeys_cueQ (f : Keys → Keys) : (s.upKeys f).cueQ = s.cueQ := rfl
@[simp] theorem State.upKeys_cells (f : Keys → Keys) : (s.upKeys f).cells = s.cells := rfl
@[simp] theorem State.upKeys_rxc (f : Keys → Keys) : (s.upKeys f).rxc = s.rxc := rfl
@[simp] theorem State.upKeys_fec (f : Keys → Keys) : (s.upKeys f).fec = s.fec := rfl
@[simp] theorem State.upKeys_txc (f : Keys → Keys) : (s.upKeys f).txc = s.txc := rfl
@[simp] theorem State.upKeys_cal (f : Keys → Keys) : (s.upKeys f).cal = s.cal := rfl
@[simp] theorem State.upKeys_lnk (f : Keys → Keys) : (s.upKeys f).lnk = s.lnk := rfl
@[simp] theorem State.upKeys_ntime (f : Keys → Keys) : (s.upKeys f).ntime = s.ntime := rfl
@[simp] theorem State.upKeys_trk (f : Keys → Keys) : (s.upKeys f).trk = s.trk := rfl
@[simp] theorem State.upKeys_sched (f : Keys → Keys) : (s.upKeys f).sched = s.sched := rfl
@[simp] theorem State.upKeys_rtc (f : Keys → Keys) : (s.upKeys f).rtc = s.rtc := rfl
@[simp] theorem State.upKeys_pwr (f : Keys → Keys) : (s.upKeys f).pwr = s.pwr := rfl
@[simp] theorem State.upKeys_hub (f : Keys → Keys) : (s.upKeys f).hub = s.hub := rfl
@[simp] theorem State.upKeys_timers (f : Keys → Keys) : (s.upKeys f).timers = s.timers := rfl
@[simp] theorem State.upKeys_twb (f : Keys → Keys) : (s.upKeys f).twb = s.twb := rfl
@[simp] theorem State.upKeys_csp (f : Keys → Keys) : (s.upKeys f).csp = s.csp := rfl
@[simp] theorem State.upKeys_hwn (f : Keys → Keys) : (s.upKeys f).hwn = s.hwn := rfl
@[simp] theorem State.upKeys_pins (f : Keys → Keys) : (s.upKeys f).pins = s.pins := rfl
@[simp] theorem State.upKeys_keys (f : Keys → Keys) : (s.upKeys f).keys = f s.keys := rfl
@[simp] theorem State.upKeys_svc (f : Keys → Keys) : (s.upKeys f).svc = s.svc := rfl
@[simp] theorem State.upKeys_heldAcc (f : Keys → Keys) : (s.upKeys f).heldAcc = s.heldAcc := rfl
@[simp] theorem State.upKeys_rdata (f : Keys → Keys) : (s.upKeys f).rdata = s.rdata := rfl
@[simp] theorem State.upKeys_nt (f : Keys → Keys) : (s.upKeys f).nt = s.nt := rfl
@[simp] theorem State.upKeys_uptime (f : Keys → Keys) : (s.upKeys f).uptime = s.uptime := rfl
@[simp] theorem State.upKeys_free (f : Keys → Keys) : (s.upKeys f).free = s.free := rfl
@[simp] theorem State.upKeys_pending (f : Keys → Keys) : (s.upKeys f).pending = s.pending := rfl

/-! `State.upPwr` -/
@[simp] theorem State.upPwr_regs (f : Power → Power) : (s.upPwr f).regs = s.regs := rfl
@[simp] theorem State.upPwr_mem (f : Power → Power) : (s.upPwr f).mem = s.mem := rfl
@[simp] theorem State.upPwr_doms (f : Power → Power) : (s.upPwr f).doms = s.doms := rfl
@[simp] theorem State.upPwr_cores (f : Power → Power) : (s.upPwr f).cores = s.cores := rfl
@[simp] theorem State.upPwr_pair (f : Power → Power) : (s.upPwr f).pair = s.pair := rfl
@[simp] theorem State.upPwr_boot (f : Power → Power) : (s.upPwr f).boot = s.boot := rfl
@[simp] theorem State.upPwr_stg (f : Power → Power) : (s.upPwr f).stg = s.stg := rfl
@[simp] theorem State.upPwr_dram (f : Power → Power) : (s.upPwr f).dram = s.dram := rfl
@[simp] theorem State.upPwr_nvm (f : Power → Power) : (s.upPwr f).nvm = s.nvm := rfl
@[simp] theorem State.upPwr_flt (f : Power → Power) : (s.upPwr f).flt = s.flt := rfl
@[simp] theorem State.upPwr_cueQ (f : Power → Power) : (s.upPwr f).cueQ = s.cueQ := rfl
@[simp] theorem State.upPwr_cells (f : Power → Power) : (s.upPwr f).cells = s.cells := rfl
@[simp] theorem State.upPwr_rxc (f : Power → Power) : (s.upPwr f).rxc = s.rxc := rfl
@[simp] theorem State.upPwr_fec (f : Power → Power) : (s.upPwr f).fec = s.fec := rfl
@[simp] theorem State.upPwr_txc (f : Power → Power) : (s.upPwr f).txc = s.txc := rfl
@[simp] theorem State.upPwr_cal (f : Power → Power) : (s.upPwr f).cal = s.cal := rfl
@[simp] theorem State.upPwr_lnk (f : Power → Power) : (s.upPwr f).lnk = s.lnk := rfl
@[simp] theorem State.upPwr_ntime (f : Power → Power) : (s.upPwr f).ntime = s.ntime := rfl
@[simp] theorem State.upPwr_trk (f : Power → Power) : (s.upPwr f).trk = s.trk := rfl
@[simp] theorem State.upPwr_sched (f : Power → Power) : (s.upPwr f).sched = s.sched := rfl
@[simp] theorem State.upPwr_rtc (f : Power → Power) : (s.upPwr f).rtc = s.rtc := rfl
@[simp] theorem State.upPwr_pwr (f : Power → Power) : (s.upPwr f).pwr = f s.pwr := rfl
@[simp] theorem State.upPwr_hub (f : Power → Power) : (s.upPwr f).hub = s.hub := rfl
@[simp] theorem State.upPwr_timers (f : Power → Power) : (s.upPwr f).timers = s.timers := rfl
@[simp] theorem State.upPwr_twb (f : Power → Power) : (s.upPwr f).twb = s.twb := rfl
@[simp] theorem State.upPwr_csp (f : Power → Power) : (s.upPwr f).csp = s.csp := rfl
@[simp] theorem State.upPwr_hwn (f : Power → Power) : (s.upPwr f).hwn = s.hwn := rfl
@[simp] theorem State.upPwr_pins (f : Power → Power) : (s.upPwr f).pins = s.pins := rfl
@[simp] theorem State.upPwr_keys (f : Power → Power) : (s.upPwr f).keys = s.keys := rfl
@[simp] theorem State.upPwr_svc (f : Power → Power) : (s.upPwr f).svc = s.svc := rfl
@[simp] theorem State.upPwr_heldAcc (f : Power → Power) : (s.upPwr f).heldAcc = s.heldAcc := rfl
@[simp] theorem State.upPwr_rdata (f : Power → Power) : (s.upPwr f).rdata = s.rdata := rfl
@[simp] theorem State.upPwr_nt (f : Power → Power) : (s.upPwr f).nt = s.nt := rfl
@[simp] theorem State.upPwr_uptime (f : Power → Power) : (s.upPwr f).uptime = s.uptime := rfl
@[simp] theorem State.upPwr_free (f : Power → Power) : (s.upPwr f).free = s.free := rfl
@[simp] theorem State.upPwr_pending (f : Power → Power) : (s.upPwr f).pending = s.pending := rfl

/-! `State.upRtc` -/
@[simp] theorem State.upRtc_regs (f : Rtc → Rtc) : (s.upRtc f).regs = s.regs := rfl
@[simp] theorem State.upRtc_mem (f : Rtc → Rtc) : (s.upRtc f).mem = s.mem := rfl
@[simp] theorem State.upRtc_doms (f : Rtc → Rtc) : (s.upRtc f).doms = s.doms := rfl
@[simp] theorem State.upRtc_cores (f : Rtc → Rtc) : (s.upRtc f).cores = s.cores := rfl
@[simp] theorem State.upRtc_pair (f : Rtc → Rtc) : (s.upRtc f).pair = s.pair := rfl
@[simp] theorem State.upRtc_boot (f : Rtc → Rtc) : (s.upRtc f).boot = s.boot := rfl
@[simp] theorem State.upRtc_stg (f : Rtc → Rtc) : (s.upRtc f).stg = s.stg := rfl
@[simp] theorem State.upRtc_dram (f : Rtc → Rtc) : (s.upRtc f).dram = s.dram := rfl
@[simp] theorem State.upRtc_nvm (f : Rtc → Rtc) : (s.upRtc f).nvm = s.nvm := rfl
@[simp] theorem State.upRtc_flt (f : Rtc → Rtc) : (s.upRtc f).flt = s.flt := rfl
@[simp] theorem State.upRtc_cueQ (f : Rtc → Rtc) : (s.upRtc f).cueQ = s.cueQ := rfl
@[simp] theorem State.upRtc_cells (f : Rtc → Rtc) : (s.upRtc f).cells = s.cells := rfl
@[simp] theorem State.upRtc_rxc (f : Rtc → Rtc) : (s.upRtc f).rxc = s.rxc := rfl
@[simp] theorem State.upRtc_fec (f : Rtc → Rtc) : (s.upRtc f).fec = s.fec := rfl
@[simp] theorem State.upRtc_txc (f : Rtc → Rtc) : (s.upRtc f).txc = s.txc := rfl
@[simp] theorem State.upRtc_cal (f : Rtc → Rtc) : (s.upRtc f).cal = s.cal := rfl
@[simp] theorem State.upRtc_lnk (f : Rtc → Rtc) : (s.upRtc f).lnk = s.lnk := rfl
@[simp] theorem State.upRtc_ntime (f : Rtc → Rtc) : (s.upRtc f).ntime = s.ntime := rfl
@[simp] theorem State.upRtc_trk (f : Rtc → Rtc) : (s.upRtc f).trk = s.trk := rfl
@[simp] theorem State.upRtc_sched (f : Rtc → Rtc) : (s.upRtc f).sched = s.sched := rfl
@[simp] theorem State.upRtc_rtc (f : Rtc → Rtc) : (s.upRtc f).rtc = f s.rtc := rfl
@[simp] theorem State.upRtc_pwr (f : Rtc → Rtc) : (s.upRtc f).pwr = s.pwr := rfl
@[simp] theorem State.upRtc_hub (f : Rtc → Rtc) : (s.upRtc f).hub = s.hub := rfl
@[simp] theorem State.upRtc_timers (f : Rtc → Rtc) : (s.upRtc f).timers = s.timers := rfl
@[simp] theorem State.upRtc_twb (f : Rtc → Rtc) : (s.upRtc f).twb = s.twb := rfl
@[simp] theorem State.upRtc_csp (f : Rtc → Rtc) : (s.upRtc f).csp = s.csp := rfl
@[simp] theorem State.upRtc_hwn (f : Rtc → Rtc) : (s.upRtc f).hwn = s.hwn := rfl
@[simp] theorem State.upRtc_pins (f : Rtc → Rtc) : (s.upRtc f).pins = s.pins := rfl
@[simp] theorem State.upRtc_keys (f : Rtc → Rtc) : (s.upRtc f).keys = s.keys := rfl
@[simp] theorem State.upRtc_svc (f : Rtc → Rtc) : (s.upRtc f).svc = s.svc := rfl
@[simp] theorem State.upRtc_heldAcc (f : Rtc → Rtc) : (s.upRtc f).heldAcc = s.heldAcc := rfl
@[simp] theorem State.upRtc_rdata (f : Rtc → Rtc) : (s.upRtc f).rdata = s.rdata := rfl
@[simp] theorem State.upRtc_nt (f : Rtc → Rtc) : (s.upRtc f).nt = s.nt := rfl
@[simp] theorem State.upRtc_uptime (f : Rtc → Rtc) : (s.upRtc f).uptime = s.uptime := rfl
@[simp] theorem State.upRtc_free (f : Rtc → Rtc) : (s.upRtc f).free = s.free := rfl
@[simp] theorem State.upRtc_pending (f : Rtc → Rtc) : (s.upRtc f).pending = s.pending := rfl

/-! `State.upRxc` -/
@[simp] theorem State.upRxc_regs (f : Rxc → Rxc) : (s.upRxc f).regs = s.regs := rfl
@[simp] theorem State.upRxc_mem (f : Rxc → Rxc) : (s.upRxc f).mem = s.mem := rfl
@[simp] theorem State.upRxc_doms (f : Rxc → Rxc) : (s.upRxc f).doms = s.doms := rfl
@[simp] theorem State.upRxc_cores (f : Rxc → Rxc) : (s.upRxc f).cores = s.cores := rfl
@[simp] theorem State.upRxc_pair (f : Rxc → Rxc) : (s.upRxc f).pair = s.pair := rfl
@[simp] theorem State.upRxc_boot (f : Rxc → Rxc) : (s.upRxc f).boot = s.boot := rfl
@[simp] theorem State.upRxc_stg (f : Rxc → Rxc) : (s.upRxc f).stg = s.stg := rfl
@[simp] theorem State.upRxc_dram (f : Rxc → Rxc) : (s.upRxc f).dram = s.dram := rfl
@[simp] theorem State.upRxc_nvm (f : Rxc → Rxc) : (s.upRxc f).nvm = s.nvm := rfl
@[simp] theorem State.upRxc_flt (f : Rxc → Rxc) : (s.upRxc f).flt = s.flt := rfl
@[simp] theorem State.upRxc_cueQ (f : Rxc → Rxc) : (s.upRxc f).cueQ = s.cueQ := rfl
@[simp] theorem State.upRxc_cells (f : Rxc → Rxc) : (s.upRxc f).cells = s.cells := rfl
@[simp] theorem State.upRxc_rxc (f : Rxc → Rxc) : (s.upRxc f).rxc = f s.rxc := rfl
@[simp] theorem State.upRxc_fec (f : Rxc → Rxc) : (s.upRxc f).fec = s.fec := rfl
@[simp] theorem State.upRxc_txc (f : Rxc → Rxc) : (s.upRxc f).txc = s.txc := rfl
@[simp] theorem State.upRxc_cal (f : Rxc → Rxc) : (s.upRxc f).cal = s.cal := rfl
@[simp] theorem State.upRxc_lnk (f : Rxc → Rxc) : (s.upRxc f).lnk = s.lnk := rfl
@[simp] theorem State.upRxc_ntime (f : Rxc → Rxc) : (s.upRxc f).ntime = s.ntime := rfl
@[simp] theorem State.upRxc_trk (f : Rxc → Rxc) : (s.upRxc f).trk = s.trk := rfl
@[simp] theorem State.upRxc_sched (f : Rxc → Rxc) : (s.upRxc f).sched = s.sched := rfl
@[simp] theorem State.upRxc_rtc (f : Rxc → Rxc) : (s.upRxc f).rtc = s.rtc := rfl
@[simp] theorem State.upRxc_pwr (f : Rxc → Rxc) : (s.upRxc f).pwr = s.pwr := rfl
@[simp] theorem State.upRxc_hub (f : Rxc → Rxc) : (s.upRxc f).hub = s.hub := rfl
@[simp] theorem State.upRxc_timers (f : Rxc → Rxc) : (s.upRxc f).timers = s.timers := rfl
@[simp] theorem State.upRxc_twb (f : Rxc → Rxc) : (s.upRxc f).twb = s.twb := rfl
@[simp] theorem State.upRxc_csp (f : Rxc → Rxc) : (s.upRxc f).csp = s.csp := rfl
@[simp] theorem State.upRxc_hwn (f : Rxc → Rxc) : (s.upRxc f).hwn = s.hwn := rfl
@[simp] theorem State.upRxc_pins (f : Rxc → Rxc) : (s.upRxc f).pins = s.pins := rfl
@[simp] theorem State.upRxc_keys (f : Rxc → Rxc) : (s.upRxc f).keys = s.keys := rfl
@[simp] theorem State.upRxc_svc (f : Rxc → Rxc) : (s.upRxc f).svc = s.svc := rfl
@[simp] theorem State.upRxc_heldAcc (f : Rxc → Rxc) : (s.upRxc f).heldAcc = s.heldAcc := rfl
@[simp] theorem State.upRxc_rdata (f : Rxc → Rxc) : (s.upRxc f).rdata = s.rdata := rfl
@[simp] theorem State.upRxc_nt (f : Rxc → Rxc) : (s.upRxc f).nt = s.nt := rfl
@[simp] theorem State.upRxc_uptime (f : Rxc → Rxc) : (s.upRxc f).uptime = s.uptime := rfl
@[simp] theorem State.upRxc_free (f : Rxc → Rxc) : (s.upRxc f).free = s.free := rfl
@[simp] theorem State.upRxc_pending (f : Rxc → Rxc) : (s.upRxc f).pending = s.pending := rfl

/-! `State.upFec` -/
@[simp] theorem State.upFec_regs (f : Fec → Fec) : (s.upFec f).regs = s.regs := rfl
@[simp] theorem State.upFec_mem (f : Fec → Fec) : (s.upFec f).mem = s.mem := rfl
@[simp] theorem State.upFec_doms (f : Fec → Fec) : (s.upFec f).doms = s.doms := rfl
@[simp] theorem State.upFec_cores (f : Fec → Fec) : (s.upFec f).cores = s.cores := rfl
@[simp] theorem State.upFec_pair (f : Fec → Fec) : (s.upFec f).pair = s.pair := rfl
@[simp] theorem State.upFec_boot (f : Fec → Fec) : (s.upFec f).boot = s.boot := rfl
@[simp] theorem State.upFec_stg (f : Fec → Fec) : (s.upFec f).stg = s.stg := rfl
@[simp] theorem State.upFec_dram (f : Fec → Fec) : (s.upFec f).dram = s.dram := rfl
@[simp] theorem State.upFec_nvm (f : Fec → Fec) : (s.upFec f).nvm = s.nvm := rfl
@[simp] theorem State.upFec_flt (f : Fec → Fec) : (s.upFec f).flt = s.flt := rfl
@[simp] theorem State.upFec_cueQ (f : Fec → Fec) : (s.upFec f).cueQ = s.cueQ := rfl
@[simp] theorem State.upFec_cells (f : Fec → Fec) : (s.upFec f).cells = s.cells := rfl
@[simp] theorem State.upFec_rxc (f : Fec → Fec) : (s.upFec f).rxc = s.rxc := rfl
@[simp] theorem State.upFec_fec (f : Fec → Fec) : (s.upFec f).fec = f s.fec := rfl
@[simp] theorem State.upFec_txc (f : Fec → Fec) : (s.upFec f).txc = s.txc := rfl
@[simp] theorem State.upFec_cal (f : Fec → Fec) : (s.upFec f).cal = s.cal := rfl
@[simp] theorem State.upFec_lnk (f : Fec → Fec) : (s.upFec f).lnk = s.lnk := rfl
@[simp] theorem State.upFec_ntime (f : Fec → Fec) : (s.upFec f).ntime = s.ntime := rfl
@[simp] theorem State.upFec_trk (f : Fec → Fec) : (s.upFec f).trk = s.trk := rfl
@[simp] theorem State.upFec_sched (f : Fec → Fec) : (s.upFec f).sched = s.sched := rfl
@[simp] theorem State.upFec_rtc (f : Fec → Fec) : (s.upFec f).rtc = s.rtc := rfl
@[simp] theorem State.upFec_pwr (f : Fec → Fec) : (s.upFec f).pwr = s.pwr := rfl
@[simp] theorem State.upFec_hub (f : Fec → Fec) : (s.upFec f).hub = s.hub := rfl
@[simp] theorem State.upFec_timers (f : Fec → Fec) : (s.upFec f).timers = s.timers := rfl
@[simp] theorem State.upFec_twb (f : Fec → Fec) : (s.upFec f).twb = s.twb := rfl
@[simp] theorem State.upFec_csp (f : Fec → Fec) : (s.upFec f).csp = s.csp := rfl
@[simp] theorem State.upFec_hwn (f : Fec → Fec) : (s.upFec f).hwn = s.hwn := rfl
@[simp] theorem State.upFec_pins (f : Fec → Fec) : (s.upFec f).pins = s.pins := rfl
@[simp] theorem State.upFec_keys (f : Fec → Fec) : (s.upFec f).keys = s.keys := rfl
@[simp] theorem State.upFec_svc (f : Fec → Fec) : (s.upFec f).svc = s.svc := rfl
@[simp] theorem State.upFec_heldAcc (f : Fec → Fec) : (s.upFec f).heldAcc = s.heldAcc := rfl
@[simp] theorem State.upFec_rdata (f : Fec → Fec) : (s.upFec f).rdata = s.rdata := rfl
@[simp] theorem State.upFec_nt (f : Fec → Fec) : (s.upFec f).nt = s.nt := rfl
@[simp] theorem State.upFec_uptime (f : Fec → Fec) : (s.upFec f).uptime = s.uptime := rfl
@[simp] theorem State.upFec_free (f : Fec → Fec) : (s.upFec f).free = s.free := rfl
@[simp] theorem State.upFec_pending (f : Fec → Fec) : (s.upFec f).pending = s.pending := rfl

/-! `State.upCal` -/
@[simp] theorem State.upCal_regs (f : Cal → Cal) : (s.upCal f).regs = s.regs := rfl
@[simp] theorem State.upCal_mem (f : Cal → Cal) : (s.upCal f).mem = s.mem := rfl
@[simp] theorem State.upCal_doms (f : Cal → Cal) : (s.upCal f).doms = s.doms := rfl
@[simp] theorem State.upCal_cores (f : Cal → Cal) : (s.upCal f).cores = s.cores := rfl
@[simp] theorem State.upCal_pair (f : Cal → Cal) : (s.upCal f).pair = s.pair := rfl
@[simp] theorem State.upCal_boot (f : Cal → Cal) : (s.upCal f).boot = s.boot := rfl
@[simp] theorem State.upCal_stg (f : Cal → Cal) : (s.upCal f).stg = s.stg := rfl
@[simp] theorem State.upCal_dram (f : Cal → Cal) : (s.upCal f).dram = s.dram := rfl
@[simp] theorem State.upCal_nvm (f : Cal → Cal) : (s.upCal f).nvm = s.nvm := rfl
@[simp] theorem State.upCal_flt (f : Cal → Cal) : (s.upCal f).flt = s.flt := rfl
@[simp] theorem State.upCal_cueQ (f : Cal → Cal) : (s.upCal f).cueQ = s.cueQ := rfl
@[simp] theorem State.upCal_cells (f : Cal → Cal) : (s.upCal f).cells = s.cells := rfl
@[simp] theorem State.upCal_rxc (f : Cal → Cal) : (s.upCal f).rxc = s.rxc := rfl
@[simp] theorem State.upCal_fec (f : Cal → Cal) : (s.upCal f).fec = s.fec := rfl
@[simp] theorem State.upCal_txc (f : Cal → Cal) : (s.upCal f).txc = s.txc := rfl
@[simp] theorem State.upCal_cal (f : Cal → Cal) : (s.upCal f).cal = f s.cal := rfl
@[simp] theorem State.upCal_lnk (f : Cal → Cal) : (s.upCal f).lnk = s.lnk := rfl
@[simp] theorem State.upCal_ntime (f : Cal → Cal) : (s.upCal f).ntime = s.ntime := rfl
@[simp] theorem State.upCal_trk (f : Cal → Cal) : (s.upCal f).trk = s.trk := rfl
@[simp] theorem State.upCal_sched (f : Cal → Cal) : (s.upCal f).sched = s.sched := rfl
@[simp] theorem State.upCal_rtc (f : Cal → Cal) : (s.upCal f).rtc = s.rtc := rfl
@[simp] theorem State.upCal_pwr (f : Cal → Cal) : (s.upCal f).pwr = s.pwr := rfl
@[simp] theorem State.upCal_hub (f : Cal → Cal) : (s.upCal f).hub = s.hub := rfl
@[simp] theorem State.upCal_timers (f : Cal → Cal) : (s.upCal f).timers = s.timers := rfl
@[simp] theorem State.upCal_twb (f : Cal → Cal) : (s.upCal f).twb = s.twb := rfl
@[simp] theorem State.upCal_csp (f : Cal → Cal) : (s.upCal f).csp = s.csp := rfl
@[simp] theorem State.upCal_hwn (f : Cal → Cal) : (s.upCal f).hwn = s.hwn := rfl
@[simp] theorem State.upCal_pins (f : Cal → Cal) : (s.upCal f).pins = s.pins := rfl
@[simp] theorem State.upCal_keys (f : Cal → Cal) : (s.upCal f).keys = s.keys := rfl
@[simp] theorem State.upCal_svc (f : Cal → Cal) : (s.upCal f).svc = s.svc := rfl
@[simp] theorem State.upCal_heldAcc (f : Cal → Cal) : (s.upCal f).heldAcc = s.heldAcc := rfl
@[simp] theorem State.upCal_rdata (f : Cal → Cal) : (s.upCal f).rdata = s.rdata := rfl
@[simp] theorem State.upCal_nt (f : Cal → Cal) : (s.upCal f).nt = s.nt := rfl
@[simp] theorem State.upCal_uptime (f : Cal → Cal) : (s.upCal f).uptime = s.uptime := rfl
@[simp] theorem State.upCal_free (f : Cal → Cal) : (s.upCal f).free = s.free := rfl
@[simp] theorem State.upCal_pending (f : Cal → Cal) : (s.upCal f).pending = s.pending := rfl

/-! `State.upHwn` -/
@[simp] theorem State.upHwn_regs (f : Hwn → Hwn) : (s.upHwn f).regs = s.regs := rfl
@[simp] theorem State.upHwn_mem (f : Hwn → Hwn) : (s.upHwn f).mem = s.mem := rfl
@[simp] theorem State.upHwn_doms (f : Hwn → Hwn) : (s.upHwn f).doms = s.doms := rfl
@[simp] theorem State.upHwn_cores (f : Hwn → Hwn) : (s.upHwn f).cores = s.cores := rfl
@[simp] theorem State.upHwn_pair (f : Hwn → Hwn) : (s.upHwn f).pair = s.pair := rfl
@[simp] theorem State.upHwn_boot (f : Hwn → Hwn) : (s.upHwn f).boot = s.boot := rfl
@[simp] theorem State.upHwn_stg (f : Hwn → Hwn) : (s.upHwn f).stg = s.stg := rfl
@[simp] theorem State.upHwn_dram (f : Hwn → Hwn) : (s.upHwn f).dram = s.dram := rfl
@[simp] theorem State.upHwn_nvm (f : Hwn → Hwn) : (s.upHwn f).nvm = s.nvm := rfl
@[simp] theorem State.upHwn_flt (f : Hwn → Hwn) : (s.upHwn f).flt = s.flt := rfl
@[simp] theorem State.upHwn_cueQ (f : Hwn → Hwn) : (s.upHwn f).cueQ = s.cueQ := rfl
@[simp] theorem State.upHwn_cells (f : Hwn → Hwn) : (s.upHwn f).cells = s.cells := rfl
@[simp] theorem State.upHwn_rxc (f : Hwn → Hwn) : (s.upHwn f).rxc = s.rxc := rfl
@[simp] theorem State.upHwn_fec (f : Hwn → Hwn) : (s.upHwn f).fec = s.fec := rfl
@[simp] theorem State.upHwn_txc (f : Hwn → Hwn) : (s.upHwn f).txc = s.txc := rfl
@[simp] theorem State.upHwn_cal (f : Hwn → Hwn) : (s.upHwn f).cal = s.cal := rfl
@[simp] theorem State.upHwn_lnk (f : Hwn → Hwn) : (s.upHwn f).lnk = s.lnk := rfl
@[simp] theorem State.upHwn_ntime (f : Hwn → Hwn) : (s.upHwn f).ntime = s.ntime := rfl
@[simp] theorem State.upHwn_trk (f : Hwn → Hwn) : (s.upHwn f).trk = s.trk := rfl
@[simp] theorem State.upHwn_sched (f : Hwn → Hwn) : (s.upHwn f).sched = s.sched := rfl
@[simp] theorem State.upHwn_rtc (f : Hwn → Hwn) : (s.upHwn f).rtc = s.rtc := rfl
@[simp] theorem State.upHwn_pwr (f : Hwn → Hwn) : (s.upHwn f).pwr = s.pwr := rfl
@[simp] theorem State.upHwn_hub (f : Hwn → Hwn) : (s.upHwn f).hub = s.hub := rfl
@[simp] theorem State.upHwn_timers (f : Hwn → Hwn) : (s.upHwn f).timers = s.timers := rfl
@[simp] theorem State.upHwn_twb (f : Hwn → Hwn) : (s.upHwn f).twb = s.twb := rfl
@[simp] theorem State.upHwn_csp (f : Hwn → Hwn) : (s.upHwn f).csp = s.csp := rfl
@[simp] theorem State.upHwn_hwn (f : Hwn → Hwn) : (s.upHwn f).hwn = f s.hwn := rfl
@[simp] theorem State.upHwn_pins (f : Hwn → Hwn) : (s.upHwn f).pins = s.pins := rfl
@[simp] theorem State.upHwn_keys (f : Hwn → Hwn) : (s.upHwn f).keys = s.keys := rfl
@[simp] theorem State.upHwn_svc (f : Hwn → Hwn) : (s.upHwn f).svc = s.svc := rfl
@[simp] theorem State.upHwn_heldAcc (f : Hwn → Hwn) : (s.upHwn f).heldAcc = s.heldAcc := rfl
@[simp] theorem State.upHwn_rdata (f : Hwn → Hwn) : (s.upHwn f).rdata = s.rdata := rfl
@[simp] theorem State.upHwn_nt (f : Hwn → Hwn) : (s.upHwn f).nt = s.nt := rfl
@[simp] theorem State.upHwn_uptime (f : Hwn → Hwn) : (s.upHwn f).uptime = s.uptime := rfl
@[simp] theorem State.upHwn_free (f : Hwn → Hwn) : (s.upHwn f).free = s.free := rfl
@[simp] theorem State.upHwn_pending (f : Hwn → Hwn) : (s.upHwn f).pending = s.pending := rfl

/-! `State.upSvc` -/
@[simp] theorem State.upSvc_regs (f : Svc → Svc) : (s.upSvc f).regs = s.regs := rfl
@[simp] theorem State.upSvc_mem (f : Svc → Svc) : (s.upSvc f).mem = s.mem := rfl
@[simp] theorem State.upSvc_doms (f : Svc → Svc) : (s.upSvc f).doms = s.doms := rfl
@[simp] theorem State.upSvc_cores (f : Svc → Svc) : (s.upSvc f).cores = s.cores := rfl
@[simp] theorem State.upSvc_pair (f : Svc → Svc) : (s.upSvc f).pair = s.pair := rfl
@[simp] theorem State.upSvc_boot (f : Svc → Svc) : (s.upSvc f).boot = s.boot := rfl
@[simp] theorem State.upSvc_stg (f : Svc → Svc) : (s.upSvc f).stg = s.stg := rfl
@[simp] theorem State.upSvc_dram (f : Svc → Svc) : (s.upSvc f).dram = s.dram := rfl
@[simp] theorem State.upSvc_nvm (f : Svc → Svc) : (s.upSvc f).nvm = s.nvm := rfl
@[simp] theorem State.upSvc_flt (f : Svc → Svc) : (s.upSvc f).flt = s.flt := rfl
@[simp] theorem State.upSvc_cueQ (f : Svc → Svc) : (s.upSvc f).cueQ = s.cueQ := rfl
@[simp] theorem State.upSvc_cells (f : Svc → Svc) : (s.upSvc f).cells = s.cells := rfl
@[simp] theorem State.upSvc_rxc (f : Svc → Svc) : (s.upSvc f).rxc = s.rxc := rfl
@[simp] theorem State.upSvc_fec (f : Svc → Svc) : (s.upSvc f).fec = s.fec := rfl
@[simp] theorem State.upSvc_txc (f : Svc → Svc) : (s.upSvc f).txc = s.txc := rfl
@[simp] theorem State.upSvc_cal (f : Svc → Svc) : (s.upSvc f).cal = s.cal := rfl
@[simp] theorem State.upSvc_lnk (f : Svc → Svc) : (s.upSvc f).lnk = s.lnk := rfl
@[simp] theorem State.upSvc_ntime (f : Svc → Svc) : (s.upSvc f).ntime = s.ntime := rfl
@[simp] theorem State.upSvc_trk (f : Svc → Svc) : (s.upSvc f).trk = s.trk := rfl
@[simp] theorem State.upSvc_sched (f : Svc → Svc) : (s.upSvc f).sched = s.sched := rfl
@[simp] theorem State.upSvc_rtc (f : Svc → Svc) : (s.upSvc f).rtc = s.rtc := rfl
@[simp] theorem State.upSvc_pwr (f : Svc → Svc) : (s.upSvc f).pwr = s.pwr := rfl
@[simp] theorem State.upSvc_hub (f : Svc → Svc) : (s.upSvc f).hub = s.hub := rfl
@[simp] theorem State.upSvc_timers (f : Svc → Svc) : (s.upSvc f).timers = s.timers := rfl
@[simp] theorem State.upSvc_twb (f : Svc → Svc) : (s.upSvc f).twb = s.twb := rfl
@[simp] theorem State.upSvc_csp (f : Svc → Svc) : (s.upSvc f).csp = s.csp := rfl
@[simp] theorem State.upSvc_hwn (f : Svc → Svc) : (s.upSvc f).hwn = s.hwn := rfl
@[simp] theorem State.upSvc_pins (f : Svc → Svc) : (s.upSvc f).pins = s.pins := rfl
@[simp] theorem State.upSvc_keys (f : Svc → Svc) : (s.upSvc f).keys = s.keys := rfl
@[simp] theorem State.upSvc_svc (f : Svc → Svc) : (s.upSvc f).svc = f s.svc := rfl
@[simp] theorem State.upSvc_heldAcc (f : Svc → Svc) : (s.upSvc f).heldAcc = s.heldAcc := rfl
@[simp] theorem State.upSvc_rdata (f : Svc → Svc) : (s.upSvc f).rdata = s.rdata := rfl
@[simp] theorem State.upSvc_nt (f : Svc → Svc) : (s.upSvc f).nt = s.nt := rfl
@[simp] theorem State.upSvc_uptime (f : Svc → Svc) : (s.upSvc f).uptime = s.uptime := rfl
@[simp] theorem State.upSvc_free (f : Svc → Svc) : (s.upSvc f).free = s.free := rfl
@[simp] theorem State.upSvc_pending (f : Svc → Svc) : (s.upSvc f).pending = s.pending := rfl

/-! `State.upTime` -/
@[simp] theorem State.upTime_regs (f : Ntime → Ntime) : (s.upTime f).regs = s.regs := rfl
@[simp] theorem State.upTime_mem (f : Ntime → Ntime) : (s.upTime f).mem = s.mem := rfl
@[simp] theorem State.upTime_doms (f : Ntime → Ntime) : (s.upTime f).doms = s.doms := rfl
@[simp] theorem State.upTime_cores (f : Ntime → Ntime) : (s.upTime f).cores = s.cores := rfl
@[simp] theorem State.upTime_pair (f : Ntime → Ntime) : (s.upTime f).pair = s.pair := rfl
@[simp] theorem State.upTime_boot (f : Ntime → Ntime) : (s.upTime f).boot = s.boot := rfl
@[simp] theorem State.upTime_stg (f : Ntime → Ntime) : (s.upTime f).stg = s.stg := rfl
@[simp] theorem State.upTime_dram (f : Ntime → Ntime) : (s.upTime f).dram = s.dram := rfl
@[simp] theorem State.upTime_nvm (f : Ntime → Ntime) : (s.upTime f).nvm = s.nvm := rfl
@[simp] theorem State.upTime_flt (f : Ntime → Ntime) : (s.upTime f).flt = s.flt := rfl
@[simp] theorem State.upTime_cueQ (f : Ntime → Ntime) : (s.upTime f).cueQ = s.cueQ := rfl
@[simp] theorem State.upTime_cells (f : Ntime → Ntime) : (s.upTime f).cells = s.cells := rfl
@[simp] theorem State.upTime_rxc (f : Ntime → Ntime) : (s.upTime f).rxc = s.rxc := rfl
@[simp] theorem State.upTime_fec (f : Ntime → Ntime) : (s.upTime f).fec = s.fec := rfl
@[simp] theorem State.upTime_txc (f : Ntime → Ntime) : (s.upTime f).txc = s.txc := rfl
@[simp] theorem State.upTime_cal (f : Ntime → Ntime) : (s.upTime f).cal = s.cal := rfl
@[simp] theorem State.upTime_lnk (f : Ntime → Ntime) : (s.upTime f).lnk = s.lnk := rfl
@[simp] theorem State.upTime_ntime (f : Ntime → Ntime) : (s.upTime f).ntime = f s.ntime := rfl
@[simp] theorem State.upTime_trk (f : Ntime → Ntime) : (s.upTime f).trk = s.trk := rfl
@[simp] theorem State.upTime_sched (f : Ntime → Ntime) : (s.upTime f).sched = s.sched := rfl
@[simp] theorem State.upTime_rtc (f : Ntime → Ntime) : (s.upTime f).rtc = s.rtc := rfl
@[simp] theorem State.upTime_pwr (f : Ntime → Ntime) : (s.upTime f).pwr = s.pwr := rfl
@[simp] theorem State.upTime_hub (f : Ntime → Ntime) : (s.upTime f).hub = s.hub := rfl
@[simp] theorem State.upTime_timers (f : Ntime → Ntime) : (s.upTime f).timers = s.timers := rfl
@[simp] theorem State.upTime_twb (f : Ntime → Ntime) : (s.upTime f).twb = s.twb := rfl
@[simp] theorem State.upTime_csp (f : Ntime → Ntime) : (s.upTime f).csp = s.csp := rfl
@[simp] theorem State.upTime_hwn (f : Ntime → Ntime) : (s.upTime f).hwn = s.hwn := rfl
@[simp] theorem State.upTime_pins (f : Ntime → Ntime) : (s.upTime f).pins = s.pins := rfl
@[simp] theorem State.upTime_keys (f : Ntime → Ntime) : (s.upTime f).keys = s.keys := rfl
@[simp] theorem State.upTime_svc (f : Ntime → Ntime) : (s.upTime f).svc = s.svc := rfl
@[simp] theorem State.upTime_heldAcc (f : Ntime → Ntime) : (s.upTime f).heldAcc = s.heldAcc := rfl
@[simp] theorem State.upTime_rdata (f : Ntime → Ntime) : (s.upTime f).rdata = s.rdata := rfl
@[simp] theorem State.upTime_nt (f : Ntime → Ntime) : (s.upTime f).nt = s.nt := rfl
@[simp] theorem State.upTime_uptime (f : Ntime → Ntime) : (s.upTime f).uptime = s.uptime := rfl
@[simp] theorem State.upTime_free (f : Ntime → Ntime) : (s.upTime f).free = s.free := rfl
@[simp] theorem State.upTime_pending (f : Ntime → Ntime) : (s.upTime f).pending = s.pending := rfl

/-! `State.upTrk` -/
@[simp] theorem State.upTrk_regs (f : Tracker → Tracker) : (s.upTrk f).regs = s.regs := rfl
@[simp] theorem State.upTrk_mem (f : Tracker → Tracker) : (s.upTrk f).mem = s.mem := rfl
@[simp] theorem State.upTrk_doms (f : Tracker → Tracker) : (s.upTrk f).doms = s.doms := rfl
@[simp] theorem State.upTrk_cores (f : Tracker → Tracker) : (s.upTrk f).cores = s.cores := rfl
@[simp] theorem State.upTrk_pair (f : Tracker → Tracker) : (s.upTrk f).pair = s.pair := rfl
@[simp] theorem State.upTrk_boot (f : Tracker → Tracker) : (s.upTrk f).boot = s.boot := rfl
@[simp] theorem State.upTrk_stg (f : Tracker → Tracker) : (s.upTrk f).stg = s.stg := rfl
@[simp] theorem State.upTrk_dram (f : Tracker → Tracker) : (s.upTrk f).dram = s.dram := rfl
@[simp] theorem State.upTrk_nvm (f : Tracker → Tracker) : (s.upTrk f).nvm = s.nvm := rfl
@[simp] theorem State.upTrk_flt (f : Tracker → Tracker) : (s.upTrk f).flt = s.flt := rfl
@[simp] theorem State.upTrk_cueQ (f : Tracker → Tracker) : (s.upTrk f).cueQ = s.cueQ := rfl
@[simp] theorem State.upTrk_cells (f : Tracker → Tracker) : (s.upTrk f).cells = s.cells := rfl
@[simp] theorem State.upTrk_rxc (f : Tracker → Tracker) : (s.upTrk f).rxc = s.rxc := rfl
@[simp] theorem State.upTrk_fec (f : Tracker → Tracker) : (s.upTrk f).fec = s.fec := rfl
@[simp] theorem State.upTrk_txc (f : Tracker → Tracker) : (s.upTrk f).txc = s.txc := rfl
@[simp] theorem State.upTrk_cal (f : Tracker → Tracker) : (s.upTrk f).cal = s.cal := rfl
@[simp] theorem State.upTrk_lnk (f : Tracker → Tracker) : (s.upTrk f).lnk = s.lnk := rfl
@[simp] theorem State.upTrk_ntime (f : Tracker → Tracker) : (s.upTrk f).ntime = s.ntime := rfl
@[simp] theorem State.upTrk_trk (f : Tracker → Tracker) : (s.upTrk f).trk = f s.trk := rfl
@[simp] theorem State.upTrk_sched (f : Tracker → Tracker) : (s.upTrk f).sched = s.sched := rfl
@[simp] theorem State.upTrk_rtc (f : Tracker → Tracker) : (s.upTrk f).rtc = s.rtc := rfl
@[simp] theorem State.upTrk_pwr (f : Tracker → Tracker) : (s.upTrk f).pwr = s.pwr := rfl
@[simp] theorem State.upTrk_hub (f : Tracker → Tracker) : (s.upTrk f).hub = s.hub := rfl
@[simp] theorem State.upTrk_timers (f : Tracker → Tracker) : (s.upTrk f).timers = s.timers := rfl
@[simp] theorem State.upTrk_twb (f : Tracker → Tracker) : (s.upTrk f).twb = s.twb := rfl
@[simp] theorem State.upTrk_csp (f : Tracker → Tracker) : (s.upTrk f).csp = s.csp := rfl
@[simp] theorem State.upTrk_hwn (f : Tracker → Tracker) : (s.upTrk f).hwn = s.hwn := rfl
@[simp] theorem State.upTrk_pins (f : Tracker → Tracker) : (s.upTrk f).pins = s.pins := rfl
@[simp] theorem State.upTrk_keys (f : Tracker → Tracker) : (s.upTrk f).keys = s.keys := rfl
@[simp] theorem State.upTrk_svc (f : Tracker → Tracker) : (s.upTrk f).svc = s.svc := rfl
@[simp] theorem State.upTrk_heldAcc (f : Tracker → Tracker) : (s.upTrk f).heldAcc = s.heldAcc := rfl
@[simp] theorem State.upTrk_rdata (f : Tracker → Tracker) : (s.upTrk f).rdata = s.rdata := rfl
@[simp] theorem State.upTrk_nt (f : Tracker → Tracker) : (s.upTrk f).nt = s.nt := rfl
@[simp] theorem State.upTrk_uptime (f : Tracker → Tracker) : (s.upTrk f).uptime = s.uptime := rfl
@[simp] theorem State.upTrk_free (f : Tracker → Tracker) : (s.upTrk f).free = s.free := rfl
@[simp] theorem State.upTrk_pending (f : Tracker → Tracker) : (s.upTrk f).pending = s.pending := rfl

/-! `State.upSched` -/
@[simp] theorem State.upSched_regs (f : Sched → Sched) : (s.upSched f).regs = s.regs := rfl
@[simp] theorem State.upSched_mem (f : Sched → Sched) : (s.upSched f).mem = s.mem := rfl
@[simp] theorem State.upSched_doms (f : Sched → Sched) : (s.upSched f).doms = s.doms := rfl
@[simp] theorem State.upSched_cores (f : Sched → Sched) : (s.upSched f).cores = s.cores := rfl
@[simp] theorem State.upSched_pair (f : Sched → Sched) : (s.upSched f).pair = s.pair := rfl
@[simp] theorem State.upSched_boot (f : Sched → Sched) : (s.upSched f).boot = s.boot := rfl
@[simp] theorem State.upSched_stg (f : Sched → Sched) : (s.upSched f).stg = s.stg := rfl
@[simp] theorem State.upSched_dram (f : Sched → Sched) : (s.upSched f).dram = s.dram := rfl
@[simp] theorem State.upSched_nvm (f : Sched → Sched) : (s.upSched f).nvm = s.nvm := rfl
@[simp] theorem State.upSched_flt (f : Sched → Sched) : (s.upSched f).flt = s.flt := rfl
@[simp] theorem State.upSched_cueQ (f : Sched → Sched) : (s.upSched f).cueQ = s.cueQ := rfl
@[simp] theorem State.upSched_cells (f : Sched → Sched) : (s.upSched f).cells = s.cells := rfl
@[simp] theorem State.upSched_rxc (f : Sched → Sched) : (s.upSched f).rxc = s.rxc := rfl
@[simp] theorem State.upSched_fec (f : Sched → Sched) : (s.upSched f).fec = s.fec := rfl
@[simp] theorem State.upSched_txc (f : Sched → Sched) : (s.upSched f).txc = s.txc := rfl
@[simp] theorem State.upSched_cal (f : Sched → Sched) : (s.upSched f).cal = s.cal := rfl
@[simp] theorem State.upSched_lnk (f : Sched → Sched) : (s.upSched f).lnk = s.lnk := rfl
@[simp] theorem State.upSched_ntime (f : Sched → Sched) : (s.upSched f).ntime = s.ntime := rfl
@[simp] theorem State.upSched_trk (f : Sched → Sched) : (s.upSched f).trk = s.trk := rfl
@[simp] theorem State.upSched_sched (f : Sched → Sched) : (s.upSched f).sched = f s.sched := rfl
@[simp] theorem State.upSched_rtc (f : Sched → Sched) : (s.upSched f).rtc = s.rtc := rfl
@[simp] theorem State.upSched_pwr (f : Sched → Sched) : (s.upSched f).pwr = s.pwr := rfl
@[simp] theorem State.upSched_hub (f : Sched → Sched) : (s.upSched f).hub = s.hub := rfl
@[simp] theorem State.upSched_timers (f : Sched → Sched) : (s.upSched f).timers = s.timers := rfl
@[simp] theorem State.upSched_twb (f : Sched → Sched) : (s.upSched f).twb = s.twb := rfl
@[simp] theorem State.upSched_csp (f : Sched → Sched) : (s.upSched f).csp = s.csp := rfl
@[simp] theorem State.upSched_hwn (f : Sched → Sched) : (s.upSched f).hwn = s.hwn := rfl
@[simp] theorem State.upSched_pins (f : Sched → Sched) : (s.upSched f).pins = s.pins := rfl
@[simp] theorem State.upSched_keys (f : Sched → Sched) : (s.upSched f).keys = s.keys := rfl
@[simp] theorem State.upSched_svc (f : Sched → Sched) : (s.upSched f).svc = s.svc := rfl
@[simp] theorem State.upSched_heldAcc (f : Sched → Sched) : (s.upSched f).heldAcc = s.heldAcc := rfl
@[simp] theorem State.upSched_rdata (f : Sched → Sched) : (s.upSched f).rdata = s.rdata := rfl
@[simp] theorem State.upSched_nt (f : Sched → Sched) : (s.upSched f).nt = s.nt := rfl
@[simp] theorem State.upSched_uptime (f : Sched → Sched) : (s.upSched f).uptime = s.uptime := rfl
@[simp] theorem State.upSched_free (f : Sched → Sched) : (s.upSched f).free = s.free := rfl
@[simp] theorem State.upSched_pending (f : Sched → Sched) : (s.upSched f).pending = s.pending := rfl

/-! `State.upTxc` -/
@[simp] theorem State.upTxc_regs (f : Txc → Txc) : (s.upTxc f).regs = s.regs := rfl
@[simp] theorem State.upTxc_mem (f : Txc → Txc) : (s.upTxc f).mem = s.mem := rfl
@[simp] theorem State.upTxc_doms (f : Txc → Txc) : (s.upTxc f).doms = s.doms := rfl
@[simp] theorem State.upTxc_cores (f : Txc → Txc) : (s.upTxc f).cores = s.cores := rfl
@[simp] theorem State.upTxc_pair (f : Txc → Txc) : (s.upTxc f).pair = s.pair := rfl
@[simp] theorem State.upTxc_boot (f : Txc → Txc) : (s.upTxc f).boot = s.boot := rfl
@[simp] theorem State.upTxc_stg (f : Txc → Txc) : (s.upTxc f).stg = s.stg := rfl
@[simp] theorem State.upTxc_dram (f : Txc → Txc) : (s.upTxc f).dram = s.dram := rfl
@[simp] theorem State.upTxc_nvm (f : Txc → Txc) : (s.upTxc f).nvm = s.nvm := rfl
@[simp] theorem State.upTxc_flt (f : Txc → Txc) : (s.upTxc f).flt = s.flt := rfl
@[simp] theorem State.upTxc_cueQ (f : Txc → Txc) : (s.upTxc f).cueQ = s.cueQ := rfl
@[simp] theorem State.upTxc_cells (f : Txc → Txc) : (s.upTxc f).cells = s.cells := rfl
@[simp] theorem State.upTxc_rxc (f : Txc → Txc) : (s.upTxc f).rxc = s.rxc := rfl
@[simp] theorem State.upTxc_fec (f : Txc → Txc) : (s.upTxc f).fec = s.fec := rfl
@[simp] theorem State.upTxc_txc (f : Txc → Txc) : (s.upTxc f).txc = f s.txc := rfl
@[simp] theorem State.upTxc_cal (f : Txc → Txc) : (s.upTxc f).cal = s.cal := rfl
@[simp] theorem State.upTxc_lnk (f : Txc → Txc) : (s.upTxc f).lnk = s.lnk := rfl
@[simp] theorem State.upTxc_ntime (f : Txc → Txc) : (s.upTxc f).ntime = s.ntime := rfl
@[simp] theorem State.upTxc_trk (f : Txc → Txc) : (s.upTxc f).trk = s.trk := rfl
@[simp] theorem State.upTxc_sched (f : Txc → Txc) : (s.upTxc f).sched = s.sched := rfl
@[simp] theorem State.upTxc_rtc (f : Txc → Txc) : (s.upTxc f).rtc = s.rtc := rfl
@[simp] theorem State.upTxc_pwr (f : Txc → Txc) : (s.upTxc f).pwr = s.pwr := rfl
@[simp] theorem State.upTxc_hub (f : Txc → Txc) : (s.upTxc f).hub = s.hub := rfl
@[simp] theorem State.upTxc_timers (f : Txc → Txc) : (s.upTxc f).timers = s.timers := rfl
@[simp] theorem State.upTxc_twb (f : Txc → Txc) : (s.upTxc f).twb = s.twb := rfl
@[simp] theorem State.upTxc_csp (f : Txc → Txc) : (s.upTxc f).csp = s.csp := rfl
@[simp] theorem State.upTxc_hwn (f : Txc → Txc) : (s.upTxc f).hwn = s.hwn := rfl
@[simp] theorem State.upTxc_pins (f : Txc → Txc) : (s.upTxc f).pins = s.pins := rfl
@[simp] theorem State.upTxc_keys (f : Txc → Txc) : (s.upTxc f).keys = s.keys := rfl
@[simp] theorem State.upTxc_svc (f : Txc → Txc) : (s.upTxc f).svc = s.svc := rfl
@[simp] theorem State.upTxc_heldAcc (f : Txc → Txc) : (s.upTxc f).heldAcc = s.heldAcc := rfl
@[simp] theorem State.upTxc_rdata (f : Txc → Txc) : (s.upTxc f).rdata = s.rdata := rfl
@[simp] theorem State.upTxc_nt (f : Txc → Txc) : (s.upTxc f).nt = s.nt := rfl
@[simp] theorem State.upTxc_uptime (f : Txc → Txc) : (s.upTxc f).uptime = s.uptime := rfl
@[simp] theorem State.upTxc_free (f : Txc → Txc) : (s.upTxc f).free = s.free := rfl
@[simp] theorem State.upTxc_pending (f : Txc → Txc) : (s.upTxc f).pending = s.pending := rfl

/-! `upCell` -/
@[simp] theorem upCell_regs (k : Fin 16) (f : Cell → Cell) : (upCell s k f).regs = s.regs := rfl
@[simp] theorem upCell_mem (k : Fin 16) (f : Cell → Cell) : (upCell s k f).mem = s.mem := rfl
@[simp] theorem upCell_doms (k : Fin 16) (f : Cell → Cell) : (upCell s k f).doms = s.doms := rfl
@[simp] theorem upCell_cores (k : Fin 16) (f : Cell → Cell) : (upCell s k f).cores = s.cores := rfl
@[simp] theorem upCell_pair (k : Fin 16) (f : Cell → Cell) : (upCell s k f).pair = s.pair := rfl
@[simp] theorem upCell_boot (k : Fin 16) (f : Cell → Cell) : (upCell s k f).boot = s.boot := rfl
@[simp] theorem upCell_stg (k : Fin 16) (f : Cell → Cell) : (upCell s k f).stg = s.stg := rfl
@[simp] theorem upCell_dram (k : Fin 16) (f : Cell → Cell) : (upCell s k f).dram = s.dram := rfl
@[simp] theorem upCell_nvm (k : Fin 16) (f : Cell → Cell) : (upCell s k f).nvm = s.nvm := rfl
@[simp] theorem upCell_flt (k : Fin 16) (f : Cell → Cell) : (upCell s k f).flt = s.flt := rfl
@[simp] theorem upCell_cueQ (k : Fin 16) (f : Cell → Cell) : (upCell s k f).cueQ = s.cueQ := rfl
@[simp] theorem upCell_cells (k : Fin 16) (f : Cell → Cell) : (upCell s k f).cells = s.cells.set k (f s.cells[k]) := rfl
@[simp] theorem upCell_rxc (k : Fin 16) (f : Cell → Cell) : (upCell s k f).rxc = s.rxc := rfl
@[simp] theorem upCell_fec (k : Fin 16) (f : Cell → Cell) : (upCell s k f).fec = s.fec := rfl
@[simp] theorem upCell_txc (k : Fin 16) (f : Cell → Cell) : (upCell s k f).txc = s.txc := rfl
@[simp] theorem upCell_cal (k : Fin 16) (f : Cell → Cell) : (upCell s k f).cal = s.cal := rfl
@[simp] theorem upCell_lnk (k : Fin 16) (f : Cell → Cell) : (upCell s k f).lnk = s.lnk := rfl
@[simp] theorem upCell_ntime (k : Fin 16) (f : Cell → Cell) : (upCell s k f).ntime = s.ntime := rfl
@[simp] theorem upCell_trk (k : Fin 16) (f : Cell → Cell) : (upCell s k f).trk = s.trk := rfl
@[simp] theorem upCell_sched (k : Fin 16) (f : Cell → Cell) : (upCell s k f).sched = s.sched := rfl
@[simp] theorem upCell_rtc (k : Fin 16) (f : Cell → Cell) : (upCell s k f).rtc = s.rtc := rfl
@[simp] theorem upCell_pwr (k : Fin 16) (f : Cell → Cell) : (upCell s k f).pwr = s.pwr := rfl
@[simp] theorem upCell_hub (k : Fin 16) (f : Cell → Cell) : (upCell s k f).hub = s.hub := rfl
@[simp] theorem upCell_timers (k : Fin 16) (f : Cell → Cell) : (upCell s k f).timers = s.timers := rfl
@[simp] theorem upCell_twb (k : Fin 16) (f : Cell → Cell) : (upCell s k f).twb = s.twb := rfl
@[simp] theorem upCell_csp (k : Fin 16) (f : Cell → Cell) : (upCell s k f).csp = s.csp := rfl
@[simp] theorem upCell_hwn (k : Fin 16) (f : Cell → Cell) : (upCell s k f).hwn = s.hwn := rfl
@[simp] theorem upCell_pins (k : Fin 16) (f : Cell → Cell) : (upCell s k f).pins = s.pins := rfl
@[simp] theorem upCell_keys (k : Fin 16) (f : Cell → Cell) : (upCell s k f).keys = s.keys := rfl
@[simp] theorem upCell_svc (k : Fin 16) (f : Cell → Cell) : (upCell s k f).svc = s.svc := rfl
@[simp] theorem upCell_heldAcc (k : Fin 16) (f : Cell → Cell) : (upCell s k f).heldAcc = s.heldAcc := rfl
@[simp] theorem upCell_rdata (k : Fin 16) (f : Cell → Cell) : (upCell s k f).rdata = s.rdata := rfl
@[simp] theorem upCell_nt (k : Fin 16) (f : Cell → Cell) : (upCell s k f).nt = s.nt := rfl
@[simp] theorem upCell_uptime (k : Fin 16) (f : Cell → Cell) : (upCell s k f).uptime = s.uptime := rfl
@[simp] theorem upCell_free (k : Fin 16) (f : Cell → Cell) : (upCell s k f).free = s.free := rfl
@[simp] theorem upCell_pending (k : Fin 16) (f : Cell → Cell) : (upCell s k f).pending = s.pending := rfl

/-! `upTwb` -/
@[simp] theorem upTwb_regs (k : Fin 5) (f : Twb → Twb) : (upTwb s k f).regs = s.regs := rfl
@[simp] theorem upTwb_mem (k : Fin 5) (f : Twb → Twb) : (upTwb s k f).mem = s.mem := rfl
@[simp] theorem upTwb_doms (k : Fin 5) (f : Twb → Twb) : (upTwb s k f).doms = s.doms := rfl
@[simp] theorem upTwb_cores (k : Fin 5) (f : Twb → Twb) : (upTwb s k f).cores = s.cores := rfl
@[simp] theorem upTwb_pair (k : Fin 5) (f : Twb → Twb) : (upTwb s k f).pair = s.pair := rfl
@[simp] theorem upTwb_boot (k : Fin 5) (f : Twb → Twb) : (upTwb s k f).boot = s.boot := rfl
@[simp] theorem upTwb_stg (k : Fin 5) (f : Twb → Twb) : (upTwb s k f).stg = s.stg := rfl
@[simp] theorem upTwb_dram (k : Fin 5) (f : Twb → Twb) : (upTwb s k f).dram = s.dram := rfl
@[simp] theorem upTwb_nvm (k : Fin 5) (f : Twb → Twb) : (upTwb s k f).nvm = s.nvm := rfl
@[simp] theorem upTwb_flt (k : Fin 5) (f : Twb → Twb) : (upTwb s k f).flt = s.flt := rfl
@[simp] theorem upTwb_cueQ (k : Fin 5) (f : Twb → Twb) : (upTwb s k f).cueQ = s.cueQ := rfl
@[simp] theorem upTwb_cells (k : Fin 5) (f : Twb → Twb) : (upTwb s k f).cells = s.cells := rfl
@[simp] theorem upTwb_rxc (k : Fin 5) (f : Twb → Twb) : (upTwb s k f).rxc = s.rxc := rfl
@[simp] theorem upTwb_fec (k : Fin 5) (f : Twb → Twb) : (upTwb s k f).fec = s.fec := rfl
@[simp] theorem upTwb_txc (k : Fin 5) (f : Twb → Twb) : (upTwb s k f).txc = s.txc := rfl
@[simp] theorem upTwb_cal (k : Fin 5) (f : Twb → Twb) : (upTwb s k f).cal = s.cal := rfl
@[simp] theorem upTwb_lnk (k : Fin 5) (f : Twb → Twb) : (upTwb s k f).lnk = s.lnk := rfl
@[simp] theorem upTwb_ntime (k : Fin 5) (f : Twb → Twb) : (upTwb s k f).ntime = s.ntime := rfl
@[simp] theorem upTwb_trk (k : Fin 5) (f : Twb → Twb) : (upTwb s k f).trk = s.trk := rfl
@[simp] theorem upTwb_sched (k : Fin 5) (f : Twb → Twb) : (upTwb s k f).sched = s.sched := rfl
@[simp] theorem upTwb_rtc (k : Fin 5) (f : Twb → Twb) : (upTwb s k f).rtc = s.rtc := rfl
@[simp] theorem upTwb_pwr (k : Fin 5) (f : Twb → Twb) : (upTwb s k f).pwr = s.pwr := rfl
@[simp] theorem upTwb_hub (k : Fin 5) (f : Twb → Twb) : (upTwb s k f).hub = s.hub := rfl
@[simp] theorem upTwb_timers (k : Fin 5) (f : Twb → Twb) : (upTwb s k f).timers = s.timers := rfl
@[simp] theorem upTwb_twb (k : Fin 5) (f : Twb → Twb) : (upTwb s k f).twb = s.twb.set k (f s.twb[k]) := rfl
@[simp] theorem upTwb_csp (k : Fin 5) (f : Twb → Twb) : (upTwb s k f).csp = s.csp := rfl
@[simp] theorem upTwb_hwn (k : Fin 5) (f : Twb → Twb) : (upTwb s k f).hwn = s.hwn := rfl
@[simp] theorem upTwb_pins (k : Fin 5) (f : Twb → Twb) : (upTwb s k f).pins = s.pins := rfl
@[simp] theorem upTwb_keys (k : Fin 5) (f : Twb → Twb) : (upTwb s k f).keys = s.keys := rfl
@[simp] theorem upTwb_svc (k : Fin 5) (f : Twb → Twb) : (upTwb s k f).svc = s.svc := rfl
@[simp] theorem upTwb_heldAcc (k : Fin 5) (f : Twb → Twb) : (upTwb s k f).heldAcc = s.heldAcc := rfl
@[simp] theorem upTwb_rdata (k : Fin 5) (f : Twb → Twb) : (upTwb s k f).rdata = s.rdata := rfl
@[simp] theorem upTwb_nt (k : Fin 5) (f : Twb → Twb) : (upTwb s k f).nt = s.nt := rfl
@[simp] theorem upTwb_uptime (k : Fin 5) (f : Twb → Twb) : (upTwb s k f).uptime = s.uptime := rfl
@[simp] theorem upTwb_free (k : Fin 5) (f : Twb → Twb) : (upTwb s k f).free = s.free := rfl
@[simp] theorem upTwb_pending (k : Fin 5) (f : Twb → Twb) : (upTwb s k f).pending = s.pending := rfl

/-! `upCsp` -/
@[simp] theorem upCsp_regs (k : Fin 2) (f : Csp → Csp) : (upCsp s k f).regs = s.regs := rfl
@[simp] theorem upCsp_mem (k : Fin 2) (f : Csp → Csp) : (upCsp s k f).mem = s.mem := rfl
@[simp] theorem upCsp_doms (k : Fin 2) (f : Csp → Csp) : (upCsp s k f).doms = s.doms := rfl
@[simp] theorem upCsp_cores (k : Fin 2) (f : Csp → Csp) : (upCsp s k f).cores = s.cores := rfl
@[simp] theorem upCsp_pair (k : Fin 2) (f : Csp → Csp) : (upCsp s k f).pair = s.pair := rfl
@[simp] theorem upCsp_boot (k : Fin 2) (f : Csp → Csp) : (upCsp s k f).boot = s.boot := rfl
@[simp] theorem upCsp_stg (k : Fin 2) (f : Csp → Csp) : (upCsp s k f).stg = s.stg := rfl
@[simp] theorem upCsp_dram (k : Fin 2) (f : Csp → Csp) : (upCsp s k f).dram = s.dram := rfl
@[simp] theorem upCsp_nvm (k : Fin 2) (f : Csp → Csp) : (upCsp s k f).nvm = s.nvm := rfl
@[simp] theorem upCsp_flt (k : Fin 2) (f : Csp → Csp) : (upCsp s k f).flt = s.flt := rfl
@[simp] theorem upCsp_cueQ (k : Fin 2) (f : Csp → Csp) : (upCsp s k f).cueQ = s.cueQ := rfl
@[simp] theorem upCsp_cells (k : Fin 2) (f : Csp → Csp) : (upCsp s k f).cells = s.cells := rfl
@[simp] theorem upCsp_rxc (k : Fin 2) (f : Csp → Csp) : (upCsp s k f).rxc = s.rxc := rfl
@[simp] theorem upCsp_fec (k : Fin 2) (f : Csp → Csp) : (upCsp s k f).fec = s.fec := rfl
@[simp] theorem upCsp_txc (k : Fin 2) (f : Csp → Csp) : (upCsp s k f).txc = s.txc := rfl
@[simp] theorem upCsp_cal (k : Fin 2) (f : Csp → Csp) : (upCsp s k f).cal = s.cal := rfl
@[simp] theorem upCsp_lnk (k : Fin 2) (f : Csp → Csp) : (upCsp s k f).lnk = s.lnk := rfl
@[simp] theorem upCsp_ntime (k : Fin 2) (f : Csp → Csp) : (upCsp s k f).ntime = s.ntime := rfl
@[simp] theorem upCsp_trk (k : Fin 2) (f : Csp → Csp) : (upCsp s k f).trk = s.trk := rfl
@[simp] theorem upCsp_sched (k : Fin 2) (f : Csp → Csp) : (upCsp s k f).sched = s.sched := rfl
@[simp] theorem upCsp_rtc (k : Fin 2) (f : Csp → Csp) : (upCsp s k f).rtc = s.rtc := rfl
@[simp] theorem upCsp_pwr (k : Fin 2) (f : Csp → Csp) : (upCsp s k f).pwr = s.pwr := rfl
@[simp] theorem upCsp_hub (k : Fin 2) (f : Csp → Csp) : (upCsp s k f).hub = s.hub := rfl
@[simp] theorem upCsp_timers (k : Fin 2) (f : Csp → Csp) : (upCsp s k f).timers = s.timers := rfl
@[simp] theorem upCsp_twb (k : Fin 2) (f : Csp → Csp) : (upCsp s k f).twb = s.twb := rfl
@[simp] theorem upCsp_csp (k : Fin 2) (f : Csp → Csp) : (upCsp s k f).csp = s.csp.set k (f s.csp[k]) := rfl
@[simp] theorem upCsp_hwn (k : Fin 2) (f : Csp → Csp) : (upCsp s k f).hwn = s.hwn := rfl
@[simp] theorem upCsp_pins (k : Fin 2) (f : Csp → Csp) : (upCsp s k f).pins = s.pins := rfl
@[simp] theorem upCsp_keys (k : Fin 2) (f : Csp → Csp) : (upCsp s k f).keys = s.keys := rfl
@[simp] theorem upCsp_svc (k : Fin 2) (f : Csp → Csp) : (upCsp s k f).svc = s.svc := rfl
@[simp] theorem upCsp_heldAcc (k : Fin 2) (f : Csp → Csp) : (upCsp s k f).heldAcc = s.heldAcc := rfl
@[simp] theorem upCsp_rdata (k : Fin 2) (f : Csp → Csp) : (upCsp s k f).rdata = s.rdata := rfl
@[simp] theorem upCsp_nt (k : Fin 2) (f : Csp → Csp) : (upCsp s k f).nt = s.nt := rfl
@[simp] theorem upCsp_uptime (k : Fin 2) (f : Csp → Csp) : (upCsp s k f).uptime = s.uptime := rfl
@[simp] theorem upCsp_free (k : Fin 2) (f : Csp → Csp) : (upCsp s k f).free = s.free := rfl
@[simp] theorem upCsp_pending (k : Fin 2) (f : Csp → Csp) : (upCsp s k f).pending = s.pending := rfl

/-! `upTimer` -/
@[simp] theorem upTimer_regs (k : Fin 8) (f : Timer → Timer) : (upTimer s k f).regs = s.regs := rfl
@[simp] theorem upTimer_mem (k : Fin 8) (f : Timer → Timer) : (upTimer s k f).mem = s.mem := rfl
@[simp] theorem upTimer_doms (k : Fin 8) (f : Timer → Timer) : (upTimer s k f).doms = s.doms := rfl
@[simp] theorem upTimer_cores (k : Fin 8) (f : Timer → Timer) : (upTimer s k f).cores = s.cores := rfl
@[simp] theorem upTimer_pair (k : Fin 8) (f : Timer → Timer) : (upTimer s k f).pair = s.pair := rfl
@[simp] theorem upTimer_boot (k : Fin 8) (f : Timer → Timer) : (upTimer s k f).boot = s.boot := rfl
@[simp] theorem upTimer_stg (k : Fin 8) (f : Timer → Timer) : (upTimer s k f).stg = s.stg := rfl
@[simp] theorem upTimer_dram (k : Fin 8) (f : Timer → Timer) : (upTimer s k f).dram = s.dram := rfl
@[simp] theorem upTimer_nvm (k : Fin 8) (f : Timer → Timer) : (upTimer s k f).nvm = s.nvm := rfl
@[simp] theorem upTimer_flt (k : Fin 8) (f : Timer → Timer) : (upTimer s k f).flt = s.flt := rfl
@[simp] theorem upTimer_cueQ (k : Fin 8) (f : Timer → Timer) : (upTimer s k f).cueQ = s.cueQ := rfl
@[simp] theorem upTimer_cells (k : Fin 8) (f : Timer → Timer) : (upTimer s k f).cells = s.cells := rfl
@[simp] theorem upTimer_rxc (k : Fin 8) (f : Timer → Timer) : (upTimer s k f).rxc = s.rxc := rfl
@[simp] theorem upTimer_fec (k : Fin 8) (f : Timer → Timer) : (upTimer s k f).fec = s.fec := rfl
@[simp] theorem upTimer_txc (k : Fin 8) (f : Timer → Timer) : (upTimer s k f).txc = s.txc := rfl
@[simp] theorem upTimer_cal (k : Fin 8) (f : Timer → Timer) : (upTimer s k f).cal = s.cal := rfl
@[simp] theorem upTimer_lnk (k : Fin 8) (f : Timer → Timer) : (upTimer s k f).lnk = s.lnk := rfl
@[simp] theorem upTimer_ntime (k : Fin 8) (f : Timer → Timer) : (upTimer s k f).ntime = s.ntime := rfl
@[simp] theorem upTimer_trk (k : Fin 8) (f : Timer → Timer) : (upTimer s k f).trk = s.trk := rfl
@[simp] theorem upTimer_sched (k : Fin 8) (f : Timer → Timer) : (upTimer s k f).sched = s.sched := rfl
@[simp] theorem upTimer_rtc (k : Fin 8) (f : Timer → Timer) : (upTimer s k f).rtc = s.rtc := rfl
@[simp] theorem upTimer_pwr (k : Fin 8) (f : Timer → Timer) : (upTimer s k f).pwr = s.pwr := rfl
@[simp] theorem upTimer_hub (k : Fin 8) (f : Timer → Timer) : (upTimer s k f).hub = s.hub := rfl
@[simp] theorem upTimer_timers (k : Fin 8) (f : Timer → Timer) : (upTimer s k f).timers = s.timers.set k (f s.timers[k]) := rfl
@[simp] theorem upTimer_twb (k : Fin 8) (f : Timer → Timer) : (upTimer s k f).twb = s.twb := rfl
@[simp] theorem upTimer_csp (k : Fin 8) (f : Timer → Timer) : (upTimer s k f).csp = s.csp := rfl
@[simp] theorem upTimer_hwn (k : Fin 8) (f : Timer → Timer) : (upTimer s k f).hwn = s.hwn := rfl
@[simp] theorem upTimer_pins (k : Fin 8) (f : Timer → Timer) : (upTimer s k f).pins = s.pins := rfl
@[simp] theorem upTimer_keys (k : Fin 8) (f : Timer → Timer) : (upTimer s k f).keys = s.keys := rfl
@[simp] theorem upTimer_svc (k : Fin 8) (f : Timer → Timer) : (upTimer s k f).svc = s.svc := rfl
@[simp] theorem upTimer_heldAcc (k : Fin 8) (f : Timer → Timer) : (upTimer s k f).heldAcc = s.heldAcc := rfl
@[simp] theorem upTimer_rdata (k : Fin 8) (f : Timer → Timer) : (upTimer s k f).rdata = s.rdata := rfl
@[simp] theorem upTimer_nt (k : Fin 8) (f : Timer → Timer) : (upTimer s k f).nt = s.nt := rfl
@[simp] theorem upTimer_uptime (k : Fin 8) (f : Timer → Timer) : (upTimer s k f).uptime = s.uptime := rfl
@[simp] theorem upTimer_free (k : Fin 8) (f : Timer → Timer) : (upTimer s k f).free = s.free := rfl
@[simp] theorem upTimer_pending (k : Fin 8) (f : Timer → Timer) : (upTimer s k f).pending = s.pending := rfl

end Sys2Proof.Machine
end

