-- ==== Sys2Proof/Laws/Ops.lean ====
section
/-! SUPPORT. Registers and memory: what a write leaves in each register and in each byte, and that every operation on them keeps the
canonical form. -/
namespace Sys2Proof.Machine

variable (s : State)

/-! ### Registers -/

/-- What any register holds after a write of one. -/
theorem State.rd_wr (a b : Nat) (v : Word) : (s.wr a v).rd b = if b = a then v else s.rd b := sparseGet_set _ _ _ _ _

@[simp] theorem State.rd_wr_self (a : Nat) (v : Word) : (s.wr a v).rd a = v := by simp [State.rd_wr]

theorem State.rd_wr_ne {a b : Nat} (h : b ≠ a) (v : Word) : (s.wr a v).rd b = s.rd b := by simp [State.rd_wr, h]

/-- What any register holds after a field of one is set. -/
theorem State.rd_setFld (a b hi lo x : Nat) :
    (s.setFld a hi lo x).rd b = if b = a then withBits (s.rd a) hi lo x else s.rd b := State.rd_wr _ _ _ _

@[simp] theorem State.rd_setFld_self (a hi lo x : Nat) : (s.setFld a hi lo x).rd a = withBits (s.rd a) hi lo x := by
  simp [State.rd_setFld]

theorem State.rd_setFld_ne {a b : Nat} (h : b ≠ a) (hi lo x : Nat) : (s.setFld a hi lo x).rd b = s.rd b := by simp [State.rd_setFld, h]

theorem State.rd_setBit_ne {a b : Nat} (h : b ≠ a) (i : Nat) (v : Bool) : (s.setBit a i v).rd b = s.rd b := State.rd_setFld_ne s h _ _ _

theorem State.rd_bump_ne {a b : Nat} (h : b ≠ a) (hi lo n : Nat) : (s.bump a hi lo n).rd b = s.rd b := State.rd_setFld_ne s h _ _ _

theorem State.rd_raise_ne {a b : Nat} (h : b ≠ a) (hi lo n : Nat) : (s.raise a hi lo n).rd b = s.rd b := by
  unfold State.raise
  split
  · exact State.rd_setFld_ne s h _ _ _
  · rfl

/-- A field just set reads as the low bits set. -/
theorem State.fld_setFld_self (a : Nat) {hi lo : Nat} (x : Nat) (h : hi < 32) (hl : lo ≤ hi) :
    (s.setFld a hi lo x).fld a hi lo = x % 2 ^ (hi + 1 - lo) := by
  simp [State.fld, bitsOf_withBits_self _ x h hl]

/-- Another field of the same register keeps its value. -/
theorem State.fld_setFld_apart (a : Nat) {hi lo hi' lo' : Nat} (x : Nat) (h : hi < 32) (hl : lo ≤ hi) (hd : hi' < lo ∨ hi < lo') :
    (s.setFld a hi lo x).fld a hi' lo' = s.fld a hi' lo' := by
  simp [State.fld, bitsOf_withBits_ne _ x h hl hd]

/-- A field of another register keeps its value. -/
theorem State.fld_setFld_ne {a b : Nat} (h : b ≠ a) (hi lo x hi' lo' : Nat) : (s.setFld a hi lo x).fld b hi' lo' = s.fld b hi' lo' := by
  simp [State.fld, State.rd_setFld_ne s h]

theorem State.fld_wr_ne {a b : Nat} (h : b ≠ a) (v : Word) (hi lo : Nat) : (s.wr a v).fld b hi lo = s.fld b hi lo := by
  simp [State.fld, State.rd_wr_ne s h]

theorem State.fld_setBit_ne {a b : Nat} (h : b ≠ a) (i : Nat) (v : Bool) (hi lo : Nat) : (s.setBit a i v).fld b hi lo = s.fld b hi lo :=
  State.fld_setFld_ne s h _ _ _ _ _

theorem State.fld_setBit_apart (a : Nat) {i hi lo : Nat} (v : Bool) (h : i < 32) (hd : hi < i ∨ i < lo) :
    (s.setBit a i v).fld a hi lo = s.fld a hi lo := State.fld_setFld_apart s a _ h (le_refl _) hd

theorem State.bit_setFld_ne {a b : Nat} (h : b ≠ a) (hi lo x i : Nat) : (s.setFld a hi lo x).bit b i = s.bit b i := by
  simp [State.bit, State.rd_setFld_ne s h]

theorem State.bit_setFld_apart (a : Nat) {hi lo i : Nat} (x : Nat) (h : hi < 32) (hl : lo ≤ hi) (hd : i < lo ∨ hi < i) :
    (s.setFld a hi lo x).bit a i = s.bit a i := by
  simp only [State.bit, State.rd_setFld_self]
  exact testB_withBits_ne _ x h hl hd

theorem State.bit_wr_ne {a b : Nat} (h : b ≠ a) (v : Word) (i : Nat) : (s.wr a v).bit b i = s.bit b i := by
  simp [State.bit, State.rd_wr_ne s h]

/-- A bit just set reads as set. -/
theorem State.bit_setBit_self (a : Nat) {i : Nat} (v : Bool) (h : i < 32) : (s.setBit a i v).bit a i = v := by
  simp only [State.bit, State.setBit, State.rd_setFld_self]
  rw [testB_withBits_mem _ _ h (le_refl _) (le_refl _), Nat.sub_self, testBit_natBit]

theorem State.bit_setBit_ne {a b : Nat} (h : b ≠ a) (i j : Nat) (v : Bool) : (s.setBit a i v).bit b j = s.bit b j :=
  State.bit_setFld_ne s h _ _ _ _

theorem State.bit_setBit_apart (a : Nat) {i j : Nat} (v : Bool) (h : i < 32) (hd : j ≠ i) : (s.setBit a i v).bit a j = s.bit a j :=
  State.bit_setFld_apart s a _ h (le_refl _) (by omega)

/-! ### Memory -/

/-- What any byte reads as after a byte is written. -/
theorem State.byte_setByte (a b : Nat) (v : Byte) : (s.setByte a v).byte b = if b = a then v else s.byte b := sparseGet_set _ _ _ _ _

/-- What any byte reads as after bytes are written from an address up. -/
theorem State.byte_setBytes (bs : List Byte) (a b : Nat) :
    (s.setBytes a bs).byte b = if a ≤ b ∧ b < a + bs.length then bs.getD (b - a) 0 else s.byte b := by
  induction bs generalizing s a with
  | nil => simp [State.setBytes]
  | cons v vs ih =>
    rw [State.setBytes, ih, State.byte_setByte]
    by_cases h1 : a + 1 ≤ b ∧ b < a + 1 + vs.length
    · have h2 : a ≤ b ∧ b < a + (v :: vs).length := by simp only [List.length_cons]; omega
      have h3 : b - a = (b - (a + 1)) + 1 := by omega
      rw [if_pos h1, if_pos h2, h3, List.getD_cons_succ]
    · rw [if_neg h1]
      by_cases h4 : b = a
      · subst h4; simp
      · have h2 : ¬ (a ≤ b ∧ b < a + (v :: vs).length) := by simp only [List.length_cons]; omega
        rw [if_neg h4, if_neg h2]

/-- Bytes outside the range written keep their values. -/
theorem State.byte_setBytes_out (bs : List Byte) (a b : Nat) (h : b < a ∨ a + bs.length ≤ b) : (s.setBytes a bs).byte b = s.byte b := by
  rw [State.byte_setBytes, if_neg (by omega)]

/-- Bytes outside the range of a store keep their values. -/
theorem State.byte_st_out (a n v b : Nat) (h : b < a ∨ a + n ≤ b) : (s.st a n v).byte b = s.byte b :=
  State.byte_setBytes_out s _ a b (by simpa using h)

/-- A write of bytes leaves the registers alone. -/
@[simp] theorem State.setBytes_regs (bs : List Byte) (a : Nat) : (s.setBytes a bs).regs = s.regs := by
  induction bs generalizing s a with
  | nil => rfl
  | cons v vs ih => simp [State.setBytes, ih]

@[simp] theorem State.st_regs (a n v : Nat) : (s.st a n v).regs = s.regs := State.setBytes_regs _ _ _
@[simp] theorem State.stw_regs (a : Nat) (v : Word) : (s.stw a v).regs = s.regs := State.setBytes_regs _ _ _

@[simp] theorem State.wrWords_mem (ws : List Word) (a : Nat) : (s.wrWords a ws).mem = s.mem := by
  induction ws generalizing s a with
  | nil => rfl
  | cons w ws ih => simp [State.wrWords, ih]

/-! ### The canonical form -/

/-- The register file is in canonical form. -/
theorem regs_wr (h : sparseWf regReset s.regs = true) (a : Nat) (v : Word) : sparseWf regReset (s.wr a v).regs = true := sparseWf_set _ _ _ _ h

theorem regs_setFld (h : sparseWf regReset s.regs = true) (a hi lo x : Nat) : sparseWf regReset (s.setFld a hi lo x).regs = true :=
  sparseWf_set _ _ _ _ h

theorem regs_setBit (h : sparseWf regReset s.regs = true) (a i : Nat) (v : Bool) : sparseWf regReset (s.setBit a i v).regs = true :=
  sparseWf_set _ _ _ _ h

theorem regs_bump (h : sparseWf regReset s.regs = true) (a hi lo n : Nat) : sparseWf regReset (s.bump a hi lo n).regs = true :=
  sparseWf_set _ _ _ _ h

theorem regs_resetRegs (h : sparseWf regReset s.regs = true) (a n : Nat) : sparseWf regReset (s.resetRegs a n).regs = true :=
  sparseWf_filter _ _ _ h

theorem regs_wrWords (ws : List Word) (a : Nat) (h : sparseWf regReset s.regs = true) : sparseWf regReset (s.wrWords a ws).regs = true := by
  induction ws generalizing s a with
  | nil => exact h
  | cons w ws ih => exact ih _ _ (regs_wr s h a w)

/-- Every write of memory keeps its canonical form. -/
theorem mem_setByte (h : sparseWf memDefault s.mem = true) (a : Nat) (v : Byte) : sparseWf memDefault (s.setByte a v).mem = true :=
  sparseWf_set _ _ _ _ h

theorem mem_setBytes (bs : List Byte) (a : Nat) (h : sparseWf memDefault s.mem = true) : sparseWf memDefault (s.setBytes a bs).mem = true := by
  induction bs generalizing s a with
  | nil => exact h
  | cons v vs ih => exact ih _ _ (mem_setByte s h a v)

theorem mem_st (h : sparseWf memDefault s.mem = true) (a n v : Nat) : sparseWf memDefault (s.st a n v).mem = true := mem_setBytes s _ _ h

theorem mem_stw (h : sparseWf memDefault s.mem = true) (a : Nat) (v : Word) : sparseWf memDefault (s.stw a v).mem = true := mem_setBytes s _ _ h

end Sys2Proof.Machine
end

