-- ==== Sys2Proof/Laws/Access.lean ====
section
/-! SUPPORT. What an access that reaches its block does. -/
namespace Sys2Proof.Machine
open Sys2Proof.Safety

/-- A read that reaches its block leaves the word read in `rdata`. -/
theorem access_read {s : State} {who a : Nat} (h : Reaches s who a false) :
    s.access who a none = { (regRead s who a).2 with rdata := (regRead s who a).1 } := by
  simp [State.access, busAccess, busTry, busServe, h.1, h.2]

/-- A write that reaches its block and is not refused by it. -/
theorem access_write {s t : State} {who a : Nat} {v : Word} (h : Reaches s who a true) (hw : regWrite s who a v = (false, t)) :
    s.access who a (some v) = t := by
  simp [State.access, busAccess, busTry, busServe, h.1, h.2, hw]

/-- 04 R93, 20 R484: an access that the curtain blocks changes nothing but the record of the violation. -/
theorem access_blocked {s : State} {who a : Nat} {d : Option Word} (h : busReach s a ≠ .err) (hc : curtainBlocks s who a d.isSome = true) :
    s.access who a d = curtainViolation s who (BitVec.ofNat 32 a) d.isSome := by
  simp [State.access, busAccess, busTry, h, hc]

/-- 00 R5: an access to an address in no block, or to one that is not a word's, changes nothing. -/
theorem access_nowhere {s : State} {who a : Nat} {d : Option Word} (h : busReach s a = .err) : s.access who a d = s := by
  simp [State.access, busAccess, busTry, h]

end Sys2Proof.Machine
end

