-- ==== Sys2Proof/Laws/Cue.lean ====
section
/-! SUPPORT. What an event on a cue line changes: registers of the CUE block, the events on their way, and the time that the trusted image
records for UPD_MOTION; and what a log entry changes. -/
namespace Sys2Proof.Machine
open Sys2Proof.Reg

/-- Two states agree but for the CUE block, the events on their way and the record of UPD_MOTION. -/
def CueOnly (s t : State) : Prop :=
  ∃ r q m, t = { s with regs := r, cueQ := q, svc := { s.svc with motionAt := m } } ∧
    ∀ a, a / 4096 ≠ 0x30014 → sparseGet regReset r a = sparseGet regReset s.regs a

theorem CueOnly.refl (s : State) : CueOnly s s := ⟨s.regs, s.cueQ, s.svc.motionAt, rfl, fun _ _ => rfl⟩

theorem CueOnly.trans {s t u : State} (h : CueOnly s t) (k : CueOnly t u) : CueOnly s u := by
  obtain ⟨r, q, m, rfl, h⟩ := h
  obtain ⟨r', q', m', rfl, k⟩ := k
  exact ⟨r', q', m', rfl, fun a ha => (k a ha).trans (h a ha)⟩

theorem CueOnly.rd {s t : State} (h : CueOnly s t) {a : Nat} (ha : a / 4096 ≠ 0x30014) : t.rd a = s.rd a := by
  obtain ⟨r, q, m, rfl, h⟩ := h
  exact h a ha

theorem CueOnly.fields {s t : State} (h : CueOnly s t) : t.mem = s.mem ∧ t.cores = s.cores ∧ t.pair = s.pair ∧ t.doms = s.doms ∧ t.stg = s.stg ∧
    t.boot = s.boot ∧ t.flt = s.flt ∧ t.pending = s.pending ∧ t.rdata = s.rdata ∧ t.nt = s.nt := by
  obtain ⟨r, q, m, rfl, -⟩ := h
  exact ⟨rfl, rfl, rfl, rfl, rfl, rfl, rfl, rfl, rfl, rfl⟩

theorem cueOnly_setBit (s : State) {a : Nat} (ha : a / 4096 = 0x30014) (i : Nat) (v : Bool) : CueOnly s (s.setBit a i v) := by
  refine ⟨(s.setBit a i v).regs, s.cueQ, s.svc.motionAt, rfl, ?_⟩
  intro b hb
  exact State.rd_setBit_ne s (a := a) (b := b) (by rintro rfl; exact hb ha) i v

theorem cueOnly_arrive (s : State) (t : CueTarget) (h : ∀ p j, t = .irq p j → p < 64) : CueOnly s (cueArrive s t) := by
  unfold cueArrive
  split
  · cases t with
    | cons k =>
      simp only [setOvr]
      split
      · exact cueOnly_setBit s (by decide) _ _
      · exact cueOnly_setBit s (by decide) _ _
    | irq p j =>
      refine cueOnly_setBit s ?_ _ _
      have := h p j rfl
      simp only [CUE.IRQOVR]; omega
    | cell k j => exact CueOnly.refl s
  · exact ⟨s.regs, _, s.svc.motionAt, rfl, fun _ _ => rfl⟩

theorem cueOnly_foldl {α : Type} (f : State → α → State) (l : List α) (h : ∀ s, ∀ a ∈ l, CueOnly s (f s a)) : ∀ s, CueOnly s (l.foldl f s) := by
  induction l with
  | nil => intro s; exact CueOnly.refl s
  | cons a l ih =>
    intro s
    exact (h s a (List.mem_cons_self)).trans (ih (fun s b hb => h s b (List.mem_cons_of_mem _ hb)) _)

theorem cueTargets_irq {s : State} {c p j : Nat} (h : CueTarget.irq p j ∈ cueTargets s c) : p < 64 := by
  simp only [cueTargets, List.mem_append, List.mem_map, List.mem_flatMap, List.mem_range] at h
  rcases h with (⟨k, -, hk⟩ | ⟨q, hq, k, -, hk⟩) | ⟨k, -, i, -, hk⟩
  · cases hk
  · cases hk; omega
  · cases hk

theorem cueOnly_chan (s : State) {c : Nat} (hc : c < 64) : CueOnly s (emitChan s c) := by
  have h1 : CueOnly s ((cueTargets s c).foldl cueArrive (s.setBit (CUE.CHSTAT c) 1 true)) := by
    refine (cueOnly_setBit s ?_ _ _).trans (cueOnly_foldl _ _ (fun t a ha => cueOnly_arrive t a (fun p j e => ?_)) _)
    · simp only [CUE.CHSTAT]; omega
    · subst e; exact cueTargets_irq ha
  unfold emitChan
  simp only
  split
  · exact h1.trans ⟨_, _, _, rfl, fun _ _ => rfl⟩
  · exact h1

theorem cueOnly_producer (s : State) (f : Fam) (i : Nat) : CueOnly s (emitProducer s f i) := by
  unfold emitProducer
  refine cueOnly_foldl _ _ (fun t r hr => cueOnly_foldl _ _ (fun u sl _ => ?_) t) s
  split
  · next h =>
    have := List.mem_range.1 hr
    exact cueOnly_chan u (by omega)
  · exact CueOnly.refl u

theorem cueOnly_event (s : State) (evt ien b : Nat) (f : Fam) (i : Nat) :
    CueOnly (if s.bit evt b then s else s.setBit evt b true) (s.event evt ien b f i) := by
  unfold State.event State.when
  split
  · exact CueOnly.refl s
  · split
    · exact cueOnly_producer _ _ _
    · exact CueOnly.refl _

/-- An event of FLT keeps every register outside CUE and its own `FLT.EVT`. -/
theorem fltEvent_rd (s : State) (b : Nat) {a : Nat} (ha : a / 4096 ≠ 0x30014) (h2 : a ≠ FLT.EVT) : (fltEvent s b).rd a = s.rd a := by
  rw [fltEvent, (cueOnly_event s FLT.EVT FLT.IEN b .miscb 12).rd ha]
  split
  · rfl
  · exact State.rd_setBit_ne s h2 _ _

theorem fltEvent_fields (s : State) (b : Nat) : (fltEvent s b).mem = s.mem ∧ (fltEvent s b).cores = s.cores ∧ (fltEvent s b).pair = s.pair ∧
    (fltEvent s b).doms = s.doms ∧ (fltEvent s b).flt = s.flt ∧ (fltEvent s b).stg = s.stg ∧ (fltEvent s b).nt = s.nt := by
  have h := (cueOnly_event s FLT.EVT FLT.IEN b .miscb 12).fields
  rw [← fltEvent] at h
  refine ⟨h.1.trans ?_, h.2.1.trans ?_, h.2.2.1.trans ?_, h.2.2.2.1.trans ?_, h.2.2.2.2.2.2.1.trans ?_, h.2.2.2.2.1.trans ?_, h.2.2.2.2.2.2.2.2.2.trans ?_⟩ <;> split <;> rfl

/-- A log entry keeps every register outside FLT and CUE, and everything but the registers. -/
theorem logFault_rd (s : State) (cls init detail flags : Nat) (loc : Word) {a : Nat} (ha : a / 4096 ≠ 0x30014) (h2 : a / 4096 ≠ 0x30004) :
    (logFault s cls init detail flags loc).rd a = s.rd a := by
  have hh : s.fld FLT.LOGHEAD 5 0 < 64 := bitsOf_lt _ _ _
  have hne : ∀ i, i < 4 → a ≠ FLT.LOG (s.fld FLT.LOGHEAD 5 0) i := by
    intro i hi e; apply h2; rw [e]; simp only [FLT.LOG]; omega
  have hl : a ≠ FLT.LOGHEAD := by rintro rfl; exact h2 (by decide)
  have he : a ≠ FLT.EVT := by rintro rfl; exact h2 (by decide)
  unfold logFault State.when
  simp only
  rw [fltEvent_rd _ _ ha he]
  split
  · rw [fltEvent_rd _ _ ha he, State.rd_bump_ne _ hl, State.rd_bump_ne _ hl, State.rd_setFld_ne _ hl, State.rd_wr_ne _ (hne 3 (by omega)),
      State.rd_wr_ne _ (hne 2 (by omega)), State.rd_wr_ne _ (hne 1 (by omega)), State.rd_wr_ne _ (hne 0 (by omega))]
  · rw [State.rd_bump_ne _ hl, State.rd_setFld_ne _ hl, State.rd_wr_ne _ (hne 3 (by omega)),
      State.rd_wr_ne _ (hne 2 (by omega)), State.rd_wr_ne _ (hne 1 (by omega)), State.rd_wr_ne _ (hne 0 (by omega))]

theorem logFault_fields (s : State) (cls init detail flags : Nat) (loc : Word) :
    (logFault s cls init detail flags loc).mem = s.mem ∧ (logFault s cls init detail flags loc).cores = s.cores ∧
    (logFault s cls init detail flags loc).pair = s.pair ∧ (logFault s cls init detail flags loc).doms = s.doms ∧
    (logFault s cls init detail flags loc).flt = s.flt ∧ (logFault s cls init detail flags loc).stg = s.stg := by
  unfold logFault State.when
  simp only
  have k := fun t b => fltEvent_fields t b
  refine ⟨(k _ _).1.trans ?_, (k _ _).2.1.trans ?_, (k _ _).2.2.1.trans ?_, (k _ _).2.2.2.1.trans ?_, (k _ _).2.2.2.2.1.trans ?_, (k _ _).2.2.2.2.2.1.trans ?_⟩ <;> split
  · exact (k _ _).1
  · rfl
  · exact (k _ _).2.1
  · rfl
  · exact (k _ _).2.2.1
  · rfl
  · exact (k _ _).2.2.2.1
  · rfl
  · exact (k _ _).2.2.2.2.1
  · rfl
  · exact (k _ _).2.2.2.2.2.1
  · rfl

end Sys2Proof.Machine
end

