-- ==== Sys2Proof/Laws/Sys.lean ====
section
/-! SUPPORT. The laws of resets, holds, counts and words with a bit set, for the claims about system registers. -/
namespace Sys2Proof.Machine
open Sys2Proof.Reg Sys2Proof.Safety
theorem rc_read {s : State} {who a : Nat} {r : RegRow} (h : Reaches s who a false) (hk : readHook s who a = none) (hr : regRow a = some r)
    (hc : r.rc = true) : s.access who a none = { s.wr a 0 with rdata := s.rd a } := by
  rw [access_read h]
  simp [regRead, hk, hr, hc]

theorem sparseFind_filter {α : Type} (p : Nat → Bool) (k : Nat) (l : List (Nat × α)) :
    sparseFind k (l.filter (fun e => p e.1)) = if p k = true then sparseFind k l else none := by
  induction l with
  | nil => simp [sparseFind]
  | cons e l ih =>
    obtain ⟨j, v⟩ := e
    by_cases hj : j = k
    · subst hj
      by_cases hp : p j = true
      · simp [List.filter_cons, hp, sparseFind]
      · simp only [List.filter_cons, hp, Bool.false_eq_true, if_false, ih]
    · by_cases hp : p j = true
      · simp only [List.filter_cons, hp, if_true, sparseFind, hj, if_false, ih]
      · simp only [List.filter_cons, hp, Bool.false_eq_true, if_false, sparseFind, hj, ih]

theorem sparseGet_filter {α : Type} (d : Nat → α) (p : Nat → Bool) (k : Nat) (l : List (Nat × α)) :
    sparseGet d (l.filter (fun e => p e.1)) k = if p k = true then sparseGet d l k else d k := by
  unfold sparseGet
  rw [sparseFind_filter]
  by_cases hp : p k = true <;> simp [hp]

theorem setBytes_frame (bs : List Byte) : ∀ (a : Nat) (t : State), (t.setBytes a bs).cores = t.cores ∧ (t.setBytes a bs).regs = t.regs ∧ (t.setBytes a bs).pair = t.pair := by
  induction bs with
  | nil => intro a t; exact ⟨rfl, rfl, rfl⟩
  | cons b l ih => intro a t; exact ih _ _

theorem sparseFind_filter_some {α : Type} (P : Nat × α → Bool) (k : Nat) (v : α) (hP : P (k, v) = true) : ∀ l : List (Nat × α),
    sparseFind k l = some v → sparseFind k (l.filter P) = some v
  | [], h => by simp [sparseFind] at h
  | (j, w) :: l, h => by
    by_cases hj : j = k
    · subst hj
      simp only [sparseFind, if_true, Option.some.injEq] at h
      subst h
      simp [List.filter_cons, hP, sparseFind]
    · simp only [sparseFind, hj, if_false] at h
      by_cases hp : P (j, w) = true
      · simp only [List.filter_cons, hp, if_true, sparseFind, hj, if_false]
        exact sparseFind_filter_some P k v hP l h
      · simp only [List.filter_cons, hp, Bool.false_eq_true, if_false]
        exact sparseFind_filter_some P k v hP l h

theorem sparseFind_filter_none {α : Type} (P : Nat × α → Bool) (k : Nat) : ∀ l : List (Nat × α),
    (∀ v, (k, v) ∈ l → P (k, v) = false) → sparseFind k (l.filter P) = none
  | [], _ => rfl
  | (j, w) :: l, h => by
    have ih := sparseFind_filter_none P k l (fun v hv => h v (List.mem_cons_of_mem _ hv))
    by_cases hp : P (j, w) = true
    · have hj : j ≠ k := by rintro rfl; have := h w (List.mem_cons_self ..); rw [hp] at this; exact Bool.noConfusion this
      simp only [List.filter_cons, hp, if_true, sparseFind, hj, if_false, ih]
    · simp only [List.filter_cons, hp, Bool.false_eq_true, if_false, ih]

theorem sparseFind_mem {α : Type} {k : Nat} {v : α} : ∀ {l : List (Nat × α)}, sparseFind k l = some v → (k, v) ∈ l
  | [], h => by simp [sparseFind] at h
  | (j, w) :: l, h => by
    by_cases hj : j = k
    · subst hj; simp only [sparseFind, if_true, Option.some.injEq] at h; subst h; exact List.mem_cons_self ..
    · simp only [sparseFind, hj, if_false] at h; exact List.mem_cons_of_mem _ (sparseFind_mem h)

/-- A filter that looks at the first entry of a key as it looks at any. -/
theorem sparseGet_filter_keep {α : Type} (d : Nat → α) (P : Nat × α → Bool) (k : Nat) (l : List (Nat × α)) (keep : Bool)
    (h1 : keep = false → ∀ v, P (k, v) = false) (h2 : keep = true → ∀ v, sparseFind k l = some v → P (k, v) = true) :
    sparseGet d (l.filter P) k = if keep = true then sparseGet d l k else d k := by
  cases keep
  · unfold sparseGet; rw [sparseFind_filter_none P k l (fun v _ => h1 rfl v)]; rfl
  · simp only [if_true]
    unfold sparseGet
    cases hf : sparseFind k l with
    | none =>
      have : ∀ v, (k, v) ∉ l := by
        intro v hv
        clear h1 h2
        induction l with
        | nil => cases hv
        | cons e l ih =>
          obtain ⟨j, w⟩ := e
          by_cases hj : j = k
          · subst hj; simp [sparseFind] at hf
          · simp only [sparseFind, hj, if_false] at hf
            rcases List.mem_cons.1 hv with he | hm
            · exact hj (congrArg Prod.fst he).symm
            · exact ih hf hm
      rw [sparseFind_filter_none P k l (fun v hv => absurd hv (this v))]
    | some v => rw [sparseFind_filter_some P k v (h2 rfl v hf) l hf]

/-- Cutting short an array operation touches memory, the flash controller's own state and the free values only. -/
theorem flashCut_keep {α : Type} (φ : State → α) (h1 : ∀ t n, φ { t with free := n } = φ t) (h2 : ∀ t a b, φ (t.setByte a b) = φ t)
    (h3 : ∀ t f, φ (t.upNvm f) = φ t) (s : State) : φ (flashCut s) = φ s := by
  have hr : ∀ (n : Nat) (t : State), φ (t.drawBytes n).2 = φ t := by
    intro n; induction n with
    | zero => intro t; rfl
    | succ n ih => intro t; exact (ih _).trans (h1 _ _)
  have hs : ∀ (bs : List Byte) (t : State) (a : Nat), φ (t.setBytes a bs) = φ t := by
    intro bs; induction bs with
    | nil => intro t a; rfl
    | cons b l ih => intro t a; exact (ih _ _).trans (h2 _ _ _)
  have ht : ∀ (t : State) (f : Nat), φ (tearBurst t f) = φ t := fun t f => by
    unfold tearBurst; exact (h3 _ _).trans ((hs _ _ _).trans (hr _ _))
  have hp : ∀ (t : State) (f : Nat), φ (cutProgram t f) = φ t := fun t f => by
    unfold cutProgram; simp only; split
    · exact (hs _ _ _).trans ((hr _ _).trans (ht _ _))
    · exact ht _ _
  have he : ∀ (t : State) (f : Nat), φ (halfErase t f) = φ t := fun t f => by
    unfold halfErase; exact (h3 _ _).trans ((hs _ _ _).trans (hr _ _))
  unfold flashCut
  have key : ∀ t : State, φ t = φ s → φ (match t.nvm.erase with | some o => halfErase t o.off | none => t) = φ s := by
    intro t h; split
    · exact (he _ _).trans h
    · exact h
  refine key _ ?_
  split
  · split
    · rfl
    · exact hp _ _
  · rfl

theorem flashCut_regs (s : State) : (flashCut s).regs = s.regs :=
  flashCut_keep State.regs (fun _ _ => rfl) (fun _ _ _ => rfl) (fun _ _ => rfl) s

/-- What a main reset starts from: an array operation and an OTP command are cut short. -/
abbrev cutShort (s : State) : State := otpCut (flashCut s)

theorem otpBurn_rest (bs : List Byte) : ∀ (s : State) (a : Nat), (s.otpBurn a bs).regs = s.regs ∧ (s.otpBurn a bs).mem = s.mem := by
  induction bs with
  | nil => intro s a; exact ⟨rfl, rfl⟩
  | cons b l ih => intro s a; exact ih _ _

theorem burnFuse_rest (s : State) (i a : Nat) (h : a ≠ SYS.LIFECYCLE) (h2 : a ≠ KEY.STATUS) : (burnFuse s i).rd a = s.rd a ∧ (burnFuse s i).mem = s.mem := by
  unfold burnFuse
  refine ⟨?_, ?_⟩
  · rw [State.setBit, State.rd_setFld_ne _ h2, State.rd_wr_ne _ h]
    unfold State.rd; rw [(otpBurn_rest _ _ _).1]
  · show (((s.otpBurn 0x500 _).wr _ _).setBit _ _ _).mem = _
    rw [State.setBit_mem, State.wr_mem]; exact (otpBurn_rest _ _ _).2

theorem otpCut_rest (s : State) (a : Nat) (h : a ≠ SYS.LIFECYCLE) (h2 : a ≠ KEY.STATUS) : (otpCut s).rd a = s.rd a ∧ (otpCut s).mem = s.mem := by
  have hb : ∀ (t : State) (x : Nat) (bs : List Byte), (t.otpBurn x bs).rd a = t.rd a ∧ (t.otpBurn x bs).mem = t.mem := fun t x bs =>
    ⟨by unfold State.rd; rw [(otpBurn_rest _ _ _).1], (otpBurn_rest _ _ _).2⟩
  unfold otpCut
  split
  · exact ⟨rfl, rfl⟩
  · simp only
    split
    · split
      · exact hb _ _ _
      · exact ⟨rfl, rfl⟩
    · split
      · exact hb { s with free := s.free + 1 } _ _
      · exact ⟨rfl, rfl⟩
    · split
      · exact burnFuse_rest { s with free := s.free + 1 } 3 a h h2
      · exact ⟨rfl, rfl⟩
    · split
      · exact burnFuse_rest { s with free := s.free + 1 } 6 a h h2
      · exact ⟨rfl, rfl⟩

theorem cutShort_rd (s : State) (a : Nat) (h : a ≠ SYS.LIFECYCLE) (h2 : a ≠ KEY.STATUS) : (cutShort s).rd a = s.rd a :=
  ((otpCut_rest _ a h h2).1).trans (by unfold State.rd; rw [flashCut_regs])

theorem otpBurn_pending (bs : List Byte) : ∀ (s : State) (a : Nat), (s.otpBurn a bs).pending = s.pending := by
  induction bs with
  | nil => intro s a; rfl
  | cons b l ih => intro s a; exact ih _ _

theorem cutShort_pending (s : State) : (cutShort s).pending = s.pending := by
  have h : (flashCut s).pending = s.pending := flashCut_keep State.pending (fun _ _ => rfl) (fun _ _ _ => rfl) (fun _ _ => rfl) s
  refine Eq.trans ?_ h
  unfold cutShort otpCut
  have hf : ∀ (t : State) i, (burnFuse t i).pending = t.pending := fun t i => by
    unfold burnFuse; exact otpBurn_pending _ _ _
  generalize flashCut s = u
  split
  · rfl
  · simp only
    split
    · split
      · exact otpBurn_pending _ _ _
      · rfl
    · split
      · exact otpBurn_pending _ { u with free := u.free + 1 } _
      · rfl
    · split
      · exact hf { u with free := u.free + 1 } 3
      · rfl
    · split
      · exact hf { u with free := u.free + 1 } 6
      · rfl

theorem cutShort_byte (s : State) (b : Nat) : (cutShort s).byte b = (flashCut s).byte b := by
  unfold State.byte; rw [(otpCut_rest _ 0 (by decide) (by decide)).2]

theorem cutShort_none {s : State} (h1 : s.nvm.prog = none) (h2 : s.nvm.erase = none) (h3 : s.keys.otpCmd = none) : cutShort s = s := by
  have : flashCut s = s := by unfold flashCut; simp only [h1, h2]
  unfold cutShort; rw [this]; unfold otpCut; rw [h3]

/-- 18 R454: a register that a main reset takes for an unlearned entry of the trim table. -/
abbrev Unlearned (s : State) (a : Nat) : Prop := unlearned (a, s.rd a) = true

theorem mainReset_regs (s : State) (cause : Nat) (power : Bool) (a : Nat) (h : a ≠ SYS.RSTCAUSE) (h2 : power = false → a ≠ FLT.ESC) :
    (mainReset s cause power).rd a =
      sparseGet regReset ((cutShort s).regs.filter (fun e => (if power then keptAtPower e.1 else keptReg e.1) && !unlearned e)) a := by
  unfold mainReset
  cases power
  · simp only [Bool.false_eq_true, if_false]
    rw [State.rd_setFld_ne _ (h2 rfl), State.rd_wr_ne _ h]
    rfl
  · simp only [if_true]
    rw [State.rd_wr_ne _ h]
    rfl

/-- Every other register of a kept list keeps its value, but an unlearned entry of the trim table; all others have their reset value. -/
theorem mainReset_rd (s : State) (cause : Nat) (power : Bool) (a : Nat) (h : a ≠ SYS.RSTCAUSE) (h2 : power = false → a ≠ FLT.ESC)
    (h3 : a = SYS.LIFECYCLE → s.keys.otpCmd = none) (h4 : ¬ Unlearned s a) :
    (mainReset s cause power).rd a = if (if power then keptAtPower a else keptReg a) = true then s.rd a else regReset a := by
  rw [mainReset_regs _ _ _ _ h h2]
  by_cases h5 : a = KEY.STATUS
  · subst h5
    have hk : (if power then keptAtPower KEY.STATUS else keptReg KEY.STATUS) = false := by cases power <;> decide
    rw [hk, sparseGet_filter_keep regReset _ KEY.STATUS _ false (fun _ v => by simp only [hk, Bool.false_and]) (fun x => by cases x)]
    simp
  · have hr : (cutShort s).rd a = s.rd a := by
      by_cases h6 : a = SYS.LIFECYCLE
      · have hk : (flashCut s).keys.otpCmd = none :=
          (flashCut_keep (fun t => t.keys.otpCmd) (fun _ _ => rfl) (fun _ _ _ => rfl) (fun _ _ => rfl) s).trans (h3 h6)
        unfold cutShort otpCut; rw [hk]; unfold State.rd; rw [flashCut_regs]
      · exact cutShort_rd s a h6 h5
    rw [sparseGet_filter_keep regReset _ a _ (if power then keptAtPower a else keptReg a)]
    · rw [← hr]; unfold State.rd; rfl
    · intro hk v; simp only [hk, Bool.false_and]
    · intro hk v hv
      have hv2 : v = s.rd a := by rw [← hr]; unfold State.rd sparseGet; rw [hv]
      subst hv2
      simp only [hk, Bool.true_and]
      cases hu : unlearned (a, s.rd a)
      · rfl
      · exact absurd hu h4

/-- In a canonical list a key is found with the value of any of its entries. -/
theorem sparseFind_of_mem {α : Type} [DecidableEq α] {d : Nat → α} {k : Nat} {v : α} : ∀ {l : List (Nat × α)}, sparseWf d l = true → (k, v) ∈ l →
    sparseFind k l = some v
  | [], _, h => by cases h
  | (j, w) :: l, hw, h => by
    have hp := (sparseWf_iff d _).1 hw
    have hc := List.pairwise_cons.1 hp.1
    rcases List.mem_cons.1 h with he | hm
    · cases he; simp [sparseFind]
    · have hj : j ≠ k := Nat.ne_of_lt (hc.1 _ hm)
      simp only [sparseFind, hj, if_false]
      exact sparseFind_of_mem ((sparseWf_iff d _).2 ⟨hc.2, fun e he => hp.2 e (List.mem_cons_of_mem _ he)⟩) hm

/-- Cutting short an operation keeps the registers' canonical form. -/
theorem sparseWf_cutShort (s : State) (h : sparseWf regReset s.regs = true) : sparseWf regReset (cutShort s).regs = true := by
  have h0 : sparseWf regReset (flashCut s).regs = true := by rw [flashCut_regs]; exact h
  have hw : ∀ (t : State) a v, sparseWf regReset t.regs = true → sparseWf regReset (t.wr a v).regs = true := fun t a v h => sparseWf_set _ _ _ _ h
  have hf : ∀ (t : State) i, sparseWf regReset t.regs = true → sparseWf regReset (burnFuse t i).regs = true := fun t i h => by
    unfold burnFuse
    refine hw _ _ _ (hw _ _ _ ?_)
    rw [(otpBurn_rest _ _ _).1]; exact h
  unfold cutShort otpCut
  generalize flashCut s = u at h0
  have hb : ∀ x bs, sparseWf regReset (u.otpBurn x bs).regs = true := fun x bs => by rw [(otpBurn_rest _ _ _).1]; exact h0
  split
  · exact h0
  · simp only
    split
    · split
      · exact hb _ _
      · exact h0
    · split
      · rw [(otpBurn_rest _ _ _).1]; exact h0
      · exact h0
    · split
      · exact hf { u with free := u.free + 1 } 3 h0
      · exact h0
    · split
      · exact hf { u with free := u.free + 1 } 6 h0
      · exact h0

/-- 18 R454: an unlearned entry of the trim table has its reset value after every main reset. -/
theorem mainReset_unlearned (s : State) (cause : Nat) (power : Bool) (a : Nat) (hw : sparseWf regReset s.regs = true) (h4 : Unlearned s a) :
    (mainReset s cause power).rd a = regReset a := by
  have hb : RTC.TTAB 0 ≤ a ∧ a ≤ RTC.TTAB 15 := by
    have h := h4; unfold Unlearned unlearned at h; simp only [Bool.and_eq_true, decide_eq_true_eq] at h; exact h.1
  have hne : ∀ x : Nat, (x < RTC.TTAB 0 ∨ RTC.TTAB 15 < x) → a ≠ x := by rintro x hx rfl; omega
  rw [mainReset_regs _ _ _ _ (hne _ (by decide)) (fun _ => hne _ (by decide))]
  have hne2 : ∀ v, (a, v) ∈ (cutShort s).regs → v = s.rd a := by
    intro v hv
    have hf := sparseFind_of_mem (sparseWf_cutShort s hw) hv
    have hr := cutShort_rd s a (hne _ (by decide)) (hne _ (by decide))
    unfold State.rd sparseGet at hr
    rw [hf] at hr
    exact hr
  unfold sparseGet
  rw [sparseFind_filter_none _ _ _ (fun v hv => by rw [hne2 v hv]; rw [h4, Bool.not_true, Bool.and_false])]

theorem mainReset_byte (s : State) (cause : Nat) (power : Bool) (b : Nat) :
    (mainReset s cause power).byte b = if power = true ∧ nonVolatile b = false then memDefault b else (flashCut s).byte b := by
  rw [← cutShort_byte]
  unfold mainReset
  cases power
  · simp only [Bool.false_eq_true, if_false, false_and]
    rfl
  · simp only [if_true, true_and]
    show sparseGet memDefault ((cutShort s).mem.filter (fun e => nonVolatile e.1)) b = _
    rw [sparseGet_filter]
    cases nonVolatile b <;> rfl

theorem mainReset_rest (s : State) (cause : Nat) (power : Bool) : (mainReset s cause power).cores = State.reset.cores ∧
    (mainReset s cause power).doms = State.reset.doms ∧ (mainReset s cause power).pending = s.pending := by
  rw [← cutShort_pending s]
  unfold mainReset
  cases power <;> exact ⟨rfl, rfl, rfl⟩

theorem mainReset_cause (s : State) (cause : Nat) (power : Bool) : (mainReset s cause power).rd SYS.RSTCAUSE =
    BitVec.ofNat 32 (if power then cause else (s.rd SYS.RSTCAUSE).toNat ||| cause) := by
  rw [← cutShort_rd s SYS.RSTCAUSE (by decide) (by decide)]
  unfold mainReset
  cases power
  · simp only [Bool.false_eq_true, if_false]
    rw [State.rd_setFld_ne _ (show SYS.RSTCAUSE ≠ FLT.ESC by decide), State.rd_wr]; simp
  · simp only [if_true]
    rw [State.rd_wr]; simp

theorem mainReset_warm (s : State) (cause : Nat) : (mainReset s cause false).fld FLT.ESC 15 8 = s.fld FLT.ESC 15 8 := by
  have : (cutShort s).fld FLT.ESC 15 8 = s.fld FLT.ESC 15 8 := by unfold State.fld; rw [cutShort_rd s FLT.ESC (by decide) (by decide)]
  rw [← this]
  unfold mainReset
  simp only [Bool.false_eq_true, if_false]
  rw [State.fld_setFld_self _ _ _ (by decide) (by decide)]
  exact Nat.mod_eq_of_lt (bitsOf_lt _ _ _)

theorem bitsOf_withBits_A5 (v : Word) : bitsOf (withBits v 7 0 0xA5) 7 0 = 0xA5 := by rw [bitsOf_withBits_self _ _ (by decide) (by decide)]; rfl

theorem bit_word (s : State) (a : Nat) (n : Fin 5) (b : Bool) (m : Nat) (hm : m < 5) :
    testB (BitVec.ofNat 32 (bitsOf (withBits (s.rd a) n.val n.val (natBit b)) 4 0)).toNat m = if m = n.val then b else s.bit a m := by
  have hn := n.isLt
  rw [testB_toNat, BitVec.getLsbD_ofNat, testBit_bitsOf, getLsbD_withBits _ _ (by omega) (by omega)]
  have : m < 32 := by omega
  by_cases h : m = n.val
  · subst h; cases b <;> simp [natBit, hn, this]
  · have h2 : ¬ (n.val ≤ m ∧ m ≤ n.val) := by omega
    simp [h, h2, hm, this, State.bit, testB_toNat]

theorem bit_word_hi (s : State) (a : Nat) (n : Fin 5) (b : Bool) (m : Nat) (hm : 5 ≤ m) :
    testB (BitVec.ofNat 32 (bitsOf (withBits (s.rd a) n.val n.val (natBit b)) 4 0)).toNat m = false := by
  rw [testB_toNat, BitVec.getLsbD_ofNat, testBit_bitsOf]
  have : ¬ m < 5 := by omega
  simp [this]

theorem testB_vSet (v : Word) (b m : Nat) (hb : b < 32) : testB (vSet v b).toNat m = (testB v.toNat m || decide (m = b)) := by
  rw [testB_toNat, testB_toNat, vSet, BitVec.getLsbD_or, BitVec.getLsbD_ofNat]
  by_cases h : m = b
  · subst h; simp [hb]
  · have h2 : b ≠ m := fun e => h e.symm
    simp [h, Nat.testBit_two_pow, h2]

theorem testB_vClr (v : Word) (b m : Nat) (hb : b < 32) : testB (vClr v b).toNat m = (testB v.toNat m && !decide (m = b)) := by
  rw [testB_toNat, testB_toNat, vClr, BitVec.getLsbD_and, BitVec.getLsbD_not, BitVec.getLsbD_ofNat]
  by_cases h : m < 32
  · by_cases h2 : m = b
    · subst h2; simp [h]
    · have h3 : b ≠ m := fun e => h2 e.symm
      simp [h, h2, Nat.testBit_two_pow, h3]
  · have := BitVec.getLsbD_of_ge v m (by omega)
    simp [this]

/-- One core's part of a write of the holds. -/
def holdStep (v : Word) (s : State) (n : Fin 5) : State :=
  let p : Fin 6 := ⟨n.val, by omega⟩
  let was := s.bit SYS.PLAYHOLD n.val
  if testB v.toNat n.val ∧ ¬ was then
    wdRestart ((s.setBit SYS.PLAYHOLD n.val true).upCore p (fun c => { c with run := if c.run = .stopped then .stopped else .held })) n.val
  else if ¬ testB v.toNat n.val ∧ was ∧ (s.phase = 1 ∨ s.phase = 2) then enterPowered (s.setBit SYS.PLAYHOLD n.val false) p
  else s

theorem playhold_eq (s : State) (v : Word) (h : ∀ n : Fin 5, testB v.toNat (8 + n.val) = false) :
    playholdWrite s v = (List.finRange 5).foldl (holdStep v) s := by
  unfold playholdWrite
  have : (List.finRange 5).foldl (fun (s : State) (n : Fin 5) =>
    s.when (testB v.toNat (8 + n.val)) (fun s => playerRst s ⟨n.val, by omega⟩)) s = s := by
    generalize List.finRange 5 = l
    induction l with
    | nil => rfl
    | cons a l ih => simp only [List.foldl_cons, h a, State.when, Bool.false_eq_true, if_false]; exact ih
  simp only [this]
  rfl

theorem holdStep_same {v : Word} {s : State} {n : Fin 5} (h : testB v.toNat n.val = s.bit SYS.PLAYHOLD n.val) : holdStep v s n = s := by
  unfold holdStep
  simp only [h]
  cases s.bit SYS.PLAYHOLD n.val <;> simp

theorem wd_bit (s : State) (p i : Nat) : (wdRestart s p).bit SYS.PLAYHOLD i = s.bit SYS.PLAYHOLD i := by
  unfold wdRestart
  refine State.bit_setFld_ne _ ?_ _ _ _ _
  simp only [FLT.WDSTAT, SYS.PLAYHOLD]; omega

theorem enterPowered_regs (s : State) (p : Fin 6) : (enterPowered s p).regs = s.regs := by
  unfold enterPowered enterCore startCore; split
  · rfl
  · split <;> rfl

theorem holdStep_bit (v : Word) (s : State) (n : Fin 5) (m : Nat) (h : m ≠ n.val) : (holdStep v s n).bit SYS.PLAYHOLD m = s.bit SYS.PLAYHOLD m := by
  unfold holdStep
  simp only
  split
  · rw [wd_bit]
    exact State.bit_setBit_apart _ _ _ (by have := n.isLt; omega) h
  · split
    · have : ∀ (t : State) (p : Fin 6), (enterPowered t p).bit SYS.PLAYHOLD m = t.bit SYS.PLAYHOLD m := by
        intro t p; unfold State.bit State.rd; rw [enterPowered_regs]
      rw [this]
      exact State.bit_setBit_apart _ _ _ (by have := n.isLt; omega) h
    · rfl

theorem playhold_word (s : State) (n : Fin 5) (b : Bool) :
    playholdWrite s (BitVec.ofNat 32 (bitsOf (withBits (s.rd SYS.PLAYHOLD) n.val n.val (natBit b)) 4 0)) =
      holdStep (BitVec.ofNat 32 (bitsOf (withBits (s.rd SYS.PLAYHOLD) n.val n.val (natBit b)) 4 0)) s n := by
  rw [playhold_eq s _ (fun m => bit_word_hi s _ n b _ (by omega))]
  set v := BitVec.ofNat 32 (bitsOf (withBits (s.rd SYS.PLAYHOLD) n.val n.val (natBit b)) 4 0) with hv
  have h1 : ∀ m : Fin 5, m ≠ n → holdStep v s m = s := by
    intro m hm
    refine holdStep_same ?_
    rw [hv, bit_word s _ n b m.val m.isLt, if_neg (fun e => hm (Fin.ext e))]
  have h2 : ∀ m : Fin 5, m ≠ n → holdStep v (holdStep v s n) m = holdStep v s n := by
    intro m hm
    refine holdStep_same ?_
    rw [holdStep_bit _ _ _ _ (fun e => hm (Fin.ext e)), hv, bit_word s _ n b m.val m.isLt, if_neg (fun e => hm (Fin.ext e))]
  show holdStep v (holdStep v (holdStep v (holdStep v (holdStep v s 0) 1) 2) 3) 4 = _
  clear_value v
  have hcase : n = 0 ∨ n = 1 ∨ n = 2 ∨ n = 3 ∨ n = 4 := by clear hv h1 h2; revert n; decide
  rcases hcase with rfl | rfl | rfl | rfl | rfl
  · rw [h2 1 (by decide), h2 2 (by decide), h2 3 (by decide), h2 4 (by decide)]
  · rw [h1 0 (by decide), h2 2 (by decide), h2 3 (by decide), h2 4 (by decide)]
  · rw [h1 0 (by decide), h1 1 (by decide), h2 3 (by decide), h2 4 (by decide)]
  · rw [h1 0 (by decide), h1 1 (by decide), h1 2 (by decide), h2 4 (by decide)]
  · rw [h1 0 (by decide), h1 1 (by decide), h1 2 (by decide), h1 3 (by decide)]

theorem vSet_idem (v : Word) (i : Nat) (hi : i < 32) (h : testB v.toNat i = true) : vSet v i = v := by
  apply BitVec.eq_of_getLsbD_eq
  intro j hj
  rw [← testB_toNat, ← testB_toNat, testB_vSet _ _ _ hi]
  by_cases e : j = i
  · subst e; simp [h]
  · simp [e]

theorem vClr_idem (v : Word) (i : Nat) (hi : i < 32) (h : testB v.toNat i = false) : vClr v i = v := by
  apply BitVec.eq_of_getLsbD_eq
  intro j hj
  rw [← testB_toNat, ← testB_toNat, testB_vClr _ _ _ hi]
  by_cases e : j = i
  · subst e; simp [h]
  · simp [e]

theorem modAt_getD {α : Type} (v : α) : ∀ (l : List α) (n : Nat), (modAt l n (fun _ => v)).getD n v = v := by
  intro l
  induction l with
  | nil => intro n; simp [modAt]
  | cons a l ih =>
    intro n
    cases n with
    | zero => simp [modAt]
    | succ n => simpa [modAt] using ih n

end Sys2Proof.Machine
end

