-- ==== Sys2Proof/Laws/Blocks.lean ====
section
/-! SUPPORT. The laws of the blocks' shared operations: the fault log, the curtain's record, the debug port, requests, the page table, migration. -/
namespace Sys2Proof.Machine
open Sys2Proof.Reg Sys2Proof.Safety

theorem satAdd_fit (k x : Nat) (hx : x < 2 ^ k) : satAdd (2 ^ k - 1) x 1 % 2 ^ k = min (x + 1) (2 ^ k - 1) := by
  have h : satAdd (2 ^ k - 1) x 1 = min (x + 1) (2 ^ k - 1) := by
    unfold satAdd; split <;> omega
  rw [h]; exact Nat.mod_eq_of_lt (by omega)

/-- A saturating count after one more. -/
theorem State.fld_bump_self (s : State) (a : Nat) {hi lo : Nat} (h : hi < 32) (hl : lo ≤ hi) :
    (s.bump a hi lo 1).fld a hi lo = min (s.fld a hi lo + 1) (2 ^ (hi + 1 - lo) - 1) := by
  rw [State.bump, State.fld_setFld_self _ _ _ h hl, satAdd_fit _ _ (show s.fld a hi lo < _ from bitsOf_lt _ _ _)]

/-- What a log entry leaves in FLT. -/
theorem logFault_entry (s : State) (cls init detail flags : Nat) (loc : Word) :
    let t := logFault s cls init detail flags loc
    let h := s.fld FLT.LOGHEAD 5 0
    let n := s.fld FLT.LOGHEAD 31 16
    t.rd (FLT.LOG h 0) = BitVec.ofNat 32 s.nt.toNat ∧ t.rd (FLT.LOG h 1) = BitVec.ofNat 32 (s.nt.toNat / 2 ^ 32) ∧
    t.rd (FLT.LOG h 2) = logWord2 cls init detail (flags + if logRepeats s cls loc then 4 else 0) ∧ t.rd (FLT.LOG h 3) = loc ∧
    t.fld FLT.LOGHEAD 5 0 = (h + 1) % 64 ∧ t.fld FLT.LOGHEAD 31 16 = min (n + 1) 0xFFFF ∧
    t.fld FLT.LOGHEAD 15 8 = (if 64 ≤ n then min (s.fld FLT.LOGHEAD 15 8 + 1) 0xFF else s.fld FLT.LOGHEAD 15 8) ∧
    (∀ i w : Nat, i < 64 → w < 4 → i ≠ h → t.rd (FLT.LOG i w) = s.rd (FLT.LOG i w)) ∧
    (∀ a, a / 4096 ≠ 0x30014 → a ≠ FLT.EVT → a ≠ FLT.LOGHEAD → (∀ w < 4, a ≠ FLT.LOG h w) → t.rd a = s.rd a) := by
  intro t h n
  have hh : h < 64 := bitsOf_lt _ _ _
  have hlog : ∀ i w : Nat, i < 64 → w < 4 → FLT.LOG i w / 4096 ≠ 0x30014 ∧ FLT.LOG i w ≠ FLT.EVT ∧ FLT.LOG i w ≠ FLT.LOGHEAD := by
    intro i w hi hw; simp only [FLT.LOG, FLT.EVT, FLT.LOGHEAD]; omega
  have hinj : ∀ i j w v : Nat, i < 64 → w < 4 → j < 64 → v < 4 → (i ≠ j ∨ w ≠ v) → FLT.LOG i w ≠ FLT.LOG j v := by
    intro i j w v hi hw hj hv; simp only [FLT.LOG]; omega
  have hl1 : (FLT.LOGHEAD : Nat) / 4096 ≠ 0x30014 := by decide
  have hl2 : (FLT.LOGHEAD : Nat) ≠ FLT.EVT := by decide
  set s4 := (((s.wr (FLT.LOG h 0) (BitVec.ofNat 32 s.nt.toNat)).wr (FLT.LOG h 1) (BitVec.ofNat 32 (s.nt.toNat / 2 ^ 32))).wr (FLT.LOG h 2)
    (logWord2 cls init detail (flags + if logRepeats s cls loc then 4 else 0))).wr (FLT.LOG h 3) loc with hs4
  have h4 : s4.rd FLT.LOGHEAD = s.rd FLT.LOGHEAD := by
    rw [hs4, State.rd_wr_ne _ (hlog h 3 hh (by decide)).2.2.symm, State.rd_wr_ne _ (hlog h 2 hh (by decide)).2.2.symm,
      State.rd_wr_ne _ (hlog h 1 hh (by decide)).2.2.symm, State.rd_wr_ne _ (hlog h 0 hh (by decide)).2.2.symm]
  set s6 := (s4.setFld FLT.LOGHEAD 5 0 ((h + 1) % 64)).bump FLT.LOGHEAD 31 16 1 with hs6
  have h6 : ∀ a, a ≠ FLT.LOGHEAD → s6.rd a = s4.rd a := by
    intro a ha; rw [hs6, State.rd_bump_ne _ ha, State.rd_setFld_ne _ ha]
  have e0 : s6.fld FLT.LOGHEAD 5 0 = (h + 1) % 64 := by
    rw [hs6, State.bump, State.fld_setFld_apart _ _ _ (by decide) (by decide) (by decide), State.fld_setFld_self _ _ _ (by decide) (by decide)]
    exact Nat.mod_eq_of_lt (Nat.mod_lt _ (by decide))
  have e1 : s6.fld FLT.LOGHEAD 15 8 = s.fld FLT.LOGHEAD 15 8 := by
    rw [hs6, State.bump, State.fld_setFld_apart _ _ _ (by decide) (by decide) (by decide), State.fld_setFld_apart _ _ _ (by decide) (by decide) (by decide)]
    simp only [State.fld, h4]
  have e2 : s6.fld FLT.LOGHEAD 31 16 = min (n + 1) 0xFFFF := by
    rw [hs6, State.fld_bump_self _ _ (by decide) (by decide), State.fld_setFld_apart _ _ _ (by decide) (by decide) (by decide)]
    simp only [State.fld, h4]
    rfl
  set s7 := s6.when (decide (64 ≤ n)) (fun s => fltEvent (s.bump FLT.LOGHEAD 15 8 1) 2) with hs7
  have ht : t = fltEvent s7 0 := rfl
  have r7 : ∀ a, a / 4096 ≠ 0x30014 → a ≠ FLT.EVT → a ≠ FLT.LOGHEAD → s7.rd a = s6.rd a := by
    intro a h1 h2 h3
    rw [hs7]; unfold State.when
    split
    · rw [fltEvent_rd _ _ h1 h2, State.rd_bump_ne _ h3]
    · rfl
  have rt : ∀ a, a / 4096 ≠ 0x30014 → a ≠ FLT.EVT → a ≠ FLT.LOGHEAD → t.rd a = s4.rd a := by
    intro a h1 h2 h3
    rw [ht, fltEvent_rd _ _ h1 h2, r7 a h1 h2 h3, h6 a h3]
  have f7 : ∀ hi lo, (15 < lo ∨ hi < 8) → s7.fld FLT.LOGHEAD hi lo = s6.fld FLT.LOGHEAD hi lo := by
    intro hi lo hd
    rw [hs7]; unfold State.when
    split
    · unfold State.fld
      rw [fltEvent_rd _ _ hl1 hl2]
      exact State.fld_setFld_apart _ _ _ (by decide) (by decide) (by omega)
    · rfl
  have ft : ∀ hi lo, t.fld FLT.LOGHEAD hi lo = s7.fld FLT.LOGHEAD hi lo := by
    intro hi lo; unfold State.fld; rw [ht, fltEvent_rd _ _ hl1 hl2]
  refine ⟨?_, ?_, ?_, ?_, ?_, ?_, ?_, ?_, ?_⟩
  · obtain ⟨a, b, c⟩ := hlog h 0 hh (by decide)
    rw [rt _ a b c, hs4, State.rd_wr_ne _ (hinj h h 0 3 hh (by decide) hh (by decide) (Or.inr (by decide))),
      State.rd_wr_ne _ (hinj h h 0 2 hh (by decide) hh (by decide) (Or.inr (by decide))), State.rd_wr_ne _ (hinj h h 0 1 hh (by decide) hh (by decide) (Or.inr (by decide))),
      State.rd_wr_self]
  · obtain ⟨a, b, c⟩ := hlog h 1 hh (by decide)
    rw [rt _ a b c, hs4, State.rd_wr_ne _ (hinj h h 1 3 hh (by decide) hh (by decide) (Or.inr (by decide))),
      State.rd_wr_ne _ (hinj h h 1 2 hh (by decide) hh (by decide) (Or.inr (by decide))), State.rd_wr_self]
  · obtain ⟨a, b, c⟩ := hlog h 2 hh (by decide)
    rw [rt _ a b c, hs4, State.rd_wr_ne _ (hinj h h 2 3 hh (by decide) hh (by decide) (Or.inr (by decide))), State.rd_wr_self]
  · obtain ⟨a, b, c⟩ := hlog h 3 hh (by decide)
    rw [rt _ a b c, hs4, State.rd_wr_self]
  · rw [ft, f7 _ _ (by decide), e0]
  · rw [ft, f7 _ _ (by decide), e2]
  · rw [ft, hs7]
    unfold State.when
    by_cases hn : 64 ≤ n
    · simp only [hn, decide_true, if_true]
      unfold State.fld
      rw [fltEvent_rd _ _ hl1 hl2]
      show (s6.bump FLT.LOGHEAD 15 8 1).fld FLT.LOGHEAD 15 8 = _
      rw [State.fld_bump_self _ _ (by decide) (by decide), e1]
      rfl
    · simp only [hn, decide_false, Bool.false_eq_true, if_false, e1]
  · intro i w hi hw hne
    obtain ⟨a, b, c⟩ := hlog i w hi hw
    rw [rt _ a b c, hs4, State.rd_wr_ne _ (hinj i h w 3 hi hw hh (by decide) (Or.inl hne)), State.rd_wr_ne _ (hinj i h w 2 hi hw hh (by decide) (Or.inl hne)),
      State.rd_wr_ne _ (hinj i h w 1 hi hw hh (by decide) (Or.inl hne)), State.rd_wr_ne _ (hinj i h w 0 hi hw hh (by decide) (Or.inl hne))]
  · intro a h1 h2 h3 h5
    rw [rt _ h1 h2 h3, hs4, State.rd_wr_ne _ (h5 3 (by decide)), State.rd_wr_ne _ (h5 2 (by decide)),
      State.rd_wr_ne _ (h5 1 (by decide)), State.rd_wr_ne _ (h5 0 (by decide))]

/-- An event of FLT sets its bit and keeps the others. -/
theorem fltEvent_bit (s : State) (b j : Nat) (hb : b < 32) : (fltEvent s b).bit FLT.EVT j = (s.bit FLT.EVT j || decide (j = b)) := by
  unfold State.bit
  rw [fltEvent, (cueOnly_event s FLT.EVT FLT.IEN b .miscb 12).rd (show (FLT.EVT : Nat) / 4096 ≠ 0x30014 by decide)]
  split
  · next h =>
    by_cases hj : j = b
    · subst hj; simp only [decide_true, Bool.or_true]; exact h
    · simp [hj]
  · by_cases hj : j = b
    · subst hj; simp only [decide_true, Bool.or_true]; exact State.bit_setBit_self s _ _ hb
    · simp only [hj, decide_false, Bool.or_false]; exact State.bit_setBit_apart s _ _ hb hj

theorem logFault_evt (s : State) (cls init detail flags : Nat) (loc : Word) (j : Nat) :
    (logFault s cls init detail flags loc).bit FLT.EVT j = (s.bit FLT.EVT j || decide (j = 0) || (decide (64 ≤ s.fld FLT.LOGHEAD 31 16) && decide (j = 2))) := by
  have hh : s.fld FLT.LOGHEAD 5 0 < 64 := bitsOf_lt _ _ _
  have hne : ∀ w, w < 4 → FLT.EVT ≠ FLT.LOG (s.fld FLT.LOGHEAD 5 0) w := by intro w hw; simp only [FLT.LOG, FLT.EVT]; omega
  have hl : (FLT.EVT : Nat) ≠ FLT.LOGHEAD := by decide
  unfold logFault
  simp only
  rw [fltEvent_bit _ _ _ (by decide)]
  unfold State.when
  by_cases hn : 64 ≤ s.fld FLT.LOGHEAD 31 16
  · simp only [hn, decide_true, if_true]
    rw [fltEvent_bit _ _ _ (by decide)]
    unfold State.bit
    rw [State.rd_bump_ne _ hl, State.rd_bump_ne _ hl, State.rd_setFld_ne _ hl, State.rd_wr_ne _ (hne 3 (by decide)), State.rd_wr_ne _ (hne 2 (by decide)),
      State.rd_wr_ne _ (hne 1 (by decide)), State.rd_wr_ne _ (hne 0 (by decide))]
    simp only [Bool.true_and]
    rw [Bool.or_assoc, Bool.or_comm (decide (j = 2)), ← Bool.or_assoc]
  · simp only [hn, decide_false, Bool.false_eq_true, if_false, Bool.false_and, Bool.or_false]
    unfold State.bit
    rw [State.rd_bump_ne _ hl, State.rd_setFld_ne _ hl, State.rd_wr_ne _ (hne 3 (by decide)), State.rd_wr_ne _ (hne 2 (by decide)),
      State.rd_wr_ne _ (hne 1 (by decide)), State.rd_wr_ne _ (hne 0 (by decide))]

theorem core_mem {s t : State} (h : t.mem = s.mem) (b : Nat) : t.byte b = s.byte b := by unfold State.byte; rw [h]

theorem logCls (v : Nat) (h : v < 256) (f : Nat) (cls init detail : Nat) (hc : cls % 256 = v) : bitsOf (logWord2 cls init detail f) 7 0 = v := by
  subst hc
  unfold logWord2 bitsOf
  rw [Nat.shiftRight_zero, BitVec.toNat_ofNat]
  omega

theorem logFault_cls (s : State) (cls init detail flags : Nat) (loc : Word) :
    (logFault s cls init detail flags loc).fld (FLT.LOG (s.fld FLT.LOGHEAD 5 0) 2) 7 0 = cls % 256 := by
  have := (logFault_entry s cls init detail flags loc).2.2.1
  unfold State.fld at this ⊢
  rw [this]
  exact logCls _ (Nat.mod_lt _ (by decide)) _ _ _ _ rfl

theorem logFault_bit (s : State) (cls init detail flags : Nat) (loc : Word) {a : Nat} (i : Nat) (ha : a / 4096 ≠ 0x30014) (h2 : a / 4096 ≠ 0x30004) :
    (logFault s cls init detail flags loc).bit a i = s.bit a i := by unfold State.bit; rw [logFault_rd _ _ _ _ _ _ ha h2]

theorem stw_rest (s : State) (a : Nat) (v : Word) : (s.stw a v).cores = s.cores ∧ (s.stw a v).regs = s.regs ∧ (s.stw a v).pair = s.pair :=
  setBytes_frame _ _ _

theorem undo_rest (l : List (Nat × Word)) : ∀ s : State, (l.foldl (fun (u : State) (e : Nat × Word) => u.stw e.1 e.2) s).cores = s.cores ∧
    (l.foldl (fun (u : State) (e : Nat × Word) => u.stw e.1 e.2) s).regs = s.regs ∧
    (l.foldl (fun (u : State) (e : Nat × Word) => u.stw e.1 e.2) s).pair = s.pair := by
  induction l with
  | nil => intro s; exact ⟨rfl, rfl, rfl⟩
  | cons e l ih =>
    intro s
    obtain ⟨a, b, c⟩ := ih (s.stw e.1 e.2)
    obtain ⟨a2, b2, c2⟩ := stw_rest s e.1 e.2
    exact ⟨a.trans a2, b.trans b2, c.trans c2⟩

theorem onlyRegs_setFld (s : State) (a hi lo x : Nat) : OnlyRegs s (s.setFld a hi lo x) [a] :=
  ⟨fun _ hb => State.rd_setFld_ne _ (by simpa using hb) _ _ _, fun _ => rfl⟩

theorem dbg_bits : ∀ (p : Fin 5) (r : Fin 6), testB (2 ^ p.val) r.val = decide (r = ⟨p.val, by omega⟩) := by decide

/-- What a halt does to one core. -/
def dbgStep1 (s : State) (p : Fin 6) : State :=
  let c := s.core p
  let want := s.bit DBG.HALT p.val
  if want ∧ c.run = .running ∧ c.xfer.isNone ∧ c.stall.isNone then
    (wdRestart (s.upCore p (fun c => { c with run := .debug })) p.val).setBit DBG.STATUS p.val true
  else if ¬ want ∧ c.run = .debug then (s.upCore p (fun c => { c with run := .running })).setBit DBG.STATUS p.val false
  else s

theorem dbgApply_eq (s : State) : dbgApply s = (List.finRange 6).foldl dbgStep1 s := rfl

theorem dbgStep1_same {s : State} {p : Fin 6} (h : s.bit DBG.HALT p.val = false) (h2 : (s.core p).run ≠ .debug) : dbgStep1 s p = s := by
  unfold dbgStep1; simp [h, h2]

theorem foldl_one {α : Type} (f : State → α → State) (q : α) : ∀ (l : List α) (s : State), l.Nodup → q ∈ l →
    (∀ r, r ≠ q → f s r = s) → (∀ r, r ≠ q → f (f s q) r = f s q) → l.foldl f s = f s q := by
  intro l
  induction l with
  | nil => intro s _ hq; exact absurd hq (by simp)
  | cons a l ih =>
    intro s hn hq h1 h2
    rw [List.nodup_cons] at hn
    simp only [List.foldl_cons]
    by_cases ha : a = q
    · subst ha
      have hno : ∀ r ∈ l, f (f s a) r = f s a := fun r hr => h2 r (by rintro rfl; exact hn.1 hr)
      clear ih h1 h2 hq hn
      generalize f s a = t at hno ⊢
      induction l with
      | nil => rfl
      | cons b l ih2 =>
        simp only [List.foldl_cons]
        rw [hno b (List.mem_cons_self)]
        exact ih2 (fun r hr => hno r (List.mem_cons_of_mem _ hr))
    · rw [h1 a ha]
      have hq2 : q ∈ l := by
        rcases List.mem_cons.1 hq with h | h
        · exact absurd h.symm ha
        · exact h
      exact ih s hn.2 hq2 h1 h2

theorem leNat_append (a b : List Byte) : leNat (a ++ b) = leNat a + 256 ^ a.length * leNat b := by
  induction a with
  | nil => simp [leNat]
  | cons x xs ih => simp only [List.cons_append, leNat, ih, List.length_cons]; ring

theorem take4 (a : Nat) (r : List Byte) : (leBytes 4 a ++ r).take 4 = leBytes 4 a ∧ (leBytes 4 a ++ r).drop 4 = r ∧ (leBytes 4 a ++ r).length = 4 + r.length := by
  refine ⟨?_, ?_, ?_⟩
  · exact List.take_left' (by simp)
  · exact List.drop_left' (by simp)
  · simp

theorem leNat4 (a : Nat) (h : a < 2 ^ 32) : leNat (leBytes 4 a) = a := by rw [leNat_leBytes]; exact Nat.mod_eq_of_lt h

theorem leWords4 (v : Word) : leWords (leBytes 4 v.toNat) = [v] := by
  unfold leWords
  have h4 : (leBytes 4 v.toNat).length / 4 = 1 := by simp
  rw [h4]
  show [leWord (((leBytes 4 v.toNat).drop (4 * 0)).take 4)] = _
  rw [Nat.mul_zero, List.drop_zero, List.take_of_length_le (by simp)]
  unfold leWord
  rw [leNat_leBytes, Nat.mod_eq_of_lt (by have := v.isLt; omega)]
  simp

theorem runSteps_none {s : State} (h : s.flt.steps = 0) : runSteps s = s := by
  unfold runSteps
  rw [h]
  have hz : ∀ p : Fin 6, testB 0 p.val = false := by decide
  have : ({ s with flt := { s.flt with steps := 0 } } : State) = s := by rw [← h]
  simp only [this, hz, Bool.false_and, Bool.false_eq_true, if_false]
  exact List.foldl_fixed _

theorem getLsbD_codeWrite (r : RegRow) (old v : Word) (t : Bool) (i : Nat) (hi : i < 32) : (codeWrite r old v t).getLsbD i =
    if r.w1c.testBit i && v.getLsbD i then false
    else if r.rw.testBit i || (r.rwt.testBit i && t) then v.getLsbD i else old.getLsbD i := by
  unfold codeWrite
  cases t <;> simp only [Bool.false_eq_true, if_false, if_true, BitVec.getLsbD_and, BitVec.getLsbD_or, BitVec.getLsbD_not, BitVec.getLsbD_ofNat,
    hi, decide_true, Bool.true_and, Nat.testBit_or, Bool.and_false, Bool.and_true, Bool.or_false] <;>
    cases r.w1c.testBit i <;> cases r.rw.testBit i <;> cases r.rwt.testBit i <;> cases v.getLsbD i <;> simp

theorem plainWrite_only {s : State} {a : Nat} {r : RegRow} (v : Word) (t : Bool) (hr : regRow a = some r) :
    s.plainWrite a v t = s.wr a (codeWrite r (s.rd a) v t) := by unfold State.plainWrite; rw [hr]

theorem curtain_trusted {s : State} {who a : Nat} {w : Bool} (h : curtainBlocks s who a w = false) (hp : ∀ s' : State, s'.trusted who = false → curtainBlocks s' who a w = true) :
    s.trusted who = true := by
  by_contra hc
  have := hp s (by simpa using hc)
  rw [h] at this; cases this

theorem bump_mem (u : State) : (u.bump FLT.CURTCNT 15 0 1).mem = u.mem := rfl

theorem bump_flt (u : State) : (u.bump FLT.CURTCNT 15 0 1).flt = u.flt := rfl

theorem wrwr_mem (u : State) (v w : Word) : ((u.wr FLT.CURT0 v).wr FLT.CURT1 w).mem = u.mem := rfl

theorem wrwr_flt (u : State) (v w : Word) : ((u.wr FLT.CURT0 v).wr FLT.CURT1 w).flt = u.flt := rfl

theorem curt_facts (s : State) (who : Nat) (ht : s.trusted who = false) (a : Nat) :
    let t := curtainViolation s who (BitVec.ofNat 32 a) true
    t.fld FLT.CURTCNT 15 0 = min (s.fld FLT.CURTCNT 15 0 + 1) 0xFFFF ∧
    (s.bit FLT.CURT0 31 = false → t.rd FLT.CURT0 = BitVec.ofNat 32 (who % 32 + 256 + 2 ^ 31) ∧ t.rd FLT.CURT1 = BitVec.ofNat 32 a) ∧
    (s.bit FLT.CURT0 31 = true → t.rd FLT.CURT0 = s.rd FLT.CURT0 ∧ t.rd FLT.CURT1 = s.rd FLT.CURT1) ∧
    t.fld (FLT.LOG (s.fld FLT.LOGHEAD 5 0) 2) 7 0 = 0x20 ∧ t.rd (FLT.LOG (s.fld FLT.LOGHEAD 5 0) 3) = BitVec.ofNat 32 a ∧
    (∀ b : Nat, b / 4096 ≠ 0x30004 → b / 4096 ≠ 0x30014 → t.rd b = s.rd b) ∧ (∀ b : Nat, t.byte b = s.byte b) ∧ t.flt = s.flt := by
  intro t
  set s1 := (if s.bit FLT.CURT0 31 then s
    else (s.wr FLT.CURT0 (BitVec.ofNat 32 (who % 32 + 32 * natBit (s.trusted who) + 256 * natBit true + 2 ^ 31))).wr FLT.CURT1 (BitVec.ofNat 32 a)) with hs1
  set s2 := s1.bump FLT.CURTCNT 15 0 1 with hs2
  have ht2 : t = logFault s2 0x20 who 0 0 (BitVec.ofNat 32 a) := rfl
  have h1 : ∀ b, b ≠ FLT.CURT0 → b ≠ FLT.CURT1 → s1.rd b = s.rd b := by
    intro b hb hb2; rw [hs1]; split
    · rfl
    · rw [State.rd_wr_ne _ hb2, State.rd_wr_ne _ hb]
  have h2 : ∀ b, b ≠ FLT.CURTCNT → s2.rd b = s1.rd b := fun b hb => State.rd_bump_ne _ hb _ _ _
  have hlh : s2.fld FLT.LOGHEAD 5 0 = s.fld FLT.LOGHEAD 5 0 := by
    unfold State.fld; rw [h2 _ (by decide), h1 _ (by decide) (by decide)]
  obtain ⟨e0, e1, e2, e3, e4, e5, e6, e7, e8⟩ := logFault_entry s2 0x20 who 0 0 (BitVec.ofNat 32 a)
  have far : ∀ b : Nat, b < 0x30004400 → b / 4096 = 0x30004 → b ≠ FLT.EVT → b ≠ FLT.LOGHEAD → t.rd b = s2.rd b := by
    intro b hb hp h3 h4
    refine e8 b (by omega) h3 h4 ?_
    intro w hw
    have : s2.fld FLT.LOGHEAD 5 0 < 64 := bitsOf_lt _ _ _
    simp only [FLT.LOG]; omega
  refine ⟨?_, ?_, ?_, ?_, ?_, ?_, ?_, ?_⟩
  · unfold State.fld
    rw [far _ (by decide) (by decide) (by decide) (by decide)]
    show s2.fld FLT.CURTCNT 15 0 = _
    rw [hs2, State.fld_bump_self _ _ (by decide) (by decide)]
    unfold State.fld; rw [h1 _ (by decide) (by decide)]; rfl
  · intro hv
    refine ⟨?_, ?_⟩
    · rw [far _ (by decide) (by decide) (by decide) (by decide), h2 _ (by decide), hs1, hv, ht]
      simp only [Bool.false_eq_true, if_false]
      rw [State.rd_wr_ne _ (by decide), State.rd_wr_self]; rfl
    · rw [far _ (by decide) (by decide) (by decide) (by decide), h2 _ (by decide), hs1, hv]
      simp only [Bool.false_eq_true, if_false]
      rw [State.rd_wr_self]
  · intro hv
    refine ⟨?_, ?_⟩ <;> rw [far _ (by decide) (by decide) (by decide) (by decide), h2 _ (by decide), hs1, hv] <;> simp
  · have := logFault_cls s2 0x20 who 0 0 (BitVec.ofNat 32 a)
    rw [hlh] at this; exact this
  · have := e3; rw [hlh] at this; exact this
  · intro b hb hb2
    rw [ht2, logFault_rd _ _ _ _ _ _ hb2 hb, h2 _ (by rintro rfl; exact hb (by decide)), h1 _ (by rintro rfl; exact hb (by decide)) (by rintro rfl; exact hb (by decide))]
  · intro b
    have hm : s1.mem = s.mem := by
      rw [hs1]; by_cases h : s.bit FLT.CURT0 31 = true
      · rw [if_pos h]
      · rw [if_neg h]; exact wrwr_mem s _ _
    unfold State.byte; rw [ht2, (logFault_fields _ _ _ _ _ _).1, show s2.mem = s1.mem from bump_mem _, hm]
  · have hm : s1.flt = s.flt := by
      rw [hs1]; by_cases h : s.bit FLT.CURT0 31 = true
      · rw [if_pos h]
      · rw [if_neg h]; exact wrwr_flt s _ _
    rw [ht2, (logFault_fields _ _ _ _ _ _).2.2.2.2.1, show s2.flt = s1.flt from bump_flt _, hm]

theorem serve_eq {d : Bool} {n k : Nat} {q : Request} {s t : State} (p : Nat → Bool) (f : State → Request → Reply × State)
    (h0 : requestQueue s d = some n) (h1 : headKind s n = some k) (h2 : takeRequest s n = (some q, t)) (hp : p k = true) :
    serveRequest s d p f = answerRequest (f t q).2 q (f t q).1 := by
  unfold serveRequest; simp only [h0, h1, hp, or_true, if_true, h2]

theorem alloc_regions (tables : List (Nat × Nat)) : ∀ s : State, (tables.foldl (fun s t => s.st ((s.rd STG.PTBASE).toNat + 4 * (t.1 % 512)) 4 (t.2 / 4096 * 4096 + 1)) s).stg = s.stg := by
  induction tables with
  | nil => intro s; rfl
  | cons a l ih =>
    intro s
    have : ∀ (bs : List Byte) (u : State) (x : Nat), (u.setBytes x bs).stg = u.stg := by
      intro bs; induction bs with
      | nil => intro u x; rfl
      | cons b l ih => intro u x; exact ih _ _
    exact (ih _).trans (this _ _ _)

theorem setBytes_stg (bs : List Byte) : ∀ (u : State) (x : Nat), (u.setBytes x bs).stg = u.stg := by
  induction bs with
  | nil => intro u x; rfl
  | cons b l ih => intro u x; exact ih _ _

theorem setPte_regions (s : State) (a : Nat) (e : BitVec 64) : (setPte s a e).stg.regions = s.stg.regions := by
  have h : ∀ p : Nat, (s.st p 8 e.toNat).stg = s.stg := fun p => setBytes_stg _ _ _
  unfold setPte; split
  · simp only [State.upStg_stg, h]
  · rfl

theorem initCore_app : ∀ p : Fin 4, initCore (p.val + 2) = some ⟨p.val, by omega⟩ := by decide

theorem foldl_regions {α : Type} (f : State → α → State) (h : ∀ s a, (f s a).stg.regions = s.stg.regions) : ∀ (l : List α) (s : State),
    (l.foldl f s).stg.regions = s.stg.regions := by
  intro l
  induction l with
  | nil => intro s; rfl
  | cons a l ih => intro s; exact (ih _).trans (h s a)

theorem setByte_out (s : State) (p n v b : Nat) (h : b < p ∨ p + n ≤ b) : (s.st p n v).byte b = s.byte b := State.byte_st_out s p n v b h

theorem curt_keeps (s : State) (who : Nat) (a : Word) (w : Bool) : (curtainViolation s who a w).stg = s.stg ∧ (curtainViolation s who a w).mem = s.mem ∧
    (curtainViolation s who a w).cores = s.cores := by
  unfold curtainViolation
  simp only
  obtain ⟨h1, h2, h3, h4, h5, h6⟩ := logFault_fields ((if s.bit FLT.CURT0 31 = true then s
    else (s.wr FLT.CURT0 (BitVec.ofNat 32 (who % 32 + 32 * natBit (s.trusted who) + 256 * natBit w + 2 ^ 31))).wr FLT.CURT1 a).bump FLT.CURTCNT 15 0 1) 0x20 who 0 0 a
  rw [h1, h2, h6]
  have hk : ∀ u : State, (u.bump FLT.CURTCNT 15 0 1).stg = u.stg ∧ (u.bump FLT.CURTCNT 15 0 1).mem = u.mem ∧ (u.bump FLT.CURTCNT 15 0 1).cores = u.cores := fun _ => ⟨rfl, rfl, rfl⟩
  obtain ⟨k1, k2, k3⟩ := hk (if s.bit FLT.CURT0 31 = true then s
    else (s.wr FLT.CURT0 (BitVec.ofNat 32 (who % 32 + 32 * natBit (s.trusted who) + 256 * natBit w + 2 ^ 31))).wr FLT.CURT1 a)
  rw [k1, k2, k3]
  have hw : ∀ (u : State) (x y : Word), ((u.wr FLT.CURT0 x).wr FLT.CURT1 y).stg = u.stg ∧ ((u.wr FLT.CURT0 x).wr FLT.CURT1 y).mem = u.mem ∧
    ((u.wr FLT.CURT0 x).wr FLT.CURT1 y).cores = u.cores := fun _ _ _ => ⟨rfl, rfl, rfl⟩
  by_cases h : s.bit FLT.CURT0 31 = true
  · rw [if_pos h]; exact ⟨rfl, rfl, rfl⟩
  · rw [if_neg h]; exact hw s _ _

theorem st_fields (s : State) (p n v : Nat) : (s.st p n v).stg = s.stg ∧ (s.st p n v).cores = s.cores ∧ (s.st p n v).regs = s.regs := by
  have := setBytes_frame (leBytes n v) p s
  exact ⟨setBytes_stg _ _ _, this.1, this.2.1⟩

theorem mig_addr : ∀ c : Fin 2, STG.MIGSTAT c ≠ STG.MIGCTRL c ∧ STG.MIGCTRL c ≠ STG.MIGSTAT c := by decide

theorem setPte_regs (s : State) (a : Nat) (e : BitVec 64) : (setPte s a e).regs = s.regs := by
  unfold setPte; split
  · exact (st_fields _ _ _ _).2.2
  · rfl

theorem setPte_mig (s : State) (a : Nat) (e : BitVec 64) : (setPte s a e).stg.mig = s.stg.mig := by
  have h : ∀ p : Nat, (s.st p 8 e.toNat).stg = s.stg := fun p => setBytes_stg _ _ _
  unfold setPte; split
  · simp only [State.upStg_stg, h]
  · rfl

theorem rd_of_regs {s t : State} (h : t.regs = s.regs) (a : Nat) : t.rd a = s.rd a := by unfold State.rd; rw [h]

theorem vset0 (v : Word) : testB (vSet v 0).toNat 0 = true := by rw [testB_vSet _ _ _ (by decide)]; simp

theorem regWrite_mig (s : State) (who : Nat) (v : Word) : ∀ c : Fin 2, regWrite s who (STG.MIGCTRL c) v = (false, if testB v.toNat 0 then migGo s c else s) := by
  intro c; fin_cases c <;> rfl

theorem regRead_mig (s : State) (who : Nat) (h : s.trusted who = true) : ∀ c : Fin 2, regRead s who (STG.MIGSTAT c) = (s.rd (STG.MIGSTAT c), migStatRead s c) := by
  intro c
  have e : regRead s who (STG.MIGSTAT c) = (s.rd (STG.MIGSTAT c), if s.trusted who then migStatRead s c else s) := by fin_cases c <;> rfl
  rw [e, h]; rfl

theorem trig_addr : ∀ k : Fin 16, STG.TRIGQ k ≠ CUE.OVR0 ∧ STG.TRIG k ≠ CUE.OVR0 ∧ CUE.OVR0 ≠ STG.TRIGQ k := by decide

theorem regWrite_trigq (s : State) (who : Nat) (v : Word) : ∀ k : Fin 16,
    regWrite s who (STG.TRIGQ k) v = (false, (s.setFld (STG.TRIGQ k) 3 0 (bitsOf v 3 0)).setFld (STG.TRIGQ k) 31 16 0) := by
  intro k; fin_cases k <;> rfl

theorem regRead_run (s : State) (who : Nat) : ∀ n : Fin 4,
    regRead s who (STG.RUN n) = (s.rd (STG.RUN n), if s.trusted who ∨ who = n.val + 2 then s.setBit (STG.RUN n) 0 false else s) := by
  intro n; fin_cases n <;> rfl

theorem regWrite_stgStatus (s : State) (who : Nat) (v : Word) : regWrite s who STG.STATUS v = (false,
    if testB v.toNat 9 && s.bit STG.STATUS 9 && !s.bit DMC.FREEZE 0 then frozenClear (s.plainWrite STG.STATUS (v &&& ~~~ (0x200 : Word)) true)
    else s.plainWrite STG.STATUS (v &&& ~~~ (0x200 : Word)) true) := rfl

theorem regWrite_stgCtrl (s : State) (who : Nat) (v : Word) : regWrite s who STG.CTRL v = (false,
    if testB v.toNat 1 && !s.bit STG.CTRL 1 then
      dispatchRun ((s.setBit STG.CTRL 0 (testB v.toNat 0 || (s.bit STG.CTRL 0 && s.phase != 0))).setBit STG.CTRL 1 (testB v.toNat 1))
    else (s.setBit STG.CTRL 0 (testB v.toNat 0 || (s.bit STG.CTRL 0 && s.phase != 0))).setBit STG.CTRL 1 (testB v.toNat 1)) := rfl

theorem sweep_regs (s : State) : (sweepPages s).regs = s.regs := by
  unfold sweepPages
  generalize (s.stg.regions.flatMap regionPages) = l
  induction l generalizing s with
  | nil => rfl
  | cons p l ih =>
    simp only [List.foldl_cons]
    rw [ih]
    split
    · exact setPte_regs _ _ _
    · rfl

theorem que_page (q : Fin 128) : QUE.QPUSH q / 4096 = 0x30010 ∧ QUE.QPOP q / 4096 = 0x30010 ∧ QUE.QCFG q / 4096 = 0x30010 ∧ QUE.QSTAT q / 4096 = 0x30010 := by
  have := q.isLt; simp only [QUE.QPUSH, QUE.QPOP, QUE.QCFG, QUE.QSTAT]; omega

theorem que_set (q : Fin 128) : QUE.QPUSH q % 4096 / 0x20 = q ∧ QUE.QPOP q % 4096 / 0x20 = q ∧ QUE.QCFG q % 4096 / 0x20 = q ∧ QUE.QSTAT q % 4096 / 0x20 = q ∧
    QUE.QPUSH q % 0x20 = 0x18 ∧ QUE.QPOP q % 4096 % 0x20 = 0x1C ∧ QUE.QCFG q % 0x20 = 0x04 ∧ QUE.QSTAT q % 0x20 = 0x14 := by
  have := q.isLt; simp only [QUE.QPUSH, QUE.QPOP, QUE.QCFG, QUE.QSTAT]; omega

theorem que_ne (q : Fin 128) : QUE.QCFG q ≠ QUE.QSTAT q ∧ QUE.QSTAT q ≠ QUE.QCFG q ∧ QUE.QHEAD q ≠ QUE.QSTAT q ∧ QUE.QTAIL q ≠ QUE.QSTAT q ∧ QUE.QHEAD q ≠ QUE.QTAIL q ∧
    QUE.QSTAT q ≠ QUE.QHEAD q ∧ QUE.QSTAT q ≠ QUE.QTAIL q ∧ QUE.QCFG q ≠ QUE.QHEAD q ∧ QUE.QCFG q ≠ QUE.QTAIL q ∧ QUE.QHEAD q ≠ QUE.QCFG q ∧ QUE.QTAIL q ≠ QUE.QCFG q := by
  simp only [QUE.QHEAD, QUE.QTAIL, QUE.QCFG, QUE.QSTAT]; omega

theorem regWrite_que {a : Nat} (h : a / 4096 = 0x30010) (s : State) (who : Nat) (v : Word) : regWrite s who a v = (false, writeQue s who a v) := by
  have h2 : a ≠ CLK.APPDIV := by rintro rfl; revert h; decide
  unfold regWrite; simp [h, h2]

theorem regWrite_push (q : Fin 128) (s : State) (who : Nat) (v : Word) : regWrite s who (QUE.QPUSH q) v = (false, qPush s q who v) := by
  rw [regWrite_que (que_page q).1]
  unfold writeQue
  simp only [(que_set q).1, (que_set q).2.2.2.2.1]

theorem regWrite_qcfg (q : Fin 128) (s : State) (who : Nat) (v : Word) : regWrite s who (QUE.QCFG q) v = (false, if s.trusted who then queueOff (qCfgWrite s q v) q else s) := by
  rw [regWrite_que (que_page q).2.2.1]
  unfold writeQue
  simp only [(que_set q).2.2.1, (que_set q).2.2.2.2.2.2.1]

theorem regWrite_qstat (q : Fin 128) (s : State) (who : Nat) (v : Word) : regWrite s who (QUE.QSTAT q) v =
    (false, if testB v.toNat 23 ∧ qMayClear s q who = true then s.setFld (QUE.QSTAT q) 31 24 0 else s) := by
  rw [regWrite_que (que_page q).2.2.2]
  unfold writeQue
  simp only [(que_set q).2.2.2.1, (que_set q).2.2.2.2.2.2.2]

theorem regRead_pop (q : Fin 128) (s : State) (who : Nat) : regRead s who (QUE.QPOP q) = qPop s q who := by
  unfold regRead readHook
  simp [(que_page q).2.1, (que_set q).2.2.2.2.2.1, (que_set q).2.1]

theorem qLast_only (s : State) (q : Fin 128) (c : Nat) (hc : c < 4) : (qLast s q c).fld (QUE.QSTAT q) 21 20 = c ∧ OnlyRegs s (qLast s q c) [QUE.QSTAT q] ∧
    (∀ hi lo, (hi < 20 ∨ 21 < lo) → (qLast s q c).fld (QUE.QSTAT q) hi lo = s.fld (QUE.QSTAT q) hi lo) := by
  unfold qLast
  refine ⟨?_, onlyRegs_setFld _ _ _ _ _, fun hi lo h => State.fld_setFld_apart _ _ _ (by decide) (by decide) h⟩
  rw [State.fld_setFld_self _ _ _ (by decide) (by decide)]; exact Nat.mod_eq_of_lt hc

theorem map_idle (s : State) (h : ∀ p : Fin 6, (s.core p).stall = none) (f : Core → Core) (hf : ∀ c, c.stall = none → f c = c) : s.cores.map f = s.cores := by
  apply Vector.ext
  intro i hi
  rw [Vector.getElem_map]
  exact hf _ (h ⟨i, hi⟩)

theorem queueOff_idle (s : State) (q : Nat) (h : ∀ p : Fin 6, (s.core p).stall = none) : queueOff s q = s := by
  unfold queueOff
  split
  · rfl
  · rw [map_idle s h _ (fun c hc => by rw [hc])]

theorem onlyRegs_trans {s t u : State} {l m : List Nat} (h : OnlyRegs s t l) (k : OnlyRegs t u m) (hs : ∀ a ∈ l, a ∈ m) : OnlyRegs s u m :=
  ⟨fun b hb => (k.1 b hb).trans (h.1 b (fun hb2 => hb (hs b hb2))), fun b => (k.2 b).trans (h.2 b)⟩

theorem onlyRegs_wr (s : State) {a : Nat} {l : List Nat} (h : a ∈ l) (v : Word) : OnlyRegs s (s.wr a v) l :=
  ⟨fun b hb => State.rd_wr_ne _ (by rintro rfl; exact hb h) _, fun _ => rfl⟩

theorem onlyRegs_upStg (s : State) (f : Stage → Stage) (l : List Nat) : OnlyRegs s (s.upStg f) l := ⟨fun _ _ => rfl, fun _ => rfl⟩

theorem qSetCount_zero (s : State) (q : Fin 128) : qSetCount s q 0 = ((((s.setFld (QUE.QSTAT q) 14 0 0).setBit (QUE.QSTAT q) 16 true).setBit (QUE.QSTAT q) 17
    (qFull ((s.setFld (QUE.QSTAT q) 14 0 0).setBit (QUE.QSTAT q) 16 true) q))).setBit (QUE.QSTAT q) 18 false := by
  unfold qSetCount
  simp only [State.when]
  have h0 : ∀ w : Nat, (w != 0 && decide (w ≤ 0)) = false := by intro w; cases w <;> simp
  have h1 : ∀ (w : Nat) (b : Bool), (w != 0 && b && decide (w ≤ 0)) = false := by intro w b; cases w <;> simp
  simp only [h0, h1, Bool.false_eq_true, if_false, beq_self_eq_true]

theorem packBits_succ (n : Nat) (f : Nat → Bool) : packBits (n + 1) f = if f n then packBits n f + 2 ^ n else packBits n f := by
  unfold packBits; rw [List.range_succ, List.foldl_append]; rfl

theorem packBits_lt (n : Nat) (f : Nat → Bool) : packBits n f < 2 ^ n := by
  induction n with
  | zero => simp [packBits]
  | succ n ih => rw [packBits_succ, Nat.pow_succ]; split <;> omega

/-- The bits of a packed word. -/
theorem testBit_packBits (n : Nat) (f : Nat → Bool) (i : Nat) : (packBits n f).testBit i = (decide (i < n) && f i) := by
  induction n with
  | zero => simp [packBits]
  | succ n ih =>
    have hl := packBits_lt n f
    rw [packBits_succ]
    by_cases hin : i = n
    · subst hin
      have h0 : (packBits i f).testBit i = false := Nat.testBit_lt_two_pow hl
      cases hf : f i
      · simp [h0]
      · simp only [if_true]; rw [Nat.add_comm, Nat.testBit_two_pow_add_eq, h0]; simp
    · by_cases hlt : i < n
      · have e : decide (i < n + 1) = true := by simp; omega
        rw [e]
        simp only [hlt, decide_true, Bool.true_and] at ih
        split
        · rw [Nat.add_comm, Nat.testBit_two_pow_add_gt hlt, ih]; simp
        · rw [ih]; simp
      · have e : decide (i < n + 1) = false := by simp; omega
        have e2 : decide (i < n) = false := by simp; omega
        rw [e]; rw [e2] at ih
        have : packBits n f + 2 ^ n < 2 ^ i := by
          have : 2 ^ (n+1) ≤ 2 ^ i := Nat.pow_le_pow_right (by decide) (by omega)
          rw [Nat.pow_succ] at this; omega
        split
        · simpa using Nat.testBit_lt_two_pow this
        · simpa using ih

theorem cueArrive_q (s : State) (x : CueTarget) : x ∈ (cueArrive s x).cueQ ∧ ∀ y ∈ s.cueQ, y ∈ (cueArrive s x).cueQ := by
  unfold cueArrive
  by_cases h : s.cueQ.contains x = true
  · rw [if_pos h]
    have hx : x ∈ s.cueQ := by simpa using h
    have key : ∀ t : State, t.cueQ = s.cueQ → x ∈ t.cueQ ∧ ∀ y ∈ s.cueQ, y ∈ t.cueQ := by
      intro t ht; rw [ht]; exact ⟨hx, fun y hy => hy⟩
    cases x with
    | cons k => exact key _ (by simp only [setOvr]; split <;> rfl)
    | irq p j => exact key _ rfl
    | cell k j => exact key _ rfl
  · rw [if_neg h]
    simp only [List.mem_append, List.mem_singleton, or_true, true_and]
    exact fun y hy => Or.inl hy

theorem cueArrive_all (l : List CueTarget) : ∀ s : State, (∀ x ∈ l, x ∈ (l.foldl cueArrive s).cueQ) ∧ ∀ y ∈ s.cueQ, y ∈ (l.foldl cueArrive s).cueQ := by
  induction l with
  | nil => intro s; exact ⟨fun x hx => absurd hx (by simp), fun y hy => hy⟩
  | cons a l ih =>
    intro s
    obtain ⟨h1, h2⟩ := ih (cueArrive s a)
    obtain ⟨k1, k2⟩ := cueArrive_q s a
    refine ⟨fun x hx => ?_, fun y hy => h2 y (k2 y hy)⟩
    rcases List.mem_cons.1 hx with rfl | hx
    · exact h2 _ k1
    · exact h1 x hx

theorem cueArrive_chstat (s : State) (x : CueTarget) (c i : Nat) (hc : c < 64) (hx : ∀ p j, x = .irq p j → p < 6) : (cueArrive s x).bit (CUE.CHSTAT c) i = s.bit (CUE.CHSTAT c) i := by
  unfold cueArrive
  split
  · cases x with
    | cons k =>
      simp only [setOvr]; split
      · exact State.bit_setBit_ne _ (by simp only [CUE.CHSTAT, CUE.OVR0]; omega) _ _ _
      · exact State.bit_setBit_ne _ (by simp only [CUE.CHSTAT, CUE.OVR1]; omega) _ _ _
    | irq p j =>
      have := hx p j rfl
      exact State.bit_setBit_ne _ (by simp only [CUE.CHSTAT, CUE.IRQOVR]; omega) _ _ _
    | cell k j => rfl
  · rfl

theorem cueTargets_irq6 {s : State} {c p j : Nat} (h : CueTarget.irq p j ∈ cueTargets s c) : p < 6 := by
  simp only [cueTargets, List.mem_append, List.mem_map, List.mem_flatMap, List.mem_range] at h
  rcases h with (⟨k, -, hk⟩ | ⟨q, hq, k, -, hk⟩) | ⟨k, -, i, -, hk⟩
  · cases hk
  · cases hk; exact hq
  · cases hk

theorem emitChan_facts (s : State) (c : Nat) (hc : c < 64) (hm : s.svc.motionLine ≠ some c) :
    emitChan s c = (cueTargets s c).foldl cueArrive (s.setBit (CUE.CHSTAT c) 1 true) ∧ (emitChan s c).bit (CUE.CHSTAT c) 1 = true := by
  have hsvc : ∀ (l : List CueTarget) (u : State), (l.foldl cueArrive u).svc = u.svc := by
    intro l; induction l with
    | nil => intro u; rfl
    | cons a l ih =>
      intro u
      refine (ih _).trans ?_
      unfold cueArrive
      split
      · cases a <;> first | rfl | (simp only [setOvr]; split <;> rfl)
      · rfl
  have he : emitChan s c = (cueTargets s c).foldl cueArrive (s.setBit (CUE.CHSTAT c) 1 true) := by
    unfold emitChan
    simp only [hsvc]
    exact if_neg hm
  refine ⟨he, ?_⟩
  rw [he]
  have : ∀ (l : List CueTarget) (u : State), (∀ p j, CueTarget.irq p j ∈ l → p < 6) → (l.foldl cueArrive u).bit (CUE.CHSTAT c) 1 = u.bit (CUE.CHSTAT c) 1 := by
    intro l; induction l with
    | nil => intro u _; rfl
    | cons a l ih =>
      intro u hl
      refine (ih _ (fun p j hp => hl p j (List.mem_cons_of_mem _ hp))).trans ?_
      exact cueArrive_chstat u a c 1 hc (fun p j e => hl p j (e ▸ List.mem_cons_self))
  rw [this _ _ (fun p j h => cueTargets_irq6 h)]
  exact State.bit_setBit_self s _ _ (by decide)

theorem sw_bits : ∀ c b : Fin 32, testB (BitVec.ofNat 32 (2 ^ c.val)).toNat b.val = decide (b = c) := by decide

theorem swset_one (s : State) (who : Nat) (c : Fin 32) : swsetWrite s who false (BitVec.ofNat 32 (2 ^ c.val)) = if ownsChan s who c = true then cueSignal s c else s := by
  unfold swsetWrite
  simp only [natBit, Bool.false_eq_true, if_false, Nat.mul_zero, Nat.add_zero]
  have key : ∀ (l : List Nat) (u : State), (∀ b ∈ l, b < 32) → l.Nodup →
      l.foldl (fun s b => if testB (BitVec.ofNat 32 (2 ^ c.val)).toNat b = true ∧ ownsChan s who b = true then cueSignal s b else s) u =
      if c.val ∈ l ∧ ownsChan u who c = true then cueSignal u c else u := by
    intro l
    induction l with
    | nil => intro u _ _; simp
    | cons a l ih =>
      intro u hl hn
      rw [List.nodup_cons] at hn
      simp only [List.foldl_cons]
      have ha : a < 32 := hl a List.mem_cons_self
      have hb := sw_bits c ⟨a, ha⟩
      simp only at hb
      by_cases hac : a = c.val
      · subst hac
        have h0 : ∀ (u : State), l.foldl (fun s b => if testB (BitVec.ofNat 32 (2 ^ c.val)).toNat b = true ∧ ownsChan s who b = true then cueSignal s b else s) u = u := by
          intro u
          rw [ih u (fun b h => hl b (List.mem_cons_of_mem _ h)) hn.2, if_neg (fun h => hn.1 h.1)]
        rw [h0, hb]; simp
      · have hne : (⟨a, ha⟩ : Fin 32) ≠ c := fun e => hac (congrArg Fin.val e)
        rw [hb, decide_eq_false hne]
        simp only [Bool.false_eq_true, false_and, if_false]
        rw [ih u (fun b h => hl b (List.mem_cons_of_mem _ h)) hn.2]
        simp [List.mem_cons, Ne.symm hac]
  rw [key _ _ (fun b h => List.mem_range.1 h) List.nodup_range]
  simp [List.mem_range, c.isLt]

theorem tmEvent_rd (s : State) (x : Fin 8) (b : Nat) {a : Nat} (h1 : a / 4096 ≠ 0x30014) (h2 : a / 4096 ≠ 0x30018 + x.val) : (tmEvent s x b).rd a = s.rd a := by
  have hn : a ≠ TM.EVT x := by rintro rfl; apply h2; simp only [TM.EVT]; omega
  unfold tmEvent State.when
  split
  · rw [(cueOnly_producer _ _ _).rd h1, State.rd_setBit_ne _ hn]
  · exact State.rd_setBit_ne _ hn _ _

theorem tmBreakCheck_rd (s : State) (x : Fin 8) {a : Nat} (h1 : a / 4096 ≠ 0x30014) (h2 : a / 4096 ≠ 0x30018 + x.val) : (tmBreakCheck s x).rd a = s.rd a := by
  have hn : a ≠ TM.STATUS x := by rintro rfl; apply h2; simp only [TM.STATUS]; omega
  have hc : a ≠ TM.CTRL x := by rintro rfl; apply h2; simp only [TM.CTRL]; omega
  unfold tmBreakCheck State.when
  simp only
  split
  · unfold tmBreak
    rw [tmEvent_rd _ _ _ h1 h2, State.rd_setBit_ne _ hc, State.rd_setBit_ne _ hn]
  · exact State.rd_setBit_ne _ hn _ _

/-- A pin's outside level changes registers of CUE and of the two timers with a break input only. -/
theorem setExt_rd (s : State) (p : Nat) (v : Bool) {a : Nat} (h1 : a / 4096 ≠ 0x30014) (h2 : a / 4096 ≠ 0x30018) (h3 : a / 4096 ≠ 0x30019) : (setExt s p v).rd a = s.rd a := by
  unfold setExt
  rw [tmBreakCheck_rd _ 1 h1 h3, tmBreakCheck_rd _ 0 h1 h2]
  split <;> rfl

theorem regWrite_lccfg (s : State) (who : Nat) (v : Word) : ∀ k : Fin 16, regWrite s who (CUE.LCCFG k) v = cellWrite s who k 1 v := by
  intro k; fin_cases k <;> rfl

theorem regWrite_chcfg (s : State) (who : Nat) (v : Word) : ∀ c : Fin 64, regWrite s who (CUE.CHCFG c) v = chanCfgWrite s who c v := by
  intro c; fin_cases c <;> rfl

theorem regWrite_lcown (s : State) (who : Nat) (v : Word) : ∀ k : Fin 16, regWrite s who (CUE.LCOWN k) v = (false, if s.trusted who then cellOwnWrite s k v else s) := by
  intro k; fin_cases k <;> rfl

theorem regWrite_irqpend (s : State) (who : Nat) (v : Word) : ∀ p : Fin 6, regWrite s who (CUE.IRQPEND p) v = (false, irqClear s who p (CUE.IRQPEND p) v) := by
  intro p; fin_cases p <;> rfl

/-- A write that the block refuses ends in a violation. -/
theorem access_refused {s t : State} {who a : Nat} {v : Word} (h : Reaches s who a true) (hw : regWrite s who a v = (true, t)) :
    s.access who a (some v) = curtainViolation t who (BitVec.ofNat 32 a) true := by
  unfold State.access busAccess busTry busServe
  simp [h.1, h.2, hw]

theorem sint_unsint5 : ∀ d : Fin 17, sint 5 (unsint 5 ((d.val : Int) - 8)  % 2 ^ 5) = (d.val : Int) - 8 := by decide

theorem setRefresh_self (s : State) (c : Fin 2) {d : Int} (h1 : -8 ≤ d) (h2 : d ≤ 8) : refreshCredit (setRefreshCredit s c d) c = d := by
  have hc := c.isLt
  unfold refreshCredit setRefreshCredit
  rw [State.fld_setFld_self _ _ _ (by omega) (by omega)]
  have := sint_unsint5 ⟨(d + 8).toNat, by omega⟩
  simp only at this
  rw [show (((d + 8).toNat : Int) - 8) = d by omega] at this
  rw [show 8 * c.val + 4 + 1 - 8 * c.val = 5 by omega]
  exact this

theorem refresh_ge (s : State) (c : Fin 2) : -16 ≤ refreshCredit s c ∧ refreshCredit s c ≤ 15 := by
  unfold refreshCredit sint
  have : s.fld DMC.REFSTAT (8 * c.val + 4) (8 * c.val) % 2 ^ 5 < 32 := Nat.mod_lt _ (by decide)
  generalize s.fld DMC.REFSTAT (8 * c.val + 4) (8 * c.val) % 2 ^ 5 = x at *
  simp only [Int.ofNat_eq_natCast]
  split <;> omega

theorem clear_only (s : State) (a n : Nat) : (s.clearRange a n).regs = s.regs := by rfl

theorem validate_regs (s : State) (f : Nat) : (dramValidate s f).regs = s.regs ∧ (dramValidate s f).dram.valid.contains f = true := by
  unfold dramValidate
  split
  · exact ⟨rfl, ‹_›⟩
  · exact ⟨rfl, by simp [State.upDram]⟩

theorem filled_regs {s t : State} (h : t.regs = s.regs) : (∀ a, t.rd a = s.rd a) ∧ (∀ a i, t.bit a i = s.bit a i) ∧ ∀ a h l, t.fld a h l = s.fld a h l := by
  have hr := rd_of_regs h
  exact ⟨hr, fun a i => by unfold State.bit; rw [hr], fun a h l => by unfold State.fld; rw [hr]⟩

/-- 06 R150, R156: what a write of the bit CH1OFF leaves of the other registers. -/
theorem ch1Write_rd (s : State) (off : Bool) {a : Nat} (h1 : a ≠ DMC.CTRL) (h2 : a ≠ DMC.STATUS) (h3 : a ≠ DMC.FILLPTR) : (ch1Write s off).rd a = s.rd a := by
  unfold ch1Write fillAgain
  simp only
  split
  · exact State.rd_setBit_ne _ h2 _ _
  · split
    · show ((s.setBit DMC.CTRL 2 off).setBit DMC.STATUS 7 false).rd a = _
      rw [State.rd_setBit_ne _ h2, State.rd_setBit_ne _ h1]
    · split
      · rw [State.rd_wr_ne _ h3, State.rd_setBit_ne _ h2, State.rd_setBit_ne _ h2, State.rd_setBit_ne _ h2, State.rd_setBit_ne _ h1]
      · rw [State.rd_setBit_ne _ h2, State.rd_setBit_ne _ h1]

theorem foldl_rd {α : Type} {a : Nat} (f : State → α → State) (h : ∀ s x, (f s x).rd a = s.rd a) : ∀ (l : List α) (s : State), (l.foldl f s).rd a = s.rd a := by
  intro l
  induction l with
  | nil => intro s; rfl
  | cons x l ih => intro s; exact (ih _).trans (h s x)

theorem setPte_rd (s : State) (p : Nat) (e : BitVec 64) (a : Nat) : (setPte s p e).rd a = s.rd a := rd_of_regs (setPte_regs s p e) a

theorem migAbortIf_rd (s : State) (r : Nat) (p : Migration → Bool) {a : Nat} (ha : a / 4096 ≠ 0x3000D) : (migAbortIf s r p).rd a = s.rd a := by
  refine foldl_rd _ (fun u c => ?_) _ s
  have := c.isLt
  split
  · unfold migAbort
    rw [State.rd_setFld_ne _ (by rintro rfl; apply ha; simp only [STG.MIGSTAT]; omega), State.rd_setFld_ne _ (by rintro rfl; apply ha; simp only [STG.MIGCTRL]; omega)]
    exact setPte_rd _ _ _ _
  · rfl

theorem freezePages_rd (s : State) {a : Nat} (ha : a / 4096 ≠ 0x3000D) : (freezePages s).rd a = s.rd a := by
  unfold freezePages
  refine (foldl_rd _ (fun u p => ?_) _ _).trans ((migAbortIf_rd _ _ _ ha).trans (State.rd_setBit_ne _ (by rintro rfl; exact ha rfl) _ _))
  simp only
  split
  · split
    · exact setPte_rd _ _ _ _
    · split
      · exact setPte_rd _ _ _ _
      · rfl
  · rfl

theorem injMeets_off {s : State} (h : s.bit FLT.INJCTRL 16 = false) (a n : Nat) : injMeets s a n = 0 := by
  unfold injMeets; rw [if_neg (by simp [h])]

/-- Two states agree but for the registers of FLT and CUE and what the cue lines carry: the stage manager, the cores, memory and every
other register. -/
def FltOnly (s t : State) : Prop :=
  t.stg = s.stg ∧ t.cores = s.cores ∧ t.mem = s.mem ∧ ∀ b, b / 4096 ≠ 0x30014 → b / 4096 ≠ 0x30004 → t.rd b = s.rd b

theorem FltOnly.refl (s : State) : FltOnly s s := ⟨rfl, rfl, rfl, fun _ _ _ => rfl⟩

theorem FltOnly.trans {s t u : State} (h : FltOnly s t) (k : FltOnly t u) : FltOnly s u :=
  ⟨k.1.trans h.1, k.2.1.trans h.2.1, k.2.2.1.trans h.2.2.1, fun b h1 h2 => (k.2.2.2 b h1 h2).trans (h.2.2.2 b h1 h2)⟩

theorem FltOnly.log (s : State) (cls init detail flags : Nat) (loc : Word) : FltOnly s (logFault s cls init detail flags loc) :=
  ⟨(logFault_fields ..).2.2.2.2.2, (logFault_fields ..).2.1, (logFault_fields ..).1, fun _ h1 h2 => logFault_rd _ _ _ _ _ _ h1 h2⟩

theorem FltOnly.disarm (s : State) : FltOnly s (injDisarm s) := by
  unfold injDisarm
  exact ⟨State.setBit_stg .., State.setBit_cores .., State.setBit_mem .., fun b _ h2 => State.rd_setBit_ne s (by rintro rfl; exact h2 (by decide)) _ _⟩

theorem FltOnly.bump (s : State) {r : Nat} (h : r / 4096 = 0x30004) (hi lo n : Nat) : FltOnly s (s.bump r hi lo n) :=
  ⟨State.bump_stg .., State.bump_cores .., State.bump_mem .., fun b _ h2 => State.rd_bump_ne _ (by rintro rfl; exact h2 h) _ _ _⟩

theorem FltOnly.correct (s : State) (cls who : Nat) {r : Nat} (h : r / 4096 = 0x30004) (hi lo : Nat) (loc : Word) :
    FltOnly s (correctable s cls who r hi lo loc) := by
  unfold correctable State.when
  split
  · exact (FltOnly.bump s h hi lo 1).trans (FltOnly.log ..)
  · exact FltOnly.bump s h hi lo 1

theorem memClass_reg (p : Nat) : (memClass p).2.1 / 4096 = 0x30004 := by
  unfold memClass; split <;> simp only [FLT.CECNT0, FLT.CECNT1] <;> decide

/-- 20 R482, R491: a walker's read changes registers of FLT and CUE alone. -/
theorem walkRead_keeps (s : State) (who a : Nat) (e : Ecc) : FltOnly s (walkRead s who a e) := by
  unfold walkRead
  split
  · next p _ =>
    simp only
    split
    · exact (FltOnly.disarm s).trans (FltOnly.correct _ _ _ (memClass_reg p) _ _ _)
    · exact (FltOnly.disarm s).trans (FltOnly.log ..)
    · split
      · exact FltOnly.refl s
      · exact FltOnly.correct _ _ _ (memClass_reg p) _ _ _
      · exact FltOnly.log ..
  · exact FltOnly.refl s

/-- The place of a page's entry depends on `STG.PTBASE` and on memory alone. -/
theorem pteAddr_of {s t : State} (hm : t.mem = s.mem) (hr : t.rd STG.PTBASE = s.rd STG.PTBASE) (a : Nat) : pteAddr t a = pteAddr s a := by
  unfold pteAddr State.ld State.bytes State.byte
  rw [hm, hr]

theorem dramFreeze_facts {s : State} (who a raw op : Nat) (syn : BitVec 8) (h : s.bit DMC.FREEZE 0 = false) :
    (dramFreeze s who a raw op syn).fld DMC.FREEZE 2 0 = 3 ∧ (dramFreeze s who a raw op syn).rd DMC.FRZADDR = BitVec.ofNat 32 (a / 8 * 8) ∧
    (dramFreeze s who a raw op syn).fld DMC.FRZSYN 7 0 = syn.toNat := by
  unfold dramFreeze
  rw [if_neg (by simp [h])]
  unfold State.fld
  refine ⟨?_, ?_, ?_⟩
  · rw [freezePages_rd _ (by decide), logFault_rd _ _ _ _ _ _ (by decide) (by decide)]
    simp (disch := decide) only [State.rd_wr_ne, State.rd_setBit_ne, State.rd_setFld_self]
    rw [bitsOf_withBits_self _ _ (by decide) (by decide)]; rfl
  · rw [freezePages_rd _ (by decide), logFault_rd _ _ _ _ _ _ (by decide) (by decide)]
    simp (disch := decide) only [State.rd_wr_ne, State.rd_wr_self]
  · rw [freezePages_rd _ (by decide), logFault_rd _ _ _ _ _ _ (by decide) (by decide)]
    simp (disch := decide) only [State.rd_wr_ne, State.rd_wr_self]
    unfold bitsOf
    rw [BitVec.toNat_ofNat]
    have := syn.isLt
    omega

theorem dramRead_clean {s : State} {who a op : Nat} {p : DramPath} (hi : s.bit FLT.INJCTRL 16 = false) (hs : pathSyn s (a / 8 * 8) p = 0) :
    dramReadWord s who a op p = (true, s) := by
  unfold dramReadWord
  simp only [injMeets_off hi, hs]
  split
  · rfl
  · simp

theorem serves_unfrozen {s : State} {a : Nat} (h : dramServes s a = true) : s.bit DMC.FREEZE 0 = false := by
  unfold dramServes at h; simp only [Bool.and_eq_true, Bool.not_eq_true'] at h; exact h.1.1.2

theorem syn_self (s : State) (w : Nat) (x : BitVec 8) : storedSyn (setSyn s w x) w = x := by
  unfold storedSyn setSyn State.upDram
  by_cases hx : x = 0
  · subst hx
    simp only [if_true, List.nil_append]
    have : ((s.dram.badChk.filter (fun e => e.1 != w)).find? (fun e => e.1 == w)) = none := by
      rw [List.find?_eq_none]; intro e he; simp at he; simp [he.2]
    rw [this]
  · have hx' : (x = 0) = False := eq_false hx
    simp only [hx', if_false, List.singleton_append, List.find?_cons, beq_self_eq_true]

theorem setSyn_fld (s : State) (w : Nat) (x : BitVec 8) (a h l : Nat) : (setSyn s w x).fld a h l = s.fld a h l := rfl

theorem setSyn_byte (s : State) (w : Nat) (x : BitVec 8) (b : Nat) : (setSyn s w x).byte b = s.byte b := rfl

theorem setSyn_mem (s : State) (w : Nat) (x : BitVec 8) : (setSyn s w x).mem = s.mem := rfl

theorem viewNat_wr (s : State) (a : Nat) (v : Word) (w n : Nat) : (s.wr a v).viewNat w n = s.viewNat w n := rfl

theorem viewNat_setFld (s : State) (a h l x : Nat) (w n : Nat) : (s.setFld a h l x).viewNat w n = s.viewNat w n := rfl

theorem words8 (x y : Word) : leBytes 8 (x.toNat + 2 ^ 32 * y.toNat) = leBytes 4 x.toNat ++ leBytes 4 y.toNat := by
  have hx := x.isLt
  simp only [leBytes, List.cons_append, List.nil_append]
  have e : ∀ a b : Nat, a % 256 = b % 256 → BitVec.ofNat 8 a = BitVec.ofNat 8 b := by
    intro a b h; apply BitVec.eq_of_toNat_eq; simpa using h
  have l : ∀ (a b : Byte) (l m : List Byte), a = b → l = m → a :: l = b :: m := by rintro _ _ _ _ rfl rfl; rfl
  refine l _ _ _ _ (e _ _ (by omega)) (l _ _ _ _ (e _ _ (by omega)) (l _ _ _ _ (e _ _ (by omega)) (l _ _ _ _ (e _ _ (by omega)) (l _ _ _ _ (e _ _ (by omega)) (l _ _ _ _ (e _ _ (by omega)) (l _ _ _ _ (e _ _ (by omega)) (l _ _ _ _ (e _ _ (by omega)) rfl)))))))

theorem clearCap_only (s : State) : OnlyRegs s (clearCapture s) [DMC.FRZADDR, DMC.FRZCMD, DMC.FRZSYN, DMC.FRZDLO, DMC.FRZDHI] ∧ (clearCapture s).dram = s.dram := by
  refine ⟨⟨?_, fun _ => rfl⟩, rfl⟩
  intro b hb
  simp only [List.mem_cons, List.not_mem_nil, or_false, not_or] at hb
  unfold clearCapture
  simp [State.rd_wr_ne, hb]

theorem upDram_rd (s : State) (f : Dram → Dram) (a : Nat) : (s.upDram f).rd a = s.rd a := rfl
theorem upDram_bit (s : State) (f : Dram → Dram) (a i : Nat) : (s.upDram f).bit a i = s.bit a i := rfl
theorem upDram_fld (s : State) (f : Dram → Dram) (a h l : Nat) : (s.upDram f).fld a h l = s.fld a h l := rfl
theorem byte_of_mem {s t : State} (h : t.mem = s.mem) (b : Nat) : t.byte b = s.byte b := by unfold State.byte; rw [h]

theorem agcTo_only (s : State) (x : Agc) : (∀ a, a ≠ RXC.STATUS → a ≠ RXC.AGCSTAT → (agcTo s x).rd a = s.rd a) ∧
    (agcTo s x).mem = s.mem ∧ (agcTo s x).fec = s.fec ∧ (agcTo s x).rxc = { s.rxc with agc := x } ∧ (agcTo s x).txc = s.txc := by
  unfold agcTo
  simp only
  split
  · refine ⟨fun a h3 h4 => ?_, rfl, rfl, rfl, rfl⟩
    rw [State.rd_setBit_ne _ h3, State.rd_setBit_ne _ h4]; rfl
  · refine ⟨fun a h3 h4 => ?_, rfl, rfl, rfl, rfl⟩
    rw [State.rd_setFld_ne _ h4, State.rd_setBit_ne _ h3, State.rd_setBit_ne _ h4]; rfl

/-- What the busy map leaves alone. -/
theorem busyRecount_facts (s : State) : (∀ a, a ≠ RXC.BUSYMAP0 → a ≠ RXC.BUSYMAP1 → a ≠ RXC.STATUS → a ≠ RXC.AGCSTAT → (busyRecount s).rd a = s.rd a) ∧
    (busyRecount s).mem = s.mem ∧ (busyRecount s).fec = s.fec ∧ (busyRecount s).rxc.frames = s.rxc.frames ∧ (busyRecount s).rxc.applyHeld = s.rxc.applyHeld ∧
    (busyRecount s).rxc.stamps = s.rxc.stamps ∧ (busyRecount s).txc = s.txc := by
  have hw : ∀ (u : State) (x y : Word) (n : Nat), let w := ((u.wr RXC.BUSYMAP0 x).wr RXC.BUSYMAP1 y).setFld RXC.STATUS 14 8 n
      (∀ a, a ≠ RXC.BUSYMAP0 → a ≠ RXC.BUSYMAP1 → a ≠ RXC.STATUS → w.rd a = u.rd a) ∧ w.mem = u.mem ∧ w.fec = u.fec ∧ w.rxc = u.rxc ∧ w.txc = u.txc := by
    intro u x y n
    refine ⟨fun a h1 h2 h3 => ?_, rfl, rfl, rfl, rfl⟩
    rw [State.rd_setFld_ne _ h3, State.rd_wr_ne _ h2, State.rd_wr_ne _ h1]
  unfold busyRecount
  simp only
  generalize packBits 32 (demodBusy s) = lo
  generalize packBits 32 (fun i => demodBusy s (32 + i)) = hi
  obtain ⟨w1, w2, w3, w4, w5⟩ := hw s (BitVec.ofNat 32 lo) (BitVec.ofNat 32 hi) (onesBelow 32 lo + onesBelow 32 hi)
  generalize ((s.wr RXC.BUSYMAP0 (BitVec.ofNat 32 lo)).wr RXC.BUSYMAP1 (BitVec.ofNat 32 hi)).setFld RXC.STATUS 14 8 (onesBelow 32 lo + onesBelow 32 hi) = w at w1 w2 w3 w4 w5 ⊢
  split
  · obtain ⟨a1, a2, a3, a4, a5⟩ := agcTo_only w .track
    refine ⟨fun a h1 h2 h3 h4 => (a1 a h3 h4).trans (w1 a h1 h2 h3), a2.trans w2, a3.trans w3, ?_, ?_, ?_, a5.trans w5⟩ <;> rw [a4, w4]
  · exact ⟨fun a h1 h2 h3 h4 => w1 a h1 h2 h3, w2, w3, by rw [w4], by rw [w4], by rw [w4], w5⟩

/-- What moving a demodulator to a state does. -/
theorem setDemod_facts (s : State) (n : Fin 64) (st : Nat) : demodState (setDemod s n st) n = st % 8 ∧
    (setDemod s n st).fld (CH.CH_STAT n) 15 8 = s.fld (CH.CH_STAT n) 15 8 ∧
    (∀ a, a ≠ CH.CH_STAT n → a ≠ RXC.BUSYMAP0 → a ≠ RXC.BUSYMAP1 → a ≠ RXC.STATUS → a ≠ RXC.AGCSTAT → (setDemod s n st).rd a = s.rd a) ∧
    (setDemod s n st).mem = s.mem ∧ (setDemod s n st).fec = s.fec ∧ (setDemod s n st).rxc.frames = s.rxc.frames ∧ (setDemod s n st).rxc.applyHeld = s.rxc.applyHeld ∧
    (setDemod s n st).rxc.stamps = s.rxc.stamps ∧ (setDemod s n st).txc = s.txc := by
  have hn := n.isLt
  obtain ⟨f1, f2, f3, f4, f5, f6, f7⟩ := busyRecount_facts (setCca (s.setFld (CH.CH_STAT n) 2 0 st) n)
  have hst : (setDemod s n st).rd (CH.CH_STAT n) = (setCca (s.setFld (CH.CH_STAT n) 2 0 st) n).rd (CH.CH_STAT n) := by
    refine f1 _ ?_ ?_ ?_ ?_ <;> simp only [CH.CH_STAT, RXC.BUSYMAP0, RXC.BUSYMAP1, RXC.STATUS, RXC.AGCSTAT] <;> omega
  refine ⟨?_, ?_, ?_, f2, f3, f4, f5, f6, f7⟩
  · show (setDemod s n st).fld _ 2 0 = _
    unfold State.fld; rw [hst]
    show ((s.setFld (CH.CH_STAT n) 2 0 st).setBit (CH.CH_STAT n) 4 _).fld (CH.CH_STAT n) 2 0 = _
    rw [State.fld_setBit_apart _ _ _ (by decide) (by decide), State.fld_setFld_self _ _ _ (by decide) (by decide)]; rfl
  · unfold State.fld; rw [hst]
    show ((s.setFld (CH.CH_STAT n) 2 0 st).setBit (CH.CH_STAT n) 4 _).fld (CH.CH_STAT n) 15 8 = _
    rw [State.fld_setBit_apart _ _ _ (by decide) (by decide), State.fld_setFld_apart _ _ _ (by decide) (by decide) (by decide)]; rfl
  · intro a h1 h2 h3 h4 h5
    refine (f1 a h2 h3 h4 h5).trans ?_
    show ((s.setFld (CH.CH_STAT n) 2 0 st).setBit (CH.CH_STAT n) 4 _).rd a = _
    rw [State.rd_setBit_ne _ h1, State.rd_setFld_ne _ h1]

/-- A field of a register of another kind keeps its value when a demodulator moves. -/
theorem setDemod_fld (s : State) (n : Fin 64) (st : Nat) {a : Nat} (h : (a / 4096 = 0x30032 ∧ a % 64 ≠ 4) ∨ a / 4096 = 0x30035) : (setDemod s n st).rd a = s.rd a := by
  have hn := n.isLt
  refine (setDemod_facts s n st).2.2.1 a ?_ ?_ ?_ ?_ ?_ <;> simp only [CH.CH_STAT, RXC.BUSYMAP0, RXC.BUSYMAP1, RXC.STATUS, RXC.AGCSTAT, ne_eq] <;> rintro rfl <;> omega

theorem dropFrame_facts (s : State) (n : Nat) : demodFrame (dropFrame s n) n = none ∧ (∀ a, a ≠ FEC.STATUS → (dropFrame s n).rd a = s.rd a) ∧
    (dropFrame s n).mem = s.mem := by
  refine ⟨?_, fun a ha => ?_, rfl⟩
  · have : (dropFrame s n).rxc.frames = s.rxc.frames.filter (fun m => m.demod != n) := rfl
    unfold demodFrame
    rw [this, List.find?_eq_none]
    intro m hm
    have := List.mem_filter.1 hm
    simpa using this.2
  · unfold dropFrame fecStatus
    simp only
    rw [State.rd_setBit_ne _ ha, State.rd_setBit_ne _ ha, State.rd_setFld_ne _ ha]
    rfl

theorem demodFrame_of {s t : State} (h : t.rxc.frames = s.rxc.frames) (n : Nat) : demodFrame t n = demodFrame s n := by unfold demodFrame; rw [h]

theorem agcTo_rd (s : State) (a : Agc) {b : Nat} (h : b / 4096 = 0x30032) : (agcTo s a).rd b = s.rd b := by
  have h1 : b ≠ RXC.AGCSTAT := by rintro rfl; revert h; decide
  have h2 : b ≠ RXC.STATUS := by rintro rfl; revert h; decide
  unfold agcTo
  simp only
  split
  · rw [State.rd_setBit_ne _ h2, State.rd_setBit_ne _ h1]; rfl
  · rw [State.rd_setFld_ne _ h1, State.rd_setBit_ne _ h2, State.rd_setBit_ne _ h1]; rfl

theorem agcTo_rest (s : State) (a : Agc) : (agcTo s a).mem = s.mem ∧ (agcTo s a).rxc.frames = s.rxc.frames ∧ (agcTo s a).rxc.applyHeld = s.rxc.applyHeld := by
  unfold agcTo; simp only; split <;> exact ⟨rfl, rfl, rfl⟩

theorem receiverReady_held (s : State) : (receiverReady s).rxc.applyHeld = s.rxc.applyHeld := by
  unfold receiverReady
  have key : ∀ (l : List Nat) (u : State), (∀ x ∈ l, x < 64) → (l.foldl (fun s n => if demodServes s n ∧ demodState s n = 0 then demodListen s n else s) u).rxc.applyHeld = u.rxc.applyHeld := by
    intro l
    induction l with
    | nil => intro u _; rfl
    | cons x l ih =>
      intro u h
      refine (ih _ (fun y hy => h y (List.mem_cons_of_mem _ hy))).trans ?_
      have hx := h x List.mem_cons_self
      simp only
      split
      · exact (setDemod_facts (u.upRxc (fun r => { r with hist := r.hist.filter (fun h => h.1 != x) })) ⟨x, hx⟩ 1).2.2.2.2.2.2.1
      · rfl
  split
  · simp only
    refine (key _ _ (fun x hx => List.mem_range.1 hx)).trans ?_
    split
    · exact (agcTo_rest _ _).2.2
    · rfl
  · rfl

theorem regWrite_chcfgr (s : State) (who : Nat) (v : Word) : ∀ n : Fin 64, regWrite s who (CH.CH_CFG n) v = (false, chCfgWrite s n v) := by
  intro n; fin_cases n <;> rfl

theorem regRead_tslo (s : State) (who : Nat) : ∀ n : Fin 64, regRead s who (CH.CH_TSLO n) = ((tsloLatch s n).rd (CH.CH_TSLO n), tsloLatch s n) := by
  intro n; fin_cases n <;> rfl

theorem ch_rd (s : State) (n : Fin 64) {a : Nat} (k : Nat) (h : a = 0x30032000 + 0x40 * n.val + k) (hk : k < 64) : a / 4096 = 0x30032 ∧ a % 64 = k := by
  have := n.isLt
  omega

theorem cal_facts (s : State) (n : Nat) (x : SyncMeas) : (calFromFrame s n x).regs = s.regs ∧ (calFromFrame s n x).mem = s.mem := by
  unfold calFromFrame State.when
  simp only
  split <;> split <;> exact ⟨rfl, rfl⟩

theorem bitsOf_and (v m : Word) (hi lo : Nat) (h : bitsOf m hi lo = 2 ^ (hi + 1 - lo) - 1) : bitsOf (v &&& m) hi lo = bitsOf v hi lo := by
  unfold bitsOf at *
  rw [BitVec.toNat_and, Nat.shiftRight_and_distrib, Nat.and_mod_two_pow, h, Nat.and_two_pow_sub_one_eq_mod, Nat.mod_mod]

theorem bitsOf_vSet (v : Word) (b hi lo : Nat) (hb : b < 32) (h : b < lo ∨ hi < b) : bitsOf (vSet v b) hi lo = bitsOf v hi lo := by
  apply Nat.eq_of_testBit_eq
  intro j
  rw [testBit_bitsOf, testBit_bitsOf, ← testB_toNat, ← testB_toNat, testB_vSet _ _ _ hb]
  by_cases hj : j < hi + 1 - lo
  · rw [show decide (lo + j = b) = false by simp; omega, Bool.or_false]
  · simp [hj]

theorem bitsOf_vClr (v : Word) (b hi lo : Nat) (hb : b < 32) (h : b < lo ∨ hi < b) : bitsOf (vClr v b) hi lo = bitsOf v hi lo := by
  apply Nat.eq_of_testBit_eq
  intro j
  rw [testBit_bitsOf, testBit_bitsOf, ← testB_toNat, ← testB_toNat, testB_vClr _ _ _ hb]
  by_cases hj : j < hi + 1 - lo
  · rw [show decide (lo + j = b) = false by simp; omega]; simp
  · simp [hj]


/-- `FEC.STATUS` is all that forming it changes. -/
theorem fecStatus_facts (u : State) : (∀ a, a ≠ FEC.STATUS → (fecStatus u).rd a = u.rd a) ∧ (fecStatus u).mem = u.mem ∧ (fecStatus u).fec = u.fec ∧ (fecStatus u).lnk = u.lnk ∧
    (fecStatus u).bit FEC.STATUS 8 = u.fec.cur.isSome := by
  refine ⟨?_, rfl, rfl, rfl, ?_⟩
  · intro a ha
    unfold fecStatus
    simp only
    rw [State.rd_setBit_ne _ ha, State.rd_setBit_ne _ ha, State.rd_setFld_ne _ ha]
  · unfold fecStatus
    simp only
    rw [State.bit_setBit_apart _ _ _ (by decide) (by decide), State.bit_setBit_self _ _ _ (by decide)]
    rfl

theorem fecStatus_only (s u : State) (l : List Nat) (hs : FEC.STATUS ∈ l) (h : OnlyRegs s u l) : OnlyRegs s (fecStatus u) l :=
  ⟨fun a ha => ((fecStatus_facts u).1 a (fun e => ha (e ▸ hs))).trans (h.1 a ha), fun b => (byte_of_mem (fecStatus_facts u).2.1 b).trans (h.2 b)⟩

theorem fecFinish_facts (s : State) (f : FecFrame) : (fecFinish s f).fec.cur = s.fec.cur ∧ (fecFinish s f).rd FEC.CWCNT = s.rd FEC.CWCNT ∧ (fecFinish s f).mem = s.mem := by
  unfold fecFinish
  split
  · exact ⟨rfl, rfl, rfl⟩
  · simp only
    split
    · refine ⟨rfl, ?_, rfl⟩
      show ((fecDrop s f.id).bump FEC.FRMCNT 15 0 1).rd _ = _
      rw [State.rd_bump_ne _ (by decide)]; rfl
    · refine ⟨rfl, ?_, rfl⟩
      rw [State.rd_bump_ne _ (by decide)]; rfl

theorem raise_facts (s : State) (a hi lo n : Nat) : (s.raise a hi lo n).mem = s.mem ∧ (s.raise a hi lo n).fec = s.fec ∧ (s.raise a hi lo n).lnk = s.lnk := by
  unfold State.raise; split <;> exact ⟨rfl, rfl, rfl⟩

theorem raise_fec (s : State) (a hi lo n : Nat) : (s.raise a hi lo n).fec = s.fec := (raise_facts s a hi lo n).2.1

theorem raise_mem (s : State) (a hi lo n : Nat) : (s.raise a hi lo n).mem = s.mem := (raise_facts s a hi lo n).1

theorem raise_lnk (s : State) (a hi lo n : Nat) : (s.raise a hi lo n).lnk = s.lnk := (raise_facts s a hi lo n).2.2

theorem fld_of_rd {s t : State} {a : Nat} (h : t.rd a = s.rd a) (hi lo : Nat) : t.fld a hi lo = s.fld a hi lo := by unfold State.fld; rw [h]

theorem upFec_rd (s : State) (f : Fec → Fec) (a : Nat) : (s.upFec f).rd a = s.rd a := rfl

theorem upTxc_rd (s : State) (f : Txc → Txc) (a : Nat) : (s.upTxc f).rd a = s.rd a := rfl

theorem upCal_rd (s : State) (f : Cal → Cal) (a : Nat) : (s.upCal f).rd a = s.rd a := rfl

theorem trim_lt (t : Int) : trimIndex t < 16 := by unfold trimIndex clamp; split <;> [omega; split] <;> omega

theorem lnkStat_facts (s : State) : (∀ a, a ≠ LNK.POOLSTAT → a ≠ LNK.STATUS → (lnkStat s).rd a = s.rd a) ∧ (∀ i, i < 8 → (lnkStat s).bit LNK.STATUS i = s.bit LNK.STATUS i) ∧ (lnkStat s).mem = s.mem ∧ (lnkStat s).lnk = s.lnk := by
  unfold lnkStat
  refine ⟨?_, ?_, rfl, rfl⟩
  · intro a h1 h2
    simp only
    rw [State.rd_setFld_ne _ h2, State.rd_setFld_ne _ h1]
  · intro i hi
    simp only
    rw [State.bit_setFld_apart _ _ _ (by decide) (by decide) (by omega), State.bit_setFld_ne _ (by decide)]

/-- A write of `LNK.CTRL` that leaves all but one of its bits as they are. -/
theorem ctrl_same {s : State} {v w : Word} {k : Nat} (h : ∀ i, i < 5 → v.getLsbD i = s.bit LNK.CTRL i) (hw : ∀ i, i ≠ k → testB w.toNat i = v.getLsbD i) :
    ∀ i, i < 5 → i ≠ k → testB w.toNat i = testB (s.rd LNK.CTRL).toNat i := by
  intro i hi hk
  rw [hw i hk, h i hi]; rfl

theorem upTrk_rd (s : State) (f : Tracker → Tracker) (a : Nat) : (s.upTrk f).rd a = s.rd a := rfl

theorem ntStat_facts (s : State) : (∀ a, a ≠ LNK.NTSTAT → (ntStat s).rd a = s.rd a) ∧ (ntStat s).mem = s.mem ∧ (ntStat s).nt = s.nt ∧ trkState (ntStat s) = trkState s ∧ (ntStat s).trk = s.trk := by
  unfold ntStat
  refine ⟨fun a h => ?_, rfl, rfl, ?_, rfl⟩
  · simp only [State.rd_setFld_ne _ h, State.rd_setBit_ne _ h]
  · unfold trkState
    simp (disch := first | decide | omega) only [State.fld_setFld_apart, State.fld_setBit_apart]

theorem setTrk_facts (s : State) (k : Nat) : (∀ a, a ≠ LNK.NTSTAT → a ≠ LNK.NTAGE → (setTrk s k).rd a = s.rd a) ∧ (setTrk s k).mem = s.mem ∧ (setTrk s k).nt = s.nt ∧
    trkState (setTrk s k) = k % 8 ∧ (setTrk s k).rd LNK.NTAGE = (if k = 0 then 0xFFFFFFFF else s.rd LNK.NTAGE) ∧ (setTrk s k).trk = s.trk := by
  unfold setTrk
  obtain ⟨h1, h2, h3, h4, h5⟩ := ntStat_facts (if k = 0 then (s.setFld LNK.NTSTAT 2 0 k).wr LNK.NTAGE 0xFFFFFFFF else s.setFld LNK.NTSTAT 2 0 k)
  refine ⟨fun a ha hb => ?_, ?_, ?_, ?_, ?_, ?_⟩
  · rw [h1 a ha]; split
    · rw [State.rd_wr_ne _ hb, State.rd_setFld_ne _ ha]
    · rw [State.rd_setFld_ne _ ha]
  · rw [h2]; split <;> rfl
  · rw [h3]; split <;> rfl
  · rw [h4]; unfold trkState; split
    · rw [State.fld_wr_ne _ (by decide), State.fld_setFld_self _ _ _ (by decide) (by decide)]; rfl
    · rw [State.fld_setFld_self _ _ _ (by decide) (by decide)]; rfl
  · rw [h1 _ (by decide)]; split
    · rw [State.rd_wr_self]
    · rw [State.rd_setFld_ne _ (by decide)]
  · rw [h5]; split <;> rfl

theorem event_set (s : State) (evt ien b : Nat) (f : Fam) (i : Nat) (hb : b < 32) (he : evt / 4096 ≠ 0x30014) : (s.event evt ien b f i).bit evt b = true := by
  have h : (s.event evt ien b f i).rd evt = (if s.bit evt b then s else s.setBit evt b true).rd evt := (cueOnly_event s evt ien b f i).rd he
  unfold State.bit
  rw [h]
  split
  · assumption
  · exact State.bit_setBit_self s evt true hb

theorem event_rd (s : State) (evt ien b : Nat) (f : Fam) (i : Nat) {a : Nat} (h1 : a / 4096 ≠ 0x30014) (h2 : a ≠ evt) : (s.event evt ien b f i).rd a = s.rd a := by
  refine ((cueOnly_event s evt ien b f i).rd h1).trans ?_
  split
  · rfl
  · exact State.rd_setBit_ne s h2 _ _

theorem event_nt (s : State) (evt ien b : Nat) (f : Fam) (i : Nat) : (s.event evt ien b f i).nt = s.nt ∧ (s.event evt ien b f i).mem = s.mem := by
  obtain ⟨g1, -, -, -, -, -, -, -, -, g⟩ := (cueOnly_event s evt ien b f i).fields
  exact ⟨g.trans (by split <;> rfl), g1.trans (by split <;> rfl)⟩

theorem ntStep_facts (s : State) (v : BitVec 64) : (ntStep (ntSlew s 0) v).nt = v ∧ (ntStep (ntSlew s 0) v).bit LNK.NTSTAT 4 = false ∧ (ntStep (ntSlew s 0) v).bit LNK.TEVT 2 = true ∧
    (ntStep (ntSlew s 0) v).bit LNK.NTSTAT 5 = (if v.toNat < s.nt.toNat then true else s.bit LNK.NTSTAT 5 && decide (v.toNat < s.ntime.top.toNat)) := by
  unfold ntStep lnkTevent
  have hb : ∀ (u : State) i, (u.event LNK.TEVT LNK.TIEN 2 .misca 13).bit LNK.NTSTAT i = u.bit LNK.NTSTAT i := by
    intro u i; unfold State.bit; rw [event_rd _ _ _ _ _ _ (by decide) (by decide)]
  have hn : (ntSlew s 0).nt = s.nt := rfl
  have h4 : (ntSlew s 0).bit LNK.NTSTAT 4 = false := State.bit_setBit_self s _ _ (by decide)
  have h5 : (ntSlew s 0).bit LNK.NTSTAT 5 = s.bit LNK.NTSTAT 5 := State.bit_setBit_apart s _ _ (by decide) (by decide)
  have ht : (ntSlew s 0).ntime.top = s.ntime.top := rfl
  generalize ntSlew s 0 = u at hn h4 h5 ht
  refine ⟨(event_nt _ _ _ _ _ _).1.trans rfl, ?_, event_set _ _ _ _ _ _ (by decide) (by decide), ?_⟩
  · rw [hb]
    rw [← h4]
    simp only [State.bit, State.rd]
    by_cases h : v.toNat < u.nt.toNat
    · simp only [h, decide_true, if_true]
      exact State.bit_setBit_apart u LNK.NTSTAT (i := 5) (j := 4) true (by decide) (by decide)
    · simp only [h, decide_false, Bool.false_eq_true, if_false]
      exact State.bit_setBit_apart u LNK.NTSTAT (i := 5) (j := 4) _ (by decide) (by decide)
  · rw [hb, ← h5, ← hn, ← ht]
    by_cases h : v.toNat < u.nt.toNat
    · simp only [h, decide_true, if_true]
      exact State.bit_setBit_self u LNK.NTSTAT true (by decide)
    · simp only [h, decide_false, Bool.false_eq_true, if_false]
      exact State.bit_setBit_self u LNK.NTSTAT _ (by decide)

theorem sint32 (v : Word) : sint 32 v.toNat = v.toInt := by
  unfold sint
  rw [BitVec.toInt_eq_toNat_cond, Nat.mod_eq_of_lt v.isLt]
  have hc : (v.toNat < 2 ^ (32 - 1)) = (2 * v.toNat < 2 ^ 32) := by rw [eq_iff_iff]; omega
  simp only [hc]
  split
  · rfl
  · simp only [Int.ofNat_eq_natCast]

theorem bcnRoot_facts (s : State) (x : Word) : let t := (setTrk (s.wr LNK.BCNCFG x) 6).upTrk (fun t => { t with window := false })
    trkState t = 6 ∧ t.trk.window = false ∧ t.nt = s.nt ∧ OnlyRegs s t [LNK.BCNCFG, LNK.NTSTAT] := by
  obtain ⟨f1, f2, f3, f4, f5, f6⟩ := setTrk_facts (s.wr LNK.BCNCFG x) 6
  have f7 := State.wr_nt s LNK.BCNCFG x
  have f8 := State.wr_mem s LNK.BCNCFG x
  have f9 := fun a h => State.rd_wr_ne s (a := LNK.BCNCFG) (b := a) h x
  generalize s.wr LNK.BCNCFG x = y at *
  generalize setTrk y 6 = z at *
  refine ⟨(fld_of_rd (upTrk_rd z _ _) 2 0).trans f4, rfl, (State.upTrk_nt z _).trans (f3.trans f7), fun a ha => (upTrk_rd z _ _).trans ?_, fun b => byte_of_mem ((State.upTrk_mem z _).trans (f2.trans f8)) b⟩
  simp only [List.mem_cons, List.not_mem_nil, or_false, not_or] at ha
  by_cases e : a = LNK.NTAGE
  · subst e; rw [if_neg (by decide)] at f5; exact f5.trans (f9 _ ha.1)
  · exact (f1 a ha.2 e).trans (f9 _ ha.1)

theorem tracker_miss (u m : State) (he : m = (u.bump LNK.CNTBCN 31 16 1).upTrk (fun t => { t with x := t.x + BitVec.ofNat 64 (beaconPeriod (u.bump LNK.CNTBCN 31 16 1)) })) :
    (trkState m = 1 → trackerMiss u = beaconPlan (setTrk m 2)) ∧ (trkState m = 2 → trackerMiss u = beaconPlan (setTrk m 3)) ∧ (trkState m = 3 → trackerMiss u = trackerLost m true) := by
  have e : trackerMiss u = (match trkState m with | 1 => beaconPlan (setTrk m 2) | 2 => beaconPlan (setTrk m 3) | _ => trackerLost m true) := by
    rw [he]; rfl
  refine ⟨fun h => ?_, fun h => ?_, fun h => ?_⟩ <;> (rw [e, h]; rfl)

theorem regWrite_shcfg (s : State) (who : Nat) (v : Word) : ∀ n : Fin 32, regWrite s who (HUB.SHCFG n) v = (false, shCfgWrite s n v) := by
  intro n; fin_cases n <;> rfl

theorem regWrite_fltcfg (s : State) (who : Nat) (v : Word) : ∀ n : Fin 16, regWrite s who (HUB.FLTCFG n) v = (false, fltCfgWrite s n v) := by
  intro n; fin_cases n <;> rfl

theorem regWrite_cmpcfg (s : State) (who : Nat) (v : Word) : ∀ n : Fin 16, regWrite s who (HUB.CMPCFG n) v = (false, cmpCfgWrite s n v) := by
  intro n; fin_cases n <;> rfl

theorem cmp_ne : ∀ k : Fin 16, HUB.CMPSTAT k ≠ HUB.CMPCFG k ∧ HUB.CMPCFG k ≠ HUB.CMPSTAT k := by decide

theorem hubCycle_step {s s1 : State} {n : Fin 32} {op : List Byte} (h1 : hubStopped s = false) (h2 : (List.finRange 32).find? (sheetReady s) = some n)
    (h3 : s.hub.sheets[n].steps < max 16 (s.fld HUB.MAXSTEPS 15 0)) (h4 : hubFetch s n = (some op, s1)) (want : HubTurn) (f : State → Fin 32 → List Byte → State)
    (hw : (if !stepRuns s n op then HubTurn.skip else if !stepLegal s op then .illegal else .step (stepKind op)) = want) :
    hubCycle s want f = f (upSheet s1 n (fun x => { x with steps := x.steps + 1 })) n op := by
  have ht : hubTurnOf s n (some op) = want := by
    unfold hubTurnOf
    rw [if_neg (by omega)]; exact hw
  have hn : want ≠ .runaway ∧ want ≠ .fault := by
    rw [← hw]; refine ⟨?_, ?_⟩ <;> (split <;> [skip; split]) <;> simp
  unfold hubCycle
  rw [if_neg (by simp [h1]), h2]
  simp only [h4, ht, if_neg hn.1, if_neg hn.2, if_true, Option.getD_some]

theorem foldl_keep {α : Type} (f : State → α → State) (P : State → Prop) (hf : ∀ s a, P s → f s a = s) : ∀ (l : List α) (s : State), P s → l.foldl f s = s := by
  intro l
  induction l with
  | nil => intro s _; rfl
  | cons a l ih => intro s h; rw [List.foldl_cons, hf s a h]; exact ih s h

theorem hub_addr : ∀ n : Fin 32, HUB.SHSTAT n / 4096 = 0x30015 ∧ HUB.SHSTAT n ≠ HUB.SPWR ∧ HUB.SHSTAT n ≠ HUB.EVT := by decide

theorem regWrite_tmctrl (s : State) (who : Nat) (v : Word) : ∀ x : Fin 8, regWrite s who (TM.CTRL x) v = (false, tmCtrlWrite s x v (s.trusted who)) := by
  intro x; fin_cases x <;> rfl

theorem regWrite_tmcnt (s : State) (who : Nat) (v : Word) : ∀ x : Fin 8, regWrite s who (TM.CNT x) v = (false, tmCntWrite s x v (s.trusted who)) := by
  intro x; fin_cases x <;> rfl

theorem regWrite_tmper (s : State) (who : Nat) (v : Word) : ∀ x : Fin 8, regWrite s who (TM.PER x) v = (false, tmPerWrite s x v (s.trusted who)) := by
  intro x; fin_cases x <;> rfl

theorem regWrite_tmcc (s : State) (who : Nat) (v : Word) : ∀ (x : Fin 8) (n : Fin 4), n.val < tmC x → regWrite s who (TM.CC x n) v = (false, tmCcWrite s x n v (s.trusted who)) := by
  intro x n h; fin_cases x <;> fin_cases n <;> first | (exact absurd h (by decide)) | rfl

theorem regWrite_tmch (s : State) (who : Nat) (v : Word) : ∀ (x : Fin 8) (n : Fin 4), n.val < tmC x → regWrite s who (TM.CHCFG x n) v = (false, tmChWrite s x n v (s.trusted who)) := by
  intro x n h; fin_cases x <;> fin_cases n <;> first | (exact absurd h (by decide)) | rfl

theorem regWrite_pin (s : State) (who : Nat) (v : Word) : ∀ n : Fin 48, regWrite s who (PIN.CFG n) v = (false, pinCfgWrite s n v (s.trusted who)) := by
  intro n; fin_cases n <;> rfl

theorem regWrite_outset (s : State) (who : Nat) (v : Word) : ∀ p : Fin 2, regWrite s who (GPIO.OUTSET p) v = (false, gpioSet s p v true) := by
  intro n; fin_cases n <;> rfl

theorem regWrite_outclr (s : State) (who : Nat) (v : Word) : ∀ p : Fin 2, regWrite s who (GPIO.OUTCLR p) v = (false, gpioSet s p v false) := by
  intro n; fin_cases n <;> rfl

theorem tm_ne : ∀ y : Fin 2, TM.EVT y.val ≠ TM.CTRL y.val ∧ TM.CTRL y.val ≠ TM.EVT y.val ∧ TM.CTRL y.val / 4096 ≠ 0x30014 ∧ TM.EVT y.val / 4096 ≠ 0x30014 := by decide

theorem tm_ne2 : ∀ (x : Fin 8) (n : Fin 4), TM.EVT x.val ≠ TM.WIDTH x.val n.val ∧ TM.EVT x.val ≠ TM.CAPF x.val n.val := by decide

theorem emitProducer_bit (s : State) (f : Fam) (i : Nat) {a : Nat} (h : a / 4096 ≠ 0x30014) (j : Nat) : (emitProducer s f i).bit a j = s.bit a j := by
  unfold State.bit; rw [(cueOnly_producer s f i).rd h]

theorem regWrite_twb (s : State) (who : Nat) (v : Word) : ∀ k : Fin 5, regWrite s who (TWB.CMD k) v = (false, twbCmd s k v) ∧ regWrite s who (TWB.RECOVER k) v = (false, twbRecover s k v) ∧
    regWrite s who (TWB.ATTN k) v = (false, twbAttn s k v (s.trusted who)) ∧ regWrite s who (TWB.TXDATA k) v = (false, twbTxWrite s k v) ∧ regWrite s who (TWB.CTRL k) v = (false, twbCtrlWrite s k v (s.trusted who)) := by
  intro k; fin_cases k <;> exact ⟨rfl, rfl, rfl, rfl, rfl⟩

theorem regRead_twb (s : State) (who : Nat) : ∀ k : Fin 5, regRead s who (TWB.RXDATA k) = twbRxRead s k := by
  intro k; fin_cases k <;> rfl

theorem regWrite_csp (s : State) (who : Nat) (v : Word) : ∀ k : Fin 2, regWrite s who (CSP.TXDATA k) v = (false, cspTxWrite s k v) ∧ regWrite s who (CSP.CTRL k) v = (false, cspCtrlWrite s k v (s.trusted who)) := by
  intro k; fin_cases k <;> exact ⟨rfl, rfl⟩

theorem regRead_csp (s : State) (who : Nat) : ∀ k : Fin 2, regRead s who (CSP.RXDATA k) = cspRxRead s k := by
  intro k; fin_cases k <;> rfl

theorem upTwb_self (s : State) (k : Fin 5) (f : Twb → Twb) : (upTwb s k f).twb[k] = f s.twb[k] := by
  show (s.twb.set k.val (f s.twb[k]) k.isLt)[k.val] = _
  exact Vector.getElem_set_self _

theorem dom_on (s : State) (d : Nat) : (s.setDom d .on).dom d = .on := modAt_getD _ _ _

theorem testB_hwn (s : State) (k : Nat) : testB (s.rd HWN.CTRL).toNat k = s.bit HWN.CTRL k := rfl

theorem bits_self (v : Word) : ∀ k : Fin 9, bitsOf (withBits v 3 0 k.val) 3 0 = k.val := by
  intro k
  rw [bitsOf_withBits_self _ _ (by decide) (by decide)]
  revert k; decide

theorem otp_start {s : State} {who : Nat} {w : Word} {k : Nat} (h : Reaches s who KEY.OTPCMD true) (hk : bitsOf w 3 0 = k) (h1 : k ≠ 0) (h2 : k ≤ 4) :
    (∀ x, s.keys.otpCmd = some x → s.access who KEY.OTPCMD (some w) = s) ∧
    (s.keys.otpCmd = none → s.access who KEY.OTPCMD (some w) = (s.setBit KEY.OTPSTAT 0 true).upKeys (fun k => { k with otpCmd := some w })) := by
  have hw := access_write (t := otpCmdWrite s w) h rfl
  unfold otpCmdWrite at hw
  refine ⟨fun x hx => hw.trans (if_pos (by rw [hx]; exact .inl rfl)), fun hx => hw.trans (if_neg ?_)⟩
  rw [hx, hk]; simp only [Option.isSome_none, Bool.false_eq_true, false_or, not_or]
  exact ⟨h1, by omega⟩

theorem key_start {s : State} {who : Nat} {w : Word} {k : Nat} (h : Reaches s who KEY.CMD true) (hk : bitsOf w 3 0 = k) (h1 : k ≠ 0) (h2 : k ≤ 8) :
    (∀ x, s.keys.cmd = some x → s.access who KEY.CMD (some w) = s.setBit KEY.STATUS 4 true) ∧
    (s.keys.cmd = none → ∃ c : KeyCmd, s.access who KEY.CMD (some w) = ((s.setBit KEY.STATUS 0 true).setBit KEY.STATUS 4 false).upKeys (fun k => { k with cmd := some c }) ∧
      c.cmd = w ∧ c.arg0 = s.rd KEY.ARG0 ∧ c.arg1 = s.rd KEY.ARG1 ∧ c.arg2 = s.rd KEY.ARG2 ∧ c.addr = (s.rd KEY.ADDR).toNat) := by
  have hw := access_write (t := keyCmdWrite s w) h rfl
  unfold keyCmdWrite at hw
  refine ⟨fun x hx => hw.trans (if_pos (by rw [hx]; rfl)), fun hx => ⟨_, hw.trans ((if_neg (by rw [hx]; decide)).trans (if_neg ?_)), rfl, rfl, rfl, rfl, rfl⟩⟩
  rw [hk]; omega

theorem key_leaves {i : Instr} {s : State} {who : Nat} {w : Word} {k : Nat} (he : exec i s = .next (s.access who KEY.CMD (some w))) (h : Reaches s who KEY.CMD true) (hk : bitsOf w 3 0 = k) (h1 : k ≠ 0) (h2 : k ≤ 8) :
    (∀ x, s.keys.cmd = some x → Leaves i s (fun t => t.bit KEY.STATUS 4 = true ∧ t.keys = s.keys ∧ OnlyRegs s t [KEY.STATUS])) ∧
      (s.keys.cmd = none → Leaves i s (fun t => t.bit KEY.STATUS 0 = true ∧ t.bit KEY.STATUS 4 = false ∧ OnlyRegs s t [KEY.STATUS] ∧
        ∃ c : KeyCmd, t.keys = { s.keys with cmd := some c } ∧ c.cmd = w ∧ c.arg0 = s.rd KEY.ARG0 ∧ c.arg1 = s.rd KEY.ARG1 ∧ c.arg2 = s.rd KEY.ARG2 ∧ c.addr = (s.rd KEY.ADDR).toNat)) := by
  obtain ⟨k1, k2⟩ := key_start h hk h1 h2
  refine ⟨fun x hx => ⟨_, he.trans (congrArg _ (k1 x hx)), State.bit_setBit_self _ _ _ (by decide), rfl, fun a ha => State.rd_setBit_ne _ (by simpa using ha) _ _, fun _ => rfl⟩, fun hx => ?_⟩
  obtain ⟨c, e, c1, c2, c3, c4, c5⟩ := k2 hx
  refine ⟨_, he.trans (congrArg _ e), ?_, State.bit_setBit_self _ _ _ (by decide), ⟨fun a ha => ?_, fun _ => rfl⟩, c, rfl, c1, c2, c3, c4, c5⟩
  · exact (State.bit_setBit_apart _ _ (i := 4) (j := 0) _ (by decide) (by decide)).trans (State.bit_setBit_self _ _ _ (by decide))
  · have ha' : a ≠ KEY.STATUS := by simpa using ha
    exact (State.rd_setBit_ne _ ha' _ _).trans (State.rd_setBit_ne _ ha' _ _)

theorem otp_leaves {i : Instr} {s : State} {who : Nat} {w : Word} {k : Nat} (he : exec i s = .next (s.access who KEY.OTPCMD (some w))) (h : Reaches s who KEY.OTPCMD true) (hk : bitsOf w 3 0 = k) (h1 : k ≠ 0) (h2 : k ≤ 4)
    (hx : s.keys.otpCmd = none) : Leaves i s (fun t => t.keys = { s.keys with otpCmd := some w } ∧ t.bit KEY.OTPSTAT 0 = true ∧ OnlyRegs s t [KEY.OTPSTAT]) :=
  ⟨_, he.trans (congrArg _ ((otp_start h hk h1 h2).2 hx)), rfl, State.bit_setBit_self _ _ _ (by decide), fun a ha => State.rd_setBit_ne _ (by simpa using ha) _ _, fun _ => rfl⟩

theorem keyEnd_run {s : State} {c : KeyCmd} {e : Bool} (h : s.keys.cmd = some c) : exec (.keyCommandDone e) s = .next (keyEnd (keyRun s c e).2 c (keyRun s c e).1) := by
  show execKeyCommandDone e s = _
  unfold execKeyCommandDone
  rw [h]

theorem emitProducer_keys (s : State) (f : Fam) (i : Nat) : (emitProducer s f i).keys = s.keys := by
  obtain ⟨r, q, m, e, -⟩ := cueOnly_producer s f i
  rw [e]

theorem emitProducer_mem (s : State) (f : Fam) (i : Nat) : (emitProducer s f i).mem = s.mem := (cueOnly_producer s f i).fields.1

theorem fltEvent_keys (s : State) (b : Nat) : (fltEvent s b).keys = s.keys := by
  obtain ⟨r, q, m, e, -⟩ := cueOnly_event s FLT.EVT FLT.IEN b .miscb 12
  unfold fltEvent; rw [e]; split <;> rfl

theorem logFault_keys (s : State) (cls init detail flags : Nat) (loc : Word) : (logFault s cls init detail flags loc).keys = s.keys := by
  unfold logFault State.when
  simp only
  rw [fltEvent_keys]
  split
  · rw [fltEvent_keys]; rfl
  · rfl

theorem draw_facts (s : State) : s.draw.2.keys = s.keys ∧ s.draw.2.regs = s.regs ∧ s.draw.2.mem = s.mem := ⟨rfl, rfl, rfl⟩

theorem drawBytes_facts (n : Nat) : ∀ s : State, (s.drawBytes n).2.keys = s.keys ∧ (s.drawBytes n).2.regs = s.regs ∧ (s.drawBytes n).2.mem = s.mem := by
  induction n with
  | zero => intro s; exact ⟨rfl, rfl, rfl⟩
  | succ n ih =>
    intro s
    have h := ih s.draw.2
    exact ⟨h.1, h.2.1, h.2.2⟩

theorem alarm_facts {s : State} (hb : s.fld PWR.STATUS 2 0 ≠ 4) (h1 : s.keys.cmd = none) (h2 : s.keys.jobs = []) (h3 : s.keys.pka = none) (i : Fin 4) (words : Nat) :
    let t := alarm s i.val words
    t.keys.mem = none ∧ t.keys.wrap = none ∧ t.keys.tag = none ∧ t.keys.ident = none ∧ t.keys.cache = [] ∧ t.keys.otp = s.keys.otp ∧ t.mem = s.mem ∧
        t.bit KEY.STATUS 1 = false ∧ t.bit AES.STATUS 8 = false ∧ t.bit KEY.ALARM i.val = true ∧ t.bit KEY.ALARM (8 + i.val) = true := by
  have e1 : alarmCommand s words = s := by unfold alarmCommand; rw [h1]
  have e3 : ∀ u : State, u.keys.jobs = [] → jobShow u = u.setBit AES.STATUS 0 false := by
    intro u hu; unfold jobShow; rw [hu]
  set a0 := s.upKeys (fun k => { k with jobs := [] }) with ha0
  have hp : a0.keys.pka = none := h3
  have k0 : a0.keys.jobs = [] := rfl
  -- the erased state
  have er : ∀ u : State, (keyErase u).keys.mem = none ∧ (keyErase u).keys.wrap = none ∧ (keyErase u).keys.tag = none ∧ (keyErase u).keys.ident = none ∧
      (keyErase u).keys.cache = [] ∧ (keyErase u).keys.otp = u.keys.otp ∧ (keyErase u).mem = u.mem := by
    intro u
    unfold keyErase
    simp only
    set w := ((((u.upKeys _).resetRegs (KEY.WDATA 0) 32).resetRegs (PKA.RAM 0) 1024).setBit HSH.STATUS 0 false) with hw
    obtain ⟨d1, d2, d3⟩ := drawBytes_facts (if rngReady w = true then 16 else 0) w
    have q : ∀ f, (rngShow ((w.drawBytes (if rngReady w = true then 16 else 0)).2.upKeys f)).keys = f (w.drawBytes (if rngReady w = true then 16 else 0)).2.keys := fun f => rfl
    have q2 : ∀ f, (rngShow ((w.drawBytes (if rngReady w = true then 16 else 0)).2.upKeys f)).mem = (w.drawBytes (if rngReady w = true then 16 else 0)).2.mem := fun f => rfl
    rw [q, q2, d1, d3]
    exact ⟨rfl, rfl, rfl, rfl, rfl, rfl, rfl⟩
  obtain ⟨r1, r2, r3, r4, r5, r6, r7⟩ := er (jobShow a0)
  intro t
  have ht : t = (fun z : State => if i.val = 3 then emitProducer z .miscb 13 else z) (logFault (((((((keyErase (jobShow a0)).draw.2.upKeys (fun k => { k with session := (keyErase (jobShow a0)).draw.1 })).setBit KEY.STATUS 1 false).setBit AES.STATUS 8 false).setBit KEY.ALARM i.val true).setBit KEY.ALARM (8 + i.val) true).bump KEY.ALARM 31 24 1) 0x21 0xD i.val 0 0) := by
    show alarm s i.val words = _
    unfold alarm
    rw [if_neg hb, e1]
    have f0 : (s.keys.jobs.foldl (fun (s : State) (j : Job) => jobEnd s j 13) (s.upKeys (fun k => { k with jobs := [] }))) = a0 := by rw [h2]; rfl
    simp only [f0, hp, Option.isSome_none, Bool.false_eq_true, if_false]
  set z := (((((((keyErase (jobShow a0)).draw.2.upKeys (fun k => { k with session := (keyErase (jobShow a0)).draw.1 })).setBit KEY.STATUS 1 false).setBit AES.STATUS 8 false).setBit KEY.ALARM i.val true).setBit KEY.ALARM (8 + i.val) true).bump KEY.ALARM 31 24 1) with hz
  have zk : z.keys = { (keyErase (jobShow a0)).keys with session := (keyErase (jobShow a0)).draw.1 } := rfl
  have zm : z.mem = (keyErase (jobShow a0)).mem := rfl
  have b1 : z.bit KEY.STATUS 1 = false := by
    rw [hz]; unfold State.bump
    rw [State.bit_setFld_ne _ (by decide), State.bit_setBit_ne _ (by decide), State.bit_setBit_ne _ (by decide), State.bit_setBit_ne _ (by decide)]
    exact State.bit_setBit_self _ _ _ (by decide)
  have b2 : z.bit AES.STATUS 8 = false := by
    rw [hz]; unfold State.bump
    rw [State.bit_setFld_ne _ (by decide), State.bit_setBit_ne _ (by decide), State.bit_setBit_ne _ (by decide)]
    exact State.bit_setBit_self _ _ _ (by decide)
  have b3 : z.bit KEY.ALARM i.val = true := by
    rw [hz]; unfold State.bump
    rw [State.bit_setFld_apart _ _ _ (by decide) (by decide) (by omega), State.bit_setBit_apart _ _ _ (by omega) (by omega)]
    exact State.bit_setBit_self _ _ _ (by omega)
  have b4 : z.bit KEY.ALARM (8 + i.val) = true := by
    rw [hz]; unfold State.bump
    rw [State.bit_setFld_apart _ _ _ (by decide) (by decide) (by omega)]
    exact State.bit_setBit_self _ _ _ (by omega)
  clear_value z
  have lk := logFault_keys z 0x21 0xD i.val 0 0
  have lm := (logFault_fields z 0x21 0xD i.val 0 0).1
  have lb : ∀ {a} (j : Nat), a / 4096 ≠ 0x30014 → a / 4096 ≠ 0x30004 → (logFault z 0x21 0xD i.val 0 0).bit a j = z.bit a j := by
    intro a j h1 h2; unfold State.bit; rw [logFault_rd z _ _ _ _ _ h1 h2]
  set y := logFault z 0x21 0xD i.val 0 0 with hy
  clear_value y
  have tk : t.keys = y.keys := by
    rw [ht]; beta_reduce
    by_cases hi : i.val = 3
    · rw [if_pos hi]; exact emitProducer_keys _ _ _
    · rw [if_neg hi]
  have tm : t.mem = y.mem := by
    rw [ht]; beta_reduce
    by_cases hi : i.val = 3
    · rw [if_pos hi]; exact emitProducer_mem _ _ _
    · rw [if_neg hi]
  have tb : ∀ {a} (j : Nat), a / 4096 ≠ 0x30014 → t.bit a j = y.bit a j := by
    intro a j h1; rw [ht]; beta_reduce
    by_cases hi : i.val = 3
    · rw [if_pos hi]; exact emitProducer_bit _ _ _ h1 _
    · rw [if_neg hi]
  clear_value t
  refine ⟨by rw [tk, lk, zk]; exact r1, by rw [tk, lk, zk]; exact r2, by rw [tk, lk, zk]; exact r3, by rw [tk, lk, zk]; exact r4, by rw [tk, lk, zk]; exact r5, ?_, ?_, ?_, ?_, ?_, ?_⟩
  · rw [tk, lk, zk]; exact r6.trans (by rw [e3 a0 k0]; rfl)
  · rw [tm, lm, zm]; exact r7.trans (by rw [e3 a0 k0]; rfl)
  · rw [tb 1 (by decide), lb 1 (by decide) (by decide), b1]
  · rw [tb 8 (by decide), lb 8 (by decide) (by decide), b2]
  · rw [tb _ (by decide), lb _ (by decide) (by decide), b3]
  · rw [tb _ (by decide), lb _ (by decide) (by decide), b4]

theorem bits_pka : ∀ k : Fin 7, bitsOf (BitVec.ofNat 32 k.val) 3 0 = k.val := by decide

theorem bitsOf_one (w : Word) (i : Nat) : bitsOf w i i = if testB w.toNat i then 1 else 0 := by
  unfold bitsOf testB
  rw [show i + 1 - i = 1 by omega, Nat.pow_one]
  rcases Nat.mod_two_eq_zero_or_one (w.toNat >>> i) with h | h <;> rw [h] <;> rfl

theorem pka_leaves {i : Instr} {s : State} {who : Nat} (k : Fin 7) (he : exec i s = .next (s.access who PKA.CMD (some (BitVec.ofNat 32 k.val)))) (h : Reaches s who PKA.CMD true) (h1 : k.val ≠ 0) :
    (∀ n, s.keys.pka = some n → exec i s = .next s) ∧ (s.keys.pka = none → keyHoldsPka s = true → exec i s = .next (pkaEnd s 5)) ∧
    (s.keys.pka = none → keyHoldsPka s = false → Leaves i s (fun t => t.keys = { s.keys with pka := some k.val } ∧ t.bit PKA.STATUS 0 = true ∧ OnlyRegs s t [PKA.STATUS])) := by
  have hk := bits_pka k
  have hw := access_write (t := pkaCmdWrite s (BitVec.ofNat 32 k.val)) h rfl
  unfold pkaCmdWrite at hw
  simp only [hk] at hw
  have h6 : k.val ≤ 6 := by omega
  refine ⟨fun n hn => he.trans (congrArg _ (hw.trans (if_pos (by rw [hn]; exact .inl rfl)))), fun hn hh => ?_, fun hn hh => ?_⟩
  · refine he.trans (congrArg _ (hw.trans ((if_neg ?_).trans (if_pos hh))))
    rw [hn]; simp only [Option.isSome_none, Bool.false_eq_true, false_or, not_or]; exact ⟨h1, by omega⟩
  · refine ⟨_, he.trans (congrArg _ (hw.trans ((if_neg ?_).trans (if_neg (by rw [hh]; exact Bool.false_ne_true))))), rfl, State.bit_setBit_self _ _ _ (by decide), fun a ha => State.rd_setBit_ne _ (by simpa using ha) _ _, fun _ => rfl⟩
    rw [hn]; simp only [Option.isSome_none, Bool.false_eq_true, false_or, not_or]; exact ⟨h1, by omega⟩

theorem job_take {s s1 s2 : State} {q : Nat} {w : Word} {enq : Nat} {trust : Bool} {b : List Byte} (h1 : jobNext s = some q) (h2 : qPeek s q = (some w, s1)) (h3 : qTake s q = (some (w, enq, trust), s2))
    (h4 : (engineRead s (jobInit (qTag s q (qHead s q)).1) w.toNat 64 true).1 = some b) {k : Nat} (hk : (descOf b).op = k) : jobStart k s = jobTake s2 q w enq trust := by
  unfold jobStart
  rw [h1]
  simp only [h2, h4, hk, beq_self_eq_true, Bool.or_true, Bool.true_or, if_true, h3]

theorem showWaiting_facts (s : State) : (∀ a, a ≠ PWR.STATUS → (showWaiting s).rd a = s.rd a) ∧ pwrPhase (showWaiting s) = pwrPhase s ∧ pwrState (showWaiting s) = pwrState s ∧ (showWaiting s).pwr = s.pwr ∧
    (showWaiting s).mem = s.mem ∧ (showWaiting s).fld PWR.STATUS 12 8 = (if pwrPhase s = 1 then prepWaiting s else 0) % 32 := by
  unfold showWaiting
  refine ⟨fun a h => State.rd_setFld_ne s h _ _ _, ?_, ?_, rfl, rfl, ?_⟩
  · exact State.fld_setFld_apart s _ _ (by decide) (by decide) (by decide)
  · exact State.fld_setFld_apart s _ _ (by decide) (by decide) (by decide)
  · exact (State.fld_setFld_self s _ _ (by decide) (by decide)).trans rfl

theorem setPwr_facts (s : State) (a b : Nat) : pwrState (setPwr s a b) = a % 8 ∧ pwrPhase (setPwr s a b) = b % 4 ∧ (∀ r, r ≠ PWR.STATUS → (setPwr s a b).rd r = s.rd r) ∧ (setPwr s a b).mem = s.mem ∧ (setPwr s a b).pwr = s.pwr := by
  unfold setPwr
  refine ⟨?_, ?_, fun r h => ?_, rfl, rfl⟩
  · refine (State.fld_setFld_apart _ _ _ (by decide) (by decide) (by decide)).trans ?_
    exact (State.fld_setFld_self s _ _ (by decide) (by decide)).trans rfl
  · exact (State.fld_setFld_self _ _ _ (by decide) (by decide)).trans rfl
  · rw [State.rd_setFld_ne _ h, State.rd_setFld_ne _ h]

theorem upPwr_rd (s : State) (f : Power → Power) (a : Nat) : (s.upPwr f).rd a = s.rd a := rfl

theorem setDom_rd (s : State) (d : Nat) (c : DomCond) (a : Nat) : (s.setDom d c).rd a = s.rd a := rfl

theorem setDom_byte (s : State) (d : Nat) (c : DomCond) (a : Nat) : (s.setDom d c).byte a = s.byte a := rfl

theorem foldl_doms {α : Type} (g : State → α → Bool) (d : α → Nat) (c : DomCond) : ∀ (l : List α) (s : State), (∀ a, (l.foldl (fun (s : State) x => if g s x then s.setDom (d x) c else s) s).rd a = s.rd a) ∧
    ∀ a, (l.foldl (fun (s : State) x => if g s x then s.setDom (d x) c else s) s).byte a = s.byte a := by
  intro l
  induction l with
  | nil => intro s; exact ⟨fun _ => rfl, fun _ => rfl⟩
  | cons x l ih =>
    intro s
    simp only [List.foldl_cons]
    refine ⟨fun a => ((ih _).1 a).trans ?_, fun a => ((ih _).2 a).trans ?_⟩ <;> split <;> rfl

theorem pwrReq_facts {s : State} {who : Nat} {w : Word} {c : Nat} (h : Reaches s who PWR.REQ true) (hc : w.toNat % 8 = c) (h4 : c ≤ 4) (h1 : c ≠ 1) :
    (pwrPhase s = 2 ∨ pwrPhase s = 3 → s.access who PWR.REQ (some w) = ((s.wr PWR.REQ (BitVec.ofNat 32 c)).setBit PWR.STATUS 6 true).upPwr (fun p => { p with held := some c })) ∧
    (pwrPhase s = 0 ∨ pwrPhase s = 1 → c ≠ 0 → s.access who PWR.REQ (some w) = showWaiting (setHold ((setPwr (s.wr PWR.REQ (BitVec.ofNat 32 c)) (pwrState s) 1).upPwr (fun p => { p with target := c })) (decide (3 ≤ c)))) ∧
    (pwrPhase s = 1 → c = 0 → s.access who PWR.REQ (some w) = showWaiting (setHold ((setPwr (s.wr PWR.REQ (BitVec.ofNat 32 c)) (pwrState s) 0).upPwr (fun p => { p with target := 0 })) false)) := by
  have hw := access_write (t := pwrReqWrite s w) h rfl
  unfold pwrReqWrite at hw
  have hp : pwrPhase (s.wr PWR.REQ (BitVec.ofNat 32 c)) = pwrPhase s := State.fld_wr_ne s (by decide) _ _ _
  have hst : pwrState (s.wr PWR.REQ (BitVec.ofNat 32 c)) = pwrState s := State.fld_wr_ne s (by decide) _ _ _
  simp only [hc, hp, hst] at hw
  rw [if_neg (by omega)] at hw
  refine ⟨fun a => hw.trans (if_pos a), fun a b => hw.trans ((if_neg (by omega)).trans (if_neg b)), fun a b => hw.trans ((if_neg (by omega)).trans ((if_pos b).trans (if_pos a)))⟩

theorem wake_phase (s : State) (b : Nat) :
    (wakeEnabled s b = false → wakeEvent s b = s) ∧
    (wakeEnabled s b = true → pwrPhase (s.setBit PWR.WAKESTAT b true) = 1 → wakeEvent s b = showWaiting (setHold ((setPwr (pwrEvent (s.setBit PWR.WAKESTAT b true) 2) (pwrState (s.setBit PWR.WAKESTAT b true)) 0).upPwr (fun p => { p with target := 0 })) false)) ∧
    (wakeEnabled s b = true → pwrPhase (s.setBit PWR.WAKESTAT b true) = 2 → wakeEvent s b = (s.setBit PWR.WAKESTAT b true).upPwr (fun p => { p with latch := addOnce p.latch b })) ∧
    (wakeEnabled s b = true → pwrPhase (s.setBit PWR.WAKESTAT b true) = 0 → pwrState (s.setBit PWR.WAKESTAT b true) = 3 → wakeEvent s b = startExit (s.setBit PWR.WAKESTAT b true) b (wakesToRun (s.setBit PWR.WAKESTAT b true) b) false) ∧
    (wakeEnabled s b = true → pwrPhase (s.setBit PWR.WAKESTAT b true) = 0 → pwrState (s.setBit PWR.WAKESTAT b true) ≠ 3 → pwrState (s.setBit PWR.WAKESTAT b true) ≠ 2 → wakeEvent s b = s.setBit PWR.WAKESTAT b true) := by
  unfold wakeEvent
  generalize s.setBit PWR.WAKESTAT b true = u
  refine ⟨fun h => if_pos (by rw [h]; rfl), fun h h1 => ?_, fun h h1 => ?_, fun h h1 h2 => ?_, fun h h1 h2 h3 => ?_⟩
  · rw [if_neg (by rw [h]; decide)]; simp only [h1]
  · rw [if_neg (by rw [h]; decide)]; simp only [h1]
  · rw [if_neg (by rw [h]; decide)]; simp only [h1]; exact if_pos h2
  · rw [if_neg (by rw [h]; decide)]; simp only [h1]; rw [if_neg h2]; exact if_neg (fun x => h3 x.1)

theorem svcEvent_facts (s : State) (b : Nat) (hb : b < 32) : (svcEvent s b).bit SVC.EVT b = true ∧ (∀ a, a / 4096 ≠ 0x30014 → a ≠ SVC.EVT → (svcEvent s b).rd a = s.rd a) ∧ (∃ m, (svcEvent s b).svc = { s.svc with motionAt := m }) ∧ (svcEvent s b).mem = s.mem := by
  refine ⟨event_set s SVC.EVT SVC.IEN b .miscb 10 hb (by decide), fun a h1 h2 => event_rd s SVC.EVT SVC.IEN b .miscb 10 h1 h2, ?_, (event_nt s SVC.EVT SVC.IEN b .miscb 10).2⟩
  obtain ⟨r, q, m, e, -⟩ := cueOnly_event s SVC.EVT SVC.IEN b .miscb 10
  unfold svcEvent; rw [e]; exact ⟨m, by split <;> rfl⟩

theorem svcDiscard_facts (s : State) (b : Nat) (hb : b < 32) : (svcDiscard s b).bit SVC.EVT b = true ∧ (svcDiscard s b).fld SVC.CNT 31 16 = min (s.fld SVC.CNT 31 16 + 1) 0xFFFF ∧ (svcDiscard s b).fld SVC.CNT 15 0 = s.fld SVC.CNT 15 0 ∧
    (svcDiscard s b).rd SVC.STATUS = s.rd SVC.STATUS ∧ (∃ m, (svcDiscard s b).svc = { s.svc with motionAt := m }) ∧ (svcDiscard s b).mem = s.mem := by
  obtain ⟨g1, g2, g3, g4⟩ := svcEvent_facts (s.bump SVC.CNT 31 16 1) b hb
  have e := g2 SVC.CNT (by decide) (by decide)
  refine ⟨g1, ?_, ?_, (g2 _ (by decide) (by decide)).trans (State.rd_bump_ne s (by decide) _ _ _), g3, g4⟩
  · exact (fld_of_rd e 31 16).trans (State.fld_bump_self s SVC.CNT (by decide) (by decide))
  · exact (fld_of_rd e 15 0).trans (State.fld_setFld_apart s SVC.CNT _ (by decide) (by decide) (by decide))

theorem svcGood_facts (s : State) : (svcGood s).bit SVC.EVT 0 = true ∧ (svcGood s).fld SVC.CNT 15 0 = min (s.fld SVC.CNT 15 0 + 1) 0xFFFF ∧ (svcGood s).fld SVC.CNT 31 16 = s.fld SVC.CNT 31 16 ∧
    (∃ m, (svcGood s).svc = { s.svc with probing := false, motionAt := m }) ∧ (svcGood s).mem = s.mem := by
  obtain ⟨g1, g2, g3, g4⟩ := svcEvent_facts ((s.bump SVC.CNT 15 0 1).upSvc (fun v => { v with probing := false })) 0 (by decide)
  have e := g2 SVC.CNT (by decide) (by decide)
  obtain ⟨m, g3⟩ := g3
  refine ⟨g1, ?_, ?_, ⟨m, g3.trans rfl⟩, g4.trans rfl⟩
  · exact (fld_of_rd e 15 0).trans (State.fld_bump_self s SVC.CNT (by decide) (by decide))
  · exact (fld_of_rd e 31 16).trans (State.fld_setFld_apart s SVC.CNT _ (by decide) (by decide) (by decide))

theorem svcStat_facts (s : State) : (svcStat s).svc = s.svc ∧ (svcStat s).mem = s.mem ∧ (∀ a, a ≠ SVC.STATUS → (svcStat s).rd a = s.rd a) ∧ (svcStat s).bit SVC.STATUS 1 = s.svc.reply.isSome ∧
    (svcStat s).fld SVC.STATUS 11 8 = (below (svcNbuf s) (fun i => !s.svc.used.contains i)).length % 16 := by
  unfold svcStat
  refine ⟨rfl, rfl, fun a h => (State.rd_setBit_ne _ h _ _).trans (State.rd_setFld_ne s h _ _ _), State.bit_setBit_self _ _ _ (by decide), ?_⟩
  exact (State.fld_setBit_apart _ _ (i := 1) _ (by decide) (by decide)).trans (State.fld_setFld_self s _ _ (by decide) (by decide))

theorem upSvc_rd (s : State) (f : Svc → Svc) (a : Nat) : (s.upSvc f).rd a = s.rd a := rfl

theorem svcServe_fresh {s : State} {cmd seq : Byte} {p : List Byte} (h1 : svcServer s = 1) (h2 : lifecycle s ≠ 3) (h3 : s.svc.last.1 ≠ [cmd, seq] ++ p) (f : State → Option (Nat × List Byte) × State) :
    svcServe s cmd seq p f = (match (f s).1 with | some a => svcReply (f s).2 ([cmd, seq] ++ p) (svcBody cmd seq a.1 a.2) | none => (f s).2.upSvc (fun v => { v with actReq := [cmd, seq] ++ p })) := by
  unfold svcServe
  rw [if_neg (by omega)]
  refine (if_neg h3).trans (if_neg ?_)
  rintro (⟨a, -⟩ | ⟨a, -⟩ | ⟨a, -⟩)
  · exact h2 a
  · omega
  · omega

theorem svcServe_answer {s t : State} {cmd seq : Byte} {p data : List Byte} {st : Nat} {f : State → Option (Nat × List Byte) × State} (h1 : svcServer s = 1) (h2 : lifecycle s ≠ 3) (h3 : s.svc.last.1 ≠ [cmd, seq] ++ p)
    (hf : f s = (some (st, data), t)) : svcServe s cmd seq p f = svcReply t ([cmd, seq] ++ p) ([cmd + 0x80, seq, BitVec.ofNat 8 st] ++ data) := by
  rw [svcServe_fresh h1 h2 h3, hf]; rfl

theorem svcServe_none {s : State} (h : svcServer s = 0) (cmd seq : Byte) (p : List Byte) (f : State → Option (Nat × List Byte) × State) : svcServe s cmd seq p f = s := by
  unfold svcServe; exact if_pos h

theorem svcServe_repeat {s : State} {cmd seq : Byte} {p : List Byte} (h : svcServer s ≠ 0) (h3 : s.svc.last.1 = [cmd, seq] ++ p) (f : State → Option (Nat × List Byte) × State) :
    svcServe s cmd seq p f = svcStat (s.upSvc (fun v => { v with reply := some v.last.2 })) := by
  unfold svcServe; rw [if_neg h]; exact if_pos h3

theorem ownerServe_cases {s : State} {op : Nat} {seq : Byte} {p : List Byte} (h1 : svcServer s = 1) (h2 : lifecycle s ≠ 3) (h3 : s.svc.last.1 ≠ [(9 : Byte), seq] ++ p) (h : (p.getD 4 0).toNat = op) :
    (p.length ≠ 208 → ownerServe op seq p s = svcReply (s.upSvc (fun v => { v with nonce := none })) ([9, seq] ++ p) ([9 + 0x80, seq, BitVec.ofNat 8 2] ++ [])) ∧
    (p.length = 208 → ownerOk s p = false → ownerServe op seq p s = svcReply (s.upSvc (fun v => { v with nonce := none })) ([9, seq] ++ p) ([9 + 0x80, seq, BitVec.ofNat 8 14] ++ [])) ∧
    (p.length = 208 → ownerOk s p = true → ownerServe op seq p s = svcReply (ownerRun (s.upSvc (fun v => { v with nonce := none })) op ((p.drop 48).take 32)).2 ([9, seq] ++ p)
      ([9 + 0x80, seq, BitVec.ofNat 8 (ownerRun (s.upSvc (fun v => { v with nonce := none })) op ((p.drop 48).take 32)).1] ++ [])) := by
  unfold ownerServe
  rw [if_neg (fun a => a h)]
  refine ⟨fun a => ?_, fun a b => ?_, fun a b => ?_⟩
  · exact svcServe_answer h1 h2 h3 (if_pos a)
  · exact svcServe_answer h1 h2 h3 ((if_neg (fun x => x a)).trans (if_neg (by rw [b]; decide)))
  · exact svcServe_answer h1 h2 h3 ((if_neg (fun x => x a)).trans (if_pos b))

end Sys2Proof.Machine
end

