-- ==== Sys2Proof/Laws/Player.lean ====
section
/-! SUPPORT. What a bundle of one syllable does on a core that nothing holds up: the decoding of its word, its legality, and its commit. -/
namespace Sys2Proof.Machine
open Sys2Proof.Reg Sys2Proof.Safety

/-- The word of a syllable alone in its bundle. -/
def sylWord (slot : Nat) (g : Fin 8) (src : BitVec 13) (dst : Nat) : Word :=
  BitVec.ofNat 32 (2 ^ 31 + 2 ^ 28 * (slot % 8) + 2 ^ 25 * g.val + 2 ^ 12 * src.toNat + dst)

theorem sylFields (slot : Nat) (g : Fin 8) (src : BitVec 13) (dst : Nat) (hs : slot < 8) (hd : dst < 4096) :
    sylSlot (sylWord slot g src dst) = slot ∧ sylGuard (sylWord slot g src dst) = g.val ∧ sylSrc (sylWord slot g src dst) = src.toNat ∧
    sylDst (sylWord slot g src dst) = dst ∧ sylStop (sylWord slot g src dst) = true := by
  have hg := g.isLt
  have hr := src.isLt
  simp only [sylSlot, sylGuard, sylSrc, sylDst, sylStop, sylWord, bitsOf, testB, BitVec.toNat_ofNat, Nat.shiftRight_eq_div_pow, beq_iff_eq]
  refine ⟨?_, ?_, ?_, ?_, ?_⟩ <;> omega

theorem moveOf_sylWord (slot : Nat) (g : Fin 8) (src : BitVec 13) (dst : Nat) (hs : slot < 8) (hd : dst < 4096) :
    moveOf (sylWord slot g src dst) = { guard := g.val, src := srcOf src.toNat, slot := slot, dst := dst } := by
  obtain ⟨h1, h2, h3, h4, -⟩ := sylFields slot g src dst hs hd
  simp [moveOf, h1, h2, h3, h4]


theorem distinct_one (i : Nat) : distinct [i] = [i] := by simp [distinct, addOnce]

theorem topSlot_lt (k : CoreKind) : topSlot k < 8 := by cases k <;> decide

theorem illegalCode_one {k : CoreKind} {slot : Nat} {g : Fin 8} {src : BitVec 13} {dst : Nat} {d : Dest} (hs : slot ≤ topSlot k) (hd : dst < 4096)
    (hr : 0x44 ≤ dst) (hop : destOf k slot dst = .inr d) (hsrc : ∀ i, srcOf src.toNat = .sock i → srcExists k i = true)
    (hl : dst = 0x9FF → slot = topSlot k → src.toNat = 0x1000) : illegalCode k [sylWord slot g src dst] = none := by
  have h8 := topSlot_lt k
  obtain ⟨h1, h2, h3, h4, h5⟩ := sylFields slot g src dst (by omega) hd
  have hb : ¬ dst < 0x44 := by omega
  have hd20 : ¬ dst < 0x20 := by omega
  have hord : orderBroken [slot] = false := rfl
  simp only [illegalCode, illegalCodes]
  cases hsr : srcOf src.toNat with
  | val w => 
    simp [h1, h3, h4, h5, hs, hsr, hop, hb, hord, distinct, hasRepeat, Nat.not_lt.2 hs]
    exact ⟨by cases d <;> rfl, by cases d <;> rfl, fun a b => hl b a⟩
  | sock i =>
    have := hsrc i hsr
    simp [h1, h3, h4, h5, hs, hsr, hop, hb, hord, distinct, hasRepeat, this, Nat.not_lt.2 hs]
    refine ⟨by cases d <;> rfl, by cases d <;> rfl, ⟨?_, ?_⟩, fun a b => hl b a⟩
    · by_cases hi : i < 32 <;> simp [List.filter, hi, addOnce]
    · by_cases hi : 32 ≤ i <;> by_cases hj : i < 64 <;> simp [List.filter, hi, hj, addOnce]

theorem dbgApply_unwatched {s : State} (h : Unwatched s) : dbgApply s = s := by
  unfold dbgApply
  have key : ∀ l : List (Fin 6), l.foldl (fun (s : State) (p : Fin 6) =>
    let c := s.core p
    let want := s.bit DBG.HALT p.val
    if want ∧ c.run = .running ∧ c.xfer.isNone ∧ c.stall.isNone then
      (wdRestart (s.upCore p (fun c => { c with run := .debug })) p.val).setBit DBG.STATUS p.val true
    else if ¬ want ∧ c.run = .debug then (s.upCore p (fun c => { c with run := .running })).setBit DBG.STATUS p.val false
    else s) s = s := by
    intro l
    induction l with
    | nil => rfl
    | cons p l ih =>
      have h1 := (h p).1
      have h2 := (h p).2
      simp only [List.foldl_cons, h1, h2]
      simpa using ih
  exact key _

theorem core_setCore (s : State) (p q : Fin 6) (c : Core) : (s.setCore p c).core q = if q = p then c else s.core q := by
  simp only [State.core, State.setCore_cores]
  by_cases h : q = p
  · subst h; simp
  · have : p.val ≠ q.val := fun e => h (Fin.ext e.symm)
    simp [h, this]

theorem core_upCore (s : State) (p q : Fin 6) (f : Core → Core) : (s.upCore p f).core q = if q = p then f (s.core p) else s.core q :=
  core_setCore _ _ _ _

@[simp] theorem core_upCore_self (s : State) (p : Fin 6) (f : Core → Core) : (s.upCore p f).core p = f (s.core p) := by simp [core_upCore]

/-- The trigger of a plain operation, one of the ALU, MUL, SHF or SIMD. -/
def plainOp : UnitOp → Bool
  | .alu _ _ => true | .mul _ => true | .shf _ => true | .simd _ => true
  | _ => false

theorem readCycle_plain {s : State} {p : Fin 6} {ms : List Move} (h : ∀ m ∈ ms, m.src ≠ .sock 0x210) :
    readCycle s p ms = (cycleWord (s.core p), s) := by
  have : ms.any (fun m => m.src == .sock 0x210) = false := by
    rw [List.any_eq_false]
    intro m hm
    simpa using h m hm
  simp [readCycle, this]

/-- The core after a bundle of one plain operation: its result in flight, one cycle past. -/
def plainDone (k : CoreKind) (m : Move) (op : UnitOp) (v : Word) (c : Core) : Core :=
  tickCore (productStep { c with fly := unitFlights c op v [] [] 0 0, pc := c.pc + 4 } k [m] c)

/-- The link pair counts its bundles. -/
def countBundle (s : State) (p : Fin 6) : State := if p.val = 4 then s.upPair (fun l => { l with bundles := l.bundles + 1 }) else s

theorem unitFlights_plain {op : UnitOp} (h : plainOp op = true) (c : Core) (v : Word) (a b : List Flight) (l w : Word) :
    unitFlights c op v a b l w = unitFlights c op v [] [] 0 0 := by
  cases op <;> first | rfl | simp [plainOp] at h

theorem applyMove_trig {k : CoreKind} {m : Move} {op : UnitOp} (ht : trigOf k m = some op) (c : Core) (v : Word) : applyMove k c m v = c := by
  unfold trigOf at ht
  unfold applyMove
  split at ht <;> simp_all

theorem tickCore_pc (c : Core) : (tickCore c).pc = c.pc ∧ (tickCore c).pstat = c.pstat ∧ (tickCore c).lend = c.lend ∧ (tickCore c).run = c.run ∧
    (tickCore c).xfer = c.xfer ∧ (tickCore c).stall = c.stall ∧ (tickCore c).lcount = c.lcount ∧ (tickCore c).lstart = c.lstart := by
  have key : ∀ (l : List Flight) (c : Core), (l.foldl landFlight c).pc = c.pc ∧ (l.foldl landFlight c).pstat = c.pstat ∧ (l.foldl landFlight c).lend = c.lend ∧
      (l.foldl landFlight c).run = c.run ∧ (l.foldl landFlight c).xfer = c.xfer ∧ (l.foldl landFlight c).stall = c.stall ∧
      (l.foldl landFlight c).lcount = c.lcount ∧ (l.foldl landFlight c).lstart = c.lstart := by
    intro l
    induction l with
    | nil => intro c; simp
    | cons f l ih =>
      intro c
      have := ih (landFlight c f)
      simp only [List.foldl_cons]
      rw [this.1, this.2.1, this.2.2.1, this.2.2.2.1, this.2.2.2.2.1, this.2.2.2.2.2.1, this.2.2.2.2.2.2.1, this.2.2.2.2.2.2.2]
      unfold landFlight
      split <;> simp
  exact key _ _

theorem productStep_pc (c : Core) (k : CoreKind) (ms : List Move) (o : Core) : (productStep c k ms o).pc = c.pc ∧ (productStep c k ms o).pstat = c.pstat ∧
    (productStep c k ms o).lend = c.lend ∧ (productStep c k ms o).run = c.run ∧ (productStep c k ms o).xfer = c.xfer := by
  unfold productStep
  simp only
  split <;> simp

theorem cuTrig_plain {k : CoreKind} {m : Move} {op : UnitOp} (ht : trigOf k m = some op) (hp : plainOp op = true) (v : Word) : cuTrig k [(m, v)] = none := by
  simp only [cuTrig, List.findSome?_cons, ht, List.findSome?_nil]
  cases op <;> first | rfl | simp [plainOp] at hp

theorem quTrig_plain {k : CoreKind} {m : Move} {op : UnitOp} (ht : trigOf k m = some op) (hp : plainOp op = true) (v : Word) : quTrig k [(m, v)] = none := by
  simp only [quTrig, List.findSome?_cons, ht, List.findSome?_nil]
  cases op <;> first | rfl | simp [plainOp] at hp

theorem bundleEnd_plain {c : Core} {k : CoreKind} {m : Move} {op : UnitOp} {v : Word} {b : Bundle} {lsu qu : List Flight} {n : Nat}
    (ht : trigOf k m = some op) (hp : plainOp op = true) (hl : b.len = 4) (hx : c.xfer = none) (hf : c.fly = []) (hg : c.got = []) (hfl : c.flines = [])
    (hs : c.stall = none) (hloop : ¬ (pstatBit c PSTAT.lact = true ∧ c.pc = c.lend)) :
    bundleEnd c c k [(m, v)] lsu qu n b = plainDone k m op v c := by
  have hnew : ∀ w l, newFlights k c [(m, v)] lsu qu w l = unitFlights c op v [] [] 0 0 := by
    intro w l
    simp only [newFlights, List.flatMap_cons, List.flatMap_nil, List.append_nil, ht]
    exact unitFlights_plain hp c v lsu qu w l
  have hc2 : ({ c with fly := unitFlights c op v [] [] 0 0, pc := c.pc + 4, xfer := none, stall := none, got := [], flines := [], resv := gotResv c.got c.resv } : Core) =
      { c with fly := unitFlights c op v [] [] 0 0, pc := c.pc + 4 } := by
    cases c; simp_all [gotResv]
  unfold bundleEnd plainDone
  simp only [hnew, hf, List.filter_nil, ite_self, List.nil_append, List.map_cons, List.map_nil, List.foldl_cons, List.foldl_nil, hl, cuTrig_plain ht hp, applyMove_trig ht]
  rw [hx]
  simp only
  rw [show BitVec.ofNat 32 4 = (4 : Word) from rfl, hc2]
  unfold loopEnd
  have hxx : ({ c with fly := unitFlights c op v [] [] 0 0, pc := c.pc + 4, xfer := none } : Core) = { c with fly := unitFlights c op v [] [] 0 0, pc := c.pc + 4 } := by
    cases c; simp_all [gotResv]
  try rw [hxx]
  rw [if_neg]
  obtain ⟨-, h2, h3, -⟩ := tickCore_pc (productStep { c with fly := unitFlights c op v [] [] 0 0, pc := c.pc + 4 } k [m] c)
  obtain ⟨-, h5, h6, -⟩ := productStep_pc { c with fly := unitFlights c op v [] [] 0 0, pc := c.pc + 4 } k [m] c
  simp only [pstatBit, h2, h3, h5, h6] at hloop ⊢
  exact hloop

theorem commit_plain {s : State} {p : Fin 6} {b : Bundle} {m : Move} {op : UnitOp} (hr : CoreReady s p) (hm : m.src ≠ .sock 0x210)
    (ht : trigOf (coreKind p) m = some op) (hp : plainOp op = true) (hl : b.len = 4) :
    commitBundle s p b [m] [] 0 =
      countBundle (s.upCore p (plainDone (coreKind p) m op (srcVal s p (cycleWord (s.core p)) m.src))) p := by
  obtain ⟨h1, h2, h3, h4, h5, h6, h7, h8, h9, h10, h11, h12, h13⟩ := hr
  have hcyc : readCycle s p [m] = (cycleWord (s.core p), s) := readCycle_plain (by simpa using hm)
  have hal : ((s.core p).pc + 4).toNat % 4 = 0 := by
    have := (s.core p).pc.isLt
    have h4 : (4 : Word).toNat = 4 := rfl
    rw [BitVec.toNat_add, h4]
    omega
  unfold commitBundle
  simp only [hcyc, List.map_cons, List.map_nil, quStep, quTrig_plain ht hp, cuTrig_plain ht hp, Option.map_none, reduceCtorEq, if_false]
  have hb : ∀ v, (s.upCore p (fun c => bundleEnd (s.core p) c (coreKind p) [(m, v)] [] [] 0 b)) = s.upCore p (plainDone (coreKind p) m op v) := by
    intro v
    simp only [State.upCore]
    rw [bundleEnd_plain ht hp hl h4 h5 h6 h7 h2 h9]
  rw [hb]
  set v := srcVal s p (cycleWord (s.core p)) m.src
  have hrun : ∀ q, ((s.upCore p (plainDone (coreKind p) m op v)).core q).run = (s.core q).run := by
    intro q
    rw [core_upCore]
    split
    · next h => subst h; rw [plainDone, (tickCore_pc _).2.2.2.1, (productStep_pc _ _ _ _).2.2.2.1]
    · rfl
  have hpc : ((s.upCore p (plainDone (coreKind p) m op v)).core p).pc.toNat % 4 = 0 := by
    rw [core_upCore_self, plainDone, (tickCore_pc _).1, (productStep_pc _ _ _ _).1]; exact hal
  have hab : ∀ t : State, (t.core p).pc.toNat % 4 = 0 → afterBundle t p none = t := by
    intro t ht; simp [afterBundle, ht]
  unfold countBundle
  have hun : ∀ t : State, t.regs = s.regs → (∀ q, (t.core q).run = (s.core q).run) → Unwatched t := by
    intro t ht hq q
    refine ⟨?_, by rw [hq]; exact (h13 q).2⟩
    have := (h13 q).1
    simpa [State.bit, State.rd, ht] using this
  split
  · rw [hab (State.upPair (s.upCore p (plainDone (coreKind p) m op v)) (fun l => { l with bundles := l.bundles + 1 })) hpc]
    have hl2 : logsFill (State.upPair (s.upCore p (plainDone (coreKind p) m op v)) (fun l => { l with bundles := l.bundles + 1 })).pair = false := h10
    simp only [hl2, Bool.and_false, Bool.false_and, State.when, Bool.false_eq_true, if_false]
    exact dbgApply_unwatched (hun _ rfl hrun)
  · rw [hab _ hpc]
    have hl2 : logsFill (s.upCore p (plainDone (coreKind p) m op v)).pair = false := h10
    simp only [hl2, Bool.and_false, Bool.false_and, State.when, Bool.false_eq_true, if_false]
    exact dbgApply_unwatched (hun _ rfl hrun)

theorem trigOf_dest {k : CoreKind} {m : Move} {op : UnitOp} (h : destOf k m.slot m.dst = .inr (.trig op)) : trigOf k m = some op := by
  unfold trigOf; rw [h]

/-- A bundle of one plain operation has no effect before its end. -/
theorem runBundle_plain {s : State} {p : Fin 6} {b : Bundle} {m : Move} {op : UnitOp} (hr : CoreReady s p) (hm : m.src ≠ .sock 0x210)
    (hd : destOf (coreKind p) m.slot m.dst = .inr (.trig op)) (hp : plainOp op = true) (hl : b.len = 4) (hms : execMoves (s.core p) b = [m]) :
    runBundle s p b = countBundle (s.upCore p (plainDone (coreKind p) m op (srcVal s p (cycleWord (s.core p)) m.src))) p := by
  have ht := trigOf_dest hd
  obtain ⟨h1, h2, h3, h4, h5, h6, h7, h8, h9, h10, h11, h12, h13⟩ := id hr
  have hls : lsuOf (coreKind p) [m] = none := by
    simp only [lsuOf, List.findSome?_cons, ht, List.findSome?_nil]; cases op <;> first | rfl | simp [plainOp] at hp
  have hq : quOf (coreKind p) [m] = none := by
    simp only [quOf, List.findSome?_cons, ht, List.findSome?_nil]; cases op <;> first | rfl | simp [plainOp] at hp
  have hc : cuOf (coreKind p) [m] = none := by
    simp only [cuOf, List.findSome?_cons, ht, List.findSome?_nil]; cases op <;> first | rfl | simp [plainOp] at hp
  have hef : earlyFault s p [m] = none := by
    have hnc : needsPriv (coreKind p) m = false := by
      unfold needsPriv; rw [hd]; cases op <;> first | rfl | simp [plainOp] at hp
    simp only [earlyFault, h4, Option.isSome_none, Bool.false_and, Bool.false_eq_true, if_false, List.find?_cons, hnc, Bool.and_false, List.find?_nil, hls]
  have hes : earlyStall s p [m] = none := by
    simp [earlyStall, h5, divBusy, waitsEvent, hq, hc, deqWaits]
  have hpo : s.bit FLT.INJCTRL 16 = false := h12
  have hla : lookAhead s p b [m] = (.len 0, s) := by simp [lookAhead, hc]
  unfold runBundle
  simp only [hms, hef, hes, hpo, Bool.and_false, Bool.false_and, Bool.false_eq_true, if_false, hla, hls]
  exact commit_plain hr hm ht hp hl

theorem runUnitOp_plain {s : State} {p : Fin 6} {u : FU} {code : Nat} {g : Fin 8} {src : BitVec 13} {v : Word} {op : UnitOp}
    (hr : CoreReady s p) (hs : SrcReads s p src v) (hg : GuardHolds s p g) (hle : unitSlot (coreKind p) u ≤ topSlot (coreKind p))
    (hop : destOf (coreKind p) (unitSlot (coreKind p) u) (0x900 + code) = .inr (.trig op)) (hcode : code < 0xFF) (hp : plainOp op = true) :
    runUnitOp s p u code g src none = countBundle (s.upCore p (plainDone (coreKind p)
      { guard := g.val, src := srcOf src.toNat, slot := unitSlot (coreKind p) u, dst := 0x900 + code } op v)) p := by
  have h8 : unitSlot (coreKind p) u < 8 := lt_of_le_of_lt hle (topSlot_lt _)
  obtain ⟨h1, h2, h3, h4, h5, h6, h7, h8', h9, h10, h11, h12, h13⟩ := id hr
  have hw : (BitVec.ofNat 32 (2 ^ 31 + 2 ^ 28 * (unitSlot (coreKind p) u % 8) + 2 ^ 25 * g.val + 2 ^ 12 * src.toNat + 0x900 + code)) =
      sylWord (unitSlot (coreKind p) u) g src (0x900 + code) := by unfold sylWord; congr 1; omega
  have hill := illegalCode_one (k := coreKind p) (g := g) (src := src) hle (show 0x900 + code < 4096 by omega) (by omega) hop (fun i hi => (hs.1 i hi).1)
    (fun e => by omega)
  have hmv := moveOf_sylWord (unitSlot (coreKind p) u) g src (0x900 + code) h8 (by omega)
  have himp : impreciseDue (s.core p) = false := by simp [impreciseDue, h3]
  unfold runUnitOp
  rw [if_pos ⟨h1, h2⟩, himp, if_neg (by simp), if_neg (by omega)]
  simp only [hw]
  rw [hill, hmv]
  simp only [Option.isSome_none, Bool.false_eq_true, if_false]
  rw [hs.2]
  refine runBundle_plain hr ?_ hop hp rfl ?_
  · intro e; exact (hs.1 _ e).2 rfl
  · have hg' : guardHolds (s.core p).g g.val = true := hg
    simp [execMoves, hg']

/-- Whether an operation is a product of MUL (03 R58). -/
def isProduct : UnitOp → Bool
  | .mul .mul => true | .mul .mulh => true | .mul .mulhu => true
  | _ => false

theorem productStep_one {k : CoreKind} {m : Move} {op : UnitOp} (ht : trigOf k m = some op) (c o : Core) :
    productStep c k [m] o = if isProduct op then { c with prodAge := 0, prodP1 := nextP1 o } else { c with prodAge := min 2 (o.prodAge + 1) } := by
  unfold productStep
  simp only [List.any_cons, List.any_nil, ht, Bool.or_false]
  cases op <;> try rfl
  next op => cases op <;> rfl

theorem runsOn_unit {i : Instr} {s : State} {p : Fin 6} {f : Core → Core} {c : Core} (h : exec i s = .next (countBundle (s.upCore p f) p))
    (hf : f (s.core p) = c) : RunsOn i s p c := by
  refine ⟨_, h, ?_, ?_, ?_, ?_⟩
  · unfold countBundle; split
    · exact (core_upCore_self s p f).trans hf
    · exact (core_upCore_self s p f).trans hf
  · intro q hq
    have : (s.upCore p f).core q = s.core q := by rw [core_upCore]; simp [hq]
    unfold countBundle; split <;> exact this
  · unfold countBundle; split <;> rfl
  · unfold countBundle; split <;> rfl

/-- What a command that is one plain operation does: its results are in flight, one cycle past. -/
theorem runsOn_plain {i : Instr} {s : State} {p : Fin 6} {u : FU} {code : Nat} {g : Fin 8} {src : BitVec 13} {v : Word} {op : UnitOp} {c : Core}
    (hr : CoreReady s p) (hs : SrcReads s p src v) (hg : GuardHolds s p g)
    (hd : unitSlot (coreKind p) u ≤ topSlot (coreKind p) ∧ destOf (coreKind p) (unitSlot (coreKind p) u) (0x900 + code) = .inr (.trig op) ∧ code < 0xFF)
    (he : exec i s = .next (runUnitOp s p u code g src none)) (hp : plainOp op = true)
    (hc : tickCore (if isProduct op then { s.core p with fly := unitFlights (s.core p) op v [] [] 0 0, pc := (s.core p).pc + 4, prodAge := 0, prodP1 := nextP1 (s.core p) }
      else { s.core p with fly := unitFlights (s.core p) op v [] [] 0 0, pc := (s.core p).pc + 4, prodAge := min 2 ((s.core p).prodAge + 1) }) = c) :
    RunsOn i s p c := by
  rw [runUnitOp_plain hr hs hg hd.1 hd.2.1 hd.2.2 hp] at he
  refine runsOn_unit he ?_
  rw [← hc]
  unfold plainDone
  rw [productStep_one (trigOf_dest hd.2.1)]

/-- The core after a bundle of one CU operation, but for its control effect. -/
def cuDone (k : CoreKind) (m : Move) (op : CuOp) (v link lit : Word) (len : Nat) (c : Core) : Core :=
  tickCore (productStep { c with fly := unitFlights c (.cu op) v [] [] link lit, pc := c.pc + BitVec.ofNat 32 len } k [m] c)

theorem cuDone_eq {k : CoreKind} {m : Move} {op : CuOp} {v link lit : Word} {len : Nat} {c : Core} (ht : trigOf k m = some (.cu op)) :
    cuDone k m op v link lit len c = tickCore { c with fly := unitFlights c (.cu op) v [] [] link lit, pc := c.pc + BitVec.ofNat 32 len, prodAge := min 2 (c.prodAge + 1) } := by
  unfold cuDone
  rw [productStep_one ht]
  rfl

theorem bundleEnd_cu {c : Core} {k : CoreKind} {m : Move} {op : CuOp} {v : Word} {b : Bundle} {n : Nat}
    (ht : trigOf k m = some (.cu op)) (hx : c.xfer = none) (hf : c.fly = []) (hg : c.got = []) (hfl : c.flines = [])
    (hs : c.stall = none) (hloop : ¬ (pstatBit c PSTAT.lact = true ∧ c.pc = c.lend)) :
    bundleEnd c c k [(m, v)] [] [] n b =
      cuEffect (cuDone k m op v (c.pc + BitVec.ofNat 32 b.len + BitVec.ofNat 32 n) (b.lit.getD 0) b.len c) op c.pc (c.pc + BitVec.ofNat 32 b.len) v n := by
  have hnew : ∀ w l, newFlights k c [(m, v)] [] [] w l = unitFlights c (.cu op) v [] [] w l := by
    intro w l
    simp only [newFlights, List.flatMap_cons, List.flatMap_nil, List.append_nil, ht]
  have hcu : cuTrig k [(m, v)] = some (op, v) := by simp only [cuTrig, List.findSome?_cons, ht]
  have hc2 : ∀ (fl : List Flight) (q : Word), ({ c with fly := fl, pc := q, stall := none, got := [], flines := [], resv := gotResv c.got c.resv } : Core) =
      { c with fly := fl, pc := q } := by
    intro fl q; cases c; simp_all [gotResv]
  have hloop2 : ∀ d : Core, d.pstat = c.pstat → d.lend = c.lend → loopEnd d c.pc = d := by
    intro d h1 h2
    unfold loopEnd
    rw [if_neg]
    simpa only [pstatBit, h1, h2] using hloop
  unfold bundleEnd cuDone
  simp only [hnew, hf, List.filter_nil, ite_self, List.nil_append, List.map_cons, List.map_nil, List.foldl_cons, List.foldl_nil, hcu, applyMove_trig ht, hc2]
  set d := tickCore (productStep { c with fly := unitFlights c (.cu op) v [] [] (c.pc + BitVec.ofNat 32 b.len + BitVec.ofNat 32 n) (b.lit.getD 0), pc := c.pc + BitVec.ofNat 32 b.len } k [m] c) with hd
  have h1 : d.pstat = c.pstat := by rw [hd, (tickCore_pc _).2.1, (productStep_pc _ _ _ _).2.1]
  have h2 : d.lend = c.lend := by rw [hd, (tickCore_pc _).2.2.1, (productStep_pc _ _ _ _).2.2.1]
  rw [hx]
  cases op <;> simp only <;> rw [hloop2 d h1 h2]

/-- The end of a bundle of one CU operation that is neither a wait nor a trap. -/
theorem commit_cu {s : State} {p : Fin 6} {b : Bundle} {m : Move} {op : CuOp} {n : Nat} {v : Word} (hr : CoreReady s p) (hm : m.src ≠ .sock 0x210)
    (ht : trigOf (coreKind p) m = some (.cu op)) (hv : srcVal s p (cycleWord (s.core p)) m.src = v) (hw : op ≠ .wfe) (htr : op ≠ .trap)
    (c : Core) (hc : cuEffect (cuDone (coreKind p) m op v ((s.core p).pc + BitVec.ofNat 32 b.len + BitVec.ofNat 32 n) (b.lit.getD 0) b.len (s.core p)) op
        (s.core p).pc ((s.core p).pc + BitVec.ofNat 32 b.len) v n = c) (hal : c.pc.toNat % 4 = 0) (hrun : c.run = (s.core p).run) :
    commitBundle s p b [m] [] n = countBundle (s.upCore p (fun _ => c)) p := by
  obtain ⟨h1, h2, h3, h4, h5, h6, h7, h8, h9, h10, h11, h12, h13⟩ := hr
  have hcyc : readCycle s p [m] = (cycleWord (s.core p), s) := readCycle_plain (by simpa using hm)
  have hq : quTrig (coreKind p) [(m, v)] = none := by simp only [quTrig, List.findSome?_cons, ht, List.findSome?_nil]
  have hcu : cuTrig (coreKind p) [(m, v)] = some (op, v) := by simp only [cuTrig, List.findSome?_cons, ht]
  unfold commitBundle
  simp only [hcyc, List.map_cons, List.map_nil, hv, quStep, hq, hcu]
  have hb : (s.upCore p (fun d => bundleEnd (s.core p) d (coreKind p) [(m, v)] [] [] n b)) = s.upCore p (fun _ => c) := by
    simp only [State.upCore]
    rw [bundleEnd_cu ht h4 h5 h6 h7 h2 h9, hc]
  have hmw : ((some (op, v)).map (fun x : CuOp × Word => x.1) = some CuOp.wfe) = False := by simp [hw]
  simp only [hmw, if_false]
  rw [hb]
  have hruns : ∀ q, ((s.upCore p (fun _ => c)).core q).run = (s.core q).run := by
    intro q
    rw [core_upCore]
    split
    · next h => subst h; exact hrun
    · rfl
  have hab : ∀ t : State, t.core p = c → afterBundle t p (some (op, v)) = t := by
    intro t h
    have h2 : (t.core p).pc.toNat % 4 = 0 := by rw [h]; exact hal
    unfold afterBundle; simp only [h2, ne_eq, not_true_eq_false, if_false]; cases op <;> first | rfl | contradiction
  have hun : ∀ t : State, t.regs = s.regs → (∀ q, (t.core q).run = (s.core q).run) → Unwatched t := by
    intro t ht hq q
    refine ⟨?_, by rw [hq]; exact (h13 q).2⟩
    have := (h13 q).1
    simpa [State.bit, State.rd, ht] using this
  unfold countBundle
  split
  · rw [hab (State.upPair (s.upCore p (fun _ => c)) (fun l => { l with bundles := l.bundles + 1 })) (core_upCore_self s p (fun _ => c))]
    have hl2 : logsFill (State.upPair (s.upCore p (fun _ => c)) (fun l => { l with bundles := l.bundles + 1 })).pair = false := h10
    simp only [hl2, Bool.and_false, Bool.false_and, State.when, Bool.false_eq_true, if_false]
    exact dbgApply_unwatched (hun _ rfl hruns)
  · rw [hab _ (core_upCore_self s p (fun _ => c))]
    have hl2 : logsFill (s.upCore p (fun _ => c)).pair = false := h10
    simp only [hl2, Bool.and_false, Bool.false_and, State.when, Bool.false_eq_true, if_false]
    exact dbgApply_unwatched (hun _ rfl hruns)

/-- A bundle of one CU operation, neither a wait nor a trap, reaches its end. -/
theorem runBundle_cu {s : State} {p : Fin 6} {b : Bundle} {m : Move} {op : CuOp} {n : Nat} (hr : CoreReady s p)
    (hd : destOf (coreKind p) m.slot m.dst = .inr (.trig (.cu op))) (hw : op ≠ .wfe) (hpr : op = .eret → pstatBit (s.core p) PSTAT.priv = true)
    (hms : execMoves (s.core p) b = [m]) (hla : lookAhead s p b [m] = (.len n, s)) : runBundle s p b = commitBundle s p b [m] [] n := by
  have ht := trigOf_dest hd
  obtain ⟨h1, h2, h3, h4, h5, h6, h7, h8, h9, h10, h11, h12, h13⟩ := hr
  have hls : lsuOf (coreKind p) [m] = none := by simp only [lsuOf, List.findSome?_cons, ht, List.findSome?_nil]
  have hq : quOf (coreKind p) [m] = none := by simp only [quOf, List.findSome?_cons, ht, List.findSome?_nil]
  have hc : cuOf (coreKind p) [m] = some (op, m.src) := by simp only [cuOf, List.findSome?_cons, ht]
  have hnc : (!pstatBit (s.core p) PSTAT.priv && needsPriv (coreKind p) m) = false := by
    unfold needsPriv; rw [hd]
    by_cases he : op = .eret
    · simp [hpr he]
    · cases op <;> first | exact absurd rfl he | simp
  have hef : earlyFault s p [m] = none := by
    simp only [earlyFault, h4, Option.isSome_none, Bool.false_and, Bool.false_eq_true, if_false, List.find?_cons, hnc, List.find?_nil, hls]
  have hwe : waitsEvent (coreKind p) [m] = false := by
    simp only [waitsEvent, hq, hc, Bool.false_or]
    cases op <;> first | rfl | contradiction
  have hmul : mulIn (coreKind p) [m] = false := by
    simp only [mulIn, List.any_cons, List.any_nil, ht, Bool.or_false]
  have hes : earlyStall s p [m] = none := by
    simp [earlyStall, h5, hwe, hmul, deqWaits, hq]
  have hpo : s.bit FLT.INJCTRL 16 = false := h12
  unfold runBundle
  simp only [hms, hef, hes, hpo, Bool.and_false, Bool.false_and, Bool.false_eq_true, if_false, hla, hls]

theorem cu_dest (p : Fin 6) (op : CuOp) (h : op ≠ .wfe) : unitSlot (coreKind p) .cu ≤ topSlot (coreKind p) ∧
    destOf (coreKind p) (unitSlot (coreKind p) .cu) (0x900 + cuCode op) = .inr (.trig (.cu op)) ∧ cuCode op < 0x100 ∧ (cuCode op = 0xFF → op = .limm) := by
  cases op <;> first | contradiction | (fin_cases p <;> refine ⟨by decide, by decide, by decide, by decide⟩)

/-- A bundle of one CU operation, neither a wait nor a trap, as a command. -/
theorem exec_cu {s : State} {p : Fin 6} {g : Fin 8} {src : BitVec 13} {v : Word} {op : CuOp} {n : Nat} {lit : Option Word} {i : Instr}
    (hr : CoreReady s p) (hs : SrcReads s p src v) (hg : GuardHolds s p g) (hw : op ≠ .wfe) (htr : op ≠ .trap)
    (hpr : op = .eret → pstatBit (s.core p) PSTAT.priv = true) (hlim : op = .limm → src.toNat = 0x1000)
    (hla : ∀ m : Move, m.src = srcOf src.toNat → trigOf (coreKind p) m = some (.cu op) →
      lookAhead s p { moves := [m], lit := lit, len := if lit.isSome then 8 else 4 } [m] = (.len n, s))
    (he : exec i s = .next (runUnitOp s p .cu (cuCode op) g src lit))
    (c : Core) (hc : cuEffect (tickCore { s.core p with
        fly := unitFlights (s.core p) (.cu op) v [] [] ((s.core p).pc + BitVec.ofNat 32 (if lit.isSome then 8 else 4) + BitVec.ofNat 32 n) (lit.getD 0),
        pc := (s.core p).pc + BitVec.ofNat 32 (if lit.isSome then 8 else 4), prodAge := min 2 ((s.core p).prodAge + 1) }) op
        (s.core p).pc ((s.core p).pc + BitVec.ofNat 32 (if lit.isSome then 8 else 4)) v n = c)
    (hal : c.pc.toNat % 4 = 0) (hrun : c.run = (s.core p).run) :
    exec i s = .next (countBundle (s.upCore p (fun _ => c)) p) := by
  obtain ⟨d1, d2, d3, d4⟩ := cu_dest p op hw
  have h8 : unitSlot (coreKind p) .cu < 8 := lt_of_le_of_lt d1 (topSlot_lt _)
  obtain ⟨h1, h2, h3, h4, h5, h6, h7, h8', h9, h10, h11, h12, h13⟩ := id hr
  have hww : (BitVec.ofNat 32 (2 ^ 31 + 2 ^ 28 * (unitSlot (coreKind p) .cu % 8) + 2 ^ 25 * g.val + 2 ^ 12 * src.toNat + 0x900 + cuCode op)) =
      sylWord (unitSlot (coreKind p) .cu) g src (0x900 + cuCode op) := by unfold sylWord; congr 1; omega
  have hill := illegalCode_one (k := coreKind p) (g := g) (src := src) d1 (show 0x900 + cuCode op < 4096 by omega) (by omega) d2 (fun i hi => (hs.1 i hi).1)
    (fun e _ => hlim (d4 (by omega)))
  have hmv := moveOf_sylWord (unitSlot (coreKind p) .cu) g src (0x900 + cuCode op) h8 (by omega)
  have himp : impreciseDue (s.core p) = false := by simp [impreciseDue, h3]
  have key : runUnitOp s p .cu (cuCode op) g src lit = countBundle (s.upCore p (fun _ => c)) p := by
    unfold runUnitOp
    rw [if_pos ⟨h1, h2⟩, himp, if_neg (by simp), if_neg (by omega)]
    simp only [hww]
    rw [hill, hmv]
    simp only
    have hg' : guardHolds (s.core p).g g.val = true := hg
    rw [runBundle_cu (m := { guard := g.val, src := srcOf src.toNat, slot := unitSlot (coreKind p) .cu, dst := 0x900 + cuCode op }) hr d2 hw hpr (by simp [execMoves, hg'])
      (hla _ rfl (trigOf_dest d2))]
    refine commit_cu hr ?_ (trigOf_dest d2) hs.2.symm hw htr c ?_ hal hrun
    · intro e; exact (hs.1 _ e).2 rfl
    · rw [cuDone_eq (trigOf_dest d2)]
      exact hc
  rw [he, key]

theorem runUnitOp_cu {s : State} {p : Fin 6} {g : Fin 8} {src : BitVec 13} {v : Word} {op : CuOp} {n : Nat} {lit : Option Word} {i : Instr}
    (hr : CoreReady s p) (hs : SrcReads s p src v) (hg : GuardHolds s p g) (hw : op ≠ .wfe) (htr : op ≠ .trap)
    (hpr : op = .eret → pstatBit (s.core p) PSTAT.priv = true) (hlim : op = .limm → src.toNat = 0x1000)
    (hla : ∀ m : Move, m.src = srcOf src.toNat → trigOf (coreKind p) m = some (.cu op) →
      lookAhead s p { moves := [m], lit := lit, len := if lit.isSome then 8 else 4 } [m] = (.len n, s))
    (he : exec i s = .next (runUnitOp s p .cu (cuCode op) g src lit))
    (c : Core) (hc : cuEffect (tickCore { s.core p with
        fly := unitFlights (s.core p) (.cu op) v [] [] ((s.core p).pc + BitVec.ofNat 32 (if lit.isSome then 8 else 4) + BitVec.ofNat 32 n) (lit.getD 0),
        pc := (s.core p).pc + BitVec.ofNat 32 (if lit.isSome then 8 else 4), prodAge := min 2 ((s.core p).prodAge + 1) }) op
        (s.core p).pc ((s.core p).pc + BitVec.ofNat 32 (if lit.isSome then 8 else 4)) v n = c)
    (hal : c.pc.toNat % 4 = 0) (hrun : c.run = (s.core p).run) :
    RunsOn i s p c := runsOn_unit (exec_cu hr hs hg hw htr hpr hlim hla he c hc hal hrun) rfl

/-- A SRC field has 13 bits. -/
theorem srcBits_lt (x : SylSrc) : srcBits x < 0x2000 := by cases x <;> simp only [srcBits] <;> omega

/-- What each field of an encoded syllable reads. -/
theorem enc_toNat (b : Bool) (x : Syl) : (encodeSyl b x).toNat = 0x80000000 * natBit b + 0x10000000 * x.slot.val + 0x2000000 * x.guard.val + 0x1000 * srcBits x.src + x.dst.toNat := by
  have h1 := x.slot.isLt; have h2 := x.guard.isLt; have h3 := srcBits_lt x.src; have h4 := x.dst.isLt
  have h5 : natBit b ≤ 1 := by cases b <;> decide
  unfold encodeSyl
  rw [BitVec.toNat_ofNat, Nat.mod_eq_of_lt]; omega

theorem enc_slot (b : Bool) (x : Syl) : sylSlot (encodeSyl b x) = x.slot.val := by
  have h1 := x.slot.isLt; have h2 := x.guard.isLt; have h3 := srcBits_lt x.src; have h4 := x.dst.isLt
  unfold sylSlot bitsOf; rw [enc_toNat, Nat.shiftRight_eq_div_pow]
  have h5 : natBit b ≤ 1 := by cases b <;> decide
  norm_num; omega

theorem enc_guard (b : Bool) (x : Syl) : sylGuard (encodeSyl b x) = x.guard.val := by
  have h1 := x.slot.isLt; have h2 := x.guard.isLt; have h3 := srcBits_lt x.src; have h4 := x.dst.isLt
  unfold sylGuard bitsOf; rw [enc_toNat, Nat.shiftRight_eq_div_pow]
  norm_num; omega

theorem enc_src (b : Bool) (x : Syl) : sylSrc (encodeSyl b x) = srcBits x.src := by
  have h1 := x.slot.isLt; have h2 := x.guard.isLt; have h3 := srcBits_lt x.src; have h4 := x.dst.isLt
  unfold sylSrc bitsOf; rw [enc_toNat, Nat.shiftRight_eq_div_pow]
  norm_num; omega

theorem enc_dst (b : Bool) (x : Syl) : sylDst (encodeSyl b x) = x.dst.toNat := by
  have h1 := x.slot.isLt; have h2 := x.guard.isLt; have h3 := srcBits_lt x.src; have h4 := x.dst.isLt
  unfold sylDst bitsOf; rw [enc_toNat, Nat.shiftRight_eq_div_pow]
  norm_num; omega

theorem enc_stop (b : Bool) (x : Syl) : sylStop (encodeSyl b x) = b := by
  have h1 := x.slot.isLt; have h2 := x.guard.isLt; have h3 := srcBits_lt x.src; have h4 := x.dst.isLt
  unfold sylStop testB; rw [enc_toNat]
  cases b <;> simp only [natBit] <;> simp [Nat.shiftRight_eq_div_pow] <;> omega

theorem enc_move (b : Bool) (x : Syl) : moveOf (encodeSyl b x) = sylMove x := by
  unfold moveOf sylMove
  rw [enc_slot, enc_guard, enc_src, enc_dst]
  congr 1
  unfold srcOf
  cases x.src with
  | socket id =>
    have := id.isLt
    have h : testB (srcBits (.socket id)) 12 = false := by unfold testB srcBits; simp [Nat.shiftRight_eq_div_pow]; omega
    rw [h]; simp only [Bool.false_eq_true, if_false, srcBits]; congr 1; omega
  | imm v =>
    have := v.isLt
    have h : testB (srcBits (.imm v)) 12 = true := by unfold testB srcBits; simp [Nat.shiftRight_eq_div_pow]; omega
    rw [h]; simp only [if_true, srcBits]; congr 1
    rw [sextW]; congr 1
    unfold sint
    rw [BitVec.toInt_eq_toNat_cond]
    have e : (4096 + v.toNat) % 2 ^ 12 = v.toNat := by omega
    rw [e]
    norm_num
    split_ifs <;> omega

end Sys2Proof.Machine
end

