-- ==== Sys2Proof/Laws/Units.lean ====
section
/-! SUPPORT. What a unit-operation command does to its core, one lemma per unit and per kind of memory access. -/
namespace Sys2Proof.Machine
open Sys2Proof.Reg Sys2Proof.Safety


theorem unitFlights_link {op : UnitOp} (h : ∀ o, op ≠ .cu o) (c : Core) (v : Word) (a b : List Flight) (l w : Word) :
    unitFlights c op v a b l w = unitFlights c op v a b 0 0 := by
  cases op <;> first | rfl | exact absurd rfl (h _)

/-- The QU operation of a unit operation. -/
def unitQu : UnitOp → Option QuOp
  | .qu o => some o
  | _ => none

theorem bundleEnd_unit {c0 c : Core} {k : CoreKind} {m : Move} {op : UnitOp} {v : Word} {b : Bundle} {lsu qu : List Flight} {n : Nat}
    (ht : trigOf k m = some op) (hcu : ∀ o, op ≠ .cu o) (hprod : isProduct op = false) (hl : b.len = 4) (hx : c0.xfer = none) (hf : c.fly = [])
    (hfl : c.flines = []) (hs : c.stall = none) (hp : c.pstat = c0.pstat) (he : c.lend = c0.lend)
    (hloop : ¬ (pstatBit c0 PSTAT.lact = true ∧ c0.pc = c0.lend)) :
    bundleEnd c0 c k [(m, v)] lsu qu n b =
      tickCore { c with
        fly := unitFlights c0 op v lsu qu 0 0, pc := c0.pc + 4, prodAge := min 2 (c0.prodAge + 1), got := [], resv := gotResv c.got c.resv } := by
  have hnew : ∀ w l, newFlights k c0 [(m, v)] lsu qu w l = unitFlights c0 op v lsu qu 0 0 := by
    intro w l
    simp only [newFlights, List.flatMap_cons, List.flatMap_nil, List.append_nil, ht]
    exact unitFlights_link hcu c0 v lsu qu w l
  have hcut : cuTrig k [(m, v)] = none := by
    simp only [cuTrig, List.findSome?_cons, ht, List.findSome?_nil]
    cases op <;> first | rfl | exact absurd rfl (hcu _)
  have hc2 : ({ c with fly := unitFlights c0 op v lsu qu 0 0, pc := c0.pc + 4, stall := none, got := [], flines := [], resv := gotResv c.got c.resv } : Core) =
      { c with fly := unitFlights c0 op v lsu qu 0 0, pc := c0.pc + 4, got := [], resv := gotResv c.got c.resv } := by
    cases c; simp_all
  unfold bundleEnd
  simp only [hnew, hf, List.filter_nil, ite_self, List.nil_append, List.map_cons, List.map_nil, List.foldl_cons, List.foldl_nil, hl, hcut, applyMove_trig ht]
  rw [hx]
  simp only
  rw [show BitVec.ofNat 32 4 = (4 : Word) from rfl, hc2, productStep_one ht]
  simp only [hprod, Bool.false_eq_true, if_false]
  unfold loopEnd
  rw [if_neg]
  obtain ⟨-, h2, h3, -⟩ := tickCore_pc { c with fly := unitFlights c0 op v lsu qu 0 0, pc := c0.pc + 4, prodAge := min 2 (c0.prodAge + 1), got := [], resv := gotResv c.got c.resv }
  unfold pstatBit at hloop ⊢
  rw [h2, h3]
  simp only [hp, he]
  exact hloop

/-- The end of a bundle of one operation that is no product and none of the CU, with the QU step done in `s2`. -/
theorem commit_unit {s s2 : State} {p : Fin 6} {b : Bundle} {m : Move} {op : UnitOp} {v : Word} {lsu qf : List Flight} {n : Nat}
    (hm : m.src ≠ .sock 0x210) (ht : trigOf (coreKind p) m = some op) (hcu : ∀ o, op ≠ .cu o) (hprod : isProduct op = false)
    (hv : srcVal s p (cycleWord (s.core p)) m.src = v) (hl : b.len = 4)
    (hx : (s.core p).xfer = none) (hloop : ¬ (pstatBit (s.core p) PSTAT.lact = true ∧ (s.core p).pc = (s.core p).lend))
    (hpc : (s.core p).pc.toNat % 4 = 0)
    (hq : quStep s p ((unitQu op).map (fun o => (o, v))) = (qf, s2))
    (hf : (s2.core p).fly = []) (hfl : (s2.core p).flines = []) (hs : (s2.core p).stall = none)
    (hp : (s2.core p).pstat = (s.core p).pstat) (he : (s2.core p).lend = (s.core p).lend)
    (hlog : logsFill s2.pair = false) (hun : Unwatched s2) :
    commitBundle s p b [m] lsu n = countBundle (s2.upCore p (fun c => tickCore { c with
      fly := unitFlights (s.core p) op v lsu qf 0 0, pc := (s.core p).pc + 4, prodAge := min 2 ((s.core p).prodAge + 1), got := [], resv := gotResv c.got c.resv })) p := by
  have hcyc : readCycle s p [m] = (cycleWord (s.core p), s) := readCycle_plain (by simpa using hm)
  have hal : ((s.core p).pc + 4).toNat % 4 = 0 := by
    have := (s.core p).pc.isLt
    have h4 : (4 : Word).toNat = 4 := rfl
    rw [BitVec.toNat_add, h4]
    omega
  have hcut : cuTrig (coreKind p) [(m, v)] = none := by
    simp only [cuTrig, List.findSome?_cons, ht, List.findSome?_nil]
    cases op <;> first | rfl | exact absurd rfl (hcu _)
  have hqt : quTrig (coreKind p) [(m, v)] = (unitQu op).map (fun o => (o, v)) := by
    simp only [quTrig, List.findSome?_cons, ht, List.findSome?_nil]
    cases op <;> rfl
  unfold commitBundle
  simp only [hcyc, List.map_cons, List.map_nil, hv, hcut, hqt, Option.map_none, reduceCtorEq, if_false]
  rw [hq]
  simp only
  set F : Core → Core := fun c => tickCore { c with
      fly := unitFlights (s.core p) op v lsu qf 0 0, pc := (s.core p).pc + 4, prodAge := min 2 ((s.core p).prodAge + 1), got := [], resv := gotResv c.got c.resv } with hF
  have hb : s2.upCore p (fun c => bundleEnd (s.core p) c (coreKind p) [(m, v)] lsu qf n b) = s2.upCore p F := by
    simp only [State.upCore]
    rw [bundleEnd_unit ht hcu hprod hl hx hf hfl hs hp he hloop]
  rw [hb]
  have hrun : ∀ q, ((s2.upCore p F).core q).run = (s2.core q).run := by
    intro q
    rw [core_upCore]
    split
    · next h => subst h; rw [hF]; simp only; rw [(tickCore_pc _).2.2.2.1]
    · rfl
  have hpc2 : ((s2.upCore p F).core p).pc.toNat % 4 = 0 := by
    rw [core_upCore_self, hF]; simp only; rw [(tickCore_pc _).1]; exact hal
  have hab : ∀ t : State, (t.core p).pc.toNat % 4 = 0 → afterBundle t p none = t := by
    intro t ht; simp [afterBundle, ht]
  have hun2 : ∀ t : State, t.regs = s2.regs → (∀ q, (t.core q).run = (s2.core q).run) → Unwatched t := by
    intro t ht hq q
    refine ⟨?_, by rw [hq]; exact (hun q).2⟩
    have := (hun q).1
    simpa [State.bit, State.rd, ht] using this
  unfold countBundle
  split
  · rw [hab (State.upPair (s2.upCore p F) (fun l => { l with bundles := l.bundles + 1 })) hpc2]
    have hl2 : logsFill (State.upPair (s2.upCore p F) (fun l => { l with bundles := l.bundles + 1 })).pair = false := hlog
    simp only [hl2, Bool.and_false, Bool.false_and, State.when, Bool.false_eq_true, if_false]
    exact dbgApply_unwatched (hun2 _ rfl hrun)
  · rw [hab _ hpc2]
    have hl2 : logsFill (s2.upCore p F).pair = false := hlog
    simp only [hl2, Bool.and_false, Bool.false_and, State.when, Bool.false_eq_true, if_false]
    exact dbgApply_unwatched (hun2 _ rfl hrun)

theorem lsu_dest (p : Fin 6) (op : LsuOp) : unitSlot (coreKind p) .lsu ≤ topSlot (coreKind p) ∧
    destOf (coreKind p) (unitSlot (coreKind p) .lsu) (0x900 + lsuCode op) = .inr (.trig (.lsu op)) ∧ lsuCode op < 0xFF := by
  cases op <;> (fin_cases p <;> refine ⟨by decide, by decide, by decide⟩)

/-- A bundle of one LSU operation, aligned, reaches its access. -/
theorem runUnitOp_lsu {s s1 : State} {p : Fin 6} {g : Fin 8} {src : BitVec 13} {v : Word} {op : LsuOp} {fl : List Flight} {i : Instr}
    (hr : CoreReady s p) (hs : SrcReads s p src v) (hg : GuardHolds s p g)
    (hal : op ≠ .fence → v.toNat % lsuSize op = 0)
    (hacc : if op = .fence then lsuFence s p = .done [] ∧ fl = [] ∧ s1 = s else lsuAccess s p op v.toNat (s.core p).opr[3] [] = (.done fl, s1))
    (hsrc : srcVal s1 p (cycleWord (s1.core p)) (srcOf src.toNat) = v)
    (hx : (s1.core p).xfer = none) (hloop : ¬ (pstatBit (s1.core p) PSTAT.lact = true ∧ (s1.core p).pc = (s1.core p).lend))
    (hpc : (s1.core p).pc.toNat % 4 = 0)
    (hf : (s1.core p).fly = []) (hfl : (s1.core p).flines = []) (hst : (s1.core p).stall = none)
    (hlog : logsFill s1.pair = false) (hun : Unwatched s1)
    (he : exec i s = .next (runUnitOp s p .lsu (lsuCode op) g src none)) :
    exec i s = .next (countBundle (s1.upCore p (fun c => tickCore { c with
      fly := fl, pc := (s1.core p).pc + 4, prodAge := min 2 ((s1.core p).prodAge + 1), got := [], resv := gotResv c.got c.resv })) p) := by
  obtain ⟨d1, d2, d3⟩ := lsu_dest p op
  have h8 : unitSlot (coreKind p) .lsu < 8 := lt_of_le_of_lt d1 (topSlot_lt _)
  obtain ⟨h1, h2, h3, h4, h5, h6, h7, h8', h9, h10, h11, h12, h13⟩ := id hr
  have hww : (BitVec.ofNat 32 (2 ^ 31 + 2 ^ 28 * (unitSlot (coreKind p) .lsu % 8) + 2 ^ 25 * g.val + 2 ^ 12 * src.toNat + 0x900 + lsuCode op)) =
      sylWord (unitSlot (coreKind p) .lsu) g src (0x900 + lsuCode op) := by unfold sylWord; congr 1; omega
  have hill := illegalCode_one (k := coreKind p) (g := g) (src := src) d1 (show 0x900 + lsuCode op < 4096 by omega) (by omega) d2 (fun i hi => (hs.1 i hi).1)
    (fun e _ => by omega)
  have hmv := moveOf_sylWord (unitSlot (coreKind p) .lsu) g src (0x900 + lsuCode op) h8 (by omega)
  have himp : impreciseDue (s.core p) = false := by simp [impreciseDue, h3]
  rw [he]
  congr 1
  unfold runUnitOp
  rw [if_pos ⟨h1, h2⟩, himp, if_neg (by simp), if_neg (by omega)]
  simp only [hww]
  rw [hill, hmv]
  simp only
  set m : Move := { guard := g.val, src := srcOf src.toNat, slot := unitSlot (coreKind p) .lsu, dst := 0x900 + lsuCode op } with hm
  have ht : trigOf (coreKind p) m = some (.lsu op) := trigOf_dest d2
  have hg' : guardHolds (s.core p).g g.val = true := hg
  have hms : execMoves (s.core p) { moves := [m], lit := none, len := 4 } = [m] := by simp [execMoves, hm, hg']
  have hls : lsuOf (coreKind p) [m] = some (op, m.src) := by simp only [lsuOf, List.findSome?_cons, ht]
  have hq : quOf (coreKind p) [m] = none := by simp only [quOf, List.findSome?_cons, ht, List.findSome?_nil]
  have hc : cuOf (coreKind p) [m] = none := by simp only [cuOf, List.findSome?_cons, ht, List.findSome?_nil]
  have hnc : needsPriv (coreKind p) m = false := by unfold needsPriv; rw [show destOf (coreKind p) m.slot m.dst = .inr (.trig (.lsu op)) from d2]
  have hva : srcVal s p (cycleWord (s.core p)) m.src = v := hs.2.symm
  have hef : earlyFault s p [m] = none := by
    simp only [earlyFault, h4, Option.isSome_none, Bool.false_and, Bool.false_eq_true, if_false, List.find?_cons, hnc, Bool.and_false, List.find?_nil, hls, hva]
    rw [if_neg]
    rintro ⟨a, b⟩
    exact b (hal a)
  have hmul : mulIn (coreKind p) [m] = false := by simp only [mulIn, List.any_cons, List.any_nil, ht, Bool.or_false]
  have hes : earlyStall s p [m] = none := by simp [earlyStall, h5, hmul, waitsEvent, hq, hc, deqWaits]
  have hpo : s.bit FLT.INJCTRL 16 = false := h12
  have hla : lookAhead s p { moves := [m], lit := none, len := 4 } [m] = (.len 0, s) := by simp [lookAhead, hc]
  have hmsrc : m.src ≠ .sock 0x210 := fun e => (hs.1 _ e).2 rfl
  have hcom : commitBundle s1 p { moves := [m], lit := none, len := 4 } [m] fl 0 = countBundle (s1.upCore p (fun c => tickCore { c with
      fly := fl, pc := (s1.core p).pc + 4, prodAge := min 2 ((s1.core p).prodAge + 1), got := [], resv := gotResv c.got c.resv })) p :=
    commit_unit hmsrc ht (by simp) rfl hsrc rfl hx hloop hpc rfl hf hfl hst rfl rfl hlog hun
  unfold runBundle
  simp only [Option.isSome_none, Bool.false_eq_true, if_false, hms, hef, hes, hpo, Bool.and_false, Bool.false_and, hla, hls]
  by_cases hfe : op = .fence
  · subst hfe
    simp only [if_true] at hacc
    obtain ⟨ha, hb, hc⟩ := hacc
    subst hc; subst hb
    simp only [ha]
    exact hcom
  · rw [if_neg hfe] at hacc
    cases op <;> first | exact absurd rfl hfe | (simp only [hva, h6, hacc]; exact hcom)

theorem runsOn_unitOld {i : Instr} {s : State} {p : Fin 6} {f : Core → Core} {c : Core} (h : exec i s = .next (countBundle (s.upCore p f) p)) (hf : f (s.core p) = c) :
    RunsOn i s p c := by
  refine ⟨_, h, ?_, ?_, ?_, ?_⟩
  · unfold countBundle; split
    · exact (core_upCore_self s p f).trans hf
    · exact (core_upCore_self s p f).trans hf
  · intro q hq
    have : (s.upCore p f).core q = s.core q := by rw [core_upCore]; simp [hq]
    unfold countBundle; split <;> exact this
  · unfold countBundle; split <;> rfl
  · unfold countBundle; split <;> rfl

/-- The core after a bundle of one plain operation with a result of one cycle. -/
theorem plainDone_one {k : CoreKind} {m : Move} {op : UnitOp} {v : Word} {c : Core} {i : Nat} {r : Word} (hf : c.fly = [])
    (ht : trigOf k m = some op) (hu : unitFlights c op v [] [] 0 0 = [{ left := 1, writes := [(i, r)] }]) (hm : ∀ o, op ≠ .mul o) :
    plainDone k m op v c = { oneOn c with res := c.res.setIfInBounds i r } := by
  have hps : ∀ d : Core, productStep d k [m] c = { d with prodAge := min 2 (c.prodAge + 1) } := by
    intro d
    have : (List.any [m] fun m => match trigOf k m with
        | some (.mul op) => op == .mul || op == .mulh || op == .mulhu
        | _ => false) = false := by
      simp only [List.any_cons, List.any_nil, ht, Bool.or_false]
      cases op <;> first | rfl | exact absurd rfl (hm _)
    unfold productStep
    first | (rw [this]; rfl) | (simp only [List.any_cons, List.any_nil, ht, Bool.or_false]; cases op <;> first | rfl | exact absurd rfl (hm _))
  unfold plainDone
  rw [hu, hps]
  simp [tickCore, landFlight, oneOn, hf]

theorem sext_eq (n : Nat) (v : Word) (h1 : 0 < n) (h2 : n < 32) : sextW n v.toNat = (v.setWidth n).signExtend 32 := by
  apply BitVec.eq_of_toInt_eq
  rw [sextW]
  have hn : (2:Int) ^ n = ((2 ^ n : Nat) : Int) := by norm_num
  have hb : 2 ^ n ≤ 2 ^ 31 := Nat.pow_le_pow_right (by decide) (by omega)
  have hp : 2 ^ n = 2 * 2 ^ (n - 1) := by rw [← Nat.pow_succ']; congr 1; omega
  rw [BitVec.toInt_signExtend_of_le (by omega), BitVec.toInt_ofInt]
  have hmod : v.toNat % 2 ^ n < 2 ^ n := Nat.mod_lt _ (Nat.two_pow_pos _)
  rw [BitVec.toInt_eq_toNat_cond, BitVec.toNat_setWidth]
  unfold sint
  have h31 : (2:Nat) ^ 31 = 2147483648 := by norm_num
  split_ifs with ha hb2 hb3 <;> (try omega)
  · rw [Int.bmod_eq_of_le] <;> simp <;> omega
  · rw [Int.bmod_eq_of_le] <;> simp <;> omega

theorem zext_eq8 (v : Word) : v &&& 0xFF = (v.setWidth 8).setWidth 32 := by
  apply BitVec.eq_of_toNat_eq
  have h := Nat.and_two_pow_sub_one_eq_mod v.toNat 8
  rw [BitVec.toNat_and, BitVec.toNat_setWidth, BitVec.toNat_setWidth, show BitVec.toNat (0xFF : Word) = 2 ^ 8 - 1 from rfl, h]
  omega

theorem zext_eq16 (v : Word) : v &&& 0xFFFF = (v.setWidth 16).setWidth 32 := by
  apply BitVec.eq_of_toNat_eq
  have h := Nat.and_two_pow_sub_one_eq_mod v.toNat 16
  rw [BitVec.toNat_and, BitVec.toNat_setWidth, BitVec.toNat_setWidth, show BitVec.toNat (0xFFFF : Word) = 2 ^ 16 - 1 from rfl, h]
  omega

theorem shf_dest (p : Fin 6) (h : p.val < 5) (a : ShfOp) : unitSlot (coreKind p) .shf ≤ topSlot (coreKind p) ∧
    destOf (coreKind p) (unitSlot (coreKind p) .shf) (0x900 + shfCode a) = .inr (.trig (.shf a)) ∧ shfCode a < 0xFF := by
  cases a <;> fin_cases p <;> first | (refine ⟨by decide, by decide, by decide⟩) | exact absurd h (by decide)

theorem simd_dest (p : Fin 6) (h : p.val < 4) (a : SimdOp) : unitSlot (coreKind p) .simd ≤ topSlot (coreKind p) ∧
    destOf (coreKind p) (unitSlot (coreKind p) .simd) (0x900 + simdCode a) = .inr (.trig (.simd a)) ∧ simdCode a < 0xFF := by
  cases a <;> fin_cases p <;> first | (refine ⟨by decide, by decide, by decide⟩) | exact absurd h (by decide)

theorem mul_dest (p : Fin 6) (h : p.val < 5) (a : MulOp) : unitSlot (coreKind p) .mul ≤ topSlot (coreKind p) ∧
    destOf (coreKind p) (unitSlot (coreKind p) .mul) (0x900 + mulCode a) = .inr (.trig (.mul a)) ∧ mulCode a < 0xFF := by
  cases a <;> fin_cases p <;> first | (refine ⟨by decide, by decide, by decide⟩) | exact absurd h (by decide)

theorem accNow_idle {c : Core} (h : c.fly = []) : accNow c = BitVec.ofNat 64 (c.res[9].toNat + 2 ^ 32 * c.res[10].toNat) := by
  simp [accNow, h, List.getD_eq_getElem?_getD]

theorem tickCores_one (f : Flight) (hf : f.frame = none) (hq : f.qcode = none) : ∀ (n : Nat) (g : Flight) (c : Core), g = { f with left := n } → 0 < n → c.fly = [g] →
    tickCores n c = { c with
      fly := [], cycle := c.cycle + BitVec.ofNat 64 n,
      res := f.writes.foldl (fun (v : Vector Word 13) (w : Nat × Word) => v.setIfInBounds w.1 w.2) c.res, uflags := c.uflags ||| f.uflags } := by
  intro n
  induction n with
  | zero => intro g c _ h; omega
  | succ n ih =>
    intro g c hg h hc
    subst hg
    by_cases hn : n = 0
    · subst hn
      simp [tickCores, tickCore, hc, landFlight, hf, hq]
    · have h1 : tickCore c = { c with fly := [{ f with left := n }], cycle := c.cycle + 1 } := by
        have h2 : 1 < n + 1 := by omega
        have h3 : ¬ (n + 1 ≤ 1) := by omega
        simp only [tickCore, hc, List.filter_cons, h2, h3, decide_true, decide_false, if_true, Bool.false_eq_true, if_false, List.filter_nil, List.map_cons, List.map_nil,
          List.foldl_nil, Nat.add_sub_cancel]
      rw [tickCores, h1, ih { f with left := n } _ rfl (by omega) rfl]
      simp only [Core.mk.injEq, true_and, and_true]
      rw [BitVec.add_assoc]
      congr 1
      apply BitVec.eq_of_toNat_eq
      simp
      omega

theorem flyLeft_one {c : Core} {f : Flight} (h : c.fly = [f]) : flyLeft c (fun _ => true) = f.left := by
  simp [flyLeft, h]

theorem pc4 {c : Core} (h : c.pc.toNat % 4 = 0) (n : Nat) (hn : n % 4 = 0) (hl : n < 2 ^ 32) : (c.pc + BitVec.ofNat 32 n).toNat % 4 = 0 := by
  rw [BitVec.toNat_add, BitVec.toNat_ofNat]
  omega

theorem hl_none {s : State} {p : Fin 6} {src : BitVec 13} {op : CuOp} {lit : Option Word} (hop : op = .jmp ∨ op = .br ∨ op = .ret ∨ op = .eret ∨ op = .limm) :
    ∀ m : Move, m.src = srcOf src.toNat → trigOf (coreKind p) m = some (.cu op) →
      lookAhead s p { moves := [m], lit := lit, len := if lit.isSome then 8 else 4 } [m] = (.len 0, s) := by
  intro m _ ht
  have hc : cuOf (coreKind p) [m] = some (op, m.src) := by simp only [cuOf, List.findSome?_cons, ht]
  unfold lookAhead
  rw [hc]
  rcases hop with rfl|rfl|rfl|rfl|rfl <;> rfl

theorem hl_call {s : State} {p : Fin 6} {src : BitVec 13} {op : CuOp} (hop : op = .call ∨ op = .callr) {b1 b2 : Bundle}
    (h1 : decodeAt s p ((s.core p).pc + 4) = (.bundle b1, s)) (h2 : decodeAt s p ((s.core p).pc + 4 + BitVec.ofNat 32 b1.len) = (.bundle b2, s)) :
    ∀ m : Move, m.src = srcOf src.toNat → trigOf (coreKind p) m = some (.cu op) →
      lookAhead s p { moves := [m], lit := none, len := if (none : Option Word).isSome then 8 else 4 } [m] = (.len (b1.len + b2.len), s) := by
  intro m _ ht
  have hc : cuOf (coreKind p) [m] = some (op, m.src) := by simp only [cuOf, List.findSome?_cons, ht]
  have ha1 : aheadLen s p ((s.core p).pc + BitVec.ofNat 32 4) = (.len b1.len, s) := by
    unfold aheadLen; rw [show BitVec.ofNat 32 4 = (4 : Word) from rfl, h1]
  have ha2 : aheadLen s p ((s.core p).pc + BitVec.ofNat 32 4 + BitVec.ofNat 32 b1.len) = (.len b2.len, s) := by
    unfold aheadLen; rw [show BitVec.ofNat 32 4 = (4 : Word) from rfl, h2]
  unfold lookAhead
  rw [hc]
  rcases hop with rfl|rfl <;> simp only [Option.isSome_none, Bool.false_eq_true, if_false, ha1, ha2]

theorem cu_dest2 (p : Fin 6) (op : CuOp) (h : op = .wfe → p = 5) : unitSlot (coreKind p) .cu ≤ topSlot (coreKind p) ∧
    destOf (coreKind p) (unitSlot (coreKind p) .cu) (0x900 + cuCode op) = .inr (.trig (.cu op)) ∧ cuCode op < 0x100 ∧ (cuCode op = 0xFF → op = .limm) := by
  by_cases hw : op = .wfe
  · have := h hw; subst hw; subst this; refine ⟨by decide, by decide, by decide, by decide⟩
  · exact cu_dest p op hw

/-- A bundle of `trap` or, in the prompter with its latch set, of `wfe`, up to the end of its moves. -/
theorem run_cu_special {s : State} {p : Fin 6} {g : Fin 8} {src : BitVec 13} {v : Word} {op : CuOp} {i : Instr}
    (hr : CoreReady s p) (hs : SrcReads s p src v) (hg : GuardHolds s p g) (hop : op = .wfe ∧ p = 5 ∧ (s.core p).latch = true ∨ op = .trap)
    (he : exec i s = .next (runUnitOp s p .cu (cuCode op) g src none)) :
    let F : Core → Core := fun c => if op = .wfe then { oneOn c with latch := false } else oneOn c
    let s1 := countBundle (s.upCore p F) p
    exec i s = .next (let s2 := afterBundle s1 p (some (op, v)); dbgApply (s2.when (p.val == 4 && logsFill s2.pair && !s2.pair.replay && (s2.core 4).run == .running) pairCheckpoint)) := by
  intro F s1
  obtain ⟨d1, d2, d3, d4⟩ := cu_dest2 p op (by rintro rfl; rcases hop with ⟨-, h, -⟩ | h; exacts [h, absurd h (by simp)])
  have h8 : unitSlot (coreKind p) .cu < 8 := lt_of_le_of_lt d1 (topSlot_lt _)
  obtain ⟨h1, h2, h3, h4, h5, h6, h7, h8', h9, h10, h11, h12, h13⟩ := id hr
  have hww : (BitVec.ofNat 32 (2 ^ 31 + 2 ^ 28 * (unitSlot (coreKind p) .cu % 8) + 2 ^ 25 * g.val + 2 ^ 12 * src.toNat + 0x900 + cuCode op)) =
      sylWord (unitSlot (coreKind p) .cu) g src (0x900 + cuCode op) := by unfold sylWord; congr 1; omega
  have hlim : op ≠ .limm := by rintro rfl; rcases hop with ⟨h, -⟩ | h <;> simp at h
  have hill := illegalCode_one (k := coreKind p) (g := g) (src := src) d1 (show 0x900 + cuCode op < 4096 by omega) (by omega) d2 (fun i hi => (hs.1 i hi).1)
    (fun e _ => absurd (d4 (by omega)) hlim)
  have hmv := moveOf_sylWord (unitSlot (coreKind p) .cu) g src (0x900 + cuCode op) h8 (by omega)
  have himp : impreciseDue (s.core p) = false := by simp [impreciseDue, h3]
  rw [he]
  congr 1
  unfold runUnitOp
  rw [if_pos ⟨h1, h2⟩, himp, if_neg (by simp), if_neg (by omega)]
  simp only [hww]
  rw [hill, hmv]
  simp only
  set m : Move := { guard := g.val, src := srcOf src.toNat, slot := unitSlot (coreKind p) .cu, dst := 0x900 + cuCode op } with hm
  have hd : destOf (coreKind p) m.slot m.dst = .inr (.trig (.cu op)) := d2
  have ht : trigOf (coreKind p) m = some (.cu op) := trigOf_dest d2
  have hg' : guardHolds (s.core p).g g.val = true := hg
  have hms : execMoves (s.core p) { moves := [m], lit := none, len := 4 } = [m] := by simp [execMoves, hm, hg']
  have hls : lsuOf (coreKind p) [m] = none := by simp only [lsuOf, List.findSome?_cons, ht, List.findSome?_nil]
  have hq : quOf (coreKind p) [m] = none := by simp only [quOf, List.findSome?_cons, ht, List.findSome?_nil]
  have hc : cuOf (coreKind p) [m] = some (op, m.src) := by simp only [cuOf, List.findSome?_cons, ht]
  have hva : srcVal s p (cycleWord (s.core p)) m.src = v := hs.2.symm
  have hnc : (!pstatBit (s.core p) PSTAT.priv && needsPriv (coreKind p) m) = false := by
    unfold needsPriv; rw [hd]
    rcases hop with ⟨h, -⟩ | h <;> subst h <;> simp
  have hef : earlyFault s p [m] = none := by
    simp only [earlyFault, h4, Option.isSome_none, Bool.false_and, Bool.false_eq_true, if_false, List.find?_cons, hnc, List.find?_nil, hls]
  have hmul : mulIn (coreKind p) [m] = false := by simp only [mulIn, List.any_cons, List.any_nil, ht, Bool.or_false]
  have hes : earlyStall s p [m] = none := by
    have hwe : (waitsEvent (coreKind p) [m] && (wakeGot (s.core p).got).isNone && !(s.core p).latch) = false := by
      simp only [waitsEvent, hq, hc, Bool.false_or]
      rcases hop with ⟨h, -, hl⟩ | h <;> subst h
      · simp [hl]
      · simp
    simp only [earlyStall, h5, List.isEmpty_nil, Bool.not_true, Bool.and_false, Bool.false_eq_true, if_false, hmul, Bool.false_and, hwe, deqWaits, hq]
    simp
  have hpo : s.bit FLT.INJCTRL 16 = false := h12
  have hla : lookAhead s p { moves := [m], lit := none, len := 4 } [m] = (.len 0, s) := by
    unfold lookAhead; simp only [hc]; rcases hop with ⟨h, -⟩ | h <;> subst h <;> rfl
  have hmsrc : m.src ≠ .sock 0x210 := fun e => (hs.1 _ e).2 rfl
  unfold runBundle
  simp only [Option.isSome_none, Bool.false_eq_true, if_false, hms, hef, hes, hpo, Bool.and_false, Bool.false_and, hla, hls]
  have hcyc : readCycle s p [m] = (cycleWord (s.core p), s) := readCycle_plain (by simpa using hmsrc)
  have hqt : quTrig (coreKind p) [(m, v)] = none := by simp only [quTrig, List.findSome?_cons, ht, List.findSome?_nil]
  have hcu : cuTrig (coreKind p) [(m, v)] = some (op, v) := by simp only [cuTrig, List.findSome?_cons, ht]
  unfold commitBundle
  simp only [hcyc, List.map_cons, List.map_nil, hva, quStep, hqt, hcu, Option.map_some, Option.some.injEq]
  have hend : ∀ l, bundleEnd (s.core p) { s.core p with latch := l } (coreKind p) [(m, v)] [] [] 0 { moves := [m], lit := none, len := 4 } = { oneOn (s.core p) with latch := l } := by
    intro l
    have hnew : ∀ w l, newFlights (coreKind p) (s.core p) [(m, v)] [] [] w l = [] := by
      intro w l
      simp only [newFlights, List.flatMap_cons, List.flatMap_nil, List.append_nil, ht]
      rcases hop with ⟨h, -⟩ | h <;> subst h <;> rfl
    unfold bundleEnd
    simp only [hnew, h5, List.filter_nil, ite_self, List.nil_append, List.map_cons, List.map_nil, List.foldl_cons, List.foldl_nil, applyMove_trig ht, hcu, h4, productStep_one ht,
      h6, h7, h2, isProduct, Bool.false_eq_true, if_false, gotResv]
    have hle : ∀ d : Core, d.pstat = (s.core p).pstat → d.lend = (s.core p).lend → loopEnd d (s.core p).pc = d := by
      intro d e1 e2
      unfold loopEnd
      rw [if_neg]
      simpa only [pstatBit, e1, e2] using h9
    rcases hop with ⟨h, -⟩ | h <;> subst h <;> simp only
    · rw [hle _ ?_ ?_]
      · simp [cuEffect, tickCore, oneOn, h5, h4, h2, h6, h7]
      · rw [(tickCore_pc _).2.1]
      · rw [(tickCore_pc _).2.2.1]
    · rw [hle _ ?_ ?_]
      · simp [cuEffect, tickCore, oneOn, h5, h4, h2, h6, h7]
      · rw [(tickCore_pc _).2.1]
      · rw [(tickCore_pc _).2.2.1]
  have hs1 : ((if op = CuOp.wfe then clearLatch s p else s).upCore p fun c => bundleEnd (s.core p) c (coreKind p) [(m, v)] [] [] 0 { moves := [m], lit := none, len := 4 }) = s.upCore p F := by
    rcases hop with ⟨h, -⟩ | h
    · subst h
      have hcl : clearLatch s p = s.upCore p (fun c => { c with latch := false }) := by unfold clearLatch wakeGot; simp [h6]
      rw [if_pos rfl, hcl]
      simp only [State.upCore, F, if_true]
      have h1 : ∀ (a b : Core), (s.setCore p a).setCore p b = s.setCore p b := by intro a b; simp [State.setCore]
      have h2 : ∀ (a : Core), (s.setCore p a).core p = a := by intro a; rw [core_setCore]; simp
      rw [h2, h1, hend]
    · subst h
      simp only [reduceCtorEq, if_false, State.upCore, F]
      rw [show s.core p = { s.core p with latch := (s.core p).latch } from rfl, hend]
  rw [hs1]
  rfl

theorem unwatched_of {s t : State} (h : Unwatched s) (hr : t.regs = s.regs) (hc : ∀ q, (t.core q).run = (s.core q).run) : Unwatched t := by
  intro q
  refine ⟨?_, by rw [hc]; exact (h q).2⟩
  have := (h q).1
  simpa [State.bit, State.rd, hr] using this

theorem countBundle_facts (s : State) (p : Fin 6) : (countBundle s p).cores = s.cores ∧ (countBundle s p).regs = s.regs ∧ (countBundle s p).mem = s.mem := by
  unfold countBundle; split <;> exact ⟨rfl, rfl, rfl⟩

theorem countBundle_core (t : State) (p q : Fin 6) : (countBundle t p).core q = t.core q := by unfold State.core; rw [(countBundle_facts t p).1]

theorem countBundle_logs (t : State) (p : Fin 6) : logsFill (countBundle t p).pair = logsFill t.pair := by unfold countBundle; split <;> rfl

theorem readyDom {s : State} {p : Fin 6} (h : canRun s p = true) : s.dom (coreDom p) = .on := by
  simp only [canRun, Bool.and_eq_true, beq_iff_eq] at h; exact h.1.2

theorem tcm_target {p : Fin 6} (hp : p.val < 5) {o : Nat} (ho : o < 0x20000) : targetOf (0x11000000 + 0x100000 * p.val + o) = .tcm p.val := by
  unfold targetOf
  have h1 : ¬ (0x11000000 + 0x100000 * p.val + o < 0x20000) := by omega
  have h2 : ¬ (0x8000000 ≤ 0x11000000 + 0x100000 * p.val + o ∧ 0x11000000 + 0x100000 * p.val + o < 0x8400000) := by omega
  have h3 : ¬ (0xC000000 ≤ 0x11000000 + 0x100000 * p.val + o ∧ 0x11000000 + 0x100000 * p.val + o < 0xC080000) := by omega
  have h4 : (0x11000000 ≤ 0x11000000 + 0x100000 * p.val + o ∧ 0x11000000 + 0x100000 * p.val + o < 0x11500000) := by omega
  have h5 : (0x11000000 + 0x100000 * p.val + o) % 0x100000 < 0x20000 := by omega
  have h6 : (0x11000000 + 0x100000 * p.val + o - 0x11000000) / 0x100000 = p.val := by omega
  simp only [h1, h2, h3, h4, h5, h6, if_true, if_false, and_self]

theorem own_place {s : State} {p : Fin 6} {a o : Nat} {acc : Acc} (hp : p.val < 5) (h1 : a = 0x10000000 + o) (h2 : o < 0x20000) :
    placeOf s (coreInit p) a acc = (.at (0x11000000 + 0x100000 * p.val + o) none false, s) := by
  have hsc : isScene a = false := by unfold isScene; simp; omega
  have ht : targetOf a = .nothing := by
    unfold targetOf
    have e1 : ¬ (a < 0x20000) := by omega
    have e2 : ¬ (0x8000000 ≤ a ∧ a < 0x8400000) := by omega
    have e3 : ¬ (0xC000000 ≤ a ∧ a < 0xC080000) := by omega
    have e4 : ¬ (0x11000000 ≤ a ∧ a < 0x11500000) := by omega
    have e5 : ¬ (0x18000000 ≤ a ∧ a < 0x18018000) := by omega
    have e6 : ¬ (0x20000000 ≤ a ∧ a < 0x20200000) := by omega
    have e7 : ¬ (0x30000000 ≤ a ∧ a < 0x30041000) := by omega
    have e8 : ¬ (0x80000000 ≤ a ∧ a < 0x87000000) := by omega
    simp only [e1, e2, e3, e4, e5, e6, e7, e8, if_false]
  have hic : initCore (coreInit p) = some p := by fin_cases p <;> first | rfl | (exfalso; revert hp; decide)
  have hr : resolve s (coreInit p) a = 0x11000000 + 0x100000 * p.val + o := by
    unfold resolve
    rw [if_neg (by omega), if_pos ⟨by omega, by omega⟩, hic]
    simp only
    rw [if_neg (by omega)]
    omega
  unfold placeOf
  simp only [hsc, Bool.false_eq_true, if_false, memCurtain, ht, Bool.and_false, hr]

theorem own_err {s : State} {p : Fin 6} {o : Nat} (w : Bool) (hp : p.val < 5) (ho : o < 0x20000) (hd : s.dom (coreDom p) = .on) :
    physErr s (coreInit p) (0x11000000 + 0x100000 * p.val + o) w = false := by
  unfold physErr
  rw [tcm_target hp ho]
  simp only
  by_cases h4 : p.val = 4
  · simp [h4]
  · unfold coreDom at hd
    rw [if_pos (by omega)] at hd
    rw [hd]; simp [DomCond.ready]

/-- A core's own TCM is at rest in no state in which its domain is on. -/
theorem own_touch {s : State} {p : Fin 6} {o : Nat} (hp : p.val < 5) (ho : o < 0x20000) (hd : s.dom (coreDom p) = .on) :
    touch s (0x11000000 + 0x100000 * p.val + o) = s := by
  unfold touch restDom
  simp only [tcm_target hp ho]
  by_cases h4 : p.val = 4
  · unfold coreDom at hd
    rw [if_neg (by omega), if_pos h4] at hd
    simp [h4, hd]
  · simp [h4]

theorem own_view {s : State} {p : Fin 6} {o n : Nat} (hp : p.val < 5) (ho : o + n ≤ 0x20000) :
    s.viewBytes (0x11000000 + 0x100000 * p.val + o) n = s.bytes (0x11000000 + 0x100000 * p.val + o) n := by
  unfold State.viewBytes State.bytes
  apply List.map_congr_left
  intro i hi
  rw [List.mem_range] at hi
  unfold State.view
  have : 0x11000000 + 0x100000 * p.val + o + i = 0x11000000 + 0x100000 * p.val + (o + i) := by omega
  rw [this, tcm_target hp (by omega)]

theorem core_untrusted (s : State) : ∀ p : Fin 6, p.val < 5 → s.trusted (coreInit p) = false := by
  intro p hp; unfold State.trusted; revert p
  simp only [Fin.forall_fin_succ]
  simp [coreInit, actingFor]

theorem own_load {s : State} {p : Fin 6} {a o : Nat} {op : LsuOp} (hr : CoreReady s p) (hp : p.val < 5) (h1 : a = 0x10000000 + o) (ho2 : o < 0x20000)
    (hal : o % lsuSize op = 0) (hw : lsuWrites op = false) :
    lsuAccess s p op a (s.core p).opr[3] [] =
      (.done [loadFlight op (s.ld (0x11000000 + 0x100000 * p.val + o) (lsuSize op))],
        reserve s p op (0x11000000 + 0x100000 * p.val + o)) := by
  obtain ⟨g1, -, -, -, -, -, -, -, -, -, g11, g12, -⟩ := hr
  have hrep : isReplayed s p op a = false := by simp [isReplayed, g11]
  have hsz : lsuSize op = 1 ∨ lsuSize op = 2 ∨ lsuSize op = 4 := by cases op <;> simp [lsuSize]
  have hon : o + lsuSize op ≤ 0x20000 := by rcases hsz with h | h | h <;> rw [h] at hal ⊢ <;> omega
  have hsc : isScene a = false := by unfold isScene; simp; omega
  have hnw : op ≠ .scW := by intro h; subst h; simp [lsuWrites] at hw
  have hom : ownMem p (0x11000000 + 0x100000 * p.val + o) = true := by unfold ownMem; rw [tcm_target hp ho2]; simp
  have herr := fun w => own_err (s := s) w hp ho2 (readyDom g1)
  unfold lsuAccess
  simp only [List.findSome?_nil, hrep, Bool.false_eq_true, if_false, hw, own_place hp h1 ho2, Bool.false_and, hom, if_true]
  unfold ownAccess
  have hinj : injMeets s (0x11000000 + 0x100000 * p.val + o) (lsuSize op) = 0 := by unfold injMeets; simp [g12]
  have hread : pathRead s (coreInit p) a (0x11000000 + 0x100000 * p.val + o) none (lsuSize op) false false .ok .ok 0 =
      (some (s.bytes (0x11000000 + 0x100000 * p.val + o) (lsuSize op)), s) := by
    unfold pathRead
    simp only [herr, Bool.false_eq_true, if_false, lineRead, tcm_target hp ho2, hsc]
    unfold physRead
    have hir : injRead s (coreInit p) (0x11000000 + 0x100000 * p.val + o) (lsuSize op) = (false, s) := by unfold injRead; simp only [hinj]
    have hto : touch s (0x11000000 + 0x100000 * p.val + o) = s := own_touch hp ho2 (readyDom g1)
    have hlast : physErr s (coreInit p) (0x11000000 + 0x100000 * p.val + o + lsuSize op - 1) false = false := by
      have := own_err (s := s) (o := o + lsuSize op - 1) false hp (by omega) (readyDom g1)
      rwa [show 0x11000000 + 0x100000 * p.val + (o + lsuSize op - 1) = 0x11000000 + 0x100000 * p.val + o + lsuSize op - 1 by
        rcases hsz with h | h | h <;> omega] at this
    simp only [hlast, Bool.or_false]
    simp [herr, hir, hinj, hto, tcm_target hp ho2, own_view hp hon, noteRead, core_untrusted s p hp]
  simp only [hnw, if_false, hw, Bool.false_eq_true, hread]
  rfl

theorem runs_lsu_to {s s1 : State} {p : Fin 6} {g : Fin 8} {src : BitVec 13} {v : Word} {op : LsuOp} {fl : List Flight} {i : Instr} {gs : List Got}
    (hr : CoreReady s p) (hs : SrcReads s p src v) (hg : GuardHolds s p g) (hal : op ≠ .fence → v.toNat % lsuSize op = 0)
    (hacc : if op = .fence then lsuFence s p = .done [] ∧ fl = [] ∧ s1 = s else lsuAccess s p op v.toNat (s.core p).opr[3] [] = (.done fl, s1))
    (hc : s1.core p = { s.core p with got := gs }) (hregs : s1.regs = s.regs) (hlog : logsFill s1.pair = false) (hrun : ∀ q, (s1.core q).run = (s.core q).run)
    (hcr : ∀ x, csrRead s1 p x = csrRead s p x)
    (hfl : ∀ x ∈ fl, x.left = 2)
    (he : exec i s = .next (runUnitOp s p .lsu (lsuCode op) g src none)) :
    ∃ t, exec i s = .next t ∧ t.core p = { oneOn (s.core p) with fly := fl.map (fun x => { x with left := 1 }), resv := gotResv gs (s.core p).resv } ∧
      (∀ q, q ≠ p → t.core q = s1.core q) ∧ t.regs = s.regs ∧ t.mem = s1.mem := by
  obtain ⟨g1, g2, g3, g4, g5, g6, g7, g8, g9, g10, g11, g12, g13⟩ := id hr
  have hcy : cycleWord (s1.core p) = cycleWord (s.core p) := by rw [hc]; rfl
  have key := runUnitOp_lsu (s1 := s1) hr hs hg hal hacc (by
      rw [hs.2, hcy]
      cases srcOf src.toNat with
      | val w => rfl
      | sock id => simp only [srcVal, hcr, hc])
    (by rw [hc]; exact g4) (by rw [hc]; unfold pstatBit at g9 ⊢; exact g9)
    (by rw [hc]; exact g8) (by rw [hc]; exact g5) (by rw [hc]; exact g7) (by rw [hc]; exact g2)
    hlog (by
      intro q
      refine ⟨?_, by rw [hrun]; exact (g13 q).2⟩
      have := (g13 q).1
      simpa [State.bit, State.rd, hregs] using this) he
  refine ⟨_, key, ?_, ?_, ?_, ?_⟩
  · rw [show ∀ t : State, (countBundle t p).core p = t.core p from fun t => by unfold State.core; rw [(countBundle_facts t p).1]]
    rw [core_upCore_self, hc]
    have hfil : fl.filter (fun f => decide (f.left ≤ 1)) = [] := by
      rw [List.filter_eq_nil_iff]; intro x hx; simp [hfl x hx]
    have hfil2 : fl.filter (fun f => decide (1 < f.left)) = fl := by
      rw [List.filter_eq_self]; intro x hx; simp [hfl x hx]
    have hmap : fl.map (fun f => { f with left := f.left - 1 }) = fl.map (fun x => { x with left := 1 }) := by
      apply List.map_congr_left; intro x hx; simp [hfl x hx]
    unfold tickCore
    simp only [hfil, hfil2, List.foldl_nil, hmap]
    simp only [g6]
  · intro q hq
    rw [show ∀ t : State, (countBundle t p).core q = t.core q from fun t => by unfold State.core; rw [(countBundle_facts t p).1]]
    rw [core_upCore, if_neg hq]
  · rw [(countBundle_facts _ _).2.1]; exact hregs
  · rw [(countBundle_facts _ _).2.2]; rfl

theorem runs_lsu {s s1 : State} {p : Fin 6} {g : Fin 8} {src : BitVec 13} {v : Word} {op : LsuOp} {fl : List Flight} {i : Instr} {f : Core → Core}
    (hr : CoreReady s p) (hs : SrcReads s p src v) (hg : GuardHolds s p g) (hal : op ≠ .fence → v.toNat % lsuSize op = 0)
    (hacc : if op = .fence then lsuFence s p = .done [] ∧ fl = [] ∧ s1 = s else lsuAccess s p op v.toNat (s.core p).opr[3] [] = (.done fl, s1))
    (h1 : s1 = s.upCore p f) (hf : f (s.core p) = { s.core p with got := (f (s.core p)).got })
    (hcr : ∀ x, csrRead s1 p x = csrRead s p x)
    (hfl : ∀ x ∈ fl, x.left = 2)
    (he : exec i s = .next (runUnitOp s p .lsu (lsuCode op) g src none)) :
    RunsOn i s p { oneOn (s.core p) with fly := fl.map (fun x => { x with left := 1 }), resv := gotResv (f (s.core p)).got (s.core p).resv } := by
  obtain ⟨t, ht, h2, h3, h4, h5⟩ := runs_lsu_to hr hs hg hal hacc (by rw [h1, core_upCore_self]; exact hf) (by rw [h1]; rfl)
    (by rw [h1]; exact hr.2.2.2.2.2.2.2.2.2.1)
    (by intro q; rw [h1, core_upCore]; split
        · next h => subst h; rw [hf]
        · rfl) hcr hfl he
  refine ⟨t, ht, h2, ?_, h4, by rw [h5, h1]; rfl⟩
  intro q hq
  rw [h3 q hq, h1, core_upCore, if_neg hq]

theorem csr_got {s : State} {p : Fin 6} {r : List Got} (x : Nat) : csrRead (s.upCore p (fun c => { c with got := c.got ++ r })) p x = csrRead s p x := by
  have hip : ipend (s.upCore p (fun c => { c with got := c.got ++ r })) p = ipend s p := rfl
  have hcf : curFrame { s.core p with got := (s.core p).got ++ r } = curFrame (s.core p) := rfl
  have hdb : divBusy { s.core p with got := (s.core p).got ++ r } = divBusy (s.core p) := rfl
  unfold csrRead
  simp only [core_upCore_self, hip, hcf, hdb]

theorem sx_ofNat (k n : Nat) (h1 : 0 < k) (h2 : k < 32) : sextW k n = (BitVec.ofNat k n).signExtend 32 := by
  apply BitVec.eq_of_toInt_eq
  rw [sextW, BitVec.toInt_signExtend_of_le (by omega), BitVec.toInt_ofInt, BitVec.toInt_eq_toNat_cond, BitVec.toNat_ofNat]
  unfold sint
  have hp : 2 ^ k = 2 * 2 ^ (k - 1) := by rw [← Nat.pow_succ']; congr 1; omega
  have hb : 2 ^ k ≤ 2 ^ 31 := Nat.pow_le_pow_right (by decide) (by omega)
  have hn : ((2:Int) ^ k) = ((2 ^ k : Nat) : Int) := by norm_num
  have hmod : n % 2 ^ k < 2 ^ k := Nat.mod_lt _ (Nat.two_pow_pos _)
  have h31 : (2:Nat) ^ 31 = 2147483648 := by norm_num
  rw [h31] at hb
  rw [hp]
  rw [hp] at hmod hb
  generalize 2 ^ (k - 1) = z at *
  generalize n % (2 * z) = x at *
  simp only [Int.bmod_def, Int.ofNat_eq_natCast]
  push_cast
  split_ifs <;> omega

/-- What a store of a core leaves in its own TCM. -/
def ownStored (s : State) (p : Fin 6) (ph n : Nat) (d : Word) : State :=
  loseReservations (markDirty (s.setBytes ph (leBytes n d.toNat)) ph n) (coreInit p) ph n

theorem own_write {s : State} {p : Fin 6} {a o : Nat} {n : Nat} {d : Word} (hp : p.val < 5) (h1 : a = 0x10000000 + o) (ho : o < 0x20000) (hd : s.dom (coreDom p) = .on) :
    pathWrite s (coreInit p) a (0x11000000 + 0x100000 * p.val + o) none (leBytes n d.toNat) false 0 =
      (false, ownStored s p (0x11000000 + 0x100000 * p.val + o) n d) := by
  have hsc : isScene a = false := by unfold isScene; simp; omega
  unfold pathWrite
  simp only [own_err true hp ho hd, Bool.false_eq_true, if_false, tcm_target hp ho, reduceCtorEq, hsc, false_and]
  unfold physWrite performWrite
  simp only [own_err true hp ho hd, Bool.false_eq_true, if_false, own_touch hp ho hd, tcm_target hp ho, Sys2Proof.Machine.leBytes_length, ownStored, noteWrite, core_untrusted _ p hp, Bool.false_eq_true, if_false]

theorem own_final {s : State} {ph : Nat} (h : ∀ c, migState s c ≠ 3) : inFinal s ph = false := by
  unfold inFinal
  rw [List.any_eq_false]
  intro c _
  simp [h c]

theorem core_lose {s : State} {who a n : Nat} (q : Fin 6) : (loseReservations s who a n).core q =
    match (s.core q).resv with
    | some g => if coreInit q ≠ who ∧ g < a + n ∧ a < g + 32 then { s.core q with resv := none } else s.core q
    | none => s.core q := by
  unfold loseReservations State.core
  simp only [Fin.getElem_fin, Vector.getElem_ofFn]
  all_goals rfl

theorem coreInit_inj {p q : Fin 6} (h : coreInit q = coreInit p) : q = p := by revert p q; decide

theorem setBytes_cores (bs : List Byte) : ∀ (a : Nat) (t : State), (t.setBytes a bs).cores = t.cores ∧ (t.setBytes a bs).regs = t.regs ∧ (t.setBytes a bs).pair = t.pair := by
  induction bs with
  | nil => intro a t; exact ⟨rfl, rfl, rfl⟩
  | cons b l ih => intro a t; exact ih _ _

theorem ownStored_core {s : State} {p : Fin 6} {ph n : Nat} {d : Word} : (ownStored s p ph n d).core p = s.core p := by
  have h1 : ∀ t : State, (markDirty t ph n).core p = t.core p := fun _ => rfl
  have h2 : ∀ (bs : List Byte) (a : Nat) (t : State), (t.setBytes a bs).core p = t.core p := by
    intro bs a t; unfold State.core; rw [(setBytes_cores bs a t).1]
  unfold ownStored
  rw [core_lose, h1, h2]
  cases (s.core p).resv <;> simp

theorem ownStored_facts {s : State} {p : Fin 6} {ph n : Nat} {d : Word} :
    (ownStored s p ph n d).regs = s.regs ∧ (ownStored s p ph n d).pair = s.pair ∧ (ownStored s p ph n d).mem = (s.setBytes ph (leBytes n d.toNat)).mem ∧
    ∀ q, q ≠ p → (ownStored s p ph n d).core q = match (s.core q).resv with
        | some r => if r < ph + n ∧ ph < r + 32 then { s.core q with resv := none } else s.core q
        | none => s.core q := by
  refine ⟨(setBytes_cores _ _ _).2.1, (setBytes_cores _ _ _).2.2, rfl, ?_⟩
  intro q hq
  unfold ownStored
  rw [core_lose]
  have h1 : ∀ t : State, (markDirty t ph n).core q = t.core q := fun _ => rfl
  have h2 : ∀ (bs : List Byte) (a : Nat) (t : State), (t.setBytes a bs).core q = t.core q := by
    intro bs a t; unfold State.core; rw [(setBytes_cores bs a t).1]
  rw [h1, h2]
  have : coreInit q ≠ coreInit p := fun h => hq (coreInit_inj h)
  cases (s.core q).resv <;> simp [this]

theorem logUndo_facts {s : State} {p : Fin 6} {ph : Nat} : (logUndo s p ph).regs = s.regs ∧ (logUndo s p ph).cores = s.cores ∧ (logUndo s p ph).mem = s.mem ∧
    (logUndo s p ph).doms = s.doms ∧ (logUndo s p ph).pair.inlog = s.pair.inlog ∧ (logUndo s p ph).pair.undo.length ≤ s.pair.undo.length + 1 ∧
    (logUndo s p ph).pair.replay = s.pair.replay := by
  unfold logUndo
  split <;> simp

theorem ipend_eq {s t : State} {p : Fin 6} (h : t.regs = s.regs) : ipend t p = ipend s p := by
  unfold ipend State.fld State.bit State.rd migState State.fld State.rd
  rw [h]

theorem csrRead_eq {s t : State} {p : Fin 6} {gs : List Got} (h : t.regs = s.regs) (hc : t.core p = { s.core p with got := gs }) (x : Nat) :
    csrRead t p x = csrRead s p x := by
  have hcf : curFrame { s.core p with got := gs } = curFrame (s.core p) := rfl
  have hdb : divBusy { s.core p with got := gs } = divBusy (s.core p) := rfl
  unfold csrRead
  simp only [hc, ipend_eq h, hcf, hdb]

theorem own_access {s : State} {p : Fin 6} {o a : Nat} {op : LsuOp} (hr : CoreReady s p) (hp : p.val < 5) (h1 : a = 0x10000000 + o) (ho2 : o < 0x20000)
    (hm : ∀ c, migState s c ≠ 3) :
    lsuAccess s p op a (s.core p).opr[3] [] = ownAccess s p op a (0x11000000 + 0x100000 * p.val + o) none false (s.core p).opr[3] := by
  obtain ⟨g1, -, -, -, -, -, -, -, -, -, g11, g12, -⟩ := hr
  have hrep : isReplayed s p op a = false := by simp [isReplayed, g11]
  have hom : ownMem p (0x11000000 + 0x100000 * p.val + o) = true := by unfold ownMem; rw [tcm_target hp ho2]; simp
  unfold lsuAccess
  simp only [List.findSome?_nil, hrep, Bool.false_eq_true, if_false, own_place hp h1 ho2, own_final hm, Bool.and_false, hom, if_true]

theorem leBytes_getD (n : Nat) : ∀ (v i : Nat), i < n → (leBytes n v).getD i 0 = BitVec.ofNat 8 (v / 256 ^ i) := by
  induction n with
  | zero => intro v i h; omega
  | succ n ih =>
    intro v i h
    cases i with
    | zero => simp [leBytes]
    | succ i =>
      rw [leBytes, List.getD_cons_succ, ih _ _ (by omega), Nat.div_div_eq_div_mul, Nat.pow_succ']

theorem own_bytes {s : State} {ph n : Nat} {d : Word} (b : Nat) {t : State} (h : t.mem = (s.setBytes ph (leBytes n d.toNat)).mem) :
    t.byte b = if ph ≤ b ∧ b < ph + n then BitVec.ofNat 8 (d.toNat / 256 ^ (b - ph)) else s.byte b := by
  have : t.byte b = (s.setBytes ph (leBytes n d.toNat)).byte b := by unfold State.byte; rw [h]
  rw [this, State.byte_setBytes, Sys2Proof.Machine.leBytes_length]
  split
  · next hb =>
    exact leBytes_getD n d.toNat (b - ph) (by omega)
  · rfl

theorem qu_dest (p : Fin 6) (op : QuOp) (hp : p.val < 5) : unitSlot (coreKind p) .qu ≤ topSlot (coreKind p) ∧
    destOf (coreKind p) (unitSlot (coreKind p) .qu) (0x900 + quCode op) = .inr (.trig (.qu op)) ∧ quCode op < 0xFF := by
  cases op <;> (fin_cases p <;> first | (refine ⟨by decide, by decide, by decide⟩) | (exfalso; revert hp; decide))

theorem run_qu {s s2 : State} {p : Fin 6} {g : Fin 8} {src : BitVec 13} {v : Word} {op : QuOp} {w : Word} {c : Nat} {i : Instr} {l : Bool}
    (hr : CoreReady s p) (hs : SrcReads s p src v) (hg : GuardHolds s p g) (hp : p.val < 5)
    (hw : op = .wfe → (s.core p).latch = true)
    (hd : op = .deq → qOn s (v.toNat % 128) = true → qAllowed s (v.toNat % 128) (coreInit p) false = true → qCount s (v.toNat % 128) ≠ 0)
    (hq : quCommit s p op v = ([{ left := 2, writes := [(4, w)], qcode := some c }], s2))
    (hc : s2.core p = { s.core p with latch := l }) (hlog : logsFill s2.pair = false) (hrun : ∀ q, (s2.core q).run = (s.core q).run)
    (hdb : s2.rd DBG.HALT = s.rd DBG.HALT)
    (he : exec i s = .next (runUnitOp s p .qu (quCode op) g src none)) :
    ∃ t, exec i s = .next t ∧ t.core p = { oneOn (s.core p) with fly := [{ left := 1, writes := [(4, w)], qcode := some c }], latch := l } ∧
      (∀ q, q ≠ p → t.core q = s2.core q) ∧ t.regs = s2.regs ∧ t.mem = s2.mem := by
  obtain ⟨d1, d2, d3⟩ := qu_dest p op hp
  have h8 : unitSlot (coreKind p) .qu < 8 := lt_of_le_of_lt d1 (topSlot_lt _)
  obtain ⟨h1, h2, h3, h4, h5, h6, h7, h8', h9, h10, h11, h12, h13⟩ := id hr
  have hww : (BitVec.ofNat 32 (2 ^ 31 + 2 ^ 28 * (unitSlot (coreKind p) .qu % 8) + 2 ^ 25 * g.val + 2 ^ 12 * src.toNat + 0x900 + quCode op)) =
      sylWord (unitSlot (coreKind p) .qu) g src (0x900 + quCode op) := by unfold sylWord; congr 1; omega
  have hill := illegalCode_one (k := coreKind p) (g := g) (src := src) d1 (show 0x900 + quCode op < 4096 by omega) (by omega) d2 (fun i hi => (hs.1 i hi).1)
    (fun e _ => by omega)
  have hmv := moveOf_sylWord (unitSlot (coreKind p) .qu) g src (0x900 + quCode op) h8 (by omega)
  have himp : impreciseDue (s.core p) = false := by simp [impreciseDue, h3]
  have key : exec i s = .next (countBundle (s2.upCore p (fun c' => tickCore { c' with
      fly := [{ left := 2, writes := [(4, w)], qcode := some c }], pc := (s.core p).pc + 4, prodAge := min 2 ((s.core p).prodAge + 1), got := [], resv := gotResv c'.got c'.resv })) p) := by
    rw [he]
    congr 1
    unfold runUnitOp
    rw [if_pos ⟨h1, h2⟩, himp, if_neg (by simp), if_neg (by omega)]
    simp only [hww]
    rw [hill, hmv]
    simp only
    set m : Move := { guard := g.val, src := srcOf src.toNat, slot := unitSlot (coreKind p) .qu, dst := 0x900 + quCode op } with hm
    have ht : trigOf (coreKind p) m = some (.qu op) := trigOf_dest d2
    have hg' : guardHolds (s.core p).g g.val = true := hg
    have hms : execMoves (s.core p) { moves := [m], lit := none, len := 4 } = [m] := by simp [execMoves, hm, hg']
    have hls : lsuOf (coreKind p) [m] = none := by simp only [lsuOf, List.findSome?_cons, ht, List.findSome?_nil]
    have hq' : quOf (coreKind p) [m] = some (op, m.src) := by simp only [quOf, List.findSome?_cons, ht]
    have hc' : cuOf (coreKind p) [m] = none := by simp only [cuOf, List.findSome?_cons, ht, List.findSome?_nil]
    have hnc : needsPriv (coreKind p) m = false := by unfold needsPriv; rw [show destOf (coreKind p) m.slot m.dst = .inr (.trig (.qu op)) from d2]
    have hva : srcVal s p (cycleWord (s.core p)) m.src = v := hs.2.symm
    have hef : earlyFault s p [m] = none := by
      simp only [earlyFault, h4, Option.isSome_none, Bool.false_and, Bool.false_eq_true, if_false, List.find?_cons, hnc, Bool.and_false, List.find?_nil, hls]
    have hmul : mulIn (coreKind p) [m] = false := by simp only [mulIn, List.any_cons, List.any_nil, ht, Bool.or_false]
    have hdw : deqWaits s p [m] = none := by
      unfold deqWaits
      simp only [hq']
      cases op <;> simp only [hva]
      have := hd rfl
      simp only [h6]
      by_cases e1 : qOn s (v.toNat % 128) = true <;> by_cases e2 : qAllowed s (v.toNat % 128) (coreInit p) false = true <;> simp [e1, e2]
      exact fun _ => this e1 e2
    have hes : earlyStall s p [m] = none := by
      have hwe : (waitsEvent (coreKind p) [m] && (wakeGot (s.core p).got).isNone && !(s.core p).latch) = false := by
        simp only [waitsEvent, hq', hc', Bool.or_false]
        cases op <;> simp
        simp [hw rfl]
      simp only [earlyStall, h5, List.isEmpty_nil, Bool.not_true, Bool.and_false, Bool.false_eq_true, if_false, hmul, Bool.false_and, hwe, hdw]
      simp
    have hpo : s.bit FLT.INJCTRL 16 = false := h12
    have hla : lookAhead s p { moves := [m], lit := none, len := 4 } [m] = (.len 0, s) := by simp [lookAhead, hc']
    have hmsrc : m.src ≠ .sock 0x210 := fun e => (hs.1 _ e).2 rfl
    unfold runBundle
    simp only [Option.isSome_none, Bool.false_eq_true, if_false, hms, hef, hes, hpo, Bool.and_false, Bool.false_and, hla, hls]
    exact commit_unit hmsrc ht (by simp) rfl hva rfl h4 h9 h8' hq (by rw [hc]; exact h5) (by rw [hc]; exact h7) (by rw [hc]; exact h2) (by rw [hc]) (by rw [hc])
      hlog (by
        intro q
        refine ⟨?_, by rw [hrun]; exact (h13 q).2⟩
        have := (h13 q).1
        simpa [State.bit, hdb] using this)
  refine ⟨_, key, ?_, ?_, ?_, ?_⟩
  · rw [show ∀ t : State, (countBundle t p).core p = t.core p from fun t => by unfold State.core; rw [(countBundle_facts t p).1]]
    rw [core_upCore_self, hc]
    unfold tickCore
    simp [h6, gotResv]
  · intro q hq
    rw [show ∀ t : State, (countBundle t p).core q = t.core q from fun t => by unfold State.core; rw [(countBundle_facts t p).1]]
    rw [core_upCore, if_neg hq]
  · rw [(countBundle_facts _ _).2.1]; rfl
  · rw [(countBundle_facts _ _).2.2]; rfl

theorem quCommit_live {s : State} {p : Fin 6} {op : QuOp} {t : Word} (h : s.pair.replay = false) :
    quCommit s p op t = ([{ left := 2, writes := [(4, (quPerform s p op t).1)], qcode := some (quPerform s p op t).2.1 }],
      logInput (quPerform s p op t).2.2 p (.queue (quPerform s p op t).1 (quPerform s p op t).2.1)) := by
  have : replays s p = false := by simp [replays, h]
  unfold quCommit
  simp only [this]

theorem logInput_facts {s : State} {p : Fin 6} {e : InEntry} : (logInput s p e).cores = s.cores ∧ (logInput s p e).regs = s.regs ∧ (logInput s p e).mem = s.mem ∧
    (logInput s p e).pair.undo = s.pair.undo ∧ (logInput s p e).pair.inlog.length ≤ s.pair.inlog.length + 1 := by
  unfold logInput; split <;> simp

theorem release_facts {s : State} {p : Fin 6} : (release s p).2.cores = s.cores ∧ (release s p).2.regs = s.regs ∧ (release s p).2.mem = s.mem ∧
    (release s p).2.pair.undo = s.pair.undo ∧ (release s p).2.pair.inlog = s.pair.inlog := by
  unfold release; split
  · split <;> simp
  · simp

end Sys2Proof.Machine
end

