-- ==== Sys2Proof/Laws/Bundles.lean ====
section
/-! SUPPORT. The laws of bundles of plain moves, of the delay bundles behind a transfer, and of bundles whose stall has ended. -/
namespace Sys2Proof.Machine
open Sys2Proof.Reg Sys2Proof.Safety

/-- A core changed in its registers, guards and operand ports alone. -/
def SameButRegs (c d : Core) : Prop := d = { c with a := d.a, b := d.b, g := d.g, opr := d.opr }

theorem applyMove_same {k : CoreKind} {m : Move} (h : plainMove k m = true) (c : Core) (v : Word) : SameButRegs c (applyMove k c m v) := by
  unfold plainMove at h
  unfold applyMove SameButRegs
  split at h <;> simp_all

theorem moves_same {k : CoreKind} (f : Move → Word) : ∀ (ms : List Move), (∀ m ∈ ms, plainMove k m = true) → ∀ c : Core,
    SameButRegs c (ms.foldl (fun d m => applyMove k d m (f m)) c) := by
  intro ms
  induction ms with
  | nil => intro _ c; rfl
  | cons m ms ih =>
    intro h c
    have h1 := applyMove_same (h m List.mem_cons_self) c (f m)
    have h2 := ih (fun x hx => h x (List.mem_cons_of_mem _ hx)) (applyMove k c m (f m))
    unfold SameButRegs at h1 h2 ⊢
    simp only [List.foldl_cons]
    rw [h2, h1]

theorem trigOf_plain {k : CoreKind} {m : Move} (h : plainMove k m = true) : trigOf k m = none := by
  unfold plainMove at h
  unfold trigOf
  split at h <;> simp_all

/-- Plain moves do not see the pc, the cycle count or the age of the last product. -/
theorem moves_later {k : CoreKind} (f : Move → Word) (pc : Word) (cy : BitVec 64) (n : Nat) : ∀ (ms : List Move), (∀ m ∈ ms, plainMove k m = true) → ∀ c : Core,
    ms.foldl (fun d m => applyMove k d m (f m)) { c with pc := pc, cycle := cy, prodAge := n } =
      { ms.foldl (fun d m => applyMove k d m (f m)) c with pc := pc, cycle := cy, prodAge := n } := by
  intro ms
  induction ms with
  | nil => intro _ c; rfl
  | cons m ms ih =>
    intro h c
    have h1 : applyMove k { c with pc := pc, cycle := cy, prodAge := n } m (f m) = { applyMove k c m (f m) with pc := pc, cycle := cy, prodAge := n } := by
      have := h m List.mem_cons_self
      unfold plainMove at this
      unfold applyMove
      split at this <;> simp_all
    simp only [List.foldl_cons]
    rw [h1]
    exact ih (fun x hx => h x (List.mem_cons_of_mem _ hx)) _

/-- The end of a bundle of plain moves. -/
theorem bundleEnd_moves {c : Core} {k : CoreKind} {ms : List Move} {f : Move → Word} {b : Bundle} (h : ∀ m ∈ ms, plainMove k m = true)
    (hf : c.fly = []) (hg : c.got = []) (hfl : c.flines = []) (hs : c.stall = none) :
    bundleEnd c c k (ms.map (fun m => (m, f m))) [] [] 0 b =
      let d := ms.foldl (fun d m => applyMove k d m (f m)) (bundleOn b c)
      match c.xfer with
      | some x => xferStep d x
      | none => loopEnd d c.pc := by
  have hnew : ∀ w l, newFlights k c (ms.map (fun m => (m, f m))) [] [] w l = [] := by
    intro w l
    unfold newFlights
    rw [List.flatMap_eq_nil_iff]
    intro x hx
    obtain ⟨m, hm, rfl⟩ := List.mem_map.1 hx
    rw [trigOf_plain (h m hm)]
  have hcu : cuTrig k (ms.map (fun m => (m, f m))) = none := by
    unfold cuTrig
    rw [List.findSome?_eq_none_iff]
    intro x hx
    obtain ⟨m, hm, rfl⟩ := List.mem_map.1 hx
    rw [trigOf_plain (h m hm)]
  have hpr : ∀ e o : Core, productStep e k ms o = { e with prodAge := min 2 (o.prodAge + 1) } := by
    intro e o
    unfold productStep
    refine if_neg ?_
    intro hh
    rw [List.any_eq_true] at hh
    obtain ⟨m, hm, hx⟩ := hh
    rw [trigOf_plain (h m hm)] at hx
    simp at hx
  have hbase : ({ c with fly := [], pc := c.pc + BitVec.ofNat 32 b.len, stall := none, got := [], flines := [], resv := gotResv c.got c.resv } : Core) =
      { c with pc := c.pc + BitVec.ofNat 32 b.len } := by
    cases c; simp_all [gotResv]
  have hfold : ∀ e : Core, (ms.map (fun m => (m, f m))).foldl (fun (d : Core) mv => applyMove k d mv.1 mv.2) e = ms.foldl (fun d m => applyMove k d m (f m)) e := by
    intro e; rw [List.foldl_map]
  have htick : ∀ e : Core, e.fly = [] → tickCore e = { e with cycle := e.cycle + 1 } := by
    intro e he; unfold tickCore; simp [he]
  have hmap : (ms.map (fun m => (m, f m))).map (fun mv => mv.1) = ms := by simp [Function.comp_def]
  unfold bundleEnd
  simp only [hnew, hf, List.filter_nil, ite_self, List.nil_append, hmap, hbase, hpr, hfold, hcu]
  have hd : tickCore (ms.foldl (fun d m => applyMove k d m (f m)) { c with
        fly := [], pc := c.pc + BitVec.ofNat 32 b.len, prodAge := min 2 (c.prodAge + 1) }) =
      ms.foldl (fun d m => applyMove k d m (f m)) (bundleOn b c) := by
    have e1 := moves_later f (c.pc + BitVec.ofNat 32 b.len) c.cycle (min 2 (c.prodAge + 1)) ms h c
    have e2 := moves_later f (c.pc + BitVec.ofNat 32 b.len) (c.cycle + 1) (min 2 (c.prodAge + 1)) ms h c
    have e0 := moves_same (k := k) f ms h c
    unfold SameButRegs at e0
    rw [show ({ c with fly := [], pc := c.pc + BitVec.ofNat 32 b.len, prodAge := min 2 (c.prodAge + 1) } : Core) =
        { c with pc := c.pc + BitVec.ofNat 32 b.len, prodAge := min 2 (c.prodAge + 1) } by cases c; simp_all, show bundleOn b c = { c with pc := c.pc + BitVec.ofNat 32 b.len, cycle := c.cycle + 1, prodAge := min 2 (c.prodAge + 1) } from rfl, e2,
      show ({ c with pc := c.pc + BitVec.ofNat 32 b.len, prodAge := min 2 (c.prodAge + 1) } : Core) = { c with pc := c.pc + BitVec.ofNat 32 b.len, cycle := c.cycle, prodAge := min 2 (c.prodAge + 1) } from rfl, e1,
      htick _ (by rw [e0]; exact hf)]
  rw [hd] <;> cases c.xfer <;> rfl

/-- What a core must have for a bundle of plain moves to run to its end; a transfer may wait. -/
structure MovesRun (s : State) (p : Fin 6) : Prop where
  can : canRun s p = true
  stall : (s.core p).stall = none
  held : (s.core p).held = []
  fly : (s.core p).fly = []
  got : (s.core p).got = []
  flines : (s.core p).flines = []
  logs : logsFill s.pair = false
  replay : s.pair.replay = false
  inj : s.bit FLT.INJCTRL 16 = false
  watch : Unwatched s

theorem movesRun_of {s : State} {p : Fin 6} (h : CoreReady s p) : MovesRun s p :=
  ⟨h.1, h.2.1, h.2.2.1, h.2.2.2.2.1, h.2.2.2.2.2.1, h.2.2.2.2.2.2.1, h.2.2.2.2.2.2.2.2.2.1, h.2.2.2.2.2.2.2.2.2.2.1, h.2.2.2.2.2.2.2.2.2.2.2.1, h.2.2.2.2.2.2.2.2.2.2.2.2⟩

/-- The core after a bundle of plain moves, with a transfer that waits a bundle nearer. -/
def afterMoves (s : State) (p : Fin 6) (b : Bundle) : Core :=
  match (s.core p).xfer with
  | some x => xferStep (movesDone s p b (bundleOn b (s.core p))) x
  | none => loopEnd (movesDone s p b (bundleOn b (s.core p))) (s.core p).pc

theorem commit_moves {s : State} {p : Fin 6} {b : Bundle} (hr : MovesRun s p) (hm : b.moves.all (plainMove (coreKind p)) = true)
    (hal : (afterMoves s p b).pc.toNat % 4 = 0) (hrun : (afterMoves s p b).run = (s.core p).run) :
    commitBundle s p b (execMoves (s.core p) b) [] 0 = countBundle (s.upCore p (fun _ => afterMoves s p b)) p := by
  have hpl : ∀ m ∈ execMoves (s.core p) b, plainMove (coreKind p) m = true := by
    intro m hmm; exact List.all_eq_true.1 hm m (List.mem_filter.1 hmm).1
  set ms := execMoves (s.core p) b with hms
  have hcyc : readCycle s p ms = (cycleWord (s.core p), s) := readCycle_plain (by
    intro m hmm
    have := hpl m hmm
    unfold plainMove at this
    rw [Bool.and_eq_true] at this
    simpa using this.1)
  set f : Move → Word := fun m => srcVal s p (cycleWord (s.core p)) m.src with hf
  have hmv : ms.map (fun m => (m, srcVal s p (cycleWord (s.core p)) m.src)) = ms.map (fun m => (m, f m)) := rfl
  have hq : quTrig (coreKind p) (ms.map (fun m => (m, f m))) = none := by
    unfold quTrig
    rw [List.findSome?_eq_none_iff]
    intro x hx
    obtain ⟨m, hmm, rfl⟩ := List.mem_map.1 hx
    rw [trigOf_plain (hpl m hmm)]
  have hcu : cuTrig (coreKind p) (ms.map (fun m => (m, f m))) = none := by
    unfold cuTrig
    rw [List.findSome?_eq_none_iff]
    intro x hx
    obtain ⟨m, hmm, rfl⟩ := List.mem_map.1 hx
    rw [trigOf_plain (hpl m hmm)]
  unfold commitBundle
  simp only [hcyc, hmv, quStep, hq, hcu, Option.map_none, reduceCtorEq, if_false]
  have hb : s.upCore p (fun d => bundleEnd (s.core p) d (coreKind p) (ms.map (fun m => (m, f m))) [] [] 0 b) = s.upCore p (fun _ => afterMoves s p b) := by
    simp only [State.upCore]
    rw [bundleEnd_moves hpl hr.fly hr.got hr.flines hr.stall]
    rfl
  rw [hb]
  have hruns : ∀ q, ((s.upCore p (fun _ => afterMoves s p b)).core q).run = (s.core q).run := by
    intro q
    rw [core_upCore]
    split
    · next h => subst h; exact hrun
    · rfl
  have hab : ∀ t : State, t.core p = afterMoves s p b → afterBundle t p none = t := by
    intro t h
    have h2 : (t.core p).pc.toNat % 4 = 0 := by rw [h]; exact hal
    unfold afterBundle; simp only [h2, ne_eq, not_true_eq_false, if_false]
  have hun : ∀ t : State, t.regs = s.regs → (∀ q, (t.core q).run = (s.core q).run) → Unwatched t := fun t ht hq => unwatched_of hr.watch ht hq
  unfold countBundle
  split
  · rw [hab (State.upPair (s.upCore p (fun _ => afterMoves s p b)) (fun l => { l with bundles := l.bundles + 1 })) (core_upCore_self s p (fun _ => afterMoves s p b))]
    have hl2 : logsFill (State.upPair (s.upCore p (fun _ => afterMoves s p b)) (fun l => { l with bundles := l.bundles + 1 })).pair = false := hr.logs
    simp only [hl2, Bool.and_false, Bool.false_and, State.when, Bool.false_eq_true, if_false]
    exact dbgApply_unwatched (hun _ rfl hruns)
  · rw [hab _ (core_upCore_self s p (fun _ => afterMoves s p b))]
    have hl2 : logsFill (s.upCore p (fun _ => afterMoves s p b)).pair = false := hr.logs
    simp only [hl2, Bool.and_false, Bool.false_and, State.when, Bool.false_eq_true, if_false]
    exact dbgApply_unwatched (hun _ rfl hruns)

/-- 02 R50, R29: a core executes the bundle of plain moves at its pc. -/
theorem exec_moves {s : State} {p : Fin 6} {b : Bundle} {e : Ecc} (hr : MovesRun s p) (hd : decodeAt s p (s.core p).pc = (.bundle b, s))
    (hm : b.moves.all (plainMove (coreKind p)) = true) (hal : (afterMoves s p b).pc.toNat % 4 = 0) (hrun : (afterMoves s p b).run = (s.core p).run) :
    exec (.bundleExecute p .ok e) s = .next (countBundle (s.upCore p (fun _ => afterMoves s p b)) p) := by
  have hpl : ∀ m ∈ execMoves (s.core p) b, plainMove (coreKind p) m = true := by
    intro m hmm; exact List.all_eq_true.1 hm m (List.mem_filter.1 hmm).1
  have hnone : ∀ {α : Type} (f : Move → Option α), (∀ m, trigOf (coreKind p) m = none → f m = none) → (execMoves (s.core p) b).findSome? f = none := by
    intro α f hf
    rw [List.findSome?_eq_none_iff]
    intro m hmm
    exact hf m (trigOf_plain (hpl m hmm))
  have hls : lsuOf (coreKind p) (execMoves (s.core p) b) = none := hnone _ (fun m h => by rw [h])
  have hq : quOf (coreKind p) (execMoves (s.core p) b) = none := hnone _ (fun m h => by rw [h])
  have hc : cuOf (coreKind p) (execMoves (s.core p) b) = none := hnone _ (fun m h => by rw [h])
  have hef : earlyFault s p (execMoves (s.core p) b) = none := by
    have hdc : delayConflict (coreKind p) (execMoves (s.core p) b) = false := by unfold delayConflict; rw [hc, hq]; rfl
    have hnp : (execMoves (s.core p) b).find? (fun m => !pstatBit (s.core p) PSTAT.priv && needsPriv (coreKind p) m) = none := by
      rw [List.find?_eq_none]
      intro m hmm
      have : needsPriv (coreKind p) m = false := by
        have := hpl m hmm
        unfold plainMove at this
        unfold needsPriv
        split at this <;> simp_all
      simp [this]
    unfold earlyFault
    simp only [hdc, Bool.and_false, Bool.false_eq_true, if_false, hnp, hls]
  have hes : earlyStall s p (execMoves (s.core p) b) = none := by
    have hmul : mulIn (coreKind p) (execMoves (s.core p) b) = false := by
      unfold mulIn; rw [List.any_eq_false]; intro m hmm; rw [trigOf_plain (hpl m hmm)]; simp
    simp [earlyStall, hr.fly, hmul, waitsEvent, hq, hc, deqWaits]
  have hre : replayEntry s p = none := by unfold replayEntry replays; simp [hr.replay]
  have him : impreciseDue (s.core p) = false := by simp [impreciseDue, hr.held]
  have hla : lookAhead s p b (execMoves (s.core p) b) = (.len 0, s) := by unfold lookAhead; rw [hc]
  show execBundleExecute p .ok e s = _
  unfold execBundleExecute State.when stepCore
  simp only [hr.can, if_true, hr.stall, hre, him, Bool.false_and, Bool.false_eq_true, if_false, fetchFinds, freshBundle, hd]
  unfold runBundle
  simp only [hef, hes, hr.inj, Bool.and_false, Bool.false_and, Bool.false_eq_true, if_false, hla, hls]
  rw [commit_moves hr hm hal hrun]

theorem countBundle_eq (t : State) (p : Fin 6) : countBundle t p = { t with pair := (countBundle t p).pair } := by unfold countBundle; split <;> rfl

theorem countBundle_replay (t : State) (p : Fin 6) : (countBundle t p).pair.replay = t.pair.replay ∧ (countBundle t p).pair.restoring = t.pair.restoring ∧
    (countBundle t p).doms = t.doms := by unfold countBundle; split <;> exact ⟨rfl, rfl, rfl⟩

/-- A core that has run a bundle may run the next one. -/
theorem movesRun_next {s : State} {p : Fin 6} {c : Core} (hr : MovesRun s p) (h1 : c.run = (s.core p).run) (h2 : c.stall = none) (h3 : c.held = [])
    (h4 : c.fly = []) (h5 : c.got = []) (h6 : c.flines = []) : MovesRun (countBundle (s.upCore p (fun _ => c)) p) p := by
  have hcore : (countBundle (s.upCore p (fun _ => c)) p).core p = c := by rw [countBundle_core, core_upCore_self]
  obtain ⟨r1, r2, r3⟩ := countBundle_replay (s.upCore p (fun _ => c)) p
  have hregs : (countBundle (s.upCore p (fun _ => c)) p).regs = s.regs := (countBundle_facts _ p).2.1
  refine ⟨?_, by rw [hcore, h2], by rw [hcore, h3], by rw [hcore, h4], by rw [hcore, h5], by rw [hcore, h6], by rw [countBundle_logs]; exact hr.logs,
    r1.trans hr.replay, ?_, ?_⟩
  · have := hr.can
    unfold canRun State.dom at this ⊢
    rw [hcore, h1, r2, r3]
    exact this
  · have := hr.inj
    unfold State.bit State.rd at this ⊢
    rw [hregs]; exact this
  · refine unwatched_of hr.watch hregs ?_
    intro q
    rw [countBundle_core, core_upCore]
    split
    · next h => subst h; exact h1
    · rfl

/-- A delay bundle of plain moves brings its transfer a bundle nearer. -/
theorem delay_step {s : State} {p : Fin 6} {x : Xfer} {b : Bundle} (hr : MovesRun s p) (hx : (s.core p).xfer = some x)
    (hb : decodeAt s p (s.core p).pc = (.bundle b, s)) (hm : b.moves.all (plainMove (coreKind p)) = true)
    (hal : ∀ d : Core, SameButRegs (bundleOn b (s.core p)) d → (xferStep d x).pc.toNat % 4 = 0 ∧ (xferStep d x).run = d.run) :
    ∃ d : Core, SameButRegs (bundleOn b (s.core p)) d ∧ exec (.bundleExecute p .ok .ok) s = .next (countBundle (s.upCore p (fun _ => xferStep d x)) p) := by
  have e1 : SameButRegs (bundleOn b (s.core p)) (movesDone s p b (bundleOn b (s.core p))) :=
    moves_same _ _ (fun m hm' => List.all_eq_true.1 hm m (List.mem_filter.1 hm').1) _
  have ha : afterMoves s p b = xferStep (movesDone s p b (bundleOn b (s.core p))) x := by unfold afterMoves; rw [hx]
  obtain ⟨h1, h2⟩ := hal _ e1
  refine ⟨_, e1, ?_⟩
  rw [← ha]
  refine exec_moves hr hb hm (by rw [ha]; exact h1) ?_
  rw [ha, h2]
  unfold SameButRegs at e1
  rw [e1]

/-- The two bundles behind a transfer of plain moves bring it about. -/
theorem delayed {i : Instr} {s : State} {p : Fin 6} {c : Core} {x : Xfer} {b1 b2 : Bundle} (hr : CoreReady s p)
    (he : exec i s = .next (countBundle (s.upCore p (fun _ => c)) p)) {r : Vector Word 13} (hc : c = { oneOn (s.core p) with xfer := some x, res := r }) (hx : x.left = 2)
    (h1 : BundleAt s p ((s.core p).pc + 4) b1) (h2 : BundleAt s p ((s.core p).pc + 4 + BitVec.ofNat 32 b1.len) b2)
    (m1 : b1.moves.all (plainMove (coreKind p)) = true) (m2 : b2.moves.all (plainMove (coreKind p)) = true) (l1 : b1.len % 4 = 0)
    (hal : ∀ d : Core, d = { s.core p with a := d.a, b := d.b, g := d.g, opr := d.opr, pc := d.pc, cycle := d.cycle, prodAge := d.prodAge, xfer := some { x with left := 1 }, res := r } →
      (xferStep d { x with left := 1 }).pc.toNat % 4 = 0 ∧ (xferStep d { x with left := 1 }).run = d.run) :
    LeavesInTwo i s p (fun t =>
      (∃ d : Core, d = { s.core p with a := d.a, b := d.b, g := d.g, opr := d.opr, pc := d.pc, cycle := d.cycle, prodAge := d.prodAge, xfer := some { x with left := 1 }, res := r } ∧
      t.core p = xferStep d { x with left := 1 }) ∧ (∀ q, q ≠ p → t.core q = s.core q) ∧ t.regs = s.regs ∧ t.mem = s.mem) := by
  have hmr := movesRun_of hr
  obtain ⟨g1, g2, g3, g4, g5, g6, g7, g8, -⟩ := id hr
  obtain ⟨s1, hs1⟩ : ∃ t, t = countBundle (s.upCore p (fun _ => c)) p := ⟨_, rfl⟩
  have c1 : s1.core p = c := by rw [hs1, countBundle_core, core_upCore_self]
  have r1 : MovesRun s1 p := by
    rw [hs1]; exact movesRun_next hmr (by rw [hc]) (by rw [hc]; exact g2) (by rw [hc]; exact g3) (by rw [hc]; exact g5) (by rw [hc]; exact g6) (by rw [hc]; exact g7)
  have f1 : s1 = { s with cores := s1.cores, pair := s1.pair } := by rw [hs1, countBundle_eq]; rfl
  have p1 : (s1.core p).pc = (s.core p).pc + 4 := by rw [c1, hc]
  have x1 : (s1.core p).xfer = some x := by rw [c1, hc]
  have o1 : ∀ q, q ≠ p → s1.core q = s.core q := by intro q hq; rw [hs1, countBundle_core, core_upCore, if_neg hq]
  have g1 : s1.regs = s.regs ∧ s1.mem = s.mem := by rw [hs1]; exact ⟨(countBundle_facts _ p).2.1, (countBundle_facts _ p).2.2⟩
  have d1 : decodeAt s1 p (s1.core p).pc = (.bundle b1, s1) := by
    rw [p1]; have := h1 s1.cores s1.pair; rw [← f1] at this; exact this
  have al1 : ((s.core p).pc + 4 + BitVec.ofNat 32 b1.len).toNat % 4 = 0 := by
    rw [BitVec.toNat_add, BitVec.toNat_add, BitVec.toNat_ofNat, show (4 : Word).toNat = 4 from rfl]; omega
  have st : ∀ d : Core, xferStep d x = { d with xfer := some { x with left := 1 } } := by
    intro d; unfold xferStep; rw [if_neg (by omega), hx]
  rw [← hs1] at he
  clear hs1
  obtain ⟨e1, s1e, ex1⟩ := delay_step r1 x1 d1 m1 (by
    intro d hd
    rw [st]
    unfold SameButRegs at hd
    rw [hd]
    refine ⟨?_, rfl⟩
    simp only
    rw [p1]; exact al1)
  obtain ⟨s2, hs2⟩ : ∃ t, t = countBundle (s1.upCore p (fun _ => xferStep e1 x)) p := ⟨_, rfl⟩
  have c2 : s2.core p = { e1 with xfer := some { x with left := 1 } } := by rw [hs2, countBundle_core, core_upCore_self, st]
  unfold SameButRegs at s1e
  have c2' : s2.core p = { s.core p with a := e1.a, b := e1.b, g := e1.g, opr := e1.opr, pc := e1.pc, cycle := e1.cycle, prodAge := e1.prodAge, xfer := some { x with left := 1 }, res := r } := by
    rw [c2, s1e, c1, hc]
  have e1pc : e1.pc = (s.core p).pc + 4 + BitVec.ofNat 32 b1.len := by rw [s1e]; simp only; rw [p1]
  have r2 : MovesRun s2 p := by
    rw [hs2]
    refine movesRun_next r1 ?_ ?_ ?_ ?_ ?_ ?_ <;> rw [st, s1e]
    · exact r1.stall
    · exact r1.held
    · exact r1.fly
    · exact r1.got
    · exact r1.flines
  have f2 : s2 = { s with cores := s2.cores, pair := s2.pair } := by
    rw [hs2, countBundle_eq]
    show ({ s1 with cores := _, pair := _ } : State) = _
    rw [f1]
  have o2 : ∀ q, q ≠ p → s2.core q = s.core q := by intro q hq; rw [hs2, countBundle_core, core_upCore, if_neg hq]; exact o1 q hq
  have g2' : s2.regs = s.regs ∧ s2.mem = s.mem := by rw [hs2]; exact ⟨((countBundle_facts _ p).2.1).trans g1.1, ((countBundle_facts _ p).2.2).trans g1.2⟩
  rw [← hs2] at ex1
  clear hs2
  have x2 : (s2.core p).xfer = some { x with left := 1 } := by rw [c2]
  have d2 : decodeAt s2 p (s2.core p).pc = (.bundle b2, s2) := by
    rw [show (s2.core p).pc = (s.core p).pc + 4 + BitVec.ofNat 32 b1.len by rw [c2]; exact e1pc]
    have := h2 s2.cores s2.pair; rw [← f2] at this; exact this
  have last : ∀ d : Core, SameButRegs (bundleOn b2 (s2.core p)) d →
      d = { s.core p with a := d.a, b := d.b, g := d.g, opr := d.opr, pc := d.pc, cycle := d.cycle, prodAge := d.prodAge, xfer := some { x with left := 1 }, res := r } := by
    intro d hd
    unfold SameButRegs at hd
    rw [hd, c2']
  obtain ⟨e2, s2e, ex2⟩ := delay_step r2 x2 d2 m2 (fun d hd => hal d (last d hd))
  refine ⟨s1, he, s2, ex1, _, ex2, ⟨e2, last e2 s2e, ?_⟩, ?_, ?_, ?_⟩
  · rw [countBundle_core, core_upCore_self]
  · intro q hq; rw [countBundle_core, core_upCore, if_neg hq]; exact o2 q hq
  · exact ((countBundle_facts _ p).2.1).trans g2'.1
  · exact ((countBundle_facts _ p).2.2).trans g2'.2

/-- A bundle of plain moves of a ready core. -/
theorem runs_moves {s : State} {p : Fin 6} {b : Bundle} {e : Ecc} (hr : CoreReady s p) (hd : decodeAt s p (s.core p).pc = (.bundle b, s))
    (hm : b.moves.all (plainMove (coreKind p)) = true) (hl : b.len % 4 = 0) :
    RunsOn (.bundleExecute p .ok e) s p (movesDone s p b (bundleOn b (s.core p))) := by
  obtain ⟨g1, g2, g3, g4, g5, g6, g7, g8, g9, -⟩ := id hr
  have e1 : SameButRegs (bundleOn b (s.core p)) (movesDone s p b (bundleOn b (s.core p))) :=
    moves_same _ _ (fun m hm' => List.all_eq_true.1 hm m (List.mem_filter.1 hm').1) _
  have ha : afterMoves s p b = movesDone s p b (bundleOn b (s.core p)) := by
    unfold afterMoves
    rw [g4]
    simp only
    unfold loopEnd
    rw [if_neg]
    unfold pstatBit at g9 ⊢
    unfold SameButRegs at e1
    rw [e1]
    exact g9
  have hpc : (afterMoves s p b).pc.toNat % 4 = 0 := by
    rw [ha]; unfold SameButRegs at e1; rw [e1]
    simp only [BitVec.toNat_add, BitVec.toNat_ofNat]
    omega
  have hx := exec_moves (e := e) (movesRun_of hr) hd hm hpc (by rw [ha]; unfold SameButRegs at e1; rw [e1])
  exact runsOn_unit hx ha

/-- A unit operation as a command is the bundle of its one syllable. -/
theorem runUnitOp_bundle {s : State} {p : Fin 6} {u : FU} {code : Nat} {g : Fin 8} {src : BitVec 13} {v : Word} {op : UnitOp} (hr : CoreReady s p)
    (hs : SrcReads s p src v) (hd : unitSlot (coreKind p) u ≤ topSlot (coreKind p) ∧ destOf (coreKind p) (unitSlot (coreKind p) u) (0x900 + code) = .inr (.trig op) ∧ code < 0xFF) :
    runUnitOp s p u code g src none = runBundle s p (unitBundle p u code g src) := by
  obtain ⟨d1, d2, d3⟩ := hd
  have h8 : unitSlot (coreKind p) u < 8 := lt_of_le_of_lt d1 (topSlot_lt _)
  obtain ⟨h1, h2, h3, h4, h5, h6, h7, h8', h9, h10, h11, h12, h13⟩ := id hr
  have hww : (BitVec.ofNat 32 (2 ^ 31 + 2 ^ 28 * (unitSlot (coreKind p) u % 8) + 2 ^ 25 * g.val + 2 ^ 12 * src.toNat + 0x900 + code)) =
      sylWord (unitSlot (coreKind p) u) g src (0x900 + code) := by unfold sylWord; congr 1; omega
  have hill := illegalCode_one (k := coreKind p) (g := g) (src := src) d1 (show 0x900 + code < 4096 by omega) (by omega) d2 (fun i hi => (hs.1 i hi).1)
    (fun e _ => by omega)
  have hmv := moveOf_sylWord (unitSlot (coreKind p) u) g src (0x900 + code) h8 (by omega)
  have himp : impreciseDue (s.core p) = false := by simp [impreciseDue, h3]
  unfold runUnitOp
  rw [if_pos ⟨h1, h2⟩, himp, if_neg (by simp), if_neg (by omega)]
  simp only [hww]
  rw [hill, hmv]
  rfl

/-- The bundle of a `qu.wfe` that an event has woken. -/
theorem woken_qu {s : State} {p : Fin 6} {g : Fin 8} {src : BitVec 13} {v : Word} {n : Nat} (hp : p.val < 5)
    (hr : CoreReady (s.upCore p (fun c => { c with got := [] })) p) (hgot : (s.core p).got = [.wake n])
    (hs : SrcReads s p src v) (hg : GuardHolds s p g) (hin : s.pair.inlog.length < 191) :
    ∃ t, runBundle s p (unitBundle p .qu (quCode .wfe) g src) = t ∧
      t.core p = { oneOn (s.core p) with fly := [{ left := 1, writes := [(4, BitVec.ofNat 32 n)], qcode := some 0 }], got := [] } ∧
      (∀ q, q ≠ p → t.core q = s.core q) ∧ t.regs = s.regs ∧ t.mem = s.mem := by
  obtain ⟨d1, d2, d3⟩ := qu_dest p .wfe hp
  have hcp : (s.upCore p (fun c => { c with got := [] })).core p = { s.core p with got := [] } := core_upCore_self _ _ _
  obtain ⟨h1, h2, h3, h4, h5, h6, h7, h8', h9, h10, h11, h12, h13⟩ := id hr
  rw [hcp] at h2 h3 h4 h5 h7 h8' h9
  simp only at h2 h3 h4 h5 h7 h8'
  have hun : Unwatched s := by
    refine unwatched_of h13 rfl ?_
    intro q; rw [core_upCore]; split
    · next h => subst h; rfl
    · rfl
  set m : Move := { guard := g.val, src := srcOf src.toNat, slot := unitSlot (coreKind p) .qu, dst := 0x900 + quCode .wfe } with hm
  have ht : trigOf (coreKind p) m = some (.qu .wfe) := trigOf_dest d2
  have hg' : guardHolds (s.core p).g g.val = true := hg
  have hms : execMoves (s.core p) { moves := [m], lit := none, len := 4 } = [m] := by simp [execMoves, hm, hg']
  have hls : lsuOf (coreKind p) [m] = none := by simp only [lsuOf, List.findSome?_cons, ht, List.findSome?_nil]
  have hq' : quOf (coreKind p) [m] = some (.wfe, m.src) := by simp only [quOf, List.findSome?_cons, ht]
  have hc' : cuOf (coreKind p) [m] = none := by simp only [cuOf, List.findSome?_cons, ht, List.findSome?_nil]
  have hnc : needsPriv (coreKind p) m = false := by unfold needsPriv; rw [show destOf (coreKind p) m.slot m.dst = .inr (.trig (.qu .wfe)) from d2]
  have hva : srcVal s p (cycleWord (s.core p)) m.src = v := hs.2.symm
  have hef : earlyFault s p [m] = none := by
    simp only [earlyFault, h4, Option.isSome_none, Bool.false_and, Bool.false_eq_true, if_false, List.find?_cons, hnc, Bool.and_false, List.find?_nil, hls]
  have hmul : mulIn (coreKind p) [m] = false := by simp only [mulIn, List.any_cons, List.any_nil, ht, Bool.or_false]
  have hwg : wakeGot (s.core p).got = some n := by rw [hgot]; rfl
  have hes : earlyStall s p [m] = none := by
    simp only [earlyStall, h5, List.isEmpty_nil, Bool.not_true, Bool.and_false, Bool.false_eq_true, if_false, hmul, Bool.false_and, hwg, Option.isNone_some, deqWaits, hq',
      Option.map_none]
  have hpo : s.bit FLT.INJCTRL 16 = false := h12
  have hla : lookAhead s p { moves := [m], lit := none, len := 4 } [m] = (.len 0, s) := by simp [lookAhead, hc']
  have hmsrc : m.src ≠ .sock 0x210 := fun e => (hs.1 _ e).2 rfl
  have hqc := quCommit_live (s := s) (p := p) (op := .wfe) (t := v) h11
  have hqp : quPerform s p .wfe v = (BitVec.ofNat 32 n, 0, s) := by unfold quPerform wakeCause clearLatch; simp [hwg]
  rw [hqp] at hqc
  simp only at hqc
  have hlc : (logInput s p (.queue (BitVec.ofNat 32 n) 0)).cores = s.cores := logInput_facts.1
  have hcore : ∀ q, (logInput s p (.queue (BitVec.ofNat 32 n) 0)).core q = s.core q := by intro q; unfold State.core; rw [hlc]
  have key : runBundle s p (unitBundle p .qu (quCode .wfe) g src) = countBundle ((logInput s p (.queue (BitVec.ofNat 32 n) 0)).upCore p (fun c' => tickCore { c' with
      fly := [{ left := 2, writes := [(4, BitVec.ofNat 32 n)], qcode := some 0 }], pc := (s.core p).pc + 4, prodAge := min 2 ((s.core p).prodAge + 1), got := [], resv := gotResv c'.got c'.resv })) p := by
    show runBundle s p { moves := [m], lit := none, len := 4 } = _
    unfold runBundle
    simp only [hms, hef, hes, hpo, Bool.and_false, Bool.false_and, Bool.false_eq_true, if_false, hla, hls]
    exact commit_unit hmsrc ht (by simp) rfl hva rfl h4 (by unfold pstatBit at h9 ⊢; exact h9) h8' hqc (by rw [hcore]; exact h5) (by rw [hcore]; exact h7) (by rw [hcore]; exact h2) (by rw [hcore])
      (by rw [hcore]) (by
        have : logsFill s.pair = false := h10
        unfold logsFill at this ⊢
        simp only [Bool.or_eq_false_iff, decide_eq_false_iff_not] at this ⊢
        have hl := (logInput_facts (s := s) (p := p) (e := .queue (BitVec.ofNat 32 n) 0)).2.2.2
        rw [hl.1]; exact ⟨this.1, by omega⟩) (unwatched_of hun logInput_facts.2.1 (fun q => by rw [hcore]))
  refine ⟨_, key, ?_, ?_, ?_, ?_⟩
  · rw [countBundle_core, core_upCore_self, hcore]
    unfold tickCore
    simp [hgot, gotResv]
  · intro q hq
    rw [countBundle_core, core_upCore, if_neg hq, hcore]
  · rw [(countBundle_facts _ _).2.1]; exact logInput_facts.2.1
  · rw [(countBundle_facts _ _).2.2]; exact logInput_facts.2.2.1

/-- The bundle of a load that has returned the number `v`. -/
theorem loaded {s : State} {p : Fin 6} {g : Fin 8} {src : BitVec 13} {a : Word} {op : LsuOp} {v : Nat} (hop : op ≠ .fence)
    (hr : CoreReady (s.upCore p (fun c => { c with got := [] })) p) (hgot : (s.core p).got = [.load v])
    (hs : SrcReads s p src a) (hg : GuardHolds s p g) (hal : a.toNat % lsuSize op = 0) :
    ∃ t, runBundle s p (unitBundle p .lsu (lsuCode op) g src) = t ∧
      t.core p = { oneOn (s.core p) with fly := [{ left := 1, writes := [(11, lsuExtend op v)] }], got := [] } ∧
      (∀ q, q ≠ p → t.core q = s.core q) ∧ t.regs = s.regs ∧ t.mem = s.mem := by
  obtain ⟨d1, d2, d3⟩ := lsu_dest p op
  have hcp : (s.upCore p (fun c => { c with got := [] })).core p = { s.core p with got := [] } := core_upCore_self _ _ _
  obtain ⟨h1, h2, h3, h4, h5, h6, h7, h8', h9, h10, h11, h12, h13⟩ := id hr
  rw [hcp] at h2 h3 h4 h5 h7 h8' h9
  simp only at h2 h3 h4 h5 h7 h8'
  have hun : Unwatched s := by
    refine unwatched_of h13 rfl ?_
    intro q; rw [core_upCore]; split
    · next h => subst h; rfl
    · rfl
  set m : Move := { guard := g.val, src := srcOf src.toNat, slot := unitSlot (coreKind p) .lsu, dst := 0x900 + lsuCode op } with hm
  have ht : trigOf (coreKind p) m = some (.lsu op) := trigOf_dest d2
  have hg' : guardHolds (s.core p).g g.val = true := hg
  have hms : execMoves (s.core p) { moves := [m], lit := none, len := 4 } = [m] := by simp [execMoves, hm, hg']
  have hls : lsuOf (coreKind p) [m] = some (op, m.src) := by simp only [lsuOf, List.findSome?_cons, ht]
  have hq' : quOf (coreKind p) [m] = none := by simp only [quOf, List.findSome?_cons, ht, List.findSome?_nil]
  have hc' : cuOf (coreKind p) [m] = none := by simp only [cuOf, List.findSome?_cons, ht, List.findSome?_nil]
  have hnc : needsPriv (coreKind p) m = false := by unfold needsPriv; rw [show destOf (coreKind p) m.slot m.dst = .inr (.trig (.lsu op)) from d2]
  have hva : srcVal s p (cycleWord (s.core p)) m.src = a := hs.2.symm
  have hef : earlyFault s p [m] = none := by
    simp only [earlyFault, h4, Option.isSome_none, Bool.false_and, Bool.false_eq_true, if_false, List.find?_cons, hnc, Bool.and_false, List.find?_nil, hls, hva]
    rw [if_neg]
    rintro ⟨-, b⟩
    exact b hal
  have hmul : mulIn (coreKind p) [m] = false := by simp only [mulIn, List.any_cons, List.any_nil, ht, Bool.or_false]
  have hes : earlyStall s p [m] = none := by simp [earlyStall, h5, hmul, waitsEvent, hq', hc', deqWaits]
  have hpo : s.bit FLT.INJCTRL 16 = false := h12
  have hla : lookAhead s p { moves := [m], lit := none, len := 4 } [m] = (.len 0, s) := by simp [lookAhead, hc']
  have hmsrc : m.src ≠ .sock 0x210 := fun e => (hs.1 _ e).2 rfl
  have hac : ∀ x, lsuAccess s p op x (s.core p).opr[3] (s.core p).got = (.done [loadFlight op v], s) := by intro x; rw [hgot]; rfl
  have hlog : logsFill s.pair = false := h10
  have key : runBundle s p (unitBundle p .lsu (lsuCode op) g src) = countBundle (s.upCore p (fun c' => tickCore { c' with
      fly := [loadFlight op v], pc := (s.core p).pc + 4, prodAge := min 2 ((s.core p).prodAge + 1), got := [], resv := gotResv c'.got c'.resv })) p := by
    have hcm := commit_unit (b := { moves := [m], lit := none, len := 4 }) (lsu := [loadFlight op v]) (n := 0) (qf := []) hmsrc ht (by simp) rfl hva rfl h4 (by unfold pstatBit at h9 ⊢; exact h9) h8' rfl h5 h7 h2 rfl rfl hlog hun
    show runBundle s p { moves := [m], lit := none, len := 4 } = _
    unfold runBundle
    simp only [hms, hef, hes, hpo, Bool.and_false, Bool.false_and, Bool.false_eq_true, if_false, hla, hls]
    cases op <;> first | exact absurd rfl hop | (simp only [hac]; exact hcm)
  refine ⟨_, key, ?_, ?_, ?_, ?_⟩
  · rw [countBundle_core, core_upCore_self]
    unfold tickCore
    simp [hgot, gotResv, loadFlight]
  · intro q hq
    rw [countBundle_core, core_upCore, if_neg hq]
  · exact (countBundle_facts _ _).2.1
  · exact (countBundle_facts _ _).2.2

end Sys2Proof.Machine
end

