-- ==== Sys2Proof/Laws/Decoders.lean ====
section
/-! SUPPORT. The laws of soft decoding: a header whose soft bits say its message bits alone decodes to it whatever the ties (09 R220), and a
codeword of which one bit at most is known keeps its values (09 R229). -/
namespace Sys2Proof.Machine

/-- Soft bits of a Golay half that carry its message bits alone: they have one likeliest word, whatever the ties. -/
def sysSoft (h : Nat) : List Int := (List.range 12).map (fun i => if testB h i then -31 else 31) ++ List.replicate 12 0

/-- Soft bits of 0 add nothing. -/
theorem foldl_zeros (n : Nat) : ∀ (bs : List Bool) (a : Int), (List.zipWith (fun x b => if b then -x else x) (List.replicate n (0 : Int)) bs).foldl (fun a x => a + x) a = a := by
  induction n with
  | zero => exact fun _ _ => rfl
  | succ n ih => intro bs a; cases bs with
    | nil => rfl
    | cons b bs => cases b <;> simpa [List.replicate_succ] using ih bs a

/-- A word agrees with them by its message bits. -/
theorem sysSoft_score (h m : Nat) : agreement (sysSoft h) (golayWord m) = ((List.range 12).map (fun i => if testB m i = testB h i then (31 : Int) else -31)).foldl (fun a x => a + x) 0 := by
  rw [agreement, sysSoft, golayWord, List.zipWith_append (by simp), List.foldl_append, foldl_zeros]
  congr 1
  rw [List.zipWith_map, List.zipWith_self]
  exact List.map_congr_left fun i _ => by cases testB m i <;> cases testB h i <;> rfl

/-- Numbers of 12 bits with the same bits are equal. -/
theorem testB_ext {a b : Nat} (ha : a < 4096) (hb : b < 4096) (h : ∀ i < 12, testB a i = testB b i) : a = b := by
  have e : ∀ (n i : Nat), testB n i = n.testBit i := fun n i => by
    rw [Nat.testBit_eq_decide_div_mod_eq]; simp [testB, Nat.shiftRight_eq_div_pow, beq_eq_decide]
  apply Nat.eq_of_testBit_eq
  intro i
  by_cases hi : i < 12
  · rw [← e, ← e]; exact h i hi
  · have hp : (4096 : Nat) ≤ 2 ^ i := Nat.pow_le_pow_right (n := 2) (by decide) (show 12 ≤ i by omega)
    rw [Nat.testBit_lt_two_pow (Nat.lt_of_lt_of_le ha hp), Nat.testBit_lt_two_pow (Nat.lt_of_lt_of_le hb hp)]

/-- They decode to their word. -/
theorem sysSoft_best (tie h : Nat) (hh : h < 4096) : golayDecode tie (sysSoft h) = h := by
  let t := fun m i => if testB m i = testB h i then (31 : Int) else -31
  have ht : ∀ m i, t m i ≤ 31 ∧ (t m i = 31 → testB m i = testB h i) := fun m i => by simp only [t]; split <;> simp_all
  have hs : ∀ m, agreement (sysSoft h) (golayWord m) ≤ 372 ∧ (agreement (sysSoft h) (golayWord m) = 372 → ∀ i < 12, testB m i = testB h i) := by
    intro m
    have e : agreement (sysSoft h) (golayWord m) = ((List.range 12).map (t m)).foldl (fun a x => a + x) 0 := sysSoft_score h m
    simp [List.range_succ] at e
    have := ht m 0; have := ht m 1; have := ht m 2; have := ht m 3; have := ht m 4; have := ht m 5
    have := ht m 6; have := ht m 7; have := ht m 8; have := ht m 9; have := ht m 10; have := ht m 11
    refine ⟨by omega, fun e2 i hi => ?_⟩
    have h12 : i = 0 ∨ i = 1 ∨ i = 2 ∨ i = 3 ∨ i = 4 ∨ i = 5 ∨ i = 6 ∨ i = 7 ∨ i = 8 ∨ i = 9 ∨ i = 10 ∨ i = 11 := by omega
    rcases h12 with rfl | rfl | rfl | rfl | rfl | rfl | rfl | rfl | rfl | rfl | rfl | rfl <;> apply (ht m _).2 <;> omega
  have hh2 : agreement (sysSoft h) (golayWord h) = 372 := by rw [sysSoft_score]; simp only [if_true]; rfl
  have hb : bestOf ((List.range 4096).map (fun m => (agreement (sysSoft h) (golayWord m), m))) = [(372, h)] := by
    rw [bestOf, List.filter_map]
    have : (List.range 4096).filter ((fun x : Int × Nat => ((List.range 4096).map (fun m => (agreement (sysSoft h) (golayWord m), m))).all (fun y => decide (y.1 ≤ x.1))) ∘ fun m => (agreement (sysSoft h) (golayWord m), m))
        = (List.range 4096).filter (fun m => m == h) := by
      apply List.filter_congr
      intro m hm
      rw [List.mem_range] at hm
      rw [Bool.eq_iff_iff]
      simp only [Function.comp_apply, List.all_eq_true, List.mem_map, List.mem_range, decide_eq_true_eq, beq_iff_eq]
      constructor
      · intro q
        have r : agreement (sysSoft h) (golayWord h) ≤ agreement (sysSoft h) (golayWord m) := q _ ⟨h, hh, rfl⟩
        rw [hh2] at r
        exact testB_ext hm hh ((hs m).2 (Int.le_antisymm (hs m).1 r))
      · rintro rfl y ⟨k, _, rfl⟩
        simp only [hh2]; exact (hs k).1
    rw [this]
    have h1 : (List.range 4096).filter (fun m => m == h) = [h] := by
      rw [List.filter_beq, List.count_eq_one_of_mem List.nodup_range (List.mem_range.mpr hh)]; rfl
    simp [h1, hh2]
  simp [golayDecode, pickBest, hb, Nat.mod_one]

/-- The soft bits of a header. -/
def hdrSoft (h : Nat) : List Int := sysSoft (h % 4096) ++ sysSoft (h / 4096)

/-- They decode to their header. -/
theorem hdrSoft_decodes (tie h : Nat) (hh : h < 4096 * 4096) (hc : headerSoft (hdrSoft h) = hdrSoft h) : headerDecode tie (hdrSoft h) = h := by
  have hl : ∀ m, (sysSoft m).length = 24 := fun m => by simp [sysSoft]
  rw [headerDecode, hc]
  simp only [hdrSoft]
  rw [List.take_left' (hl _), List.drop_left' (hl _), sysSoft_best _ _ (by omega), sysSoft_best _ _ (by omega)]
  omega

/-- A check of which two bits at least bring nothing says nothing. -/
theorem quiet_message {alpha : Nat} {q : List Int} {k : Nat} (h : (0 : Int) ∈ q.eraseIdx k) : checkMessage alpha q k = 0 := by
  have hf : ∀ (l : List Int) (a : Nat), (0 : Int) ∈ l ∨ a = 0 → l.foldl (fun m x => min m x.natAbs) a = 0 := by
    intro l
    induction l with
    | nil => rintro a (h | h); exacts [absurd h List.not_mem_nil, h]
    | cons x l ih =>
      rintro a (h | h)
      · rcases List.mem_cons.mp h with rfl | h
        · exact ih _ (.inr (by simp))
        · exact ih _ (.inl h)
      · exact ih _ (.inr (by simp [h]))
  simp [checkMessage, hf _ _ (.inl h)]

/-- Such a check changes nothing. -/
theorem quiet_check {alpha : Nat} {ps : List Nat} {n : Nat} {v : List Int} {ms : List (List Int)} (hm : ms.getD n [] = ps.map (fun _ => 0))
    (hq : ∀ k < ps.length, (0 : Int) ∈ (ps.map (fun p => v.getD p 0)).eraseIdx k) : minSumCheck alpha ps n { value := v, msgs := ms } = { value := v, msgs := ms } := by
  have hqq : (List.range ps.length).map (fun k => v.getD (ps.getD k 0) 0 - (ps.map (fun _ => (0 : Int))).getD k 0) = ps.map (fun p => v.getD p 0) := by
    apply List.ext_getElem (by simp)
    intro i h1 h2
    simp at h1 h2 ⊢
    simp [h2]
  have hn : (List.range ps.length).map (checkMessage alpha (ps.map (fun p => v.getD p 0))) = ps.map (fun _ => 0) := by
    apply List.ext_getElem (by simp)
    intro i h1 h2
    simp at h1 ⊢
    exact quiet_message (hq i h1)
  simp only [minSumCheck, hm, hqq, hn, MinSum.mk.injEq]
  constructor
  · have : ∀ l : List Nat, (∀ k ∈ l, k < ps.length) → l.foldl (fun w k => w.set (ps.getD k 0) ((ps.map (fun p => v.getD p 0)).getD k 0 + (ps.map (fun _ => (0 : Int))).getD k 0)) v = v := by
      intro l
      induction l with
      | nil => exact fun _ => rfl
      | cons k l ih =>
        intro h
        have hk := h k (by simp)
        have e : v.set (ps.getD k 0) ((ps.map (fun p => v.getD p 0)).getD k 0 + (ps.map (fun _ => (0 : Int))).getD k 0) = v := by
          simp [hk]
          apply List.ext_getElem (by simp)
          intro i h1 h2
          simp [List.getElem_set]
          rintro rfl
          simp at h1; simp [h1]
        rw [List.foldl_cons, e]
        exact ih (fun x hx => h x (List.mem_cons_of_mem _ hx))
    exact this _ (fun k hk => List.mem_range.mp hk)
  · apply List.ext_getElem (by simp)
    intro i h1 h2
    rw [List.getElem_set]
    split
    · rename_i h; subst h; rw [← hm]; simp at h1; simp [h1]
    · rfl

/-- The values of a codeword of which nothing is known, or its first bit alone. -/
def quietStart (l : List Int) : MinSum := { value := codewordStart 0 0 l, msgs := (List.range 256).map (fun i => (checkBits 0 (i / 32) (i % 32)).map (fun _ => 0)) }

/-- The values such a codeword starts with. -/
theorem start_at {l : List Int} (hl : l.length ≤ 1) (p : Nat) : (codewordStart 0 0 l).getD p 0 = if p = 0 then llrOf l 0 else 0 := by
  have hz : ∀ i, i ≠ 0 → llrOf l i = 0 := fun i hi => by
    rw [llrOf, List.getD_eq_getElem?_getD, List.getElem?_eq_none (by omega)]; rfl
  rw [List.getD_eq_getElem?_getD]
  simp only [codewordStart, codeK, codeN, if_true, List.replicate_zero, List.append_nil, List.getElem?_append, List.length_map, List.length_range, List.getElem?_map]
  by_cases h0 : p = 0
  · subst h0; rfl
  · rw [if_neg h0]
    by_cases h1 : p < 256
    · simp [h1, hz p h0]
    · by_cases h2 : p - 256 < 256
      · simp [h1, h2, hz (256 + (p - 256)) (by omega)]
      · simp [h1, h2]

/-- The checks of the shortest code: each has two bits at least besides the first of the codeword. -/
theorem checks_wide : (List.range 256).all (fun n => (List.range (checkBits 0 (n / 32) (n % 32)).length).all (fun k =>
    ((checkBits 0 (n / 32) (n % 32)).eraseIdx k).any (fun p => p != 0))) = true := by decide +kernel

/-- One iteration leaves such a codeword as it is: its decoding is good when its checks are satisfied as they stand. -/
theorem quiet_decode {l : List Int} (hl : l.length ≤ 1) : (ldpcDecode 0 0 0 l).ok = (unsatisfied 0 (codewordStart 0 0 l) == 0) := by
  have hi : minSumIter 0 1 (quietStart l) = quietStart l := by
    rw [minSumIter]
    have : ∀ ns : List Nat, (∀ n ∈ ns, n < 256) → ns.foldl (fun d n => minSumCheck 1 (checkBits 0 (n / codeZ 0) (n % codeZ 0)) n d) (quietStart l) = quietStart l := by
      intro ns
      induction ns with
      | nil => exact fun _ => rfl
      | cons n ns ih =>
        intro h
        have hn := h n (by simp)
        rw [List.foldl_cons, show minSumCheck 1 (checkBits 0 (n / codeZ 0) (n % codeZ 0)) n (quietStart l) = quietStart l from ?_]
        · exact ih (fun x hx => h x (List.mem_cons_of_mem _ hx))
        · apply quiet_check
          · simp [hn, codeZ]
          · intro k hk
            have hw := List.all_eq_true.mp (List.all_eq_true.mp checks_wide n (List.mem_range.mpr hn)) k (List.mem_range.mpr hk)
            obtain ⟨p, hp, hp0⟩ := List.any_eq_true.mp hw
            rw [List.eraseIdx_map, List.mem_map]
            exact ⟨p, hp, by rw [start_at hl, if_neg (by simpa using hp0)]⟩
    exact this _ (fun n hn => List.mem_range.mp hn)
  show (minSumRun 0 1 0 false 1 0 257 0 (quietStart l)).ok = _
  rw [minSumRun]
  simp only [hi, Bool.false_eq_true, false_and, if_false, minSumRun]
  rfl

/-- The checks that its first bit leaves unsatisfied. -/
theorem unsatisfied_start {l : List Int} (hl : l.length ≤ 1) : unsatisfied 0 (codewordStart 0 0 l) = ((List.range 256).filter (fun n =>
    ((checkBits 0 (n / 32) (n % 32)).filter (fun p => hardBit (if p = 0 then llrOf l 0 else 0))).length % 2 == 1)).length := by
  simp only [unsatisfied, start_at hl]; rfl

end Sys2Proof.Machine
end

