-- ==== Sys2Proof/WellFormed.lean ====
section
/-! DEFINITION. Which commands are well formed: their operands name initiators, addresses and packets that the device has. -/
namespace Sys2Proof

/-- 01 R23: an assigned initiator id. -/
def initiatorOk (who : Nat) : Bool := decide (who < 0x12)

/-- 01 R19: an address of the 32-bit physical address space. -/
def addressOk (a : Nat) : Bool := decide (a < 2 ^ 32)

/-- 07 R163: an offset in the flash array. -/
def flashOffsetOk (f : Nat) : Bool := decide (f < 0x400000)

/-- 19 R466: the payload of a packet whose body is CMD, SEQ and at most 1,038 bytes. -/
def payloadOk (l : List Byte) : Bool := decide (l.length ≤ 1038)

/-- 06 R142: an access within one 8-byte word, at least one byte long. -/
def wordAccessOk (a : Nat) (d : Option (List Byte)) : Bool :=
  match d with
  | none => true
  | some bs => decide (0 < bs.length) && decide (a % 8 + bs.length ≤ 8)

/-- 06 R141: a read path that errs reaches a word of the channel. -/
def pathOk (p : DramPath) : Bool :=
  match p with
  | .misread l => decide (l < 0x03800000) && decide (l % 8 = 0)
  | _ => true

/-- 05 R110: frames named by tier, 0 to 4, and number. -/
def framesNamed (fs : List (Nat × Nat)) : Bool := fs.all (fun f => decide (f.1 < 5))

/-- Whether the operands of a command are well formed. -/
def Instr.wf : Instr → Bool
  | .registerWrite who a _ => initiatorOk who && addressOk a
  | .domainPowerUp _ => true
  | .domainPowerDown _ => true
  | .appdivWrite who _ => initiatorOk who
  | .vcoreSlewDone => true
  | .bundleExecute _ _ _ => true
  | .interruptEntry _ => true
  | .impreciseBusError _ => true
  | .unitResultWrite _ => true
  | .iterativeMulDone _ => true
  | .divideDone _ => true
  | .loadReturn _ _ _ _ _ => true
  | .fetchComplete _ _ _ _ _ => true
  | .writeBufferDrain _ _ => true
  | .aluAdd _ _ _ _ => true
  | .aluSub _ _ _ _ => true
  | .aluAnd _ _ _ _ => true
  | .aluOr _ _ _ _ => true
  | .aluXor _ _ _ _ => true
  | .aluEq _ _ _ _ => true
  | .aluLt _ _ _ _ => true
  | .aluLtu _ _ _ _ => true
  | .aluNe _ _ _ _ => true
  | .aluGe _ _ _ _ => true
  | .aluGeu _ _ _ _ => true
  | .aluMin _ _ _ _ => true
  | .aluMax _ _ _ _ => true
  | .aluMinu _ _ _ _ => true
  | .aluMaxu _ _ _ _ => true
  | .aluSxb _ _ _ _ => true
  | .aluSxh _ _ _ _ => true
  | .aluZxb _ _ _ _ => true
  | .aluZxh _ _ _ _ => true
  | .aluMul _ _ _ => true
  | .aluMulh _ _ _ => true
  | .mulMul _ _ _ => true
  | .mulMulh _ _ _ => true
  | .mulMulhu _ _ _ => true
  | .mulMac _ _ _ => true
  | .mulMacu _ _ _ => true
  | .mulAccw _ _ _ => true
  | .mulDiv _ _ _ => true
  | .mulDivu _ _ _ => true
  | .mulRem _ _ _ => true
  | .mulRemu _ _ _ => true
  | .shfSll _ _ _ => true
  | .shfSrl _ _ _ => true
  | .shfSra _ _ _ => true
  | .shfRor _ _ _ => true
  | .shfExt _ _ _ => true
  | .shfExts _ _ _ => true
  | .shfIns _ _ _ => true
  | .shfFsr _ _ _ => true
  | .shfClz _ _ _ => true
  | .shfPop _ _ _ => true
  | .shfRev _ _ _ => true
  | .shfBswap _ _ _ => true
  | .simdAddB _ _ _ => true
  | .simdSubB _ _ _ => true
  | .simdAddsB _ _ _ => true
  | .simdAddusB _ _ _ => true
  | .simdAvguB _ _ _ => true
  | .simdAbsdB _ _ _ => true
  | .simdSadB _ _ _ => true
  | .simdCmpeqB _ _ _ => true
  | .simdShufB _ _ _ => true
  | .simdAddH _ _ _ => true
  | .simdSubH _ _ _ => true
  | .simdAddsH _ _ _ => true
  | .simdSubsH _ _ _ => true
  | .simdMulH _ _ _ => true
  | .simdDotH _ _ _ => true
  | .simdMaxH _ _ _ => true
  | .simdMinH _ _ _ => true
  | .lsuLdW _ _ _ _ => true
  | .lsuLdH _ _ _ _ => true
  | .lsuLdHu _ _ _ _ => true
  | .lsuLdB _ _ _ _ => true
  | .lsuLdBu _ _ _ _ => true
  | .lsuLrW _ _ _ _ => true
  | .lsuStW _ _ _ => true
  | .lsuStH _ _ _ => true
  | .lsuStB _ _ _ => true
  | .lsuScW _ _ _ => true
  | .lsuFence _ _ _ => true
  | .quEnq _ _ _ => true
  | .quDeq _ _ _ => true
  | .quDeqnb _ _ _ => true
  | .quCnt _ _ _ => true
  | .quSig _ _ _ => true
  | .quWfe _ _ _ => true
  | .deqEntryArrives _ => true
  | .wfeWake _ => true
  | .cuJmp _ _ _ => true
  | .cuBr _ _ _ => true
  | .cuCall _ _ _ => true
  | .cuCallr _ _ _ => true
  | .cuRet _ _ _ => true
  | .cuLoop _ _ _ => true
  | .cuTrap _ _ _ => true
  | .cuEret _ _ _ => true
  | .cuWfe _ _ _ => true
  | .cuLimm _ _ _ => true
  | .lockstepCheckpoint => true
  | .lockstepMismatch => true
  | .lockstepRestoreDone => true
  | .lockstepReplayEnd => true
  | .backupDomainPor _ => true
  | .mainPor _ => true
  | .pinReset => true
  | .softwareReset who _ => initiatorOk who
  | .playerReset who _ _ => initiatorOk who
  | .playerHoldSet who _ _ => initiatorOk who
  | .playerHoldRelease who _ _ => initiatorOk who
  | .playerPowered _ => true
  | .bootSequencerStart _ _ _ _ _ => true
  | .clocksLocked => true
  | .romImageVerified _ => true
  | .bootselNext who _ => initiatorOk who
  | .recoveryUnlockWindowEnd => true
  | .healthStart who _ => initiatorOk who
  | .healthStop who _ => initiatorOk who
  | .healthDeadline _ => true
  | .healthGraceEnd => true
  | .phaseWrite who _ => initiatorOk who
  | .reqAlloc _ _ _ fs _ => framesNamed fs
  | .reqFree => true
  | .reqHint => true
  | .reqPin => true
  | .reqUnpin => true
  | .reqQuery => true
  | .reqSeal => true
  | .reqUnseal _ => true
  | .reqDone => true
  | .reqBadKind => true
  | .pageWalk who a _ _ => initiatorOk who && addressOk a
  | .migrationGo who _ _ => initiatorOk who
  | .migrationCopyDone _ => true
  | .migrationPassDone _ => true
  | .migrationFinalDone _ => true
  | .migstatRead who _ => initiatorOk who
  | .epochBoundary => true
  | .sweepDone => true
  | .stgFrozenClear who _ => initiatorOk who
  | .dispatcherRun => true
  | .dispatchEnable who _ => initiatorOk who
  | .stgTrigger _ => true
  | .trigqWrite who _ _ => initiatorOk who
  | .stgRunRead who _ => initiatorOk who
  | .queuePushEnqueue who _ _ => initiatorOk who
  | .queuePushRelease who _ _ => initiatorOk who
  | .queuePop who _ => initiatorOk who
  | .queueEnable who _ _ => initiatorOk who
  | .queueDisable who _ _ => initiatorOk who
  | .queueClear who _ _ => initiatorOk who
  | .queueClearDrops who _ _ => initiatorOk who
  | .dramTrainingDone _ => true
  | .dramAccess who a data p => initiatorOk who && addressOk a && wordAccessOk a data && pathOk p
  | .dramBackgroundFill => true
  | .patrolScrubRead p => pathOk p
  | .zqCalibration => true
  | .dqsOscRead _ => true
  | .dramSpeedSwitch who _ => initiatorOk who
  | .dramSpeedSwitchDone => true
  | .dramRetrain who _ => initiatorOk who
  | .dramRetrainDone _ => true
  | .dramPageTimerExpiry _ _ => true
  | .refreshDue _ _ => true
  | .refreshPullIn _ => true
  | .mr4Poll _ _ => true
  | .channel1Off who _ => initiatorOk who
  | .channel1On who _ => initiatorOk who
  | .diagRead who => initiatorOk who
  | .diagWrite who => initiatorOk who
  | .diagPoison who => initiatorOk who
  | .releaseResume who => initiatorOk who
  | .releaseScrub who => initiatorOk who
  | .scrubReleaseDone _ => true
  | .releaseReset who => initiatorOk who
  | .dmcAddrmapWrite who _ => initiatorOk who
  | .poisonqRead who => initiatorOk who
  | .cecountRead who => initiatorOk who
  | .flashProgram _ => true
  | .flashErase _ => true
  | .flashEpoch _ => true
  | .flashRetire _ => true
  | .flashBlankcheck => true
  | .flashAbort => true
  | .flashRelease _ => true
  | .progBurstDone _ _ => true
  | .erasePulseDone _ => true
  | .eraseSuspend => true
  | .eraseResume => true
  | .flashRead who f _ _ _ _ => initiatorOk who && flashOffsetOk f
  | .flashPrefetch => true
  | .flashJreadySet who _ => initiatorOk who
  | .flcEcccntRead who => initiatorOk who
  | .stallmaxRead who => initiatorOk who
  | .mramWritePerform => true
  | .mrcEcccntRead who => initiatorOk who
  | .demodEnable who _ _ => initiatorOk who
  | .demodDisable who _ _ => initiatorOk who
  | .preambleDetected _ _ _ => true
  | .syncFound _ _ => true
  | .syncWindowTimeout _ _ => true
  | .headerDecision _ _ => true
  | .payloadCaptured _ _ => true
  | .agcMeasurement _ _ _ => true
  | .rxcApply who _ => initiatorOk who
  | .rxcApplyPendingDone => true
  | .rxcSwitchDone => true
  | .receiverEnable who _ => initiatorOk who
  | .receiverDisable who _ => initiatorOk who
  | .receiverReturn => true
  | .tsloRead who _ => initiatorOk who
  | .rxcCnt0Read who _ => initiatorOk who
  | .rxcCnt1Read who _ => initiatorOk who
  | .rxcCnt2Read who _ => initiatorOk who
  | .agccntRead who => initiatorOk who
  | .codewordDecodeStart _ => true
  | .codewordDecodeDone _ => true
  | .altHypothesisStart => true
  | .viterbiDecode _ => true
  | .cwcntRead who => initiatorOk who
  | .frmcntRead who => initiatorOk who
  | .itersumRead who => initiatorOk who
  | .itermaxRead who => initiatorOk who
  | .hdrcntRead who => initiatorOk who
  | .latmaxRead who => initiatorOk who
  | .vitcntRead who => initiatorOk who
  | .txCommit => true
  | .txDeferEnd => true
  | .txDeferDeadline => true
  | .txSequenceStep _ => true
  | .txLastSymbol _ => true
  | .txLate => true
  | .synthLock _ => true
  | .synthLockTimeout => true
  | .synthLockLost => true
  | .vcoCalibrationDone => true
  | .rfeVcocal who _ => initiatorOk who
  | .txAbort who _ => initiatorOk who
  | .txDisable who _ => initiatorOk who
  | .tunerTrialStep _ => true
  | .tunerTrialJudge _ => true
  | .calPendingApply => true
  | .rtcTrimLearn _ _ => true
  | .txcCntRead who => initiatorOk who
  | .airtimeRead who => initiatorOk who
  | .maskstatRead who => initiatorOk who
  | .maskworstRead who => initiatorOk who
  | .tunestatRead who => initiatorOk who
  | .lnkFrameReceive => true
  | .micVerifyDone => true
  | .relayStart _ => true
  | .floorExpire => true
  | .lnkEnable who _ => initiatorOk who
  | .lnkDisable who _ => initiatorOk who
  | .ackenDisable who _ => initiatorOk who
  | .relayenDisable who _ => initiatorOk who
  | .extenEnable who _ => initiatorOk who
  | .extClearDone => true
  | .extenDisable who _ => initiatorOk who
  | .poolConfigWrite who _ _ => initiatorOk who
  | .cntrxRead who => initiatorOk who
  | .cntrejRead who => initiatorOk who
  | .cntsecRead who => initiatorOk who
  | .cntdropRead who => initiatorOk who
  | .cntackRead who => initiatorOk who
  | .cntrlyRead who => initiatorOk who
  | .cntrlydRead who => initiatorOk who
  | .cntovlRead who => initiatorOk who
  | .ntSourceChange => true
  | .ntAdjust who _ => initiatorOk who
  | .ntSet who _ => initiatorOk who
  | .slewDone => true
  | .backholdEnd => true
  | .ntRead who => initiatorOk who
  | .beaconWindowOpen => true
  | .beaconWindowClose => true
  | .searchStart => true
  | .searchWindowOpen => true
  | .searchWindowEnd => true
  | .trackerRoot who _ => initiatorOk who
  | .trackerDisable who _ => initiatorOk who
  | .trackerEnable who _ => initiatorOk who
  | .parentWrite who _ _ => initiatorOk who
  | .listenWindowOpen => true
  | .listenWindowClose => true
  | .announcedWindowOpen => true
  | .scheduleCycleBoundary => true
  | .schcntRead who => initiatorOk who
  | .cntbcnRead who => initiatorOk who
  | .hubRtcTrigger _ => true
  | .hubCueTrigger _ => true
  | .hubPinTrigger _ _ => true
  | .hubSwtrig who _ => initiatorOk who
  | .hubEnd => true
  | .hubPower => true
  | .hubWait => true
  | .hubTwb => true
  | .hubCsp => true
  | .hubAdc => true
  | .hubDsm => true
  | .hubPin => true
  | .hubCapture => true
  | .hubFilter => true
  | .hubCompare => true
  | .hubStore => true
  | .hubSignal => true
  | .hubBranch => true
  | .hubIllegalStep => true
  | .hubStepSkip => true
  | .hubResourceStepDone _ _ => true
  | .hubWaitEnd _ => true
  | .spwrOvercurrent _ => true
  | .sheetDisable who _ _ => initiatorOk who
  | .hubDisable who _ => initiatorOk who
  | .filterReset who _ _ => initiatorOk who
  | .filterConfigWrite who _ _ => initiatorOk who
  | .compareReset who _ _ => initiatorOk who
  | .shcntRead who _ => initiatorOk who
  | .cueProducerEvent _ _ => true
  | .pinEvent _ _ => true
  | .cueConsumerTake _ => true
  | .cueSoftwareSignal who _ _ => initiatorOk who
  | .logicCellClock _ => true
  | .logicCellReset who _ _ => initiatorOk who
  | .channelOwnerWrite who _ _ => initiatorOk who
  | .cellOwnerWrite who _ _ => initiatorOk who
  | .irqpendClear who _ _ => initiatorOk who
  | .ovrClear who _ _ => initiatorOk who
  | .timerCountTick _ => true
  | .deadTimeExpiry _ _ _ => true
  | .timerBreakPin _ => true
  | .timerBreakCue _ => true
  | .timerTrgStart _ => true
  | .timerTrgRestart _ => true
  | .timerTrgStop _ => true
  | .timerCaptureEdge _ _ _ => true
  | .timerPulseEdge _ _ _ => true
  | .timerEnable who _ _ => initiatorOk who
  | .timerDisable who _ _ => initiatorOk who
  | .timerCntWrite who _ _ => initiatorOk who
  | .timerImmediateWrite who _ _ _ => initiatorOk who
  | .timerModeChange who _ _ _ => initiatorOk who
  | .twbCmd who _ _ => initiatorOk who
  | .twbTransferDone _ _ _ _ => true
  | .twbArbitrationLost _ _ _ => true
  | .twbMisplacedCondition _ _ _ => true
  | .twbSclTimeout _ => true
  | .twbSdaTimeout _ => true
  | .twbRecover who _ _ => initiatorOk who
  | .twbRecoverDone _ _ => true
  | .twbTargetAddressed _ _ => true
  | .twbTargetByte _ _ => true
  | .twbTargetStop _ _ => true
  | .twbAttn who _ _ => initiatorOk who
  | .twbAttnDone _ _ => true
  | .twbTxdataWrite who _ _ => initiatorOk who
  | .twbRxdataRead who _ => initiatorOk who
  | .twbDisable who _ _ => initiatorOk who
  | .twbWakeDetect _ => true
  | .cspWakeDetect _ => true
  | .cspTxdataWrite who _ _ => initiatorOk who
  | .cspRxdataRead who _ => initiatorOk who
  | .cspMasterFrameDone _ _ => true
  | .cspSlaveFrameDone _ _ => true
  | .cspSelectRelease _ _ => true
  | .cspDisable who _ _ => initiatorOk who
  | .hwnTransactionStart _ => true
  | .hwnByteCommit _ => true
  | .hwnTransactionEnd _ => true
  | .hwnDisable who _ => initiatorOk who
  | .hwnAttnSet who _ => initiatorOk who
  | .otpProgOwner who _ => initiatorOk who
  | .otpRevoke who _ => initiatorOk who
  | .otpBurnOwned who _ => initiatorOk who
  | .otpBurnRetired who _ => initiatorOk who
  | .otpCommandDone _ => true
  | .keyGenerate who _ => initiatorOk who
  | .keyWrite who _ => initiatorOk who
  | .keyDerive who _ => initiatorOk who
  | .keyDelete who _ => initiatorOk who
  | .keySetattr who _ => initiatorOk who
  | .keyAttest who _ => initiatorOk who
  | .keySignid who _ => initiatorOk who
  | .keyRekey who _ => initiatorOk who
  | .keyCommandDone _ => true
  | .jobEcbEncrypt => true
  | .jobEcbDecrypt => true
  | .jobCtr => true
  | .jobCbcMac => true
  | .jobCmacGenerate => true
  | .jobCmacVerify => true
  | .jobCcmSeal => true
  | .jobCcmOpen => true
  | .cipherJobDone => true
  | .aesCntRead who => initiatorOk who
  | .aesAuthfailRead who => initiatorOk who
  | .aesMemerrRead who => initiatorOk who
  | .alarmSupplyGlitch _ => true
  | .alarmClockGlitch _ => true
  | .alarmTemperature _ => true
  | .alarmTamp _ => true
  | .pkaEcdsaSign who => initiatorOk who
  | .pkaEcdsaVerify who => initiatorOk who
  | .pkaEcdh who => initiatorOk who
  | .pkaKeygen who => initiatorOk who
  | .pkaPointCheck who => initiatorOk who
  | .pkaX25519 who => initiatorOk who
  | .pkaDone => true
  | .hshInit who _ => initiatorOk who
  | .hshFeedMemory who => initiatorOk who
  | .hshFeedLast who => initiatorOk who
  | .hshPushedLast who => initiatorOk who
  | .hshDataPush who _ => initiatorOk who
  | .hshDone => true
  | .rngRestart who => initiatorOk who
  | .rngReseed who => initiatorOk who
  | .rngDataRead who => initiatorOk who
  | .trngStartupDone => true
  | .trngHealthFail => true
  | .powerRequest who _ => initiatorOk who
  | .powerRequestCancel who _ => initiatorOk who
  | .powerCommit _ => true
  | .powerStateReached => true
  | .wakeEvent _ => true
  | .powerExitComplete => true
  | .dozeEnter => true
  | .dozeExit => true
  | .autoRestReturn => true
  | .vbatCheck _ _ => true
  | .backupSupplySwitch _ _ => true
  | .backupRetentionTrip => true
  | .rtcApply who _ => initiatorOk who
  | .rtcApplyTransfer => true
  | .rtcApplyCommit => true
  | .rtcSubsecRead who => initiatorOk who
  | .rtcAlarm _ => true
  | .rtcTrimUpdate _ => true
  | .oscStopDetect => true
  | .oscRestart => true
  | .osfClear who _ => initiatorOk who
  | .blackoutWake _ => true
  | .svcPacketReceive _ _ => true
  | .svcReplyDone => true
  | .svcRxfree who _ => initiatorOk who
  | .svcRateRevert => true
  | .svcCntRead who => initiatorOk who
  | .svcHello _ payload => payloadOk payload
  | .svcStatus _ payload => payloadOk payload
  | .svcLoad _ payload _ => payloadOk payload
  | .svcVerify _ payload => payloadOk payload
  | .svcActivateLive _ => true
  | .svcActivateReset _ => true
  | .svcProgress _ payload => payloadOk payload
  | .svcAbort _ payload => payloadOk payload
  | .svcAuth _ payload => payloadOk payload
  | .ownerLock _ payload => payloadOk payload
  | .ownerUnlock _ payload => payloadOk payload
  | .ownerSetminver _ payload => payloadOk payload
  | .ownerAddkey _ payload => payloadOk payload
  | .ownerRevoke _ payload => payloadOk payload
  | .ownerBurnOwned _ payload => payloadOk payload
  | .ownerRetire _ payload => payloadOk payload
  | .ownerDebugUnlock _ payload => payloadOk payload
  | .ownerRecoveryUnlock _ payload => payloadOk payload
  | .svcDbgrd => true
  | .svcDbgwr => true
  | .activateDrained => true
  | .activateDrainTimeout => true
  | .serviceReady => true
  | .serviceConfirm => true
  | .readyTimeout => true
  | .holdoverTimeout => true
  | .vcoreReg => true
  | .hfxoFail => true
  | .hfxoRestartTry _ => true
  | .watchdogKick who _ => initiatorOk who
  | .watchdogPreExpiry _ => true
  | .watchdogExpiry _ => true
  | .warmEntryDone => true
  | .pllUnlock _ => true
  | .pllRelock _ _ => true
  | .injectArm who _ => initiatorOk who
  | .curtainRecordClear who _ => initiatorOk who
  | .cecnt0Read who => initiatorOk who
  | .cecnt1Read who => initiatorOk who
  | .dbgHalt who _ => initiatorOk who
  | .dbgStep who _ => initiatorOk who
  | .pinConfigWrite who _ _ => initiatorOk who
  | .gpioOutset who _ _ => initiatorOk who
  | .gpioOutclr who _ _ => initiatorOk who
  | .announcedWindowClose => true
  | .twbBusFree _ => true
  | .cspSlaveSelect _ => true
  | .timerBreakRelease _ => true
  | .alarmConditionEnd _ => true
  | .svcGapTimeout => true

end Sys2Proof
end

