-- ==== Sys2Proof/Laws/PerInstr.lean ====
section
/-! SUPPORT. Command by command: a well-formed command that names an initiator names one that the device has (01 R23). -/
namespace Sys2Proof.Laws.WellFormed

/-- The initiator that a command names, if it names one. -/
def initiator : Instr → Option Nat
  | .registerWrite who _ _ => some who
  | .appdivWrite who _ => some who
  | .softwareReset who _ => some who
  | .playerReset who _ _ => some who
  | .playerHoldSet who _ _ => some who
  | .playerHoldRelease who _ _ => some who
  | .bootselNext who _ => some who
  | .healthStart who _ => some who
  | .healthStop who _ => some who
  | .phaseWrite who _ => some who
  | .pageWalk who _ _ _ => some who
  | .migrationGo who _ _ => some who
  | .migstatRead who _ => some who
  | .stgFrozenClear who _ => some who
  | .dispatchEnable who _ => some who
  | .trigqWrite who _ _ => some who
  | .stgRunRead who _ => some who
  | .queuePushEnqueue who _ _ => some who
  | .queuePushRelease who _ _ => some who
  | .queuePop who _ => some who
  | .queueEnable who _ _ => some who
  | .queueDisable who _ _ => some who
  | .queueClear who _ _ => some who
  | .queueClearDrops who _ _ => some who
  | .dramAccess who _ _ _ => some who
  | .dramSpeedSwitch who _ => some who
  | .dramRetrain who _ => some who
  | .channel1Off who _ => some who
  | .channel1On who _ => some who
  | .diagRead who => some who
  | .diagWrite who => some who
  | .diagPoison who => some who
  | .releaseResume who => some who
  | .releaseScrub who => some who
  | .releaseReset who => some who
  | .dmcAddrmapWrite who _ => some who
  | .poisonqRead who => some who
  | .cecountRead who => some who
  | .flashRead who _ _ _ _ _ => some who
  | .flashJreadySet who _ => some who
  | .flcEcccntRead who => some who
  | .stallmaxRead who => some who
  | .mrcEcccntRead who => some who
  | .demodEnable who _ _ => some who
  | .demodDisable who _ _ => some who
  | .rxcApply who _ => some who
  | .receiverEnable who _ => some who
  | .receiverDisable who _ => some who
  | .tsloRead who _ => some who
  | .rxcCnt0Read who _ => some who
  | .rxcCnt1Read who _ => some who
  | .rxcCnt2Read who _ => some who
  | .agccntRead who => some who
  | .cwcntRead who => some who
  | .frmcntRead who => some who
  | .itersumRead who => some who
  | .itermaxRead who => some who
  | .hdrcntRead who => some who
  | .latmaxRead who => some who
  | .vitcntRead who => some who
  | .rfeVcocal who _ => some who
  | .txAbort who _ => some who
  | .txDisable who _ => some who
  | .txcCntRead who => some who
  | .airtimeRead who => some who
  | .maskstatRead who => some who
  | .maskworstRead who => some who
  | .tunestatRead who => some who
  | .lnkEnable who _ => some who
  | .lnkDisable who _ => some who
  | .ackenDisable who _ => some who
  | .relayenDisable who _ => some who
  | .extenEnable who _ => some who
  | .extenDisable who _ => some who
  | .poolConfigWrite who _ _ => some who
  | .cntrxRead who => some who
  | .cntrejRead who => some who
  | .cntsecRead who => some who
  | .cntdropRead who => some who
  | .cntackRead who => some who
  | .cntrlyRead who => some who
  | .cntrlydRead who => some who
  | .cntovlRead who => some who
  | .ntAdjust who _ => some who
  | .ntSet who _ => some who
  | .ntRead who => some who
  | .trackerRoot who _ => some who
  | .trackerDisable who _ => some who
  | .trackerEnable who _ => some who
  | .parentWrite who _ _ => some who
  | .schcntRead who => some who
  | .cntbcnRead who => some who
  | .hubSwtrig who _ => some who
  | .sheetDisable who _ _ => some who
  | .hubDisable who _ => some who
  | .filterReset who _ _ => some who
  | .filterConfigWrite who _ _ => some who
  | .compareReset who _ _ => some who
  | .shcntRead who _ => some who
  | .cueSoftwareSignal who _ _ => some who
  | .logicCellReset who _ _ => some who
  | .channelOwnerWrite who _ _ => some who
  | .cellOwnerWrite who _ _ => some who
  | .irqpendClear who _ _ => some who
  | .ovrClear who _ _ => some who
  | .timerEnable who _ _ => some who
  | .timerDisable who _ _ => some who
  | .timerCntWrite who _ _ => some who
  | .timerImmediateWrite who _ _ _ => some who
  | .timerModeChange who _ _ _ => some who
  | .twbCmd who _ _ => some who
  | .twbRecover who _ _ => some who
  | .twbAttn who _ _ => some who
  | .twbTxdataWrite who _ _ => some who
  | .twbRxdataRead who _ => some who
  | .twbDisable who _ _ => some who
  | .cspTxdataWrite who _ _ => some who
  | .cspRxdataRead who _ => some who
  | .cspDisable who _ _ => some who
  | .hwnDisable who _ => some who
  | .hwnAttnSet who _ => some who
  | .otpProgOwner who _ => some who
  | .otpRevoke who _ => some who
  | .otpBurnOwned who _ => some who
  | .otpBurnRetired who _ => some who
  | .keyGenerate who _ => some who
  | .keyWrite who _ => some who
  | .keyDerive who _ => some who
  | .keyDelete who _ => some who
  | .keySetattr who _ => some who
  | .keyAttest who _ => some who
  | .keySignid who _ => some who
  | .keyRekey who _ => some who
  | .aesCntRead who => some who
  | .aesAuthfailRead who => some who
  | .aesMemerrRead who => some who
  | .pkaEcdsaSign who => some who
  | .pkaEcdsaVerify who => some who
  | .pkaEcdh who => some who
  | .pkaKeygen who => some who
  | .pkaPointCheck who => some who
  | .pkaX25519 who => some who
  | .hshInit who _ => some who
  | .hshFeedMemory who => some who
  | .hshFeedLast who => some who
  | .hshPushedLast who => some who
  | .hshDataPush who _ => some who
  | .rngRestart who => some who
  | .rngReseed who => some who
  | .rngDataRead who => some who
  | .powerRequest who _ => some who
  | .powerRequestCancel who _ => some who
  | .rtcApply who _ => some who
  | .rtcSubsecRead who => some who
  | .osfClear who _ => some who
  | .svcRxfree who _ => some who
  | .svcCntRead who => some who
  | .watchdogKick who _ => some who
  | .injectArm who _ => some who
  | .curtainRecordClear who _ => some who
  | .cecnt0Read who => some who
  | .cecnt1Read who => some who
  | .dbgHalt who _ => some who
  | .dbgStep who _ => some who
  | .pinConfigWrite who _ _ => some who
  | .gpioOutset who _ _ => some who
  | .gpioOutclr who _ _ => some who
  | _ => none

/-- The statement of the family. -/
def Statement (i : Instr) : Prop := i.wf = true → ∀ w, initiator i = some w → w < 0x12

/-- A command whose well-formedness begins with its initiator. -/
theorem of_initiator {w v : Nat} {b : Bool} (h : (initiatorOk w && b) = true) (e : some w = some v) : v < 0x12 := by
  cases e
  exact of_decide_eq_true (Bool.and_eq_true_iff.mp h).1

/-- A command whose well-formedness is that of its initiator. -/
theorem of_initiator_alone {w v : Nat} (h : initiatorOk w = true) (e : some w = some v) : v < 0x12 := by
  cases e
  exact of_decide_eq_true h

/-- A command that names no initiator. -/
theorem of_none {i : Instr} (h : initiator i = none) : Statement i := fun _ _ e => absurd (h.symm.trans e) nofun

theorem registerWrite (who : Nat) (a : Nat) (v : Word) : Statement (.registerWrite who a v) := fun h _ e => of_initiator h e
theorem domainPowerUp (d : Fin 28) : Statement (.domainPowerUp d) := of_none rfl
theorem domainPowerDown (d : Fin 28) : Statement (.domainPowerDown d) := of_none rfl
theorem appdivWrite (who : Nat) (v : Word) : Statement (.appdivWrite who v) := fun h _ e => of_initiator_alone h e
theorem vcoreSlewDone : Statement .vcoreSlewDone := of_none rfl
theorem bundleExecute (p : Fin 6) (f e : Ecc) : Statement (.bundleExecute p f e) := of_none rfl
theorem interruptEntry (p : Fin 6) : Statement (.interruptEntry p) := of_none rfl
theorem impreciseBusError (p : Fin 6) : Statement (.impreciseBusError p) := of_none rfl
theorem unitResultWrite (p : Fin 6) : Statement (.unitResultWrite p) := of_none rfl
theorem iterativeMulDone (p : Fin 6) : Statement (.iterativeMulDone p) := of_none rfl
theorem divideDone (p : Fin 6) : Statement (.divideDone p) := of_none rfl
theorem loadReturn (p : Fin 6) (e mirror : Ecc) (syn : BitVec 8) (wait : Nat) : Statement (.loadReturn p e mirror syn wait) := of_none rfl
theorem fetchComplete (p : Fin 6) (e mirror : Ecc) (syn : BitVec 8) (wait : Nat) : Statement (.fetchComplete p e mirror syn wait) := of_none rfl
theorem writeBufferDrain (p : Fin 6) (syn : BitVec 8) : Statement (.writeBufferDrain p syn) := of_none rfl
theorem aluAdd (p : Fin 6) (alu1 : Bool) (g : Fin 8) (src : BitVec 13) : Statement (.aluAdd p alu1 g src) := of_none rfl
theorem aluSub (p : Fin 6) (alu1 : Bool) (g : Fin 8) (src : BitVec 13) : Statement (.aluSub p alu1 g src) := of_none rfl
theorem aluAnd (p : Fin 6) (alu1 : Bool) (g : Fin 8) (src : BitVec 13) : Statement (.aluAnd p alu1 g src) := of_none rfl
theorem aluOr (p : Fin 6) (alu1 : Bool) (g : Fin 8) (src : BitVec 13) : Statement (.aluOr p alu1 g src) := of_none rfl
theorem aluXor (p : Fin 6) (alu1 : Bool) (g : Fin 8) (src : BitVec 13) : Statement (.aluXor p alu1 g src) := of_none rfl
theorem aluEq (p : Fin 6) (alu1 : Bool) (g : Fin 8) (src : BitVec 13) : Statement (.aluEq p alu1 g src) := of_none rfl
theorem aluLt (p : Fin 6) (alu1 : Bool) (g : Fin 8) (src : BitVec 13) : Statement (.aluLt p alu1 g src) := of_none rfl
theorem aluLtu (p : Fin 6) (alu1 : Bool) (g : Fin 8) (src : BitVec 13) : Statement (.aluLtu p alu1 g src) := of_none rfl
theorem aluNe (p : Fin 6) (alu1 : Bool) (g : Fin 8) (src : BitVec 13) : Statement (.aluNe p alu1 g src) := of_none rfl
theorem aluGe (p : Fin 6) (alu1 : Bool) (g : Fin 8) (src : BitVec 13) : Statement (.aluGe p alu1 g src) := of_none rfl
theorem aluGeu (p : Fin 6) (alu1 : Bool) (g : Fin 8) (src : BitVec 13) : Statement (.aluGeu p alu1 g src) := of_none rfl
theorem aluMin (p : Fin 6) (alu1 : Bool) (g : Fin 8) (src : BitVec 13) : Statement (.aluMin p alu1 g src) := of_none rfl
theorem aluMax (p : Fin 6) (alu1 : Bool) (g : Fin 8) (src : BitVec 13) : Statement (.aluMax p alu1 g src) := of_none rfl
theorem aluMinu (p : Fin 6) (alu1 : Bool) (g : Fin 8) (src : BitVec 13) : Statement (.aluMinu p alu1 g src) := of_none rfl
theorem aluMaxu (p : Fin 6) (alu1 : Bool) (g : Fin 8) (src : BitVec 13) : Statement (.aluMaxu p alu1 g src) := of_none rfl
theorem aluSxb (p : Fin 6) (alu1 : Bool) (g : Fin 8) (src : BitVec 13) : Statement (.aluSxb p alu1 g src) := of_none rfl
theorem aluSxh (p : Fin 6) (alu1 : Bool) (g : Fin 8) (src : BitVec 13) : Statement (.aluSxh p alu1 g src) := of_none rfl
theorem aluZxb (p : Fin 6) (alu1 : Bool) (g : Fin 8) (src : BitVec 13) : Statement (.aluZxb p alu1 g src) := of_none rfl
theorem aluZxh (p : Fin 6) (alu1 : Bool) (g : Fin 8) (src : BitVec 13) : Statement (.aluZxh p alu1 g src) := of_none rfl
theorem aluMul (p : Fin 6) (g : Fin 8) (src : BitVec 13) : Statement (.aluMul p g src) := of_none rfl
theorem aluMulh (p : Fin 6) (g : Fin 8) (src : BitVec 13) : Statement (.aluMulh p g src) := of_none rfl
theorem mulMul (p : Fin 6) (g : Fin 8) (src : BitVec 13) : Statement (.mulMul p g src) := of_none rfl
theorem mulMulh (p : Fin 6) (g : Fin 8) (src : BitVec 13) : Statement (.mulMulh p g src) := of_none rfl
theorem mulMulhu (p : Fin 6) (g : Fin 8) (src : BitVec 13) : Statement (.mulMulhu p g src) := of_none rfl
theorem mulMac (p : Fin 6) (g : Fin 8) (src : BitVec 13) : Statement (.mulMac p g src) := of_none rfl
theorem mulMacu (p : Fin 6) (g : Fin 8) (src : BitVec 13) : Statement (.mulMacu p g src) := of_none rfl
theorem mulAccw (p : Fin 6) (g : Fin 8) (src : BitVec 13) : Statement (.mulAccw p g src) := of_none rfl
theorem mulDiv (p : Fin 6) (g : Fin 8) (src : BitVec 13) : Statement (.mulDiv p g src) := of_none rfl
theorem mulDivu (p : Fin 6) (g : Fin 8) (src : BitVec 13) : Statement (.mulDivu p g src) := of_none rfl
theorem mulRem (p : Fin 6) (g : Fin 8) (src : BitVec 13) : Statement (.mulRem p g src) := of_none rfl
theorem mulRemu (p : Fin 6) (g : Fin 8) (src : BitVec 13) : Statement (.mulRemu p g src) := of_none rfl
theorem shfSll (p : Fin 6) (g : Fin 8) (src : BitVec 13) : Statement (.shfSll p g src) := of_none rfl
theorem shfSrl (p : Fin 6) (g : Fin 8) (src : BitVec 13) : Statement (.shfSrl p g src) := of_none rfl
theorem shfSra (p : Fin 6) (g : Fin 8) (src : BitVec 13) : Statement (.shfSra p g src) := of_none rfl
theorem shfRor (p : Fin 6) (g : Fin 8) (src : BitVec 13) : Statement (.shfRor p g src) := of_none rfl
theorem shfExt (p : Fin 6) (g : Fin 8) (src : BitVec 13) : Statement (.shfExt p g src) := of_none rfl
theorem shfExts (p : Fin 6) (g : Fin 8) (src : BitVec 13) : Statement (.shfExts p g src) := of_none rfl
theorem shfIns (p : Fin 6) (g : Fin 8) (src : BitVec 13) : Statement (.shfIns p g src) := of_none rfl
theorem shfFsr (p : Fin 6) (g : Fin 8) (src : BitVec 13) : Statement (.shfFsr p g src) := of_none rfl
theorem shfClz (p : Fin 6) (g : Fin 8) (src : BitVec 13) : Statement (.shfClz p g src) := of_none rfl
theorem shfPop (p : Fin 6) (g : Fin 8) (src : BitVec 13) : Statement (.shfPop p g src) := of_none rfl
theorem shfRev (p : Fin 6) (g : Fin 8) (src : BitVec 13) : Statement (.shfRev p g src) := of_none rfl
theorem shfBswap (p : Fin 6) (g : Fin 8) (src : BitVec 13) : Statement (.shfBswap p g src) := of_none rfl
theorem simdAddB (p : Fin 6) (g : Fin 8) (src : BitVec 13) : Statement (.simdAddB p g src) := of_none rfl
theorem simdSubB (p : Fin 6) (g : Fin 8) (src : BitVec 13) : Statement (.simdSubB p g src) := of_none rfl
theorem simdAddsB (p : Fin 6) (g : Fin 8) (src : BitVec 13) : Statement (.simdAddsB p g src) := of_none rfl
theorem simdAddusB (p : Fin 6) (g : Fin 8) (src : BitVec 13) : Statement (.simdAddusB p g src) := of_none rfl
theorem simdAvguB (p : Fin 6) (g : Fin 8) (src : BitVec 13) : Statement (.simdAvguB p g src) := of_none rfl
theorem simdAbsdB (p : Fin 6) (g : Fin 8) (src : BitVec 13) : Statement (.simdAbsdB p g src) := of_none rfl
theorem simdSadB (p : Fin 6) (g : Fin 8) (src : BitVec 13) : Statement (.simdSadB p g src) := of_none rfl
theorem simdCmpeqB (p : Fin 6) (g : Fin 8) (src : BitVec 13) : Statement (.simdCmpeqB p g src) := of_none rfl
theorem simdShufB (p : Fin 6) (g : Fin 8) (src : BitVec 13) : Statement (.simdShufB p g src) := of_none rfl
theorem simdAddH (p : Fin 6) (g : Fin 8) (src : BitVec 13) : Statement (.simdAddH p g src) := of_none rfl
theorem simdSubH (p : Fin 6) (g : Fin 8) (src : BitVec 13) : Statement (.simdSubH p g src) := of_none rfl
theorem simdAddsH (p : Fin 6) (g : Fin 8) (src : BitVec 13) : Statement (.simdAddsH p g src) := of_none rfl
theorem simdSubsH (p : Fin 6) (g : Fin 8) (src : BitVec 13) : Statement (.simdSubsH p g src) := of_none rfl
theorem simdMulH (p : Fin 6) (g : Fin 8) (src : BitVec 13) : Statement (.simdMulH p g src) := of_none rfl
theorem simdDotH (p : Fin 6) (g : Fin 8) (src : BitVec 13) : Statement (.simdDotH p g src) := of_none rfl
theorem simdMaxH (p : Fin 6) (g : Fin 8) (src : BitVec 13) : Statement (.simdMaxH p g src) := of_none rfl
theorem simdMinH (p : Fin 6) (g : Fin 8) (src : BitVec 13) : Statement (.simdMinH p g src) := of_none rfl
theorem lsuLdW (p : Fin 6) (g : Fin 8) (src : BitVec 13) (e : Ecc) : Statement (.lsuLdW p g src e) := of_none rfl
theorem lsuLdH (p : Fin 6) (g : Fin 8) (src : BitVec 13) (e : Ecc) : Statement (.lsuLdH p g src e) := of_none rfl
theorem lsuLdHu (p : Fin 6) (g : Fin 8) (src : BitVec 13) (e : Ecc) : Statement (.lsuLdHu p g src e) := of_none rfl
theorem lsuLdB (p : Fin 6) (g : Fin 8) (src : BitVec 13) (e : Ecc) : Statement (.lsuLdB p g src e) := of_none rfl
theorem lsuLdBu (p : Fin 6) (g : Fin 8) (src : BitVec 13) (e : Ecc) : Statement (.lsuLdBu p g src e) := of_none rfl
theorem lsuLrW (p : Fin 6) (g : Fin 8) (src : BitVec 13) (e : Ecc) : Statement (.lsuLrW p g src e) := of_none rfl
theorem lsuStW (p : Fin 6) (g : Fin 8) (src : BitVec 13) : Statement (.lsuStW p g src) := of_none rfl
theorem lsuStH (p : Fin 6) (g : Fin 8) (src : BitVec 13) : Statement (.lsuStH p g src) := of_none rfl
theorem lsuStB (p : Fin 6) (g : Fin 8) (src : BitVec 13) : Statement (.lsuStB p g src) := of_none rfl
theorem lsuScW (p : Fin 6) (g : Fin 8) (src : BitVec 13) : Statement (.lsuScW p g src) := of_none rfl
theorem lsuFence (p : Fin 6) (g : Fin 8) (src : BitVec 13) : Statement (.lsuFence p g src) := of_none rfl
theorem quEnq (p : Fin 6) (g : Fin 8) (src : BitVec 13) : Statement (.quEnq p g src) := of_none rfl
theorem quDeq (p : Fin 6) (g : Fin 8) (src : BitVec 13) : Statement (.quDeq p g src) := of_none rfl
theorem quDeqnb (p : Fin 6) (g : Fin 8) (src : BitVec 13) : Statement (.quDeqnb p g src) := of_none rfl
theorem quCnt (p : Fin 6) (g : Fin 8) (src : BitVec 13) : Statement (.quCnt p g src) := of_none rfl
theorem quSig (p : Fin 6) (g : Fin 8) (src : BitVec 13) : Statement (.quSig p g src) := of_none rfl
theorem quWfe (p : Fin 6) (g : Fin 8) (src : BitVec 13) : Statement (.quWfe p g src) := of_none rfl
theorem deqEntryArrives (q : Fin 128) : Statement (.deqEntryArrives q) := of_none rfl
theorem wfeWake (p : Fin 6) : Statement (.wfeWake p) := of_none rfl
theorem cuJmp (p : Fin 6) (g : Fin 8) (src : BitVec 13) : Statement (.cuJmp p g src) := of_none rfl
theorem cuBr (p : Fin 6) (g : Fin 8) (src : BitVec 13) : Statement (.cuBr p g src) := of_none rfl
theorem cuCall (p : Fin 6) (g : Fin 8) (src : BitVec 13) : Statement (.cuCall p g src) := of_none rfl
theorem cuCallr (p : Fin 6) (g : Fin 8) (src : BitVec 13) : Statement (.cuCallr p g src) := of_none rfl
theorem cuRet (p : Fin 6) (g : Fin 8) (src : BitVec 13) : Statement (.cuRet p g src) := of_none rfl
theorem cuLoop (p : Fin 6) (g : Fin 8) (src : BitVec 13) : Statement (.cuLoop p g src) := of_none rfl
theorem cuTrap (p : Fin 6) (g : Fin 8) (src : BitVec 13) : Statement (.cuTrap p g src) := of_none rfl
theorem cuEret (p : Fin 6) (g : Fin 8) (src : BitVec 13) : Statement (.cuEret p g src) := of_none rfl
theorem cuWfe (p : Fin 6) (g : Fin 8) (src : BitVec 13) : Statement (.cuWfe p g src) := of_none rfl
theorem cuLimm (p : Fin 6) (g : Fin 8) (lit : Word) : Statement (.cuLimm p g lit) := of_none rfl
theorem lockstepCheckpoint : Statement .lockstepCheckpoint := of_none rfl
theorem lockstepMismatch : Statement .lockstepMismatch := of_none rfl
theorem lockstepRestoreDone : Statement .lockstepRestoreDone := of_none rfl
theorem lockstepReplayEnd : Statement .lockstepReplayEnd := of_none rfl
theorem backupDomainPor (pwrDef : Bool) : Statement (.backupDomainPor pwrDef) := of_none rfl
theorem mainPor (brownout : Bool) : Statement (.mainPor brownout) := of_none rfl
theorem pinReset : Statement .pinReset := of_none rfl
theorem softwareReset (who : Nat) (v : Word) : Statement (.softwareReset who v) := fun h _ e => of_initiator_alone h e
theorem playerReset (who : Nat) (n : Fin 5) (v : Word) : Statement (.playerReset who n v) := fun h _ e => of_initiator_alone h e
theorem playerHoldSet (who : Nat) (n : Fin 5) (v : Word) : Statement (.playerHoldSet who n v) := fun h _ e => of_initiator_alone h e
theorem playerHoldRelease (who : Nat) (n : Fin 5) (v : Word) : Statement (.playerHoldRelease who n v) := fun h _ e => of_initiator_alone h e
theorem playerPowered (n : Fin 4) : Statement (.playerPowered n) := of_none rfl
theorem bootSequencerStart (svcReq : Bool) (eui : BitVec 64) (trialLim : Fin 4) (tampEn tampPol : Bool) : Statement (.bootSequencerStart svcReq eui trialLim tampEn tampPol) := of_none rfl
theorem clocksLocked : Statement .clocksLocked := of_none rfl
theorem romImageVerified (burnOk : Bool) : Statement (.romImageVerified burnOk) := of_none rfl
theorem bootselNext (who : Nat) (v : Word) : Statement (.bootselNext who v) := fun h _ e => of_initiator_alone h e
theorem recoveryUnlockWindowEnd : Statement .recoveryUnlockWindowEnd := of_none rfl
theorem healthStart (who : Nat) (v : Word) : Statement (.healthStart who v) := fun h _ e => of_initiator_alone h e
theorem healthStop (who : Nat) (v : Word) : Statement (.healthStop who v) := fun h _ e => of_initiator_alone h e
theorem healthDeadline (served : Bool) : Statement (.healthDeadline served) := of_none rfl
theorem healthGraceEnd : Statement .healthGraceEnd := of_none rfl
theorem phaseWrite (who : Nat) (v : Word) : Statement (.phaseWrite who v) := fun h _ e => of_initiator_alone h e
theorem reqAlloc (base index acl : Nat) (fs tables : List (Nat × Nat)) : Statement (.reqAlloc base index acl fs tables) := of_none rfl
theorem reqFree : Statement .reqFree := of_none rfl
theorem reqHint : Statement .reqHint := of_none rfl
theorem reqPin : Statement .reqPin := of_none rfl
theorem reqUnpin : Statement .reqUnpin := of_none rfl
theorem reqQuery : Statement .reqQuery := of_none rfl
theorem reqSeal : Statement .reqSeal := of_none rfl
theorem reqUnseal (fs : List Nat) : Statement (.reqUnseal fs) := of_none rfl
theorem reqDone : Statement .reqDone := of_none rfl
theorem reqBadKind : Statement .reqBadKind := of_none rfl
theorem pageWalk (who a : Nat) (write : Bool) (ecc : Ecc) : Statement (.pageWalk who a write ecc) := fun h _ e => of_initiator h e
theorem migrationGo (who : Nat) (c : Fin 2) (v : Word) : Statement (.migrationGo who c v) := fun h _ e => of_initiator_alone h e
theorem migrationCopyDone (c : Fin 2) : Statement (.migrationCopyDone c) := of_none rfl
theorem migrationPassDone (c : Fin 2) : Statement (.migrationPassDone c) := of_none rfl
theorem migrationFinalDone (c : Fin 2) : Statement (.migrationFinalDone c) := of_none rfl
theorem migstatRead (who : Nat) (c : Fin 2) : Statement (.migstatRead who c) := fun h _ e => of_initiator_alone h e
theorem epochBoundary : Statement .epochBoundary := of_none rfl
theorem sweepDone : Statement .sweepDone := of_none rfl
theorem stgFrozenClear (who : Nat) (v : Word) : Statement (.stgFrozenClear who v) := fun h _ e => of_initiator_alone h e
theorem dispatcherRun : Statement .dispatcherRun := of_none rfl
theorem dispatchEnable (who : Nat) (v : Word) : Statement (.dispatchEnable who v) := fun h _ e => of_initiator_alone h e
theorem stgTrigger (k : Fin 16) : Statement (.stgTrigger k) := of_none rfl
theorem trigqWrite (who : Nat) (k : Fin 16) (v : Word) : Statement (.trigqWrite who k v) := fun h _ e => of_initiator_alone h e
theorem stgRunRead (who : Nat) (n : Fin 4) : Statement (.stgRunRead who n) := fun h _ e => of_initiator_alone h e
theorem queuePushEnqueue (who : Nat) (q : Fin 128) (v : Word) : Statement (.queuePushEnqueue who q v) := fun h _ e => of_initiator_alone h e
theorem queuePushRelease (who : Nat) (q : Fin 128) (v : Word) : Statement (.queuePushRelease who q v) := fun h _ e => of_initiator_alone h e
theorem queuePop (who : Nat) (q : Fin 128) : Statement (.queuePop who q) := fun h _ e => of_initiator_alone h e
theorem queueEnable (who : Nat) (q : Fin 128) (v : Word) : Statement (.queueEnable who q v) := fun h _ e => of_initiator_alone h e
theorem queueDisable (who : Nat) (q : Fin 128) (v : Word) : Statement (.queueDisable who q v) := fun h _ e => of_initiator_alone h e
theorem queueClear (who : Nat) (q : Fin 128) (v : Word) : Statement (.queueClear who q v) := fun h _ e => of_initiator_alone h e
theorem queueClearDrops (who : Nat) (q : Fin 128) (v : Word) : Statement (.queueClearDrops who q v) := fun h _ e => of_initiator_alone h e
theorem dramTrainingDone (failStep : Fin 6) : Statement (.dramTrainingDone failStep) := of_none rfl
theorem dramAccess (who : Nat) (a : Nat) (data : Option (List Byte)) (path : DramPath) : Statement (.dramAccess who a data path) := fun h _ e =>
  of_initiator (((Bool.and_assoc _ _ _).symm.trans (Bool.and_assoc _ _ _).symm).trans h) e
theorem dramBackgroundFill : Statement .dramBackgroundFill := of_none rfl
theorem patrolScrubRead (path : DramPath) : Statement (.patrolScrubRead path) := of_none rfl
theorem zqCalibration : Statement .zqCalibration := of_none rfl
theorem dqsOscRead (drift : BitVec 16) : Statement (.dqsOscRead drift) := of_none rfl
theorem dramSpeedSwitch (who : Nat) (v : Word) : Statement (.dramSpeedSwitch who v) := fun h _ e => of_initiator_alone h e
theorem dramSpeedSwitchDone : Statement .dramSpeedSwitchDone := of_none rfl
theorem dramRetrain (who : Nat) (v : Word) : Statement (.dramRetrain who v) := fun h _ e => of_initiator_alone h e
theorem dramRetrainDone (failStep : Fin 6) : Statement (.dramRetrainDone failStep) := of_none rfl
theorem dramPageTimerExpiry (c : Fin 2) (bank : Fin 8) : Statement (.dramPageTimerExpiry c bank) := of_none rfl
theorem refreshDue (c : Fin 2) (idle : Bool) : Statement (.refreshDue c idle) := of_none rfl
theorem refreshPullIn (c : Fin 2) : Statement (.refreshPullIn c) := of_none rfl
theorem mr4Poll (code0 code1 : Fin 8) : Statement (.mr4Poll code0 code1) := of_none rfl
theorem channel1Off (who : Nat) (v : Word) : Statement (.channel1Off who v) := fun h _ e => of_initiator_alone h e
theorem channel1On (who : Nat) (v : Word) : Statement (.channel1On who v) := fun h _ e => of_initiator_alone h e
theorem diagRead (who : Nat) : Statement (.diagRead who) := fun h _ e => of_initiator_alone h e
theorem diagWrite (who : Nat) : Statement (.diagWrite who) := fun h _ e => of_initiator_alone h e
theorem diagPoison (who : Nat) : Statement (.diagPoison who) := fun h _ e => of_initiator_alone h e
theorem releaseResume (who : Nat) : Statement (.releaseResume who) := fun h _ e => of_initiator_alone h e
theorem releaseScrub (who : Nat) : Statement (.releaseScrub who) := fun h _ e => of_initiator_alone h e
theorem scrubReleaseDone (bad : List Nat) : Statement (.scrubReleaseDone bad) := of_none rfl
theorem releaseReset (who : Nat) : Statement (.releaseReset who) := fun h _ e => of_initiator_alone h e
theorem dmcAddrmapWrite (who : Nat) (v : Word) : Statement (.dmcAddrmapWrite who v) := fun h _ e => of_initiator_alone h e
theorem poisonqRead (who : Nat) : Statement (.poisonqRead who) := fun h _ e => of_initiator_alone h e
theorem cecountRead (who : Nat) : Statement (.cecountRead who) := fun h _ e => of_initiator_alone h e
theorem flashProgram (env : FlashEnv) : Statement (.flashProgram env) := of_none rfl
theorem flashErase (env : FlashEnv) : Statement (.flashErase env) := of_none rfl
theorem flashEpoch (env : FlashEnv) : Statement (.flashEpoch env) := of_none rfl
theorem flashRetire (env : FlashEnv) : Statement (.flashRetire env) := of_none rfl
theorem flashBlankcheck : Statement .flashBlankcheck := of_none rfl
theorem flashAbort : Statement .flashAbort := of_none rfl
theorem flashRelease (env : FlashEnv) : Statement (.flashRelease env) := of_none rfl
theorem progBurstDone (ok : Bool) (differs : Option Nat) : Statement (.progBurstDone ok differs) := of_none rfl
theorem erasePulseDone (verified : Bool) : Statement (.erasePulseDone verified) := of_none rfl
theorem eraseSuspend : Statement .eraseSuspend := of_none rfl
theorem eraseResume : Statement .eraseResume := of_none rfl
theorem flashRead (who f : Nat) (fetch : Bool) (e mirror : Ecc) (wait : Nat) : Statement (.flashRead who f fetch e mirror wait) := fun h _ e => of_initiator h e
theorem flashPrefetch : Statement .flashPrefetch := of_none rfl
theorem flashJreadySet (who : Nat) (v : Word) : Statement (.flashJreadySet who v) := fun h _ e => of_initiator_alone h e
theorem flcEcccntRead (who : Nat) : Statement (.flcEcccntRead who) := fun h _ e => of_initiator_alone h e
theorem stallmaxRead (who : Nat) : Statement (.stallmaxRead who) := fun h _ e => of_initiator_alone h e
theorem mramWritePerform : Statement .mramWritePerform := of_none rfl
theorem mrcEcccntRead (who : Nat) : Statement (.mrcEcccntRead who) := fun h _ e => of_initiator_alone h e
theorem demodEnable (who : Nat) (n : Fin 64) (v : Word) : Statement (.demodEnable who n v) := fun h _ e => of_initiator_alone h e
theorem demodDisable (who : Nat) (n : Fin 64) (v : Word) : Statement (.demodDisable who n v) := fun h _ e => of_initiator_alone h e
theorem preambleDetected (n : Fin 64) (corr : Nat) (dgain : BitVec 8) : Statement (.preambleDetected n corr dgain) := of_none rfl
theorem syncFound (n : Fin 64) (x : SyncMeas) : Statement (.syncFound n x) := of_none rfl
theorem syncWindowTimeout (n : Fin 64) (symbols : Nat) : Statement (.syncWindowTimeout n symbols) := of_none rfl
theorem headerDecision (n : Fin 64) (soft : List Int) : Statement (.headerDecision n soft) := of_none rfl
theorem payloadCaptured (n : Fin 64) (rest : List (List (List Int))) : Statement (.payloadCaptured n rest) := of_none rfl
theorem agcMeasurement (power : Int) (overloads : Nat) (now : List (Fin 64 × Fin 341)) : Statement (.agcMeasurement power overloads now) := of_none rfl
theorem rxcApply (who : Nat) (v : Word) : Statement (.rxcApply who v) := fun h _ e => of_initiator_alone h e
theorem rxcApplyPendingDone : Statement .rxcApplyPendingDone := of_none rfl
theorem rxcSwitchDone : Statement .rxcSwitchDone := of_none rfl
theorem receiverEnable (who : Nat) (v : Word) : Statement (.receiverEnable who v) := fun h _ e => of_initiator_alone h e
theorem receiverDisable (who : Nat) (v : Word) : Statement (.receiverDisable who v) := fun h _ e => of_initiator_alone h e
theorem receiverReturn : Statement .receiverReturn := of_none rfl
theorem tsloRead (who : Nat) (n : Fin 64) : Statement (.tsloRead who n) := fun h _ e => of_initiator_alone h e
theorem rxcCnt0Read (who : Nat) (n : Fin 64) : Statement (.rxcCnt0Read who n) := fun h _ e => of_initiator_alone h e
theorem rxcCnt1Read (who : Nat) (n : Fin 64) : Statement (.rxcCnt1Read who n) := fun h _ e => of_initiator_alone h e
theorem rxcCnt2Read (who : Nat) (n : Fin 64) : Statement (.rxcCnt2Read who n) := fun h _ e => of_initiator_alone h e
theorem agccntRead (who : Nat) : Statement (.agccntRead who) := fun h _ e => of_initiator_alone h e
theorem codewordDecodeStart (captured : List Captured) : Statement (.codewordDecodeStart captured) := of_none rfl
theorem codewordDecodeDone (us : Nat) : Statement (.codewordDecodeDone us) := of_none rfl
theorem altHypothesisStart : Statement .altHypothesisStart := of_none rfl
theorem viterbiDecode (soft : List Int) : Statement (.viterbiDecode soft) := of_none rfl
theorem cwcntRead (who : Nat) : Statement (.cwcntRead who) := fun h _ e => of_initiator_alone h e
theorem frmcntRead (who : Nat) : Statement (.frmcntRead who) := fun h _ e => of_initiator_alone h e
theorem itersumRead (who : Nat) : Statement (.itersumRead who) := fun h _ e => of_initiator_alone h e
theorem itermaxRead (who : Nat) : Statement (.itermaxRead who) := fun h _ e => of_initiator_alone h e
theorem hdrcntRead (who : Nat) : Statement (.hdrcntRead who) := fun h _ e => of_initiator_alone h e
theorem latmaxRead (who : Nat) : Statement (.latmaxRead who) := fun h _ e => of_initiator_alone h e
theorem vitcntRead (who : Nat) : Statement (.vitcntRead who) := fun h _ e => of_initiator_alone h e
theorem txCommit : Statement .txCommit := of_none rfl
theorem txDeferEnd : Statement .txDeferEnd := of_none rfl
theorem txDeferDeadline : Statement .txDeferDeadline := of_none rfl
theorem txSequenceStep (pdet : BitVec 12) : Statement (.txSequenceStep pdet) := of_none rfl
theorem txLastSymbol (x : TxMeas) : Statement (.txLastSymbol x) := of_none rfl
theorem txLate : Statement .txLate := of_none rfl
theorem synthLock (drift : Bool) : Statement (.synthLock drift) := of_none rfl
theorem synthLockTimeout : Statement .synthLockTimeout := of_none rfl
theorem synthLockLost : Statement .synthLockLost := of_none rfl
theorem vcoCalibrationDone : Statement .vcoCalibrationDone := of_none rfl
theorem rfeVcocal (who : Nat) (v : Word) : Statement (.rfeVcocal who v) := fun h _ e => of_initiator_alone h e
theorem txAbort (who : Nat) (v : Word) : Statement (.txAbort who v) := fun h _ e => of_initiator_alone h e
theorem txDisable (who : Nat) (v : Word) : Statement (.txDisable who v) := fun h _ e => of_initiator_alone h e
theorem tunerTrialStep (gamma : BitVec 8) : Statement (.tunerTrialStep gamma) := of_none rfl
theorem tunerTrialJudge (gamma : BitVec 8) : Statement (.tunerTrialJudge gamma) := of_none rfl
theorem calPendingApply : Statement .calPendingApply := of_none rfl
theorem rtcTrimLearn (temp : BitVec 16) (meas : BitVec 24) : Statement (.rtcTrimLearn temp meas) := of_none rfl
theorem txcCntRead (who : Nat) : Statement (.txcCntRead who) := fun h _ e => of_initiator_alone h e
theorem airtimeRead (who : Nat) : Statement (.airtimeRead who) := fun h _ e => of_initiator_alone h e
theorem maskstatRead (who : Nat) : Statement (.maskstatRead who) := fun h _ e => of_initiator_alone h e
theorem maskworstRead (who : Nat) : Statement (.maskworstRead who) := fun h _ e => of_initiator_alone h e
theorem tunestatRead (who : Nat) : Statement (.tunestatRead who) := fun h _ e => of_initiator_alone h e
theorem lnkFrameReceive : Statement .lnkFrameReceive := of_none rfl
theorem micVerifyDone : Statement .micVerifyDone := of_none rfl
theorem relayStart (k : Nat) : Statement (.relayStart k) := of_none rfl
theorem floorExpire : Statement .floorExpire := of_none rfl
theorem lnkEnable (who : Nat) (v : Word) : Statement (.lnkEnable who v) := fun h _ e => of_initiator_alone h e
theorem lnkDisable (who : Nat) (v : Word) : Statement (.lnkDisable who v) := fun h _ e => of_initiator_alone h e
theorem ackenDisable (who : Nat) (v : Word) : Statement (.ackenDisable who v) := fun h _ e => of_initiator_alone h e
theorem relayenDisable (who : Nat) (v : Word) : Statement (.relayenDisable who v) := fun h _ e => of_initiator_alone h e
theorem extenEnable (who : Nat) (v : Word) : Statement (.extenEnable who v) := fun h _ e => of_initiator_alone h e
theorem extClearDone : Statement .extClearDone := of_none rfl
theorem extenDisable (who : Nat) (v : Word) : Statement (.extenDisable who v) := fun h _ e => of_initiator_alone h e
theorem poolConfigWrite (who : Nat) (base : Bool) (v : Word) : Statement (.poolConfigWrite who base v) := fun h _ e => of_initiator_alone h e
theorem cntrxRead (who : Nat) : Statement (.cntrxRead who) := fun h _ e => of_initiator_alone h e
theorem cntrejRead (who : Nat) : Statement (.cntrejRead who) := fun h _ e => of_initiator_alone h e
theorem cntsecRead (who : Nat) : Statement (.cntsecRead who) := fun h _ e => of_initiator_alone h e
theorem cntdropRead (who : Nat) : Statement (.cntdropRead who) := fun h _ e => of_initiator_alone h e
theorem cntackRead (who : Nat) : Statement (.cntackRead who) := fun h _ e => of_initiator_alone h e
theorem cntrlyRead (who : Nat) : Statement (.cntrlyRead who) := fun h _ e => of_initiator_alone h e
theorem cntrlydRead (who : Nat) : Statement (.cntrlydRead who) := fun h _ e => of_initiator_alone h e
theorem cntovlRead (who : Nat) : Statement (.cntovlRead who) := fun h _ e => of_initiator_alone h e
theorem ntSourceChange : Statement .ntSourceChange := of_none rfl
theorem ntAdjust (who : Nat) (v : Word) : Statement (.ntAdjust who v) := fun h _ e => of_initiator_alone h e
theorem ntSet (who : Nat) (v : Word) : Statement (.ntSet who v) := fun h _ e => of_initiator_alone h e
theorem slewDone : Statement .slewDone := of_none rfl
theorem backholdEnd : Statement .backholdEnd := of_none rfl
theorem ntRead (who : Nat) : Statement (.ntRead who) := fun h _ e => of_initiator_alone h e
theorem beaconWindowOpen : Statement .beaconWindowOpen := of_none rfl
theorem beaconWindowClose : Statement .beaconWindowClose := of_none rfl
theorem searchStart : Statement .searchStart := of_none rfl
theorem searchWindowOpen : Statement .searchWindowOpen := of_none rfl
theorem searchWindowEnd : Statement .searchWindowEnd := of_none rfl
theorem trackerRoot (who : Nat) (v : Word) : Statement (.trackerRoot who v) := fun h _ e => of_initiator_alone h e
theorem trackerDisable (who : Nat) (v : Word) : Statement (.trackerDisable who v) := fun h _ e => of_initiator_alone h e
theorem trackerEnable (who : Nat) (v : Word) : Statement (.trackerEnable who v) := fun h _ e => of_initiator_alone h e
theorem parentWrite (who : Nat) (hi : Bool) (v : Word) : Statement (.parentWrite who hi v) := fun h _ e => of_initiator_alone h e
theorem listenWindowOpen : Statement .listenWindowOpen := of_none rfl
theorem listenWindowClose : Statement .listenWindowClose := of_none rfl
theorem announcedWindowOpen : Statement .announcedWindowOpen := of_none rfl
theorem scheduleCycleBoundary : Statement .scheduleCycleBoundary := of_none rfl
theorem schcntRead (who : Nat) : Statement (.schcntRead who) := fun h _ e => of_initiator_alone h e
theorem cntbcnRead (who : Nat) : Statement (.cntbcnRead who) := fun h _ e => of_initiator_alone h e
theorem hubRtcTrigger (n : Fin 32) : Statement (.hubRtcTrigger n) := of_none rfl
theorem hubCueTrigger (idx : Fin 8) : Statement (.hubCueTrigger idx) := of_none rfl
theorem hubPinTrigger (pin : Fin 48) (rising : Bool) : Statement (.hubPinTrigger pin rising) := of_none rfl
theorem hubSwtrig (who : Nat) (v : Word) : Statement (.hubSwtrig who v) := fun h _ e => of_initiator_alone h e
theorem hubEnd : Statement .hubEnd := of_none rfl
theorem hubPower : Statement .hubPower := of_none rfl
theorem hubWait : Statement .hubWait := of_none rfl
theorem hubTwb : Statement .hubTwb := of_none rfl
theorem hubCsp : Statement .hubCsp := of_none rfl
theorem hubAdc : Statement .hubAdc := of_none rfl
theorem hubDsm : Statement .hubDsm := of_none rfl
theorem hubPin : Statement .hubPin := of_none rfl
theorem hubCapture : Statement .hubCapture := of_none rfl
theorem hubFilter : Statement .hubFilter := of_none rfl
theorem hubCompare : Statement .hubCompare := of_none rfl
theorem hubStore : Statement .hubStore := of_none rfl
theorem hubSignal : Statement .hubSignal := of_none rfl
theorem hubBranch : Statement .hubBranch := of_none rfl
theorem hubIllegalStep : Statement .hubIllegalStep := of_none rfl
theorem hubStepSkip : Statement .hubStepSkip := of_none rfl
theorem hubResourceStepDone (n : Fin 32) (r : ResEnd) : Statement (.hubResourceStepDone n r) := of_none rfl
theorem hubWaitEnd (n : Fin 32) : Statement (.hubWaitEnd n) := of_none rfl
theorem spwrOvercurrent (k : Fin 4) : Statement (.spwrOvercurrent k) := of_none rfl
theorem sheetDisable (who : Nat) (n : Fin 32) (v : Word) : Statement (.sheetDisable who n v) := fun h _ e => of_initiator_alone h e
theorem hubDisable (who : Nat) (v : Word) : Statement (.hubDisable who v) := fun h _ e => of_initiator_alone h e
theorem filterReset (who : Nat) (k : Fin 16) (v : Word) : Statement (.filterReset who k v) := fun h _ e => of_initiator_alone h e
theorem filterConfigWrite (who : Nat) (k : Fin 16) (v : Word) : Statement (.filterConfigWrite who k v) := fun h _ e => of_initiator_alone h e
theorem compareReset (who : Nat) (k : Fin 16) (v : Word) : Statement (.compareReset who k v) := fun h _ e => of_initiator_alone h e
theorem shcntRead (who : Nat) (n : Fin 32) : Statement (.shcntRead who n) := fun h _ e => of_initiator_alone h e
theorem cueProducerEvent (fam : Fin 10) (idx : Fin 64) : Statement (.cueProducerEvent fam idx) := of_none rfl
theorem pinEvent (idx : Fin 16) (rising : Bool) : Statement (.pinEvent idx rising) := of_none rfl
theorem cueConsumerTake (t : Taker) : Statement (.cueConsumerTake t) := of_none rfl
theorem cueSoftwareSignal (who : Nat) (hi : Bool) (v : Word) : Statement (.cueSoftwareSignal who hi v) := fun h _ e => of_initiator_alone h e
theorem logicCellClock (k : Fin 16) : Statement (.logicCellClock k) := of_none rfl
theorem logicCellReset (who : Nat) (k : Fin 16) (v : Word) : Statement (.logicCellReset who k v) := fun h _ e => of_initiator_alone h e
theorem channelOwnerWrite (who : Nat) (c : Fin 64) (v : Word) : Statement (.channelOwnerWrite who c v) := fun h _ e => of_initiator_alone h e
theorem cellOwnerWrite (who : Nat) (k : Fin 16) (v : Word) : Statement (.cellOwnerWrite who k v) := fun h _ e => of_initiator_alone h e
theorem irqpendClear (who : Nat) (p : Fin 6) (v : Word) : Statement (.irqpendClear who p v) := fun h _ e => of_initiator_alone h e
theorem ovrClear (who : Nat) (hi : Bool) (v : Word) : Statement (.ovrClear who hi v) := fun h _ e => of_initiator_alone h e
theorem timerCountTick (x : Fin 8) : Statement (.timerCountTick x) := of_none rfl
theorem deadTimeExpiry (x : Fin 2) (n : Fin 4) (neg : Bool) : Statement (.deadTimeExpiry x n neg) := of_none rfl
theorem timerBreakPin (x : Fin 2) : Statement (.timerBreakPin x) := of_none rfl
theorem timerBreakCue (x : Fin 2) : Statement (.timerBreakCue x) := of_none rfl
theorem timerTrgStart (x : Fin 8) : Statement (.timerTrgStart x) := of_none rfl
theorem timerTrgRestart (x : Fin 8) : Statement (.timerTrgRestart x) := of_none rfl
theorem timerTrgStop (x : Fin 8) : Statement (.timerTrgStop x) := of_none rfl
theorem timerCaptureEdge (x : Fin 8) (n : Fin 4) (rising : Bool) : Statement (.timerCaptureEdge x n rising) := of_none rfl
theorem timerPulseEdge (x : Fin 8) (n : Fin 4) (rising : Bool) : Statement (.timerPulseEdge x n rising) := of_none rfl
theorem timerEnable (who : Nat) (x : Fin 8) (v : Word) : Statement (.timerEnable who x v) := fun h _ e => of_initiator_alone h e
theorem timerDisable (who : Nat) (x : Fin 8) (v : Word) : Statement (.timerDisable who x v) := fun h _ e => of_initiator_alone h e
theorem timerCntWrite (who : Nat) (x : Fin 8) (v : Word) : Statement (.timerCntWrite who x v) := fun h _ e => of_initiator_alone h e
theorem timerImmediateWrite (who : Nat) (x : Fin 8) (cc : Option (Fin 4)) (v : Word) : Statement (.timerImmediateWrite who x cc v) := fun h _ e => of_initiator_alone h e
theorem timerModeChange (who : Nat) (x : Fin 8) (n : Fin 4) (v : Word) : Statement (.timerModeChange who x n v) := fun h _ e => of_initiator_alone h e
theorem twbCmd (who : Nat) (k : Fin 5) (v : Word) : Statement (.twbCmd who k v) := fun h _ e => of_initiator_alone h e
theorem twbTransferDone (k : Fin 5) (acked : Nat) (nack : Bool) (rx : List Byte) : Statement (.twbTransferDone k acked nack rx) := of_none rfl
theorem twbArbitrationLost (k : Fin 5) (bytes : Nat) (winner : Option TwbAddr) : Statement (.twbArbitrationLost k bytes winner) := of_none rfl
theorem twbMisplacedCondition (k : Fin 5) (start ninth : Bool) : Statement (.twbMisplacedCondition k start ninth) := of_none rfl
theorem twbSclTimeout (k : Fin 5) : Statement (.twbSclTimeout k) := of_none rfl
theorem twbSdaTimeout (k : Fin 5) : Statement (.twbSdaTimeout k) := of_none rfl
theorem twbRecover (who : Nat) (k : Fin 5) (v : Word) : Statement (.twbRecover who k v) := fun h _ e => of_initiator_alone h e
theorem twbRecoverDone (k : Fin 5) (ok : Bool) : Statement (.twbRecoverDone k ok) := of_none rfl
theorem twbTargetAddressed (k : Fin 5) (addr : TwbAddr) : Statement (.twbTargetAddressed k addr) := of_none rfl
theorem twbTargetByte (k : Fin 5) (b : Byte) : Statement (.twbTargetByte k b) := of_none rfl
theorem twbTargetStop (k : Fin 5) (stop : Bool) : Statement (.twbTargetStop k stop) := of_none rfl
theorem twbAttn (who : Nat) (k : Fin 5) (v : Word) : Statement (.twbAttn who k v) := fun h _ e => of_initiator_alone h e
theorem twbAttnDone (k : Fin 5) (ok : Bool) : Statement (.twbAttnDone k ok) := of_none rfl
theorem twbTxdataWrite (who : Nat) (k : Fin 5) (v : Word) : Statement (.twbTxdataWrite who k v) := fun h _ e => of_initiator_alone h e
theorem twbRxdataRead (who : Nat) (k : Fin 5) : Statement (.twbRxdataRead who k) := fun h _ e => of_initiator_alone h e
theorem twbDisable (who : Nat) (k : Fin 5) (v : Word) : Statement (.twbDisable who k v) := fun h _ e => of_initiator_alone h e
theorem twbWakeDetect (k : Fin 5) : Statement (.twbWakeDetect k) := of_none rfl
theorem cspWakeDetect (k : Fin 2) : Statement (.cspWakeDetect k) := of_none rfl
theorem cspTxdataWrite (who : Nat) (k : Fin 2) (v : Word) : Statement (.cspTxdataWrite who k v) := fun h _ e => of_initiator_alone h e
theorem cspRxdataRead (who : Nat) (k : Fin 2) : Statement (.cspRxdataRead who k) := fun h _ e => of_initiator_alone h e
theorem cspMasterFrameDone (k : Fin 2) (rx : Word) : Statement (.cspMasterFrameDone k rx) := of_none rfl
theorem cspSlaveFrameDone (k : Fin 2) (rx : Word) : Statement (.cspSlaveFrameDone k rx) := of_none rfl
theorem cspSelectRelease (k : Fin 2) (part : Bool) : Statement (.cspSelectRelease k part) := of_none rfl
theorem cspDisable (who : Nat) (k : Fin 2) (v : Word) : Statement (.cspDisable who k v) := fun h _ e => of_initiator_alone h e
theorem hwnTransactionStart (read : Bool) : Statement (.hwnTransactionStart read) := of_none rfl
theorem hwnByteCommit (b : Byte) : Statement (.hwnByteCommit b) := of_none rfl
theorem hwnTransactionEnd (unfinished : Bool) : Statement (.hwnTransactionEnd unfinished) := of_none rfl
theorem hwnDisable (who : Nat) (v : Word) : Statement (.hwnDisable who v) := fun h _ e => of_initiator_alone h e
theorem hwnAttnSet (who : Nat) (v : Word) : Statement (.hwnAttnSet who v) := fun h _ e => of_initiator_alone h e
theorem otpProgOwner (who : Nat) (v : Word) : Statement (.otpProgOwner who v) := fun h _ e => of_initiator_alone h e
theorem otpRevoke (who : Nat) (v : Word) : Statement (.otpRevoke who v) := fun h _ e => of_initiator_alone h e
theorem otpBurnOwned (who : Nat) (v : Word) : Statement (.otpBurnOwned who v) := fun h _ e => of_initiator_alone h e
theorem otpBurnRetired (who : Nat) (v : Word) : Statement (.otpBurnRetired who v) := fun h _ e => of_initiator_alone h e
theorem otpCommandDone (ok : Bool) : Statement (.otpCommandDone ok) := of_none rfl
theorem keyGenerate (who : Nat) (v : Word) : Statement (.keyGenerate who v) := fun h _ e => of_initiator_alone h e
theorem keyWrite (who : Nat) (v : Word) : Statement (.keyWrite who v) := fun h _ e => of_initiator_alone h e
theorem keyDerive (who : Nat) (v : Word) : Statement (.keyDerive who v) := fun h _ e => of_initiator_alone h e
theorem keyDelete (who : Nat) (v : Word) : Statement (.keyDelete who v) := fun h _ e => of_initiator_alone h e
theorem keySetattr (who : Nat) (v : Word) : Statement (.keySetattr who v) := fun h _ e => of_initiator_alone h e
theorem keyAttest (who : Nat) (v : Word) : Statement (.keyAttest who v) := fun h _ e => of_initiator_alone h e
theorem keySignid (who : Nat) (v : Word) : Statement (.keySignid who v) := fun h _ e => of_initiator_alone h e
theorem keyRekey (who : Nat) (v : Word) : Statement (.keyRekey who v) := fun h _ e => of_initiator_alone h e
theorem keyCommandDone (err : Bool) : Statement (.keyCommandDone err) := of_none rfl
theorem jobEcbEncrypt : Statement .jobEcbEncrypt := of_none rfl
theorem jobEcbDecrypt : Statement .jobEcbDecrypt := of_none rfl
theorem jobCtr : Statement .jobCtr := of_none rfl
theorem jobCbcMac : Statement .jobCbcMac := of_none rfl
theorem jobCmacGenerate : Statement .jobCmacGenerate := of_none rfl
theorem jobCmacVerify : Statement .jobCmacVerify := of_none rfl
theorem jobCcmSeal : Statement .jobCcmSeal := of_none rfl
theorem jobCcmOpen : Statement .jobCcmOpen := of_none rfl
theorem cipherJobDone : Statement .cipherJobDone := of_none rfl
theorem aesCntRead (who : Nat) : Statement (.aesCntRead who) := fun h _ e => of_initiator_alone h e
theorem aesAuthfailRead (who : Nat) : Statement (.aesAuthfailRead who) := fun h _ e => of_initiator_alone h e
theorem aesMemerrRead (who : Nat) : Statement (.aesMemerrRead who) := fun h _ e => of_initiator_alone h e
theorem alarmSupplyGlitch (words : Nat) : Statement (.alarmSupplyGlitch words) := of_none rfl
theorem alarmClockGlitch (words : Nat) : Statement (.alarmClockGlitch words) := of_none rfl
theorem alarmTemperature (words : Nat) : Statement (.alarmTemperature words) := of_none rfl
theorem alarmTamp (words : Nat) : Statement (.alarmTamp words) := of_none rfl
theorem pkaEcdsaSign (who : Nat) : Statement (.pkaEcdsaSign who) := fun h _ e => of_initiator_alone h e
theorem pkaEcdsaVerify (who : Nat) : Statement (.pkaEcdsaVerify who) := fun h _ e => of_initiator_alone h e
theorem pkaEcdh (who : Nat) : Statement (.pkaEcdh who) := fun h _ e => of_initiator_alone h e
theorem pkaKeygen (who : Nat) : Statement (.pkaKeygen who) := fun h _ e => of_initiator_alone h e
theorem pkaPointCheck (who : Nat) : Statement (.pkaPointCheck who) := fun h _ e => of_initiator_alone h e
theorem pkaX25519 (who : Nat) : Statement (.pkaX25519 who) := fun h _ e => of_initiator_alone h e
theorem pkaDone : Statement .pkaDone := of_none rfl
theorem hshInit (who : Nat) (v : Word) : Statement (.hshInit who v) := fun h _ e => of_initiator_alone h e
theorem hshFeedMemory (who : Nat) : Statement (.hshFeedMemory who) := fun h _ e => of_initiator_alone h e
theorem hshFeedLast (who : Nat) : Statement (.hshFeedLast who) := fun h _ e => of_initiator_alone h e
theorem hshPushedLast (who : Nat) : Statement (.hshPushedLast who) := fun h _ e => of_initiator_alone h e
theorem hshDataPush (who : Nat) (v : Word) : Statement (.hshDataPush who v) := fun h _ e => of_initiator_alone h e
theorem hshDone : Statement .hshDone := of_none rfl
theorem rngRestart (who : Nat) : Statement (.rngRestart who) := fun h _ e => of_initiator_alone h e
theorem rngReseed (who : Nat) : Statement (.rngReseed who) := fun h _ e => of_initiator_alone h e
theorem rngDataRead (who : Nat) : Statement (.rngDataRead who) := fun h _ e => of_initiator_alone h e
theorem trngStartupDone : Statement .trngStartupDone := of_none rfl
theorem trngHealthFail : Statement .trngHealthFail := of_none rfl
theorem powerRequest (who : Nat) (v : Word) : Statement (.powerRequest who v) := fun h _ e => of_initiator_alone h e
theorem powerRequestCancel (who : Nat) (v : Word) : Statement (.powerRequestCancel who v) := fun h _ e => of_initiator_alone h e
theorem powerCommit (rest : Nat) : Statement (.powerCommit rest) := of_none rfl
theorem powerStateReached : Statement .powerStateReached := of_none rfl
theorem wakeEvent (b : Fin 13) : Statement (.wakeEvent b) := of_none rfl
theorem powerExitComplete : Statement .powerExitComplete := of_none rfl
theorem dozeEnter : Statement .dozeEnter := of_none rfl
theorem dozeExit : Statement .dozeExit := of_none rfl
theorem autoRestReturn : Statement .autoRestReturn := of_none rfl
theorem vbatCheck (mv : BitVec 12) (bkup : Nat) : Statement (.vbatCheck mv bkup) := of_none rfl
theorem backupSupplySwitch (mv bkup : Nat) : Statement (.backupSupplySwitch mv bkup) := of_none rfl
theorem backupRetentionTrip : Statement .backupRetentionTrip := of_none rfl
theorem rtcApply (who : Nat) (v : Word) : Statement (.rtcApply who v) := fun h _ e => of_initiator_alone h e
theorem rtcApplyTransfer : Statement .rtcApplyTransfer := of_none rfl
theorem rtcApplyCommit : Statement .rtcApplyCommit := of_none rfl
theorem rtcSubsecRead (who : Nat) : Statement (.rtcSubsecRead who) := fun h _ e => of_initiator_alone h e
theorem rtcAlarm (n : Fin 2) : Statement (.rtcAlarm n) := of_none rfl
theorem rtcTrimUpdate (temp : BitVec 16) : Statement (.rtcTrimUpdate temp) := of_none rfl
theorem oscStopDetect : Statement .oscStopDetect := of_none rfl
theorem oscRestart : Statement .oscRestart := of_none rfl
theorem osfClear (who : Nat) (v : Word) : Statement (.osfClear who v) := fun h _ e => of_initiator_alone h e
theorem blackoutWake (src : Fin 4) : Statement (.blackoutWake src) := of_none rfl
theorem svcPacketReceive (body : List Byte) (crcOk : Bool) : Statement (.svcPacketReceive body crcOk) := of_none rfl
theorem svcReplyDone : Statement .svcReplyDone := of_none rfl
theorem svcRxfree (who : Nat) (v : Word) : Statement (.svcRxfree who v) := fun h _ e => of_initiator_alone h e
theorem svcRateRevert : Statement .svcRateRevert := of_none rfl
theorem svcCntRead (who : Nat) : Statement (.svcCntRead who) := fun h _ e => of_initiator_alone h e
theorem svcHello (seq : Byte) (payload : List Byte) : Statement (.svcHello seq payload) := of_none rfl
theorem svcStatus (seq : Byte) (payload : List Byte) : Statement (.svcStatus seq payload) := of_none rfl
theorem svcLoad (seq : Byte) (payload : List Byte) (ok : Bool) : Statement (.svcLoad seq payload ok) := of_none rfl
theorem svcVerify (seq : Byte) (payload : List Byte) : Statement (.svcVerify seq payload) := of_none rfl
theorem svcActivateLive (seq : Byte) : Statement (.svcActivateLive seq) := of_none rfl
theorem svcActivateReset (seq : Byte) : Statement (.svcActivateReset seq) := of_none rfl
theorem svcProgress (seq : Byte) (payload : List Byte) : Statement (.svcProgress seq payload) := of_none rfl
theorem svcAbort (seq : Byte) (payload : List Byte) : Statement (.svcAbort seq payload) := of_none rfl
theorem svcAuth (seq : Byte) (payload : List Byte) : Statement (.svcAuth seq payload) := of_none rfl
theorem ownerLock (seq : Byte) (payload : List Byte) : Statement (.ownerLock seq payload) := of_none rfl
theorem ownerUnlock (seq : Byte) (payload : List Byte) : Statement (.ownerUnlock seq payload) := of_none rfl
theorem ownerSetminver (seq : Byte) (payload : List Byte) : Statement (.ownerSetminver seq payload) := of_none rfl
theorem ownerAddkey (seq : Byte) (payload : List Byte) : Statement (.ownerAddkey seq payload) := of_none rfl
theorem ownerRevoke (seq : Byte) (payload : List Byte) : Statement (.ownerRevoke seq payload) := of_none rfl
theorem ownerBurnOwned (seq : Byte) (payload : List Byte) : Statement (.ownerBurnOwned seq payload) := of_none rfl
theorem ownerRetire (seq : Byte) (payload : List Byte) : Statement (.ownerRetire seq payload) := of_none rfl
theorem ownerDebugUnlock (seq : Byte) (payload : List Byte) : Statement (.ownerDebugUnlock seq payload) := of_none rfl
theorem ownerRecoveryUnlock (seq : Byte) (payload : List Byte) : Statement (.ownerRecoveryUnlock seq payload) := of_none rfl
theorem svcDbgrd : Statement .svcDbgrd := of_none rfl
theorem svcDbgwr : Statement .svcDbgwr := of_none rfl
theorem activateDrained : Statement .activateDrained := of_none rfl
theorem activateDrainTimeout : Statement .activateDrainTimeout := of_none rfl
theorem serviceReady : Statement .serviceReady := of_none rfl
theorem serviceConfirm : Statement .serviceConfirm := of_none rfl
theorem readyTimeout : Statement .readyTimeout := of_none rfl
theorem holdoverTimeout : Statement .holdoverTimeout := of_none rfl
theorem vcoreReg : Statement .vcoreReg := of_none rfl
theorem hfxoFail : Statement .hfxoFail := of_none rfl
theorem hfxoRestartTry (ok : Bool) : Statement (.hfxoRestartTry ok) := of_none rfl
theorem watchdogKick (who : Nat) (v : Word) : Statement (.watchdogKick who v) := fun h _ e => of_initiator_alone h e
theorem watchdogPreExpiry (p : Fin 6) : Statement (.watchdogPreExpiry p) := of_none rfl
theorem watchdogExpiry (p : Fin 6) : Statement (.watchdogExpiry p) := of_none rfl
theorem warmEntryDone : Statement .warmEntryDone := of_none rfl
theorem pllUnlock (pll : Fin 3) : Statement (.pllUnlock pll) := of_none rfl
theorem pllRelock (pll : Fin 3) (ok : Bool) : Statement (.pllRelock pll ok) := of_none rfl
theorem injectArm (who : Nat) (v : Word) : Statement (.injectArm who v) := fun h _ e => of_initiator_alone h e
theorem curtainRecordClear (who : Nat) (v : Word) : Statement (.curtainRecordClear who v) := fun h _ e => of_initiator_alone h e
theorem cecnt0Read (who : Nat) : Statement (.cecnt0Read who) := fun h _ e => of_initiator_alone h e
theorem cecnt1Read (who : Nat) : Statement (.cecnt1Read who) := fun h _ e => of_initiator_alone h e
theorem dbgHalt (who : Nat) (v : Word) : Statement (.dbgHalt who v) := fun h _ e => of_initiator_alone h e
theorem dbgStep (who : Nat) (v : Word) : Statement (.dbgStep who v) := fun h _ e => of_initiator_alone h e
theorem pinConfigWrite (who : Nat) (n : Fin 48) (v : Word) : Statement (.pinConfigWrite who n v) := fun h _ e => of_initiator_alone h e
theorem gpioOutset (who : Nat) (p : Fin 2) (v : Word) : Statement (.gpioOutset who p v) := fun h _ e => of_initiator_alone h e
theorem gpioOutclr (who : Nat) (p : Fin 2) (v : Word) : Statement (.gpioOutclr who p v) := fun h _ e => of_initiator_alone h e
theorem announcedWindowClose : Statement .announcedWindowClose := of_none rfl
theorem twbBusFree (k : Fin 5) : Statement (.twbBusFree k) := of_none rfl
theorem cspSlaveSelect (k : Fin 2) : Statement (.cspSlaveSelect k) := of_none rfl
theorem timerBreakRelease (x : Fin 2) : Statement (.timerBreakRelease x) := of_none rfl
theorem alarmConditionEnd (src : Fin 4) : Statement (.alarmConditionEnd src) := of_none rfl
theorem svcGapTimeout : Statement .svcGapTimeout := of_none rfl

end Sys2Proof.Laws.WellFormed
end

