-- ==== Sys2Proof/Tests/Slice0.lean ====
section
/-! SUPPORT. Small tests: terms that are not well formed, worked values of the spec, and for each statement with hypotheses states that meet them. -/
namespace Sys2Proof.Tests
open Sys2Proof.Machine Sys2Proof.Safety Sys2Proof.Reg

set_option maxRecDepth 8000
set_option Elab.async false

/-! ### Well-formedness: a term that each check refuses -/

theorem test_wf_refuses_initiator : Instr.wf (.registerWrite 0x12 0 0) = false ∧ Instr.wf (.registerWrite 0x11 0 0) = true := by decide
theorem test_wf_refuses_address : Instr.wf (.registerWrite 0 (2 ^ 32) 0) = false := by decide
theorem test_wf_refuses_flash_offset : Instr.wf (.flashRead 0 0x400000 false .ok .ok 0) = false ∧ Instr.wf (.flashRead 0 0x3FFFFF false .ok .ok 0) = true := by decide
theorem test_wf_refuses_payload : payloadOk (List.replicate 1039 0) = false ∧ payloadOk (List.replicate 1038 0) = true := by decide
theorem test_wf_refuses_word_access : Instr.wf (.dramAccess 0 0x80000007 (some [1, 2]) .clean) = false ∧ Instr.wf (.dramAccess 0 0x80000007 (some []) .clean) = false ∧
    Instr.wf (.dramAccess 0 0x80000007 (some [1]) .clean) = true := by decide
theorem test_wf_refuses_frames : Instr.wf (.reqAlloc 0 0 0 [(5, 0)] []) = false ∧ Instr.wf (.reqAlloc 0 0 0 [(4, 0)] []) = true := by decide

/-- The rows of the table give no bits, so no word spells a command. -/
theorem test_no_word_spells_a_command : decodeTableWord 16 0 = none ∧ decodeTableWord 32 0xFFFFFFFF = none := by decide

/-! ### States -/

/-- The reset state with registers set. -/
def placed (l : List (Nat × Word)) : State := l.foldl (fun s e => s.wr e.1 e.2) State.reset

/-- The same with RADIO powered. -/
def tuned (l : List (Nat × Word)) : State := (placed l).setDom Dom.radio .on

/-- The same with a core at a bundle boundary in its own TCM. -/
def live (p : Fin 6) (l : List (Nat × Word)) : State := (placed l).setCore p { pc := 0x10000100, run := .running }

/-- A page table with the entry `e` for the first scene page, which a prop covers, open to every owner. -/
def page0 : Region := { base := 0x40000000, size := 0x1000, attr := 0, acl := 0, index := 1 }
def mapped (e : Nat) (l : List (Nat × Word)) : State :=
  (((placed ([(STG.PTBASE, 0x20010000), (STG.CTRL, 1), (STG.ACL 0, 0xFFFFFFFF)] ++ l)).stw 0x20010000 0x20011001).setBytes 0x20011000 (leBytes 8 e)).upStg (fun g => { g with regions := [page0] })

/-- The first scene page lies in the first frame of shared SRAM: the engines of untrusted blocks reach memory by scene addresses alone. -/
def scene (l : List (Nat × Word)) : State := mapped 0x1003 l

/-- The value of an immediate source. -/
theorem imm_reads (s : State) (p : Fin 6) : SrcReads s p 0x1007 7 := ⟨nofun, rfl⟩

/-! ### Witnesses: the cores -/

theorem test_CountReads_applies : Reaches (placed []) 0 DMC.CECOUNT false ∧ Reaches (placed []) 0 LNK.CNTRX false ∧ Reaches (tuned []) 0 (CH.CH_CNT0 0) false ∧
    Reaches (tuned []) 0 (CH.CH_CNT2 63) false ∧ Reaches (placed []) 0 (HUB.SHCNT 31) false ∧ Reaches (placed []) 0 FLT.CECNT1 false := by decide

theorem test_core_ready (p : Fin 6) : CoreReady (live p []) p ∧ SrcReads (live p []) p 0x1007 7 ∧ GuardHolds (live p []) p 0 :=
  ⟨by revert p; decide, imm_reads _ p, rfl⟩

/-- The hypotheses of the statements on ALU, SHF, SIMD, MUL, CU and LU operations. -/
theorem test_Operations_apply : (CoreReady (live 0 []) 0 ∧ SrcReads (live 0 []) 0 0x1007 7 ∧ GuardHolds (live 0 []) 0 0 ∧ (true = true → (0 : Fin 6).val < 4)) ∧
    (CoreReady (live 4 []) 4 ∧ SrcReads (live 4 []) 4 0x1007 7 ∧ GuardHolds (live 4 []) 4 0 ∧ (4 : Fin 6).val < 5) ∧
    (CoreReady (live 3 []) 3 ∧ SrcReads (live 3 []) 3 0x1007 7 ∧ GuardHolds (live 3 []) 3 0 ∧ (3 : Fin 6).val < 4) ∧
    (CoreReady (live 5 []) 5 ∧ SrcReads (live 5 []) 5 0x1007 7 ∧ GuardHolds (live 5 []) 5 0 ∧ (5 : Fin 6).val = 5) :=
  ⟨⟨(test_core_ready 0).1, imm_reads _ 0, rfl, fun _ => by decide⟩, ⟨(test_core_ready 4).1, imm_reads _ 4, rfl, by decide⟩,
    ⟨(test_core_ready 3).1, imm_reads _ 3, rfl, by decide⟩, ⟨(test_core_ready 5).1, imm_reads _ 5, rfl, rfl⟩⟩

theorem test_ResultInFlightIsWritten_applies : let s := (placed []).setCore 0 { fly := [{ left := 3, kind := .fixed, writes := [(7, 5)], uflags := 2 }] }
    (s.core 0).fly = [{ left := 3, kind := .fixed, writes := [(7, 5)], uflags := 2 }] ∧ 0 < 3 := by decide

/-- A core with two no-op bundles behind its pc (02 R37). -/
def noops : State := ((live 0 []).stw 0x11000104 0x81000FFF).stw 0x11000108 0x81000FFF

theorem test_TransferWaits_applies : CoreReady noops 0 ∧ SrcReads noops 0 0x1007 7 ∧ GuardHolds noops 0 0 ∧ pstatBit (noops.core 0) PSTAT.priv = true ∧
    (∃ b, decodeAt noops 0 ((noops.core 0).pc + 4) = (.bundle b, noops)) ∧ ((noops.core 0).frames[curFrame (noops.core 0)]).epc.toNat % 4 = 0 ∧
    bitsOf ((noops.core 0).frames[curFrame (noops.core 0)]).ecause 17 16 = 0 :=
  ⟨by decide, imm_reads _ 0, rfl, by decide, ⟨_, rfl⟩, by decide, by decide⟩

/-- The no-op bundle of 02 R37. -/
def noopBundle : Bundle := { moves := [{ guard := 0, src := .val 0, slot := 0, dst := 0xFFF }], lit := none, len := 4 }

/-- A no-op in the TCM of APP0, whatever the cores hold. -/
theorem noop_at {u : State} {o : Nat} (ho : o + 4 ≤ 0x20000) (hj : u.bit FLT.INJCTRL 16 = false) (hd : u.dom (coreDom 0) = .on)
    (hb : u.bytes (0x11000000 + o) 4 = [0xFF, 0x0F, 0x00, 0x81]) : decodeAt u 0 (BitVec.ofNat 32 (0x10000000 + o)) = (.bundle noopBundle, u) := by
  have hi := fun a n => injMeets_off hj a n
  have e := own_err (s := u) false (show (0 : Fin 6).val < 5 by decide) (show o < 0x20000 by omega) hd
  have e2 := own_err (s := u) false (show (0 : Fin 6).val < 5 by decide) (show o + 3 < 0x20000 by omega) hd
  have t := own_touch (show (0 : Fin 6).val < 5 by decide) (show o < 0x20000 by omega) hd
  have v := own_view (s := u) (show (0 : Fin 6).val < 5 by decide) ho
  have g := tcm_target (show (0 : Fin 6).val < 5 by decide) (show o < 0x20000 by omega)
  simp [← Nat.add_assoc] at e e2 t v g
  have hp : physRead u (coreInit 0) (0x11000000 + o) 4 = (some [0xFF, 0x0F, 0x00, 0x81], u) := by
    simp [physRead, e, e2, g, injRead, hi, t, v, hb]
  have hf : fetchWord u 0 (0x10000000 + o) = (.word 0x81000FFF, u) := by
    have hs : isScene (0x10000000 + o) = false := by unfold isScene; simp; omega
    rw [fetchWord, own_place (by decide) rfl (by omega)]
    simp [fetchAt, hs, e, g, lineWaits, hp]
    rfl
  have hw : (BitVec.ofNat 32 (0x10000000 + o)).toNat = 0x10000000 + o := by rw [BitVec.toNat_ofNat]; omega
  simp only [decodeAt, fetchSyls, hw, hf]
  rfl

theorem noop_behind (cs : Vector Core 6) (l : Lockstep) {o : Nat} (ho : o + 4 ≤ 0x20000) (hb : noops.bytes (0x11000000 + o) 4 = [0xFF, 0x0F, 0x00, 0x81]) :
    decodeAt { noops with cores := cs, pair := l } 0 (BitVec.ofNat 32 (0x10000000 + o)) = (.bundle noopBundle, { noops with cores := cs, pair := l }) :=
  noop_at ho (show noops.bit _ _ = _ by decide) rfl hb

theorem test_TransferWaits_delay : BundleAt noops 0 ((noops.core 0).pc + 4) noopBundle ∧ BundleAt noops 0 ((noops.core 0).pc + 4 + BitVec.ofNat 32 noopBundle.len) noopBundle ∧
    noopBundle.moves.all (plainMove (coreKind 0)) = true ∧ noopBundle.len % 4 = 0 ∧ (8 : Word).toNat % 4 = 0 :=
  ⟨fun cs l => noop_behind cs l (o := 0x104) (by decide) (by decide), by
    intro cs l
    rw [show (noops.core 0).pc + 4 + BitVec.ofNat 32 noopBundle.len = BitVec.ofNat 32 (0x10000000 + 0x108) by decide]
    exact noop_behind cs l (by decide) (by decide), by decide, by decide, by decide⟩

/-- A core whose loop count port holds 3. -/
def looping : State := (placed []).setCore 0 { pc := 0x10000100, run := .running, opr := (Vector.replicate 10 0).set 9 3 }

theorem test_LoopArms_applies : (CoreReady looping 0 ∧ SrcReads looping 0 0x1007 7 ∧ GuardHolds looping 0 0 ∧ (looping.core 0).opr[9] ≠ 0) ∧
    (CoreReady noops 0 ∧ SrcReads noops 0 0x1004 4 ∧ (noops.core 0).opr[9] = 0 ∧ (4 : Word).toNat % 4 = 0 ∧
      ∃ b, decodeAt noops 0 ((noops.core 0).pc + 4) = (.bundle b, noops) ∧ b.len % 4 = 0) :=
  ⟨⟨by decide, imm_reads _ 0, rfl, by decide⟩, by decide, ⟨nofun, rfl⟩, by decide, by decide, _, rfl, by decide⟩

theorem test_Trap_applies : CoreReady (live 0 []) 0 ∧ SrcReads (live 0 []) 0 0x1007 7 ∧ GuardHolds (live 0 []) 0 0 ∧ pstatBit ((live 0 []).core 0) PSTAT.exc = false :=
  ⟨by decide, imm_reads _ 0, rfl, by decide⟩

/-- A core whose register a0 holds an address in its own TCM. -/
def pointing (o : Word) : State := (placed []).setCore 0 { pc := 0x10000100, run := .running, a := (Vector.replicate 32 0).set 0 (0x10000000 + o) }

theorem test_LoadsAndStores_apply : CoreReady (pointing 0x1FFFC) 0 ∧ SrcReads (pointing 0x1FFFC) 0 0 (BitVec.ofNat 32 (0x10000000 + 0x1FFFC)) ∧ GuardHolds (pointing 0x1FFFC) 0 0 ∧
    0x1FFFC < 0x20000 ∧ 0x1FFFC % 4 = 0 ∧ (pointing 0x1FFFC).pair.undo.length < 383 ∧ (∀ c, migState (pointing 0x1FFFC) c ≠ 3) :=
  ⟨by decide, ⟨by intro id h; obtain rfl := Src.sock.inj (show Src.sock 0 = .sock id from h); decide, rfl⟩, rfl, by decide, by decide, by decide, by decide⟩

theorem test_Fence_applies : CoreReady (live 0 []) 0 ∧ SrcReads (live 0 []) 0 0x1007 7 ∧ GuardHolds (live 0 []) 0 0 ∧ ((live 0 []).core 0).wbuf = [] ∧ (live 0 []).nvm.mbuf = [] :=
  ⟨by decide, imm_reads _ 0, rfl, by decide, by decide⟩

/-- Registers that enable queue q with elements of 4 bytes, a capacity and an access mask; see 05 R132. -/
def queueOn (q : Nat) : List (Nat × Word) := [(QUE.QCFG q, 0x00000402), (QUE.QBASE q, 0x100000)]

theorem test_QueueOperation_applies : CoreReady (live 0 []) 0 ∧ SrcReads (live 0 []) 0 0x1007 7 ∧ GuardHolds (live 0 []) 0 0 ∧ (live 0 []).pair.inlog.length < 191 ∧
    (∃ c w, qDeq (live 0 []) 7 (coreInit 0) = (c, w, live 0 [])) ∧ ((live 0 []).core 0).wbuf = [] ∧ (∃ c, qEnq (live 0 []) 7 (coreInit 0) (((live 0 []).core 0).opr[8]) = (c, live 0 [])) ∧
    ownsChan (live 0 []) (coreInit 0) 7 = false :=
  ⟨by decide, imm_reads _ 0, rfl, by decide, ⟨_, _, rfl⟩, by decide, ⟨_, rfl⟩, by decide⟩

/-- A core with its event latch set. -/
def latched (p : Fin 6) : State := (placed []).setCore p { pc := 0x10000100, run := .running, latch := true }

theorem test_WaitEnds_applies : CoreReady (latched 5) 5 ∧ SrcReads (latched 5) 5 0x1007 7 ∧ GuardHolds (latched 5) 5 0 ∧ ((latched 5).core 5).latch = true ∧
    CoreReady (latched 0) 0 ∧ ((latched 0).core 0).latch = true :=
  ⟨by decide, imm_reads _ 5, rfl, by decide, by decide, by decide⟩

/-- A core whose pc stands at a no-op bundle, and one whose syllable names the unassigned destination 0xFFE. -/
def atNoop : State := (live 0 []).stw 0x11000100 0x81000FFF
def atIllegal : State := (live 0 []).stw 0x11000100 0x81000FFE

theorem test_BundleAtThePc_applies : (canRun atNoop 0 = true ∧ (atNoop.core 0).stall = none ∧ (atNoop.core 0).held = [] ∧ replays atNoop 0 = false ∧
      ∃ b, decodeAt atNoop 0 (atNoop.core 0).pc = (.bundle b, atNoop)) ∧
    (CoreReady atNoop 0 ∧ decodeAt atNoop 0 (atNoop.core 0).pc = (.bundle noopBundle, atNoop)) ∧
    (canRun atIllegal 0 = true ∧ (atIllegal.core 0).stall = none ∧ (atIllegal.core 0).held = [] ∧ replays atIllegal 0 = false ∧
      decodeAt atIllegal 0 (atIllegal.core 0).pc = (.illegal 5 4, atIllegal) ∧ pstatBit (atIllegal.core 0) PSTAT.exc = false) :=
  ⟨⟨by decide, by decide, by decide, by decide, _, rfl⟩, ⟨by decide, rfl⟩, by decide, by decide, by decide, by decide, rfl, by decide⟩

/-- 20 R482: a frame withdrawn is free again when the prompter has written all of it and read it back, not when it has only read it. -/
theorem test_withdrawn_frame : let s := (placed []).upStg (fun g => { g with withdrawn := [{ base := 0x20000000 }] })
    frameWithdrawn s 1 0 = true ∧ frameWithdrawn s 1 1 = false ∧ (noteRead (noteWrite s 0 0x20000000 4096) 0 0x20000000 4096).stg.withdrawn = [] ∧
    frameWithdrawn (noteRead s 0 0x20000000 4096) 1 0 = true ∧ frameWithdrawn (noteRead (noteWrite s 0 0x20000000 4096) 0 0x20000000 4088) 1 0 = true := by decide +kernel

/-- The long immediate of 02 R47, behind a guarded move of b0 to a1, as the bundle encodes, with its literal, in the TCM of APP0. -/
def twoSyls : List Syl := [{ slot := 0, guard := 1, src := .socket 0x20, dst := 1 }, { slot := 7, guard := 0, src := .imm 0, dst := 0x9FF }]
def atLimm : State := (((live 0 []).stw 0x11000100 0x02020001).stw 0x11000104 0xF10009FF).stw 0x11000108 0x30010900

/-- 02 R33, R37, R47: the words of the no-op and of a long immediate as the spec spells them. -/
theorem test_encode_spec : encodeSyls [{ slot := 0, guard := 0, src := .imm 0, dst := 0xFFF }] = [0x81000FFF] ∧
    encodeSyls [{ slot := 7, guard := 0, src := .imm 0, dst := 0x9FF }] = [0xF10009FF] ∧ encodeSyls twoSyls = [0x02020001, 0xF10009FF] := by decide

theorem test_Decoding_applies : twoSyls ≠ [] ∧ illegalCode (coreKind 0) (encodeSyls twoSyls) = none ∧
    (some (0x30010900 : Word)).isSome = endsInLimm (coreKind 0) (encodeSyls twoSyls) := by decide

theorem test_Decoding_fetches : fetchWord atLimm 0 ((0x10000100 + 4 * 0) % 2 ^ 32) = (.word 0x02020001, atLimm) ∧
    fetchWord atLimm 0 ((0x10000100 + 4 * 1) % 2 ^ 32) = (.word 0xF10009FF, atLimm) ∧ fetchWord atLimm 0 ((0x10000100 + 4 * 2) % 2 ^ 32) = (.word 0x30010900, atLimm) :=
  ⟨rfl, rfl, rfl⟩

theorem test_Decoding_tcm : (0 : Fin 6).val < 5 ∧ 0x1FFFC < 0x20000 ∧ 0x1FFFC % 4 = 0 ∧ atLimm.dom (coreDom 0) = .on ∧ atLimm.bit FLT.INJCTRL 16 = false := by decide

/-- A core with line 8 pending, enabled and taken, and one with a held error. -/
def interrupted : State := (placed [(CUE.IRQPEND 0, 1)]).setCore 0 { pc := 0x10000100, run := .running, ien := 0xFFFFFFFF, pstat := 3, iprio0 := 0xFFFFFFFF, iprio1 := 0xFFFFFFFF }
def erring : State := (placed []).setCore 0 { pc := 0x10000100, run := .running, held := [0x200] }

theorem test_Interrupts_applies : (selectLine interrupted 0).isSome = true ∧ entryOpen interrupted 0 = true := by decide

theorem test_BusErrors_applies : canRun erring 0 = true ∧ (erring.core 0).held = [0x200] ∧ (erring.core 0).xfer = none ∧ (erring.core 0).stall = none ∧ (erring.core 0).fly = [] ∧
    pstatBit (erring.core 0) PSTAT.exc = false ∧ inReplay erring 0 = false := by decide

/-- A core that stalls, with the bundle that waits. -/
def stalled (c : StallCause) (b : Option Bundle) (latch : Bool) : State := (placed []).setCore 0 { pc := 0x10000100, run := .running, stall := some { cause := c, bundle := b }, latch := latch }

theorem test_WaitWakes_applies : let s := stalled .wfe (some { moves := [], len := 4 }) true
    (s.core 0).stall = some { cause := .wfe, bundle := some { moves := [], len := 4 } } ∧ canFinish s 0 = true ∧ (s.core 0).latch = true ∧ (s.core 0).got = [] := by decide

/-- A `qu.wfe` on its own for which a core of the link pair's kind waits, its latch set. -/
def waitsAlone : State := stalled .wfe (some (unitBundle 0 .qu (quCode .wfe) 0 0x1007)) true

theorem test_WaitWakes_alone : StallsIn waitsAlone 0 .wfe (unitBundle 0 .qu (quCode .wfe) 0 0x1007) ∧ GuardHolds waitsAlone 0 0 ∧ waitsAlone.pair.inlog.length < 191 ∧ (waitsAlone.core 0).latch = true :=
  ⟨⟨rfl, by decide⟩, rfl, by decide, by decide⟩

/-- A core that waits on queue 7, on which an entry has arrived. -/
def waiting : State := (stalled (.deq 7) (some { moves := [], len := 4 }) false).wr (QUE.QSTAT 7) 1

theorem test_ArrivingEntry_applies : (0 : Fin 6).val < 5 ∧ (waiting.core 0).stall = some { cause := .deq (7 : Fin 128).val, bundle := some { moves := [], len := 4 } } ∧ canFinish waiting 0 = true ∧
    qCount waiting (7 : Fin 128) ≠ 0 ∧ (∀ r, r ≠ 0 → (waiting.core r).stall = none) ∧ ∀ r, r ≠ 0 → ((runBundle waiting 0 { moves := [], len := 4 }).core r).stall = none := by decide

/-- The same for a `deq` on its own of a queue that is on, with its ring in the first scene page. -/
def deqAlone : State := (scene [(QUE.QCFG 7, 0x402), (QUE.QOWN 7, 0xFFFF), (QUE.QBASE 7, 0x40000000), (QUE.QSTAT 7, 1)]).setCore 0 ((stalled (.deq 7) (some (unitBundle 0 .qu (quCode .deq) 0 0x1007)) false).core 0)

theorem test_ArrivingEntry_alone : StallsIn deqAlone 0 (.deq (7 : Fin 128).val) (unitBundle 0 .qu (quCode .deq) 0 0x1007) ∧ SrcReads (unstalled deqAlone 0) 0 0x1007 7 ∧ (7 : Word).toNat % 128 = 7 ∧ GuardHolds deqAlone 0 0 ∧
    deqAlone.pair.inlog.length < 191 ∧ qCount deqAlone (7 : Fin 128) ≠ 0 ∧ (∀ r, r ≠ 0 → (deqAlone.core r).stall = none) ∧ (qDeq (unstalled deqAlone 0) (7 : Fin 128) (coreInit 0)).1 = 0 ∧
    (qDeq (unstalled deqAlone 0) (7 : Fin 128) (coreInit 0)).2.2.cores = (unstalled deqAlone 0).cores ∧ (qDeq (unstalled deqAlone 0) (7 : Fin 128) (coreInit 0)).2.2.pair = deqAlone.pair ∧
    (qDeq (unstalled deqAlone 0) (7 : Fin 128) (coreInit 0)).2.2.rd DBG.HALT = deqAlone.rd DBG.HALT :=
  ⟨⟨rfl, by decide⟩, imm_reads _ 0, rfl, rfl, by decide, by decide, by decide, by decide +kernel, by decide +kernel, by decide +kernel, by decide +kernel⟩

/-- The bundle of one `ld.w` of a0, and a core that stalls for it on shared SRAM. -/
def oneLoad : Bundle := { moves := [{ guard := 0, src := .sock 0, slot := 3, dst := 0x900 }], len := 4 }
def loading : State := stalled (.access 0x20000000 0x20000000 none false) (some oneLoad) false

theorem test_LoadReturns_applies : (loading.core 0).stall = some { cause := .access 0x20000000 0x20000000 none false, bundle := some oneLoad } ∧
    lsuOf (coreKind 0) (execMoves (loading.core 0) oneLoad) = some (.ldW, .sock 0) ∧ LsuOp.ldW ≠ .scW ∧ LsuOp.ldW ≠ .lrW ∧ targetOf 0x20000000 ≠ .periph ∧ canFinish loading 0 = true ∧
    (pathRead loading (coreInit 0) 0x20000000 0x20000000 none (lsuSize .ldW) false false .ok .ok 0).1 = some [0, 0, 0, 0] ∧ flashWaits loading 0x20000000 = false := by decide +kernel

theorem test_LoadReturns_alone : oneLoad = unitBundle 0 .lsu (lsuCode .ldW) 0 0 ∧ StallsIn loading 0 (.access 0x20000000 0x20000000 none false) oneLoad ∧ targetOf 0x20000000 ≠ .flash ∧
    (pathRead loading (coreInit 0) 0x20000000 0x20000000 none (lsuSize .ldW) false false .ok .ok 0).2 = loading ∧ loading.pair.inlog.length < 191 ∧ GuardHolds loading 0 0 ∧
    SrcReads ((logInput loading 0 (.value 0)).upCore 0 (fun c => { passCycles 3 c with got := c.got ++ [.load 0], stall := none })) 0 0 0 ∧ (0 : Word).toNat % lsuSize .ldW = 0 :=
  ⟨by decide, ⟨rfl, by decide⟩, by decide, by decide +kernel, by decide, rfl, ⟨by intro id h; obtain rfl := Src.sock.inj (show Src.sock 0 = .sock id from h); decide, rfl⟩, by decide⟩

theorem test_FetchBringsItsLine_applies : let s := stalled (.fetch 0x10000100 0x11000100) none false
    (s.core 0).stall = some { cause := .fetch 0x10000100 0x11000100, bundle := none } ∧ canFinish s 0 = true ∧ (s.core 0).run = .running ∧
      (fetchLine s 0 0x10000100 0x11000100 .ok .ok 0).1 = true ∧ (((fetchLine s 0 0x10000100 0x11000100 .ok .ok 0).2).core 0).run = .running ∧ flashWaits s 0x11000100 = false := by decide

/-- A core with one buffered store to shared SRAM. -/
def storing : State := (placed []).setCore 0 { run := .running, wbuf := [{ addr := 0x20000000, size := 4, data := 5, va := 0x20000000, cp := none, sec := false, bad := false }] }

theorem test_OldestBufferedStore_applies : (storing.core 0).wbuf = [{ addr := 0x20000000, size := 4, data := 5, va := 0x20000000, cp := none, sec := false, bad := false }] ∧
    (pathWrite (storing.upCore 0 (fun c => { c with wbuf := [] })) (coreInit 0) 0x20000000 0x20000000 none (leBytes 4 5) false 0).1 = false ∧
    (pathWrite (storing.upCore 0 (fun c => { c with wbuf := [] })) (coreInit 0) 0xF0000000 0xF0000000 none (leBytes 4 5) false 0).1 = true := by decide

/-! ### Witnesses: reset, SYS and start-up -/

theorem test_MainReset_applies : ({ placed [] with boot := { grace := true } } : State).boot.grace = true ∧ Reaches (placed []) 0 SYS.SWRST true := by decide

theorem test_SystemRegisterWrites_apply : Reaches (placed []) 0 SYS.HEALTH true ∧ (let s := (placed []).setCore 5 { pc := 0x18000000 }; Reaches s 0 SYS.PHASE true ∧ ¬ ((0 : Nat) = 0 ∧ (s.core 5).pc.toNat < 0x20000)) ∧
    (Reaches (placed [(SYS.PHASE, 1)]) 0 SYS.PLAYHOLD true ∧ (placed [(SYS.PHASE, 1)]).phase = 1 ∧ (placed [(SYS.PHASE, 1)]).bit SYS.PLAYHOLD (0 : Fin 5) = true ∧ (placed []).dom (coreDom 0) ≠ .off) ∧
    ((placed []).phase ≠ 1 ∧ (placed []).phase ≠ 2) ∧ Reaches (placed []) 0 SYS.BOOTSEL true ∧ Reaches (placed []) 0 CLK.APPDIV true := by decide

/-- A device whose lifecycle fuse 0, 3 or 6 is burnt: PROVISIONED, OWNED, RETIRED. -/
def fused (i : Nat) : State := burnFuse (placed []) i

/-- Start-up at a step, with registers set. -/
def booting (st : BootStep) (l : List (Nat × Word)) : State := { placed l with boot := { step := st } }

theorem test_StartUp_applies : (booting .power []).boot.step = .power ∧ (booting .window []).boot.step = .window ∧
    (({ fused 0 with boot := { step := .verify } } : State).boot.step = .verify ∧ lifecycle ({ fused 0 with boot := { step := .verify } } : State) ≠ 0 ∧
      imageCheck ({ fused 0 with boot := { step := .verify } } : State) (({ fused 0 with boot := { step := .verify } } : State).fld SYS.BOOTSEL 0 0) false 0 ≠ 0) ∧
    ((placed [(SYS.HEALTH, 0x100)]).bit SYS.HEALTH 8 = true ∧ (placed [(SYS.HEALTH, 0x100)]).boot.grace = false ∧ (placed [(SYS.HEALTH, 0x100)]).svc.ustate ≠ 6) ∧
    (let s := (placed [(SYS.PLAYHOLD, 0)]).setDom (Dom.app 0) .off; s.dom (Dom.app (0 : Fin 4)) = .off ∧ s.bit SYS.PLAYHOLD (0 : Fin 4) = false) ∧
    (placed [(CLK.STATUS, 0x100)]).bit CLK.STATUS 8 = true := by decide

/-! ### Witnesses: lockstep, monitors, faults and debug -/

/-- The link core runs, with the pair as given. -/
def linkPair (l : Lockstep) (r : List (Nat × Word)) : State := { (placed r).setCore 4 { run := .running } with pair := l }

theorem test_Lockstep_applies : (((linkPair {} []).core 4).run = .running ∧ ((linkPair {} []).core 4).stall = none ∧ (linkPair {} []).pair.restoring = false ∧ (linkPair {} []).pair.replay = false ∧
      (linkPair {} []).bit SYS.LSTEP 16 = false) ∧
    (((linkPair {} [(SYS.LSTEP, 0x10000)]).core 4).run = .running ∧ (linkPair {} [(SYS.LSTEP, 0x10000)]).pair.restoring = false ∧ (linkPair {} [(SYS.LSTEP, 0x10000)]).bit SYS.LSTEP 16 = true) ∧
    (((linkPair { restoring := true } []).core 4).run = .running ∧ (linkPair { restoring := true } []).pair.restoring = true) ∧
    (((linkPair { replay := true } []).core 4).run = .running ∧ (linkPair { replay := true } []).pair.replay = true ∧ (linkPair { replay := true } []).pair.rin = [] ∧
      (linkPair { replay := true } []).pair.rout = 0) := by decide

theorem test_Monitors_apply : (∀ pll : Fin 3, (placed [(CLK.STATUS, 0x1C)]).bit CLK.STATUS (2 + pll) = true) ∧ (∀ pll : Fin 3, (placed []).bit CLK.STATUS (2 + pll) = false) ∧
    (({ placed [] with flt := { relocks := [(1, 0), (0, 0), (1, 0)] } } : State).flt.relocks.filter (fun x => x.1 == (1 : Fin 3).val && decide (0 - x.2 ≤ 32000000))).length = 2 ∧
    (placed [(CLK.STATUS, 2)]).bit CLK.STATUS 1 = true ∧ (let s : State := { placed [] with uptime := 32000000 }; s.bit CLK.STATUS 1 = false ∧ pwrState s ≤ 1 ∧ s.flt.hfxoTry + 32000000 ≤ s.uptime) ∧
    (let s := (placed [(FLT.WDCFG 0, 0x80010005), (SYS.PLAYHOLD, 0)]).setCore 0 { run := .running }; wdRuns s 0 = true ∧ s.fld (FLT.WDSTAT (0 : Fin 6)) 15 0 ≤ 1) ∧ Reaches (placed []) 0 FLT.WDKICK true := by decide

theorem test_Injection_applies : (Reaches (placed []) 0 FLT.INJCTRL true ∧ (placed []).phase ≠ 2) ∧ (Reaches (placed [(SYS.PHASE, 2)]) 0 FLT.INJCTRL true ∧ (placed [(SYS.PHASE, 2)]).phase = 2) ∧
    Reaches (placed []) 0 FLT.CURTCNT true := by decide

/-- A debug packet that waits. -/
def packet (l : List Byte) (r : List (Nat × Word)) : State := { placed r with svc := { dbg := some l } }

theorem test_DebugPort_applies : (let s := live 0 []; Reaches s 0x10 DBG.HALT true ∧ s.rd DBG.HALT = 0 ∧ (s.core 0).run = .running ∧ (s.core 0).xfer = none ∧ (s.core 0).stall = none ∧
      ∀ r, (s.core r).run ≠ .debug) ∧
    ((2 : Nat) ≠ 0x10 ∧ Reaches (placed []) 2 DBG.HALT true) ∧
    (let s := (placed []).setCore 0 { run := .debug }; Reaches s 0x10 DBG.STEP true ∧ (s.core 0).run = .debug ∧ s.dom (coreDom 0) = .on ∧ s.flt.steps = 0) ∧
    ((packet (0x0A :: 1 :: (leBytes 4 0x20000000 ++ leBytes 1 ((63 : Fin 64) + 1))) []).svc.dbg = some (0x0A :: 1 :: (leBytes 4 0x20000000 ++ leBytes 1 ((63 : Fin 64) + 1))) ∧
      0x20000000 % 4 = 0 ∧ lifecycle (packet [] []) ≠ 3) ∧
    ((packet (0x0B :: 1 :: (leBytes 4 0x20000000 ++ leBytes 4 7)) []).svc.dbg = some (0x0B :: 1 :: (leBytes 4 0x20000000 ++ leBytes 4 (7 : Word).toNat))) ∧
    0x20000001 % 4 ≠ 0 ∧ lifecycle ({ fused 6 with svc := { dbg := some [0x0A, 1] } } : State) = 3 := by decide

/-! ### Witnesses: accesses -/

theorem test_RegisterWrite_applies : (placed []).flt.steps = 0 ∧ Reaches (placed []) 0 SYS.RSTCAUSE true ∧ regRow SYS.RSTCAUSE ≠ none ∧ Reaches (placed []) 0 LNK.TIEN true ∧ regRow LNK.TIEN ≠ none ∧
    Reaches (tuned []) 0 RXC.EVT true ∧ regRow RXC.EVT ≠ none := by decide

theorem test_AccessesMayBeTurnedAway_applies : (SYS.ID + 1) % 4 ≠ 0 ∧ pageRows (0x3FFFF000 / 4096) = none ∧
    (Reaches (placed []) 0 0x30000FFC true ∧ regRow 0x30000FFC = none) ∧
    (busReach (placed []) SYS.SWRST ≠ .err ∧ curtainBlocks (placed []) 2 SYS.SWRST true = true ∧ (placed []).bit FLT.CURT0 31 = false ∧ (placed [(FLT.CURT0, 0x80000000)]).bit FLT.CURT0 31 = true) ∧
    (pageDom (RXC.CTRL / 4096) = Dom.link ∧ ((placed []).setDom Dom.link .od).dom Dom.link = .od ∧ RXC.CTRL % 4 = 0 ∧ pageRows (RXC.CTRL / 4096) ≠ none ∧ curtainBlocks ((placed []).setDom Dom.link .od) 0 RXC.CTRL true = false ∧ pwrPhase ((placed []).setDom Dom.link .od) ≠ 2 ∧ (0 : Nat) ≠ 0x10) ∧
    ((tuned []).dom Dom.radio = .on ∧ (tuned []).doms.length = 28) := by decide

/-! ### Witnesses: stage manager, queues and cue lines -/

/-- A request of kind `k` by `who` waits on Q110: the ring and the block lie in the first scene page, whose prop has the attributes given. -/
def asking (who : Nat) (k : Byte) (arg0 arg1 : Nat) (attr : Word) (r : List (Nat × Word)) : State :=
  let s := scene ([(QUE.QCFG 110, 0x400), (QUE.QSTAT 110, 1), (QUE.QBASE 110, 0x40000800)] ++ r)
  let s := (s.stw 0x20000800 0x40000100).setBytes 0x20000100 ([k, 0, 0, 0] ++ leBytes 4 arg0 ++ leBytes 4 arg1)
  qSetTag (s.upStg (fun g => { g with regions := [{ page0 with attr := attr }] })) 110 0 who

/-- The request that is taken from it, whether it is served next and is of a kind, and whether it names a prop. -/
def asked (s : State) : Request := ((takeRequest s 110).1).getD { addr := 0, kind := 0, signal := false, replyq := 0, arg0 := 0, arg1 := 0, arg2 := 0, arg3 := 0, who := 0, trust := false }
def asks (s : State) (k : Nat) : Bool := decide (requestQueue s (k == 0x10) = some 110) && decide (headKind s 110 = some k) && (takeRequest s 110).1.isSome
def names (s : State) (exact : Bool) : Bool := match requestRegion (takeRequest s 110).2 (asked s) exact with | .inr _ => true | .inl _ => false

theorem test_Requests_apply : (let s := asking 2 3 0x40000000 2 0 []; asks s 3 = true ∧ (asked s).arg0 = 0x40000000 ∧ regionAt (takeRequest s 110).2 0x40000000 = some page0 ∧ ownsRegion (asked s) page0 = false) ∧
    (∀ k ∈ ([3, 5, 7, 8] : List Nat), let s := asking 0 (BitVec.ofNat 8 k) 0x40000000 2 0 []; asks s k = true ∧ names s true = true ∧ pteFld ((takeRequest s 110).2.pte 0x40000000) 14 12 ≠ 4) := by decide +kernel

theorem test_Requests_free_and_pin : (let s := asking 0 2 0x40000000 0 0 []; asks s 2 = true ∧ names s true = true ∧ backsRing (takeRequest s 110).2 page0 = true) ∧
    (let s := (asking 0 2 0x40001000 0 0 []).upStg (fun g => { g with regions := [page0, { page0 with base := 0x40001000, index := 2 }] }); asks s 2 = true ∧ names s true = true ∧
      backsRing (takeRequest s 110).2 { page0 with base := 0x40001000, index := 2 } = false) ∧
    (let s := asking 0 4 0x40000000 1 0 []; asks s 4 = true ∧ names s true = true ∧ (asked s).arg1 % 8 = 1 ∧ tierAllowed 0 1 (attrOwner 0 - 2) = true) ∧
    (let s := asking 0 6 0x40000FFF 0 0 []; asks s 6 = true ∧ names s false = true ∧ testB (asked s).arg1 0 = false) ∧ asks (asking 0 0x55 0 0 0 []) 0x55 = true := by decide +kernel

theorem test_Requests_alloc_and_done : (let s := asking 0 1 0x1000 0 0 []; let t := (takeRequest s 110).2; let q := asked s; asks s 1 = true ∧ q.trust = true ∧ q.arg0 = 0x1000 ∧ q.arg3 = 0 ∧
      attrPers (BitVec.ofNat 32 (q.arg1 % 2048)) ≠ 3 ∧ attrFast (BitVec.ofNat 32 (q.arg1 % 2048)) = false ∧ t.stg.regions.length < 4096 ∧
      framesOk t (withBits (BitVec.ofNat 32 (q.arg1 % 2048)) 10 8 (attrOwner (BitVec.ofNat 32 (q.arg1 % 2048)))) 1 [(1, 7)] = true ∧
      rangeFree t 0x40001000 0x1000 = true ∧ rangeTables t [] 0x40001000 0x1000 = true ∧ (∀ x ∈ t.stg.regions, x.index ≠ 2) ∧ ∀ x ∈ t.stg.regions, x.acl ≠ 5) ∧
    (let s := asking 2 0x10 0x40000200 0 0 []; let u := s.upStg (fun g => { g with task := g.task.set 0 0x40000200 }); asks u 0x10 = true ∧ (asked u).who = (0 : Fin 4).val + 2 ∧
      (asked u).arg0 ≠ 0 ∧ (takeRequest u 110).2.stg.task[(0 : Fin 4)] = (asked u).arg0) := by decide +kernel

theorem test_PageWalk_applies : isScene 0x40000FFF = true ∧ (placed []).bit STG.CTRL 0 = false ∧ ((mapped 1 []).bit STG.CTRL 0 = true ∧ (mapped 1 []).stg.zeroFill.contains (0x40000FFF / 4096 * 4096) = false ∧
    pteBit ((mapped 1 []).pte 0x40000FFF) 0 = true ∧ (regionAt (mapped 1 []) 0x40000FFF).isSome = true ∧ pteBit ((mapped 0 []).pte 0x40000FFF) 0 = false ∧ (mapped 1 []).stg.tlb.find? (fun t => t.init == 2 % 256 && t.page == 0x40000FFF / 4096 * 4096) = none) := by decide +kernel

/-- A migration channel 0 in a state, with its record. -/
def migrating (st : Word) (m : Migration) : State := (mapped 1 [(STG.MIGCTRL 0, st)]).upStg (fun g => { g with mig := g.mig.set 0 m })

theorem test_Migration_idle : let s := scene [(STG.MIGSRC 0, 0x40000000), (STG.MIGDST 0, 0x29)]; Reaches s 0 (STG.MIGCTRL (0 : Fin 2)) true ∧ migState s 0 = 0 ∧ pteBit (s.pte 0x40000000) 4 = false ∧
      migAllowed s 0x40000000 (s.fld (STG.MIGDST 0) 2 0) (s.fld (STG.MIGDST 0) 17 3) (s.bit (STG.MIGDST 0) 18) = true ∧ pteBit ((mapped 0x1013 [(STG.MIGSRC 0, 0x40000000)]).pte 0x40000000) 4 = true := by decide +kernel

theorem test_Migration_copied : let s := migrating 0x10 { page := 0x40000000, src := 0x20000000, dst := 0x20005000, tier := 1, frame := 5 }; migState s 0 = 1 ∧ migRefused s s.stg.mig[0] = false ∧
      (migCopy s 0 s.stg.mig[0] 0 64).1 = true ∧ (migCopy s 0 { s.stg.mig[0] with src := 0xF0000000 } 0 64).1 = false := by decide +kernel

theorem test_Migration_pass_within : let s := migrating 0x20 { page := 0x40000000, tier := 1, dirty := 0xFFFF }; migState s 0 = 2 ∧ migRefused s s.stg.mig[0] = false ∧ dirtyCount s.stg.mig[0] ≤ finalMax s.stg.mig[0].tier := by decide +kernel

theorem test_Migration_pass_again : let s := migrating 0x20 { page := 0x40000000, src := 0x20000000, dst := 0x20005000, tier := 1, dirty := 0x1FFFF }; finalMax s.stg.mig[0].tier < dirtyCount s.stg.mig[0] ∧ s.fld (STG.MIGSTAT (0 : Fin 2)) 3 0 < orIfZero 1 (s.fld STG.MIGCFG 3 0) ∧
      (copyDirty (s.setFld (STG.MIGSTAT 0) 10 4 (dirtyCount s.stg.mig[0])) 0 s.stg.mig[0]).1 = true := by decide +kernel

theorem test_Migration_pass_abort : let s := (migrating 0x20 { page := 0x40000000, tier := 1, dirty := 0x1FFFF }).wr (STG.MIGSTAT 0) 4; finalMax s.stg.mig[0].tier < dirtyCount s.stg.mig[0] ∧
      orIfZero 1 (s.fld STG.MIGCFG 3 0) ≤ s.fld (STG.MIGSTAT (0 : Fin 2)) 3 0 := by decide +kernel

theorem test_Migration_final : let s := migrating 0x30 { page := 0x40000000, tier := 1 }; migState s 0 = 3 ∧ migRefused s s.stg.mig[0] = false ∧ (∀ p : Fin 6, (s.core p).wbuf = []) ∧ (copyDirty s 0 s.stg.mig[0]).1 = true ∧ (pteAddr (copyDirty s 0 s.stg.mig[0]).2 s.stg.mig[0].page).isSome = true := by decide +kernel

theorem test_Migration_read : (placed []).stg.plan = [] ∧ Reaches (placed [(STG.MIGCTRL 0, 0x40)]) 0 (STG.MIGSTAT (0 : Fin 2)) false ∧ (placed [(STG.MIGCTRL 0, 0x40)]).trusted 0 = true ∧
    migState (placed [(STG.MIGCTRL 0, 0x40)]) 0 = 4 ∧ migState (placed [(STG.MIGCTRL 0, 0x50)]) 0 = 5 := by decide +kernel

/-- One descriptor on the restart list, for any player that runs. -/
def restartable : State := (((placed [(STG.CTRL, 2), (SYS.PLAYHOLD, 0)]).stw 0x20000200 0x0F000000).setBytes 0x20000210 (List.replicate 16 0xFF)).upStg (fun g => { g with restart := [0x20000200] })

theorem test_StageManager_applies : (placed [(STG.STATUS, 0x100)]).bit STG.STATUS 8 = true ∧ (placed []).bit STG.CTRL 1 = false ∧
    (let s := placed [(STG.CTRL, 1), (SYS.PHASE, 1)]; Reaches s 0 STG.CTRL true ∧ s.bit STG.CTRL 1 = false ∧ s.bit STG.CTRL 0 = true ∧ s.phase ≠ 0) ∧
    (let s : State := { placed [] with cueQ := [.cons 29] }; s.cueQ.contains (.cons (14 + (15 : Fin 16))) = true ∧ s.bit (STG.TRIG (15 : Fin 16)) 0 = false) ∧
    (let s : State := { placed [(STG.TRIG 15, 1), (STG.TRIGQ 15, 0x10)] with cueQ := [.cons 29] }; s.bit (STG.TRIG (15 : Fin 16)) 0 = true ∧ s.bit (STG.TRIGQ (15 : Fin 16)) 4 = true) ∧
    Reaches (placed []) 0 (STG.TRIGQ (15 : Fin 16)) true ∧ (Reaches (placed []) 2 (STG.RUN (0 : Fin 4)) false ∧ (2 : Nat) = (0 : Fin 4).val + 2) ∧
    (Reaches (placed []) 3 (STG.RUN (0 : Fin 4)) false ∧ (placed []).trusted 3 = false ∧ (3 : Nat) ≠ (0 : Fin 4).val + 2) ∧
    (let s := placed [(STG.STATUS, 0x200)]; Reaches s 0 STG.STATUS true ∧ s.bit STG.STATUS 9 = true ∧ s.bit DMC.FREEZE 0 = false) := by decide +kernel

/-- A queue of elements of 4 or of 32 bytes with some entries, whose ring lies in the first scene page. -/
def ring (q : Nat) (cfg count : Word) : State := scene [(QUE.QCFG q, cfg), (QUE.QSTAT q, count), (QUE.QBASE q, 0x40000000)]

theorem test_QueueRegisters_apply : (Reaches (placed []) 0 (QUE.QPUSH (0 : Fin 128)) true ∧ qOn (placed []) 0 = false) ∧
    (let s := ring 127 0x402 4; Reaches s 0 (QUE.QPUSH (127 : Fin 128)) true ∧ qOn s 127 = true ∧ qSize s 127 = 4 ∧ qAllowed s 127 0 true = true ∧ qNoRoom s 127 = true ∧ s.bit (QUE.QCFG (127 : Fin 128)) 8 = false ∧
      qOldestAtTail ((ring 127 0x502 4).upStg (fun g => { g with hold := [(127, 0)] })) 127 = false) ∧
    (let s := ring 127 0x402 0; qOn s 127 = true ∧ qSize s 127 = 4 ∧ qNoRoom s 127 = false ∧ (engineWrite s queueBlock (qSlot s 127 (qTail s 127)) (leBytes 4 5) false).1 = false) ∧
    (let s := ring 127 0x402 0; qAllowed s 127 2 true = false ∧ Reaches s 2 (QUE.QPUSH (127 : Fin 128)) true) ∧
    (let s := ring 0 0x432 1; qOn s 0 = true ∧ qSize s 0 ≠ 4 ∧ qAllowed s 0 0 false = true) ∧
    (let s := ring 0 0x402 0; Reaches s 0 (QUE.QPOP (0 : Fin 128)) false ∧ qOn s 0 = true ∧ qAllowed s 0 0 false = true ∧ qCount s 0 = 0) ∧
    (let s := ring 0 0x402 1; qCount s 0 ≠ 0 ∧ qSize s 0 = 4 ∧ (qRead s 0 (qHead s 0)).1 = some 0) ∧
    (Reaches (placed []) 0 (QUE.QCFG (0 : Fin 128)) true ∧ (placed []).trusted 0 = true ∧ (0 : Word).getLsbD 11 = false ∧ (∀ p : Fin 6, ((placed []).core p).stall = none) ∧ (qClear (placed []) 0).cores = (placed []).cores) ∧
    (qOn (ring 0 0x402 1) 0 = true ∧ ∀ p : Fin 6, ((ring 0 0x402 1).core p).stall = none) ∧ (Reaches (placed []) 0 (QUE.QSTAT (0 : Fin 128)) true ∧ qMayClear (placed []) 0 0 = true) := by decide +kernel

theorem test_CueEvents_apply : (Reaches (placed []) 0 CUE.SWSET0 true ∧ ownsChan (placed []) 0 (31 : Fin 32) = true ∧ (placed []).svc.motionLine ≠ some (31 : Fin 32).val) ∧
    (let s := placed [(CUE.CHCFG 3, 0x700)]; Reaches s 2 CUE.SWSET0 true ∧ ownsChan s 2 (3 : Fin 32) = false) ∧
    producerPowered (placed []) (famOf 8) 10 = false ∧ (producerPowered (placed []) (famOf 0) 0 = true ∧ (0 : Fin 10).val ≠ 4) ∧
    slotOn (placed [(CUE.CHCFG 5, 0x1040)]) (5 : Fin 64) 6 .rxq 5 = true ∧ (placed [(PIN.PEV 0, 47)]).fld (PIN.PEV (0 : Fin 16)) 5 0 < 48 := by decide +kernel

theorem test_CueConsumers_apply : (let s : State := { placed [] with cueQ := [.cons 5] }; s.cueQ.contains (.cons (5 : Fin 6)) = true ∧ s.dom (coreDom 5) = .on ∧ (s.core 5).latch = false) ∧
    (let s : State := { latched 5 with cueQ := [.cons 5] }; s.cueQ.contains (.cons (5 : Fin 6)) = true ∧ s.dom (coreDom 5) = .on ∧ (s.core 5).latch = true) ∧
    (({ placed [] with cueQ := [.irq 5 15] } : State).cueQ.contains (.irq (5 : Fin 6) (15 : Fin 16)) = true) ∧
    ((placed []).cells[(15 : Fin 16)].changed = false ∧ (placed []).cells[(15 : Fin 16)].fired = false ∧ (placed []).fld (CUE.LCCFG (15 : Fin 16)) 17 16 = 0 ∧ (placed []).fld (CUE.LCCFG (15 : Fin 16)) 27 24 = 0) ∧
    (Reaches (placed []) 0 (CUE.LCCFG (15 : Fin 16)) true ∧ ownsCell (placed []) 0 (15 : Fin 16) = true) ∧
    (Reaches (placed []) 0 (CUE.CHCFG (63 : Fin 64)) true ∧ (placed []).trusted 0 = true ∧ bitsOf 0x1300 10 8 ≠ (placed []).fld (CUE.CHCFG (63 : Fin 64)) 10 8 ∧ (0x1300 : Word).getLsbD 12 = true) ∧
    (Reaches (placed [(CUE.CHCFG 63, 0x700)]) 2 (CUE.CHCFG (63 : Fin 64)) true ∧ ownsChan (placed [(CUE.CHCFG 63, 0x700)]) 2 (63 : Fin 64) = false) ∧
    Reaches (placed []) 0 (CUE.LCOWN (15 : Fin 16)) true ∧ Reaches (placed []) 0 (CUE.IRQPEND (5 : Fin 6)) true ∧ Reaches (placed []) 0 CUE.OVR0 true := by decide +kernel

/-! ### DRAM and flash -/

/-- A DRAM controller that serves, and one frozen by a wide error. -/
def dramOn (l : List (Nat × Word)) : State := (placed ([(DMC.CTRL, 1), (DMC.STATUS, 1)] ++ l)).setDom Dom.dramsys .on

theorem test_DramTraining_applies : let s := ((placed []).setDom Dom.dramsys .on).upDram (fun d => { d with trainAll := true }); s.dom Dom.dramsys = .on ∧ s.dram.trainAll = true := by decide +kernel

theorem test_DramFill_applies : (let s := dramOn [(DMC.STATUS, 0x11)]; s.bit DMC.STATUS 4 = true ∧ s.bit DMC.STATUS 0 = true ∧ s.bit DMC.FREEZE 0 = false ∧ s.dom Dom.dramsys = .on ∧ s.fld DMC.FILLPTR 14 0 + 1 < framesPowered s) ∧
    (let s := dramOn [(DMC.STATUS, 0x11), (DMC.CTRL, 5), (DMC.ADDRMAP, 0), (DMC.FILLPTR, 14335)]; framesPowered s ≤ s.fld DMC.FILLPTR 14 0 + 1) := by decide +kernel

theorem test_DramControl_applies : Reaches (dramOn []) 0 DMC.CTRL true ∧ ((dramOn [(DMC.STATUS, 3)]).bit DMC.STATUS 1 = true ∧ (dramOn []).dram.trainAll = false) ∧
    ((dramOn [(DMC.STATUS, 0x41), (DMC.CTRL, 3)]).bit DMC.STATUS 6 = true ∧ ∀ c : Fin 2, migState (dramOn [(DMC.STATUS, 0x41), (DMC.CTRL, 3)]) c ≠ 3) := by decide +kernel

theorem test_DramRefresh_applies : ((placed []).setDom Dom.dramsys .ret).dom Dom.dramsys ≠ .on ∧ (dramOn []).dom Dom.dramsys = .on ∧ refreshCredit (dramOn [(DMC.REFSTAT, 0x19)]) 0 ≤ -7 ∧ (let s := dramOn [(DMC.REFCFG, 0)]; -7 < refreshCredit s 0 ∧ refreshCredit s 0 ≤ 0 ∧ s.bit DMC.REFCFG 0 = false) ∧
    (let s := dramOn [(DMC.REFSTAT, 0x800), (DMC.REFCFG, 3)]; -7 < refreshCredit s 1 ∧ refreshCredit s 1 = 8 ∧ s.bit DMC.REFCFG 0 = true) ∧
    (let s := dramOn [(DMC.REFSTAT, 0x700), (DMC.REFCFG, 3)]; s.bit DMC.REFCFG 1 = true ∧ -8 ≤ refreshCredit s 1 ∧ refreshCredit s 1 < 8) := by decide +kernel

theorem test_DramMapping_applies : (Reaches (dramOn []) 0 DMC.ADDRMAP true ∧ (dramOn []).bit DMC.CTRL 0 = true) ∧ ((placed []).bit DMC.CTRL 0 = false ∧ (9 : Word).toNat % 16 ≤ 9 ∧ 9 < (10 : Word).toNat % 16) := by decide +kernel

/-- A DRAM word with a stored check byte that differs from that of its data, in a valid frame. -/
def dramSyn (x : BitVec 8) : State := (dramOn []).upDram (fun d => { d with valid := [0], badChk := [(0x80000000, x)] })

/-- 06 R143: a syndrome of one bit is that of a check bit, whatever the columns of the data bits. -/
theorem test_single_bit : synSingle 1 = true := by
  unfold synSingle synBit
  split <;> simp [onesBelow] <;> decide

theorem test_DramWords_apply : (dramOn []).bit FLT.INJCTRL 16 = false ∧ (targetOf 0x80000004 = .dram ∧ dramServes (dramOn []) 0x80000004 = true ∧ pathSyn (dramOn []) 0x80000000 .clean = 0) ∧
    ((dramSyn 0xFF).dram.valid.contains (frameOfDram 0x80000004) = true ∧ pathSyn (dramSyn 0xFF) 0x80000000 .clean = 0xFF ∧ dramServes (dramSyn 0xFF) 0x80000004 = true) ∧
    (pathSyn (dramSyn 0) 0x80000000 (.syndrome 1) = 1 ∧ synSingle (pathSyn (dramSyn 0) 0x80000000 (.syndrome 3)) = false ∧ pathSyn (dramSyn 0) 0x80000000 (.syndrome 3) = 3) ∧
    0x86FFFFF8 % 8 = 0 ∧ targetOf 0x86FFFFF8 = .dram ∧ 0x80000004 % 8 + [(1 : Byte), 2].length < 8 ∧
    (let s := dramOn [(DMC.SCRUB, 1)]; s.fld DMC.SCRUB 7 0 ≠ 0 ∧ s.dram.patrol = 0 ∧ dramServes s 0x80000000 = true ∧ storedSyn s 0x80000000 = 0) := by decide +kernel

/-- A frozen controller. -/
def dramFrozen : State := dramOn [(DMC.FREEZE, 3), (DMC.STATUS, 5)]

theorem test_DramFrozen_applies : (Reaches (dramOn []) 0 DMC.DIAGCTRL true ∧ (dramOn []).bit DMC.FREEZE 0 = false) ∧
    (Reaches dramFrozen 0 DMC.DIAGCTRL true ∧ dramFrozen.bit DMC.FREEZE 0 = true ∧ dramFrozen.bit DMC.CTRL 2 = false ∧ dramFrozen.fld DMC.DIAGADDR 25 3 * 8 < 0x03800000) ∧
    (let s := dramFrozen.upDram (fun d => { d with valid := [0] }); s.dram.valid.contains (frameOfDram (dramUnmap s (s.fld DMC.DIAGADDR 31 31) (s.fld DMC.DIAGADDR 25 3 * 8))) = true) ∧
    (Reaches dramFrozen 0 DMC.FREEZE true ∧ dramFrozen.fld DMC.FREEZE 2 1 ≠ 2 ∧ dramFrozen.dram.release = 0) ∧
    (let s := dramFrozen.upDram (fun d => { d with release := 2 }); s.dram.release = 2 ∧ s.dram.badChk = []) ∧
    (Reaches (dramOn []) 0 DMC.POISONQ false ∧ (dramOn []).dram.poisonq = []) ∧
    (let s := (dramOn []).upDram (fun d => { d with poisonq := [28671] }); Reaches s 0 DMC.POISONQ false ∧ s.dram.poisonq = 28671 :: [] ∧ 28671 < 28672) := by decide +kernel

/-- Flash with one descriptor in queue 108: operation, flash offset, source, length. -/
def flashJob (op : Nat) (f src n : Nat) (l : List (Nat × Word)) : State :=
  ((((scene ([(FLC.CTRL, 1), (QUE.QCFG 108, 0x402), (QUE.QSTAT 108, 1), (QUE.QBASE 108, 0x40000000)] ++ l)).stw 0x20000000 0x20000100).stw 0x20000100 (BitVec.ofNat 32 op)).stw 0x20000104 (BitVec.ofNat 32 f)).stw 0x20000108
    (BitVec.ofNat 32 src) |>.stw 0x2000010C (BitVec.ofNat 32 n)

/-- Its head descriptor. -/
def flashHead (op : Nat) (f src n : Nat) (l : List (Nat × Word)) : Option (FlashDesc × Bool) × State := takeDesc (flashJob op f src n l) (fun x => x == op)

theorem test_FlashQueue_head : flcTakes (flashJob 1 0x40000 0x20000200 64 []) = true ∧ (flashHead 1 0x40000 0x20000200 64 []).1 =
    some ({ addr := 0x20000100, op := 1, safe := false, verify := false, signal := false, replyq := 0, flash := 0x40000, src := 0x20000200, len := 64 }, false) := by decide +kernel

/-- A condition on the head descriptor and the state after it is taken. -/
def headHas (r : Option (FlashDesc × Bool) × State) (p : FlashDesc → Bool → State → Bool) : Bool := match r.1 with | some (d, u) => p d u r.2 | none => false

theorem test_FlashProgram_applies : headHas (flashHead 1 0x40000 0x20000200 63 []) (fun d _ s1 => decide (programRefusal s1 d {} = (8, 0))) = true ∧
    headHas (flashHead 1 0x40000 0x20000200 64 []) (fun d _ s1 => decide (programRefusal s1 d {} = (0, 0))) = true ∧
    headHas (flashHead 1 0x44000 0x20000200 16320 []) (fun d _ s1 => decide (rangeBad d.flash d.len false = false) && s1.bit FLC.CTRL 0) = true ∧ (flashJob 1 0x40000 0x20000200 64 []).bit FLC.CTRL 0 = true ∧
    (placed []).bit FLC.CTRL 0 = false := by decide +kernel

theorem test_FlashErase_applies : headHas (flashHead 2 0x3FC000 0 0 []) (fun d _ s1 => decide (d.flash % 0x4000 = 0) && decide (d.flash < 0x400000) && decide (blockLocked s1 d.flash = false) && decide (flcState s1 ≠ 3)) = true ∧
    headHas (flashHead 2 0x400000 0 0 []) (fun d _ _ => decide (0x400000 ≤ d.flash)) = true := by decide +kernel

theorem test_FlashRetire_applies : headHas (flashHead 4 1 0 0 [(SYS.BOOTSEL, 0)]) (fun d _ s1 => decide (s1.fld SYS.BOOTSEL 0 0 ≠ d.flash % 2) && !sectorBlocked s1 (8 * (d.flash % 2) + 7)) = true ∧
    headHas (flashHead 4 0 0 0 [(SYS.BOOTSEL, 0)]) (fun d _ s1 => decide (s1.fld SYS.BOOTSEL 0 0 = d.flash % 2)) = true ∧ headHas (flashHead 7 0 0 0 []) (fun _ _ _ => true) = true := by decide +kernel

theorem test_FlashEpoch_applies : headHas (flashHead 3 0 0x20000200 0 []) (fun d _ s1 => srcOk d.src && decide (blankBurst s1 (d.flash % 2) = some 0) && !s1.bit (FLC.UNSETTLED 0) (8 * (d.flash % 2) + 7) &&
      !sectorBlocked s1 (8 * (d.flash % 2) + 7) && (physRead s1 flashInit d.src 64).1.isSome) = true ∧
    headHas (flashHead 3 0 0x20000201 0 []) (fun d _ _ => !srcOk d.src) = true ∧
    headHas (takeDesc ((List.range 16).foldl (fun s i => s.setByte (flashAt (epochBurst 1 i)) 0) (flashJob 3 1 0x20000200 0 [])) (fun x => x == 3))
      (fun d _ s1 => srcOk d.src && (blankBurst s1 (d.flash % 2)).isNone) = true := by decide +kernel

theorem test_FlashBlankcheck_applies : headHas (flashHead 5 0x40000 0 64 []) (fun d _ s1 => !rangeBad d.flash d.len true && !s1.bit (FLC.UNSETTLED (d.flash / 0x4000 / 32)) (d.flash / 0x4000 % 32) &&
      !sectorBlocked s1 (d.flash / 0x4000) && (List.range (d.len / 64)).all (fun i => flashBlank s1 (d.flash + 64 * i) 64)) = true ∧
    headHas (flashHead 5 0x40000 0 32 []) (fun d _ _ => rangeBad d.flash d.len true) = true ∧
    headHas (takeDesc ((flashJob 5 0x40000 0 64 []).setByte (flashAt 0x40000) 0) (fun x => x == 5)) (fun d _ s1 => decide (firstDirty s1 d.flash d.len = some 0x40000) && !sectorBlocked s1 (d.flash / 0x4000)) = true := by decide +kernel

/-- The same descriptor in the urgent queue 109. -/
def flashUrgent (l : List (Nat × Word)) : State :=
  ((scene ([(FLC.CTRL, 1), (QUE.QCFG 109, 0x402), (QUE.QSTAT 109, 1), (QUE.QBASE 109, 0x40000000)] ++ l)).stw 0x20000000 0x20000100).stw 0x20000100 6

/-- An erase of sector 16, and a program of two bursts there. -/
def erasing : State := (placed [(FLC.STATUS, 2)]).upNvm (fun v => { v with erase := some { desc := 0x20000100, op := 2, off := 0x40000, len := 0x4000, done := 46 } })
def programming : State := (placed [(FLC.STATUS, 1)]).upNvm (fun v => { v with prog := some { desc := 0x20000100, op := 1, off := 0x40000, len := 128 } })

theorem test_FlashAbort_applies : headHas (flashHead 6 0 0 0 []) (fun _ u _ => !u) = true ∧ flcState (flashJob 6 0 0 0 []) = 0 ∧
    headHas (takeDesc (flashUrgent []) (fun x => x == 6)) (fun _ u s1 => u && s1.nvm.erase.isNone) = true ∧
    headHas (takeDesc ((flashUrgent []).upNvm (fun _ => erasing.nvm)) (fun x => x == 6)) (fun _ u s1 => u && s1.nvm.erase.isSome) = true := by decide +kernel

theorem test_FlashOperations_apply : (∃ o, programming.nvm.prog = some o ∧ o.op = 1 ∧ o.done + 64 < o.len ∧ o.backup = none) ∧ (∃ o, erasing.nvm.erase = some o ∧ flcState erasing = 2 ∧ o.done + 1 < 48) ∧
    flcState ((setFlcState erasing 3)) = 3 :=
  ⟨⟨_, rfl, by decide +kernel⟩, ⟨_, rfl, by decide +kernel⟩, by decide +kernel⟩

/-- A suspension is due for a read that waits; its end is due when none does, or after MAXSUSP; an urgent head holds it up. -/
theorem test_FlashSuspends_applies : (let s : State := { erasing.upNvm (fun v => { v with readAt := some 0 }) with uptime := 40000 }; s.nvm.eraseAt + usTicks (minRun s) ≤ s.uptime ∧ s.nvm.readAt = some 0 ∧
      0 + usTicks (suspLim s) ≤ s.uptime) ∧ erasing.uptime < erasing.nvm.eraseAt + usTicks (minRun erasing) ∧
    (let s : State := { setFlcState erasing 3 with uptime := 4000 }; s.nvm.quietAt + usTicks (suspLim s) ≤ s.uptime ∧ urgentRuns s = false) ∧
    (let s := (flashUrgent [(FLC.STATUS, 3)]).upNvm (fun _ => erasing.nvm); urgentRuns s = true ∧ s.uptime < s.nvm.eraseAt + usTicks (maxSusp s) ∧ s.bit FLC.STATUS 4 = false ∧ flcState s = 3) := by decide +kernel

theorem test_FlashReads_apply : sectorBlocked erasing (0x44000 / 0x4000) = false ∧ sectorBlocked erasing (0x40000 / 0x4000) = true ∧ sectorBlocked erasing (0x3FFFFF / 0x4000) = false ∧
    readWaits (touch erasing (flashAt 0x44000)) 0x44000 = true ∧ readWaits (touch (placed []) (flashAt 0x3FFFFF)) 0x3FFFFF = false ∧
    (let s := (placed [(FLC.CTRL, 2)]).upNvm (fun v => { v with miss := some 5 }); s.nvm.miss = some 5 ∧ s.bit FLC.CTRL 1 = true ∧ flcState s = 0 ∧ s.nvm.pf.contains (5 + 1) = false ∧ sectorBlocked s (32 * (5 + 1) / 0x4000) = false) ∧
    Reaches (placed []) 0 FLC.CTRL true ∧ (∃ e l, ((placed []).upNvm (fun v => { v with mbuf := [(0x0C000000, [(0x0C000000, 1)])] })).nvm.mbuf = e :: l) :=
  ⟨by decide +kernel, by decide +kernel, by decide +kernel, by decide +kernel, by decide +kernel, by decide +kernel, by decide +kernel, ⟨_, _, rfl⟩⟩

/-! ### Radio, link and network time -/

/-- RADIO powered, demodulator 63 on at bin 0 and mode 2, in a state, with a frame. -/
def demod (st : Word) (l : List (Nat × Word)) (sun : Bool := false) : State :=
  (tuned ([(RXC.STATUS, 1), (CH.CH_CFG 63, 0x1200), (CH.CH_STAT 63, st)] ++ l)).upRxc (fun r => { r with frames := [{ demod := 63, bin := 0, mode := 2, sun := sun }] })

theorem test_Receiver_demodulators : ((demod 1 []).bit RXC.STATUS 0 = true ∧ demodState (demod 1 []) 63 = 1 ∧ detThr (demod 1 []) 63 ≤ 255 ∧ 0 < detThr (demod 1 []) 63) ∧ (0 < syncWin (demod 2 []) 63 ∧ syncWin (demod 2 []) 63 ≤ 255) ∧
    sfdMatches (demod 2 [] true) { demod := 63, bin := 0, mode := 4, sun := true } { back := 0, rssi := 0, fofs := 0, dc := 0, iq := 0, sfd := 0x904E } = true ∧
    (demodFrame (demod 2 []) 63 = some { demod := 63, bin := 0, mode := 2 } ∧ demodState (demod 2 []) 63 = 2) ∧ demodState (demod 3 []) 63 = 3 ∧
    (headerOk 2 (headerOf 1024 2) = true ∧ headerOk 2 (headerOf 4 0) = true ∧ headerOk 2 (headerOf 3 0) = false ∧ headerOk 0 (headerOf 4 2) = false) ∧
    (demodFrame (demod 4 [] true) 63 = some { demod := 63, bin := 0, mode := 2, sun := true } ∧ demodState (demod 4 [] true) 63 = 4) := by decide +kernel

/-- Headers of 4 and of 3 octets: one passes, one does not, whatever the ties; a PHR with a mode switch and one without. -/
theorem test_Receiver_headers (tie : Nat) : headerOk 2 (headerDecode tie (hdrSoft (headerOf 4 0))) = true ∧ headerOk 2 (headerDecode tie (hdrSoft (headerOf 3 0))) = false ∧
    phrSwitch (sunDecode false false [-31]) = true ∧ phrSwitch (sunDecode false false []) = false := by
  rw [hdrSoft_decodes tie (headerOf 4 0) (by decide +kernel) (by decide +kernel), hdrSoft_decodes tie (headerOf 3 0) (by decide +kernel) (by decide +kernel)]
  decide +kernel

theorem test_Receiver_switches : (let s := tuned [(CH.CH_CFG 0, 0x1205)]; Reaches s 0 (CH.CH_CFG (63 : Fin 64)) true ∧ demodOn s 63 = false ∧ demodMayStart s 63 (vSet 0x0205 12) = false ∧ demodMayStart s 63 (vSet 0x0305 12) = true ∧
      demodMayStart s 63 (vSet 0x0405 12) = false) ∧ (let s := tuned [(RXC.STATUS, 1)]; s.bit RXC.STATUS 0 = true ∧ s.bit RXC.STATUS 1 = false ∧ demodMayStart s 63 (vSet 0x0205 12) = true) ∧
    (let s := demod 1 []; Reaches s 0 (CH.CH_CFG (63 : Fin 64)) true ∧ demodOn s 63 = true ∧ demodState s 63 = 1 ∧ s.bit RXC.STATUS 1 = false ∧ bitsOf (0x200 : Word) 6 0 = demodBin s 63 ∧ bitsOf (0x200 : Word) 10 8 = demodMode s 63) := by decide +kernel

theorem test_Receiver_agc : (placed []).rxc.agc = .hold ∧ (let s := (placed [(RXC.AGCCFG, 0x30000)]).upRxc (fun r => { r with agc := .track }); s.rxc.agc = .track ∧ orIfZero 1 (s.fld RXC.AGCCFG 19 16) ≤ 3) ∧
    (let s := (placed [(RXC.AGCCFG, 0x30000)]).upRxc (fun r => { r with agc := .frozen }); s.rxc.agc = .frozen ∧ 2 < orIfZero 1 (s.fld RXC.AGCCFG 19 16)) := by decide +kernel

theorem test_Receiver_apply : (let s := tuned [(RXC.WINBASE, 5999)]; Reaches s 0 RXC.CTRL true ∧ (0 : Word).getLsbD 0 = s.bit RXC.CTRL 0 ∧ applyInRange (s.wr RXC.CTRL (vSet 0 2 &&& 0xB)) = false) ∧
    (let s := tuned [(RXC.WINBASE, 6000)]; applyInRange (s.wr RXC.CTRL (vSet 0 2 &&& 0xB)) = true ∧ s.bit RXC.STATUS 4 = false ∧ busyCnt s = 0) ∧
    (let s := tuned [(RXC.STATUS, 0x100)]; applyInRange (s.wr RXC.CTRL (vSet 0 2 &&& 0xB)) = true ∧ s.bit RXC.STATUS 4 = false ∧ busyCnt s ≠ 0 ∧ (0 : Word).getLsbD 3 = false) ∧
    (let s := tuned [(RXC.STATUS, 4)]; s.bit RXC.STATUS 2 = true ∧ busyCnt s = 0 ∧ s.bit RXC.STATUS 4 = false) ∧ (tuned [(RXC.STATUS, 8)]).bit RXC.STATUS 3 = true := by decide +kernel

theorem test_Receiver_power : (let s := tuned []; Reaches s 0 RXC.CTRL true ∧ s.bit RXC.CTRL 0 = false ∧ s.bit RXC.STATUS 4 = false) ∧
    (let s := tuned [(RXC.CTRL, 1)]; s.bit RXC.CTRL 0 = true ∧ receiverWanted (s.wr RXC.CTRL (vClr 1 0 &&& 0xB)) = false ∧ Reaches s 0 RXC.CTRL true) ∧
    (let s := tuned [(RXC.STATUS, 0x10)]; s.bit RXC.STATUS 4 = true ∧ s.txc.job = none ∧ s.rxc.applyHeld = false ∧ (s.upRxc (fun r => { r with applyHeld := true })).rxc.applyHeld = true) ∧
    (let s := (tuned []).upRxc (fun r => { r with stamps := [(63, 5)] }); Reaches s 0 (CH.CH_TSLO (63 : Fin 64)) false ∧ s.rxc.stamps.find? (fun e => e.1 == (63 : Fin 64).val) = some (63, 5)) := by decide +kernel

/-- A frame of one codeword, and a decoder with it, decoding that codeword at a hypothesis from soft bits. -/
def oneWord (sun : Bool := false) (failed : Bool := false) : FecFrame := { id := 0, m := { demod := 0, bin := 0, mode := 2, sun := sun, len := if sun then 4 else 32, code := if sun then 4 else 0 }, failed := failed }
def decoding (hyp : Nat) (l : List Int) (sun : Bool := false) (failed : Bool := false) : State := (placed [(FEC.DECCFG, 0x02000000)]).upFec (fun d => { d with next := 1, frames := [oneWord sun failed], cur := some { frame := 0, idx := 0, hyp := hyp, llr := [l, l] } })

theorem test_Decoder_applies : (let s := (decoding 0 []).upFec (fun d => { d with cur := none, waiting := [{ frame := 0, idx := 0 }] }); s.fec.waiting = { frame := 0, idx := 0 } :: [] ∧ s.fec.cur = none) ∧
    ((decoding 0 []).fec.cur = some { frame := 0, idx := 0, hyp := 0, llr := [[], []] } ∧ (decoding 0 []).fec.frames.find? (fun x => x.id == 0) = some (oneWord)) ∧
    (decoding 0 [] false true).fec.frames.find? (fun x => x.id == 0) = some (oneWord false true) ∧ (0 + 1 < cfgHypo 0x02000000 ∧ cfgHypo 0x02000000 ≤ 1 + 1) ∧
    (let s := (decoding 0 []).upFec (fun d => { d with cur := none, alts := [{ frame := 0, idx := 0, hyp := 1 }] }); s.fec.waiting = [] ∧ s.fec.cur = none ∧ s.fec.alts = { frame := 0, idx := 0, hyp := 1 } :: []) ∧
    ((decoding 0 [] true).fec.frames.find? (fun x => x.m.sun) = some (oneWord true)) ∧
    (sunMpdu true false 4 (sunDecode false false ((sunBody 4 false [1, 2]).map (fun b => if b then -31 else 31))) = some [1, 2] ∧ sunMpdu true false 4 (sunDecode false false []) = none) := by decide +kernel

/-- A codeword of which nothing is known decodes to zeros; one of which only its first bit is known, to be 1, does not decode. -/
theorem test_Decoder_outcomes : (decodeOf oneWord { frame := 0, idx := 0, hyp := 0, llr := [[], []] }).ok = true ∧ (decodeOf oneWord { frame := 0, idx := 0, hyp := 1, llr := [[-31], [-31]] }).ok = false := by
  refine ⟨(quiet_decode (l := []) (by decide)).trans ?_, (quiet_decode (l := [-31]) (by decide)).trans ?_⟩
  · rw [unsatisfied_start (by decide)]; simp [llrOf, hardBit, clampI]
  · rw [unsatisfied_start (by decide), beq_eq_false_iff_ne]
    exact Nat.ne_of_gt (List.length_pos_of_mem (a := 19) (List.mem_filter.mpr ⟨List.mem_range.mpr (by decide), by decide +kernel⟩))

/-- A transmission of 1024 octets at step `i`. -/
def jobAt (begun data : Bool) (i cls : Nat) (st latest : BitVec 64) : TxJob :=
  { src := .ack, mode := 0, code := 0, bin := 5, pwr := 20, pre := 40, cls := cls, start := st, latest := latest, mpdu := List.replicate 1024 0, begun := begun, data := data, step := i, seq := [0x00000001, 0x00000002, 0x00000004] }

def sending (l : List (Nat × Word)) (j : TxJob) : State := (tuned ([(TXC.CTRL, 1)] ++ l)).upTxc (fun t => { t with job := some j })

theorem test_Transmitter_waits : (placed []).bit TXC.CTRL 0 = false ∧ (let j := jobAt false false 0 0 0 100000; (sending [] j).txc.job = some j ∧ j.begun = false ∧ txWaits (sending [] j) j = false) ∧
    (let j := jobAt false false 0 1 0 0; lastCommit (sending [] j) j ≤ (sending [] j).nt.toNat ∧ ¬ (j.cls = 2 ∧ carrierBusy (sending [] j) j = true)) ∧
    (let j := jobAt false false 0 2 0 0; let s := sending [(CH.CH_CFG 3, 0x1005), (CH.CH_CCA 3, 0x8000)] j; lastCommit s j ≤ s.nt.toNat ∧ j.cls = 2 ∧ carrierBusy s j = true) := by decide +kernel

theorem test_Transmitter_steps : (let j := jobAt true false 0 0 0 0; j.begun = true ∧ j.data = false ∧ (j.step ≠ 1 ∨ (sending [] j).bit RFE.STATUS 0 = true)) ∧ (let j := jobAt true true 2 0 0 0; j.data = true ∧ j.after = false ∧ j.result = none ∧ (sending [] j).uptime < j.inst + jobTicks j) ∧
    (let j := jobAt true false 0 0 0 0; stepDue j ≤ ({ sending [] j with uptime := 2 ^ 20 } : State).uptime ∧ (sending [] j).uptime < stepDue { j with inst := 1 }) ∧
    (let j := { jobAt true true 2 0 0 0 with after := true }; j.after = true ∧ j.measured = false ∧ ({ sending [] j with uptime := 2 ^ 40 } : State).uptime ≥ j.inst + jobTicks j) ∧
    (let j := jobAt true false 0 0 0 0; projectedLate { sending [] j with nt := 100000 } j = true) ∧ (let j := jobAt true false 1 0 0 0; (sending [] j).bit RFE.STATUS 0 = false ∧ j.step ≤ 1 ∧ j.result = none ∧ j.inst + lockTimeout (sending [] j) ≤ ({ sending [] j with uptime := 2 ^ 20 } : State).uptime) ∧
    (sending [(RFE.STATUS, 1)] (jobAt true true 2 0 0 0)).bit RFE.STATUS 0 = true ∧
    (let j := jobAt true true 2 0 0 0; let s := sending [(RFE.TUNE, 0x80000000), (CAL.CFG, 1)] j; trialDue s j = true ∧ s.txc.trialFrom = none ∧ s.txc.trial = 0 ∧ tuneBank (s.rd RFE.TUNE) 0 < 63 ∧ Reaches s 0 TXC.CTRL true) := by decide +kernel

theorem test_Transmitter_front_end : (let s := sending [(CAL.CTRL, 0)] (jobAt true false 0 0 0 0); s.bit RFE.STATUS 1 = false ∧ s.txc.job ≠ none ∧ s.bit CAL.CTRL 9 = false) ∧ (tuned [(RFE.STATUS, 2)]).bit RFE.STATUS 1 = true ∧ Reaches (tuned []) 0 RFE.CTRL true ∧
    (let s := (tuned []).upTxc (fun t => { t with trialFrom := some 0, gamma := 255 }); s.txc.trialFrom = some 0 ∧ s.txc.tuneWait = none) ∧
    (let s := (tuned [(RFE.TUNECFG, 0x100)]).upTxc (fun t => { t with trialFrom := some 0, gamma := 255 }); (254 : BitVec 8).toNat + orIfZero 1 (s.fld RFE.TUNECFG 15 8) ≤ s.txc.gamma ∧ s.txc.gamma < (255 : BitVec 8).toNat + orIfZero 1 (s.fld RFE.TUNECFG 15 8)) ∧
    (let s : State := { placed [] with cal := { (placed []).cal with dc := some 1 } }; busyCnt s = 0 ∧ s.cal.dc = some 1 ∧ s.cal.iq = none) ∧ ((placed [(CAL.CTRL, 0x400), (CLK.STATUS, 2)]).bit CAL.CTRL 10 = true ∧ (placed [(CAL.CTRL, 0x400), (CLK.STATUS, 2)]).bit CLK.STATUS 1 = true) ∧ ((placed []).txc.fem = none ∧ ((placed []).setDom Dom.radio .off).dom Dom.radio = .off) ∧ Reaches (tuned []) 0 RFE.TUNESTAT false := by decide +kernel

/-- The candidates while one acknowledgement is due. -/
def ackDue : List TxJob × State := txCandidates { ((tuned [(TXC.CTRL, 1)]).upLnk (fun l => { l with acks := [{ start := 100000, mode := 0, code := 0, bin := 5, srcKey := 7, srcEui := false, fcnt := 1 }] })) with nt := 99000 }

theorem test_Transmitter_commits : ackDue.1.length = 1 ∧ (txChoose ackDue.2 [] ackDue.1).isSome = true := by decide +kernel

/-- A secured data frame of the flood that this device hears, and the same without security. -/
def floodFrame : List Byte := [0xC9, 0x04, 0, 0] ++ [1, 2, 3, 4, 5, 6, 7, 8] ++ [9, 0, 0, 0] ++ [5] ++ [0, 0] ++ List.replicate 20 0

/-- What FEC delivers of it, and LNK with that frame and with one free buffer. -/
def heard (mpdu : List Byte) : RxFrame := { m := { demod := 0, bin := 0, mode := 0 }, mpdu := mpdu, cw := 1, iter := 1, alt := false, fin := 0 }
def linked (l : List (Nat × Word)) : State := (placed ([(LNK.CTRL, 1), (LNK.NID, 0), (LNK.POOLCFG, 0xB0001)] ++ l)).upLnk (fun k => { k with rx := [heard floodFrame] })

theorem test_Link_frame_reads : ((parseFrame floodFrame).map (fun f => frameValid f && f.sec && f.type == 1 && f.nid == 0 && f.sam != 0)) = some true ∧ parseFrame [0xC9, 4] = none ∧
    ((parseFrame ([0xC9, 0x44] ++ floodFrame.drop 2)).map frameValid) = some false := by decide +kernel

/-- A key in slot 0 that LNK may use, held in the cache; the flood frame with its MIC under that key; and what the pipeline says of a frame. -/
def micKeyed : State := ((placed [(KEY.STATUS, 2), (AES.CTRL, 1)]).setBytes (slotAddr 0 + 32) (leBytes 4 0xFF00 ++ List.replicate 16 0 ++ leBytes 4 0xFFFFFFFF)).upKeys (fun k => { k with cache := [(0, List.replicate 16 7)] })
def micFrame : List Byte := floodFrame.take 35 ++ [0xB9, 0xDC, 0x2C, 0xC7]
def micSays (s : State) (m : List Byte) : Option Nat := (parseFrame m).map (fun f => (micOpen s m f).1)

theorem test_Link_opens : micSays micKeyed micFrame = some 2 ∧ micSays micKeyed floodFrame = some 3 := by decide +kernel

theorem test_Link_does_not_open : micSays (placed []) floodFrame = some 12 ∧ micKeyed.bit AES.CTRL 0 = true ∧ (placed []).bit AES.CTRL 0 = false ∧ (parseFrame floodFrame).map (·.type) = some 1 := by decide +kernel

theorem test_Link_receives : (∃ x l, (linked []).lnk.rx = x :: l) ∧ (placed []).bit LNK.CTRL 0 = false ∧
    (let u := (linked []).upLnk (fun k => { k with rx := [] }); (linked []).bit LNK.CTRL 0 = true ∧ freeBuf u = some 0 ∧ floodFrame.length ≤ 2 ^ bufLog u ∧ (linked []).fld LNK.NID 15 0 = 0) ∧
    freeBuf ((linked [(LNK.POOLCFG, 0xB0000)]).upLnk (fun k => { k with rx := [] })) = none := ⟨⟨_, _, rfl⟩, by decide +kernel⟩

theorem test_Link_events : (let s := (linked []).upLnk (fun k => { k with mic := [{ x := heard floodFrame, buf := some 0, trk := false }] }); s.lnk.mic = { x := heard floodFrame, buf := some 0, trk := false } :: []) ∧
    (let r : Relay := { src := 1, fcnt := 0, start := 0, ttl := 3, hop := 0, dist := 0, mode := 0, code := 0, bin := 0, air := 1000, mpdu := floodFrame, buf := 0 }
     let s := (linked [(LNK.RELAYCFG, 0x100000)]).upLnk (fun k => { k with relays := [r], spent := 4096000000 }); s.lnk.relays[0]? = some r ∧ r.offered = false ∧ r.start.toNat ≤ s.nt.toNat ∧ s.nt.toNat < ({ r with start := 1 } : Relay).start.toNat ∧ s.fld LNK.RELAYCFG 23 20 ≠ 0 ∧
      s.fld LNK.RELAYCFG 23 20 * 4096000000 < s.lnk.spent + 16 * r.air) ∧
    (let s := linked [(LNK.RELAYCFG, 0)]; s.fld LNK.RELAYCFG 23 20 = 0) ∧
    (let s : State := { linked [(LNK.STATUS, 4)] with nt := 0x00FFFFFFFFFFFFFF }; s.bit LNK.STATUS 2 = true ∧ fcntExpired s (s.rd LNK.FLOOR) = true) := by decide +kernel

theorem test_Link_commands : (Reaches (placed []) 0 LNK.CTRL true ∧ (placed []).bit LNK.CTRL 0 = false ∧ (placed []).lnk.fresh = true ∧ ∀ i, i < 5 → (0 : Word).getLsbD i = (placed []).bit LNK.CTRL i) ∧
    (let s := placed [(LNK.CTRL, 0xF)]; Reaches s 0 LNK.CTRL true ∧ s.bit LNK.CTRL 0 = true ∧ s.bit LNK.CTRL 1 = true ∧ s.bit LNK.CTRL 2 = true ∧ s.bit LNK.CTRL 3 = true ∧ ∀ i, i < 5 → (0xF : Word).getLsbD i = s.bit LNK.CTRL i) ∧
    (Reaches (placed []) 0 LNK.POOLBASE true ∧ Reaches (placed []) 0 LNK.POOLCFG true ∧ (List.range ((placed []).fld LNK.POOLCFG 9 0)).any (bufBusy (placed [])) = false) ∧
    (let s := (linked []).upLnk (fun k => { k with mic := [{ x := heard floodFrame, buf := some 0, trk := false }] }); (List.range (s.fld LNK.POOLCFG 9 0)).any (bufBusy s) = true) := by decide +kernel

theorem test_NetworkTime_applies : ((placed [(LNK.NTSTAT, 0x10)]).bit LNK.NTSTAT 4 = true ∧ (placed [(LNK.NTSTAT, 0x10)]).ntime.slew = 0) ∧ (let s := placed [(LNK.NTSTAT, 0x20)]; s.bit LNK.NTSTAT 5 = true ∧ s.ntime.top.toNat ≤ s.nt.toNat) ∧
    (let s := placed []; Reaches s 0 LNK.NTADJ true ∧ (32000 : Word).toInt ≤ 32000 ∧ (-32000 ≤ (-32000 : Word).toInt ∨ s.bit LNK.NTCFG 0 = false)) ∧ 32000 < (32001 : Word).toInt ∧
    (let s := placed [(LNK.NTCFG, 1)]; Reaches s 0 LNK.NTADJ true ∧ (-32001 : Word).toInt < -32000 ∧ s.bit LNK.NTCFG 0 = true) ∧ (placed [(LNK.NTCFG, 0)]).bit LNK.NTCFG 0 = false ∧
    Reaches (placed []) 0 LNK.NTSETHI true ∧ Reaches (placed []) 0 LNK.NTLO false := by decide +kernel

theorem test_Tracker_registers : (let s := placed [(LNK.NTSTAT, 0)]; Reaches s 0 LNK.BCNCFG true ∧ trkState s ≠ 6 ∧ (trkState s = 0 ∨ 4 ≤ trkState s) ∧ Reaches s 0 LNK.PARENT1 true ∧ Reaches s 0 LNK.PARENT0 true) ∧
    (placed [(LNK.BCNCFG, 1)]).bit LNK.BCNCFG 0 = true ∧ trkState (placed [(LNK.NTSTAT, 6)]) = 6 ∧ trkState (placed [(LNK.NTSTAT, 7)]) = 7 ∧ trkState (placed [(LNK.NTSTAT, 1)]) = 1 := by decide +kernel

/-- The tracker in a state, its window open. -/
def tracking (st : Word) (applied : Bool) : State := (placed [(LNK.NTSTAT, st)]).upTrk (fun t => { t with window := true, applied := applied })

theorem test_Tracker_windows : (trkState (tracking 1 true) = 1 ∧ (tracking 1 true).trk.window = true ∧ busyCnt (tracking 1 true) = 0 ∧ (tracking 1 true).trk.next.toNat ≤ (tracking 1 true).nt.toNat ∧ (tracking 1 true).trk.applied = true) ∧
    ((tracking 1 false).trk.applied = false ∧ trkState (tracking 2 false) = 2 ∧ trkState (tracking 3 false) = 3 ∧ busyCnt (tracking 3 false) = 0) ∧
    (let s : State := { (tracking 1 false).upTrk (fun t => { t with x := 2 ^ 40, next := 2 ^ 40 }) with nt := 0 }; s.nt.toNat + beaconGuard s < beaconStart s ∧ s.nt.toNat < s.trk.next.toNat ∧
      beaconStart s ≤ ({ s with nt := 2 ^ 41 } : State).nt.toNat + beaconGuard s) ∧
    (let s : State := { tracking 4 false with nt := 2 ^ 60 }; trkState s = 4 ∧ s.trk.since.toNat + 2 * beaconPeriod s ≤ s.nt.toNat) ∧ (tracking 4 false).nt.toNat < (tracking 4 false).trk.since.toNat + 2 * beaconPeriod (tracking 4 false) ∧
    (let s : State := { tracking 5 false with nt := 2 ^ 60 }; trkState s = 5 ∧ s.trk.window = true ∧ s.trk.since.toNat + beaconPeriod s + 3200000 ≤ s.nt.toNat ∧ (s.upTrk (fun t => { t with window := false })).trk.window = false ∧
      s.trk.next.toNat ≤ s.nt.toNat) := by decide +kernel

/-- The own listen window open, with a channel that is active or not. -/
def listening (l : List (Nat × Word)) (nt : BitVec 64) : State := { (placed l).upSched (fun c => { c with own := true }) with nt := nt }

theorem test_Schedule_windows : (let s := (placed []).upSched (fun c => { c with cfg := 1 }); testB s.sched.cfg.toNat 0 = true ∧ s.sched.own = false ∧ thisListen s ≤ s.nt.toNat) ∧
    (let s := (placed [(LNK.SHORT, 0x2C41)]).upSched (fun c => { c with cfg := 0x501 }); testB s.sched.cfg.toNat 0 = true ∧ s.sched.own = false ∧ s.nt.toNat < thisListen s) ∧
    (let s := listening [(RXC.STATUS, 0x100)] 0; let fin := s.sched.at_.toNat + 8000 * max 4 (bitsOf s.sched.win 23 16); let limit := fin + 128000 * bitsOf s.sched.win 31 24
     s.sched.own = true ∧ channelActive s = true ∧ s.nt.toNat < fin ∧ busyCnt s ≠ 0 ∧ limit ≤ 0xFFFFFFFF ∧ (let u := (listening [(RXC.STATUS, 0x100)] 40000).upSched (fun c => { c with win := 0xFF000000 })
       u.sched.at_.toNat + 8000 * max 4 (bitsOf u.sched.win 23 16) ≤ u.nt.toNat ∧ u.nt.toNat < u.sched.at_.toNat + 8000 * max 4 (bitsOf u.sched.win 23 16) + 128000 * bitsOf u.sched.win 31 24 ∧ channelActive u = true)) ∧
    (let s := listening [] 0xFFFFFFFF; channelActive s = false ∧ busyCnt s = 0 ∧ s.sched.at_.toNat + 8000 * max 4 (bitsOf s.sched.win 23 16) + 128000 * bitsOf s.sched.win 31 24 ≤ s.nt.toNat) ∧
    (let s : State := { (placed []).upSched (fun c => { c with ann := some 5, annOpen := true }) with nt := 2 ^ 40 }; s.sched.ann = some 5 ∧ (5 : BitVec 64).toNat ≤ s.nt.toNat ∧ (placed []).nt.toNat < (5 : BitVec 64).toNat ∧ s.sched.annOpen = true ∧
      s.sched.annAt.toNat + 32000 + winTicks s.sched.annWin ≤ s.nt.toNat) := by decide +kernel

theorem test_Link_extension_clears : (placed [(LNK.STATUS, 2)]).bit LNK.STATUS 1 = true := by decide

/-! ### The hub, timers, serial ports and keys -/

/-- Sheet 0 ready with a step in the first scene page, on a hub with bus grants and a ring of 16-byte records. -/
def hubAt (op : List Byte) (l : List (Nat × Word)) : State :=
  (scene ([(HUB.CTRL, 1), (HUB.SHEETBASE, 0x40000000), (HUB.SHCFG 0, 1), (HUB.SHSTAT 0, 1), (HUB.BUSGRANT, 0x31F), (QUE.QCFG 72, 0x422), (QUE.QBASE 72, 0x40000800)] ++ l)).setBytes 0x20000000 (op ++ List.replicate (16 - op.length) 0)

/-- The sheet is served with this step, which runs or not and is legal or not. -/
def hubServes (op : List Byte) (l : List (Nat × Word)) (kind : Nat) (runs legal : Bool) : Bool :=
  let s := hubAt op l
  !hubStopped s && (List.finRange 32).find? (sheetReady s) == some 0 && decide (s.hub.sheets[(0 : Fin 32)].steps < max 16 (s.fld HUB.MAXSTEPS 15 0)) &&
  (match (hubFetch s 0).1 with | some o => stepKind o == kind && stepRuns s 0 o == runs && stepLegal s o == legal | none => false)

theorem test_Hub_serves_computing : hubServes [0] [] 0 true true = true ∧ hubServes [1] [] 1 true true = true ∧ hubServes [2] [] 2 true true = true ∧ hubServes [7] [] 7 true true = true ∧ hubServes [8] [] 8 true true = true ∧
    hubServes [9] [] 9 true true = true ∧ hubServes [10] [] 10 true true = true := by decide +kernel

theorem test_Hub_serves_others : hubServes [11, 0, 0, 0, 2] [] 11 true true = true ∧ hubServes [12] [] 12 true true = true ∧ hubServes [13] [] 13 true true = true ∧ hubServes [3] [(TWB.CTRL 0, 3)] 3 true true = true ∧
    hubServes [4] [(CSP.CTRL 0, 1)] 4 true true = true ∧ hubServes [5] [] 5 true true = true ∧ hubServes [6] [] 6 true true = true := by decide +kernel

theorem test_Hub_serves_edges : hubServes [14] [] 14 true false = true ∧ hubServes [0, 4] [] 0 false true = true ∧ hubServes [3] [(HUB.BUSGRANT, 0)] 3 true true = true ∧
    hubServes [4] [(CSP.STATUS 0, 4)] 4 true true = true ∧ hubServes [11, 0, 1, 0, 2] [(QUE.QCFG 73, 0x22)] 11 true true = true ∧ qOn (hubAt [11, 0, 1, 0, 2] [(QUE.QCFG 73, 0x22)]) 73 = false := by decide +kernel

theorem test_Hub_triggers : (let s := placed [(HUB.CTRL, 1), (HUB.SHCFG 31, 1), (HUB.SHPER 31, 1)]; s.fld (HUB.SHCFG (31 : Fin 32)) 2 1 = 0 ∧ s.fld (HUB.SHPER (31 : Fin 32)) 21 0 ≠ 0 ∧ s.rtc.sub % 32 = 0 ∧
      hubClock s % s.fld (HUB.SHPER (31 : Fin 32)) 21 0 = s.fld (HUB.SHPHASE (31 : Fin 32)) 21 0 % s.fld (HUB.SHPER (31 : Fin 32)) 21 0 ∧ s.bit HUB.CTRL 0 = true ∧ s.bit (HUB.SHCFG (31 : Fin 32)) 0 = true ∧
      s.hub.sheets[(31 : Fin 32)].period ≠ some (xoPeriod s) ∧ sheetState s 31 = 0 ∧ hubStopped s = false) ∧ sheetState (placed [(HUB.SHSTAT 31, 2)]) 31 = 2 ∧
    (({ placed [] with cueQ := [.cons 13] } : State).cueQ.contains (.cons (6 + (7 : Fin 8).val)) = true) ∧ Reaches (placed []) 0 HUB.SWTRIG true := by decide +kernel

theorem test_Hub_ends : (let s := placed [(HUB.SHSTAT 0, 2)]; sheetState s 0 = 2 ∧ s.hub.sheets[(0 : Fin 32)].kill = false) ∧
    (stepKind [5] = 5 ∧ stepKind [6] = 6 ∧ stepKind [3, 0, 0, 0, 0x10] = 3 ∧ stepByte [3, 0, 0, 0, 0x10] 4 / 16 % 8 ≠ 0) ∧
    (let s := placed [(HUB.SHSTAT 31, 3)]; sheetState s 31 = 3 ∧ s.hub.sheets[(31 : Fin 32)].due ≤ waitClock s s.hub.sheets[(31 : Fin 32)].op ∧ hubStopped (hubAdvance s 31) = false ∧
      waitClock s s.hub.sheets[(31 : Fin 32)].op < (upSheet s 31 (fun x => { x with due := 5 })).hub.sheets[(31 : Fin 32)].due) ∧ (let s := placed [(HUB.SPWR, 8)]; s.bit HUB.SPWR (3 : Fin 4).val = true ∧ ∀ n : Fin 32, sheetState s n = 0) := by decide +kernel

theorem test_Hub_registers : (let s := placed [(HUB.SHSTAT 31, 2)]; Reaches s 0 (HUB.SHCFG (31 : Fin 32)) true ∧ sheetState (s.wr (HUB.SHCFG 31) (vClr 0 0 &&& 0x1FF77)) 31 = 2) ∧
    (let s := placed [(HUB.SHSTAT 31, 3)]; sheetState (s.wr (HUB.SHCFG 31) (vClr 0 0 &&& 0x1FF77)) 31 = 3) ∧ Reaches (placed []) 0 HUB.CTRL true ∧ Reaches (placed []) 0 (HUB.FLTCFG (15 : Fin 16)) true ∧
    Reaches (placed []) 0 (HUB.CMPCFG (15 : Fin 16)) true ∧ (1 : Word) &&& 0x3F033F03 ≠ (placed []).rd (HUB.FLTCFG (15 : Fin 16)) ∧ ((0x80000000 : Word) &&& 0x3F033F03 = (placed []).rd (HUB.FLTCFG (15 : Fin 16))) := by decide +kernel

/-- Timer 0 enabled at a count, a count tick owed by its prescaler; and what is left once that tick is taken. -/
def ticking (c p n : Word) (st : Word) : State := upTimer (placed [(TM.CTRL 0, c), (TM.PERACT 0, p), (TM.CNT 0, n), (TM.STATUS 0, st)]) 0 (fun t => { t with owed := 1 })
def ticked (s : State) : State := tmCounters (upTimer s 0 (fun t => { t with owed := t.owed - 1 })) 0

theorem test_Timer_ticks : tmEn (placed []) 7 = false ∧ (placed [(TM.CTRL 7, 1)]).timers[(7 : Fin 8)].owed = 0 ∧
    (let s := ticking 1 0 0 0; tmEn s 0 = true ∧ s.timers[(0 : Fin 8)].owed ≠ 0 ∧ (ticked s).rd (TM.PERACT (0 : Fin 8)) = 0) ∧
    (let u := ticked (ticking 1 5 3 0); u.rd (TM.PERACT (0 : Fin 8)) ≠ 0 ∧ u.bit (TM.CTRL (0 : Fin 8)) 1 = false ∧ (u.rd (TM.CNT (0 : Fin 8))).toNat + 1 < (u.rd (TM.PERACT (0 : Fin 8))).toNat) ∧
    (let u := ticked (ticking 1 5 4 0); (u.rd (TM.PERACT (0 : Fin 8))).toNat ≤ (u.rd (TM.CNT (0 : Fin 8))).toNat + 1) ∧
    (let u := ticked (ticking 3 5 4 1); u.bit (TM.CTRL (0 : Fin 8)) 1 = true ∧ u.bit (TM.STATUS (0 : Fin 8)) 0 = true ∧ 0 < (u.rd (TM.CNT (0 : Fin 8))).toNat) := by decide +kernel

theorem test_Timer_pins : (let s := upChan (placed []) 1 3 (fun c => { c with dead := some 0, deadN := some 0 }); s.timers[(1 : Fin 8)].chans[(3 : Fin 4)].dead = some 0 ∧ s.timers[(1 : Fin 8)].chans[(3 : Fin 4)].deadN = some 0) ∧
    pinOfFunc (placed [(PIN.CFG 47, 0x28)]) (0x18 + 16 * (1 : Fin 2).val) = some 47 ∧
    (let s : State := { placed [(TM.CTRL 1, 0x100000)] with cueQ := [.cons 33] }; s.cueQ.contains (.cons (31 + 2 * (1 : Fin 2).val)) = true ∧ s.bit (TM.CTRL (1 : Fin 2)) 20 = true) := by decide +kernel

theorem test_Timer_triggers : (let s := upTimer (placed [(TM.CTRL 7, 0x1000)]) 7 (fun t => { t with trg := true }); s.timers[(7 : Fin 8)].trg = true ∧ s.fld (TM.CTRL (7 : Fin 8)) 13 12 = 1 ∧ tmEn s 7 = false) ∧
    (placed [(TM.CTRL 7, 0x2001)]).fld (TM.CTRL (7 : Fin 8)) 13 12 = 2 ∧ (placed [(TM.CTRL 7, 0x3001)]).fld (TM.CTRL (7 : Fin 8)) 13 12 = 3 ∧
    ((1 : Fin 4).val < tmC 7 ∧ (3 : Fin 4).val < tmC 0 ∧ tmMode (placed [(TM.CHCFG 7 1, 5)]) 7 1 = 5) ∧
    (let s := placed [(TM.CHCFG 7 1, 0x10005), (SYS.PHASE, 1)]; s.phase = 1 ∧ testB (orIfZero 1 (s.fld (TM.CHCFG (7 : Fin 8) (1 : Fin 4)) 9 8)) 0 = true ∧ s.timers[(7 : Fin 8)].chans[(1 : Fin 4)].edges + 1 < 2 ^ s.fld (TM.CHCFG (7 : Fin 8) (1 : Fin 4)) 17 16) ∧
    (let s := placed [(TM.CHCFG 7 1, 0x5), (SYS.PHASE, 1)]; 2 ^ s.fld (TM.CHCFG (7 : Fin 8) (1 : Fin 4)) 17 16 ≤ s.timers[(7 : Fin 8)].chans[(1 : Fin 4)].edges + 1) ∧
    (let s := upChan (placed [(TM.CHCFG 7 1, 0x5)]) 7 1 (fun c => { c with width := some 9 }); s.phase ≠ 1 ∧ false = s.bit (TM.OUTCFG (7 : Fin 8)) (1 : Fin 4).val ∧ s.timers[(7 : Fin 8)].chans[(1 : Fin 4)].width = some 9 ∧ s.bit (TM.EVT (7 : Fin 8)) (1 : Fin 4).val = false) := by decide +kernel

theorem test_Timer_registers : let s := placed []; Reaches s 0 (TM.CTRL (7 : Fin 8)) true ∧ Reaches s 0 (TM.CNT (7 : Fin 8)) true ∧ Reaches s 0 (TM.PER (7 : Fin 8)) true ∧ Reaches s 0 (TM.CC (7 : Fin 8) (1 : Fin 4)) true ∧
    Reaches s 0 (TM.CHCFG (7 : Fin 8) (1 : Fin 4)) true ∧ tmMode s 7 (1 : Fin 4) ≠ 5 ∧ Reaches s 0 (PIN.CFG (47 : Fin 48)) true ∧ Reaches s 0 (GPIO.OUTSET (1 : Fin 2)) true ∧ Reaches s 0 (GPIO.OUTCLR (1 : Fin 2)) true := by decide +kernel

theorem test_Serial_commands : (let s := placed []; Reaches s 0 (TWB.CMD (4 : Fin 5)) true ∧ s.bit (TWB.CTRL (4 : Fin 5)) 0 = false) ∧
    (let s := placed [(TWB.CTRL 4, 3)]; s.bit (TWB.STATUS (4 : Fin 5)) 1 = false ∧ s.bit (TWB.CTRL (4 : Fin 5)) 0 = true ∧ s.bit (TWB.CTRL (4 : Fin 5)) 1 = true) ∧
    (let s : State := { upTwb (placed []) 4 (fun b => { b with cmd := some 0x30800, onBus := true, since := 5 }) with uptime := 1000000 }; s.twb[(4 : Fin 5)].cmd = some 0x30800 ∧ s.twb[(4 : Fin 5)].onBus = true ∧ s.twb[(4 : Fin 5)].ended = false ∧ cmdRead 0x30800 = true ∧
      s.twb[(4 : Fin 5)].attnBus = false ∧ s.twb[(4 : Fin 5)].since + twbTicks s 4 (twbBytes 0x30800 1 true []) ≤ s.uptime ∧ s.twb[(4 : Fin 5)].since + twbTicks s 4 (twbBytes 0x30800 0 false [1, 2, 3]) ≤ s.uptime) ∧
    (cmdRead 0x20000 = false ∧ cmdN 0x20000 ≤ 2) := by decide +kernel

theorem test_Serial_recovery : (let s := placed []; s.twb[(4 : Fin 5)].recover = false ∧ s.bit (TWB.CTRL (4 : Fin 5)) 4 = false ∧ (twbTimeout (twbEvent (s.setBit (TWB.STATUS 4) 4 true) 4 4) 4).twb[(4 : Fin 5)].recover = false ∧
      Reaches s 0 (TWB.RECOVER (4 : Fin 5)) true ∧ s.bit (TWB.STATUS (4 : Fin 5)) 1 = false) ∧
    (let s := placed [(TWB.CTRL 4, 0x10)]; (twbTimeout (twbEvent (s.setBit (TWB.STATUS 4) 5 true) 4 5) 4).bit (TWB.CTRL (4 : Fin 5)) 4 = true) ∧ (upTwb (placed []) 4 (fun b => { b with recover := true })).twb[(4 : Fin 5)].recover = true := by decide +kernel

/-- PERIPH on, bus 4 a target. -/
def target (l : List (Nat × Word)) : State := (placed ([(TWB.CTRL 4, 5)] ++ l)).setDom Dom.periph .on

theorem test_Serial_target : (let s := target []; serialOn s = true ∧ s.bit (TWB.CTRL (4 : Fin 5)) 0 = true ∧ s.bit (TWB.CTRL (4 : Fin 5)) 2 = true ∧ s.twb[(4 : Fin 5)].onBus = false ∧ s.twb[(4 : Fin 5)].attnBus = false) ∧
    (let s := target [(TWB.ADDR 4, 0x50)]; s.bit (TWB.ADDR (4 : Fin 5)) 15 = false ∧ s.fld (TWB.ADDR (4 : Fin 5)) 6 0 = 0x50 ∧ twbOwn s 4 ⟨0x51, false, true⟩ = false) ∧
    (let s := target [(TWB.ADDR 4, 0x83FF)]; s.bit (TWB.ADDR (4 : Fin 5)) 15 = true ∧ s.fld (TWB.ADDR (4 : Fin 5)) 9 0 = 0x3FF) ∧ (target [(TWB.CTRL 4, 13)]).bit (TWB.CTRL (4 : Fin 5)) 3 = true ∧
    (let s := target [(TWB.STATUS 4, 4)]; s.bit (TWB.STATUS (4 : Fin 5)) 2 = true ∧ s.bit (TWB.STATUS (4 : Fin 5)) 3 = false ∧ s.twb[(4 : Fin 5)].rx.length < 8) ∧
    8 ≤ (upTwb (target [(TWB.STATUS 4, 4)]) 4 (fun b => { b with rx := List.replicate 8 0 })).twb[(4 : Fin 5)].rx.length ∧
    (let s := (target []).setDom Dom.periph .od; s.bit (TWB.CTRL (4 : Fin 5)) 2 = true ∧ s.dom Dom.periph = .od ∧ pwrState s ≠ 3) ∧
    (let s := placed []; s.twb[(4 : Fin 5)].keep = false ∧ s.twb[(4 : Fin 5)].hub = false ∧ twbRested s 4 = true) := by decide +kernel

theorem test_Serial_registers : (let s := target []; Reaches s 0 (TWB.ATTN (4 : Fin 5)) true ∧ Reaches s 0 (TWB.TXDATA (4 : Fin 5)) true ∧ Reaches s 0 (TWB.RXDATA (4 : Fin 5)) false ∧ Reaches s 0 (TWB.CTRL (4 : Fin 5)) true ∧
      s.twb[(4 : Fin 5)].tx.length < 8 ∧ s.twb[(4 : Fin 5)].rx = []) ∧
    (let s := upTwb (target []) 4 (fun b => { b with attn := some 0, attnBus := true, tx := List.replicate 8 0, rx := [1] }); s.twb[(4 : Fin 5)].attn.isSome = true ∧ s.twb[(4 : Fin 5)].attnBus = true ∧ 8 ≤ s.twb[(4 : Fin 5)].tx.length ∧
      s.twb[(4 : Fin 5)].rx = 1 :: []) := by decide +kernel

/-- PERIPH on, port 1 a slave. -/
def slave (l : List (Nat × Word)) : State := (placed ([(CSP.CTRL 1, 3)] ++ l)).setDom Dom.periph .on

theorem test_Ports_apply : (let s := (slave []).setDom Dom.periph .od; cspSlave s 1 = true ∧ s.bit (CSP.CTRL (1 : Fin 2)) 0 = true ∧ s.dom Dom.periph = .od ∧ pwrState s ≠ 3) ∧
    (let s := slave []; Reaches s 0 (CSP.TXDATA (1 : Fin 2)) true ∧ Reaches s 0 (CSP.RXDATA (1 : Fin 2)) false ∧ Reaches s 0 (CSP.CTRL (1 : Fin 2)) true ∧ s.csp[(1 : Fin 2)].tx.length < 8 ∧ s.csp[(1 : Fin 2)].rx = [] ∧ cspServes s 1 = true ∧
      s.bit (CSP.STATUS (1 : Fin 2)) 2 = false) ∧ (slave [(CSP.STATUS 1, 4)]).bit (CSP.STATUS (1 : Fin 2)) 2 = true ∧
    (let s : State := { upCsp (slave [(CSP.STATUS 1, 2)]) 1 (fun c => { c with tx := [1], rx := [2], frame := some 3, since := 5 }) with uptime := 1000000 }; s.csp[(1 : Fin 2)].since + cspTicks s 1 ≤ s.uptime ∧ cspServes s 1 = true ∧ s.bit (CSP.STATUS (1 : Fin 2)) 1 = true ∧ s.csp[(1 : Fin 2)].tx ≠ [] ∧ s.csp[(1 : Fin 2)].rx.length < 8 ∧
      s.csp[(1 : Fin 2)].frame.isSome = true ∧ s.csp[(1 : Fin 2)].rx = 2 :: []) ∧ 8 ≤ (upCsp (slave []) 1 (fun c => { c with tx := List.replicate 8 0 })).csp[(1 : Fin 2)].tx.length := by decide +kernel

theorem test_HostWindow_applies : (placed [(HWN.CTRL, 0)]).bit HWN.CTRL 0 = false ∧ (let s := (placed [(HWN.CTRL, 3), (CSP.CTRL 0, 3)]).setDom Dom.periph .on; s.bit HWN.CTRL 0 = true ∧ serialOn s = true ∧ s.bit HWN.CTRL 1 = true ∧ s.bit (CSP.CTRL 0) 0 = true ∧ s.bit (CSP.CTRL 0) 1 = true ∧ Reaches s 0 HWN.CTRL true) ∧
    (let s := (placed [(HWN.CTRL, 1), (TWB.CTRL 0, 5)]).setDom Dom.periph .on; s.bit HWN.CTRL 0 = true ∧ serialOn s = true ∧ s.bit HWN.CTRL 1 = false ∧ s.bit (TWB.CTRL 0) 0 = true ∧ s.bit (TWB.CTRL 0) 2 = true ∧ s.hwn.tx = none) ∧
    (let s := (placed [(HWN.CTRL, 3)]).upHwn (fun h => { h with tx := some { cmd := true } }); s.hwn.tx = some { cmd := true } ∧ s.bit HWN.CTRL 1 = true) ∧ (placed [(HWN.CTRL, 8)]).bit HWN.CTRL 3 = true := by decide +kernel

/-- KEY with a command, an OTP command, or a burnt root secret. -/
def keyed (c : Word) : KeyCmd := { cmd := c, arg0 := 0, arg1 := 0, arg2 := 0, ctx := [], addr := 0, data := [] }
def rooted (l : List (Nat × Word)) : State := burnRoot (placed l) 0 (List.replicate 32 1)

theorem test_Keys_commands : (let s := placed []; Reaches s 0 KEY.OTPCMD true ∧ s.keys.otpCmd = none ∧ Reaches s 0 KEY.CMD true ∧ s.keys.cmd = none) ∧
    (let s := (placed [(PWR.VBAT, 1999)]).upKeys (fun k => { k with otpCmd := some 4, cmd := some (keyed 4) }); s.keys.otpCmd = some 4 ∧ s.fld PWR.VBAT 11 0 < 2000 ∧ s.keys.cmd = some (keyed 4)) ∧
    (let s := placed [(PWR.VBAT, 2000)]; 2000 ≤ s.fld PWR.VBAT 11 0 ∧ bitsOf (4 : Word) 3 0 = 4 ∧ lifecycle s ≠ 2) := by decide +kernel

theorem test_Keys_root : (rootSecret (rooted [])).isSome = true ∧ (let s := rooted [(KEY.STATUS, 6)]; s.bit KEY.STATUS 2 = true ∧ s.bit KEY.STATUS 3 = false ∧ s.bit KEY.STATUS 1 = true ∧ bitsOf (keyed 4).cmd 3 0 = 4) ∧ bitsOf (keyed 8).cmd 3 0 = 8 ∧
    (let s := rooted [(KEY.STATUS, 4)]; s.bit KEY.STATUS 2 = true ∧ s.fld KEY.ALARM 3 0 = 0 ∧ s.bit KEY.STATUS 1 = false) ∧ (rooted []).bit KEY.STATUS 2 = false ∧ rootSecret (placed []) = none := by decide +kernel

/-- A job of an operation in queue 106, its descriptor in scene memory. -/
def jobQueued (op : Word) : State := (((scene [(AES.CTRL, 1), (QUE.QCFG 106, 0x402), (QUE.QSTAT 106, 1), (QUE.QBASE 106, 0x40000000)]).stw 0x20000000 0x40000100).setBytes 0x20000100 (List.replicate 64 0)).stw 0x20000100 op

theorem test_Crypto_jobs : (∀ op ∈ [1, 2, 3, 4, 5, 6, 7, 8], let s := jobQueued (BitVec.ofNat 32 op); jobNext s = some 106 ∧ (qPeek s 106).1 = some 0x40000100 ∧ (qTake s 106).1.isSome = true ∧
      ((engineRead s (jobInit (qTag s 106 (qHead s 106)).1) 0x40000100 64 true).1.map (fun b => (descOf b).op)) = some op) ∧
    (let s := (placed []).upKeys (fun k => { k with jobs := [{ q := 110, desc := 0, who := 0, trust := true, status := some 4 }, { q := 110, desc := 0, who := 0, trust := true }] }); (s.keys.jobs.map (·.status)) = [some 4, none]) := by decide +kernel

theorem test_Crypto_units : (let s := placed [(KEY.ALARM, 0x10000)]; pwrState s ≠ 4 ∧ s.keys.cmd = none ∧ s.keys.jobs = [] ∧ s.keys.pka = none ∧ s.bit KEY.ALARM 16 = true ∧ Reaches s 0 PKA.CMD true ∧ keyHoldsPka s = false) ∧
    (let s := (placed []).upKeys (fun k => { k with cmd := some (keyed 6) }); s.keys.pka = none ∧ keyHoldsPka s = true) ∧ ((placed []).upKeys (fun k => { k with pka := some 4 })).keys.pka = some 4 ∧
    (let s := placed [(HSH.LEN, 63)]; Reaches s 0 HSH.CTRL true ∧ Reaches s 0 HSH.GO true ∧ Reaches s 0 HSH.DATA true ∧ s.keys.hash.go = none ∧ (s.rd HSH.LEN).toNat % hshBlock s ≠ 0) ∧ ((placed [(HSH.LEN, 64)]).rd HSH.LEN).toNat % hshBlock (placed [(HSH.LEN, 64)]) = 0 := by decide +kernel

/-- HSH with a feed that runs. -/
def hashing (g : Nat) (l : List (Nat × Word)) : State := (placed l).upKeys (fun k => { k with hash := { k.hash with go := some g } })

theorem test_Crypto_hash : (hashing 4 []).keys.hash.go = some 4 ∧
    (let s := hashing 1 [(HSH.SRC, 0x20000000), (HSH.LEN, 64)]; let u := s.upKeys (fun k => { k with hash := { k.hash with go := none } }); s.keys.hash.go = some 1 ∧ (physRead u 0 (u.rd HSH.SRC).toNat (u.rd HSH.LEN).toNat).1.isSome = true) ∧
    (let s := hashing 1 [(HSH.SRC, 0xF0000000), (HSH.LEN, 64)]; let u := s.upKeys (fun k => { k with hash := { k.hash with go := none } }); (physRead u 0 (u.rd HSH.SRC).toNat (u.rd HSH.LEN).toNat).1 = none) := by decide +kernel

theorem test_Crypto_random : (let s := placed [(RNG.CTRL, 1), (RNG.STATUS, 4)]; Reaches s 0 RNG.CTRL true ∧ s.bit RNG.CTRL 0 = true ∧ s.bit RNG.STATUS 2 = true ∧ Reaches s 0 RNG.DATA false ∧ s.keys.fifo = []) ∧
    ((placed []).upKeys (fun k => { k with fifo := [7, 8] })).keys.fifo = 7 :: [8] := by decide +kernel

theorem test_Power_requests : (let s := placed []; Reaches s 0 PWR.REQ true ∧ pwrPhase s = 0) ∧ (let s := setPwr (placed []) 0 1; pwrPhase s = 1 ∧ prepWaiting s = 0) ∧
    (let s := (setPwr (placed [(FLC.STATUS, 2)]) 0 1); pwrPhase s = 1 ∧ prepWaiting s ≠ 0) ∧ pwrPhase (setPwr (placed []) 0 2) = 2 ∧ pwrPhase (setPwr (placed []) 0 3) = 3 ∧
    (let s := (setPwr (placed []) 0 2).upPwr (fun p => { p with target := 3 }); s.pwr.target ≠ 4 ∧ s.pwr.latch = []) ∧ (setPwr (placed []) 2 3).pwr.toRun = false ∧
    ((setPwr (placed []) 3 3).upPwr (fun p => { p with toRun := true })).pwr.toRun = true := by decide +kernel

theorem test_Power_wakes : wakeEnabled (placed [(PWR.WAKEEN, 0)]) (9 : Fin 13).val = false ∧ (let s := placed []; wakeEnabled s (12 : Fin 13).val = true ∧ pwrPhase (s.setBit PWR.WAKESTAT (12 : Fin 13).val true) = 0 ∧
      pwrState (s.setBit PWR.WAKESTAT (12 : Fin 13).val true) ≠ 3 ∧ pwrState (s.setBit PWR.WAKESTAT (12 : Fin 13).val true) ≠ 2) ∧
    pwrPhase ((setPwr (placed []) 0 1).setBit PWR.WAKESTAT (12 : Fin 13).val true) = 1 ∧ pwrPhase ((setPwr (placed []) 0 2).setBit PWR.WAKESTAT (12 : Fin 13).val true) = 2 ∧
    (let u := (setPwr (placed []) 3 0).setBit PWR.WAKESTAT (12 : Fin 13).val true; pwrPhase u = 0 ∧ pwrState u = 3) := by decide +kernel

theorem test_Power_doze : (let s := placed [(PWR.CFG, 1)]; s.bit PWR.CFG 0 = true ∧ pwrState s = 0 ∧ pwrPhase s = 0 ∧ (List.finRange 6).all (coreQuiet s) = true) ∧
    (let s := setPwr (live 0 []) 1 0; pwrState s = 1 ∧ (List.finRange 6).all (coreQuiet s) = false) ∧
    (let s := (setPwr (placed [(PWR.CFG, 2)]) 2 0).upPwr (fun p => { p with fromRest := true, ran := false }); s.bit PWR.CFG 1 = true ∧ pwrState s = 2 ∧ pwrPhase s = 0 ∧ s.pwr.fromRest = true ∧ s.pwr.ran = false ∧
      (∀ n, n < 32 → s.fld (HUB.SHSTAT n) 1 0 = 0) ∧ s.sched.own = false ∧ s.sched.annOpen = false ∧ s.trk.window = false ∧ s.lnk.relays = [] ∧ s.lnk.acks = []) := by decide +kernel

theorem test_Power_supply : (2200 < (2201 : BitVec 12).toNat ∧ (placed []).fld PWR.VBATWARN 11 0 = 2200 ∧ ((placed []).dom Dom.dramsys ≠ .off ∨ pwrState (placed []) ≠ 0 ∨ pwrPhase (placed []) ≠ 0)) ∧ (1600 + 100 < 1750 ∧ 1750 ≤ 1750) ∧ (1699 < 1700) ∧ (1600 + 50 < 1700 ∧ 1700 ≤ 1600 + 100) := by decide +kernel

theorem test_Clock_applies : (let s := placed []; Reaches s 0 RTC.CMD true ∧ Reaches s 0 RTC.SUBSEC false ∧ Reaches s 0 RTC.STATUS true ∧ s.bit RTC.STATUS 3 = false) ∧ (placed [(RTC.STATUS, 8)]).bit RTC.STATUS 3 = true ∧
    (let s := (placed [(RTC.STATUS, 0)]).upRtc (fun r => { r with apply := .moved, moving := [0] }); s.rtc.apply = .moved ∧ s.rtc.moving = [0] ∧ s.bit RTC.STATUS 1 = false) ∧
    ((placed []).upRtc (fun r => { r with apply := .asked })).rtc.apply = .asked ∧
    (let s := (placed []).upRtc (fun r => { r with alarms := r.alarms.set 1 { en := true, secs := r.secs, sub := r.sub } }); let a := s.rtc.alarms[(1 : Fin 2)]; a.en = true ∧ a.fired = false ∧ alarmCount a = rtcCount s ∧ a.rep = 0 ∧ s.pwr.blackout = false) ∧
    ((placed []).rtc.alarms[(1 : Fin 2)].en = false) ∧ ((placed []).upRtc (fun r => { r with alarms := r.alarms.set 1 { en := true, fired := true } })).rtc.alarms[(1 : Fin 2)].fired = true ∧
    (let s := (placed []).upRtc (fun r => { r with alarms := r.alarms.set 1 { en := true, secs := r.secs + 1 } }); rtcCount s < alarmCount s.rtc.alarms[(1 : Fin 2)]) ∧
    (placed [(CLK.STATUS, 2)]).bit CLK.STATUS 1 = true ∧ (placed []).bit CLK.STATUS 1 = false ∧ (placed []).pwr.blackout = false ∧ ((placed [(RTC.TRIM, 0x110)]).bit RTC.TRIM 8 = true ∧ (placed [(RTC.TRIM, 0x10)]).bit RTC.TRIM 8 = false) ∧
    (let s := (placed [(RTC.WAKECFG, 0x800)]).upPwr (fun p => { p with blackout := true }); s.pwr.blackout = true ∧ wakesBlackout s (3 : Fin 4).val = true) := by decide +kernel

/-- The service port listening, with two buffers in scene memory, served by the running image. -/
def port (l : List (Nat × Word)) : State := (scene ([(SVC.CTRL, 0x01A10003), (CLK.STATUS, 8), (SVC.RXCFG, 2), (SVC.RXBASE, 0x40000000), (PWR.VBAT, 3300), (SYS.PHASE, 1)] ++ l)).upBoot (fun b => { b with step := .done })

theorem test_Service_packets : svcListens (placed [(SVC.CTRL, 0)]) = false ∧ (svcListens (port []) = true ∧ svcNbuf (port []) ≠ 0 ∧ svcFree (port []) = some 0 ∧ (engineWrite (port []) svcInit 0x40000000 (leBytes 2 2 ++ [1, 2]) true).1 = false) ∧
    (let s := port [(SVC.RXBASE, 0xF0000000)]; svcFree s = some 0 ∧ (engineWrite s svcInit 0xF0000000 (leBytes 2 2 ++ [1, 2]) true).1 = true) ∧ svcFree ((port []).upSvc (fun v => { v with used := [0, 1] })) = none := by decide +kernel

theorem test_Service_replies : (let s := (port []).upSvc (fun v => { v with reply := some [1], newDiv := some 16 }); s.bit SVC.CTRL 0 = true ∧ svcClock s = true ∧ pwrState s ≤ 1 ∧ s.svc.reply.isSome = true ∧ s.svc.newDiv = some 16) ∧
    (let s := (port []).upSvc (fun v => { v with reply := some [1], newDiv := none, probing := true }); s.svc.reply.isSome = true ∧ s.svc.newDiv = none ∧ s.svc.probing = true ∧ s.uptime < s.svc.probeAt + ticksPerSecond ∧ ({ s with uptime := ticksPerSecond } : State).svc.probeAt + ticksPerSecond ≤ ticksPerSecond) ∧
    (let s := (port [(QUE.QCFG 121, 0x402), (QUE.QSTAT 121, 1), (QUE.QBASE 121, 0x40000800)]).stw 0x20000800 7; s.svc.reply = none ∧ (qTake s 121).1.isSome = true) ∧ (port []).svc.probing = false ∧ Reaches (port []) 0 SVC.RXFREE true := by decide +kernel

theorem test_Service_requests : svcServer (placed []) = 0 ∧ (svcServer (port []) = 1 ∧ lifecycle (port []) ≠ 3 ∧ (port []).svc.last.1 ≠ [1, 0, 16, 0]) ∧ leNat [16, 0] ≠ 0 ∧
    (let s := (port []).upSvc (fun v => { v with last := ([1, 0, 16, 0], [2]) }); svcServer s ≠ 0 ∧ s.svc.last.1 = [1, 0] ++ [16, 0]) := by decide +kernel

theorem test_Service_loads : svcRefusal (port []) = 0 ∧ svcRefusal (port [(PWR.VBAT, 1999)]) ≠ 0 ∧
    (let s := (port []).upSvc (fun v => { v with ustate := 1, hdr := List.replicate 320 1 }); s.svc.ustate = 1 ∧ svcTotal s ≠ 0 ∧ s.svc.pos0 < hdrFld s.svc.hdr 28 4 ∧ svcRefusal s = 0) ∧
    (let s := (port []).upSvc (fun v => { v with ustate := 3 }); s.svc.ustate = 3 ∧ svcRefusal s = 0) ∧ (let s := (port []).upSvc (fun v => { v with ustate := 2 }); s.svc.ustate = 2) := by decide +kernel

/-- An owner entry for the key of private number 1, with its statement of operation 1. -/
def ownerPub : List Byte := beBytes 32 g256.1 ++ beBytes 32 g256.2
def ownerStmt : List Byte := leBytes 4 0x4F574E52 ++ [1, 0, 0, 0] ++ List.replicate 72 0 ++ ownerPub ++
  beBytes 32 0x6b17d1f2e12c4247f8bce6e563a440f277037d812deb33a0f4a13945d898c296 ++ beBytes 32 0x2795f2963892740f1d082d911145939147a88ca3fe2f0b940e71df2396064dad
def owned : State := ((port []).otpBurn 0x400 (sha256 ownerPub ++ leBytes 4 (crc32 (sha256 ownerPub)))).upSvc (fun v => { v with nonce := some (List.replicate 32 0, 0) })

theorem test_Service_owner_key : ownerStmt.length = 208 ∧ (ownerStmt.getD 4 0).toNat = 1 ∧ keyTest owned 0 ((ownerStmt.drop 80).take 64) = true ∧ ownerOk (owned.upSvc (fun v => { v with nonce := none })) ownerStmt = false ∧
    svcServer owned = 1 ∧ lifecycle owned ≠ 3 ∧ ownerOk owned ownerStmt = true := by decide +kernel

/-- VERIFIED, the staged header that of the running image with an empty body, LIVEOK set, as flash never programmed shows it. -/
def verified (l : List (Nat × Word)) : State := let s := (port l).setBytes (flashAt 0x20010) [0, 0, 0, 0]; s.upSvc (fun v => { v with ustate := 4, hdr := runHdr s })

theorem test_Activation_applies : (let s := port []; svcServer s = 1 ∧ lifecycle s ≠ 3 ∧ activateCheck s ≠ 0) ∧
    (let s := verified []; activateCheck s = 0 ∧ (s.svc.hdr.drop 36).take 32 = ((runHdr s).drop 36).take 32 ∧ testB (hdrFld (manifest s (updTarget s)) 44 4) 0 = true ∧ s.svc.last.1 ≠ [5, 0, 0] ∧ s.svc.last.1 ≠ [5, 0, 1]) ∧
    (let s := (verified []).upSvc (fun v => { v with hdr := [] }); activateCheck s = 0 ∧ (s.svc.hdr.drop 36).take 32 ≠ ((runHdr s).drop 36).take 32) := by decide +kernel

/-- A service command in Q114. -/
def serviced (b : Word) : State := ((scene [(QUE.QCFG 114, 0x402), (QUE.QSTAT 114, 1), (QUE.QBASE 114, 0x40000000)]).stw 0x20000000 0x40000100).setBytes 0x20000100 (leBytes 4 b.toNat ++ List.replicate 28 0)

theorem test_Activation_ends : (let s := (port []).upSvc (fun v => { v with ustate := 5, live := true }); s.svc.ustate = 5 ∧ s.svc.live = true ∧ anyTask s = false ∧ anyTask (s.upStg (fun g => { g with task := g.task.set 0 5 })) = true) ∧
    ((serviceTake (serviced 0x20) 0x20).1 = true ∧ (serviceTake (serviced 0x20) 0x20).2.svc.holdover = false ∧ (serviceTake ((serviced 0x20).upSvc (fun v => { v with holdover := true })) 0x20).2.svc.holdover = true) ∧
    ((serviceTake (serviced 0x21) 0x21).1 = true ∧ (serviceTake (serviced 0x21) 0x21).2.svc.ustate ≠ 6 ∧ (serviceTake ((serviced 0x21).upSvc (fun v => { v with ustate := 6 })) 0x21).2.svc.ustate = 6) ∧
    (let s := (port []).upSvc (fun v => { v with ustate := 6, ready := false, live := true, holdover := false }); s.svc.ustate = 6 ∧ s.svc.ready = false ∧ s.svc.live = true ∧ s.svc.holdover = false) ∧
    (let s := (port []).upSvc (fun v => { v with ustate := 0, ready := true, live := false, holdover := true }); s.svc.ustate ≠ 6 ∧ s.svc.ready = true ∧ s.svc.live = false ∧ s.svc.holdover = true ∧ s.svc.ustate = 0) := by decide +kernel

/-- The waits of an activation, before and after their time. -/
theorem test_Activation_waits : (let s : State := { port [] with uptime := 31 * ticksPerSecond }; s.svc.drainAt + updField s 6 2 100 * (ticksPerSecond / 1000) ≤ s.uptime ∧ s.svc.trialAt + 15 * ticksPerSecond ≤ s.uptime ∧
      s.svc.pauseAt + 30 * ticksPerSecond ≤ s.uptime) ∧
    (let s := port []; s.uptime < s.svc.trialAt + 15 * ticksPerSecond ∧ s.uptime < s.svc.pauseAt + 30 * ticksPerSecond ∧ (1 : Nat) = 1 - s.fld SYS.BOOTSEL 0 0 ∧ (0 : Nat) = s.fld SYS.BOOTSEL 0 0) := by decide +kernel

/-! ### Reset and a step -/

theorem test_reset_is_sound : Sound State.reset := by decide +kernel
theorem test_step_from_reset : ∃ t, step State.reset = .next t := ⟨_, rfl⟩
theorem test_step_takes_the_front : ∃ t, step { State.reset with pending := [.zqCalibration] } = .next t ∧ t.pending = [] := ⟨_, rfl, rfl⟩


/-! ### The worked examples of the spec -/

/-- A condition on the state a command leaves. -/
def after (o : Host.Outcome State Fault Refusal) (q : State → Bool) : Bool := match o with | .next t => q t | _ => false

/-- 02, "a gain loop": the branch word of B1 is `!g0 #0 -> cu.br`, and B3's last word `mul.p0 -> lsu.o`. -/
theorem test_example_syllables : moveOf 0xF5000901 = { guard := 2, src := .val 0, slot := 7, dst := 0x901 } ∧ sylStop 0xF5000901 = true ∧
    moveOf 0xB0110800 = { guard := 0, src := .sock 0x110, slot := 3, dst := 0x800 } ∧ moveOf 0x21001042 = { guard := 0, src := .val 1, slot := 2, dst := 0x42 } := by decide

/-- 02, "a gain loop": B3 of the loop is a legal bundle of a large player. -/
theorem test_example_bundle : illegalCode .large [0x00101040, 0x10005006, 0x20120900, 0xB0110800] = none ∧ illegalCode .large [0x10005006, 0x00101040] = some 1 := by decide

/-- 03 R60: the corners of division. -/
theorem test_division_corners : divResult .div 7 0 = 0xFFFFFFFF ∧ divResult .remu 7 0 = 7 ∧ divResult .div 0x80000000 0xFFFFFFFF = 0x80000000 ∧ divResult .rem 0x80000000 0xFFFFFFFF = 0 := by decide

/-- 06, "locating a word". -/
theorem test_example_dram : dramMap (placed [(DMC.ADDRMAP, 5)]) 0x81234568 = (0, 0x91A568) ∧ dramUnmap (placed [(DMC.ADDRMAP, 5)]) 0 0x91A568 = 0x81234568 ∧ dramPlace 0x91A568 = { bank := 6, row := 665, byte := 872, chk := 1901 } := by decide +kernel

/-- 09 R222: the CRC-24 of "123456789". -/
theorem test_crc24 : crc24 [0x31, 0x32, 0x33, 0x34, 0x35, 0x36, 0x37, 0x38, 0x39] = 0x21CF02 := by decide +kernel

/-- 09, "a 100-octet frame": its header, its Golay halves, its 1,984 symbols at 4,800 symbols a second. -/
theorem test_example_frame : headerOf 100 1 = 0x990864 ∧ headerOf 100 1 % 4096 = 0x864 ∧ headerOf 100 1 / 4096 = 0x990 ∧ headerOk 2 0x990864 = true ∧ payloadBits 1 100 = 1824 ∧ payloadBits 0 100 = 1824 ∧
    frameTicks 2 1 4 97 = 1984 * 32000000 / 4800 := by decide +kernel

/-- 10, "a queued frame": C = START − 77 µs. -/
theorem test_example_commit : let s := placed [(TXC.HOPLEAD, 60), (TXC.SEQ 1, 0xAA010040), (TXC.SEQ 2, 0xAA1100A0), (TXC.SEQ 3, 0xAA210140), (TXC.SEQ 4, 0xAA310000), (TXC.SEQ 5, 0x140), (TXC.SEQ 6, 0x420040)]
    txLead s = 77 * 32 ∧ delaysAfterData (seqTable s) = 12 * 32 := by decide +kernel

/-- 11, "a flood copy": the relay goes out on bin 24. -/
theorem test_example_relay : ((parseFrame ([0xC9, 0x04, 0, 0, 0x2E, 0x1C, 0x03, 0, 0, 0x6D, 0x59, 0x4A, 0x05, 0x10, 0x3F, 0x1A, 6, 0x05, 0x0F] ++ List.replicate 78 0)).map (fun f => (f.src, f.fcnt.toNat, f.payLen, f.mic,
      relayBin (placed [(LNK.RBINMAP 0, 0x01000100), (LNK.RBINMAP 1, 0x01000100), (LNK.RBINMAP 2, 0x01000100), (LNK.RBINMAP 3, 0x01000100)]) f 1 40))) = some (0x4A596D0000031C2E, 0x1A3F1005, 70, 8, 24) := by decide +kernel

/-- 12, "the slot of a 4-second cycle". -/
theorem test_example_slot : listenInstant ((placed [(LNK.SHORT, 0x2C41)]).upSched (fun c => { c with cfg := 0x500 })) 26876 = 26876 * 128000000 + 52371093 := by decide +kernel

/-- 12, "three missed beacons": the guards of the three windows. -/
theorem test_example_guards : let s := fun (st x : Nat) => (placed [(LNK.NTSTAT, BitVec.ofNat 32 st), (LNK.BCNSTAT, 0x105), (CAL.STATUS, 0x404), (RTC.TTAB 4, 0x80000000), (RTC.TTAB 5, 0x80000000)]).upTrk (fun t => { t with x := BitVec.ofNat 64 (x * 32000000) })
    beaconGuard (s 1 32) = 32 * 692 ∧ beaconGuard (s 2 64) = 32 * 1768 ∧ beaconGuard (s 3 96) = 32 * 4304 := by decide +kernel

/-- 15, "a pump bridge": tick 150 lowers REF; tick 400 holds CNT at 399 and turns. -/
def bridge (cnt : Word) : State := upTimer (placed [(TM.CTRL 0, 0xD0213), (TM.PER 0, 400), (TM.PERACT 0, 400), (TM.CC 0 0, 150), (TM.CCACT 0 0, 150), (TM.CHCFG 0 0, 0x31), (TM.DT 0, 8), (TM.CNT 0, cnt)]) 0 (fun t => { t with owed := 1 })
theorem test_example_bridge : after (exec (.timerCountTick 0) (bridge 149)) (fun t => t.rd (TM.CNT (0 : Fin 8)) == 150 && !t.timers[(0 : Fin 8)].chans[(0 : Fin 4)].ref) = true ∧
    after (exec (.timerCountTick 0) (bridge 399)) (fun t => t.rd (TM.CNT (0 : Fin 8)) == 399 && t.bit (TM.STATUS (0 : Fin 8)) 0) = true := by decide +kernel

/-- 16, "a read past the end": the command byte loads the pointer; the status after an overflow and an unfinished byte is 0xB1. -/
theorem test_example_window : after (exec (.hwnByteCommit 0xFE) (((placed [(HWN.CTRL, 0x5C07)]).setDom Dom.periph .on).upHwn (fun h => { h with tx := some { cmd := true } })))
      (fun t => t.hwn.ptr == 0x7E && (t.hwn.tx.map (·.read)) == some true) = true ∧
    hwnStatus ((placed [(HWN.CTRL, 0x5C07), (QUE.QCFG 118, 0x402), (QUE.QBASE 118, 0x20000000)]).upHwn (fun h => { h with frameErr := true, addrOvf := true })) = 0xB1 := by decide +kernel

/-- 20, "an SRAM error under a relay": word 2 of the entry. -/
theorem test_example_log : logWord2 0x01 0x07 0 1 = 0x01000701 := by decide

/-- 17 (FIPS 180-4, FIPS 186-4): the SHA-256 of no octets, and the double of the base point. -/
theorem test_digest : (sha256 []).take 4 = [0xE3, 0xB0, 0xC4, 0x42] := by decide +kernel
theorem test_group : ((ptMul 2 (some g256)).map Prod.fst) = some 0x7CF27B188D034F7E8A52380304B51AC3C08969E277F21B35A60B48FC47669978 := by decide +kernel

end Sys2Proof.Tests
end

section
/-! PROOF. Accesses of registers: writes and counts that follow their access codes alone (00 R6, R7), and accesses that no block serves
(00 R5, 01 R11, 04 R93, R94). -/
namespace Sys2Proof.Scope
open Sys2Proof.Machine Sys2Proof.Safety Sys2Proof.Reg

/-! ### Register writes as commands -/

/-- 20 R495: while `DBG.STEP` names no core, a register write is the access alone. -/
theorem exec_registerWrite {s t : State} {who a : Nat} {v : Word} (h : s.access who a (some v) = t) (ht : t.flt.steps = 0) :
    exec (.registerWrite who a v) s = .next t := by
  subst h
  exact congrArg Host.Outcome.next (runSteps_none ht)

/-- 00 R5: an offset that no register occupies ignores a write. -/
theorem plainWrite_unoccupied {s : State} {a : Nat} {v : Word} {t : Bool} (h : regRow a = none) : s.plainWrite a v t = s := by
  simp only [State.plainWrite, h]

/-! ### Who the curtain lets write -/

/-- 04 R93: the addresses in the pages that only trusted initiators write, and whose blocks set RWT bits without asking again. -/
def takenAsTrusted (a : Nat) : Bool :=
  [0x30000, 0x30001, 0x30004, 0x30005, 0x30007, 0x30008, 0x30009, 0x3000C, 0x3000D].contains (a / 4096)

theorem curtainBlocks_of_takenAsTrusted {s : State} {who a : Nat} (ha : takenAsTrusted a = true) (ht : s.trusted who = false) :
    curtainBlocks s who a true = true := by
  simp only [takenAsTrusted, List.contains_eq_mem, decide_eq_true_eq, List.mem_cons, List.not_mem_nil, or_false] at ha
  rcases ha with ha | ha | ha | ha | ha | ha | ha | ha | ha <;> simp [curtainBlocks, ht, ha]

/-- 04 R93: a write that the curtain lets through to such a page comes from a trusted initiator. -/
theorem takenAsTrusted_or_trusted {s : State} {who a : Nat} (h : Reaches s who a true) : (takenAsTrusted a || s.trusted who) = s.trusted who := by
  cases ha : takenAsTrusted a with
  | false => exact Bool.false_or _
  | true => rw [curtain_trusted h.2 (fun _ => curtainBlocks_of_takenAsTrusted ha), Bool.true_or]

/-- A write that the curtain blocks comes from an untrusted initiator. -/
theorem untrusted_of_curtainBlocks {s : State} {who a : Nat} {w : Bool} (h : curtainBlocks s who a w = true) : s.trusted who = false := by
  simp only [curtainBlocks, Bool.and_eq_true, Bool.not_eq_true'] at h
  exact h.1

/-! ### Writes by access code -/

/-- Registers, of every block that has them, that have nothing but their access codes. -/
def codeRegs : List Nat :=
  [SYS.ID, SYS.RSTCAUSE, SYS.ENTRY 2, SYS.HEALTHDL, PWR.EVT, PWR.IEN, RTC.EVT, RTC.IEN, FLT.EVT, FLT.IEN, FLT.LOGHEAD, FLT.CECNT0, AES.EVT, AES.IEN,
    PKA.EVT, DMC.CECOUNT, HUB.EVT, HUB.IEN, TM.EVT 3, TWB.EVT 1, TWB.IEN 1, CSP.EVT 0, HWN.EVT, SVC.EVT, SVC.IEN, RFE.EVT, RXC.EVT, RXC.IEN, TXC.EVT, TXC.IEN,
    LNK.EVT, LNK.IEN, LNK.TEVT, LNK.TIEN]

/-- A block writes such a register by its access code and does nothing else. -/
theorem regWrite_codeRegs (s : State) (who : Nat) (v : Word) :
    ∀ a ∈ codeRegs, regWrite s who a v = (false, s.plainWrite a v (takenAsTrusted a || s.trusted who)) := by
  simp only [codeRegs, List.forall_mem_cons, List.not_mem_nil, false_implies, implies_true, and_true]
  and_intros <;> rfl

/-- A write by access code changes one register and no byte of memory. -/
theorem onlyRegs_wr (s : State) (a : Nat) (v : Word) : OnlyRegs s (s.wr a v) [a] :=
  ⟨fun _ hb => State.rd_wr_ne s (by simpa using hb) v, fun _ => rfl⟩

/-- Settles O33: the block of each register listed leaves the write to the access codes of the register's row. -/
theorem registerWriteFollowsAccessCodes : Obligations.RegisterWriteFollowsAccessCodes := by
  unfold Obligations.RegisterWriteFollowsAccessCodes
  intro who a v r s hsteps hreach hrow ha
  have hw : regWrite s who a v = (false, s.wr a (codeWrite r (s.rd a) v (s.trusted who))) := by
    rw [regWrite_codeRegs s who v a ha, takenAsTrusted_or_trusted hreach, plainWrite_only v _ hrow]
  refine ⟨_, exec_registerWrite (access_write hreach hw) hsteps, onlyRegs_wr s a _, fun i hi => ?_⟩
  rw [State.rd_wr_self]
  exact getLsbD_codeWrite r (s.rd a) v _ i hi

/-! ### Reads of counts -/

/-- Whether a chain of cases answers depends on its conditions alone. -/
theorem isNone_ite_congr {α : Type} {c d : Prop} [Decidable c] [Decidable d] {x y : α} {o p : Option α} (hc : c ↔ d) (h : o.isNone = p.isNone) :
    (if c then some x else o).isNone = (if d then some y else p).isNone := by
  by_cases hd : d
  · simp [hc, hd]
  · simp [hc, hd, h]

/-- Whether a word is formed when it is read does not depend on the state or the reader, but for the transmit slots of LNK. -/
theorem readHook_isNone_eq {a : Nat} (h : a / 4096 ≠ 0x30037) (s t : State) (who w : Nat) :
    (readHook s who a).isNone = (readHook t w a).isNone := by
  unfold readHook
  iterate 21 refine isNone_ite_congr Iff.rfl ?_
  -- The one condition that asks the state: a transmit slot of LNK, in a page that `h` excludes.
  exact isNone_ite_congr ⟨fun hs => absurd hs.1 h, fun hs => absurd hs.1 h⟩ (isNone_ite_congr Iff.rfl rfl)

/-- 00 R7: the registers that a read clears, by access code alone. -/
def isCount (a : Nat) : Bool :=
  a / 4096 != 0x30037 && (readHook State.reset 0 a).isNone && (regRow a).any RegRow.rc

/-- 00 R7: a command that reads a count returns it and leaves 0. -/
theorem exec_countRead {i : Instr} {who a : Nat} {s : State} (hi : exec i s = .next (s.access who a none)) (ha : isCount a = true)
    (hr : Reaches s who a false) : exec i s = .next { s.wr a 0 with rdata := s.rd a } := by
  simp only [isCount, Bool.and_eq_true, bne_iff_ne, ne_eq, Option.any_eq_true] at ha
  obtain ⟨⟨hpage, hhook⟩, r, hrow, hrc⟩ := ha
  have hnone : readHook s who a = none := by
    rw [← Option.isNone_iff_eq_none, readHook_isNone_eq hpage s State.reset who 0, hhook]
  rw [hi, rc_read hr hnone hrow hrc]

/-- 00 R9: whether a row describes the register at an offset, by division: the row's registers lie within its first stride. -/
def rowAt (r : RegRow) (off : Nat) : Bool :=
  decide (r.off ≤ off ∧ (off - r.off) / r.st1 < r.n1 ∧ (off - r.off) % r.st1 < r.st2 * r.n2 ∧ (off - r.off) % r.st1 % r.st2 = 0)

/-- The stride decides which of the row's registers can lie at an offset: no search over them is needed. -/
theorem rowHas_eq_rowAt {r : RegRow} (h : r.st2 * r.n2 ≤ r.st1) (off : Nat) : rowHas r off = rowAt r off := by
  rw [Bool.eq_iff_iff]
  simp only [rowHas, rowAt, List.any_eq_true, List.mem_range, Bool.and_eq_true, decide_eq_true_eq]
  constructor
  · rintro ⟨i, hi, ⟨hlo, hhi⟩, hmod⟩
    obtain ⟨k, rfl⟩ := Nat.exists_eq_add_of_le hlo
    have hk : k < r.st1 := by omega
    have hoff : r.off + r.st1 * i + k - r.off = r.st1 * i + k := by omega
    rw [Nat.add_sub_cancel_left] at hmod
    rw [hoff, Nat.mul_add_div (by omega), Nat.div_eq_of_lt hk, Nat.mul_add_mod, Nat.mod_eq_of_lt hk]
    exact ⟨by omega, by omega, by omega, hmod⟩
  · rintro ⟨hlo, hi, hk, hmod⟩
    have hdiv := Nat.div_add_mod (off - r.off) r.st1
    refine ⟨_, hi, ⟨by omega, by omega⟩, ?_⟩
    rw [← hmod]
    congr 1
    omega

/-- The row of a register by division, in a block whose rows all lie within their strides. -/
theorem regRow_eq_find {a : Nat} {rows : List RegRow} (hp : pageRows (a / 4096) = some rows) (hw : ∀ r ∈ rows, r.st2 * r.n2 ≤ r.st1) :
    regRow a = rows.find? (fun r => rowAt r (a % 4096)) := by
  rw [regRow, hp]
  exact List.find?_congr fun r hr => rowHas_eq_rowAt (hw r hr) _

/-- A count of a block whose rows are looked up by division. -/
theorem isCount_of_find {a page : Nat} {rows : List RegRow} (hp : pageRows page = some rows) (hw : ∀ r ∈ rows, r.st2 * r.n2 ≤ r.st1)
    (ha : a / 4096 = page ∧ page ≠ 0x30037 ∧ (readHook State.reset 0 a).isNone = true ∧
      (rows.find? (fun r => rowAt r (a % 4096))).any RegRow.rc = true) : isCount a = true := by
  obtain ⟨rfl, hpage, hhook, hrc⟩ := ha
  rw [isCount, regRow_eq_find hp hw, hrc, hhook, bne_iff_ne.mpr hpage]
  rfl

theorem isCount_channel (n : Fin 64) : ∀ a ∈ [CH.CH_CNT0 n, CH.CH_CNT1 n, CH.CH_CNT2 n], isCount a = true := fun a ha =>
  isCount_of_find (page := 0x30032) (rows := rowsCH) rfl (by decide) (by revert n a; decide +kernel)

theorem isCount_sheet (n : Fin 32) : isCount (HUB.SHCNT n) = true :=
  isCount_of_find (page := 0x30015) (rows := rowsHUB) rfl (by decide) (by revert n; decide +kernel)

/-- Settles O1: each of the registers is a count, and its command is its read. -/
theorem countReadsReturnAndClear : Obligations.CountReadsReturnAndClear := by
  unfold Obligations.CountReadsReturnAndClear
  intro who n m s
  simp only [List.forall_mem_cons, List.not_mem_nil, false_implies, implies_true, and_true]
  refine ⟨?_, ?_, ?_, ?_, exec_countRead rfl (isCount_channel n _ (by simp)), exec_countRead rfl (isCount_channel n _ (by simp)),
    exec_countRead rfl (isCount_channel n _ (by simp)),
    ?_, ?_, ?_, ?_, ?_, ?_, ?_, ?_, ?_, ?_, ?_, ?_, ?_, ?_, ?_, ?_, ?_, ?_, ?_, ?_, ?_, ?_, exec_countRead rfl (isCount_sheet m),
    ?_, ?_, ?_, ?_, ?_, ?_⟩
  all_goals exact exec_countRead rfl (by decide)

/-! ### Accesses that no block serves -/

/-- 00 R5: a write at an offset that no register occupies changes nothing, in the blocks whose registers have little but access codes. -/
theorem regWrite_unoccupied {s : State} {who a : Nat} {v : Word} (h : regRow a = none)
    (hp : a / 4096 ∈ [0x30000, 0x30006, 0x3000A, 0x3000B, 0x30016, 0x30017, 0x30028, 0x30035, 0x30037]) : regWrite s who a v = (false, s) := by
  have hne : ∀ b, regRow b ≠ none → a ≠ b := by rintro b hb rfl; exact hb h
  have hsys : writeSys s who a v = s := by
    simp only [writeSys, hne SYS.PHASE (by decide), hne SYS.BOOTSEL (by decide), hne SYS.HEALTH (by decide), hne SYS.SWRST (by decide),
      hne SYS.PLAYHOLD (by decide), if_false, plainWrite_unoccupied h]
  have hsvc : writeSvc s a v (s.trusted who) = s := by
    simp only [writeSvc, hne SVC.RXFREE (by decide), hne SVC.RXCFG (by decide), if_false, plainWrite_unoccupied h]
  simp only [List.mem_cons, List.not_mem_nil, or_false] at hp
  rcases hp with hp | hp | hp | hp | hp | hp | hp | hp | hp <;>
    simp [regWrite, hp, hsys, hsvc, hne CLK.APPDIV (by decide), hne HWN.CTRL (by decide), plainWrite_unoccupied h]

/-- 01 R11: an access to a block whose domain is off on demand waits. -/
theorem busReach_of_od {s : State} {a : Nat} (h4 : a % 4 = 0) (hrows : pageRows (a / 4096) ≠ none) (hd : s.dom (pageDom (a / 4096)) = .od) :
    busReach s a = .wait := by
  simp [busReach, h4, hrows, hd]

/-- 18 R443: an access that finds its domain off on demand, outside an entry and not from the debug port, is no wake event. -/
theorem accessWake_of_od {s : State} {who d : Nat} (hp : pwrPhase s ≠ 2) (hd : s.dom d = .od) (hw : who ≠ 0x10) : accessWake s who d = s := by
  simp [accessWake, hp, hd, hw]

/-- 01 R11: such an access is held. -/
theorem access_held {s : State} {who a : Nat} {d : Option Word} (h4 : a % 4 = 0) (hrows : pageRows (a / 4096) ≠ none)
    (hd : s.dom (pageDom (a / 4096)) = .od) (hc : curtainBlocks s who a d.isSome = false) (hp : pwrPhase s ≠ 2) (hw : who ≠ 0x10) :
    s.access who a d = { s with heldAcc := s.heldAcc ++ [{ dom := pageDom (a / 4096), who := who, addr := a, data := d }] } := by
  have htry : busTry s who a d = (.held, s) := by
    simp [busTry, busReach_of_od h4 hrows hd, hc]
  simp only [State.access, busAccess, htry]
  exact accessWake_of_od hp hd hw

/-- 01 R11: a domain that powers up performs the one access that it held. -/
theorem exec_domainPowerUp_held {s : State} {d : Fin 28} {x : HeldAccess} (hd : s.dom d = .od) (hh : s.heldAcc = [x]) (hx : x.dom = d) :
    exec (.domainPowerUp d) s = .next ((bankStat { (s.setDom d .on) with heldAcc := [] }).access x.who x.addr x.data) := by
  show execDomainPowerUp d s = _
  simp [execDomainPowerUp, hd, hh, hx, DomCond.ready, State.setDom]

/-- The element just set, whatever the default. -/
theorem getD_modAt_self {α : Type} (c d : α) (l : List α) (n : Nat) (h : n < l.length) : (modAt l n (fun _ => c)).getD n d = c := by
  induction l generalizing n with
  | nil => simp at h
  | cons b l ih =>
    cases n with
    | zero => rfl
    | succ n => simpa [modAt] using ih n (by simpa using h)

/-- The condition of a domain just set. -/
theorem dom_setDom_self {s : State} {d : Nat} (c : DomCond) (h : d < s.doms.length) : (s.setDom d c).dom d = c :=
  getD_modAt_self c .on s.doms d h

/-- 01 R10: RADIO, on and not needed, powers down on demand and keeps its registers. -/
theorem exec_domainPowerDown_radio {s : State} (hon : s.dom Dom.radio = .on) (hrx : receiverWanted s = false) (htx : s.txc.job = none) :
    exec (.domainPowerDown 4) s = .next (s.setDom Dom.radio .od) := by
  show execDomainPowerDown 4 s = _
  simp [execDomainPowerDown, hon, hrx, htx]

/-- Settles O34: nowhere, unoccupied, blocked, held, and the domain that goes down, each by the lemma about that end of an access. -/
theorem accessesMayBeTurnedAway : Obligations.AccessesMayBeTurnedAway := by
  unfold Obligations.AccessesMayBeTurnedAway
  intro who a v s hsteps
  refine ⟨fun h => ?_, fun hreach hrow hpage => ?_, fun hreach hblock _ => ?_, fun d hdom hod h4 hrows hc hp hw => ⟨?_, fun hheld => ?_⟩,
    fun hon hrx htx hlen => ?_⟩
  · have herr : busReach s a = .err := if_pos h
    exact exec_registerWrite (access_nowhere herr) hsteps
  · exact exec_registerWrite (access_write hreach (regWrite_unoccupied hrow hpage)) hsteps
  · obtain ⟨hcnt, hfirst, hlater, hclass, hloc, hregs, hmem, hflt⟩ := curt_facts s who (untrusted_of_curtainBlocks hblock) a
    refine ⟨_, exec_registerWrite (access_blocked hreach hblock) ?_, hcnt, hfirst, hlater, hclass, hloc, hregs, hmem⟩
    exact (congrArg (fun f => f.steps) hflt).trans hsteps
  · have hheld := access_held (d := some v) h4 hrows (hdom ▸ hod) hc hp hw
    rw [hdom] at hheld
    exact exec_registerWrite hheld hsteps
  · exact exec_domainPowerUp_held hod hheld rfl
  · exact ⟨_, exec_domainPowerDown_radio hon hrx htx, dom_setDom_self _ (by rw [hlen]; decide), rfl, rfl⟩

end Sys2Proof.Scope
end

section
/-! PROOF. The bundles of a core: what the boundary at its pc makes of them (02 R29, R50, 03 R81), and that decoding reads back the words
that encoding spells (02 R33 to R36, R47). -/
namespace Sys2Proof.EmordMoves
open Sys2Proof.Machine Sys2Proof.Safety Sys2Proof.Reg

/-! ### The bundle at the pc -/

/-- 02 R50: at a boundary with no stall, no entry of a replay and no bus error to take, a core turns to the bundle at its pc. -/
theorem exec_bundleExecute_fresh {s : State} {p : Fin 6} {e : Ecc} (hrun : canRun s p = true) (hstall : (s.core p).stall = none)
    (hheld : (s.core p).held = []) (hlive : replays s p = false) : exec (.bundleExecute p .ok e) s = .next (freshBundle s p e) := by
  have hentry : replayEntry s p = none := by simp [replayEntry, hlive]
  have hdue : impreciseDue (s.core p) = false := by simp [impreciseDue, hheld]
  show execBundleExecute p .ok e s = _
  simp [execBundleExecute, State.when, hrun, stepCore, hstall, hentry, hdue, fetchFinds]

theorem freshBundle_of_bundle {s t : State} {p : Fin 6} {e : Ecc} {b : Bundle} (h : decodeAt s p (s.core p).pc = (.bundle b, t)) :
    freshBundle s p e = runBundle t p b e := by
  simp only [freshBundle, h]

/-- 03 R81: an illegal bundle raises its exception at its own address. -/
theorem freshBundle_of_illegal {s t : State} {p : Fin 6} {e : Ecc} {d n : Nat} (h : decodeAt s p (s.core p).pc = (.illegal d n, t)) :
    freshBundle s p e = raiseException t p 1 d 0 (s.core p).pc := by
  simp only [freshBundle, h]

/-- 03 R83: an exception is no double fault while EXC is 0. -/
theorem raiseException_of_clear {s : State} {p : Fin 6} (h : pstatBit (s.core p) PSTAT.exc = false) (code detail : Nat) (eaddr epc : Word) :
    raiseException s p code detail eaddr epc = s.upCore p (fun c => exceptionEntry c code detail eaddr epc) := by
  simp [raiseException, h]

/-- Settles O16: each outcome of decoding at the boundary, by the lemma about that outcome. -/
theorem bundleAtThePcIsExecuted : Obligations.BundleAtThePcIsExecuted := by
  unfold Obligations.BundleAtThePcIsExecuted
  intro p e s s1 hrun hstall hheld hlive
  have hfresh := exec_bundleExecute_fresh (e := e) hrun hstall hheld hlive
  refine ⟨fun b hb => ?_, fun d n hd hexc => ?_, fun b hready hb hplain hlen => runs_moves hready hb hplain hlen⟩
  · rw [hfresh, freshBundle_of_bundle hb]
  · rw [hfresh, freshBundle_of_illegal hd, raiseException_of_clear hexc]

/-! ### The words of a bundle -/

/-- 02 R33: what a reader of single words finds in an encoded bundle, where it does not look at the stop bit. -/
theorem map_encodeSyls {α : Type} {f : Word → α} {g : Syl → α} (h : ∀ (stop : Bool) (x : Syl), f (encodeSyl stop x) = g x) (xs : List Syl) :
    (encodeSyls xs).map f = xs.map g := by
  induction xs using encodeSyls.induct with
  | case1 => rfl
  | case2 x => simp [encodeSyls, h]
  | case3 x y rest ih => simp [encodeSyls, h, ih]

/-- 02 R50, details 1 and 2: the slots of a legal bundle rise and exist. -/
theorem slots_of_legal {k : CoreKind} {ws : List Word} (h : illegalCode k ws = none) :
    orderBroken (ws.map sylSlot) = false ∧ ∀ n ∈ ws.map sylSlot, n ≤ topSlot k := by
  have hnil : illegalCodes k ws = [] := List.head?_eq_none_iff.mp h
  simp only [illegalCodes, List.append_eq_nil_iff, and_assoc] at hnil
  obtain ⟨hord, htop, -⟩ := hnil
  refine ⟨by simpa using hord, ?_⟩
  simpa using htop

/-! ### The scan of a bundle -/

/-- 02 R35: the last syllable of a bundle ends its scan. -/
theorem sylEnds_last (k : CoreKind) (x : Syl) (prev : Option Nat) : sylEnds k (encodeSyl true x) prev = true := by
  simp [sylEnds, enc_stop]

/-- 02 R35: a syllable below the highest slot, above the slot before it and without its stop bit does not end the scan. -/
theorem sylEnds_inner {k : CoreKind} {x : Syl} {prev : Option Nat} (htop : x.slot.val < topSlot k) (hprev : ∀ q ∈ prev, q < x.slot.val) :
    sylEnds k (encodeSyl false x) prev = false := by
  cases prev with
  | none => simpa [sylEnds, enc_stop, enc_slot] using htop
  | some q => simpa [sylEnds, enc_stop, enc_slot] using ⟨htop, hprev q rfl⟩

theorem fetchSyls_end {p : Fin 6} {n va : Nat} {s t : State} {prev : Option Nat} {w : Word} (hf : fetchWord s p va = (.word w, t))
    (he : sylEnds (coreKind p) w prev = true) : fetchSyls p (n + 1) s va prev = ([w], none, t) := by
  simp only [fetchSyls, hf, he, if_true]

theorem fetchSyls_on {p : Fin 6} {n va : Nat} {s t : State} {prev : Option Nat} {w : Word} (hf : fetchWord s p va = (.word w, t))
    (he : sylEnds (coreKind p) w prev = false) :
    fetchSyls p (n + 1) s va prev =
      (w :: (fetchSyls p n t ((va + 4) % 2 ^ 32) (some (sylSlot w))).1, (fetchSyls p n t ((va + 4) % 2 ^ 32) (some (sylSlot w))).2) := by
  simp only [fetchSyls, hf, he, Bool.false_eq_true, if_false]

/-- Words lie from an address on, as a core fetches them; addresses wrap. -/
def WordsAt (s : State) (p : Fin 6) (va : Nat) (ws : List Word) : Prop :=
  ∀ (i : Nat) (w : Word), ws[i]? = some w → fetchWord s p ((va + 4 * i) % 2 ^ 32) = (.word w, s)

theorem WordsAt.head {s : State} {p : Fin 6} {va : Nat} {w : Word} {ws : List Word} (h : WordsAt s p va (w :: ws)) (hva : va < 2 ^ 32) :
    fetchWord s p va = (.word w, s) := by
  have hfirst := h 0 w rfl
  rwa [Nat.mul_zero, Nat.add_zero, Nat.mod_eq_of_lt hva] at hfirst

theorem WordsAt.tail {s : State} {p : Fin 6} {va : Nat} {w : Word} {ws : List Word} (h : WordsAt s p va (w :: ws)) :
    WordsAt s p ((va + 4) % 2 ^ 32) ws := by
  intro i v hv
  have haddr : ((va + 4) % 2 ^ 32 + 4 * i) % 2 ^ 32 = (va + 4 * (i + 1)) % 2 ^ 32 := by omega
  rw [haddr]
  exact h (i + 1) v hv

theorem WordsAt.left {s : State} {p : Fin 6} {va : Nat} {ws vs : List Word} (h : WordsAt s p va (ws ++ vs)) : WordsAt s p va ws := by
  intro i w hw
  obtain ⟨hi, -⟩ := List.getElem?_eq_some_iff.mp hw
  exact h i w (by rwa [List.getElem?_append_left hi])

/-- The scan reads a bundle whose slots rise to the highest at most: each syllable but the last leaves it running, and since eight slots
can rise no more than seven times, the scan's eight fetches suffice. -/
theorem fetchSyls_encodeSyls {s : State} {p : Fin 6} {x : Syl} {xs : List Syl} {n va : Nat} {prev : Option Nat}
    (hord : orderBroken ((x :: xs).map (fun y => y.slot.val)) = false) (htop : ∀ y ∈ x :: xs, y.slot.val ≤ topSlot (coreKind p))
    (hprev : ∀ q ∈ prev, q < x.slot.val) (hn : 8 ≤ n + x.slot.val) (hva : va < 2 ^ 32) (hw : WordsAt s p va (encodeSyls (x :: xs))) :
    fetchSyls p n s va prev = (encodeSyls (x :: xs), none, s) := by
  induction xs generalizing x n va prev with
  | nil =>
    obtain ⟨m, rfl⟩ : ∃ m, n = m + 1 := ⟨n - 1, by omega⟩
    exact fetchSyls_end (hw.head hva) (sylEnds_last _ x prev)
  | cons y ys ih =>
    obtain ⟨m, rfl⟩ : ∃ m, n = m + 1 := ⟨n - 1, by omega⟩
    obtain ⟨hxy, hrest⟩ : x.slot.val < y.slot.val ∧ orderBroken ((y :: ys).map (fun z => z.slot.val)) = false := by
      simpa [orderBroken] using hord
    have hx : x.slot.val < topSlot (coreKind p) := hxy.trans_le (htop y (by simp))
    have hscan := ih (n := m) (prev := some x.slot.val) hrest (fun z hz => htop z (List.mem_cons_of_mem x hz)) (by simpa using hxy) (by omega)
      (Nat.mod_lt _ (by decide)) hw.tail
    rw [fetchSyls_on (hw.head hva) (sylEnds_inner hx hprev), enc_slot, hscan]
    rfl

/-- 02 R35: from its address on, the scan of a legal bundle reads its syllables. -/
theorem fetchSyls_of_legal {s : State} {p : Fin 6} {a : Word} {xs : List Syl} (hne : xs ≠ []) (hlegal : illegalCode (coreKind p) (encodeSyls xs) = none)
    (hw : WordsAt s p a.toNat (encodeSyls xs)) : fetchSyls p 8 s a.toNat none = (encodeSyls xs, none, s) := by
  obtain ⟨hord, htop⟩ := slots_of_legal hlegal
  rw [map_encodeSyls enc_slot] at hord htop
  obtain ⟨x, xs, rfl⟩ := List.exists_cons_of_ne_nil hne
  exact fetchSyls_encodeSyls hord (by simpa using htop) (by simp) (by omega) a.isLt hw

/-- 02 R47, R50: what decoding gives once the scan has read a legal bundle and the literal, where it ends in a `cu.limm`, is fetched. -/
theorem decodeAt_of_scan {s : State} {p : Fin 6} {a : Word} {ws : List Word} {lit : Option Word} (hscan : fetchSyls p 8 s a.toNat none = (ws, none, s))
    (hlegal : illegalCode (coreKind p) ws = none) (hlit : lit.isSome = endsInLimm (coreKind p) ws) (hw : WordsAt s p a.toNat (ws ++ lit.toList)) :
    decodeAt s p a = (.bundle { moves := ws.map moveOf, lit := lit, len := 4 * (ws ++ lit.toList).length }, s) := by
  cases lit with
  | none => simp [decodeAt, hscan, hlegal, ← hlit]
  | some v =>
    have hv : fetchWord s p ((a.toNat + 4 * ws.length) % 2 ^ 32) = (.word v, s) := hw ws.length v (by simp)
    simp only [decodeAt, hscan, hlegal, ← hlit, hv, Option.isSome_some, if_true]
    simp [Nat.mul_add]

/-! ### Words in a core's own TCM -/

/-- The word whose four bytes lie from an address on, lowest first. -/
theorem leWord_bytes_four (s : State) (a : Nat) : leWord (s.bytes a 4) =
    BitVec.ofNat 32 ((s.byte a).toNat + 0x100 * (s.byte (a + 1)).toNat + 0x10000 * (s.byte (a + 2)).toNat + 0x1000000 * (s.byte (a + 3)).toNat) := by
  have hbytes : s.bytes a 4 = [s.byte a, s.byte (a + 1), s.byte (a + 2), s.byte (a + 3)] := rfl
  rw [leWord, hbytes]
  simp only [leNat]
  congr 1
  omega

/-- 01 R21: a core reads a word of its own TCM, with no injected error armed. -/
theorem physRead_ownTcm {s : State} {p : Fin 6} {o : Nat} (hp : p.val < 5) (ho : o + 4 ≤ 0x20000) (hon : s.dom (coreDom p) = .on)
    (hinj : s.bit FLT.INJCTRL 16 = false) :
    physRead s (coreInit p) (0x11000000 + 0x100000 * p.val + o) 4 = (some (s.bytes (0x11000000 + 0x100000 * p.val + o) 4), s) := by
  have hfirst := own_err (s := s) false hp (show o < 0x20000 by omega) hon
  have hlast : physErr s (coreInit p) (0x11000000 + 0x100000 * p.val + o + 4 - 1) false = false :=
    own_err (s := s) (o := o + 3) false hp (by omega) hon
  have htarget := tcm_target hp (show o < 0x20000 by omega)
  have hrest := own_touch hp (show o < 0x20000 by omega) hon
  simp only [physRead, hfirst, hlast, htarget, injRead, injMeets_off hinj, hrest, own_view hp ho, Bool.or_self, Bool.false_eq_true, reduceCtorEq,
    if_false]

/-- 01 R21, 03 R54: a core fetches a word of its own TCM without a stall. -/
theorem fetchWord_ownTcm {s : State} {p : Fin 6} {o : Nat} (hp : p.val < 5) (ho : o + 4 ≤ 0x20000) (hon : s.dom (coreDom p) = .on)
    (hinj : s.bit FLT.INJCTRL 16 = false) :
    fetchWord s p (0x10000000 + o) = (.word (leWord (s.bytes (0x11000000 + 0x100000 * p.val + o) 4)), s) := by
  have hphys : isScene (0x10000000 + o) = false := by simp [isScene]; omega
  have htarget := tcm_target hp (show o < 0x20000 by omega)
  have herr := own_err (s := s) false hp (show o < 0x20000 by omega) hon
  have hnear : lineWaits s p (0x11000000 + 0x100000 * p.val + o) = false := by simp [lineWaits, htarget]
  rw [fetchWord, own_place hp rfl (by omega)]
  simp [fetchAt, hphys, htarget, herr, hnear, physRead_ownTcm hp ho hon hinj]

/-- Settles O18: the scan reads back the syllables, each word the move it spells; a word of the own TCM is its bytes. -/
theorem decodingReadsBackEveryBundle : Obligations.DecodingReadsBackEveryBundle := by
  unfold Obligations.DecodingReadsBackEveryBundle
  refine ⟨fun p a xs lit s hne hlegal hlit hw => ?_, fun p o s hp ho hal hon hinj => ?_⟩
  · have hwords : WordsAt s p a.toNat (encodeSyls xs ++ lit.toList) := hw
    rw [decodeAt_of_scan (fetchSyls_of_legal hne hlegal hwords.left) hlegal hlit hwords, map_encodeSyls enc_move]
  · rw [fetchWord_ownTcm hp (by omega) hon hinj, leWord_bytes_four]
    rfl

end Sys2Proof.EmordMoves
end

section
/-! PROOF. The function units of a core: the results that their operations start (03 R52 to R62), control transfers, loops and exceptions
(03 R71 to R82), accesses of the own TCM and of the write buffer (03 R63 to R68), and the queue operations and waits (03 R69 to R71). -/
namespace Sys2Proof.EmordUnits
open Sys2Proof.Machine Sys2Proof.Safety Sys2Proof.Reg

/-! ### Results in flight -/

/-- 03 R52: a result of one cycle is written at the end of its bundle. -/
theorem tickCore_lands {c : Core} {i : Nat} {r : Word} (h : c.fly = [{ left := 1, writes := [(i, r)] }]) :
    tickCore c = { c with fly := [], cycle := c.cycle + 1, res := c.res.setIfInBounds i r } := by
  simp [tickCore, h, landFlight]

/-- 03 R52: a longer result comes one bundle nearer. -/
theorem tickCore_nears {c : Core} {f : Flight} (h : c.fly = [f]) (hl : 1 < f.left) :
    tickCore c = { c with fly := [{ f with left := f.left - 1 }], cycle := c.cycle + 1 } := by
  simp [tickCore, h, hl, Nat.not_le.2 hl]

theorem tickCore_empty {c : Core} (h : c.fly = []) : tickCore c = { c with fly := [], cycle := c.cycle + 1 } := by
  simp [tickCore, h]

/-- 03 R39: a move to the port of code `code` of unit `u` triggers `op`. -/
abbrev Triggers (k : CoreKind) (u : FU) (code : Nat) (op : UnitOp) : Prop :=
  unitSlot k u ≤ topSlot k ∧ destOf k (unitSlot k u) (0x900 + code) = .inr (.trig op) ∧ code < 0xFF

section Plain
variable {i : Instr} {s : State} {p : Fin 6} {u : FU} {code : Nat} {g : Fin 8} {src : BitVec 13} {v : Word} {op : UnitOp}

/-- 03 R52, R55, R61: an operation of latency 1 writes its port at the end of its bundle. -/
theorem runsOn_latencyOne {k : Nat} {r : Word} (hr : CoreReady s p) (hs : SrcReads s p src v) (hg : GuardHolds s p g)
    (hd : Triggers (coreKind p) u code op)
    (he : exec i s = .next (runUnitOp s p u code g src none)) (hplain : plainOp op = true) (hprod : isProduct op = false)
    (hf : unitFlights (s.core p) op v [] [] 0 0 = [{ left := 1, writes := [(k, r)] }]) :
    RunsOn i s p { oneOn (s.core p) with res := (s.core p).res.setIfInBounds k r } := by
  obtain ⟨-, -, -, -, hfly, -⟩ := id hr
  refine runsOn_plain hr hs hg hd he hplain ?_
  rw [hprod, if_neg Bool.false_ne_true, tickCore_lands hf, ← hfly]

/-- 03 R52, R57, R59, R62: a longer operation that is no product is in flight from the end of its bundle on. -/
theorem runsOn_latencyMore {f : Flight} (hr : CoreReady s p) (hs : SrcReads s p src v) (hg : GuardHolds s p g)
    (hd : Triggers (coreKind p) u code op)
    (he : exec i s = .next (runUnitOp s p u code g src none)) (hplain : plainOp op = true) (hprod : isProduct op = false)
    (hf : unitFlights (s.core p) op v [] [] 0 0 = [f]) (hl : 1 < f.left) :
    RunsOn i s p { oneOn (s.core p) with fly := [{ f with left := f.left - 1 }] } := by
  refine runsOn_plain hr hs hg hd he hplain ?_
  rw [hprod, if_neg Bool.false_ne_true, tickCore_nears hf hl]

end Plain

/-! ### The ALU -/

/-- 03 R39, R55: the trigger of each operation of ALU0; its two multiplies belong to the small configuration. -/
theorem alu0_dest (k : CoreKind) (op : AluOp) (h : op = .mul ∨ op = .mulh → k = .small) : Triggers k .alu0 (aluCode op) (.alu 0 op) := by
  revert h
  cases k <;> cases op <;> decide

/-- 03 R39, R55: the trigger of each operation of ALU1, which the large configuration has. -/
theorem alu1_dest (op : AluOp) (h : op ≠ .mul ∧ op ≠ .mulh) : Triggers .large .alu1 (aluCode op) (.alu 1 op) := by
  revert h
  cases op <;> decide

theorem coreKind_large {p : Fin 6} (h : p.val < 4) : coreKind p = .large := by
  revert p; decide

theorem aluFlight_single {op : AluOp} (hop : op ≠ .mul ∧ op ≠ .mulh) (c : Core) (u : Nat) (t : Word) :
    aluFlight c u op t = { left := 1, writes := [(u, aluFn op (if u = 0 then c.opr[0] else c.opr[1]) t)] } := by
  obtain ⟨hmul, hmulh⟩ := hop
  cases op
  case mul => exact absurd rfl hmul
  case mulh => exact absurd rfl hmulh
  all_goals rfl

/-- 03 R55: a single-cycle operation of either ALU. -/
theorem runsOn_alu {i : Instr} {s : State} {p : Fin 6} {alu1 : Bool} {g : Fin 8} {src : BitVec 13} {v r : Word} (hr : CoreReady s p)
    (hs : SrcReads s p src v) (hg : GuardHolds s p g) (h1 : alu1 = true → p.val < 4) (op : AluOp) (hop : op ≠ .mul ∧ op ≠ .mulh)
    (he : exec i s = .next (runUnitOp s p (if alu1 then .alu1 else .alu0) (aluCode op) g src none))
    (hres : aluFn op (if alu1 then (s.core p).opr[1] else (s.core p).opr[0]) v = r) :
    RunsOn i s p { oneOn (s.core p) with res := (s.core p).res.setIfInBounds (if alu1 then 1 else 0) r } := by
  subst hres
  cases alu1 with
  | false =>
    exact runsOn_latencyOne hr hs hg (alu0_dest _ op (by simp [hop])) he rfl rfl (congrArg (fun f => [f]) (aluFlight_single hop (s.core p) 0 v))
  | true =>
    have hd := alu1_dest op hop
    rw [← coreKind_large (h1 rfl)] at hd
    exact runsOn_latencyOne hr hs hg hd he rfl rfl (congrArg (fun f => [f]) (aluFlight_single hop (s.core p) 1 v))

/-! 03 R55: the comparisons, and the choices that rest on them, in terms of the numbers compared. -/

theorem aluFn_eq (o t : Word) : aluFn .eq o t = if o = t then 1 else 0 := by simp [aluFn, truth]
theorem aluFn_ne (o t : Word) : aluFn .ne o t = if o = t then 0 else 1 := by simp [aluFn, truth]
theorem aluFn_lt (o t : Word) : aluFn .lt o t = if o.toInt < t.toInt then 1 else 0 := by simp [aluFn, truth, BitVec.slt]
theorem aluFn_ge (o t : Word) : aluFn .ge o t = if o.toInt < t.toInt then 0 else 1 := by
  simp only [aluFn, truth, BitVec.sle_eq_not_slt, BitVec.slt, Bool.not_eq_true', decide_eq_false_iff_not, ite_not]
theorem aluFn_ltu (o t : Word) : aluFn .ltu o t = if o.toNat < t.toNat then 1 else 0 := by simp [aluFn, truth, BitVec.ult]
theorem aluFn_geu (o t : Word) : aluFn .geu o t = if o.toNat < t.toNat then 0 else 1 := by
  simp only [aluFn, truth, BitVec.ule_eq_not_ult, BitVec.ult, Bool.not_eq_true', decide_eq_false_iff_not, ite_not]
theorem aluFn_min (o t : Word) : aluFn .min o t = if o.toInt < t.toInt then o else t := by simp [aluFn, BitVec.slt]
theorem aluFn_max (o t : Word) : aluFn .max o t = if o.toInt < t.toInt then t else o := by simp [aluFn, BitVec.slt]
theorem aluFn_minu (o t : Word) : aluFn .minu o t = if o.toNat < t.toNat then o else t := by simp [aluFn, BitVec.ult]
theorem aluFn_maxu (o t : Word) : aluFn .maxu o t = if o.toNat < t.toNat then t else o := by simp [aluFn, BitVec.ult]

/-- Settles O2: each operation by the law of its ALU, its result as `aluFn` gives it. -/
theorem aluOperationWritesItsResult : Obligations.AluOperationWritesItsResult := by
  unfold Obligations.AluOperationWritesItsResult
  intro p alu1 g src v s hr hs hg h1
  have hrun := fun {i : Instr} {r : Word} => runsOn_alu (i := i) (r := r) hr hs hg h1
  simp only [List.forall_mem_cons]
  exact ⟨hrun .add (by decide) rfl rfl, hrun .sub (by decide) rfl rfl, hrun .and (by decide) rfl rfl, hrun .or (by decide) rfl rfl,
    hrun .xor (by decide) rfl rfl, hrun .eq (by decide) rfl (aluFn_eq _ v), hrun .ne (by decide) rfl (aluFn_ne _ v),
    hrun .lt (by decide) rfl (aluFn_lt _ v), hrun .ge (by decide) rfl (aluFn_ge _ v), hrun .ltu (by decide) rfl (aluFn_ltu _ v),
    hrun .geu (by decide) rfl (aluFn_geu _ v), hrun .min (by decide) rfl (aluFn_min _ v), hrun .max (by decide) rfl (aluFn_max _ v),
    hrun .minu (by decide) rfl (aluFn_minu _ v), hrun .maxu (by decide) rfl (aluFn_maxu _ v),
    hrun .sxb (by decide) rfl (sext_eq 8 v (by decide) (by decide)), hrun .sxh (by decide) rfl (sext_eq 16 v (by decide) (by decide)),
    hrun .zxb (by decide) rfl (zext_eq8 v), hrun .zxh (by decide) rfl (zext_eq16 v), by simp⟩

/-! ### The shifter and the vector unit -/

/-- 03 R61: an operation of the shifter. -/
theorem runsOn_shf {i : Instr} {s : State} {p : Fin 6} {g : Fin 8} {src : BitVec 13} {t r : Word} (hr : CoreReady s p) (hs : SrcReads s p src t)
    (hg : GuardHolds s p g) (hp : p.val < 5) (op : ShfOp) (he : exec i s = .next (runUnitOp s p .shf (shfCode op) g src none))
    (hres : shfFn op (s.core p).opr[4] (s.core p).opr[5] t = r) :
    RunsOn i s p { oneOn (s.core p) with res := (s.core p).res.setIfInBounds 2 r } :=
  runsOn_latencyOne hr hs hg (shf_dest p hp op) he rfl rfl (hres ▸ rfl)

/-- Settles O3: each operation by the law of the shifter, its result as `shfFn` gives it. -/
theorem shiftOperationWritesItsResult : Obligations.ShiftOperationWritesItsResult := by
  unfold Obligations.ShiftOperationWritesItsResult
  intro p g src t s hr hs hg hp
  have hrun := fun {i : Instr} {r : Word} => runsOn_shf (i := i) (r := r) hr hs hg hp
  simp only [List.forall_mem_cons]
  exact ⟨hrun .sll rfl rfl, hrun .srl rfl rfl, hrun .sra rfl rfl, hrun .ror rfl rfl, hrun .ext rfl rfl, hrun .exts rfl rfl, hrun .ins rfl rfl,
    hrun .fsr rfl rfl, hrun .clz rfl rfl, hrun .pop rfl rfl, hrun .rev rfl rfl, hrun .bswap rfl rfl, by simp⟩

/-- 03 R62: an operation of the vector unit. -/
theorem runsOn_simd {i : Instr} {s : State} {p : Fin 6} {g : Fin 8} {src : BitVec 13} {t r : Word} (hr : CoreReady s p) (hs : SrcReads s p src t)
    (hg : GuardHolds s p g) (hp : p.val < 4) (op : SimdOp) (he : exec i s = .next (runUnitOp s p .simd (simdCode op) g src none))
    (hres : simdFn op (s.core p).opr[6] (s.core p).opr[7] t = r) :
    RunsOn i s p { oneOn (s.core p) with fly := [{ left := 1, writes := [(3, r)], uflags := simdFlags op (s.core p).opr[6] t }] } := by
  subst hres
  exact runsOn_latencyMore (op := .simd op) hr hs hg (simd_dest p hp op) he rfl rfl rfl (Nat.lt_add_one 1)

/-- Settles O4: each operation by the law of the vector unit, its result as `simdFn` gives it. -/
theorem simdOperationStartsItsResult : Obligations.SimdOperationStartsItsResult := by
  unfold Obligations.SimdOperationStartsItsResult
  intro p g src t s hr hs hg hp
  have hrun := fun {i : Instr} {r : Word} => runsOn_simd (i := i) (r := r) hr hs hg hp
  simp only [List.forall_mem_cons]
  exact ⟨hrun .addB rfl rfl, hrun .subB rfl rfl, hrun .addsB rfl rfl, hrun .addusB rfl rfl, hrun .avguB rfl rfl, hrun .absdB rfl rfl,
    hrun .sadB rfl rfl, hrun .cmpeqB rfl rfl, hrun .shufB rfl rfl, hrun .addH rfl rfl, hrun .subH rfl rfl, hrun .addsH rfl rfl,
    hrun .subsH rfl rfl, hrun .mulH rfl rfl, hrun .dotH rfl rfl, hrun .maxH rfl rfl, hrun .minH rfl rfl, by simp⟩

/-! ### The multiplier, the divider and the iterative multiply -/

/-- 03 R58: which of its two ports the next product takes. -/
theorem nextP1_iff (c : Core) : nextP1 c = true ↔ c.prodAge < 2 ∧ c.prodP1 = false := by
  simp [nextP1]

/-- 03 R57, R58: a product takes its port and is in flight for two more bundles. -/
theorem runsOn_product {i : Instr} {s : State} {p : Fin 6} {g : Fin 8} {src : BitVec 13} {t r : Word} (hr : CoreReady s p) (hs : SrcReads s p src t)
    (hg : GuardHolds s p g) (hp : p.val < 5) (op : MulOp) (hop : op = .mul ∨ op = .mulh ∨ op = .mulhu)
    (he : exec i s = .next (runUnitOp s p .mul (mulCode op) g src none)) (hres : mulProduct op (s.core p).opr[2] t = r) :
    RunsOn i s p { s.core p with
      pc := (s.core p).pc + 4, cycle := (s.core p).cycle + 1, prodAge := 0, prodP1 := decide ((s.core p).prodAge < 2) && !(s.core p).prodP1,
      fly := [{ left := 2, writes := [(if (s.core p).prodAge < 2 ∧ (s.core p).prodP1 = false then 8 else 7, r)] }] } := by
  have hf : unitFlights (s.core p) (.mul op) t [] [] 0 0 = [{ left := 3, writes := [(if nextP1 (s.core p) then 8 else 7, r)] }] := by
    subst hres
    rcases hop with rfl | rfl | rfl <;> rfl
  have hprod : isProduct (.mul op) = true := by rcases hop with rfl | rfl | rfl <;> rfl
  refine runsOn_plain hr hs hg (mul_dest p hp op) he rfl ?_
  rw [hprod, if_pos rfl, tickCore_nears hf (show 1 < 3 by decide)]
  simp only [nextP1_iff]
  rfl

/-- 03 R57: an accumulation puts the two words of the new accumulator in flight. -/
theorem runsOn_acc {i : Instr} {s : State} {p : Fin 6} {g : Fin 8} {src : BitVec 13} {t : Word} (hr : CoreReady s p) (hs : SrcReads s p src t)
    (hg : GuardHolds s p g) (hp : p.val < 5) (op : MulOp) (hop : op = .mac ∨ op = .macu ∨ op = .accw)
    (he : exec i s = .next (runUnitOp s p .mul (mulCode op) g src none)) {acc acc' : BitVec 64}
    (hacc : acc = BitVec.ofNat 64 ((s.core p).res[9].toNat + 2 ^ 32 * (s.core p).res[10].toNat)) (hres : accResult op acc (s.core p).opr[2] t = acc') :
    RunsOn i s p { oneOn (s.core p) with
      fly := [{ left := 2, writes := [(9, BitVec.ofNat 32 acc'.toNat), (10, BitVec.ofNat 32 (acc'.toNat / 2 ^ 32))],
                uflags := accFlags op acc (s.core p).opr[2] t }] } := by
  obtain ⟨-, -, -, -, hfly, -⟩ := id hr
  subst hres
  rw [← accNow_idle hfly] at hacc
  subst hacc
  rcases hop with rfl | rfl | rfl
  all_goals exact runsOn_latencyMore hr hs hg (mul_dest p hp _) he rfl rfl rfl (show 1 < 3 by decide)

/-- Settles O5: the products by their law, the accumulations by theirs. -/
theorem mulOperationStartsItsResult : Obligations.MulOperationStartsItsResult := by
  unfold Obligations.MulOperationStartsItsResult
  intro p g src t s hr hs hg hp
  have hproduct := fun {i : Instr} {r : Word} => runsOn_product (i := i) (r := r) hr hs hg hp
  have hacc := fun {i : Instr} {acc' : BitVec 64} op hop he => runsOn_acc (i := i) (acc' := acc') hr hs hg hp op hop he rfl
  simp only [List.forall_mem_cons]
  exact ⟨⟨hproduct .mul (by decide) rfl rfl, hproduct .mulh (by decide) rfl rfl, hproduct .mulhu (by decide) rfl rfl, by simp⟩,
    hacc .mac (by decide) rfl rfl, hacc .macu (by decide) rfl rfl, hacc .accw (by decide) rfl rfl, by simp⟩

/-- 03 R59, R60: a division is in flight for 17 more bundles, with DZ for a zero divisor. -/
theorem runsOn_div {i : Instr} {s : State} {p : Fin 6} {g : Fin 8} {src : BitVec 13} {t r : Word} (hr : CoreReady s p) (hs : SrcReads s p src t)
    (hg : GuardHolds s p g) (hp : p.val < 5) (op : MulOp) (hop : op = .div ∨ op = .divu ∨ op = .rem ∨ op = .remu)
    (he : exec i s = .next (runUnitOp s p .mul (mulCode op) g src none)) (hres : divResult op (s.core p).opr[2] t = r) :
    RunsOn i s p { oneOn (s.core p) with
      fly := [{ left := 17, kind := .divide, writes := [(7, r)], uflags := if t = 0 then 1 else 0 }] } := by
  subst hres
  rcases hop with rfl | rfl | rfl | rfl
  all_goals exact runsOn_latencyMore hr hs hg (mul_dest p hp _) he rfl rfl rfl (show 1 < 18 by decide)

/-- 03 R56: a multiply of the small configuration's ALU is in flight for seven more bundles. -/
theorem runsOn_iterative {i : Instr} {s : State} {p : Fin 6} {g : Fin 8} {src : BitVec 13} {t r : Word} (hr : CoreReady s p) (hs : SrcReads s p src t)
    (hg : GuardHolds s p g) (hp : p.val = 5) (op : AluOp) (hop : op = .mul ∨ op = .mulh)
    (he : exec i s = .next (runUnitOp s p .alu0 (aluCode op) g src none)) (hres : aluFn op (s.core p).opr[0] t = r) :
    RunsOn i s p { oneOn (s.core p) with fly := [{ left := 7, kind := .iterative, writes := [(0, r)] }] } := by
  have hsmall : coreKind p = .small := by rw [show p = 5 from Fin.ext hp]; rfl
  subst hres
  rcases hop with rfl | rfl
  all_goals exact runsOn_latencyMore hr hs hg (alu0_dest _ _ (fun _ => hsmall)) he rfl rfl rfl (show 1 < 8 by decide)

/-- Settles O6: the divisions by their law, the iterative multiplies by theirs. -/
theorem longOperationStartsItsResult : Obligations.LongOperationStartsItsResult := by
  unfold Obligations.LongOperationStartsItsResult
  intro p g src t s hr hs hg
  simp only [List.forall_mem_cons]
  refine ⟨fun hp => ?_, fun hp => ?_⟩
  · have hrun := fun {i : Instr} {r : Word} => runsOn_div (i := i) (r := r) hr hs hg hp
    exact ⟨hrun .div (by decide) rfl rfl, hrun .divu (by decide) rfl rfl, hrun .rem (by decide) rfl rfl, hrun .remu (by decide) rfl rfl, by simp⟩
  · have hrun := fun {i : Instr} {r : Word} => runsOn_iterative (i := i) (r := r) hr hs hg hp
    exact ⟨hrun .mul (by decide) rfl rfl, hrun .mulh (by decide) rfl rfl, by simp⟩

/-! ### Control transfers -/

/-- 03 R72, R79: the transfer that a CU operation of a bundle at `pc` starts. -/
def transferOf (op : CuOp) (pc t : Word) : Xfer :=
  match op with
  | .br | .call => { target := pc + t, left := 2 }
  | .eret => { target := 0, left := 2, eret := true }
  | _ => { target := t, left := 2 }

/-- The CU operations that start a transfer and link nothing. -/
def IsJump (op : CuOp) : Prop := op = .jmp ∨ op = .br ∨ op = .ret ∨ op = .eret

/-- The CU operations that start a transfer and link the address behind it. -/
def IsCall (op : CuOp) : Prop := op = .call ∨ op = .callr

theorem cuEffect_transfer {op : CuOp} (h : IsJump op ∨ IsCall op) (c : Core) (pc next t : Word) (n : Nat) :
    cuEffect c op pc next t n = { c with xfer := some (transferOf op pc t) } := by
  rcases h with (rfl | rfl | rfl | rfl) | (rfl | rfl) <;> rfl

theorem ne_of_transfer {op : CuOp} (h : IsJump op ∨ IsCall op) : op ≠ .wfe ∧ op ≠ .trap ∧ op ≠ .limm := by
  rcases h with (rfl | rfl | rfl | rfl) | (rfl | rfl) <;> decide

section Transfer
variable {s : State} {p : Fin 6} {g : Fin 8} {src : BitVec 13} {t : Word} {i : Instr} {op : CuOp}

/-- 03 R72, R79: a jump waits for its delay bundles. -/
theorem exec_jump (hr : CoreReady s p) (hs : SrcReads s p src t) (hg : GuardHolds s p g) (hop : IsJump op)
    (hpriv : op = .eret → pstatBit (s.core p) PSTAT.priv = true) (he : exec i s = .next (runUnitOp s p .cu (cuCode op) g src none)) :
    exec i s = .next (countBundle (s.upCore p (fun _ =>
      { oneOn (s.core p) with xfer := some (transferOf op (s.core p).pc t), res := (s.core p).res })) p) := by
  obtain ⟨hwfe, htrap, hlimm⟩ := ne_of_transfer (.inl hop)
  obtain ⟨-, -, -, -, hfly, -, -, hpc, -⟩ := id hr
  refine exec_cu hr hs hg hwfe htrap hpriv (absurd · hlimm) (hl_none ?_) he _ ?_ (pc4 hpc 4 rfl (by decide)) rfl
  · rcases hop with rfl | rfl | rfl | rfl <;> decide
  · have hnone : unitFlights (s.core p) (.cu op) t [] [] ((s.core p).pc + BitVec.ofNat 32 4 + BitVec.ofNat 32 0) 0 = [] := by
      rcases hop with rfl | rfl | rfl | rfl <;> rfl
    rw [cuEffect_transfer (.inl hop), tickCore_empty hnone, ← hfly]
    rfl

/-- 03 R72: a call waits for its delay bundles and links the address behind them. -/
theorem exec_call {b1 b2 : Bundle} (hr : CoreReady s p) (hs : SrcReads s p src t) (hg : GuardHolds s p g) (hop : IsCall op)
    (h1 : decodeAt s p ((s.core p).pc + 4) = (.bundle b1, s)) (h2 : decodeAt s p ((s.core p).pc + 4 + BitVec.ofNat 32 b1.len) = (.bundle b2, s))
    (he : exec i s = .next (runUnitOp s p .cu (cuCode op) g src none)) :
    exec i s = .next (countBundle (s.upCore p (fun _ => { oneOn (s.core p) with
      xfer := some (transferOf op (s.core p).pc t)
      res := (s.core p).res.setIfInBounds 5 ((s.core p).pc + 4 + BitVec.ofNat 32 (b1.len + b2.len)) })) p) := by
  obtain ⟨hwfe, htrap, hlimm⟩ := ne_of_transfer (.inr hop)
  obtain ⟨-, -, -, -, hfly, -, -, hpc, -⟩ := id hr
  refine exec_cu hr hs hg hwfe htrap ?_ (absurd · hlimm) (hl_call hop h1 h2) he _ ?_ (pc4 hpc 4 rfl (by decide)) rfl
  · rcases hop with rfl | rfl <;> simp
  · have hlink : unitFlights (s.core p) (.cu op) t [] [] ((s.core p).pc + BitVec.ofNat 32 4 + BitVec.ofNat 32 (b1.len + b2.len)) 0 =
        [{ left := 1, writes := [(5, (s.core p).pc + 4 + BitVec.ofNat 32 (b1.len + b2.len))] }] := by
      rcases hop with rfl | rfl <;> rfl
    rw [cuEffect_transfer (.inr hop), tickCore_lands hlink, ← hfly]
    rfl

theorem leavesInTwo_mono {q q' : State → Prop} (h : LeavesInTwo i s p q) (hq : ∀ u, q u → q' u) : LeavesInTwo i s p q' := by
  obtain ⟨s1, he, s2, he1, s3, he2, hs3⟩ := h
  exact ⟨s1, he, s2, he1, s3, he2, hq s3 hs3⟩

/-- 02 R36, 03 R72: behind two bundles of plain moves, a core stands at the target of its jump or call. -/
theorem leavesInTwo_target {x : Xfer} {r : Vector Word 13} {b1 b2 : Bundle} (hr : CoreReady s p)
    (he : exec i s = .next (countBundle (s.upCore p (fun _ => { oneOn (s.core p) with xfer := some x, res := r })) p))
    (hleft : x.left = 2) (heret : x.eret = false) (hal : x.target.toNat % 4 = 0)
    (h1 : BundleAt s p ((s.core p).pc + 4) b1) (h2 : BundleAt s p ((s.core p).pc + 4 + BitVec.ofNat 32 b1.len) b2)
    (m1 : b1.moves.all (plainMove (coreKind p)) = true) (m2 : b2.moves.all (plainMove (coreKind p)) = true) (l1 : b1.len % 4 = 0) :
    LeavesInTwo i s p (fun u => (u.core p).pc = x.target ∧ (u.core p).xfer = none ∧ (u.core p).res = r ∧ (u.core p).pstat = (s.core p).pstat ∧
      (∀ q, q ≠ p → u.core q = s.core q) ∧ u.regs = s.regs ∧ u.mem = s.mem) := by
  have hstep : ∀ d : Core, xferStep d { x with left := 1 } = { d with pc := x.target, xfer := none } := by simp [xferStep, heret]
  refine leavesInTwo_mono (delayed hr he rfl hleft h1 h2 m1 m2 l1 (fun d _ => by rw [hstep]; exact ⟨hal, rfl⟩)) ?_
  rintro u ⟨⟨d, hd, hu⟩, hrest⟩
  rw [hu, hstep, hd]
  exact ⟨rfl, rfl, rfl, rfl, hrest⟩

theorem curFrame_congr {c d : Core} (h : d.pstat = c.pstat) : curFrame d = curFrame c := by
  unfold curFrame actTop actLevels pstatBit
  rw [h]

/-- 03 R79: the return from a frame whose entry met no transfer. -/
theorem leaveFrame_facts {c : Core} {f : Frame} (hf : c.frames[curFrame c] = f) (hdly : bitsOf f.ecause 17 16 = 0) :
    (leaveFrame c).pc = f.epc ∧ (leaveFrame c).xfer = none ∧ (leaveFrame c).g = f.grd ∧ (leaveFrame c).pstat = f.pstat ∧
    (leaveFrame c).run = c.run ∧ ∀ j : Fin 6, (leaveFrame c).res[7 + j.val] = f.ports[j] := by
  subst hf
  refine ⟨rfl, if_pos hdly, rfl, rfl, rfl, fun j => ?_⟩
  simp [leaveFrame, List.getD_eq_getElem?_getD]

/-- 03 R79: an `eret` at its end restores the current frame of a core with these frames and this `PSTAT`. -/
theorem xferStep_eret {c d : Core} {f : Frame} (hframes : d.frames = c.frames) (hpstat : d.pstat = c.pstat) (hf : c.frames[curFrame c] = f)
    (hdly : bitsOf f.ecause 17 16 = 0) :
    let u := xferStep d { target := 0, left := 1, eret := true }
    u.pc = f.epc ∧ u.xfer = none ∧ u.g = f.grd ∧ u.pstat = f.pstat ∧ u.run = d.run ∧ ∀ j : Fin 6, u.res[7 + j.val] = f.ports[j] := by
  have hcur : curFrame { d with xfer := none } = curFrame c := curFrame_congr hpstat
  refine leaveFrame_facts (c := { d with xfer := none }) ?_ hdly
  rw [← hf]
  simp only [hcur]
  simp only [hframes]

/-- 03 R79: behind two bundles of plain moves, `eret` has restored the current frame. -/
theorem leavesInTwo_eret {r : Vector Word 13} {b1 b2 : Bundle} (hr : CoreReady s p)
    (he : exec i s = .next (countBundle (s.upCore p (fun _ => { oneOn (s.core p) with xfer := some { target := 0, left := 2, eret := true }, res := r })) p))
    (h1 : BundleAt s p ((s.core p).pc + 4) b1) (h2 : BundleAt s p ((s.core p).pc + 4 + BitVec.ofNat 32 b1.len) b2)
    (m1 : b1.moves.all (plainMove (coreKind p)) = true) (m2 : b2.moves.all (plainMove (coreKind p)) = true) (l1 : b1.len % 4 = 0)
    {f : Frame} (hf : (s.core p).frames[curFrame (s.core p)] = f) (hal : f.epc.toNat % 4 = 0) (hdly : bitsOf f.ecause 17 16 = 0) :
    LeavesInTwo i s p (fun u => (u.core p).pc = f.epc ∧ (u.core p).xfer = none ∧ (u.core p).g = f.grd ∧ (u.core p).pstat = f.pstat ∧
      (∀ j : Fin 6, (u.core p).res[7 + j.val] = f.ports[j]) ∧ (∀ q, q ≠ p → u.core q = s.core q) ∧ u.regs = s.regs ∧ u.mem = s.mem) := by
  refine leavesInTwo_mono (delayed hr he rfl rfl h1 h2 m1 m2 l1 (fun d hd => ?_)) ?_
  · obtain ⟨hpc, -, -, -, hrun, -⟩ := xferStep_eret (d := d) (by rw [hd]) (by rw [hd]) hf hdly
    exact ⟨hpc ▸ hal, hrun⟩
  · rintro u ⟨⟨d, hd, hu⟩, hrest⟩
    obtain ⟨hpc, hxfer, hg, hpstat, -, hports⟩ := xferStep_eret (d := d) (by rw [hd]) (by rw [hd]) hf hdly
    rw [hu]
    exact ⟨hpc, hxfer, hg, hpstat, hports, hrest⟩

end Transfer

/-- A bundle that lies at an address is what a core decodes there. -/
theorem decodeAt_of_bundleAt {s : State} {p : Fin 6} {a : Word} {b : Bundle} (h : BundleAt s p a b) : decodeAt s p a = (.bundle b, s) :=
  h s.cores s.pair

/-- Settles O8: each transfer waits for its delay bundles, which bring it about. -/
theorem transferWaitsForItsDelayBundles : Obligations.TransferWaitsForItsDelayBundles := by
  unfold Obligations.TransferWaitsForItsDelayBundles
  intro p g src t s hr hs hg
  have hjump := fun {i : Instr} {op : CuOp} (hop : IsJump op) (hne : op ≠ .eret) => exec_jump (i := i) hr hs hg hop (absurd · hne)
  have hcall := fun {i : Instr} {op : CuOp} {b1 b2 : Bundle} (hop : IsCall op) => exec_call (i := i) (b1 := b1) (b2 := b2) hr hs hg hop
  have jmp : IsJump .jmp := .inl rfl
  have br : IsJump .br := .inr (.inl rfl)
  have ret : IsJump .ret := .inr (.inr (.inl rfl))
  have eret : IsJump .eret := .inr (.inr (.inr rfl))
  simp only [List.forall_mem_cons]
  refine ⟨⟨runsOn_unit (hjump jmp (by decide) rfl) rfl, runsOn_unit (hjump ret (by decide) rfl) rfl, runsOn_unit (hjump br (by decide) rfl) rfl, by simp⟩,
    fun b1 b2 h1 h2 => ⟨runsOn_unit (hcall (.inl rfl) h1 h2 rfl) rfl, runsOn_unit (hcall (.inr rfl) h1 h2 rfl) rfl, by simp⟩,
    fun hpriv => runsOn_unit (exec_jump hr hs hg eret (fun _ => hpriv) rfl) rfl, fun b1 b2 h1 h2 m1 m2 l1 => ?_⟩
  have htarget := fun {i : Instr} {x : Xfer} {r : Vector Word 13} he hleft heret hal =>
    leavesInTwo_target (i := i) (x := x) (r := r) hr he hleft heret hal h1 h2 m1 m2 l1
  have d1 := decodeAt_of_bundleAt h1
  have d2 := decodeAt_of_bundleAt h2
  exact ⟨⟨htarget (hjump jmp (by decide) rfl) rfl rfl, htarget (hjump ret (by decide) rfl) rfl rfl, htarget (hjump br (by decide) rfl) rfl rfl, by simp⟩,
    ⟨htarget (hcall (.inl rfl) d1 d2 rfl) rfl rfl, htarget (hcall (.inr rfl) d1 d2 rfl) rfl rfl, by simp⟩,
    fun hpriv hal hdly => leavesInTwo_eret hr (exec_jump hr hs hg eret (fun _ => hpriv) rfl) h1 h2 m1 m2 l1 rfl hal hdly⟩

/-! ### Loops and long immediates -/

/-- 03 R73: a loop that is armed. -/
theorem cuEffect_loop_armed {c : Core} (h : c.opr[9] ≠ 0) (pc next t : Word) (n : Nat) :
    cuEffect c .loop pc next t n = { c with lcount := c.opr[9], lstart := next, lend := pc + t, pstat := withBits c.pstat 3 3 1 } := by
  have hne : (c.opr[9] != 0) = true := by simpa using h
  simp only [cuEffect, pstatSet, hne, if_neg h, natBit, if_true]

/-- 03 R73: a loop whose body is skipped. -/
theorem cuEffect_loop_skipped {c : Core} (h : c.opr[9] = 0) (pc next t : Word) (n : Nat) :
    cuEffect c .loop pc next t n =
      { c with lcount := 0, lstart := next, lend := pc + t, pc := pc + t + BitVec.ofNat 32 n, pstat := withBits c.pstat 3 3 0 } := by
  simp [cuEffect, pstatSet, h, natBit]

/-- 03 R73: a loop looks ahead only where it skips its body. -/
theorem lookAhead_loop {s : State} {p : Fin 6} {m : Move} {b : Bundle} (h : trigOf (coreKind p) m = some (.cu .loop)) :
    lookAhead s p b [m] =
      if (s.core p).opr[9] = 0 then aheadLen s p ((s.core p).pc + srcVal s p (cycleWord (s.core p)) m.src) else (.len 0, s) := by
  have hcu : cuOf (coreKind p) [m] = some (.loop, m.src) := by simp only [cuOf, List.findSome?_cons, h]
  simp only [lookAhead, hcu]

/-- Settles O9: the loop by its two effects, the long immediate by its result of latency 1. -/
theorem loopArmsAndLimmWrites : Obligations.LoopArmsAndLimmWrites := by
  unfold Obligations.LoopArmsAndLimmWrites
  intro p g s hr hg
  obtain ⟨-, -, -, -, hfly, -, -, hpc, -⟩ := id hr
  refine ⟨fun src t hs ho => ?_, fun src t b hs ho ht hb hlen => ?_, fun lit => ?_⟩
  · refine runUnitOp_cu (op := .loop) (lit := none) (n := 0) hr hs hg (by decide) (by decide) (by simp) (by simp) (fun m _ hm => ?_) rfl _ ?_
      (pc4 hpc 4 rfl (by decide)) rfl
    · rw [lookAhead_loop hm, if_neg ho]
    · rw [tickCore_empty rfl, cuEffect_loop_armed (by exact ho), ← hfly]
      rfl
  · refine runUnitOp_cu (op := .loop) (lit := none) (n := b.len) hr hs hg (by decide) (by decide) (by simp) (by simp) (fun m hsrc hm => ?_) rfl _ ?_ ?_ rfl
    · rw [lookAhead_loop hm, if_pos ho, hsrc, ← hs.2, aheadLen, hb]
    · rw [tickCore_empty rfl, cuEffect_loop_skipped (by exact ho), ← hfly]
      rfl
    · show ((s.core p).pc + t + BitVec.ofNat 32 b.len).toNat % 4 = 0
      simp only [BitVec.toNat_add, BitVec.toNat_ofNat]
      omega
  · have hs : SrcReads s p 0x1000 0 := ⟨by simp [srcOf, testB], rfl⟩
    refine runUnitOp_cu (op := .limm) (lit := some lit) (n := 0) hr hs hg (by decide) (by decide) (by simp) (fun _ => rfl) (hl_none (by decide)) rfl _ ?_
      (pc4 hpc 8 rfl (by decide)) rfl
    rw [tickCore_lands rfl, ← hfly]
    rfl

/-! ### Exceptions, interrupts and events -/

theorem drainFixed_empty {c : Core} (h : c.fly = []) : drainFixed c = c := by
  have hleft : flyLeft c (fun f => f.kind == .fixed) = 0 := by simp [flyLeft, h]
  rw [drainFixed, hleft]
  simp [passCycles, tickCores]

/-- 03 R82: the exception of a core with no result in flight and no transfer waiting. -/
theorem exceptionEntry_idle {c : Core} (hfly : c.fly = []) (hxfer : c.xfer = none) (code detail : Nat) (eaddr epc : Word) :
    exceptionEntry c code detail eaddr epc = { c with
      frames := c.frames.set 4 { c.frames[4] with
        epc := epc, grd := c.g, pstat := c.pstat, ports := Vector.ofFn (fun i : Fin 6 => c.res[7 + i.val])
        ecause := BitVec.ofNat 32 (code + 256 * detail), eaddr := eaddr, ebt := 0 }
      pstat := (c.pstat &&& 0xF0) ||| 0x06, resv := none, pc := c.ivbase + 0x800, stall := none, got := [], flines := [] } := by
  simp [exceptionEntry, drainFixed_empty hfly, hfly, hxfer, saveFrame, causeWord]

/-- 04 R89, 20 R495: the end of a bundle adds nothing where the logs have room and the debug port halts no core. -/
theorem bundleClose_quiet {s : State} {p : Fin 6} (hlogs : logsFill s.pair = false) (hun : Unwatched s) :
    dbgApply (s.when (p.val == 4 && logsFill s.pair && !s.pair.replay && (s.core 4).run == .running) pairCheckpoint) = s := by
  simp only [hlogs, Bool.and_false, Bool.false_and, State.when, Bool.false_eq_true, if_false, dbgApply_unwatched hun]

/-- A command that ends with a change of one core, on top of a state in which nothing else changed. -/
theorem runsOn_upCore {i : Instr} {s s1 : State} {p : Fin 6} {f : Core → Core} {c : Core} (he : exec i s = .next (s1.upCore p f))
    (hc : f (s1.core p) = c) (hothers : ∀ q, q ≠ p → s1.core q = s.core q) (hregs : s1.regs = s.regs) (hmem : s1.mem = s.mem) : RunsOn i s p c := by
  refine ⟨_, he, (core_upCore_self s1 p f).trans hc, fun q hq => ?_, hregs, hmem⟩
  rw [core_upCore, if_neg hq, hothers q hq]

/-- 03 R80: behind its bundle, a `trap` raises the exception of cause 6. -/
theorem afterBundle_trap {s : State} {p : Fin 6} {t : Word} (hal : (s.core p).pc.toNat % 4 = 0) (hexc : pstatBit (s.core p) PSTAT.exc = false) :
    afterBundle s p (some (.trap, t)) = s.upCore p (fun c => exceptionEntry c 6 (t.toNat % 256) 0 c.pc) := by
  simp [afterBundle, hal, raiseException, hexc, State.upCore]

/-- 03 R80: a `trap` completes its bundle, and then its exception enters. -/
theorem exec_trap {s : State} {p : Fin 6} {g : Fin 8} {src : BitVec 13} {t : Word} (hr : CoreReady s p) (hs : SrcReads s p src t)
    (hg : GuardHolds s p g) (hexc : pstatBit (s.core p) PSTAT.exc = false) :
    exec (.cuTrap p g src) s = .next ((countBundle (s.upCore p oneOn) p).upCore p (fun c => exceptionEntry c 6 (t.toNat % 256) 0 c.pc)) := by
  obtain ⟨-, -, -, hxfer, hfly, -, -, hpc, -, hlogs, -, -, hun⟩ := id hr
  have hcore : (countBundle (s.upCore p oneOn) p).core p = oneOn (s.core p) := by rw [countBundle_core, core_upCore_self]
  have hafter := afterBundle_trap (s := countBundle (s.upCore p oneOn) p) (t := t) (by rw [hcore]; exact pc4 hpc 4 rfl (by decide))
    (by rw [hcore]; exact hexc)
  have hrun : exec (.cuTrap p g src) s = _ := run_cu_special (op := .trap) hr hs hg (.inr rfl) rfl
  simp only [reduceCtorEq, if_false] at hrun
  rw [hrun, hafter, bundleClose_quiet]
  · exact (countBundle_logs _ p).trans hlogs
  · refine unwatched_of hun (countBundle_facts _ p).2.1 (fun q => ?_)
    rw [core_upCore]
    split
    · next hq => rw [hq, hcore, exceptionEntry_idle (by exact hfly) (by exact hxfer)]
    · next hq => rw [countBundle_core, core_upCore, if_neg hq]

/-- Settles O10: the exception of a `trap` enters on the core that its bundle left. -/
theorem trapTakesTheSoftwareException : Obligations.TrapTakesTheSoftwareException := by
  unfold Obligations.TrapTakesTheSoftwareException
  intro p g src t s hr hs hg hexc
  obtain ⟨-, hstall, -, hxfer, hfly, hgot, hflines, -⟩ := id hr
  obtain ⟨-, hregs, hmem⟩ := countBundle_facts (s.upCore p oneOn) p
  refine runsOn_upCore (exec_trap hr hs hg hexc) ?_ (fun q hq => ?_) hregs hmem
  · rw [countBundle_core, core_upCore_self, exceptionEntry_idle (by exact hfly) (by exact hxfer), ← hstall, ← hgot, ← hflines]
  · rw [countBundle_core, core_upCore, if_neg hq]

/-- Settles O15: the latch ends the wait at its trigger, and its bundle completes. -/
theorem waitEndsWithTheEventLatch : Obligations.WaitEndsWithTheEventLatch := by
  unfold Obligations.WaitEndsWithTheEventLatch
  intro g src t s hr hs hg hlatch
  obtain ⟨-, -, -, -, -, -, -, hpc, -, hlogs, -, -, hun⟩ := id hr
  obtain ⟨s1, hs1⟩ : ∃ s1, s1 = countBundle (s.upCore 5 (fun c => { oneOn c with latch := false })) 5 := ⟨_, rfl⟩
  have hcore : s1.core 5 = { oneOn (s.core 5) with latch := false } := by rw [hs1, countBundle_core, core_upCore_self]
  have hafter : afterBundle s1 5 (some (.wfe, t)) = s1 := by
    have hal : (s1.core 5).pc.toNat % 4 = 0 := by rw [hcore]; exact pc4 hpc 4 rfl (by decide)
    simp [afterBundle, hal]
  have hrun : exec (.cuWfe 5 g src) s = _ := run_cu_special (op := .wfe) hr hs hg (.inl ⟨rfl, rfl, hlatch⟩) rfl
  simp only [if_true, ← hs1] at hrun
  rw [hafter, bundleClose_quiet] at hrun
  · exact runsOn_unit (hs1 ▸ hrun) rfl
  · rw [hs1]; exact (countBundle_logs _ 5).trans hlogs
  · refine unwatched_of hun (hs1 ▸ (countBundle_facts _ 5).2.1) (fun q => ?_)
    rw [hs1, countBundle_core, core_upCore]
    split
    · next hq => rw [hq]
    · rfl

theorem logInput_core (s : State) (p q : Fin 6) (e : InEntry) : (logInput s p e).core q = s.core q := by
  unfold State.core
  rw [logInput_facts.1]

/-- 03 R75, R76: the selected line enters where an entry is open; the link pair records it. -/
theorem exec_interruptEntry {s : State} {p : Fin 6} {n : Nat} (hline : selectLine s p = some n) (hopen : entryOpen s p = true) :
    exec (.interruptEntry p) s = .next ((logInput s p (.irq s.pair.bundles n)).upCore p (fun c => interruptEntry c n)) := by
  show execInterruptEntry p s = _
  simp only [execInterruptEntry, hline, hopen, if_true]

/-- 03 R80: the oldest error response raises the imprecise bus error; the link pair records it. -/
theorem exec_impreciseBusError {s : State} {p : Fin 6} {a : Word} {rest : List Word} (hrun : canRun s p = true) (hheld : (s.core p).held = a :: rest)
    (hxfer : (s.core p).xfer = none) (hstall : (s.core p).stall = none) (hexc : pstatBit (s.core p) PSTAT.exc = false) (hlive : inReplay s p = false) :
    exec (.impreciseBusError p) s = .next ((logInput (s.upCore p (fun c => { c with held := rest })) p (.imprecise s.pair.bundles a)).upCore p
      (fun c => exceptionEntry c 2 4 a c.pc)) := by
  have hdue : impreciseDue (s.core p) = true := by simp [impreciseDue, hheld, hxfer, hstall, hexc]
  have hclear : pstatBit ((logInput (s.upCore p (fun c => { c with held := rest })) p (.imprecise s.pair.bundles a)).core p) PSTAT.exc = false := by
    rw [logInput_core, core_upCore_self]; exact hexc
  show execImpreciseBusError p s = _
  simp only [execImpreciseBusError, hrun, hdue, hlive, Bool.not_false, Bool.and_self, State.when, if_true, takeImprecise, hheld]
  rw [raiseException, if_neg (by exact Bool.eq_false_iff.mp hclear)]
  rfl

/-- Settles O17: the entry of the line, and that of the imprecise error, on top of what the link pair records. -/
theorem interruptsAndBusErrorsAreTaken : Obligations.InterruptsAndBusErrorsAreTaken := by
  unfold Obligations.InterruptsAndBusErrorsAreTaken
  refine ⟨fun p n s hline hopen => ?_, fun p a rest s hrun hheld hxfer hstall hfly hexc hlive => ?_⟩
  · obtain ⟨-, hregs, hmem, -⟩ := logInput_facts (s := s) (p := p) (e := .irq s.pair.bundles n)
    refine runsOn_upCore (exec_interruptEntry hline hopen) ?_ (fun q _ => logInput_core s p q _) hregs hmem
    rw [logInput_core]
    rfl
  · obtain ⟨-, hregs, hmem, -⟩ := logInput_facts (s := s.upCore p (fun c => { c with held := rest })) (p := p) (e := .imprecise s.pair.bundles a)
    refine runsOn_upCore (exec_impreciseBusError hrun hheld hxfer hstall hexc hlive) ?_ (fun q hq => ?_) hregs hmem
    · rw [logInput_core, core_upCore_self, exceptionEntry_idle (by exact hfly) (by exact hxfer), ← hstall]
      rfl
    · rw [logInput_core, core_upCore, if_neg hq]

/-! ### Accesses of the own TCM, and fences -/

/-- The address of a program in its own TCM. -/
theorem ownTcm_toNat {o : Nat} (ho : o < 0x20000) : (BitVec.ofNat 32 (0x10000000 + o)).toNat = 0x10000000 + o := by
  rw [BitVec.toNat_ofNat]
  omega

theorem ownTcm_reservable {p : Fin 6} (hp : p.val < 5) {o : Nat} (ho : o < 0x20000) : reservable (0x11000000 + 0x100000 * p.val + o) = true := by
  simp [reservable, tcm_target hp ho]

theorem lsuSize_cases (op : LsuOp) : lsuSize op = 1 ∨ lsuSize op = 2 ∨ lsuSize op = 4 := by
  cases op <;> decide

/-- An access is aligned in the own TCM exactly where its offset is. -/
theorem ownTcm_aligned {op : LsuOp} {o : Nat} (ho : o < 0x20000) (h : o % lsuSize op = 0) :
    (BitVec.ofNat 32 (0x10000000 + o)).toNat % lsuSize op = 0 := by
  rw [ownTcm_toNat ho]
  rcases lsuSize_cases op with hsize | hsize | hsize <;> rw [hsize] at h ⊢ <;> omega

/-- A bundle of one LSU operation that leaves the state behind the core as it was. -/
theorem runsOn_lsu {i : Instr} {s : State} {p : Fin 6} {g : Fin 8} {src : BitVec 13} {v : Word} {op : LsuOp} {fl : List Flight}
    (hr : CoreReady s p) (hs : SrcReads s p src v) (hg : GuardHolds s p g) (hal : op ≠ .fence → v.toNat % lsuSize op = 0)
    (hacc : if op = .fence then lsuFence s p = .done [] ∧ fl = [] else lsuAccess s p op v.toNat (s.core p).opr[3] [] = (.done fl, s))
    (hfl : ∀ x ∈ fl, x.left = 2) (he : exec i s = .next (runUnitOp s p .lsu (lsuCode op) g src none)) :
    RunsOn i s p { oneOn (s.core p) with fly := fl.map (fun x => { x with left := 1 }) } := by
  obtain ⟨-, -, -, -, -, hgot, -, -, -, hlogs, -⟩ := id hr
  obtain ⟨t, ht, hcore, hothers, hregs, hmem⟩ := runs_lsu_to (s1 := s) (gs := []) hr hs hg hal (by simpa only [and_true] using hacc)
    (by rw [← hgot]) rfl hlogs (fun _ => rfl) (fun _ => rfl) hfl he
  exact ⟨t, ht, hcore, hothers, hregs, hmem⟩

/-- 03 R63: a load from the own TCM is in flight with the bytes there. -/
theorem runsOn_ownLoad {i : Instr} {s : State} {p : Fin 6} {g : Fin 8} {src : BitVec 13} {o : Nat} {r : Word} (hr : CoreReady s p)
    (hs : SrcReads s p src (BitVec.ofNat 32 (0x10000000 + o))) (hg : GuardHolds s p g) (hp : p.val < 5) (ho : o < 0x20000) (op : LsuOp)
    (hop : lsuWrites op = false ∧ op ≠ .lrW ∧ op ≠ .fence) (he : exec i s = .next (runUnitOp s p .lsu (lsuCode op) g src none))
    (hres : lsuExtend op (s.ld (0x11000000 + 0x100000 * p.val + o) (lsuSize op)) = r) (hal : o % lsuSize op = 0) :
    RunsOn i s p { oneOn (s.core p) with fly := [{ left := 1, writes := [(11, r)] }] } := by
  obtain ⟨hread, hlr, hfence⟩ := hop
  have hacc := own_load hr hp (ownTcm_toNat ho) ho hal hread
  rw [reserve, if_neg hlr] at hacc
  subst hres
  exact runsOn_lsu (fl := [loadFlight op _]) hr hs hg (fun _ => ownTcm_aligned ho hal) (by rw [if_neg hfence]; exact hacc) (by simp [loadFlight]) he

/-- 03 R67, R68: the last reservation that a bundle sets or clears is the one it leaves. -/
theorem gotResv_concat (gs : List Got) (x r : Option Nat) : gotResv (gs ++ [.resv x]) r = x := by
  simp [gotResv]

/-- Settles O11: the loads by their law; `lr.w` also leaves a reservation. -/
theorem loadReadsOwnTcm : Obligations.LoadReadsOwnTcm := by
  unfold Obligations.LoadReadsOwnTcm
  intro p g src o s hr hs hg hp ho
  have hload := fun {i : Instr} {r : Word} => runsOn_ownLoad (i := i) (r := r) hr hs hg hp ho
  simp only [List.forall_mem_cons]
  refine ⟨⟨hload .ldW (by decide) rfl rfl, hload .ldH (by decide) rfl (sx_ofNat 16 _ (by decide) (by decide)), hload .ldHu (by decide) rfl rfl,
    hload .ldB (by decide) rfl (sx_ofNat 8 _ (by decide) (by decide)), hload .ldBu (by decide) rfl rfl, by simp⟩, fun hal => ?_⟩
  have hacc := own_load (op := .lrW) hr hp (ownTcm_toNat ho) ho hal rfl
  rw [reserve, if_pos rfl, ownTcm_reservable hp ho, if_pos rfl, leaveResv] at hacc
  have hrun := runs_lsu (i := .lsuLrW p g src .ok) (op := .lrW) hr hs hg (fun _ => ownTcm_aligned ho hal)
    (by rw [if_neg (by decide)]; exact hacc) rfl rfl csr_got (by simp [loadFlight]) rfl
  simp only [gotResv_concat] at hrun
  exact hrun

/-- Settles O12: both buffers empty, the fence is past at its trigger. -/
theorem fencePassesWithEmptyBuffers : Obligations.FencePassesWithEmptyBuffers := by
  unfold Obligations.FencePassesWithEmptyBuffers
  intro p g src a s hr hs hg hwbuf hmbuf
  obtain ⟨-, -, -, -, hfly, -⟩ := id hr
  have hpast : lsuFence s p = .done [] := if_pos ⟨hwbuf, hmbuf⟩
  have hrun := runsOn_lsu (i := .lsuFence p g src) (op := .fence) (fl := []) hr hs hg (by simp) (by simpa using hpast) (by simp) rfl
  rw [List.map_nil, ← hfly] at hrun
  exact hrun

theorem byte_congr {s t : State} (h : t.mem = s.mem) (b : Nat) : t.byte b = s.byte b := by
  rw [State.byte, State.byte, h]

/-- 03 R67: a core that loses a reservation which the `n` bytes at `ph` touch. -/
def unreserved (ph n : Nat) (c : Core) : Core :=
  match c.resv with
  | some r => if r < ph + n ∧ ph < r + 32 then { c with resv := none } else c
  | none => c

theorem unreserved_run (ph n : Nat) (c : Core) : (unreserved ph n c).run = c.run := by
  unfold unreserved
  split
  · split <;> rfl
  · rfl

/-- What a store of a core leaves in its own TCM and in the undo log of the link pair. -/
abbrev storedOwn (s : State) (p : Fin 6) (ph n : Nat) (d : Word) : State := ownStored (logUndo s p ph) p ph n d

/-- 04 R89: a store takes no more than the room that the undo log has. -/
theorem storedOwn_logs {s : State} {p : Fin 6} {ph n : Nat} {d : Word} (h : logsFill s.pair = false) (hundo : s.pair.undo.length < 383) :
    logsFill (storedOwn s p ph n d).pair = false := by
  obtain ⟨-, -, -, -, hinlog, hlen, -⟩ := logUndo_facts (s := s) (p := p) (ph := ph)
  obtain ⟨-, hpair, -⟩ := ownStored_facts (s := logUndo s p ph) (p := p) (ph := ph) (n := n) (d := d)
  rw [hpair]
  simp only [logsFill, Bool.or_eq_false_iff, decide_eq_false_iff_not, hinlog] at h ⊢
  omega

/-- 03 R65, R67: a store of a core to its own TCM, by its own core, the registers, the bytes and the other cores. -/
theorem storedOwn_facts (s : State) (p : Fin 6) (ph n : Nat) (d : Word) :
    (storedOwn s p ph n d).core p = s.core p ∧ (storedOwn s p ph n d).regs = s.regs ∧
    (∀ b, (storedOwn s p ph n d).byte b = if ph ≤ b ∧ b < ph + n then BitVec.ofNat 8 (d.toNat / 256 ^ (b - ph)) else s.byte b) ∧
    ∀ q, q ≠ p → (storedOwn s p ph n d).core q = unreserved ph n (s.core q) := by
  obtain ⟨hregs, hcores, hmem, -⟩ := logUndo_facts (s := s) (p := p) (ph := ph)
  obtain ⟨hregs', -, hmem', hothers⟩ := ownStored_facts (s := logUndo s p ph) (p := p) (ph := ph) (n := n) (d := d)
  have hcore : ∀ q, (logUndo s p ph).core q = s.core q := fun q => by rw [State.core, hcores]; rfl
  refine ⟨ownStored_core.trans (hcore p), hregs'.trans hregs, fun b => ?_, fun q hq => ?_⟩
  · rw [own_bytes b hmem', byte_congr hmem]
  · rw [← hcore q]
    exact hothers q hq

/-- 03 R65: a store to the own TCM is performed at once. -/
theorem own_store {s : State} {p : Fin 6} {o : Nat} {op : LsuOp} (hr : CoreReady s p) (hp : p.val < 5) (ho : o < 0x20000)
    (hm : ∀ c, migState s c ≠ 3) (hop : lsuWrites op = true ∧ op ≠ .scW) :
    lsuAccess s p op (0x10000000 + o) (s.core p).opr[3] [] =
      (.done [], storedOwn s p (0x11000000 + 0x100000 * p.val + o) (lsuSize op) (s.core p).opr[3]) := by
  obtain ⟨hrun, -⟩ := id hr
  obtain ⟨-, -, -, hdoms, -⟩ := logUndo_facts (s := s) (p := p) (ph := 0x11000000 + 0x100000 * p.val + o)
  have hon : (logUndo s p (0x11000000 + 0x100000 * p.val + o)).dom (coreDom p) = .on := by rw [State.dom, hdoms]; exact readyDom hrun
  rw [own_access hr hp rfl ho hm, ownAccess, if_neg hop.2, if_pos hop.1, own_write hp rfl ho hon]

/-- 03 R68: the code of a `sc.w` to the own TCM. -/
theorem scCode_own {c : Core} {p : Fin 6} {o : Nat} (hp : p.val < 5) (ho : o < 0x20000) :
    scCode c (0x11000000 + 0x100000 * p.val + o) = if c.resv = some ((0x11000000 + 0x100000 * p.val + o) / 32 * 32) then 0 else 1 := by
  rw [scCode, ownTcm_reservable hp ho, if_pos rfl]

/-- 03 R68: a `sc.w` to the own TCM stores with its reservation alone, and ends it. -/
theorem own_sc {s : State} {p : Fin 6} {o : Nat} (hr : CoreReady s p) (hp : p.val < 5) (ho : o < 0x20000) (hm : ∀ c, migState s c ≠ 3) :
    lsuAccess s p .scW (0x10000000 + o) (s.core p).opr[3] [] =
      if (s.core p).resv = some ((0x11000000 + 0x100000 * p.val + o) / 32 * 32) then
        (.done [scFlight 0], storedOwn (leaveResv s p none) p (0x11000000 + 0x100000 * p.val + o) 4 (s.core p).opr[3])
      else (.done [scFlight 1], leaveResv s p none) := by
  obtain ⟨hrun, -⟩ := id hr
  obtain ⟨-, -, -, hdoms, -⟩ := logUndo_facts (s := leaveResv s p none) (p := p) (ph := 0x11000000 + 0x100000 * p.val + o)
  have hon : (logUndo (leaveResv s p none) p (0x11000000 + 0x100000 * p.val + o)).dom (coreDom p) = .on := by
    rw [State.dom, hdoms]; exact (readyDom hrun : s.dom (coreDom p) = .on)
  rw [own_access hr hp rfl ho hm, ownAccess, if_pos rfl]
  by_cases hresv : (s.core p).resv = some ((0x11000000 + 0x100000 * p.val + o) / 32 * 32)
  · simp only [performSc, scCode_own hp ho, if_pos hresv, if_true, own_write hp rfl ho hon]
  · simp only [performSc, scCode_own hp ho, if_neg hresv, Nat.one_ne_zero, if_false]

/-- 03 R65, R67: the bundle of a store to the own TCM, performed on a state `s'` in which the core has noted its reservations `gs` alone. -/
theorem leaves_ownStore {i : Instr} {s s' : State} {p : Fin 6} {g : Fin 8} {src : BitVec 13} {o ph n : Nat} {d : Word} {op : LsuOp} {fl : List Flight}
    {gs : List Got} (hr : CoreReady s p) (hs : SrcReads s p src (BitVec.ofNat 32 (0x10000000 + o))) (hg : GuardHolds s p g) (ho : o < 0x20000)
    (hundo : s.pair.undo.length < 383) (hop : op ≠ .fence) (hal : o % lsuSize op = 0)
    (hcore : s'.core p = { s.core p with got := gs })
    (hsame : (∀ q, q ≠ p → s'.core q = s.core q) ∧ s'.regs = s.regs ∧ s'.mem = s.mem ∧ s'.pair = s.pair)
    (hacc : lsuAccess s p op (0x10000000 + o) (s.core p).opr[3] [] = (.done fl, storedOwn s' p ph n d))
    (hfl : ∀ x ∈ fl, x.left = 2) (he : exec i s = .next (runUnitOp s p .lsu (lsuCode op) g src none)) :
    Leaves i s (fun t =>
      t.core p = { oneOn (s.core p) with fly := fl.map (fun x => { x with left := 1 }), resv := gotResv gs (s.core p).resv } ∧ t.regs = s.regs ∧
      (∀ b, t.byte b = if ph ≤ b ∧ b < ph + n then BitVec.ofNat 8 (d.toNat / 256 ^ (b - ph)) else s.byte b) ∧
      ∀ q, q ≠ p → t.core q = unreserved ph n (s.core q)) := by
  obtain ⟨-, -, -, -, -, -, -, -, -, hlogs, -⟩ := id hr
  obtain ⟨hothers, hregs, hmem, hpair⟩ := hsame
  obtain ⟨hcore1, hregs1, hbyte1, hothers1⟩ := storedOwn_facts s' p ph n d
  have hothers2 : ∀ q, q ≠ p → (storedOwn s' p ph n d).core q = unreserved ph n (s.core q) := fun q hq => by rw [hothers1 q hq, hothers q hq]
  have hrun : ∀ q, ((storedOwn s' p ph n d).core q).run = (s.core q).run := fun q => by
    by_cases hq : q = p
    · rw [hq, hcore1, hcore]
    · rw [hothers2 q hq, unreserved_run]
  obtain ⟨t, ht, hcore3, hothers3, hregs3, hmem3⟩ := runs_lsu_to hr hs hg (fun _ => ownTcm_aligned ho hal)
    (by rw [if_neg hop, ownTcm_toNat ho]; exact hacc) (hcore1.trans hcore) (hregs1.trans hregs) (storedOwn_logs (hpair ▸ hlogs) (hpair ▸ hundo)) hrun
    (csrRead_eq (hregs1.trans hregs) (hcore1.trans hcore)) hfl he
  refine ⟨t, ht, hcore3, hregs3, fun b => ?_, fun q hq => (hothers3 q hq).trans (hothers2 q hq)⟩
  rw [byte_congr hmem3, hbyte1, byte_congr hmem]

/-- Settles O13: a store by its bytes; `sc.w` as a store with its reservation, and as a bundle that stores nothing without it. -/
theorem storeWritesOwnTcm : Obligations.StoreWritesOwnTcm := by
  unfold Obligations.StoreWritesOwnTcm
  intro p g src o s hr hs hg hp ho hundo hm ph stores
  obtain ⟨-, -, -, -, hfly, hgot, -⟩ := id hr
  have hstore : ∀ {i : Instr} (op : LsuOp), lsuWrites op = true ∧ op ≠ .scW → op ≠ .fence →
      exec i s = .next (runUnitOp s p .lsu (lsuCode op) g src none) → o % lsuSize op = 0 → stores i (lsuSize op) (oneOn (s.core p)) := by
    intro i op hop hfence he hal
    have h := leaves_ownStore (s' := s) (gs := []) hr hs hg ho hundo hfence hal (by rw [← hgot]) ⟨fun _ _ => rfl, rfl, rfl, rfl⟩
      (own_store hr hp ho hm hop) (by simp) he
    rw [List.map_nil, ← hfly] at h
    exact h
  simp only [List.forall_mem_cons]
  refine ⟨⟨hstore .stW (by decide) (by decide) rfl, hstore .stH (by decide) (by decide) rfl, hstore .stB (by decide) (by decide) rfl, by simp⟩,
    fun hal => ?_⟩
  have hsc := own_sc hr hp ho hm
  have hcore : (leaveResv s p none).core p = { s.core p with got := [.resv none] } := by rw [leaveResv, core_upCore_self, hgot]; rfl
  have hothers : ∀ q, q ≠ p → (leaveResv s p none).core q = s.core q := fun q hq => by rw [leaveResv, core_upCore, if_neg hq]
  split
  · next hresv =>
    rw [if_pos hresv] at hsc
    have h := leaves_ownStore (i := .lsuScW p g src) (op := .scW) hr hs hg ho hundo (by decide) hal hcore ⟨hothers, rfl, rfl, rfl⟩ hsc (by simp [scFlight]) rfl
    exact h
  · next hresv =>
    rw [if_neg hresv] at hsc
    have h := runs_lsu (i := .lsuScW p g src) (op := .scW) hr hs hg (fun _ => ownTcm_aligned ho hal)
      (by rw [if_neg (by decide), ownTcm_toNat ho]; exact hsc) rfl rfl csr_got (by simp [scFlight]) rfl
    simp only [gotResv_concat] at h
    exact h

/-! ### The write buffer -/

/-- Settles O23: the oldest entry is written at its address, and its answer is held where it is an error. -/
theorem oldestBufferedStoreIsPerformed : Obligations.OldestBufferedStoreIsPerformed := by
  unfold Obligations.OldestBufferedStoreIsPerformed
  intro p syn e rest s s1 hwbuf hgood
  have hdrain : exec (.writeBufferDrain p syn) s = .next (drainOne s p syn) := rfl
  refine ⟨fun hw => ?_, fun hw => ?_⟩
  · rw [hdrain]
    simp only [drainOne, hwbuf, hgood, Bool.false_eq_true, if_false, hw]
  · rw [hdrain]
    simp only [drainOne, hwbuf, hgood, Bool.false_eq_true, if_false, hw, holdError]

/-! ### The queue operations -/

/-- 04 R89: a recorded input leaves the logs of the link pair room below their limit. -/
theorem logInput_room {s : State} {p : Fin 6} {e : InEntry} (h : logsFill s.pair = false) (hin : s.pair.inlog.length < 191) :
    logsFill (logInput s p e).pair = false := by
  obtain ⟨-, -, -, hundo, hlen⟩ := logInput_facts (s := s) (p := p) (e := e)
  simp only [logsFill, Bool.or_eq_false_iff, decide_eq_false_iff_not, hundo] at h ⊢
  omega

section Queue
variable {s s2 : State} {p : Fin 6} {g : Fin 8} {src : BitVec 13} {v w : Word} {c : Nat} {i : Instr}

/-- 03 R69, 04 R89: a QU operation whose answer the link pair records. -/
theorem leaves_qu {op : QuOp} {l : Bool} (hr : CoreReady s p) (hs : SrcReads s p src v) (hg : GuardHolds s p g) (hp : p.val < 5) (hin : s.pair.inlog.length < 191)
    (hwait : (op = .wfe → (s.core p).latch = true) ∧
      (op = .deq → qOn s (v.toNat % 128) = true → qAllowed s (v.toNat % 128) (coreInit p) false = true → qCount s (v.toNat % 128) ≠ 0))
    (hq : quPerform s p op v = (w, c, s2)) (hcore : s2.core p = { s.core p with latch := l }) (hothers : ∀ r, r ≠ p → s2.core r = s.core r)
    (hlogs : s2.pair.undo = s.pair.undo ∧ s2.pair.inlog = s.pair.inlog) (hhalt : s2.rd DBG.HALT = s.rd DBG.HALT)
    (he : exec i s = .next (runUnitOp s p .qu (quCode op) g src none)) :
    Leaves i s (fun u => u.core p = { oneOn (s.core p) with fly := [{ left := 1, writes := [(4, w)], qcode := some c }], latch := l } ∧
      (∀ r, r ≠ p → u.core r = s.core r) ∧ u.regs = s2.regs ∧ u.mem = s2.mem) := by
  obtain ⟨-, -, -, -, -, -, -, -, -, hfill, hlive, -⟩ := id hr
  obtain ⟨hundo, hinlog⟩ := hlogs
  have hcommit := quCommit_live (op := op) (t := v) (p := p) hlive
  simp only [hq] at hcommit
  obtain ⟨-, hregs, hmem, -⟩ := logInput_facts (s := s2) (p := p) (e := .queue w c)
  have hroom : logsFill (logInput s2 p (.queue w c)).pair = false := by
    refine logInput_room ?_ (by rw [hinlog]; exact hin)
    rw [logsFill, hundo, hinlog]
    exact hfill
  have hrun : ∀ q, ((logInput s2 p (.queue w c)).core q).run = (s.core q).run := fun q => by
    rw [logInput_core]
    by_cases h : q = p
    · rw [h, hcore]
    · rw [hothers q h]
  obtain ⟨u, hu, hucore, huothers, huregs, humem⟩ := run_qu hr hs hg hp hwait.1 hwait.2 hcommit (by rw [logInput_core, hcore]) hroom hrun
    (by rw [State.rd, hregs]; exact hhalt) he
  exact ⟨u, hu, hucore, fun r h => by rw [huothers r h, logInput_core, hothers r h], huregs.trans hregs, humem.trans hmem⟩

/-- 03 R69: a QU operation that reaches no core ends with its answer `w` and its code `c`. -/
theorem leaves_qu_apart {op : QuOp} (hr : CoreReady s p) (hs : SrcReads s p src v) (hg : GuardHolds s p g) (hp : p.val < 5)
    (hin : s.pair.inlog.length < 191) (hop : op ≠ .wfe)
    (hdeq : op = .deq → qOn s (v.toNat % 128) = true → qAllowed s (v.toNat % 128) (coreInit p) false = true → qCount s (v.toNat % 128) ≠ 0)
    (hq : quPerform s p op v = (w, c, s2)) (hcores : s2.cores = s.cores) (hlogs : s2.pair.undo = s.pair.undo ∧ s2.pair.inlog = s.pair.inlog)
    (hhalt : s2.rd DBG.HALT = s.rd DBG.HALT) (he : exec i s = .next (runUnitOp s p .qu (quCode op) g src none)) :
    Leaves i s (fun u => u.core p = { oneOn (s.core p) with fly := [{ left := 1, writes := [(4, w)], qcode := some c }] } ∧
      (∀ r, r ≠ p → u.core r = s.core r) ∧ u.regs = s2.regs ∧ u.mem = s2.mem) := by
  have hcore : ∀ r, s2.core r = s.core r := fun r => by rw [State.core, hcores]; rfl
  exact leaves_qu (l := (s.core p).latch) hr hs hg hp hin ⟨fun h => absurd h hop, hdeq⟩ hq (hcore p) (fun r _ => hcore r) hlogs hhalt he

/-- 03 R69, 04 R89: likewise where the link pair releases the operation as an output. -/
theorem leaves_qu_released {op : QuOp} {s1 : State} (hr : CoreReady s p) (hs : SrcReads s p src v) (hg : GuardHolds s p g) (hp : p.val < 5)
    (hin : s.pair.inlog.length < 191) (hop : op ≠ .wfe ∧ op ≠ .deq) (hq : quPerform s p op v = (w, c, (release s1 p).2))
    (hapart : s1.cores = s.cores ∧ s1.pair = s.pair ∧ s1.rd DBG.HALT = s.rd DBG.HALT)
    (he : exec i s = .next (runUnitOp s p .qu (quCode op) g src none)) :
    Leaves i s (fun u => u.core p = { oneOn (s.core p) with fly := [{ left := 1, writes := [(4, w)], qcode := some c }] } ∧
      (∀ r, r ≠ p → u.core r = s.core r) ∧ u.regs = s1.regs ∧ u.mem = s1.mem) := by
  obtain ⟨hcores, hpair, hhalt⟩ := hapart
  obtain ⟨hcores', hregs, hmem, hundo, hinlog⟩ := release_facts (s := s1) (p := p)
  rw [← hregs, ← hmem]
  exact leaves_qu_apart hr hs hg hp hin hop.1 (fun h => absurd h hop.2) hq (hcores'.trans hcores) ⟨by rw [hundo, hpair], by rw [hinlog, hpair]⟩
    (by rw [State.rd, hregs]; exact hhalt) he

end Queue

/-! What the queue block and the cue lines answer a QU operation (03 R69, 14 R353). -/

section Perform
variable {s s1 : State} {p : Fin 6} {t w : Word} {c : Nat}

theorem quPerform_deqnb (h : qDeq s (t.toNat % 128) (coreInit p) = (c, w, s1)) : quPerform s p .deqnb t = (if c = 0 then w else 0, c, s1) := by
  simp only [quPerform, h]

theorem quPerform_deq (hgot : (s.core p).got = []) (h : qDeq s (t.toNat % 128) (coreInit p) = (c, w, s1)) :
    quPerform s p .deq t = (if c = 0 then w else 0, c, s1) := by
  simp only [quPerform, hgot, h, List.contains_nil, Bool.false_eq_true, if_false]

/-- 03 R66: with nothing buffered, an enqueue has nothing to wait for. -/
theorem quPerform_enq (hwbuf : (s.core p).wbuf = []) (h : qEnq s (t.toNat % 128) (coreInit p) (s.core p).opr[8] = (c, s1)) :
    quPerform s p .enq t = (0, c, (release s1 p).2) := by
  have hdrain : drainAll s p = s := by rw [drainAll, hwbuf]; rfl
  simp only [quPerform, hdrain, h]

theorem quPerform_wfe (hgot : (s.core p).got = []) (hlatch : (s.core p).latch = true) :
    quPerform s p .wfe t = (1, 0, s.upCore p (fun c => { c with latch := false })) := by
  simp [quPerform, wakeCause, wakeGot, clearLatch, hgot, hlatch]

end Perform

/-- Settles O14: each operation by what the queue block or the cue lines answer it. -/
theorem queueOperationStartsItsResult : Obligations.QueueOperationStartsItsResult := by
  unfold Obligations.QueueOperationStartsItsResult
  intro p g src t s hr hs hg hp hin q ends apart runs
  obtain ⟨-, -, -, -, -, hgot, -⟩ := id hr
  have hapart := fun {i : Instr} {w : Word} {c : Nat} {s2 : State} (op : QuOp) => leaves_qu_apart (i := i) (w := w) (c := c) (s2 := s2) (op := op) hr hs hg hp hin
  have hreleased := fun {i : Instr} {w : Word} {c : Nat} {s1 : State} (op : QuOp) =>
    leaves_qu_released (i := i) (w := w) (c := c) (s1 := s1) (op := op) hr hs hg hp hin
  refine ⟨hapart .cnt (by decide) (by simp) rfl rfl ⟨rfl, rfl⟩ rfl rfl, fun c w s1 hdeq ⟨hcores, hpair, hhalt⟩ => ?_,
    fun c s1 hwbuf henq h => hreleased .enq (by decide) (quPerform_enq hwbuf henq) h rfl, ?_, fun hlatch => ?_⟩
  · have hlogs : s1.pair.undo = s.pair.undo ∧ s1.pair.inlog = s.pair.inlog := by rw [hpair]; exact ⟨rfl, rfl⟩
    exact ⟨hapart .deqnb (by decide) (by simp) (quPerform_deqnb hdeq) hcores hlogs hhalt rfl,
      fun hne => hapart .deq (by decide) (fun _ => hne) (quPerform_deq hgot hdeq) hcores hlogs hhalt rfl⟩
  · split
    · next hown => exact fun h => hreleased .sig (by decide) (by simp only [quPerform, hown, if_true]) h rfl
    · next hown => exact hapart .sig (by decide) (by simp) (by simp only [quPerform, if_neg hown]) rfl ⟨rfl, rfl⟩ rfl rfl
  · exact leaves_qu (s2 := s.upCore p (fun c => { c with latch := false })) hr hs hg hp hin ⟨fun _ => hlatch, by simp⟩ (quPerform_wfe hgot hlatch)
      (core_upCore_self s p _) (fun r h => by rw [core_upCore, if_neg h]) ⟨rfl, rfl⟩ rfl rfl

/-! ### The ends of stalls -/

theorem passCycles_idle {c : Core} (h : c.fly = []) (n : Nat) : passCycles n c = { c with cycle := c.cycle + BitVec.ofNat 64 n } := by
  have hleft : flyLeft c (fun _ => true) = 0 := by simp [flyLeft, h]
  rw [passCycles, hleft, Nat.min_zero]
  rfl

theorem passCycles_zero (c : Core) : passCycles 0 c = c := by
  simp [passCycles, tickCores]

theorem upCore_upCore (s : State) (p : Fin 6) (f h : Core → Core) : (s.upCore p f).upCore p h = s.upCore p (fun c => h (f c)) := by
  rw [State.upCore, core_upCore_self]
  simp [State.upCore, State.setCore]

theorem upCore_congr {s : State} {p : Fin 6} {f h : Core → Core} (e : f (s.core p) = h (s.core p)) : s.upCore p f = s.upCore p h :=
  congrArg (s.setCore p) e

/-- A core whose stall has ended is ready but for what its stall brought; its latch and its cycle count may have changed. -/
theorem coreReady_unstalled {s t : State} {p : Fin 6} {l : Bool} {n : BitVec 64} {gs : List Got} (hr : CoreReady (unstalled s p) p)
    (hcore : t.core p = { s.core p with latch := l, cycle := n, stall := none, got := gs }) (hothers : ∀ q, q ≠ p → t.core q = s.core q)
    (hregs : t.regs = s.regs) (hdoms : t.doms = s.doms) (hpair : t.pair.restoring = s.pair.restoring ∧ t.pair.replay = s.pair.replay)
    (hlogs : logsFill t.pair = false) : CoreReady (t.upCore p (fun c => { c with got := [] })) p := by
  obtain ⟨hrun, -, hheld, hxfer, hfly, -, hflines, hpc, hloop, -, hlive, hinj, hun⟩ := id hr
  rw [core_upCore_self] at hheld hxfer hfly hflines hpc hloop
  obtain ⟨hrestoring, hreplay⟩ := hpair
  have hruns : ∀ q, ((t.upCore p (fun c => { c with got := [] })).core q).run = ((unstalled s p).core q).run := fun q => by
    rw [core_upCore, core_upCore]
    split
    · rw [hcore]
    · next hq => rw [hothers q hq]
  have hcan : canRun (t.upCore p (fun c => { c with got := [] })) p = true := by
    rw [← hrun, canRun, canRun, hruns p, State.dom, State.dom, State.upCore_doms, State.upCore_doms, hdoms, State.upCore_pair, State.upCore_pair, hrestoring]
  have hbit : (t.upCore p (fun c => { c with got := [] })).bit FLT.INJCTRL 16 = false := by
    rw [← hinj, State.bit, State.bit, State.rd, State.rd, State.upCore_regs, State.upCore_regs, hregs]
  rw [CoreReady, core_upCore_self, hcore]
  exact ⟨hcan, rfl, hheld, hxfer, hfly, rfl, hflines, hpc, hloop, hlogs, hreplay.trans hlive, hbit, unwatched_of hun hregs hruns⟩

theorem canFinish_of_ready {s : State} {p : Fin 6} (hr : CoreReady (unstalled s p) p) : canFinish s p = true := by
  have hrun := hr.1
  rw [canRun, core_upCore_self] at hrun
  rw [canFinish, Bool.and_or_distrib_right, Bool.and_or_distrib_right]
  exact Bool.or_eq_true_iff.mpr (.inl hrun)

theorem idle_of_ready {s : State} {p : Fin 6} (hr : CoreReady (unstalled s p) p) : (s.core p).fly = [] ∧ (s.core p).got = [] := by
  obtain ⟨-, -, -, -, hfly, hgot, -⟩ := hr
  rw [core_upCore_self] at hfly hgot
  exact ⟨hfly, hgot⟩

/-- 03 R71: a core that a wake of cause `n` has woken. -/
def awake (n : Nat) (c : Core) : Core := { c with latch := false, stall := none, got := [.wake n] }

/-- 03 R71: the cause with which a core may wake. -/
def wakeNumber (s : State) (p : Fin 6) : Nat := natBit (s.core p).latch + 2 * natBit (wakeLine s p)

theorem wakeNumber_ne_zero {s : State} {p : Fin 6} (h : (s.core p).latch = true ∨ wakeLine s p = true) : wakeNumber s p ≠ 0 := by
  rcases h with h | h <;> rw [wakeNumber, h] <;> simp [natBit]

/-- 03 R71: a wake executes the waiting bundle again with its cause. -/
theorem exec_wfeWake {s : State} {p : Fin 6} {b : Bundle} (hstall : (s.core p).stall = some { cause := .wfe, bundle := some b })
    (hfin : canFinish s p = true) (hcause : (s.core p).latch = true ∨ wakeLine s p = true) (hgot : (s.core p).got = []) :
    exec (.wfeWake p) s = .next (runBundle (s.upCore p (awake (wakeNumber s p))) p b) := by
  have hne : natBit (s.core p).latch + 2 * natBit (wakeLine s p) ≠ 0 := wakeNumber_ne_zero hcause
  show execWfeWake p s = _
  simp only [execWfeWake, hstall, hne, hfin, ne_eq, not_false_eq_true, and_self, if_true, resume, passCycles_zero, upCore_upCore]
  rw [upCore_congr]
  simp only [hgot, List.nil_append, awake, wakeNumber]

/-- Settles O19: the wake, and the bundle that it executes again. -/
theorem waitWakesWithItsCause : Obligations.WaitWakesWithItsCause := by
  unfold Obligations.WaitWakesWithItsCause
  refine ⟨fun p b s hstall hfin hcause hgot => exec_wfeWake hstall hfin hcause hgot, fun p g src s hp hst hsrc hg hin hcause => ?_⟩
  obtain ⟨hstall, hr⟩ := hst
  obtain ⟨-, hgot⟩ := idle_of_ready hr
  obtain ⟨-, -, -, -, -, -, -, -, -, hlogs, -⟩ := id hr
  have hcore : (s.upCore p (awake (wakeNumber s p))).core p = awake (wakeNumber s p) (s.core p) := core_upCore_self _ _ _
  have hothers : ∀ q, q ≠ p → (s.upCore p (awake (wakeNumber s p))).core q = s.core q := fun q hq => by rw [core_upCore, if_neg hq]
  have hready := coreReady_unstalled (l := false) (n := (s.core p).cycle) hr hcore hothers rfl rfl ⟨rfl, rfl⟩ hlogs
  obtain ⟨t, ht, htcore, htothers, htregs, htmem⟩ := woken_qu (src := src) (g := g) hp hready (by rw [hcore, awake]) ⟨hsrc, rfl⟩
    (by rw [GuardHolds, hcore]; exact hg) hin
  refine ⟨t, ?_, ?_, fun q hq => (htothers q hq).trans (hothers q hq), htregs, htmem⟩
  · rw [exec_wfeWake hstall (canFinish_of_ready hr) hcause hgot, ht]
  · rw [htcore, hcore, core_upCore_self, ← hgot]
    rfl

/-- 03 R70: cores that do not stall are not served. -/
theorem serveWaiters_unstalled {s : State} {q : Nat} {l : List (Fin 6)} (h : ∀ r ∈ l, (s.core r).stall = none) :
    l.foldl (fun (s : State) r => serveWaiter s q r) s = s := by
  induction l with
  | nil => rfl
  | cons r l ih =>
    have hr : serveWaiter s q r = s := by simp only [serveWaiter, h r List.mem_cons_self]
    rw [List.foldl_cons, hr]
    exact ih (fun x hx => h x (List.mem_cons_of_mem r hx))

/-- 03 R70: an entry on a queue serves its one waiter. -/
theorem exec_deqEntryArrives {q : Fin 128} {p : Fin 6} {b : Bundle} {s : State} (hp : p.val < 5)
    (hstall : (s.core p).stall = some { cause := .deq q, bundle := some b }) (hfin : canFinish s p = true) (hentry : qCount s q ≠ 0)
    (hbefore : ∀ r, r ≠ p → (s.core r).stall = none) (hafter : ∀ r, r ≠ p → ((runBundle (unstalled s p) p b).core r).stall = none) :
    exec (.deqEntryArrives q) s = .next (runBundle (unstalled s p) p b) := by
  have hserve : serveWaiter s q.val p = runBundle (unstalled s p) p b := by
    simp only [serveWaiter, hstall, hfin, hentry, ne_eq, not_false_eq_true, and_self, if_true]
  have hmem : ∀ p : Fin 6, p.val < 5 → p ∈ ([4, 0, 1, 2, 3] : List (Fin 6)) := by decide
  have hnodup : ([4, 0, 1, 2, 3] : List (Fin 6)).Nodup := by decide
  obtain ⟨l1, l2, hl⟩ := List.append_of_mem (hmem p hp)
  show execDeqEntryArrives q s = _
  rw [execDeqEntryArrives, hl, List.foldl_append, List.foldl_cons]
  rw [hl, List.nodup_middle, List.nodup_cons, List.mem_append, not_or] at hnodup
  obtain ⟨⟨h1, h2⟩, -⟩ := hnodup
  rw [serveWaiters_unstalled (fun r hr => hbefore r (fun e => h1 (e ▸ hr))), hserve,
    serveWaiters_unstalled (fun r hr => hafter r (fun e => h2 (e ▸ hr)))]

/-- Settles O20: the entry serves its waiter, whose bundle takes what the queue block answers. -/
theorem arrivingEntryServesTheWaiter : Obligations.ArrivingEntryServesTheWaiter := by
  unfold Obligations.ArrivingEntryServesTheWaiter
  refine ⟨fun q p b s hp hstall hfin hentry hbefore hafter => exec_deqEntryArrives hp hstall hfin hentry hbefore hafter,
    fun q p g src t w c s s1 hp hst hs ht hg hin hentry hbefore hdeq hcores hpair hhalt => ?_⟩
  obtain ⟨hstall, hr⟩ := hst
  obtain ⟨-, hgot⟩ := idle_of_ready hr
  have hgot' : ((unstalled s p).core p).got = [] := by rw [core_upCore_self]; exact hgot
  have hg' : GuardHolds (unstalled s p) p g := by rw [GuardHolds, core_upCore_self]; exact hg
  rw [← ht] at hdeq hentry
  obtain ⟨u, hu, hucore, huothers, huregs, humem⟩ := leaves_qu_apart (i := .quDeq p g src) (op := .deq) hr hs hg' hp hin (by decide) (fun _ _ _ => hentry)
    (quPerform_deq hgot' hdeq) hcores ⟨by rw [hpair]; rfl, by rw [hpair]; rfl⟩ hhalt rfl
  have hothers : ∀ r, r ≠ p → u.core r = s.core r := fun r hrp => by rw [huothers r hrp, core_upCore, if_neg hrp]
  have hrun : runBundle (unstalled s p) p (unitBundle p .qu (quCode .deq) g src) = u := by
    rw [← runUnitOp_bundle hr hs (qu_dest p .deq hp)]
    injection hu
  refine ⟨u, ?_, hucore, hothers, huregs, humem⟩
  rw [← hrun]
  exact exec_deqEntryArrives hp hstall (canFinish_of_ready hr) (ht ▸ hentry) hbefore (fun r hrp => by rw [hrun, hothers r hrp]; exact hbefore r hrp)

/-! ### Loads that stall -/

/-- 03 R54, R63: the load for which a bundle stalls returns with the bytes that the read path brings. -/
theorem exec_loadReturn {p : Fin 6} {va ph wait : Nat} {b : Bundle} {op : LsuOp} {src : Src} {bs : List Byte} {s s1 : State}
    (hstall : (s.core p).stall = some { cause := .access va ph none false, bundle := some b })
    (hlsu : lsuOf (coreKind p) (execMoves (s.core p) b) = some (op, src)) (hsc : op ≠ .scW) (hlr : op ≠ .lrW) (hperiph : targetOf ph ≠ .periph)
    (hwaits : flashWaits s ph = false) (hfin : canFinish s p = true)
    (hread : pathRead s (coreInit p) va ph none (lsuSize op) false false .ok .ok 0 = (some bs, s1)) :
    exec (.loadReturn p .ok .ok 0 wait) s =
      .next (resume (logInput (waitServed s1 p ph wait) p (.value (leNat (forward (s1.core p) ph bs)))) p b
        (.load (leNat (forward (s1.core p) ph bs))) wait) := by
  have hfinish : finishAccess s p op va ph none false (s.core p).opr[3] .ok .ok 0 = (some (.load (leNat (forward (s1.core p) ph bs))), s1) := by
    simp only [finishAccess, hperiph, hsc, hread, reserve, hlr, if_false]
  show execLoadReturn p .ok .ok 0 wait s = _
  simp only [execLoadReturn, hstall, hlsu, hfin, hwaits, hfinish, Bool.not_true, Bool.false_eq_true, if_false, logAccess]

theorem lsuOf_unitBundle {s : State} {p : Fin 6} {g : Fin 8} {src : BitVec 13} {op : LsuOp} (hg : GuardHolds s p g) :
    lsuOf (coreKind p) (execMoves (s.core p) (unitBundle p .lsu (lsuCode op) g src)) = some (op, srcOf src.toNat) := by
  have htrig : trigOf (coreKind p) { guard := g.val, src := srcOf src.toNat, slot := unitSlot (coreKind p) .lsu, dst := 0x900 + lsuCode op } =
      some (.lsu op) := trigOf_dest (lsu_dest p op).2.1
  have hholds : guardHolds (s.core p).g g.val = true := hg
  simp only [execMoves, List.filter_cons, List.filter_nil, hholds, if_true, lsuOf, List.findSome?_cons, htrig]

theorem logInput_kept (s : State) (p : Fin 6) (e : InEntry) : (logInput s p e).doms = s.doms ∧
    (logInput s p e).pair.restoring = s.pair.restoring ∧ (logInput s p e).pair.replay = s.pair.replay := by
  unfold logInput
  split <;> exact ⟨rfl, rfl, rfl⟩

/-- 03 R54: a core to which a load has returned the number `n` after `wait` stall cycles. -/
def loadedCore (wait n : Nat) (c : Core) : Core := { passCycles wait c with got := c.got ++ [.load n], stall := none }

/-- 03 R54, 04 R89: the state in which the bundle of a load that stalled is executed again; the link pair has recorded the number. -/
def loadedState (s1 : State) (p : Fin 6) (wait n : Nat) : State := (logInput s1 p (.value n)).upCore p (loadedCore wait n)

/-- Settles O21: the access returns, and the bundle that it executes again takes the number it brought. -/
theorem loadReturnsItsBytes : Obligations.LoadReturnsItsBytes := by
  unfold Obligations.LoadReturnsItsBytes
  refine ⟨fun p va ph wait b op src bs s s1 hstall hlsu hsc hlr hperiph hwaits hfin hread => exec_loadReturn hstall hlsu hsc hlr hperiph hwaits hfin hread, ?_⟩
  intro p g src a va ph wait op bs s s1 hst hsc hlr hfence hperiph hflash hread hcores hpair hregs hdoms hin hg n hs hal
  obtain ⟨hstall, hr⟩ := hst
  obtain ⟨hfly, hgot⟩ := idle_of_ready hr
  obtain ⟨-, -, -, -, -, -, -, -, -, hlogs, -⟩ := id hr
  have hcore1 : ∀ q, s1.core q = s.core q := fun q => by rw [State.core, hcores]; rfl
  have hnear : flashWaits s ph = false := by simp [flashWaits, hflash]
  have hserved : waitServed s1 p ph wait = s1 := by simp [waitServed, State.when, hflash]
  have hexec : exec (.loadReturn p .ok .ok 0 wait) s = .next (runBundle (loadedState s1 p wait n) p (unitBundle p .lsu (lsuCode op) g src)) := by
    rw [exec_loadReturn hstall (lsuOf_unitBundle hg) hsc hlr hperiph hnear (canFinish_of_ready hr) hread, hserved, hcore1]
    rfl
  have hcore : (loadedState s1 p wait n).core p =
      { s.core p with latch := (s.core p).latch, cycle := (s.core p).cycle + BitVec.ofNat 64 wait, stall := none, got := [.load n] } := by
    rw [loadedState, core_upCore_self, logInput_core, hcore1, loadedCore, hgot]
    rw [passCycles_idle hfly]
    rfl
  have hothers : ∀ q, q ≠ p → (loadedState s1 p wait n).core q = s.core q := fun q hq => by
    rw [loadedState, core_upCore, if_neg hq, logInput_core, hcore1]
  obtain ⟨hdoms', hrestoring, hreplay⟩ := logInput_kept s1 p (.value n)
  obtain ⟨-, hregs', hmem', -⟩ := logInput_facts (s := s1) (p := p) (e := .value n)
  have hready := coreReady_unstalled hr hcore hothers (hregs'.trans hregs) (hdoms'.trans hdoms)
    ⟨hrestoring.trans (by rw [hpair]), hreplay.trans (by rw [hpair])⟩ (logInput_room (by rw [hpair]; exact hlogs) (by rw [hpair]; exact hin))
  obtain ⟨t, ht, htcore, htothers, htregs, htmem⟩ := loaded hfence hready (by rw [hcore]) hs (by rw [GuardHolds, hcore]; exact hg) hal
  refine ⟨t, by rw [hexec]; exact congrArg _ ht, ?_, fun q hq => (htothers q hq).trans (hothers q hq), htregs.trans (hregs'.trans hregs), htmem.trans hmem'⟩
  rw [htcore, hcore, core_upCore_self, ← hgot]

end Sys2Proof.EmordUnits
end

section
/-! PROOF. Every step keeps memory and the register file in canonical form, one lemma per function of the model
that leaves a state.

Only the functions of Ops.lean and Scene.lean that put an entry in a finite map, or drop entries of one, touch
the two maps, so only their lemmas argue about lists (`sparseWf_set`, `sparseWf_filter`). Each later lemma is
named after its function, takes the canonical form of the state it starts from and follows the function's own
shape: `h.f.g` where the result is `g (f s)`, `.ite` and `.dite` at an `if`, `.foldl` at a fold, `split` at a
`match`, and `.of_eq rfl rfl` where an update touches neither map. -/
namespace Sys2Proof.Machine

/-- A row of `exec`, or a step, goes to no state but one in canonical form. -/
def SoundNext (o : Out) : Prop := ∀ t, o = .next t → Memory.wf t

/-! ### The shapes of the model's functions -/

section
variable {s t : State} {α β : Type} {c : Prop} {_ : Decidable c}

theorem Memory.wf.of_eq (hm : t.mem = s.mem) (hr : t.regs = s.regs) (h : Memory.wf s) : Memory.wf t := by
  rw [Memory.wf, hm, hr]
  exact h

theorem Memory.wf.pair {x : α} (h : Memory.wf s) : Memory.wf (x, s).2 := h

theorem Memory.wf.with_flt {x : FltState} (h : Memory.wf s) : Memory.wf { s with flt := x } := h

theorem Memory.wf.with_keys {x : Keys} (h : Memory.wf s) : Memory.wf { s with keys := x } := h

theorem Memory.wf.with_hub {x : Hub} (h : Memory.wf s) : Memory.wf { s with hub := x } := h

theorem Memory.wf.ite {a b : State} (ha : Memory.wf a) (hb : Memory.wf b) : Memory.wf (if c then a else b) := by
  split <;> assumption

theorem Memory.wf.dite {a : c → State} {b : ¬ c → State} (ha : ∀ h, Memory.wf (a h)) (hb : ∀ h, Memory.wf (b h)) :
    Memory.wf (if h : c then a h else b h) := by
  split
  · exact ha _
  · exact hb _

theorem Memory.wf.ite_snd {a b : α × State} (ha : Memory.wf a.2) (hb : Memory.wf b.2) :
    Memory.wf (if c then a else b).2 := by
  split <;> assumption

theorem Memory.wf.dite_snd {a : c → α × State} {b : ¬ c → α × State} (ha : ∀ h, Memory.wf (a h).2)
    (hb : ∀ h, Memory.wf (b h).2) : Memory.wf (if h : c then a h else b h).2 := by
  split
  · exact ha _
  · exact hb _

theorem Memory.wf.ite_snd_snd {a b : α × β × State} (ha : Memory.wf a.2.2) (hb : Memory.wf b.2.2) :
    Memory.wf (if c then a else b).2.2 := by
  split <;> assumption

theorem Memory.wf.of_ite_some {x r : α × State} {o : Option (α × State)} (hx : Memory.wf x.2)
    (ho : o = some r → Memory.wf r.2) : (if c then some x else o) = some r → Memory.wf r.2 := by
  split
  · rintro ⟨⟩
    exact hx
  · exact ho

theorem Memory.wf.foldl {l : List α} {f : State → α → State} (h : Memory.wf s)
    (hf : ∀ u x, Memory.wf u → Memory.wf (f u x)) : Memory.wf (l.foldl f s) :=
  List.foldlRecOn l f h fun u hu x _ => hf u x hu

theorem Memory.wf.foldl_snd {l : List α} {f : β × State → α → β × State} {r : β × State} (h : Memory.wf r.2)
    (hf : ∀ u x, Memory.wf u.2 → Memory.wf (f u x).2) : Memory.wf (l.foldl f r).2 :=
  List.foldlRecOn l f (motive := fun r : β × State => Memory.wf r.2) h fun u hu x _ => hf u x hu

theorem Memory.wf.of_snd {r : α × State} {x : α} (e : r = (x, t)) (h : Memory.wf r.2) : Memory.wf t := by
  subst e
  exact h

theorem Memory.wf.of_snd_snd {r : α × β × State} {x : α} {y : β} (e : r = (x, y, t)) (h : Memory.wf r.2.2) :
    Memory.wf t := by
  subst e
  exact h

theorem SoundNext.next (h : Memory.wf t) : SoundNext (.next t) := by
  rintro _ ⟨⟩
  exact h

theorem SoundNext.ite {a b : Out} (ha : SoundNext a) (hb : SoundNext b) : SoundNext (if c then a else b) := by
  split <;> assumption

theorem SoundNext.dite {a : c → Out} {b : ¬ c → Out} (ha : ∀ h, SoundNext (a h)) (hb : ∀ h, SoundNext (b h)) :
    SoundNext (if h : c then a h else b h) := by
  split
  · exact ha _
  · exact hb _

end

section
variable {s : State}

/-! ### Machine/Ops.lean -/

theorem Memory.wf.wr {a v} (h : Memory.wf s) : Memory.wf (s.wr a v) := ⟨h.1, sparseWf_set _ _ _ _ h.2⟩

theorem Memory.wf.setFld {a hi lo x} (h : Memory.wf s) : Memory.wf (s.setFld a hi lo x) := h.wr

theorem Memory.wf.setBit {a i v} (h : Memory.wf s) : Memory.wf (s.setBit a i v) := h.setFld

theorem Memory.wf.bump {a hi lo n} (h : Memory.wf s) : Memory.wf (s.bump a hi lo n) := h.setFld

theorem Memory.wf.raise {a hi lo n} (h : Memory.wf s) : Memory.wf (s.raise a hi lo n) := .ite h.setFld h

theorem Memory.wf.when {c f} (h : Memory.wf s) (hf : ∀ u, Memory.wf u → Memory.wf (f u)) : Memory.wf (s.when c f) := .ite (hf _ h) h

theorem Memory.wf.plainWrite {a v trusted} (h : Memory.wf s) : Memory.wf (s.plainWrite a v trusted) := by
  unfold Machine.State.plainWrite
  split
  · exact h.wr
  · exact h

theorem Memory.wf.resetRegs {a n} (h : Memory.wf s) : Memory.wf (s.resetRegs a n) := ⟨h.1, sparseWf_filter _ _ _ h.2⟩

theorem Memory.wf.wrWords {a ws} (h : Memory.wf s) : Memory.wf (s.wrWords a ws) := by
  induction ws generalizing s a with
  | nil => exact h
  | cons w ws ih => exact ih h.wr

theorem Memory.wf.setByte {a v} (h : Memory.wf s) : Memory.wf (s.setByte a v) := ⟨sparseWf_set _ _ _ _ h.1, h.2⟩

theorem Memory.wf.setBytes {a bs} (h : Memory.wf s) : Memory.wf (s.setBytes a bs) := by
  induction bs generalizing s a with
  | nil => exact h
  | cons v vs ih => exact ih h.setByte

theorem Memory.wf.st {a n v} (h : Memory.wf s) : Memory.wf (s.st a n v) := h.setBytes

theorem Memory.wf.stw {a v} (h : Memory.wf s) : Memory.wf (s.stw a v) := h.st

theorem Memory.wf.draw (h : Memory.wf s) : Memory.wf (s.draw).2 := h.of_eq rfl rfl

theorem Memory.wf.drawBytes {n} (h : Memory.wf s) : Memory.wf (s.drawBytes n).2 := by
  induction n generalizing s with
  | zero => exact h
  | succ n ih => exact ih h.draw

theorem Memory.wf.setCore {p c} (h : Memory.wf s) : Memory.wf (s.setCore p c) := h.of_eq rfl rfl

theorem Memory.wf.upStg {f} (h : Memory.wf s) : Memory.wf (s.upStg f) := h.of_eq rfl rfl

theorem Memory.wf.upDram {f} (h : Memory.wf s) : Memory.wf (s.upDram f) := h.of_eq rfl rfl

theorem Memory.wf.upNvm {f} (h : Memory.wf s) : Memory.wf (s.upNvm f) := h.of_eq rfl rfl

theorem Memory.wf.upCore {p f} (h : Memory.wf s) : Memory.wf (s.upCore p f) := h.setCore

theorem Memory.wf.upPair {f} (h : Memory.wf s) : Memory.wf (s.upPair f) := h.of_eq rfl rfl

theorem Memory.wf.upBoot {f} (h : Memory.wf s) : Memory.wf (s.upBoot f) := h.of_eq rfl rfl

theorem Memory.wf.setDom {d c} (h : Memory.wf s) : Memory.wf (s.setDom d c) := h.of_eq rfl rfl

/-! ### Machine/Cue.lean -/

theorem Memory.wf.setOvr {k} (h : Memory.wf s) : Memory.wf (setOvr s k) := .ite h.setBit h.setBit

theorem Memory.wf.cueArrive {t} (h : Memory.wf s) : Memory.wf (cueArrive s t) := by
  refine .ite ?_ (h.of_eq rfl rfl)
  split
  · exact h.setOvr
  · exact h.setBit
  · exact h

theorem Memory.wf.emitChan {c} (h : Memory.wf s) : Memory.wf (emitChan s c) :=
  have h₁ : Memory.wf _ := .foldl h.setBit fun _ _ hu => hu.cueArrive
  .ite (h₁.of_eq rfl rfl) h₁

theorem Memory.wf.emitProducer {f i} (h : Memory.wf s) : Memory.wf (emitProducer s f i) :=
  .foldl h fun _ _ hu => .foldl hu fun _ _ hv => .ite hv.emitChan hv

theorem Memory.wf.emitWatermark {q} (h : Memory.wf s) : Memory.wf (emitWatermark s q) :=
  .ite (.ite h.emitChan h) (.ite h.emitProducer (.ite h.emitProducer h))

theorem Memory.wf.event {evt ien b f i} (h : Memory.wf s) : Memory.wf (s.event evt ien b f i) := .ite h (.when h.setBit fun _ hu => hu.emitProducer)

/-! ### Machine/Faultlog.lean -/

theorem Memory.wf.fltEvent {b} (h : Memory.wf s) : Memory.wf (fltEvent s b) := h.event

theorem Memory.wf.logFault {cls init detail flags loc} (h : Memory.wf s) : Memory.wf (logFault s cls init detail flags loc) :=
  .fltEvent (.when h.wr.wr.wr.wr.setFld.bump fun _ hu => hu.bump.fltEvent)

theorem Memory.wf.curtainViolation {who addr write} (h : Memory.wf s) : Memory.wf (curtainViolation s who addr write) :=
  .logFault (.bump (.ite h h.wr.wr))

theorem Memory.wf.correctable {cls who reg hi lo loc} (h : Memory.wf s) : Memory.wf (correctable s cls who reg hi lo loc) :=
  .when h.bump fun _ hu => hu.logFault

/-! ### Machine/Wake.lean -/

theorem Memory.wf.upPwr {f} (h : Memory.wf s) : Memory.wf (s.upPwr f) := h.of_eq rfl rfl

theorem Memory.wf.upRtc {f} (h : Memory.wf s) : Memory.wf (s.upRtc f) := h.of_eq rfl rfl

theorem Memory.wf.pwrEvent {b} (h : Memory.wf s) : Memory.wf (pwrEvent s b) := h.event

theorem Memory.wf.setPwr {st ph} (h : Memory.wf s) : Memory.wf (setPwr s st ph) := h.setFld.setFld

theorem Memory.wf.showWaiting (h : Memory.wf s) : Memory.wf (showWaiting s) := h.setFld

theorem Memory.wf.setHold {v} (h : Memory.wf s) : Memory.wf (setHold s v) := h.setBit

theorem Memory.wf.startExit {b toRun replay} (h : Memory.wf s) : Memory.wf (startExit s b toRun replay) := h.setFld.setBit.bump.setPwr.upPwr

theorem Memory.wf.wakeEvent {b} (h : Memory.wf s) : Memory.wf (wakeEvent s b) := by
  refine .ite h ?_
  dsimp only
  split
  · exact h.setBit.pwrEvent.setPwr.upPwr.setHold.showWaiting
  · exact h.setBit.upPwr
  · exact .ite h.setBit.upPwr h.setBit
  · exact .ite h.setBit.startExit (.ite h.setBit.startExit h.setBit)

/-! ### Machine/Scene.lean -/

theorem Memory.wf.clearRange {a n} (h : Memory.wf s) : Memory.wf (s.clearRange a n) := ⟨sparseWf_filter _ _ _ h.1, h.2⟩

theorem Memory.wf.zeroRange {a n} (h : Memory.wf s) : Memory.wf (s.zeroRange a n) := .ite h.clearRange h.setBytes

theorem Memory.wf.dramValidate {f} (h : Memory.wf s) : Memory.wf (dramValidate s f) := .ite h h.clearRange.upDram

theorem Memory.wf.touch {a} (h : Memory.wf s) : Memory.wf (touch s a) := by
  unfold Machine.touch
  split
  · exact .ite (.ite h.wakeEvent h.setDom) (.ite h.wakeEvent h)
  · exact .ite h.bump h

theorem Memory.wf.loseReservations {who a n} (h : Memory.wf s) : Memory.wf (loseReservations s who a n) := h.of_eq rfl rfl

theorem Memory.wf.injDisarm (h : Memory.wf s) : Memory.wf (injDisarm s) := h.setBit

theorem Memory.wf.readFault {cls who detail flags loc} (h : Memory.wf s) : Memory.wf (readFault s cls who detail flags loc) :=
  .logFault (.ite h.setBit.upCore h)

theorem Memory.wf.eccCount {a ue} (h : Memory.wf s) : Memory.wf (eccCount s a ue) := by
  unfold Machine.eccCount
  dsimp only
  split
  · exact .when h.bump.wr fun _ hu => hu.setBit
  · exact h.bump.wr
  · exact h

theorem Memory.wf.injRead {who a n} (h : Memory.wf s) : Memory.wf (injRead s who a n).2 := by
  unfold Machine.injRead
  dsimp only
  split
  · exact h.injDisarm.eccCount.correctable
  · exact h.injDisarm.eccCount.readFault
  · exact h

theorem Memory.wf.setPte {a e} (h : Memory.wf s) : Memory.wf (setPte s a e) := by
  unfold Machine.setPte
  split
  · exact h.st.upStg
  · exact h

theorem Memory.wf.setAccessed {a} (h : Memory.wf s) : Memory.wf (setAccessed s a) := by
  unfold Machine.setAccessed
  split
  · exact h.st
  · exact h

theorem Memory.wf.setWhere {who a e hit} (h : Memory.wf s) : Memory.wf (setWhere s who a e hit) := h.upStg

theorem Memory.wf.noteWrite {who a n} (h : Memory.wf s) : Memory.wf (noteWrite s who a n) := .ite h.upStg h

theorem Memory.wf.noteRead {who a n} (h : Memory.wf s) : Memory.wf (noteRead s who a n) := .ite h.upStg h

theorem Memory.wf.zeroRefill {a} (h : Memory.wf s) : Memory.wf (zeroRefill s a) := by
  unfold Machine.zeroRefill
  refine .ite ?_ h
  split
  · exact h.setPte.clearRange.upStg
  · exact h

theorem Memory.wf.walkRead {who a e} (h : Memory.wf s) : Memory.wf (walkRead s who a e) := by
  unfold Machine.walkRead
  split
  · dsimp only
    split
    · exact h.injDisarm.correctable
    · exact h.injDisarm.logFault
    · split
      · exact h
      · exact h.correctable
      · exact h.logFault
  · exact h

theorem Memory.wf.translate {who acc a acl ecc} (h : Memory.wf s) : Memory.wf (translate s who acc a acl ecc).2 := by
  refine .ite_snd h.setWhere ?_
  dsimp only
  split
  · exact .setWhere (.ite h.zeroRefill h.zeroRefill.setAccessed.upStg)
  · exact .ite_snd h.zeroRefill.walkRead.setAccessed.upStg.setWhere h.zeroRefill.walkRead.setWhere

theorem Memory.wf.pageFault {who cls a phys} (h : Memory.wf s) : Memory.wf (pageFault s who cls a phys) := by
  unfold Machine.pageFault
  dsimp only
  split
  · exact h.upStg.setPte.logFault
  · exact h.upStg.setPte.logFault

/-! ### Machine/Path.lean -/

theorem Memory.wf.migAbort {c reason} (h : Memory.wf s) : Memory.wf (migAbort s c reason) := h.setPte.setFld.setFld

theorem Memory.wf.migAbortIf {reason p} (h : Memory.wf s) : Memory.wf (migAbortIf s reason p) := .foldl h fun _ _ hu => .ite hu.migAbort hu

theorem Memory.wf.freezePages (h : Memory.wf s) : Memory.wf (freezePages s) := by
  refine .foldl h.setBit.upStg.migAbortIf fun _ _ hu => ?_
  dsimp only
  split
  · exact .ite hu.setPte (.ite hu.setPte hu)
  · exact hu

theorem Memory.wf.setRefreshCredit {c d} (h : Memory.wf s) : Memory.wf (setRefreshCredit s c d) := h.setFld

theorem Memory.wf.selfRefreshExit (h : Memory.wf s) : Memory.wf (selfRefreshExit s) := h.setRefreshCredit.setRefreshCredit.upDram.setBit.setDom

theorem Memory.wf.sceneTouch {ph} (h : Memory.wf s) : Memory.wf (sceneTouch s ph) := .ite (.ite h.selfRefreshExit h.wakeEvent) h

theorem Memory.wf.setSyn {w x} (h : Memory.wf s) : Memory.wf (setSyn s w x) := h.upDram

theorem Memory.wf.dramFreeze {who a raw op syn} (h : Memory.wf s) : Memory.wf (dramFreeze s who a raw op syn) :=
  .ite h h.setFld.setBit.wr.wr.wr.wr.wr.logFault.freezePages

theorem Memory.wf.dramReadWord {who a op p} (h : Memory.wf s) : Memory.wf (dramReadWord s who a op p).2 :=
  .ite_snd h (.ite_snd h.injDisarm.bump.wr (.ite_snd h.injDisarm.dramFreeze (.ite_snd h (.ite_snd h.bump (.ite_snd (.setSyn (.wr (.bump (.ite
      h.setByte h)))) h.dramFreeze)))))

theorem Memory.wf.dramOpenRow {a} (h : Memory.wf s) : Memory.wf (dramOpenRow s a) := h.upDram

theorem Memory.wf.dramRead {who a n} (h : Memory.wf s) : Memory.wf (dramRead s who a n).2 :=
  .foldl_snd h fun _ _ hu => .ite_snd hu.dramOpenRow.dramReadWord hu

theorem Memory.wf.mramPerform {e} (h : Memory.wf s) : Memory.wf (mramPerform s e) := .upNvm (.foldl h fun _ _ hu => hu.setByte)

theorem Memory.wf.mramWrite {a bs} (h : Memory.wf s) : Memory.wf (mramWrite s a bs) := by
  refine .ite (.setBit (.ite h.upNvm (.upNvm ?_))) (.setBit (.setBytes ?_))
  · split
    · exact .ite h.mramPerform h
    · exact h
  · split
    · exact h.mramPerform
    · exact h

theorem Memory.wf.dramWrite {who a bs p} (h : Memory.wf s) : Memory.wf (dramWrite s who a bs p).2 :=
  .foldl_snd h fun _ _ hu => .ite_snd hu (.ite_snd hu.dramOpenRow.dramValidate.setBytes.upDram (.ite_snd
      hu.dramOpenRow.dramReadWord.dramValidate.setBytes hu.dramOpenRow.dramReadWord))

theorem Memory.wf.markDirty {a n} (h : Memory.wf s) : Memory.wf (markDirty s a n) := h.upStg

theorem Memory.wf.performWrite {who a bs p} (h : Memory.wf s) : Memory.wf (performWrite s who a bs p).2 := by
  refine .ite_snd ?_ (.loseReservations (.markDirty ?_))
  · split
    · exact .foldl h.touch fun _ _ hu => hu.mramWrite
    · exact h.touch.dramWrite
    · exact h.touch.setBytes
  · split
    · exact .foldl h.touch fun _ _ hu => hu.mramWrite
    · exact h.touch.dramWrite
    · exact h.touch.setBytes

theorem Memory.wf.physRead {who a n} (h : Memory.wf s) : Memory.wf (physRead s who a n).2 :=
  .ite_snd h.touch (.ite_snd h.dramRead (.ite_snd h.injRead.touch h.injRead.touch))

theorem Memory.wf.physWrite {who a bs} (h : Memory.wf s) : Memory.wf (physWrite s who a bs).2 := .ite_snd h.touch h.performWrite

theorem Memory.wf.memRefused (h : Memory.wf s) : Memory.wf (memRefused s) := h.bump

theorem Memory.wf.framedRead {who a ph n sec} (h : Memory.wf s) : Memory.wf (framedRead s who a ph n sec).2 := by
  refine .ite_snd ?_ h.sceneTouch.physRead
  split
  · exact h.sceneTouch.memRefused
  · dsimp only
    split
    next _ _ e => exact h.sceneTouch.physRead.of_snd e
    · exact h.sceneTouch.physRead

theorem Memory.wf.mappedRead {who a ph n sec} (h : Memory.wf s) : Memory.wf (mappedRead s who a ph n sec).2 := by
  refine .ite_snd ?_ h.framedRead
  dsimp only
  split
  · exact h.injDisarm.eccCount.pageFault.framedRead
  · exact h.injDisarm.eccCount.pageFault

theorem Memory.wf.mappedWrite {who a ph bs sec} (h : Memory.wf s) : Memory.wf (mappedWrite s who a ph bs sec).2 := by
  refine .ite_snd ?_ h.sceneTouch.physWrite
  split
  · exact h.sceneTouch.memRefused
  · refine .ite_snd h.sceneTouch.physWrite ?_
    split
    next _ _ e => exact (h.sceneTouch.physRead.of_snd e).physWrite
    next _ e => exact h.sceneTouch.physRead.of_snd e

theorem Memory.wf.copyWrite {who a ph cp bs sec} (h : Memory.wf s) : Memory.wf (copyWrite s who a ph cp bs sec).2 := by
  refine .ite_snd h.mappedWrite ?_
  split
  · exact h.mappedWrite.mappedWrite
  · exact h.mappedWrite

theorem Memory.wf.zeroPage {a ph sec} (h : Memory.wf s) : Memory.wf (zeroPage s a ph sec) := by
  refine .ite h.mappedWrite ?_
  split
  · exact h.dramValidate.upDram.zeroRange
  · exact h.upNvm.zeroRange
  · exact h.zeroRange

theorem Memory.wf.copyRange {who a src dst n sec} (h : Memory.wf s) : Memory.wf (copyRange s who a src dst n sec).2 := by
  unfold Machine.copyRange
  dsimp only
  split
  next _ e => exact h.mappedRead.of_snd e
  next _ _ e =>
    have h₁ := h.mappedRead.of_snd e
    exact .ite_snd h₁ h₁.mappedWrite

theorem Memory.wf.engineRead {who a n acl} (h : Memory.wf s) : Memory.wf (engineRead s who a n acl).2 := by
  refine .foldl_snd h fun _ _ hu => ?_
  split
  · exact hu
  · refine .ite_snd ?_ (.ite_snd hu.curtainViolation ?_)
    · split
      next _ _ _ _ e =>
        have h₁ := hu.translate.of_snd e
        split
        next _ _ e => exact h₁.mappedRead.of_snd e
        next _ e => exact h₁.mappedRead.of_snd e
      next _ e => exact (hu.translate.of_snd e).curtainViolation
      next _ _ e => exact hu.translate.of_snd e
    · split
      next _ _ e => exact hu.physRead.of_snd e
      next _ e => exact hu.physRead.of_snd e

theorem Memory.wf.engineWrite {who a bs acl} (h : Memory.wf s) : Memory.wf (engineWrite s who a bs acl).2 := by
  refine List.foldlRecOn (motive := fun r : Bool × State × Nat => Memory.wf r.2.1) _ _ h fun r hr p _ => ?_
  split
  · exact hr
  · dsimp only
    split
    · split
      next _ _ _ _ e => exact (hr.translate.of_snd e).copyWrite
      next _ e => exact (hr.translate.of_snd e).curtainViolation
      next _ _ e => exact hr.translate.of_snd e
    · split
      · exact hr.curtainViolation
      · exact hr.physWrite

/-! ### Machine/Queue.lean -/

theorem Memory.wf.qSetCount {q n} (h : Memory.wf s) : Memory.wf (qSetCount s q n) := .when h.setFld.setBit.setBit.setBit fun _ hu => hu.emitWatermark

theorem Memory.wf.qSetHeld {q n} (h : Memory.wf s) : Memory.wf (qSetHeld s q n) := h.setFld.setBit

theorem Memory.wf.qSkipHead {q n} (h : Memory.wf s) : Memory.wf (qSkipHead s q n) := by
  induction n generalizing s with
  | zero => exact h
  | succ n ih => exact .ite (ih h.setFld) h

theorem Memory.wf.qMoveFree {q n} (h : Memory.wf s) : Memory.wf (qMoveFree s q n) := by
  induction n generalizing s with
  | zero => exact h
  | succ n ih => exact .ite (ih h.upStg.setFld) h

theorem Memory.wf.qFreeSlot {q slot} (h : Memory.wf s) : Memory.wf (qFreeSlot s q slot) := h.upStg.qSkipHead.qMoveFree.setBit

theorem Memory.wf.qDrop {q} (h : Memory.wf s) : Memory.wf (qDrop s q) := h.bump

theorem Memory.wf.qSetTag {q slot who} (h : Memory.wf s) : Memory.wf (qSetTag s q slot who) := .ite h.upStg h

theorem Memory.wf.qClearPending {q entry} (h : Memory.wf s) : Memory.wf (qClearPending s q entry) := .ite (.foldl h fun _ _ hu => .ite hu.setBit hu) h

theorem Memory.wf.qRead {q i} (h : Memory.wf s) : Memory.wf (qRead s q i).2 := by
  unfold Machine.qRead
  split
  next _ _ e => exact h.engineRead.of_snd e
  next _ e => exact h.engineRead.of_snd e

theorem Memory.wf.qDiscard {q w} (h : Memory.wf s) : Memory.wf (qDiscard s q w) := by
  refine .qDrop (.setFld (.setFld ?_))
  split
  · exact h.qClearPending
  · exact h

theorem Memory.wf.qStore {q bs f} (h : Memory.wf s) (hf : ∀ x0 u, Memory.wf u → Memory.wf (f x0 u)) : Memory.wf (qStore s q bs f).2 := by
  refine .ite_snd h.qDrop ?_
  dsimp only
  split
  next _ e => exact h.engineWrite.of_snd e
  next _ e =>
    have h₁ := h.engineWrite.of_snd e
    exact .ite (.qMoveFree (.qSkipHead (hf _ _ (.setFld (.ite h₁.qDiscard h₁))))) (hf _ _ (.setFld (.ite h₁.qDiscard h₁)))

theorem Memory.wf.qAppend {q who bs} (h : Memory.wf s) :
    Memory.wf (qAppend s q who bs).2 :=
  .qStore h fun _ _ hu => .ite hu.qSetTag hu.qSetTag.qSetCount

theorem Memory.wf.qEnq {q who w} (h : Memory.wf s) : Memory.wf (qEnq s q who w).2 := .ite_snd h h.qAppend

theorem Memory.wf.qProduce {q who bs} (h : Memory.wf s) : Memory.wf (qProduce s q who bs).2 := .ite_snd h h.qAppend

theorem Memory.wf.qHandOut {q} (h : Memory.wf s) : Memory.wf (qHandOut s q) := .qSetCount (.qSkipHead (.ite h.setFld.qFreeSlot h.setFld.qSetHeld))

theorem Memory.wf.qDeq {q who} (h : Memory.wf s) : Memory.wf (qDeq s q who).2.2 := by
  refine .ite_snd_snd h (.ite_snd_snd h (.ite_snd_snd ?_ h.qHandOut))
  split
  next _ _ e => exact (h.qRead.of_snd e).qHandOut.qClearPending
  next _ e => exact h.qRead.of_snd e

theorem Memory.wf.qTake {q} (h : Memory.wf s) : Memory.wf (qTake s q).2 := by
  refine .ite_snd h ?_
  split
  next _ _ e => exact (h.qRead.of_snd e).qHandOut
  next _ e => exact h.qRead.of_snd e

theorem Memory.wf.qPeek {q} (h : Memory.wf s) : Memory.wf (qPeek s q).2 := .ite_snd h h.qRead

theorem Memory.wf.qRelease {q n} (h : Memory.wf s) : Memory.wf (qRelease s q n) := .foldl h fun _ _ hu => hu.qSetHeld.qFreeSlot

theorem Memory.wf.qAppendHeld {q bs} (h : Memory.wf s) : Memory.wf (qAppendHeld s q bs).2 :=
  .ite_snd h (.qStore h fun _ _ hu => hu.upStg.qSetHeld.qSetCount.qSkipHead)

theorem Memory.wf.qReleaseHeld {q slot} (h : Memory.wf s) : Memory.wf (qReleaseHeld s q slot) := .ite h.upStg.qSetHeld.qFreeSlot h

theorem Memory.wf.qLast {q c} (h : Memory.wf s) : Memory.wf (qLast s q c) := h.setFld

theorem Memory.wf.qPush {q who v} (h : Memory.wf s) : Memory.wf (qPush s q who v) :=
  .ite h.qLast (.ite h.qEnq.qLast (.ite (.ite h.qRelease.qLast h.qLast) h.qLast))

theorem Memory.wf.qPop {q who} (h : Memory.wf s) : Memory.wf (qPop s q who).2 := h.qDeq.qLast

theorem Memory.wf.qClear {q} (h : Memory.wf s) : Memory.wf (qClear s q) := by
  refine .upStg (.of_eq rfl rfl (.qSetCount (.wr (.wr (.foldl h fun _ _ hu => .ite ?_ hu)))))
  split
  next _ _ e => exact (hu.qRead.of_snd e).qClearPending
  next _ e => exact hu.qRead.of_snd e

theorem Memory.wf.qEnable {q v} (h : Memory.wf s) : Memory.wf (qEnable s q v) := .ite h.setBit.setBit.upStg h.setBit

theorem Memory.wf.qFlags {q} (h : Memory.wf s) : Memory.wf (qFlags s q) := h.setBit.setBit

theorem Memory.wf.qUnclear {q} (h : Memory.wf s) : Memory.wf (qUnclear s q) := h.upStg

theorem Memory.wf.qCfgWrite {q v} (h : Memory.wf s) : Memory.wf (qCfgWrite s q v) :=
  .ite h.setFld.qFlags.setBit (.qFlags (.ite (.qEnable (.wr (.ite (.qClear (.ite h.qUnclear h)) (.ite h.qUnclear h)))) (.wr (.ite (.qClear (.ite
      h.qUnclear h)) (.ite h.qUnclear h)))))

theorem Memory.wf.qBaseWrite {q a v t} (h : Memory.wf s) : Memory.wf (qBaseWrite s q a v t) := .ite h (.plainWrite (.ite h.qUnclear h))

/-! ### Machine/Stage.lean -/

theorem Memory.wf.bankOn {tier f} (h : Memory.wf s) : Memory.wf (bankOn s tier f) := .ite h.setDom h

theorem Memory.wf.mapPtes {r f} (h : Memory.wf s) : Memory.wf (mapPtes s r f) := .foldl h fun _ _ hu => hu.setPte

theorem Memory.wf.setRegion {r} (h : Memory.wf s) : Memory.wf (setRegion s r) := h.upStg

theorem Memory.wf.takeRequest {q} (h : Memory.wf s) : Memory.wf (takeRequest s q).2 := by
  unfold Machine.takeRequest
  split
  next _ e => exact h.qTake.of_snd e
  next _ _ _ _ e =>
    have h₁ := h.qTake.of_snd e
    refine .ite_snd h₁.setBit ?_
    split
    next _ e => exact (h₁.engineRead.of_snd e).setBit
    next _ _ e => exact h₁.engineRead.of_snd e

theorem Memory.wf.answerRequest {r y} (h : Memory.wf s) : Memory.wf (answerRequest s r y) :=
  .when (.when h.engineWrite.engineWrite fun _ hu => hu.setBit) fun _ hu => hu.qEnq

theorem Memory.wf.serveRequest {done p f} (h : Memory.wf s) (hf : ∀ u x1, Memory.wf u → Memory.wf (f u x1).2) :
    Memory.wf (serveRequest s done p f) := by
  unfold Machine.serveRequest
  split
  · exact h
  · split
    · exact h
    · refine .ite ?_ h
      split
      next _ e => exact h.takeRequest.of_snd e
      next _ _ e => exact (hf _ _ (h.takeRequest.of_snd e)).answerRequest

theorem Memory.wf.allocProp {q base index acl fs tables} (h : Memory.wf s) : Memory.wf (allocProp s q base index acl fs tables).2 := by
  refine .ite_snd h (.ite_snd h ?_)
  dsimp only
  split
  · exact .upStg (.foldl (.wr (.foldl h fun _ _ hu => hu.st)) fun _ _ hu => hu.bankOn.zeroPage.setPte)
  · exact h

theorem Memory.wf.freeProp {q} (h : Memory.wf s) : Memory.wf (freeProp s q).2 := by
  unfold Machine.freeProp
  split
  · exact h
  · exact .ite_snd h h.migAbortIf.mapPtes.upStg

theorem Memory.wf.hintProp {q} (h : Memory.wf s) : Memory.wf (hintProp s q).2 := by
  unfold Machine.hintProp
  split
  · exact h
  · exact h.setRegion

theorem Memory.wf.pinProp {q} (h : Memory.wf s) : Memory.wf (pinProp s q).2 := by
  unfold Machine.pinProp
  split
  · exact h
  · exact .ite_snd h h.setRegion

theorem Memory.wf.unpinProp {q} (h : Memory.wf s) : Memory.wf (unpinProp s q).2 := by
  unfold Machine.unpinProp
  split
  · exact h
  · exact h.setRegion

theorem Memory.wf.queryProp {q} (h : Memory.wf s) : Memory.wf (queryProp s q).2 := by
  unfold Machine.queryProp
  split
  · exact h
  · exact .ite h.setRegion h

theorem Memory.wf.sealProp {q} (h : Memory.wf s) : Memory.wf (sealProp s q).2 := by
  unfold Machine.sealProp
  split
  · exact h
  · dsimp only
    exact h.setRegion.mapPtes

theorem Memory.wf.movePage {p tier f} (h : Memory.wf s) : Memory.wf (movePage s p tier f).2 := .ite_snd h.bankOn.copyRange.setPte h.bankOn.copyRange

theorem Memory.wf.unsealProp {q fs} (h : Memory.wf s) : Memory.wf (unsealProp s q fs).2 := by
  unfold Machine.unsealProp
  split
  · exact h
  · refine .ite_snd h ?_
    dsimp only
    exact .mapPtes (.setRegion (.foldl h fun _ _ hu => hu.movePage))

theorem Memory.wf.setDescState {d w} (h : Memory.wf s) : Memory.wf (setDescState s d w) := h.engineWrite

theorem Memory.wf.wdRestart {p} (h : Memory.wf s) : Memory.wf (wdRestart s p) := h.setFld

theorem Memory.wf.clearTrigger {d} (h : Memory.wf s) : Memory.wf (clearTrigger s d) := .foldl h fun _ _ hu => .ite hu.setBit hu

theorem Memory.wf.doneTask {q} (h : Memory.wf s) : Memory.wf (doneTask s q).2 := by
  unfold Machine.doneTask
  split
  · exact .dite_snd (fun _ => .ite_snd h.setDescState.upStg.clearTrigger.wdRestart h) (fun _ => h)
  · exact h

theorem Memory.wf.assignTask {src d p} (h : Memory.wf s) : Memory.wf (assignTask s src d p) := by
  refine .wdRestart (.wr (.upStg (.setDescState ?_)))
  split
  · exact h.upStg
  · exact h.qHandOut

theorem Memory.wf.dispatchRun (h : Memory.wf s) : Memory.wf (dispatchRun s) := by
  refine .ite (.foldl h fun _ _ hu => ?_) h
  split
  · exact hu
  · split
    · exact hu
    · exact hu.assignTask

theorem Memory.wf.playerFault {p} (h : Memory.wf s) : Memory.wf (playerFault s p) :=
  .ite h (.ite h.setBit.upStg.setDescState.upStg h.setBit.upStg.setDescState.clearTrigger.setBit.logFault)

theorem Memory.wf.stageTrigger {k} (h : Memory.wf s) : Memory.wf (stageTrigger s k) :=
  .ite (.ite h.bump.setOvr (.ite h.qEnq.setBit h.qEnq.bump.setOvr)) h

/-! ### Machine/Otp.lean -/

theorem Memory.wf.upKeys {f} (h : Memory.wf s) : Memory.wf (s.upKeys f) := h.of_eq rfl rfl

theorem Memory.wf.otpBurn {a bs} (h : Memory.wf s) : Memory.wf (s.otpBurn a bs) := by
  induction bs generalizing s a with
  | nil => exact h
  | cons b bs ih => exact ih h.upKeys

theorem Memory.wf.burnFuse {i} (h : Memory.wf s) : Memory.wf (burnFuse s i) := h.otpBurn.wr.setBit

theorem Memory.wf.burnRoot {area k} (h : Memory.wf s) : Memory.wf (burnRoot s area k) := h.otpBurn.otpBurn

theorem Memory.wf.ownerStat (h : Memory.wf s) : Memory.wf (ownerStat s) := h.wr

theorem Memory.wf.keyBoot (h : Memory.wf s) : Memory.wf (keyBoot s) := h.setBit.wr.setBit.ownerStat

theorem Memory.wf.otpCut (h : Memory.wf s) : Memory.wf (otpCut s) := by
  unfold Machine.otpCut
  split
  · exact h
  · dsimp only
    split
    · exact .ite h.otpBurn h
    · exact .ite (.otpBurn (h.of_eq rfl rfl)) (h.of_eq rfl rfl)
    · exact .ite (.burnFuse (h.of_eq rfl rfl)) (h.of_eq rfl rfl)
    · exact .ite (.burnFuse (h.of_eq rfl rfl)) (h.of_eq rfl rfl)

/-! ### Machine/Reset.lean -/

theorem Memory.wf.tearBurst {f} (h : Memory.wf s) : Memory.wf (tearBurst s f) := h.drawBytes.setBytes.upNvm

theorem Memory.wf.cutProgram {f} (h : Memory.wf s) : Memory.wf (cutProgram s f) := .ite h.tearBurst.drawBytes.setBytes h.tearBurst

theorem Memory.wf.halfErase {f} (h : Memory.wf s) : Memory.wf (halfErase s f) := by
  unfold Machine.halfErase
  exact h.drawBytes.setBytes.upNvm

theorem Memory.wf.flashCut (h : Memory.wf s) : Memory.wf (flashCut s) := by
  unfold Machine.flashCut
  dsimp only
  split
  · refine .halfErase ?_
    split
    · exact .ite h h.cutProgram
    · exact h
  · split
    · exact .ite h h.cutProgram
    · exact h

theorem Memory.wf.mainReset {cause power} (h : Memory.wf s) : Memory.wf (mainReset s cause power) := by
  obtain ⟨hmem, hregs⟩ := h.flashCut.otpCut
  unfold Machine.mainReset
  extract_lets s₁ old warm r pins t₁ d t₂ t₃ t₄
  have h₁ : Memory.wf t₁ := by
    refine ⟨?_, sparseWf_filter _ _ _ hregs⟩
    cases power with
    | false => exact hmem
    | true => exact sparseWf_filter _ _ _ hmem
  have h₂ : Memory.wf t₄ := .wr (.of_eq rfl rfl h₁)
  exact .ite h₂ h₂.setFld

theorem Memory.wf.startCore {p entry a0} (h : Memory.wf s) : Memory.wf (startCore s p entry a0) := h.setCore

theorem Memory.wf.enterCore {p} (h : Memory.wf s) : Memory.wf (enterCore s p) := .ite h.setCore h.startCore

theorem Memory.wf.playerReset {p} (h : Memory.wf s) : Memory.wf (playerReset s p) := .enterCore (.ite h.wdRestart.setBit.setBit.upPair h.wdRestart)

theorem Memory.wf.faultOf {p} (h : Memory.wf s) : Memory.wf (faultOf s p) := .dite (fun _ => h.playerFault) (fun _ => h)

theorem Memory.wf.warmRestart (h : Memory.wf s) : Memory.wf (warmRestart s) := by
  unfold Machine.warmRestart
  exact .ite h.logFault.mainReset h.logFault.bump.wdRestart.setCore.with_flt

theorem Memory.wf.coreFailure {p inj} (h : Memory.wf s) : Memory.wf (coreFailure s p inj) :=
  .ite h.playerReset.faultOf (.ite h.setBit.setBit.upCore.logFault h.warmRestart)

theorem Memory.wf.doubleFault {p inj} (h : Memory.wf s) : Memory.wf (doubleFault s p inj) := h.upCore.logFault.coreFailure

theorem Memory.wf.wdExpire {p inj} (h : Memory.wf s) : Memory.wf (wdExpire s p inj) := h.setFld.setBit.logFault.coreFailure

/-! ### Machine/Dram.lean -/

theorem Memory.wf.dramLowVbat (h : Memory.wf s) : Memory.wf (dramLowVbat s) := .ite h.setFld.setBit.freezePages h

theorem Memory.wf.dramCloseRows {c} (h : Memory.wf s) : Memory.wf (dramCloseRows s c) := h.upDram

theorem Memory.wf.fillAgain (h : Memory.wf s) : Memory.wf (fillAgain s) := h.setBit.wr

theorem Memory.wf.dramPowerUp (h : Memory.wf s) : Memory.wf (dramPowerUp s) := .ite h h.setDom.setBit.upDram

theorem Memory.wf.dramsysOff (h : Memory.wf s) : Memory.wf (dramsysOff s) := h.clearRange.resetRegs.of_eq rfl rfl

theorem Memory.wf.selfRefreshEnter (h : Memory.wf s) : Memory.wf (selfRefreshEnter s) :=
  .setDom (.setBit (.upDram (.foldl h.setFld fun _ _ hu => .ite hu.setRefreshCredit hu)))

theorem Memory.wf.execDramAccess {who a data p} (h : Memory.wf s) : SoundNext (execDramAccess who a data p s) := by
  refine .ite (.next h.touch) ?_
  split
  · exact .next h.dramOpenRow.dramReadWord
  · exact .next h.performWrite

theorem Memory.wf.execDramTrainingDone {failStep} (h : Memory.wf s) : SoundNext (execDramTrainingDone failStep s) :=
  .ite (.next h.setBit.setFld.setBit.upDram.setBit.setFld.setBit.setBit.wr) (.next h)

theorem Memory.wf.execDramBackgroundFill (h : Memory.wf s) : SoundNext (execDramBackgroundFill s) :=
  .ite (.ite (.next h.dramValidate.setFld) (.next h.dramValidate.setFld.setBit)) (.next h)

theorem Memory.wf.execPatrolScrubRead {p} (h : Memory.wf s) : SoundNext (execPatrolScrubRead p s) :=
  .ite (.next (.upDram (.ite h.dramOpenRow.dramReadWord h))) (.next h)

theorem Memory.wf.execDramSpeedSwitchDone (h : Memory.wf s) : SoundNext (execDramSpeedSwitchDone s) := .ite (.next h.upDram.setBit) (.next h)

theorem Memory.wf.execDramRetrainDone {failStep} (h : Memory.wf s) : SoundNext (execDramRetrainDone failStep s) :=
  .ite (.next h.setBit.setFld.setBit) (.next h)

theorem Memory.wf.execRefreshDue {c idle} (h : Memory.wf s) : SoundNext (execRefreshDue c idle s) :=
  .ite (.next h) (.ite (.next h.setRefreshCredit.dramCloseRows.bump) (.ite (.next h.setRefreshCredit.dramCloseRows) (.next h.setRefreshCredit)))

theorem Memory.wf.execRefreshPullIn {c} (h : Memory.wf s) :
    SoundNext (execRefreshPullIn c s) :=
  .ite (.next h.setRefreshCredit.dramCloseRows) (.next h)

theorem Memory.wf.execMr4Poll {code0 code1} (h : Memory.wf s) : SoundNext (execMr4Poll code0 code1 s) :=
  .next (.when (.when h.setFld.setFld fun _ hu => hu.logFault) fun _ hu => hu.logFault)

theorem Memory.wf.pushPoison {f} (h : Memory.wf s) : Memory.wf (pushPoison s f) := .ite h.upDram h.upDram

theorem Memory.wf.execScrubReleaseDone {bad} (h : Memory.wf s) : SoundNext (execScrubReleaseDone bad s) :=
  .ite (.next (.setBit (.wr (.setBit (.upDram (.foldl (.foldl h fun _ _ hu => hu.dramReadWord) fun _ _ hu => hu.setSyn.pushPoison)))))) (.next h)

theorem Memory.wf.clearCapture (h : Memory.wf s) : Memory.wf (clearCapture s) := .foldl h fun _ _ hu => hu.wr

theorem Memory.wf.dmcRelease {mode} (h : Memory.wf s) : Memory.wf (dmcRelease s mode) := by
  refine .ite h (.ite h ?_)
  split
  · exact h.clearCapture.wr.setBit
  · exact h.upDram.setBit
  · exact h.upDram.clearCapture.setBit.setBit
  · exact h

theorem Memory.wf.ch1Write {off} (h : Memory.wf s) : Memory.wf (ch1Write s off) :=
  .ite h.setBit (.ite h.setBit.setBit.upDram (.ite h.setBit.setBit.setBit.fillAgain h.setBit.setBit))

theorem Memory.wf.dmcCtrlWrite {v} (h : Memory.wf s) : Memory.wf (dmcCtrlWrite s v) :=
  .when (.ch1Write (.ite h.setBit.setBit.setBit h.setBit)) fun _ hu => hu.setBit

theorem Memory.wf.dmcMapWrite {v} (h : Memory.wf s) : Memory.wf (dmcMapWrite s v) := .ite h.setBit (.setBit (.setFld (.ite h.upDram.fillAgain h)))

theorem Memory.wf.dmcDiag {v} (h : Memory.wf s) : Memory.wf (dmcDiag s v) :=
  .ite h (.ite h.setFld (.ite h.setFld.wr.wr.wr (.ite h.setFld.dramValidate.setBytes.setSyn h.setFld.dramValidate.setSyn)))

theorem Memory.wf.poisonPop (h : Memory.wf s) : Memory.wf (poisonPop s).2 := by
  unfold Machine.poisonPop
  split
  · exact h.upDram
  · exact h

/-! ### Machine/Keys.lean -/

theorem Memory.wf.otpRun {w ok} (h : Memory.wf s) : Memory.wf (otpRun s w ok).2 := by
  refine .ite_snd h ?_
  split
  · exact .ite_snd h (.ite_snd h (.ite_snd h.otpBurn.otpBurn.ownerStat h.otpBurn.ownerStat))
  · exact .ite_snd h (.ite_snd h (.ite_snd h.otpBurn.ownerStat h))
  · exact .ite_snd h (.ite_snd h (.ite_snd h.burnFuse h))
  · exact .ite_snd h (.ite_snd h.burnFuse h)
  · exact h

theorem Memory.wf.otpCmdWrite {v} (h : Memory.wf s) : Memory.wf (otpCmdWrite s v) := .ite h h.setBit.upKeys

theorem Memory.wf.execOtpCommandDone {ok} (h : Memory.wf s) : SoundNext (execOtpCommandDone ok s) := by
  unfold Machine.execOtpCommandDone
  split
  · exact .next h
  · exact .next h.otpRun.setFld.setBit.upKeys

theorem Memory.wf.slotKey {n} (h : Memory.wf s) : Memory.wf (slotKey s n).2 := h.upKeys

theorem Memory.wf.slotWriteWords {n words r} (h : Memory.wf s) :
    Memory.wf (slotWriteWords s n words r) :=
  .upKeys (.foldl h fun _ _ hu => hu.mramWrite)

theorem Memory.wf.slotCount {n} (h : Memory.wf s) : Memory.wf (slotCount s n) := h.mramWrite

theorem Memory.wf.slotFresh {n key arg0 limit written} (h : Memory.wf s) : Memory.wf (slotFresh s n key arg0 limit written).2 := h.drawBytes

theorem Memory.wf.drawScalar (h : Memory.wf s) : Memory.wf (drawScalar s).2 := h.drawBytes

theorem Memory.wf.identSign {m} (h : Memory.wf s) : Memory.wf (identSign s m).2 := h.drawScalar

theorem Memory.wf.attest {n addr} (h : Memory.wf s) : Memory.wf (attest s n addr) := by
  unfold Machine.attest
  split
  next _ _ e =>
    dsimp only
    exact (h.slotKey.of_snd e).identSign.performWrite

theorem Memory.wf.signId {addr} (h : Memory.wf s) : Memory.wf (signId s addr) := by
  unfold Machine.signId
  split
  next _ _ e => exact (h.identSign.of_snd e).performWrite

theorem Memory.wf.rekey {root} (h : Memory.wf s) : Memory.wf (rekey s root) := h.upKeys.wrWords.wr.wr.setBit.setBit

theorem Memory.wf.slotCommand {c} (h : Memory.wf s) : Memory.wf (slotCommand s c).2.2 := by
  unfold Machine.slotCommand
  extract_lets n
  split
  · refine .ite_snd_snd h (.ite_snd_snd h ?_)
    split
    next _ _ e =>
      split
      next _ _ e₂ => exact (h.drawBytes.of_snd e).slotFresh.of_snd e₂
  · refine .ite_snd_snd h (.ite_snd_snd h ?_)
    split
    next _ _ e => exact h.slotFresh.of_snd e
  · refine .ite_snd_snd h (.ite_snd_snd h (.ite_snd_snd h (.ite_snd_snd h ?_)))
    split
    next _ _ e =>
      split
      next _ _ e₂ => exact (h.slotCount.slotKey.of_snd e).slotFresh.of_snd e₂
  · exact h
  · split
    · exact h
    · exact h
    · exact h
    · split
      · exact h
      · exact h

theorem Memory.wf.keyRun {c err} (h : Memory.wf s) : Memory.wf (keyRun s c err).2 := by
  unfold Machine.keyRun
  dsimp only
  split
  · exact h
  · refine .ite_snd h (.ite_snd (.ite_snd h (.ite_snd h h.rekey)) (.ite_snd h (.ite_snd (.ite_snd h (.ite_snd h h.signId)) (.ite_snd h (.ite_snd
        (.ite_snd h ?_) ?_)))))
    · split
      · exact h
      · exact h
      · exact h
      · exact .ite_snd h (.ite_snd h h.attest)
    · split
      next _ _ e => exact (h.slotCommand.of_snd_snd e).slotWriteWords
      next _ _ _ e => exact h.slotCommand.of_snd_snd e

theorem Memory.wf.keyCmdWrite {v} (h : Memory.wf s) : Memory.wf (keyCmdWrite s v) := .ite h.setBit (.ite h h.setBit.setBit.upKeys)

theorem Memory.wf.keyEnd {c res} (h : Memory.wf s) : Memory.wf (keyEnd s c res) := .upKeys (.setBit (.setFld (.ite h.resetRegs h)))

theorem Memory.wf.execKeyCommandDone {err} (h : Memory.wf s) : SoundNext (execKeyCommandDone err s) := by
  unfold Machine.execKeyCommandDone
  split
  · exact .next h
  · exact .next h.keyRun.keyEnd

theorem Memory.wf.alarmWrite {v} (h : Memory.wf s) : Memory.wf (alarmWrite s v) := .ite h.plainWrite h.plainWrite.setFld.upKeys

/-! ### Machine/Flash.lean -/

theorem Memory.wf.setLive {k v} (h : Memory.wf s) : Memory.wf (setLive s k v) := h.setBit

theorem Memory.wf.moveOpen {old new seq} (h : Memory.wf s) : Memory.wf (moveOpen s old new seq) := h.upNvm

theorem Memory.wf.mramFlush (h : Memory.wf s) : Memory.wf (mramFlush s) := .setBit (.upNvm (.foldl h fun _ _ hu => hu.mramPerform))

theorem Memory.wf.writeRecord {k body} (h : Memory.wf s) : Memory.wf (writeRecord s k body) := h.setBytes.setBytes

theorem Memory.wf.moveForward (h : Memory.wf s) : Memory.wf (moveForward s) := by
  unfold Machine.moveForward
  refine .ite ?_ h.mramFlush
  split
  · exact h.mramFlush.writeRecord.wr.setLive.setLive.moveOpen
  · exact h.mramFlush

theorem Memory.wf.journalWrite {type slot sector off len value desc} (h : Memory.wf s) :
    Memory.wf (journalWrite s type slot sector off len value desc).2.2 :=
  h.moveForward.writeRecord.setFld.wr

theorem Memory.wf.journalOpen {type slot sector off len value desc} (h : Memory.wf s) :
    Memory.wf (journalOpen s type slot sector off len value desc).2.2 :=
  h.journalWrite.setLive

theorem Memory.wf.retireCloses {sector} (h : Memory.wf s) : Memory.wf (retireCloses s sector) := .foldl h fun _ _ hu => .ite hu.setLive hu

theorem Memory.wf.setFlcState {x} (h : Memory.wf s) : Memory.wf (setFlcState s x) := h.setFld

theorem Memory.wf.finishDesc {a status detail jseq} (h : Memory.wf s) : Memory.wf (finishDesc s a status detail jseq) :=
  .when h.physWrite.physWrite fun _ hu => hu.qEnq

theorem Memory.wf.descProgress {a n} (h : Memory.wf s) : Memory.wf (descProgress s a n) := h.physWrite

theorem Memory.wf.descStatus {a x} (h : Memory.wf s) : Memory.wf (descStatus s a x) := h.physWrite

theorem Memory.wf.takeDesc {p} (h : Memory.wf s) : Memory.wf (takeDesc s p).2 := by
  refine .ite_snd h (.ite_snd ?_ (.ite_snd ?_ h))
  · dsimp only
    split
    next _ _ e =>
      have h₁ := Memory.wf.of_snd e (.qPeek (.when h fun _ hu => hu.setDom))
      exact .ite_snd h₁.qHandOut.setBit (.ite_snd h₁.qHandOut.finishDesc (.ite_snd h₁.qHandOut h₁))
    next _ e => exact Memory.wf.of_snd e (.qPeek (.when h fun _ hu => hu.setDom))
  · dsimp only
    split
    next _ _ e =>
      have h₁ := Memory.wf.of_snd e (.qPeek (.when h fun _ hu => hu.setDom))
      exact .ite_snd h₁.qHandOut.setBit (.ite_snd h₁.qHandOut.finishDesc (.ite_snd h₁.qHandOut h₁))
    next _ e => exact Memory.wf.of_snd e (.qPeek (.when h fun _ hu => hu.setDom))

theorem Memory.wf.invalidateSectors {f n} (h : Memory.wf s) : Memory.wf (invalidateSectors s f n) := h.upNvm

theorem Memory.wf.startProg {o} (h : Memory.wf s) : Memory.wf (startProg s o) := h.upNvm.setFlcState.wr.descStatus

theorem Memory.wf.backupPage {o page} (h : Memory.wf s) : Memory.wf (backupPage s o page).2 := h.mramFlush.setBytes.setBit.journalOpen

theorem Memory.wf.prepareBurst {o} (h : Memory.wf s) : Memory.wf (prepareBurst s o) := .ite h.backupPage.upNvm h

theorem Memory.wf.closing {o} (h : Memory.wf s) : Memory.wf (closing s o).2 := by
  unfold Machine.closing
  dsimp only
  exact h.upNvm.moveForward

theorem Memory.wf.releaseBackup {o} (h : Memory.wf s) : Memory.wf (releaseBackup s o).2 := by
  unfold Machine.releaseBackup
  dsimp only
  split
  · exact h.closing.journalWrite.setLive.setBit
  · exact h

theorem Memory.wf.execFlashProgram {env} (h : Memory.wf s) : SoundNext (execFlashProgram env s) := by
  refine .ite (.next h) ?_
  split
  next _ e => exact .next (h.takeDesc.of_snd e)
  next _ _ _ e =>
    have h₁ := h.takeDesc.of_snd e
    exact .ite (.next (.finishDesc (.ite h₁.physRead h₁))) (.next (.prepareBurst (.invalidateSectors (.startProg (.journalOpen (.ite h₁.physRead
        h₁))))))

theorem Memory.wf.setWear {sec n} (h : Memory.wf s) : Memory.wf (setWear s sec n) := h.mramFlush.st

theorem Memory.wf.execFlashErase {env} (h : Memory.wf s) : SoundNext (execFlashErase env s) := by
  refine .ite (.next h) ?_
  split
  next _ e => exact .next (h.takeDesc.of_snd e)
  next _ _ _ e =>
    have h₁ := h.takeDesc.of_snd e
    exact .ite (.next h₁.finishDesc) (.next h₁.retireCloses.journalOpen.upNvm.setFlcState.wr.descStatus.invalidateSectors)

theorem Memory.wf.execFlashEpoch {env} (h : Memory.wf s) : SoundNext (execFlashEpoch env s) := by
  refine .ite (.next h) ?_
  split
  next _ e => exact .next (h.takeDesc.of_snd e)
  next _ _ _ e =>
    have h₁ := h.takeDesc.of_snd e
    dsimp only
    split
    · exact .next h₁.finishDesc
    · exact .next h₁.finishDesc
    · exact .ite (.next h₁.finishDesc) (.next h₁.journalOpen.startProg.invalidateSectors)

theorem Memory.wf.execFlashRetire {env} (h : Memory.wf s) : SoundNext (execFlashRetire env s) := by
  refine .ite (.next h) ?_
  split
  next _ e => exact .next (h.takeDesc.of_snd e)
  next _ _ _ e =>
    have h₁ := h.takeDesc.of_snd e
    exact .ite (.next h₁.finishDesc) (.next h₁.journalOpen.startProg.invalidateSectors)

theorem Memory.wf.execFlashBlankcheck (h : Memory.wf s) : SoundNext (execFlashBlankcheck s) := by
  refine .ite (.next h) ?_
  split
  next _ e => exact .next (h.takeDesc.of_snd e)
  next _ _ _ e =>
    have h₁ := h.takeDesc.of_snd e
    refine .ite (.next h₁.finishDesc) (.ite (.next h₁.finishDesc) (.ite (.next h₁.finishDesc) ?_))
    split
    · exact .next h₁.finishDesc
    · exact .next h₁.finishDesc

theorem Memory.wf.abandonErase {o outcome status} (h : Memory.wf s) : Memory.wf (abandonErase s o outcome status) :=
  h.upNvm.moveForward.journalWrite.setLive.setLive.halfErase.setBit.finishDesc.upNvm.setFlcState.wr.wr

theorem Memory.wf.execFlashAbort (h : Memory.wf s) : SoundNext (execFlashAbort s) := by
  refine .ite (.next h) ?_
  split
  next _ e => exact .next (h.takeDesc.of_snd e)
  next _ _ _ e =>
    have h₁ := h.takeDesc.of_snd e
    refine .ite (.next h₁.finishDesc) ?_
    split
    · exact .next h₁.abandonErase.finishDesc
    · exact .next h₁.finishDesc

theorem Memory.wf.execFlashRelease {env} (h : Memory.wf s) : SoundNext (execFlashRelease env s) := by
  refine .ite (.next h) ?_
  split
  next _ e => exact .next (h.takeDesc.of_snd e)
  next _ _ _ e =>
    have h₁ := h.takeDesc.of_snd e
    refine .ite (.next h₁.finishDesc) (.next (.finishDesc (.setBit ?_)))
    split
    · exact h₁.journalWrite.setLive
    · exact h₁.journalWrite

theorem Memory.wf.endProg (h : Memory.wf s) : Memory.wf (endProg s) := .ite h.upNvm.setFlcState.wr h.upNvm.setFlcState.wr

theorem Memory.wf.closeProg {o ok} (h : Memory.wf s) : Memory.wf (closeProg s o ok).2 :=
  .setLive (.ite_snd_snd h.closing.journalWrite h.closing.journalWrite)

theorem Memory.wf.execProgBurstDone {ok differs} (h : Memory.wf s) : SoundNext (execProgBurstDone ok differs s) := by
  unfold Machine.execProgBurstDone
  split
  · exact .next h
  · refine .ite (.next h.tearBurst.releaseBackup.closeProg.finishDesc.endProg) (.ite (.next (.prepareBurst (.upNvm (.ite_snd
        h.setBytes.descProgress.releaseBackup h.setBytes.descProgress)))) ?_)
    dsimp only
    split
    · exact .next (.endProg (.finishDesc (.closeProg (.upNvm (.ite_snd h.setBytes.descProgress.releaseBackup h.setBytes.descProgress)))))
    · exact .next (.endProg (.finishDesc (.closeProg (.upNvm (.ite_snd h.setBytes.descProgress.releaseBackup h.setBytes.descProgress)))))

theorem Memory.wf.eraseDone {o} (h : Memory.wf s) : Memory.wf (eraseDone s o).2 := h.setBytes.upNvm.moveForward.journalWrite.setLive.setWear.setBit

theorem Memory.wf.execErasePulseDone {verified} (h : Memory.wf s) : SoundNext (execErasePulseDone verified s) := by
  unfold Machine.execErasePulseDone
  split
  · exact .next h
  · exact .ite (.next h) (.ite (.next h.upNvm.descProgress.eraseDone.finishDesc.upNvm.setFlcState.wr) (.ite (.next
        h.upNvm.descProgress.abandonErase.setBit) (.next h.upNvm.descProgress)))

theorem Memory.wf.flashProgram {f bs} (h : Memory.wf s) : Memory.wf (flashProgram s f bs).2 := by
  unfold Machine.flashProgram
  refine .ite_snd h ?_
  dsimp only
  exact h.journalOpen.setBytes.invalidateSectors.closeProg.upNvm

theorem Memory.wf.flashErase {sec} (h : Memory.wf s) : Memory.wf (flashErase s sec).2 := by
  unfold Machine.flashErase
  refine .ite_snd h ?_
  dsimp only
  exact h.retireCloses.journalOpen.invalidateSectors.eraseDone.upNvm

theorem Memory.wf.flashRetire {b} (h : Memory.wf s) : Memory.wf (flashRetire s b).2 := by
  unfold Machine.flashRetire
  refine .ite_snd h ?_
  dsimp only
  exact .upNvm (.closeProg (.invalidateSectors (.foldl h.journalOpen fun _ _ hu => hu.setBytes)))

theorem Memory.wf.flashEpoch {b bs journal} (h : Memory.wf s) : Memory.wf (flashEpoch s b bs journal).2 := by
  unfold Machine.flashEpoch
  split
  · exact h
  · refine .ite_snd h.setBytes.invalidateSectors (.ite_snd h ?_)
    dsimp only
    exact h.journalOpen.setBytes.invalidateSectors.closeProg.upNvm

theorem Memory.wf.execEraseSuspend (h : Memory.wf s) : SoundNext (execEraseSuspend s) := by
  unfold Machine.execEraseSuspend
  split
  · exact .ite (.next h.setFlcState.wr.wr.upNvm.descStatus) (.next h)
  · exact .next h

theorem Memory.wf.execEraseResume (h : Memory.wf s) : SoundNext (execEraseResume s) := by
  unfold Machine.execEraseResume
  split
  · exact .ite (.next h.setFlcState.wr.wr.upNvm.descStatus) (.next h)
  · exact .next h

theorem Memory.wf.flashTouch {who l fetch} (h : Memory.wf s) : Memory.wf (flashTouch s who l fetch) := h.upNvm

theorem Memory.wf.noteWait (h : Memory.wf s) : Memory.wf (noteWait s) := h.upNvm

theorem Memory.wf.readServed {us} (h : Memory.wf s) : Memory.wf (readServed s us) := h.raise.upNvm

theorem Memory.wf.flashLine {who f fetch e mirror} (h : Memory.wf s) : Memory.wf (flashLine s who f fetch e mirror).2 := by
  refine .ite_snd h ?_
  dsimp only
  split
  · exact h.flashTouch
  · exact h.flashTouch.eccCount.correctable
  · split
    · exact .ite_snd h.flashTouch.eccCount.logFault h.flashTouch.eccCount.logFault
    · exact h.flashTouch.eccCount.logFault

theorem Memory.wf.execFlashRead {who f fetch e mirror wait} (h : Memory.wf s) : SoundNext (execFlashRead who f fetch e mirror wait s) :=
  .ite (.next h.touch.noteWait) (.next h.touch.flashLine.readServed)

theorem Memory.wf.execFlashPrefetch (h : Memory.wf s) : SoundNext (execFlashPrefetch s) := by
  unfold Machine.execFlashPrefetch
  split
  · exact .ite (.next h.upNvm) (.next h)
  · exact .next h

theorem Memory.wf.execMramWritePerform (h : Memory.wf s) : SoundNext (execMramWritePerform s) := by
  unfold Machine.execMramWritePerform
  split
  · exact .next h.mramPerform.setBit
  · exact .next h

theorem Memory.wf.mramRead {who a e} (h : Memory.wf s) : Memory.wf (mramRead s who a e).2 := by
  unfold Machine.mramRead
  dsimp only
  split
  · exact h
  · exact h.eccCount.correctable
  · exact h.eccCount

/-! ### Machine/Rxc.lean -/

theorem Memory.wf.upRxc {f} (h : Memory.wf s) : Memory.wf (s.upRxc f) := h.of_eq rfl rfl

theorem Memory.wf.upFec {f} (h : Memory.wf s) : Memory.wf (s.upFec f) := h.of_eq rfl rfl

theorem Memory.wf.upCal {f} (h : Memory.wf s) : Memory.wf (s.upCal f) := h.of_eq rfl rfl

theorem Memory.wf.rxcEvent {b} (h : Memory.wf s) : Memory.wf (rxcEvent s b) := h.event

theorem Memory.wf.txcEvent {b} (h : Memory.wf s) : Memory.wf (txcEvent s b) := h.event

theorem Memory.wf.rfeEvent {b} (h : Memory.wf s) : Memory.wf (rfeEvent s b) := h.event

theorem Memory.wf.retune {hz} (h : Memory.wf s) : Memory.wf (retune s hz) :=
  .ite h (.ite h.setFld.setBit.upCal (.ite h.setFld.setBit.upCal.setBit.upCal h.setFld.setBit.upCal))

theorem Memory.wf.setCca {n} (h : Memory.wf s) : Memory.wf (setCca s n) := h.setBit

theorem Memory.wf.agcTo {a} (h : Memory.wf s) : Memory.wf (agcTo s a) := .ite h.upRxc.setBit.setBit h.upRxc.setBit.setBit.setFld

theorem Memory.wf.busyRecount (h : Memory.wf s) : Memory.wf (busyRecount s) := .ite h.wr.wr.setFld.agcTo h.wr.wr.setFld

theorem Memory.wf.setDemod {n st} (h : Memory.wf s) : Memory.wf (setDemod s n st) := h.setFld.setCca.busyRecount

theorem Memory.wf.upFrame {n f} (h : Memory.wf s) : Memory.wf (upFrame s n f) := h.upRxc

theorem Memory.wf.fecStatus (h : Memory.wf s) : Memory.wf (fecStatus s) := h.setFld.setBit.setBit

theorem Memory.wf.dropFrame {n} (h : Memory.wf s) : Memory.wf (dropFrame s n) := h.upRxc.upFec.fecStatus

theorem Memory.wf.discardFrame {flag next n} (h : Memory.wf s) : Memory.wf (discardFrame s flag next n) :=
  .ite (.setDemod (.dropFrame (.setBit (.ite h.bump h.bump)))) h

theorem Memory.wf.discardAll {flag next} (h : Memory.wf s) : Memory.wf (discardAll s flag next) := .foldl h fun _ _ hu => hu.discardFrame

theorem Memory.wf.demodListen {n} (h : Memory.wf s) : Memory.wf (demodListen s n) := h.upRxc.setDemod

theorem Memory.wf.receiverReady (h : Memory.wf s) : Memory.wf (receiverReady s) :=
  .ite (.foldl (.ite h.setBit.agcTo h.setBit) fun _ _ hu => .ite hu.demodListen hu) h

theorem Memory.wf.receiverStart (h : Memory.wf s) : Memory.wf (receiverStart s) := .ite h.setDom.retune.receiverReady h.setDom.retune

theorem Memory.wf.applyNow (h : Memory.wf s) : Memory.wf (applyNow s) :=
  .ite (.retune (.setBit (.setBit (.setBit (.setBit (.upRxc (.foldl h.discardAll.agcTo fun _ _ hu => .ite hu hu.setDemod))))))) (.setBit (.setBit
      (.setBit (.setBit (.upRxc (.foldl h.discardAll.agcTo fun _ _ hu => .ite hu hu.setDemod))))))

theorem Memory.wf.applyOutcome (h : Memory.wf s) : Memory.wf (applyOutcome s) := .ite h.upRxc (.ite h.applyNow h.setBit)

theorem Memory.wf.rxcApply (h : Memory.wf s) : Memory.wf (rxcApply s) := .ite h.setBit h.setBit.upRxc.applyOutcome

theorem Memory.wf.switchDone (h : Memory.wf s) : Memory.wf (switchDone s) := .ite h.setBit.rxcEvent.receiverReady h

theorem Memory.wf.receiverStop (h : Memory.wf s) : Memory.wf (receiverStop s) :=
  have h₁ : Memory.wf _ := .ite h.applyNow h
  .agcTo (.setBit (.foldl (.discardAll (.ite h₁.setBit.rxcEvent h₁)) fun _ _ hu => .ite hu hu.setDemod))

theorem Memory.wf.rxcCtrlWrite {v} (h : Memory.wf s) : Memory.wf (rxcCtrlWrite s v) :=
  .ite (.rxcApply (.ite (.ite h.wr h.wr.receiverStart) (.ite h.wr.receiverStop h.wr))) (.ite (.ite h.wr h.wr.receiverStart) (.ite h.wr.receiverStop
      h.wr))

theorem Memory.wf.chCfgWrite {n v} (h : Memory.wf s) : Memory.wf (chCfgWrite s n v) :=
  have h₁ : Memory.wf _ := .ite h.setBit h
  have h₂ := h₁.discardFrame.setBit
  .ite (.ite h₁ (.ite (.ite h₂.demodListen h₂) (.ite h₂ h₂.setDemod))) (.ite (.ite (.ite h.wr.demodListen h.wr) h.wr.setBit) h.wr)

theorem Memory.wf.transmissionBegins (h : Memory.wf s) : Memory.wf (transmissionBegins s).2 := by
  unfold Machine.transmissionBegins
  dsimp only
  exact .when h.agcTo.setBit.setBit.discardAll.upRxc fun _ hu => hu.rxcEvent

theorem Memory.wf.execPreambleDetected {n corr dgain} (h : Memory.wf s) : SoundNext (execPreambleDetected n corr dgain s) :=
  .ite (.next (.setDemod (.setFld (.ite h.bump.upRxc h.bump.upRxc.agcTo.setFld.upRxc)))) (.next h)

theorem Memory.wf.calFromFrame {n x} (h : Memory.wf s) : Memory.wf (calFromFrame s n x) := .when (.when h fun _ hu => hu.upCal) fun _ hu => hu.upCal

theorem Memory.wf.execSyncFound {n x} (h : Memory.wf s) : SoundNext (execSyncFound n x s) := by
  unfold Machine.execSyncFound
  split
  · exact .next h
  · exact .ite (.next h) (.next h.upFrame.bump.setFld.setFld.wr.upRxc.calFromFrame.setDemod)

theorem Memory.wf.execSyncWindowTimeout {n symbols} (h : Memory.wf s) : SoundNext (execSyncWindowTimeout n symbols s) :=
  .ite (.next h.dropFrame.setDemod) (.next h)

theorem Memory.wf.headerFails {n} (h : Memory.wf s) : Memory.wf (headerFails s n) := h.bump.dropFrame.setDemod

theorem Memory.wf.cnbHeader {n m tie soft} (h : Memory.wf s) : Memory.wf (cnbHeader s n m tie soft) :=
  .ite h.bump.bump.upFrame.setDemod h.bump.headerFails

theorem Memory.wf.sunHeader {n m soft} (h : Memory.wf s) : Memory.wf (sunHeader s n m soft) := .ite h.headerFails h.upFrame.setDemod

theorem Memory.wf.execHeaderDecision {n soft} (h : Memory.wf s) : SoundNext (execHeaderDecision n soft s) := by
  unfold Machine.execHeaderDecision
  split
  · exact .next h
  · exact .ite (.next h) (.ite (.next h.sunHeader) (.next (.cnbHeader (h.of_eq rfl rfl))))

theorem Memory.wf.captureCodeword {n llr} (h : Memory.wf s) : Memory.wf (captureCodeword s n llr) := by
  unfold Machine.captureCodeword
  split
  · exact h
  · refine .ite h ?_
    dsimp only
    split
    · exact .ite h h.upFec
    · exact .ite (.ite h h.upFec) (.upFec (.ite h h.upFec))

theorem Memory.wf.execPayloadCaptured {n rest} (h : Memory.wf s) : SoundNext (execPayloadCaptured n rest s) := by
  unfold Machine.execPayloadCaptured
  split
  · exact .next h
  · exact .ite (.next h) (.next (.fecStatus (.setDemod (.bump (.upRxc (.upFec (.ite h.upFec (.foldl h fun _ _ hu => hu.captureCodeword))))))))

theorem Memory.wf.setNow {n v} (h : Memory.wf s) : Memory.wf (setNow s n v) := .setCca (.ite h.setFld.upRxc.setFld h.setFld)

theorem Memory.wf.agcOverride (h : Memory.wf s) :
    Memory.wf (agcOverride s) :=
  .rxcEvent (.bump (.foldl h.setFld.setFld fun _ _ hu => hu.setBit.upFrame))

theorem Memory.wf.agcClipLost (h : Memory.wf s) : Memory.wf (agcClipLost s) := .rxcEvent (.bump (.foldl h fun _ _ hu => hu.setBit.upFrame))

theorem Memory.wf.agcTrack {p clip} (h : Memory.wf s) : Memory.wf (agcTrack s p clip) := .ite h.setFld (.ite h.setFld (.ite h.setFld h))

theorem Memory.wf.execAgcMeasurement {power overloads now} (h : Memory.wf s) : SoundNext (execAgcMeasurement power overloads now s) := by
  unfold Machine.execAgcMeasurement
  dsimp only
  split
  · exact .next (.foldl h fun _ _ hu => hu.setNow)
  · exact .next (.agcTrack (.foldl h fun _ _ hu => hu.setNow))
  · exact .ite (.ite (.next (.agcOverride (.foldl h fun _ _ hu => hu.setNow))) (.next (.agcClipLost (.foldl h fun _ _ hu => hu.setNow)))) (.next
        (.foldl h fun _ _ hu => hu.setNow))

theorem Memory.wf.execRxcApplyPendingDone (h : Memory.wf s) : SoundNext (execRxcApplyPendingDone s) := .ite (.next h.applyNow) (.next h)

theorem Memory.wf.execReceiverReturn (h : Memory.wf s) : SoundNext (execReceiverReturn s) :=
  have h₁ := h.setBit.receiverReady
  .ite (.next (.ite h₁.upRxc.applyOutcome h₁)) (.next h)

theorem Memory.wf.tsloLatch {n} (h : Memory.wf s) : Memory.wf (tsloLatch s n) := by
  unfold Machine.tsloLatch
  split
  · exact h.wr
  · exact h

/-! ### Machine/Fec.lean -/

theorem Memory.wf.upLnk {f} (h : Memory.wf s) : Memory.wf (s.upLnk f) := h.of_eq rfl rfl

theorem Memory.wf.fecForget {id} (h : Memory.wf s) : Memory.wf (fecForget s id) := h.upFec

theorem Memory.wf.fecDrop {id} (h : Memory.wf s) : Memory.wf (fecDrop s id) := h.upFec.fecForget

theorem Memory.wf.fecFail {f} (h : Memory.wf s) : Memory.wf (fecFail s f) := .ite h.fecForget.upFec h.fecDrop

theorem Memory.wf.fecFinish {f} (h : Memory.wf s) : Memory.wf (fecFinish s f) := .ite h (.ite h.fecDrop.bump.upLnk h.fecDrop.bump)

theorem Memory.wf.decoderTake {c} (h : Memory.wf s) : Memory.wf (decoderTake s c) := h.upFec

theorem Memory.wf.execCodewordDecodeStart {captured} (h : Memory.wf s) : SoundNext (execCodewordDecodeStart captured s) := by
  unfold Machine.execCodewordDecodeStart
  dsimp only
  split
  · exact .next (.fecStatus (.decoderTake (.upFec (.foldl h fun _ _ hu => hu.captureCodeword))))
  · exact .ite (.next (.fecStatus (.foldl h fun _ _ hu => hu.captureCodeword))) (.next (.fecStatus (.decoderTake (.upFec (.foldl h fun _ _ hu =>
        hu.captureCodeword)))))
  · exact .next (.fecStatus (.foldl h fun _ _ hu => hu.captureCodeword))

theorem Memory.wf.execCodewordDecodeDone {us} (h : Memory.wf s) : SoundNext (execCodewordDecodeDone us s) := by
  unfold Machine.execCodewordDecodeDone
  split
  · exact .next h
  · split
    · exact .next h.upFec.fecStatus
    · exact .ite (.next h.upFec.bump.fecStatus) (.ite (.next h.upFec.bump.bump.raise.bump.upFec.raise.fecFinish.fecStatus) (.ite (.next
          h.upFec.bump.upFec.fecStatus) (.next h.upFec.bump.bump.raise.fecFail.fecStatus)))

theorem Memory.wf.execAltHypothesisStart (h : Memory.wf s) : SoundNext (execAltHypothesisStart s) := by
  unfold Machine.execAltHypothesisStart
  split
  · exact .next h.upFec.fecStatus
  · exact .next h

theorem Memory.wf.execViterbiDecode {soft} (h : Memory.wf s) : SoundNext (execViterbiDecode soft s) := by
  unfold Machine.execViterbiDecode
  split
  · exact .next h
  · dsimp only
    split
    · exact .next h.fecDrop.bump.upLnk
    · exact .next h.fecDrop.bump

/-! ### Machine/Seen.lean -/

theorem Memory.wf.lnkEvent {b} (h : Memory.wf s) : Memory.wf (lnkEvent s b) := h.event

theorem Memory.wf.lnkTevent {b} (h : Memory.wf s) : Memory.wf (lnkTevent s b) := h.event

theorem Memory.wf.raiseFloor {key} (h : Memory.wf s) : Memory.wf (raiseFloor s key) := .setBit (.ite h h.wr)

theorem Memory.wf.floorNow (h : Memory.wf s) : Memory.wf (floorNow s) := h.wr.setBit

theorem Memory.wf.scStat (h : Memory.wf s) : Memory.wf (scStat s) := h.setFld

theorem Memory.wf.extLost {event} (h : Memory.wf s) : Memory.wf (extLost s event) := by
  refine .ite (.lnkEvent (.upLnk ?_)) (.upLnk ?_)
  · split
    · exact .ite h.setBit.setBit.setBit.wr h.setBit.setBit.setBit.wr.raiseFloor
    · exact h.setBit.setBit.setBit.wr
  · split
    · exact .ite h.setBit.setBit.setBit.wr h.setBit.setBit.setBit.wr.raiseFloor
    · exact h.setBit.setBit.setBit.wr

theorem Memory.wf.bucketRead {a} (h : Memory.wf s) : Memory.wf (bucketRead s a).2 := by
  unfold Machine.bucketRead
  split
  next _ _ e => exact h.engineRead.of_snd e
  next _ e => exact (h.engineRead.of_snd e).extLost

theorem Memory.wf.seenLookup {fcnt tag} (h : Memory.wf s) : Memory.wf (seenLookup s fcnt tag).2 := by
  refine .ite_snd h (.ite_snd ?_ h)
  split
  next _ _ e => exact h.bucketRead.of_snd e
  next _ e => exact h.bucketRead.of_snd e

theorem Memory.wf.evictSeen {fcnt} (h : Memory.wf s) : Memory.wf (evictSeen s fcnt) := .ite h h.raiseFloor.bump.lnkEvent

theorem Memory.wf.spillSeen {fcnt tag} (h : Memory.wf s) : Memory.wf (spillSeen s fcnt tag) := by
  refine .ite h.evictSeen ?_
  extract_lets a
  split
  next _ e => exact (h.bucketRead.of_snd e).evictSeen
  next t _ e =>
    have h₁ := h.bucketRead.of_snd e
    extract_lets free dead place s₂
    have h₂ : Memory.wf s₂ := by
      unfold s₂
      split
      · exact h₁.evictSeen
      · exact h₁
    split
    next _ e => exact (h₂.engineWrite.of_snd e).extLost.evictSeen
    next _ e =>
      have h₃ := h₂.engineWrite.of_snd e
      exact .upLnk (.ite h₃.wr h₃)

theorem Memory.wf.seenInsert {fcnt tag} (h : Memory.wf s) : Memory.wf (seenInsert s fcnt tag) := by
  refine .scStat (.upLnk (.ite h.upLnk ?_))
  split
  · exact h.upLnk.upLnk.spillSeen
  · exact h.upLnk

theorem Memory.wf.seenOwn {mpdu} (h : Memory.wf s) : Memory.wf (seenOwn s mpdu) := by
  unfold Machine.seenOwn
  split
  · exact .ite h h.seenInsert
  · exact h

theorem Memory.wf.execFloorExpire (h : Memory.wf s) : SoundNext (execFloorExpire s) := .ite (.next h.setBit) (.next h)

theorem Memory.wf.execExtClearDone (h : Memory.wf s) : SoundNext (execExtClearDone s) := by
  refine .ite ?_ (.next h)
  dsimp only
  split
  next _ e => exact .next (h.engineRead.of_snd e).extLost
  next _ _ e =>
    have h₁ := h.engineRead.of_snd e
    split
    next _ e => exact .next (h₁.engineWrite.of_snd e).extLost
    next _ e => exact .next (h₁.engineWrite.of_snd e).setBit.setBit.wr.lnkEvent

/-! ### Machine/Txc.lean -/

theorem Memory.wf.upTxc {f} (h : Memory.wf s) : Memory.wf (s.upTxc f) := h.of_eq rfl rfl

theorem Memory.wf.upJob {f} (h : Memory.wf s) : Memory.wf (s.upJob f) := h.upTxc

theorem Memory.wf.readTxDesc {q a} (h : Memory.wf s) : Memory.wf (readTxDesc s q a).2 := by
  refine .ite_snd h ?_
  split
  next _ e => exact h.engineRead.of_snd e
  next _ _ e =>
    have h₁ := h.engineRead.of_snd e
    dsimp only
    split
    next _ _ _ _ e => exact h₁.translate.of_snd e
    next _ _ e => exact h₁.translate.of_snd e

theorem Memory.wf.finishDescTx {q a signal replyq code flags tstart} (h : Memory.wf s) :
    Memory.wf (finishDescTx s q a signal replyq code flags tstart) :=
  .qHandOut (.upTxc (.when h.engineWrite.engineWrite fun _ hu => hu.qEnq))

theorem Memory.wf.txCount {code} (h : Memory.wf s) : Memory.wf (txCount s code) := by
  unfold Machine.txCount
  dsimp only
  split
  · exact .txcEvent (.ite h.bump h.bump)
  · exact .ite h.bump h.bump

theorem Memory.wf.lnkStat (h : Memory.wf s) : Memory.wf (lnkStat s) := h.setFld.setFld

theorem Memory.wf.relayGone {r} (h : Memory.wf s) : Memory.wf (relayGone s r) := by
  refine .lnkStat ?_
  split
  · exact h.upLnk.qReleaseHeld
  · exact h.upLnk

theorem Memory.wf.txComplete {j code} (h : Memory.wf s) : Memory.wf (txComplete s j code) := by
  unfold Machine.txComplete
  dsimp only
  split
  · exact h.txCount.finishDescTx
  · exact .ite h.txCount.upLnk.bump h.txCount.upLnk.bump.lnkEvent
  · split
    · exact .relayGone (.ite h.txCount.bump h.txCount.bump)
    · exact h.txCount

theorem Memory.wf.headJob {q} (h : Memory.wf s) : Memory.wf (headJob s q).2 := by
  unfold Machine.headJob
  split
  next _ e => exact h.qPeek.of_snd e
  next _ _ e =>
    have h₁ := h.qPeek.of_snd e
    split
    · exact h₁
    · split
      next _ _ e => exact h₁.readTxDesc.of_snd e
      next _ _ e => exact (h₁.readTxDesc.of_snd e).upTxc

theorem Memory.wf.txCandidates (h : Memory.wf s) : Memory.wf (txCandidates s).2 := by
  refine .foldl_snd (.foldl_snd (.foldl_snd h fun _ _ hu => .ite_snd hu.txComplete hu) fun _ _ hu => .ite_snd hu.txComplete hu) fun _ _ hu => ?_
  split
  next _ e => exact hu.headJob.of_snd e
  next _ _ _ _ _ e => exact (hu.headJob.of_snd e).txCount.finishDescTx
  next _ _ e =>
    have h₁ := hu.headJob.of_snd e
    exact .ite_snd (.ite h₁.txComplete h₁) (.ite_snd h₁.txComplete h₁)

theorem Memory.wf.dueFail (h : Memory.wf s) : Memory.wf (dueFail s) :=
  .foldl (.foldl h fun _ _ hu => .ite hu.txComplete hu) fun _ _ hu => .ite hu.txComplete hu

theorem Memory.wf.txDone {j code} (h : Memory.wf s) : Memory.wf (txDone s j code) := h.txComplete.dueFail

theorem Memory.wf.setTxState {n} (h : Memory.wf s) : Memory.wf (setTxState s n) := h.setFld

theorem Memory.wf.paOff {j at_ down} (h : Memory.wf s) : Memory.wf (paOff s j at_ down) := by
  unfold Machine.paOff
  split
  · exact h.bump.upJob
  · exact h

theorem Memory.wf.txEnd {j code} (h : Memory.wf s) : Memory.wf (txEnd s j code) := by
  refine .txDone (.retune (.setBit (.setTxState ?_)))
  split
  · refine .upTxc (.wr (.upTxc ?_))
    split
    · exact h.paOff.wr
    · exact h.paOff
  · refine .upTxc ?_
    split
    · exact h.paOff.wr
    · exact h.paOff

theorem Memory.wf.txStep {j i due pdet} (h : Memory.wf s) : Memory.wf (txStep s j i due pdet) := by
  unfold Machine.txStep
  dsimp only
  split
  · exact h.upTxc.upJob.setTxState.upJob
  · exact h.upTxc.upJob.upTxc.setBit.setTxState.upJob
  · exact h.upTxc.upJob.paOff.setTxState
  · exact h.upTxc.upJob.txEnd
  · exact h.upTxc.upJob.setFld.setFld
  · exact h.upTxc.upJob

theorem Memory.wf.txStepZero {j} (h : Memory.wf s) : Memory.wf (txStepZero s j) := by
  refine .ite h.upTxc.setTxState.txDone (.txStep (.setTxState (.setBit (.retune (.upTxc (.transmissionBegins ?_))))))
  split
  · exact .seenOwn (.setBit (.when h.setBit fun _ hu => hu.rfeEvent))
  · exact .setBit (.when h.setBit fun _ hu => hu.rfeEvent)

theorem Memory.wf.txCommit {j} (h : Memory.wf s) : Memory.wf (txCommit s j) := by
  unfold Machine.txCommit
  extract_lets s₁ s₂ s₃ r
  have h₁ : Memory.wf s₂ := by
    unfold s₂
    split
    · exact h.setFld.upLnk
    · exact h.setFld
  have hr : Memory.wf r.2 := by
    unfold r
    split
    · split
      next _ _ e => exact (h₁.engineWrite.engineRead.of_snd e).engineRead
      next _ e => exact h₁.engineWrite.engineRead.of_snd e
    · exact h₁
  clear_value r
  split
  · exact hr.txComplete
  · exact .ite hr.txComplete (.ite hr.upTxc.setTxState hr.upTxc.txStepZero)

theorem Memory.wf.txGiveUp {j code} (h : Memory.wf s) : Memory.wf (txGiveUp s j code) := h.txEnd

theorem Memory.wf.txCutShort {j code} (h : Memory.wf s) : Memory.wf (txCutShort s j code) := h.paOff.setTxState.upJob

theorem Memory.wf.txAbort (h : Memory.wf s) : Memory.wf (txAbort s) := by
  unfold Machine.txAbort
  split
  · exact h
  · exact .ite h.upTxc.setTxState.txDone (.ite (.ite h h.txCutShort) h.txGiveUp)

theorem Memory.wf.execTxCommit (h : Memory.wf s) : SoundNext (execTxCommit s) := by
  refine .ite ?_ (.next h)
  dsimp only
  split
  · exact .next h.txCandidates.txCommit
  · exact .next h.txCandidates

theorem Memory.wf.execTxDeferEnd (h : Memory.wf s) : SoundNext (execTxDeferEnd s) := by
  unfold Machine.execTxDeferEnd
  split
  · exact .ite (.next h.txStepZero) (.next h)
  · exact .next h

theorem Memory.wf.execTxDeferDeadline (h : Memory.wf s) : SoundNext (execTxDeferDeadline s) := by
  unfold Machine.execTxDeferDeadline
  split
  · exact .ite (.next h) (.ite (.next h.upTxc.setTxState.txDone) (.next h.txStepZero))
  · exact .next h

theorem Memory.wf.execTxSequenceStep {pdet} (h : Memory.wf s) : SoundNext (execTxSequenceStep pdet s) := by
  unfold Machine.execTxSequenceStep
  split
  · exact .ite (.next h) (.next h.txStep)
  · exact .next h

theorem Memory.wf.maskMonitor {j x} (h : Memory.wf s) : Memory.wf (maskMonitor s j x) := by
  unfold Machine.maskMonitor
  dsimp only
  split
  · exact h.bump
  · exact .txcEvent (.ite h.bump.bump.upJob.setFld.setFld h.bump.bump.upJob)

theorem Memory.wf.reflect {j gamma} (h : Memory.wf s) : Memory.wf (reflect s j gamma) := .ite h (.when h.setFld.raise fun _ hu => hu.rfeEvent)

theorem Memory.wf.calFromTx {j x} (h : Memory.wf s) : Memory.wf (calFromTx s j x) :=
  .when (.when (.when h fun _ hu => hu.wr.setBit) fun _ hu => hu.wr.setBit) fun _ hu => .setBit (.foldl hu fun _ _ hv => hv.wr)

theorem Memory.wf.txMeasured {j x ticks} (h : Memory.wf s) : Memory.wf (txMeasured s j x ticks) :=
  .ite (.calFromTx (.ite h.upJob.reflect h.upJob.reflect.maskMonitor)) h.upJob.reflect

theorem Memory.wf.execTxLastSymbol {x} (h : Memory.wf s) : SoundNext (execTxLastSymbol x s) := by
  unfold Machine.execTxLastSymbol
  split
  · exact .ite (.ite (.next h) (.next h.upJob.txMeasured)) (.ite (.next h.txMeasured) (.next h))
  · exact .next h

theorem Memory.wf.execTxLate (h : Memory.wf s) : SoundNext (execTxLate s) := by
  unfold Machine.execTxLate
  split
  · exact .ite (.next h.txGiveUp) (.next h)
  · exact .next h

theorem Memory.wf.execSynthLock {drift} (h : Memory.wf s) : SoundNext (execSynthLock drift s) := by
  refine .ite (.next h) (.next ?_)
  split
  · exact .receiverReady (.when h.setBit fun _ hu => .when hu.setBit fun _ hv => hv.setBit)
  · exact .when (.when h.setBit fun _ hu => .when hu.setBit fun _ hv => hv.setBit) fun _ hu => hu.upJob

theorem Memory.wf.execSynthLockTimeout (h : Memory.wf s) : SoundNext (execSynthLockTimeout s) := by
  unfold Machine.execSynthLockTimeout
  split
  · exact .ite (.next h.txGiveUp) (.next h)
  · exact .next h

theorem Memory.wf.execSynthLockLost (h : Memory.wf s) : SoundNext (execSynthLockLost s) := by
  refine .ite (.next h) ?_
  dsimp only
  split
  · exact .ite (.next h.setBit.rfeEvent.txCutShort) (.next h.setBit.rfeEvent)
  · exact .next h.setBit.rfeEvent

theorem Memory.wf.execVcoCalibrationDone (h : Memory.wf s) : SoundNext (execVcoCalibrationDone s) := .ite (.next h.setBit.upCal.setBit) (.next h)

theorem Memory.wf.execTunerTrialStep {gamma} (h : Memory.wf s) : SoundNext (execTunerTrialStep gamma s) := by
  unfold Machine.execTunerTrialStep
  split
  · exact .ite (.ite (.next h.upJob.reflect.upTxc) (.next h.upJob.reflect.upTxc.setFld.upTxc)) (.next h)
  · exact .next h

theorem Memory.wf.execTunerTrialJudge {gamma} (h : Memory.wf s) : SoundNext (execTunerTrialJudge gamma s) := by
  unfold Machine.execTunerTrialJudge
  split
  · refine .ite (.next (.bump ?_)) (.next (.wr ?_))
    · split
      · exact h.upTxc.reflect
      · exact h.upTxc
    · split
      · exact h.upTxc.reflect
      · exact h.upTxc
  · exact .next h

theorem Memory.wf.execCalPendingApply (h : Memory.wf s) : SoundNext (execCalPendingApply s) := by
  refine .ite (.next h) (.next (.upCal ?_))
  split
  · refine .setBit (.wr ?_)
    split
    · exact h.wr.setBit
    · exact h
  · split
    · exact h.wr.setBit
    · exact h

theorem Memory.wf.execRtcTrimLearn {temp meas} (h : Memory.wf s) : SoundNext (execRtcTrimLearn temp meas s) :=
  .ite (.ite (.next h.setFld.setFld.setBit.setBit) (.next h.setFld)) (.next h)

theorem Memory.wf.txcCtrlWrite {v} (h : Memory.wf s) : Memory.wf (txcCtrlWrite s v) := .ite h.wr.txAbort h.wr

theorem Memory.wf.rfeCtrlWrite {v} (h : Memory.wf s) : Memory.wf (rfeCtrlWrite s v) :=
  have h₁ : Memory.wf _ := .when h.wr fun _ hu => hu.setBit
  .ite h₁.upTxc h₁

theorem Memory.wf.rfeTuneWrite {v} (h : Memory.wf s) : Memory.wf (rfeTuneWrite s v) := by
  unfold Machine.rfeTuneWrite
  dsimp only
  split
  · exact .ite h.upTxc h.wr
  · exact h.wr

theorem Memory.wf.calXtalWrite {v} (h : Memory.wf s) : Memory.wf (calXtalWrite s v) := h.wr.setBit

theorem Memory.wf.tuneStatRead (h : Memory.wf s) : Memory.wf (tuneStatRead s) := h.setFld

theorem Memory.wf.xtalSample {m source} (h : Memory.wf s) : Memory.wf (xtalSample s m source) :=
  .ite h (.ite h.upCal.setFld.setFld.setFld.setFld.setBit h.upCal.setFld.setFld.setFld)

/-! ### Machine/Time.lean -/

theorem Memory.wf.upTime {f} (h : Memory.wf s) : Memory.wf (s.upTime f) := h.of_eq rfl rfl

theorem Memory.wf.upTrk {f} (h : Memory.wf s) : Memory.wf (s.upTrk f) := h.of_eq rfl rfl

theorem Memory.wf.upSched {f} (h : Memory.wf s) : Memory.wf (s.upSched f) := h.of_eq rfl rfl

theorem Memory.wf.ntStep {v} (h : Memory.wf s) : Memory.wf (ntStep s v) := .lnkTevent (.of_eq rfl rfl (.ite h.setBit.upTime h.setBit))

theorem Memory.wf.ntSlew {d} (h : Memory.wf s) : Memory.wf (ntSlew s d) := h.setBit.upTime

theorem Memory.wf.ntAdjust {d always} (h : Memory.wf s) : Memory.wf (ntAdjust s d always) := .ite h.ntSlew.ntStep h.ntSlew

theorem Memory.wf.execSlewDone (h : Memory.wf s) : SoundNext (execSlewDone s) := .ite (.next h.setBit) (.next h)

theorem Memory.wf.execBackholdEnd (h : Memory.wf s) : SoundNext (execBackholdEnd s) := .ite (.next h.setBit) (.next h)

theorem Memory.wf.ntLatch (h : Memory.wf s) : Memory.wf (ntLatch s) := h.wr.wr.wr

theorem Memory.wf.ntStat (h : Memory.wf s) : Memory.wf (ntStat s) := h.setBit.setBit.setFld.setFld

theorem Memory.wf.setTrk {st} (h : Memory.wf s) : Memory.wf (setTrk s st) := .ntStat (.ite h.setFld.wr h.setFld)

theorem Memory.wf.beaconPlan (h : Memory.wf s) : Memory.wf (beaconPlan s) := h.setFld.wr

theorem Memory.wf.receiverRelease (h : Memory.wf s) : Memory.wf (receiverRelease s) := .ite h h.receiverStop

theorem Memory.wf.receiverForce (h : Memory.wf s) : Memory.wf (receiverForce s) := .ite h.wakeEvent (.ite h (.receiverStart (.ite h.setDom h)))

theorem Memory.wf.trackerLost {event} (h : Memory.wf s) : Memory.wf (trackerLost s event) :=
  .receiverForce (.ite h.setTrk.upTrk.lnkTevent h.setTrk.upTrk)

theorem Memory.wf.trackerMiss (h : Memory.wf s) : Memory.wf (trackerMiss s) := by
  unfold Machine.trackerMiss
  dsimp only
  split
  · exact h.bump.upTrk.setTrk.beaconPlan
  · exact h.bump.upTrk.setTrk.beaconPlan
  · exact h.bump.upTrk.trackerLost

theorem Memory.wf.execBeaconWindowOpen (h : Memory.wf s) :
    SoundNext (execBeaconWindowOpen s) :=
  .ite (.next h.beaconPlan.upTrk.receiverForce) (.next h)

theorem Memory.wf.execBeaconWindowClose (h : Memory.wf s) : SoundNext (execBeaconWindowClose s) :=
  .ite (.next (.receiverRelease (.ite h.upTrk h.upTrk.trackerMiss))) (.next h)

theorem Memory.wf.planSearch {i} (h : Memory.wf s) : Memory.wf (planSearch s i) := h.upTrk.wr

theorem Memory.wf.execSearchStart (h : Memory.wf s) : SoundNext (execSearchStart s) := .ite (.next h.setTrk.planSearch.receiverRelease) (.next h)

theorem Memory.wf.execSearchWindowOpen (h : Memory.wf s) : SoundNext (execSearchWindowOpen s) := .ite (.next h.upTrk.receiverForce) (.next h)

theorem Memory.wf.execSearchWindowEnd (h : Memory.wf s) : SoundNext (execSearchWindowEnd s) := .ite (.next h.planSearch.receiverRelease) (.next h)

theorem Memory.wf.applyBeacon {m f b d always} (h : Memory.wf s) : Memory.wf (applyBeacon s m f b d always) :=
  .beaconPlan (.setTrk (.upTrk (.ite h.ntAdjust.wr.wr.wr h.ntAdjust.wr.wr.wr.wr.wr.setBit.lnkTevent)))

theorem Memory.wf.trackerBeacon {m f b} (h : Memory.wf s) : Memory.wf (trackerBeacon s m f b) :=
  .ite h (.ite (.ite (.ite h.lnkTevent h.bump.applyBeacon) h) (.ite (.ite (.receiverRelease (.upTrk (.ite h.applyBeacon h.applyBeacon.lnkTevent))) h)
      h))

theorem Memory.wf.bcnCfgWrite {v} (h : Memory.wf s) : Memory.wf (bcnCfgWrite s v) :=
  .ite (.ite h.wr h.wr.setTrk.upTrk.receiverRelease) (.ite h.wr.setTrk.upTrk.receiverRelease (.ite h.wr.setTrk h.wr))

theorem Memory.wf.parentWrite {hi v} (h : Memory.wf s) : Memory.wf (parentWrite s hi v) :=
  have h₁ : Memory.wf _ := .ite h.wr h.wr
  .ite h₁.trackerLost h₁

theorem Memory.wf.schNext (h : Memory.wf s) : Memory.wf (schNext s) := h.wr

theorem Memory.wf.execListenWindowOpen (h : Memory.wf s) : SoundNext (execListenWindowOpen s) :=
  .ite (.next h.upSched.bump.receiverForce.schNext) (.next h)

theorem Memory.wf.execListenWindowClose (h : Memory.wf s) : SoundNext (execListenWindowClose s) :=
  .ite (.ite (.next h) (.ite (.next (.upSched (.ite h h.bump))) (.ite (.next h) (.next h.upSched.receiverRelease)))) (.next h)

theorem Memory.wf.execAnnouncedWindowOpen (h : Memory.wf s) : SoundNext (execAnnouncedWindowOpen s) := by
  unfold Machine.execAnnouncedWindowOpen
  split
  · exact .ite (.next h) (.next h.upSched.receiverForce)
  · exact .next h

theorem Memory.wf.execAnnouncedWindowClose (h : Memory.wf s) :
    SoundNext (execAnnouncedWindowClose s) :=
  .ite (.next h.upSched.receiverRelease) (.next h)

theorem Memory.wf.wakeWindow {fin offset} (h : Memory.wf s) : Memory.wf (wakeWindow s fin offset) := h.upSched.lnkTevent

/-! ### Machine/Lnk.lean -/

theorem Memory.wf.dropNoBuf (h : Memory.wf s) : Memory.wf (dropNoBuf s) := h.bump.lnkEvent

theorem Memory.wf.floodCopy {src fcnt} (h : Memory.wf s) : Memory.wf (floodCopy s src fcnt) := by
  unfold Machine.floodCopy
  split
  · exact h
  · exact .ite h.upLnk.bump.relayGone h.upLnk

theorem Memory.wf.lowerDist {k d} (h : Memory.wf s) : Memory.wf (lowerDist s k d) := .ite h.setFld h

theorem Memory.wf.sinkLearn {f} (h : Memory.wf s) : Memory.wf (sinkLearn s f) :=
  have h₁ : Memory.wf _ := .foldl h fun _ _ hu => .ite hu.lowerDist hu
  .ite h (.ite h₁.lowerDist h₁)

theorem Memory.wf.insertRelay {r} (h : Memory.wf s) : Memory.wf (insertRelay s r) := by
  refine .ite h.upLnk.lnkStat ?_
  split
  · exact h.upLnk.bump.relayGone.lnkEvent
  · exact h.upLnk

theorem Memory.wf.relayDecision {x f buf held} (h : Memory.wf s) : Memory.wf (relayDecision s x f buf held).2 := by
  refine .ite_snd ?_ (.insertRelay (h.of_eq rfl rfl))
  split
  · exact h.qReleaseHeld.lnkStat
  · exact h

theorem Memory.wf.ackDecision {x f mtch} (h : Memory.wf s) : Memory.wf (ackDecision s x f mtch) := .ite h (.ite h.bump.lnkEvent h.upLnk)

theorem Memory.wf.rxAccept {x plain f buf} (h : Memory.wf s) : Memory.wf (rxAccept s x plain f buf) :=
  have h₁ := (Memory.wf.ite h h.seenInsert).engineWrite
  have h₂ : Memory.wf _ := .upLnk (.ite_snd h₁.qAppendHeld h₁.qProduce)
  have h₃ : Memory.wf _ := .ite h₂.bump.ackDecision.wakeWindow h₂.bump.ackDecision
  have h₄ : Memory.wf _ := .sinkLearn h₃
  .ite h₁.dropNoBuf (.ite (.lnkStat (.lnkEvent (.bump (.ite_snd h₁.qAppendHeld h₁.qProduce))))
    (.ite (.lnkStat (.ite h₄.relayDecision.engineWrite h₄.relayDecision)) (.lnkStat h₃)))

theorem Memory.wf.trackerTake {x f} (h : Memory.wf s) : Memory.wf (trackerTake s x f) := by
  unfold Machine.trackerTake
  split
  · exact h.trackerBeacon
  · exact h

theorem Memory.wf.rxReject {x f} (h : Memory.wf s) : Memory.wf (rxReject s x f) := .ite h.upLnk h

theorem Memory.wf.rxWindow {x f buf} (h : Memory.wf s) : Memory.wf (rxWindow s x f buf) :=
  have h₁ : Memory.wf _ := .ite_snd h h.seenLookup
  have relay : Memory.wf _ := .rxReject (.ite h₁.bump.floodCopy h₁.bump)
  have accept : Memory.wf _ := .ite h₁.upLnk (.rxAccept (.ite h₁.trackerTake h₁))
  .ite h.bump.rxReject (.ite h.bump.rxReject (.ite relay accept))

theorem Memory.wf.execLnkFrameReceive (h : Memory.wf s) : SoundNext (execLnkFrameReceive s) := by
  unfold Machine.execLnkFrameReceive
  split
  · exact .next h
  · refine .ite (.next h.upLnk.xtalSample.bump) ?_
    split
    · exact .next h.upLnk.xtalSample.dropNoBuf
    · refine .ite (.next h.upLnk.xtalSample.dropNoBuf) ?_
      split
      · exact .next h.upLnk.xtalSample.bump
      · exact .ite (.next h.upLnk.xtalSample.bump) (.next (.rxWindow (.ite h.upLnk.xtalSample.trackerTake h.upLnk.xtalSample)))

theorem Memory.wf.execRelayStart {k} (h : Memory.wf s) : SoundNext (execRelayStart k s) := by
  unfold Machine.execRelayStart
  split
  · exact .next h
  · exact .ite (.next h) (.ite (.next h.bump.relayGone) (.next h.upLnk))

theorem Memory.wf.dropAcks (h : Memory.wf s) : Memory.wf (dropAcks s) := h.upLnk

theorem Memory.wf.dropRelays (h : Memory.wf s) : Memory.wf (dropRelays s) := .foldl h fun _ _ hu => hu.relayGone

theorem Memory.wf.lnkCtrlWrite {v} (h : Memory.wf s) : Memory.wf (lnkCtrlWrite s v) :=
  .lnkStat (.when (.when (.when (.when (.when (.when h.wr fun _ hu => hu.floorNow.upLnk) fun _ hu => hu.dropAcks.dropRelays) fun _ hu => hu.dropAcks)
      fun _ hu => hu.dropRelays) fun _ hu => hu.setBit) fun _ hu => hu.extLost)

theorem Memory.wf.poolWrite {base v} (h : Memory.wf s) :
    Memory.wf (poolWrite s base v) :=
  .ite h.setBit (.lnkStat (.upLnk (.setBit (.ite h.wr h.wr))))

/-! ### Machine/Cipher.lean -/

theorem Memory.wf.jobAdmit {enq trust d} (h : Memory.wf s) : Memory.wf (jobAdmit s enq trust d).2.2 := by
  refine .ite_snd_snd h (.ite_snd_snd h ?_)
  dsimp only
  split
  · exact h
  · exact h
  · exact h
  · exact .ite_snd_snd h (.ite_snd_snd h (.ite_snd_snd h h.slotCount.slotKey))

theorem Memory.wf.jobShow (h : Memory.wf s) : Memory.wf (jobShow s) := by
  unfold Machine.jobShow
  split
  · exact h.setBit
  · exact h.setBit.setFld.wr

theorem Memory.wf.jobDesc {j} (h : Memory.wf s) : Memory.wf (jobDesc s j).2 := by
  refine .ite_snd h ?_
  split
  next _ _ e => exact h.engineRead.of_snd e
  next _ e => exact h.engineRead.of_snd e

theorem Memory.wf.jobStatus {j st} (h : Memory.wf s) : Memory.wf (jobStatus s j st) := h.engineWrite

theorem Memory.wf.jobTake {q w enq trust} (h : Memory.wf s) : Memory.wf (jobTake s q w enq trust) := by
  refine .jobShow (.upKeys (.jobStatus (.ite_snd_snd h ?_)))
  split
  next _ _ e => exact (h.engineRead.of_snd e).jobAdmit
  next _ e => exact h.engineRead.of_snd e

theorem Memory.wf.jobStart {op} (h : Memory.wf s) : Memory.wf (jobStart op s) := by
  unfold Machine.jobStart
  split
  · exact h
  · split
    · refine .ite ?_ h
      split
      next _ _ _ _ e => exact (h.qTake.of_snd e).jobTake
      next _ e => exact h.qTake.of_snd e
    next _ e => exact h.qPeek.of_snd e

theorem Memory.wf.jobPut {who a bs} (h : Memory.wf s) : Memory.wf (jobPut s who a bs).2 := .ite_snd h h.engineWrite

theorem Memory.wf.jobRun {j} (h : Memory.wf s) : Memory.wf (jobRun s j).2 := by
  unfold Machine.jobRun
  split
  next _ e => exact h.jobDesc.of_snd e
  next _ _ e =>
    have h₁ := h.jobDesc.of_snd e
    dsimp only
    split
    next _ e => exact h₁.engineRead.of_snd e
    next _ _ e =>
      have h₂ := h₁.engineRead.of_snd e
      split
      next _ e => exact h₂.engineRead.of_snd e
      next _ _ e =>
        have h₃ := h₂.engineRead.of_snd e
        split
        next _ e => exact h₃.engineRead.of_snd e
        next _ _ e =>
          have h₄ := h₃.engineRead.of_snd e
          exact .ite_snd h₄.jobPut (.ite_snd h₄.jobPut.jobPut h₄.jobPut.jobPut)

theorem Memory.wf.jobTally {st} (h : Memory.wf s) : Memory.wf (jobTally s st) := .ite h.bump h.bump

theorem Memory.wf.jobEvents {st} (h : Memory.wf s) : Memory.wf (jobEvents s st) := .event (.ite h.bump.event h)

theorem Memory.wf.jobEnd {j st} (h : Memory.wf s) : Memory.wf (jobEnd s j st) := by
  refine .jobEvents ?_
  split
  next _ _ e =>
    have h₁ := h.jobTally.jobStatus.jobDesc.of_snd e
    exact .ite h₁.qEnq h₁
  next _ e => exact h.jobTally.jobStatus.jobDesc.of_snd e

theorem Memory.wf.execCipherJobDone (h : Memory.wf s) : SoundNext (execCipherJobDone s) := by
  unfold Machine.execCipherJobDone
  split
  · exact .next h
  · refine .next (.jobShow (.jobEnd ?_))
    split
    · exact h.upKeys
    · exact h.upKeys.jobRun

theorem Memory.wf.micOpen {m f} (h : Memory.wf s) : Memory.wf (micOpen s m f).2.2 := by
  unfold Machine.micOpen
  split
  next _ _ _ e => exact h.jobAdmit.of_snd_snd e
  next _ _ e => exact h.jobAdmit.of_snd_snd e

theorem Memory.wf.micResult {w f st plain} (h : Memory.wf s) : Memory.wf (micResult s w f st plain) := by
  unfold Machine.micResult
  dsimp only
  split
  · exact .ite h.trackerTake h
  · exact .ite (.rxAccept (.ite h.trackerTake h)) (.lnkStat (.lnkEvent (.bump (.ite (.engineWrite (.ite h.trackerTake h)) (.ite h.trackerTake h)))))

theorem Memory.wf.execMicVerifyDone (h : Memory.wf s) : SoundNext (execMicVerifyDone s) := by
  refine .ite (.next h) ?_
  split
  · exact .next h
  · dsimp only
    split
    · exact .next h.upLnk
    · exact .next h.upLnk.micOpen.jobTally.jobEvents.micResult

/-! ### Machine/Migrate.lean -/

theorem Memory.wf.flashCopy {who a src dst n sec} (h : Memory.wf s) : Memory.wf (flashCopy s who a src dst n sec).2 := by
  unfold Machine.flashCopy
  split
  next _ e => exact h.mappedRead.of_snd e
  next _ _ e =>
    have h₁ := h.mappedRead.of_snd e
    split
    · exact h₁
    · exact h₁.flashProgram
    · exact h₁.flashProgram

theorem Memory.wf.migCopy {c m o n} (h : Memory.wf s) : Memory.wf (migCopy s c m o n).2 := .ite_snd h.flashCopy h.copyRange

theorem Memory.wf.copyDirty {c m} (h : Memory.wf s) : Memory.wf (copyDirty s c m).2 := .foldl_snd h fun _ _ hu => .ite_snd hu.migCopy hu

theorem Memory.wf.upMig {c f} (h : Memory.wf s) : Memory.wf (upMig s c f) := h.upStg

theorem Memory.wf.migStart {c page tier f second} (h : Memory.wf s) : Memory.wf (migStart s c page tier f second) :=
  h.bankOn.setPte.upMig.setFld.setFld.setBit

theorem Memory.wf.migGo {c} (h : Memory.wf s) : Memory.wf (migGo s c) := .ite h.setBit (.ite h h.migStart)

theorem Memory.wf.migCopyDone {c} (h : Memory.wf s) : Memory.wf (migCopyDone s c) := by
  refine .ite (.ite h.memRefused.migAbort ?_) h
  split
  next _ e => exact (h.migCopy.of_snd e).migAbort
  next _ e => exact (h.migCopy.of_snd e).setFld.upMig.setFld.setFld

theorem Memory.wf.migPassDone {c} (h : Memory.wf s) : Memory.wf (migPassDone s c) := by
  refine .ite (.ite h.memRefused.migAbort (.ite h.setFld.setFld (.ite ?_ h.setFld.migAbort))) h
  split
  next _ e => exact (h.setFld.copyDirty.of_snd e).migAbort
  next _ e => exact (h.setFld.copyDirty.of_snd e).upMig.bump

theorem Memory.wf.remapReservations {src} (h : Memory.wf s) : Memory.wf (remapReservations s src) := h.of_eq rfl rfl

theorem Memory.wf.migFinalDone {c} (h : Memory.wf s) : Memory.wf (migFinalDone s c) := by
  refine .ite (.ite h (.ite h.memRefused.migAbort ?_)) h
  split
  next _ e => exact (h.copyDirty.of_snd e).migAbort
  next _ e =>
    have h₁ := h.copyDirty.of_snd e
    exact .setFld (.setFld (.upMig (.ite h₁.setPte h₁.setPte.remapReservations)))

theorem Memory.wf.sweepPages (h : Memory.wf s) : Memory.wf (sweepPages s) := .foldl h fun _ _ hu => .ite hu.setPte hu

theorem Memory.wf.policyStart {n} (h : Memory.wf s) : Memory.wf (policyStart s n) := by
  induction n generalizing s with
  | zero => exact h
  | succ n ih =>
    unfold Machine.policyStart
    split
    · dsimp only
      split
      · exact ih h.upStg.upStg.migStart
      · exact ih h.upStg
    · exact h

theorem Memory.wf.policyRun (h : Memory.wf s) : Memory.wf (policyRun s) := h.upStg.policyStart

theorem Memory.wf.migStatRead {c} (h : Memory.wf s) : Memory.wf (migStatRead s c) := .ite (.policyStart (.setFld (.ite h.bump h))) h

/-! ### Machine/Power.lean -/

theorem Memory.wf.prepRetain {keep rp} (h : Memory.wf s) : Memory.wf (prepRetain keep s rp) := by
  refine .ite h (.ite (.ite h.setPte h) ?_)
  split
  · exact h.setPte
  · dsimp only
    split
    · exact .ite h.setPte.movePage h.setPte.movePage.setPte
    · exact h.setPte.setPte

theorem Memory.wf.losePage {rp} (h : Memory.wf s) : Memory.wf (losePage s rp) := by
  refine .upStg ?_
  split
  · exact h.setPte.setRegion
  · exact h.setPte

theorem Memory.wf.prepVolatile {keep rp} (h : Memory.wf s) : Memory.wf (prepVolatile keep s rp) := by
  refine .ite h (.ite ?_ (.ite ?_ h.setPte.losePage))
  · split
    · exact .ite h.setPte h
    · exact h
  · split
    · exact .ite h.setPte.movePage h.setPte.movePage.losePage
    · exact h.setPte.losePage

theorem Memory.wf.prepPages {keep} (h : Memory.wf s) : Memory.wf (prepPages s keep) :=
  .foldl (.foldl h fun _ _ hu => hu.prepRetain) fun _ _ hu => hu.prepVolatile

theorem Memory.wf.bankStat (h : Memory.wf s) : Memory.wf (bankStat s) := h.wr

theorem Memory.wf.dropDom {d a n c} (h : Memory.wf s) : Memory.wf (dropDom s d a n c) := h.clearRange.setDom

theorem Memory.wf.serialDown (h : Memory.wf s) : Memory.wf (serialDown s) :=
  .foldl (.foldl (h.of_eq rfl rfl) fun _ _ hu => hu.setFld.wr) fun _ _ hu => hu.setFld.setFld

theorem Memory.wf.blocksDown (h : Memory.wf s) : Memory.wf (blocksDown s) := .with_keys (.setDom (.setBit (.resetRegs h.serialDown)))

theorem Memory.wf.nvmDown {c} (h : Memory.wf s) : Memory.wf (nvmDown s c) := h.upNvm.setDom

theorem Memory.wf.radioOff (h : Memory.wf s) : Memory.wf (radioOff s) := h.resetRegs.setDom

theorem Memory.wf.linkOff (h : Memory.wf s) : Memory.wf (linkOff s) := h.receiverStop.upTxc.setTxState.dropDom.wr.upCore.upLnk.floorNow.scStat

theorem Memory.wf.playerOff {p} (h : Memory.wf s) : Memory.wf (playerOff s p) := h.dropDom.wr.upCore

theorem Memory.wf.domsFor {st keep} (h : Memory.wf s) : Memory.wf (domsFor s st keep) :=
  have h₁ : Memory.wf _ := .foldl (.foldl h fun _ _ hu => hu.playerOff) fun _ _ hu => .ite (.ite hu.setDom hu) hu.dropDom
  have h₂ : Memory.wf _ := .ite h₁.dramsysOff (.ite h₁.selfRefreshEnter h₁)
  .bankStat (.upCore (.blocksDown (.ite h₂.nvmDown.setDom.linkOff.radioOff h₂.nvmDown.setDom.setDom.setDom)))

theorem Memory.wf.vcoreStart (h : Memory.wf s) : Memory.wf (vcoreStart s) := .ite (.ite h.upPwr h) (.setBit (.setFld (.ite h.upPwr h)))

theorem Memory.wf.vcoreUpdate (h : Memory.wf s) : Memory.wf (vcoreUpdate s) := .ite h h.vcoreStart

theorem Memory.wf.playerClocked {n} (h : Memory.wf s) : Memory.wf (playerClocked s n) := h.upPwr

theorem Memory.wf.pwrReqWrite {v} (h : Memory.wf s) : Memory.wf (pwrReqWrite s v) :=
  .ite h (.ite h.wr.setBit.upPwr (.ite (.ite h.wr.setPwr.upPwr.setHold.showWaiting h.wr) h.wr.setPwr.upPwr.setHold.showWaiting))

theorem Memory.wf.heldRequest (h : Memory.wf s) : Memory.wf (heldRequest s) := by
  unfold Machine.heldRequest
  split
  · exact h.setBit.upPwr.pwrReqWrite
  · exact h

theorem Memory.wf.powerCommit {keep} (h : Memory.wf s) : Memory.wf (powerCommit s keep) :=
  .ite h.setPwr.setFld.upPwr.setHold.prepPages.mramFlush h.setPwr.setFld.upPwr.setHold.prepPages.mramFlush.domsFor

theorem Memory.wf.execPowerCommit {rest} (h : Memory.wf s) : SoundNext (execPowerCommit rest s) :=
  .ite (.next h) (.ite (.next h.showWaiting) (.next h.powerCommit))

theorem Memory.wf.clocksOff (h : Memory.wf s) : Memory.wf (clocksOff s) := h.setFld.setBit.setFld

theorem Memory.wf.rcCalibrate (h : Memory.wf s) : Memory.wf (rcCalibrate s) := h.draw.setFld.setBit

theorem Memory.wf.clocksOn (h : Memory.wf s) : Memory.wf (clocksOn s) := h.setFld.rcCalibrate

theorem Memory.wf.blackoutWake {b} (h : Memory.wf s) : Memory.wf (blackoutWake s b) := .mainReset (.ite h.setFld.setBit h.setFld)

theorem Memory.wf.execPowerStateReached (h : Memory.wf s) : SoundNext (execPowerStateReached s) := by
  refine .ite (.next h) (.ite ?_ ?_)
  · dsimp only
    split
    · exact .next (.blackoutWake (.ite h.setBit h))
    · exact .next (.upPwr (.setPwr (.of_eq rfl rfl (.ite h.setBit h))))
  · dsimp only
    split
    · exact .next h.setPwr.clocksOff.receiverRelease.pwrEvent.upPwr.heldRequest
    · exact .next h.setPwr.clocksOff.receiverRelease.pwrEvent.upPwr.pwrEvent.startExit

theorem Memory.wf.prompterResume (h : Memory.wf s) : Memory.wf (prompterResume s) := h.startCore

theorem Memory.wf.domsRun (h : Memory.wf s) : Memory.wf (domsRun s) := by
  unfold Machine.domsRun
  dsimp only
  split
  · exact .selfRefreshExit (.foldl (.setDom (.foldl h fun _ _ hu => hu.setDom)) fun _ _ hu => hu.setDom)
  · exact .dramPowerUp (.foldl (.setDom (.foldl h fun _ _ hu => hu.setDom)) fun _ _ hu => hu.setDom)
  · exact .foldl (.setDom (.foldl h fun _ _ hu => hu.setDom)) fun _ _ hu => hu.setDom

theorem Memory.wf.execPowerExitComplete (h : Memory.wf s) : SoundNext (execPowerExitComplete s) :=
  have h₁ : Memory.wf _ := .ite h.setHold.setBit.upCore h.setHold
  have h₂ := h₁.domsRun.clocksOn.setFld
  have h₃ : Memory.wf _ := .foldl h₁ fun _ _ hu => .ite hu.setDom hu
  have h₄ := h₃.setDom.setDom.setDom.setDom.setPwr
  have run : Memory.wf _ := .setPwr (.ite h₂.receiverStart h₂)
  have radio : Memory.wf _ := .ite h₄.receiverForce h₄
  .ite (.next h) (.ite (.next run.prompterResume.vcoreUpdate.policyRun.pwrEvent.bankStat.upPwr.heldRequest)
    (.next radio.pwrEvent.bankStat.upPwr.heldRequest))

theorem Memory.wf.execDozeEnter (h : Memory.wf s) : SoundNext (execDozeEnter s) :=
  have h₁ : Memory.wf _ := .foldl h.setPwr.setDom fun _ _ hu => .ite hu.setDom hu
  have h₂ : Memory.wf _ := .ite h₁.nvmDown h₁
  .ite (.next (.vcoreUpdate (.ite h₂.setDom h₂))) (.next h)

theorem Memory.wf.execDozeExit (h : Memory.wf s) : SoundNext (execDozeExit s) :=
  .ite (.next (.vcoreUpdate (.setDom (.setDom (.foldl h.setPwr.setDom fun _ _ hu => .ite hu.setDom.playerClocked hu))))) (.next h)

theorem Memory.wf.execAutoRestReturn (h : Memory.wf s) : SoundNext (execAutoRestReturn s) := .ite (.next h.upPwr.powerCommit) (.next h)

theorem Memory.wf.execVbatCheck {mv bkup} (h : Memory.wf s) : SoundNext (execVbatCheck mv bkup s) :=
  .next (.when (.when (.when (.when h.setFld.setBit.setBit.setBit fun _ hu => hu.dramLowVbat) fun _ hu => hu.dramPowerUp) fun _ hu => hu.pwrEvent) fun
      _ hu => hu.pwrEvent)

theorem Memory.wf.execBackupSupplySwitch {mv bkup} (h : Memory.wf s) : SoundNext (execBackupSupplySwitch mv bkup s) :=
  .ite (.next h.setBit) (.ite (.next h.setBit) (.next h))

theorem Memory.wf.resetBackup (h : Memory.wf s) : Memory.wf (resetBackup s) := ⟨h.1, sparseWf_filter _ _ _ h.2⟩

theorem Memory.wf.rtcLatch (h : Memory.wf s) : Memory.wf (rtcLatch s) := h.wr.wr.wr.wr.wr

theorem Memory.wf.rtcStage {a g v} (h : Memory.wf s) : Memory.wf (rtcStage s a g v) := .ite h.setBit h.plainWrite.upRtc

theorem Memory.wf.rtcCmd {v} (h : Memory.wf s) : Memory.wf (rtcCmd s v) := .ite h (.ite h.setBit h.setBit.upRtc)

theorem Memory.wf.execRtcApplyTransfer (h : Memory.wf s) : SoundNext (execRtcApplyTransfer s) := .ite (.next h.upRtc) (.next h)

theorem Memory.wf.execRtcApplyCommit (h : Memory.wf s) : SoundNext (execRtcApplyCommit s) :=
  have h₁ : Memory.wf _ := .ite (.ite h.upRtc h.upRtc.setBit) h
  have h₂ : Memory.wf _ := .ite h₁.setFld h₁
  have h₃ : Memory.wf _ := .ite h₂.upRtc h₂
  have h₄ : Memory.wf _ := .ite h₃.upRtc h₃
  .ite (.next h) (.next h₄.setBit.upRtc)

theorem Memory.wf.execRtcAlarm {n} (h : Memory.wf s) : SoundNext (execRtcAlarm n s) :=
  have h₁ : Memory.wf _ := .when (.setBit (.ite h.setBit h)) fun _ hu => hu.emitProducer
  have h₂ : Memory.wf _ := .ite h₁.upRtc.setBit h₁.upRtc.wr.wr
  .ite (.next h) (.ite (.next h₂.blackoutWake) (.next h₂.wakeEvent))

theorem Memory.wf.execRtcTrimUpdate {temp} (h : Memory.wf s) : SoundNext (execRtcTrimUpdate temp s) := .ite (.next h.setFld.setFld) (.next h.setFld)

theorem Memory.wf.rtcStatusWrite {v} (h : Memory.wf s) : Memory.wf (rtcStatusWrite s v) :=
  .ite (.setBit (.ite (.setBit (.ite h.setBit h)) (.ite h.setBit h))) (.ite (.setBit (.ite h.setBit h)) (.ite h.setBit h))

theorem Memory.wf.execBlackoutWake {src} (h : Memory.wf s) : SoundNext (execBlackoutWake src s) := .ite (.next h.blackoutWake) (.next h)

theorem Memory.wf.rtcEdge (h : Memory.wf s) : Memory.wf (rtcEdge s) := .ite h h.upRtc

/-! ### Machine/Timers.lean -/

theorem Memory.wf.upTimer {x f} (h : Memory.wf s) : Memory.wf (upTimer s x f) := h.of_eq rfl rfl

theorem Memory.wf.upChan {x n f} (h : Memory.wf s) : Memory.wf (upChan s x n f) := h.upTimer

theorem Memory.wf.tmEvent {x b} (h : Memory.wf s) : Memory.wf (tmEvent s x b) := .when h.setBit fun _ hu => hu.emitProducer

theorem Memory.wf.tmDrive {x n ref} (h : Memory.wf s) : Memory.wf (tmDrive s x n ref) := h.upChan

theorem Memory.wf.tmRefs {x tick} (h : Memory.wf s) : Memory.wf (tmRefs s x tick) :=
  .foldl h fun _ _ hu => .ite hu (.when hu.tmDrive fun _ hv => hv.tmEvent)

theorem Memory.wf.padsSampled (h : Memory.wf s) : Memory.wf (padsSampled s) := h.of_eq rfl rfl

theorem Memory.wf.tmBreak {x} (h : Memory.wf s) : Memory.wf (tmBreak s x) := h.setBit.tmEvent

theorem Memory.wf.tmBreakCheck {x} (h : Memory.wf s) : Memory.wf (tmBreakCheck s x) := .when h.setBit fun _ hu => hu.tmBreak

theorem Memory.wf.setExt {p v} (h : Memory.wf s) : Memory.wf (setExt s p v) := .tmBreakCheck (.tmBreakCheck (.ite h (h.of_eq rfl rfl)))

theorem Memory.wf.tmCopy {x} (h : Memory.wf s) : Memory.wf (tmCopy s x) :=
  .tmEvent (.when (.ite h (.foldl h.wr.setFld fun _ _ hu => hu.wr)) fun _ hu => hu.setBit)

theorem Memory.wf.tmCounters {x} (h : Memory.wf s) : Memory.wf (tmCounters s x) := .foldl h fun _ _ hu => .when hu.upChan fun _ hv => hv.setBit

theorem Memory.wf.execTimerCountTick {x} (h : Memory.wf s) : SoundNext (execTimerCountTick x s) :=
  .ite (.next h) (.ite (.next h.upTimer.tmCounters.wr.tmRefs) (.next (.tmRefs (.when h.upTimer.tmCounters.wr.setBit fun _ hu => hu.tmCopy))))

theorem Memory.wf.execDeadTimeExpiry {x n neg} (h : Memory.wf s) : SoundNext (execDeadTimeExpiry x n neg s) :=
  .ite (.ite (.next h.upChan) (.next h)) (.ite (.next h.upChan) (.next h))

theorem Memory.wf.tmStop {x} (h : Memory.wf s) : Memory.wf (tmStop s x) := h.setBit.upTimer

theorem Memory.wf.tmStart {x} (h : Memory.wf s) : Memory.wf (tmStart s x) := .foldl h.setBit fun _ _ hu => hu.tmDrive

theorem Memory.wf.tmTakeTrg {x k} (h : Memory.wf s) : Memory.wf (tmTakeTrg s x k) := .ite h.setOvr (.ite h h.upTimer)

theorem Memory.wf.tmAct {x act f} (h : Memory.wf s) (hf : ∀ u, Memory.wf u → Memory.wf (f u)) : Memory.wf (tmAct s x act f) := .ite (hf _ h.upTimer) h

theorem Memory.wf.tmRestart {x} (h : Memory.wf s) : Memory.wf (tmRestart s x) := h.wr.setBit.upTimer.tmCopy.tmRefs

theorem Memory.wf.execTimerBreakPin {x} (h : Memory.wf s) : SoundNext (execTimerBreakPin x s) := by
  unfold Machine.execTimerBreakPin
  split
  · exact .next h.setExt
  · exact .next h

theorem Memory.wf.execTimerBreakRelease {x} (h : Memory.wf s) : SoundNext (execTimerBreakRelease x s) := by
  unfold Machine.execTimerBreakRelease
  split
  · exact .next h.setExt
  · exact .next h

theorem Memory.wf.tmCueBreak {x} (h : Memory.wf s) : Memory.wf (tmCueBreak s x) := .ite h.tmBreak h

theorem Memory.wf.execTimerBreakCue {x} (h : Memory.wf s) :
    SoundNext (execTimerBreakCue x s) :=
  .ite (.next (.tmCueBreak (h.of_eq rfl rfl))) (.next h)

theorem Memory.wf.tmCapture {x n} (h : Memory.wf s) : Memory.wf (tmCapture s x n) := .tmEvent (.wr (.when h fun _ hu => hu.setBit))

theorem Memory.wf.execTimerCaptureEdge {x n rising} (h : Memory.wf s) : SoundNext (execTimerCaptureEdge x n rising s) :=
  .ite (.next h) (.ite (.next h) (.ite (.next h.upChan.tmCapture) (.next h.upChan)))

theorem Memory.wf.execTimerPulseEdge {x n rising} (h : Memory.wf s) : SoundNext (execTimerPulseEdge x n rising s) := by
  refine .ite (.next h) (.ite (.next h.wr.upChan) ?_)
  split
  · exact .next h
  · exact .next (.tmEvent (.when h.upChan.wr.wr fun _ hu => hu.setBit))

theorem Memory.wf.tmPhaseChange (h : Memory.wf s) : Memory.wf (tmPhaseChange s) := h.of_eq rfl rfl

theorem Memory.wf.tmCtrlWrite {x v trusted} (h : Memory.wf s) : Memory.wf (tmCtrlWrite s x v trusted) :=
  have h₁ : Memory.wf _ := .tmBreakCheck (.ite h.plainWrite.setBit h.plainWrite)
  have h₂ : Memory.wf _ := .when (.when h₁ fun _ hu => hu.setBit) fun _ hu => hu.setFld
  .ite h₂.tmStart (.ite h₂.tmStop h₂)

theorem Memory.wf.tmCntWrite {x v trusted} (h : Memory.wf s) : Memory.wf (tmCntWrite s x v trusted) := h.plainWrite.tmRefs

theorem Memory.wf.tmPerWrite {x v trusted} (h : Memory.wf s) : Memory.wf (tmPerWrite s x v trusted) := .ite h.plainWrite.wr h.plainWrite

theorem Memory.wf.tmCcWrite {x n v trusted} (h : Memory.wf s) : Memory.wf (tmCcWrite s x n v trusted) :=
  .ite h (.ite h.plainWrite.wr.tmRefs h.plainWrite)

theorem Memory.wf.tmChWrite {x n v trusted} (h : Memory.wf s) :
    Memory.wf (tmChWrite s x n v trusted) :=
  .tmRefs (.ite h.plainWrite h.plainWrite.upChan)

theorem Memory.wf.tmStatus {x} (h : Memory.wf s) : Memory.wf (tmStatus s x) := h.setBit.setBit

/-! ### Machine/Recover.lean -/

theorem Memory.wf.closeRecovered {r} (h : Memory.wf s) : Memory.wf (closeRecovered s r) := h.journalWrite

theorem Memory.wf.recoverRec {r} (h : Memory.wf s) : Memory.wf (recoverRec s r) := by
  unfold Machine.recoverRec
  split
  · exact .ite h.journalWrite.setWear h.closeRecovered
  · exact .ite h.journalWrite h.closeRecovered
  · exact .ite h.journalWrite h.setBit
  · exact h.closeRecovered

theorem Memory.wf.recoverFlash (h : Memory.wf s) : Memory.wf (recoverFlash s) := by
  refine .setBit (.foldl (.foldl (.foldl (.foldl ?_ fun _ _ hu => hu.wr) fun _ _ hu => hu.recoverRec) fun _ _ hu => hu.setLive) fun _ _ hu =>
      hu.setBit)
  split
  · exact h.mramFlush.setFld.wr
  · exact h.mramFlush

/-! ### Machine/Units.lean -/

theorem Memory.wf.pkaPut {off bs} (h : Memory.wf s) : Memory.wf (pkaPut s off bs) := h.wrWords

theorem Memory.wf.pkaOp {op} (h : Memory.wf s) : Memory.wf (pkaOp s op).2 := by
  unfold Machine.pkaOp
  dsimp only
  split
  · exact .ite_snd h (.ite_snd h h.drawScalar.pkaPut.pkaPut)
  · exact .ite_snd h (.ite_snd h h)
  · exact .ite_snd h (.ite_snd h.pkaPut h.pkaPut)
  · exact .ite_snd h h.drawScalar.pkaPut.pkaPut.pkaPut
  · exact h
  · exact .ite_snd h.pkaPut h.pkaPut

theorem Memory.wf.pkaEnd {res} (h : Memory.wf s) : Memory.wf (pkaEnd s res) := h.setFld.setBit.upKeys.event

theorem Memory.wf.pkaCmdWrite {v} (h : Memory.wf s) : Memory.wf (pkaCmdWrite s v) := .ite h (.ite h.pkaEnd h.setBit.upKeys)

theorem Memory.wf.execPkaDone (h : Memory.wf s) : SoundNext (execPkaDone s) := by
  unfold Machine.execPkaDone
  split
  · exact .next h
  · exact .next (.pkaEnd (.ite h.pkaOp h.pkaOp.pkaPut))

theorem Memory.wf.hshFeed {bs} (h : Memory.wf s) : Memory.wf (hshFeed s bs) := h.upKeys

theorem Memory.wf.hshCtrlWrite {v} (h : Memory.wf s) : Memory.wf (hshCtrlWrite s v) := .ite h.plainWrite.wr.upKeys h.plainWrite

theorem Memory.wf.hshPush {v} (h : Memory.wf s) : Memory.wf (hshPush s v) := .ite h h.hshFeed

theorem Memory.wf.hshGo {v} (h : Memory.wf s) : Memory.wf (hshGo s v) := .ite h (.ite h.setBit h.wr.upKeys)

theorem Memory.wf.execHshDone (h : Memory.wf s) : SoundNext (execHshDone s) := by
  unfold Machine.execHshDone
  split
  · exact .next h
  · dsimp only
    split
    next _ e => exact .next (.wr (.of_snd e (.ite_snd h.upKeys.physRead h.upKeys)))
    next _ _ e =>
      have h₁ := Memory.wf.of_snd e (.ite_snd h.upKeys.physRead h.upKeys)
      exact .next (.emitProducer (.wr (.ite (.wrWords (.ite h₁.hshFeed.hshFeed h₁.hshFeed)) (.ite h₁.hshFeed.hshFeed h₁.hshFeed))))

theorem Memory.wf.rngShow (h : Memory.wf s) : Memory.wf (rngShow s) := h.setFld

theorem Memory.wf.rngStop (h : Memory.wf s) : Memory.wf (rngStop s) := h.setBit.upKeys.rngShow

theorem Memory.wf.rngCtrlWrite {v} (h : Memory.wf s) : Memory.wf (rngCtrlWrite s v) :=
  .ite (.draw (.ite (.rngStop (.setBit (.ite h.plainWrite.setBit.rngStop h.plainWrite))) (.ite h.plainWrite.setBit.rngStop h.plainWrite))) (.ite
      (.rngStop (.setBit (.ite h.plainWrite.setBit.rngStop h.plainWrite))) (.ite h.plainWrite.setBit.rngStop h.plainWrite))

theorem Memory.wf.rngRead (h : Memory.wf s) : Memory.wf (rngRead s).2 := by
  unfold Machine.rngRead
  split
  · exact h.setBit
  · exact h.draw.upKeys.rngShow

theorem Memory.wf.execTrngStartupDone (h : Memory.wf s) :
    SoundNext (execTrngStartupDone s) :=
  .ite (.next h.drawBytes.setFld.upKeys.rngShow) (.next h)

theorem Memory.wf.execTrngHealthFail (h : Memory.wf s) : SoundNext (execTrngHealthFail s) :=
  .ite (.next h) (.next h.setBit.setBit.rngStop.setBit.emitProducer)

theorem Memory.wf.keyErase (h : Memory.wf s) : Memory.wf (keyErase s) := h.upKeys.resetRegs.resetRegs.setBit.drawBytes.upKeys.rngShow

theorem Memory.wf.alarmCommand {words} (h : Memory.wf s) : Memory.wf (alarmCommand s words) := by
  unfold Machine.alarmCommand
  split
  · exact h
  · refine .keyEnd (.ite ?_ h)
    split
    next _ _ e => exact (h.slotCommand.of_snd_snd e).slotWriteWords
    · exact h

theorem Memory.wf.alarm {i words} (h : Memory.wf s) : Memory.wf (alarm s i words) :=
  have h₁ : Memory.wf _ := .foldl h.alarmCommand.upKeys fun _ _ hu => hu.jobEnd
  have h₂ : Memory.wf _ := .ite h₁.pkaEnd h₁
  have h₃ := h₂.jobShow.keyErase.draw.upKeys.setBit.setBit.setBit.setBit.bump.logFault
  .ite h (.ite h₃.emitProducer h₃)

/-! ### Machine/Svc.lean -/

theorem Memory.wf.upSvc {f} (h : Memory.wf s) : Memory.wf (s.upSvc f) := h.of_eq rfl rfl

theorem Memory.wf.svcEvent {b} (h : Memory.wf s) : Memory.wf (svcEvent s b) := h.event

theorem Memory.wf.svcStat (h : Memory.wf s) : Memory.wf (svcStat s) := h.setFld.setBit

theorem Memory.wf.svcDiscard {b} (h : Memory.wf s) : Memory.wf (svcDiscard s b) := h.bump.svcEvent

theorem Memory.wf.svcGood (h : Memory.wf s) : Memory.wf (svcGood s) := h.bump.upSvc.svcEvent

theorem Memory.wf.execSvcPacketReceive {body crcOk} (h : Memory.wf s) : SoundNext (execSvcPacketReceive body crcOk s) := by
  refine .ite (.next h) (.ite (.next h.svcDiscard) (.ite (.next h.svcGood.upSvc) ?_))
  split
  · exact .next h.svcDiscard
  · dsimp only
    split
    next _ e => exact .next (h.engineWrite.of_snd e).svcDiscard
    next _ e => exact .next (h.engineWrite.of_snd e).upSvc.svcStat.qProduce.svcGood

theorem Memory.wf.execSvcGapTimeout (h : Memory.wf s) : SoundNext (execSvcGapTimeout s) := .ite (.next h.setBit.svcDiscard) (.next h)

theorem Memory.wf.svcRxfree {v} (h : Memory.wf s) : Memory.wf (svcRxfree s v) := h.upSvc.svcStat

theorem Memory.wf.svcRate (h : Memory.wf s) : Memory.wf (svcRate s) := by
  unfold Machine.svcRate
  split
  · exact h
  · exact h.setFld.upSvc

theorem Memory.wf.execSvcReplyDone (h : Memory.wf s) : SoundNext (execSvcReplyDone s) := by
  refine .ite (.next h) ?_
  split
  · exact .next h.upSvc.svcRate.svcStat.svcEvent
  · split
    next _ e => exact .next (h.qTake.of_snd e)
    next _ _ _ e => exact .next (h.qTake.of_snd e).engineWrite.svcEvent

theorem Memory.wf.execSvcRateRevert (h : Memory.wf s) : SoundNext (execSvcRateRevert s) := .ite (.next h.setFld.upSvc) (.next h)

theorem Memory.wf.settingsWrite {body} (h : Memory.wf s) : Memory.wf (settingsWrite s body) := h.performWrite.performWrite.upSvc

theorem Memory.wf.settingsSet {i n v} (h : Memory.wf s) : Memory.wf (settingsSet s i n v) := by
  unfold Machine.settingsSet
  exact h.settingsWrite

theorem Memory.wf.svcPresent (h : Memory.wf s) : Memory.wf (svcPresent s) := h.upSvc

theorem Memory.wf.motionSeen (h : Memory.wf s) : Memory.wf (motionSeen s) := by
  unfold Machine.motionSeen
  split
  · exact h.wr
  · exact h

theorem Memory.wf.svcRefused (h : Memory.wf s) : Memory.wf (svcRefused s) := .ite h.motionSeen h

theorem Memory.wf.svcReply {req rep} (h : Memory.wf s) : Memory.wf (svcReply s req rep) := h.upSvc.svcStat

theorem Memory.wf.svcServe {cmd seq payload f} (h : Memory.wf s) (hf : ∀ u, Memory.wf u → Memory.wf (f u).2) :
    Memory.wf (svcServe s cmd seq payload f) := by
  refine .ite h (.ite h.upSvc.svcStat (.ite h.svcReply ?_))
  dsimp only
  split
  · exact (hf _ h).svcReply
  · exact (hf _ h).upSvc

/-! ### Machine/Update.lean -/

theorem Memory.wf.showEpochs (h : Memory.wf s) : Memory.wf (showEpochs s) := h.wr.wr

theorem Memory.wf.writeBurst {b kind epoch journal} (h : Memory.wf s) : Memory.wf (writeBurst s b kind epoch journal) := h.flashEpoch.showEpochs

theorem Memory.wf.eraseImage {sec} (h : Memory.wf s) : Memory.wf (eraseImage s sec).2 := h.flashErase.upSvc

theorem Memory.wf.enterRecovery {reason} (h : Memory.wf s) : Memory.wf (enterRecovery s reason) := h.setFld.setFld.upBoot.recoverFlash

theorem Memory.wf.ownerOtp {w} (h : Memory.wf s) : Memory.wf (ownerOtp s w).2 := h.otpRun.setFld

theorem Memory.wf.ownerRun {op arg} (h : Memory.wf s) : Memory.wf (ownerRun s op arg).2 := by
  unfold Machine.ownerRun
  split
  · exact h.settingsSet
  · exact h.settingsSet
  · dsimp only
    split
    · exact h
    · exact h.settingsSet
  · split
    · exact h.wrWords.ownerOtp
    · exact h
  · split
    · exact h
    · exact h.ownerOtp
  · exact h.ownerOtp
  · exact h.ownerOtp
  · exact h.setBit
  · split
    · dsimp only
      exact h.enterRecovery
    · exact h

theorem Memory.wf.ownerServe {op seq payload} (h : Memory.wf s) : Memory.wf (ownerServe op seq payload s) :=
  .ite h (.svcServe h fun _ hu => .ite_snd hu.upSvc (.ite_snd hu.upSvc.ownerRun hu.upSvc))

theorem Memory.wf.stageClear {u} (h : Memory.wf s) : Memory.wf (stageClear s u) := h.upSvc

theorem Memory.wf.imageWrite {sec j bs} (h : Memory.wf s) : Memory.wf (imageWrite s sec j bs).2 :=
  .foldl_snd h fun _ _ hu => .ite_snd hu (.ite_snd (.flashProgram (.ite_snd hu hu.eraseImage)) (.ite_snd hu hu.eraseImage))

theorem Memory.wf.loadData {region data ok} (h : Memory.wf s) : Memory.wf (loadData s region data ok).2 :=
  have h₁ : Memory.wf _ := .ite_snd h.imageWrite h.imageWrite
  have h₂ : Memory.wf _ := .ite h₁.upSvc h₁.upSvc
  have h₃ : Memory.wf _ := .ite_snd (.foldl_snd h₂ fun _ _ hu => .ite_snd hu hu.eraseImage) h₂
  .ite_snd h₃.stageClear (.ite h₃.upSvc h₃)

theorem Memory.wf.loadRun {p ok} (h : Memory.wf s) : Memory.wf (loadRun s p ok).2 :=
  .ite_snd h (.ite_snd h.svcRefused (.ite_snd h (.ite_snd (.ite_snd h (.ite_snd h (.ite_snd h (.loadData (.upSvc (.stageClear (.ite h.flashRetire
      h))))))) (.ite_snd h (.ite_snd h h.loadData)))))

theorem Memory.wf.execSvcVerify {seq payload} (h : Memory.wf s) : SoundNext (execSvcVerify seq payload s) :=
  .next (.svcServe h fun _ hu => .ite_snd hu (.ite_snd hu.upSvc hu.stageClear))

theorem Memory.wf.loadTcm {b n off len} (h : Memory.wf s) : Memory.wf (loadTcm s b n off len) := h.setBytes

theorem Memory.wf.placeImage {b} (h : Memory.wf s) : Memory.wf (placeImage s b) := .foldl (.ite h.loadTcm h.loadTcm.loadTcm) fun _ _ hu => hu.wr

theorem Memory.wf.pausePlayers (h : Memory.wf s) :
    Memory.wf (pausePlayers s) :=
  .upSvc (.setFld (.foldl h fun _ _ hu => .ite hu hu.setCore.wdRestart))

theorem Memory.wf.releasePlayers (h : Memory.wf s) : Memory.wf (releasePlayers s) := .foldl h fun _ _ hu => .ite hu.setBit.enterCore hu

theorem Memory.wf.healthStart (h : Memory.wf s) : Memory.wf (healthStart s) := h.setBit.setFld.upBoot

theorem Memory.wf.healthStop (h : Memory.wf s) : Memory.wf (healthStop s) := h.setBit.upBoot

theorem Memory.wf.liveSwitch {b} (h : Memory.wf s) : Memory.wf (liveSwitch s b) := h.pausePlayers.placeImage.upSvc.releasePlayers

theorem Memory.wf.execSvcActivateLive {seq} (h : Memory.wf s) : SoundNext (execSvcActivateLive seq s) :=
  .next (.svcServe h fun _ hu => .ite_snd (.ite hu.svcRefused hu) (.ite_snd hu hu.setBit.upSvc))

theorem Memory.wf.softReset (h : Memory.wf s) : Memory.wf (softReset s) := h.mainReset

theorem Memory.wf.execSvcActivateReset {seq} (h : Memory.wf s) : SoundNext (execSvcActivateReset seq s) :=
  .next (.ite (.softReset (.svcServe h fun _ hu => .ite_snd (.ite hu.svcRefused hu) hu.writeBurst.upSvc)) (.svcServe h fun _ hu => .ite_snd (.ite
      hu.svcRefused hu) hu.writeBurst.upSvc))

theorem Memory.wf.actReply {st} (h : Memory.wf s) : Memory.wf (actReply s st) := by
  unfold Machine.actReply
  split
  · exact h.svcReply.upSvc
  · exact h

theorem Memory.wf.execActivateDrained (h : Memory.wf s) : SoundNext (execActivateDrained s) :=
  .ite (.next h.writeBurst.writeBurst.liveSwitch.healthStart.upSvc.actReply) (.next h)

theorem Memory.wf.execActivateDrainTimeout (h : Memory.wf s) : SoundNext (execActivateDrainTimeout s) :=
  .ite (.next h.setBit.upSvc.dispatchRun.actReply) (.next h)

theorem Memory.wf.fallback (h : Memory.wf s) : Memory.wf (fallback s) :=
  have h₁ := h.flashRetire.showEpochs
  .ite h₁.liveSwitch.stageClear.healthStop h₁.softReset

theorem Memory.wf.execSvcAbort {seq payload} (h : Memory.wf s) : SoundNext (execSvcAbort seq payload s) :=
  .next (.svcServe h fun _ hu => .ite_snd hu (.ite_snd hu.fallback (.ite_snd hu.stageClear hu)))

theorem Memory.wf.serviceTake {kind} (h : Memory.wf s) : Memory.wf (serviceTake s kind).2 := by
  unfold Machine.serviceTake
  split
  · exact h
  · split
    next _ _ e =>
      have h₁ := h.engineRead.of_snd e
      exact .ite_snd h₁ (.when h₁.qTake.engineWrite fun _ hu => hu.qEnq)
    · exact h.qTake

theorem Memory.wf.execServiceReady (h : Memory.wf s) : SoundNext (execServiceReady s) := by
  unfold Machine.execServiceReady
  split
  next _ e => exact .next (h.serviceTake.of_snd e)
  next _ e =>
    have h₁ := h.serviceTake.of_snd e
    exact .next (.ite h₁.upSvc.setBit.upSvc.dispatchRun h₁.upSvc)

theorem Memory.wf.execServiceConfirm (h : Memory.wf s) : SoundNext (execServiceConfirm s) := by
  unfold Machine.execServiceConfirm
  split
  next _ e => exact .next (h.serviceTake.of_snd e)
  next _ e =>
    have h₁ := h.serviceTake.of_snd e
    exact .ite (.next h₁.writeBurst.healthStop.stageClear) (.next h₁)

/-! ### Machine/Boot.lean -/

theorem Memory.wf.swrstWrite {v} (h : Memory.wf s) : Memory.wf (swrstWrite s v) := .ite h.softReset h

theorem Memory.wf.enterPowered {p} (h : Memory.wf s) : Memory.wf (enterPowered s p) := .ite h.setCore h.enterCore

theorem Memory.wf.playerRst {p} (h : Memory.wf s) : Memory.wf (playerRst s p) := .faultOf (.ite h.playerReset.setCore h.playerReset)

theorem Memory.wf.playholdWrite {v} (h : Memory.wf s) : Memory.wf (playholdWrite s v) :=
  .foldl (.foldl h fun _ _ hu => .when hu fun _ hv => hv.playerRst) fun _ _ hu => .ite hu.setBit.upCore.wdRestart (.ite hu.setBit.enterPowered hu)

theorem Memory.wf.appdivWrite {v trusted} (h : Memory.wf s) : Memory.wf (appdivWrite s v trusted) := h.plainWrite.vcoreUpdate

theorem Memory.wf.execVcoreSlewDone (h : Memory.wf s) : SoundNext (execVcoreSlewDone s) := .ite (.next h.setBit.vcoreStart) (.next h)

theorem Memory.wf.execPlayerPowered {n} (h : Memory.wf s) : SoundNext (execPlayerPowered n s) :=
  .ite (.next h.setDom.enterCore.playerClocked.vcoreUpdate) (.next h)

theorem Memory.wf.takeBlock {b trial reason rest} (h : Memory.wf s) :
    Memory.wf (takeBlock s b trial reason rest) :=
  h.setFld.setFld.setFld.upBoot.upSvc

theorem Memory.wf.selectBlock {reason fail l} (h : Memory.wf s) : Memory.wf (selectBlock s reason fail l) := by
  induction l generalizing reason with
  | nil => exact h.upBoot.enterRecovery
  | cons b rest ih => exact .ite h.takeBlock (.ite h.writeBurst.healthStart.takeBlock ih)

theorem Memory.wf.execBootSequencerStart {svcReq eui trialLim tampEn tampPol} (h : Memory.wf s) :
    SoundNext (execBootSequencerStart svcReq eui trialLim tampEn tampPol s) :=
  .ite (.next h) (.ite (.next h.keyBoot.wr.wr.setFld.setBit.setBit.upBoot.showEpochs.enterRecovery.startCore) (.next
      h.keyBoot.wr.wr.setFld.setBit.setBit.upBoot.showEpochs.selectBlock.startCore))

theorem Memory.wf.execClocksLocked (h : Memory.wf s) : SoundNext (execClocksLocked s) := .ite (.next h.clocksOn.upBoot) (.next h)

theorem Memory.wf.execRecoveryUnlockWindowEnd (h : Memory.wf s) : SoundNext (execRecoveryUnlockWindowEnd s) := .ite (.next h.upBoot) (.next h)

theorem Memory.wf.bootNext (h : Memory.wf s) : Memory.wf (bootNext s) := .ite h.selectBlock h

theorem Memory.wf.bootselWrite {v} (h : Memory.wf s) : Memory.wf (bootselWrite s v) := .ite h.bootNext h

theorem Memory.wf.provision {ok} (h : Memory.wf s) : Memory.wf (provision s ok).2 :=
  .ite_snd h (.ite_snd h.drawBytes.burnRoot.burnFuse.keyBoot h.drawBytes.burnRoot)

theorem Memory.wf.enterImage {a0} (h : Memory.wf s) : Memory.wf (enterImage s a0) := h.setBytes.startCore

theorem Memory.wf.execRomImageVerified {burnOk} (h : Memory.wf s) : SoundNext (execRomImageVerified burnOk s) := by
  refine .ite (.next h) ?_
  have h₁ : Memory.wf (if lifecycle s = 0 then Machine.provision s burnOk else (true, s)).2 := .ite_snd h.provision h
  split
  next _ e => exact .next (h₁.of_snd e).enterRecovery
  next _ e =>
    have h₂ := h₁.of_snd e
    exact .ite (.next h₂.enterImage.upSvc.upBoot.svcPresent) (.next h₂.bootNext)

theorem Memory.wf.execWarmEntryDone (h : Memory.wf s) : SoundNext (execWarmEntryDone s) := by
  unfold Machine.execWarmEntryDone
  exact .ite (.next h) (.ite (.next h.startCore.with_flt) (.ite (.next h.enterImage.with_flt) (.next h)))

theorem Memory.wf.healthExpire (h : Memory.wf s) : Memory.wf (healthExpire s) := h.setBit.upBoot

theorem Memory.wf.healthSecond (h : Memory.wf s) : Memory.wf (healthSecond s) :=
  .ite h (.ite (.ite h.bump.mainReset h.bump.upBoot) (.ite h.bump.healthExpire h.bump))

theorem Memory.wf.healthWrite {v} (h : Memory.wf s) : Memory.wf (healthWrite s v) :=
  .when (.when (.when h fun _ hu => hu.setBit) fun _ hu => hu.healthStart) fun _ hu => hu.healthStop

theorem Memory.wf.execHealthDeadline {served} (h : Memory.wf s) : SoundNext (execHealthDeadline served s) :=
  .ite (.next (.when (.ite h h.healthExpire) fun _ hu => hu.fallback)) (.next h)

theorem Memory.wf.phaseWrite {who v} (h : Memory.wf s) : Memory.wf (phaseWrite s who v) := .ite h.setFld.tmPhaseChange h

/-! ### Machine/Hub.lean -/

theorem Memory.wf.upHub {f} (h : Memory.wf s) : Memory.wf (s.upHub f) := h.of_eq rfl rfl

theorem Memory.wf.upSheet {n f} (h : Memory.wf s) : Memory.wf (upSheet s n f) := h.upHub

theorem Memory.wf.hubEvent {b} (h : Memory.wf s) : Memory.wf (hubEvent s b) := h.event

theorem Memory.wf.hubStatus (h : Memory.wf s) : Memory.wf (hubStatus s) := h.setBit.setBit

theorem Memory.wf.setSheet {n st} (h : Memory.wf s) : Memory.wf (setSheet s n st) := h.setFld.hubStatus

theorem Memory.wf.hubAbort {n} (h : Memory.wf s) : Memory.wf (hubAbort s n) := h.setFld.bump.hubEvent.upSheet.setSheet

theorem Memory.wf.hubError {n code} (h : Memory.wf s) : Memory.wf (hubError s n code) := h.setBit.setFld.hubEvent

theorem Memory.wf.hubGoTo {n pc} (h : Memory.wf s) : Memory.wf (hubGoTo s n pc) := .ite h.hubError.hubAbort h.setFld.upSheet.setSheet

theorem Memory.wf.hubAdvance {n} (h : Memory.wf s) : Memory.wf (hubAdvance s n) := h.hubGoTo

theorem Memory.wf.hubFail {n op code always} (h : Memory.wf s) :
    Memory.wf (hubFail s n op code always) :=
  .ite h.hubError.hubAbort h.hubError.hubAdvance

theorem Memory.wf.hubMissed {n cue} (h : Memory.wf s) : Memory.wf (hubMissed s n cue) := by
  unfold Machine.hubMissed
  dsimp only
  split
  · exact h.bump.hubEvent.setOvr
  · exact h.bump.hubEvent

theorem Memory.wf.hubStart {n} (h : Memory.wf s) : Memory.wf (hubStart s n) := h.setFld.setBit.bump.upSheet.setSheet

theorem Memory.wf.hubTrigger {n cue} (h : Memory.wf s) : Memory.wf (hubTrigger s n cue) :=
  .ite h (.ite h (.ite h.hubMissed (.ite (.ite h.hubStart.wakeEvent h.hubMissed) h.hubStart)))

theorem Memory.wf.execHubRtcTrigger {n} (h : Memory.wf s) : SoundNext (execHubRtcTrigger n s) := .ite (.next h.hubTrigger) (.next h)

theorem Memory.wf.execHubCueTrigger {i} (h : Memory.wf s) : SoundNext (execHubCueTrigger i s) :=
  .ite (.next (.foldl (h.of_eq rfl rfl) fun _ _ hu => .ite hu.hubTrigger hu)) (.next h)

theorem Memory.wf.hubSwtrig {v} (h : Memory.wf s) : Memory.wf (hubSwtrig s v) := .foldl h fun _ _ hu => .ite hu.hubTrigger hu

theorem Memory.wf.hubFetch {n} (h : Memory.wf s) : Memory.wf (hubFetch s n).2 := h.engineRead

theorem Memory.wf.hubCycle {want f} (h : Memory.wf s) (hf : ∀ u x1 x2, Memory.wf u → Memory.wf (f u x1 x2)) : Memory.wf (hubCycle s want f) := by
  refine .ite h ?_
  split
  · exact h
  · exact .ite h.hubError.hubAbort (.ite h.hubFetch.upSheet.hubError.hubAbort (.ite (hf _ _ _ h.hubFetch.upSheet) h))

theorem Memory.wf.setV {n i x} (h : Memory.wf s) : Memory.wf (setV s n i x) := h.upSheet

theorem Memory.wf.hubRun {n op} (h : Memory.wf s) : Memory.wf (hubRun s n op) := .setSheet (.upSheet (.ite h.setDom h))

theorem Memory.wf.stepEnd {n x} (h : Memory.wf s) : Memory.wf (stepEnd s n x) := h.upSheet.setSheet

theorem Memory.wf.stepPower {n op} (h : Memory.wf s) : Memory.wf (stepPower s n op) := h.setFld.upSheet.hubAdvance

theorem Memory.wf.stepWait {n op} (h : Memory.wf s) : Memory.wf (stepWait s n op) := .ite h.hubAdvance h.upSheet.setSheet

theorem Memory.wf.stepTwb {n op} (h : Memory.wf s) : Memory.wf (stepTwb s n op) :=
  .ite (.hubRun (.setBit (.dite (fun _ => h.of_eq rfl rfl) (fun _ => h)))) h.hubFail

theorem Memory.wf.stepCsp {n op} (h : Memory.wf s) : Memory.wf (stepCsp s n op) :=
  .ite h.hubFail (.ite h.hubFail (.hubRun (.setBit (.dite (fun _ => h.of_eq rfl rfl) (fun _ => h)))))

theorem Memory.wf.stepAdc {n op} (h : Memory.wf s) : Memory.wf (stepAdc s n op) := h.setBit.hubRun

theorem Memory.wf.stepDsm {n op} (h : Memory.wf s) : Memory.wf (stepDsm s n op) := h.setBit.hubRun

theorem Memory.wf.stepPin {n op} (h : Memory.wf s) : Memory.wf (stepPin s n op) := by
  refine .hubAdvance ?_
  split
  · exact h.padsSampled.setV
  · exact h.padsSampled.setBit
  · exact h.upHub

theorem Memory.wf.stepCapture {n op} (h : Memory.wf s) : Memory.wf (stepCapture s n op) := h.upSheet.hubAdvance

theorem Memory.wf.stepFilter {n op} (h : Memory.wf s) : Memory.wf (stepFilter s n op) := by
  unfold Machine.stepFilter
  dsimp only
  split
  · exact .hubAdvance (.setV (.wr (.ite h.upHub.setBit h.upHub)))
  · exact .hubAdvance (.ite h.upHub.setBit h.upHub)

theorem Memory.wf.stepCompare {n op} (h : Memory.wf s) : Memory.wf (stepCompare s n op) :=
  .hubAdvance (.when h.upHub.setBit.setFld.setBit fun _ hu => hu.emitProducer)

theorem Memory.wf.stepStore {n op} (h : Memory.wf s) : Memory.wf (stepStore s n op) := by
  refine .ite h.hubFail ?_
  split
  · exact h.qProduce.hubFail
  · exact h.qProduce.hubFail
  · exact h.qProduce.hubAdvance

theorem Memory.wf.stepSignal {n op} (h : Memory.wf s) : Memory.wf (stepSignal s n op) := h.emitProducer.hubAdvance

theorem Memory.wf.stepBranch {n op} (h : Memory.wf s) : Memory.wf (stepBranch s n op) := .ite h.hubGoTo (.ite h.upSheet.hubAdvance h.upSheet.hubGoTo)

theorem Memory.wf.freeResource {op} (h : Memory.wf s) : Memory.wf (freeResource s op) := by
  unfold Machine.freeResource
  dsimp only
  split
  · exact .dite (fun _ => h.setBit.of_eq rfl rfl) (fun _ => h.setBit)
  · exact .dite (fun _ => h.setBit.of_eq rfl rfl) (fun _ => h.setBit)
  · exact h.setBit
  · exact h.setBit
  · exact h

theorem Memory.wf.hubKilled {n} (h : Memory.wf s) : Memory.wf (hubKilled s n) := h.hubError.hubAbort

theorem Memory.wf.execHubResourceStepDone {n r} (h : Memory.wf s) : SoundNext (execHubResourceStepDone n r s) := by
  refine .ite (.next h) (.ite (.next (.hubKilled ?_)) ?_)
  · split
    · exact .ite h.freeResource.upSheet h.freeResource.upSheet.setV
    · exact h.freeResource.upSheet
  · split
    · exact .next h.freeResource.upSheet.hubFail
    · exact .next h.freeResource.upSheet.hubFail
    · refine .next (.hubAdvance ?_)
      split
      · exact .ite h.freeResource.upSheet h.freeResource.upSheet.setV
      · exact h.freeResource.upSheet

theorem Memory.wf.execHubWaitEnd {n} (h : Memory.wf s) : SoundNext (execHubWaitEnd n s) :=
  .ite (.next h) (.next (.ite h.hubAdvance.wakeEvent h.hubAdvance))

theorem Memory.wf.execSpwrOvercurrent {k} (h : Memory.wf s) : SoundNext (execSpwrOvercurrent k s) :=
  .ite (.next (.foldl h.setBit.setBit.hubEvent fun _ _ hu => .ite hu.hubError hu)) (.next h)

theorem Memory.wf.sheetKill {n} (h : Memory.wf s) : Memory.wf (sheetKill s n) := by
  unfold Machine.sheetKill
  split
  · exact h
  · exact h.upSheet
  · exact h.hubKilled

theorem Memory.wf.shCfgWrite {n v} (h : Memory.wf s) : Memory.wf (shCfgWrite s n v) := .ite h.wr h.wr.sheetKill

theorem Memory.wf.hubCtrlWrite {v} (h : Memory.wf s) : Memory.wf (hubCtrlWrite s v) := .ite h.setBit (.foldl h.setBit fun _ _ hu => hu.sheetKill)

theorem Memory.wf.fltCfgWrite {k v} (h : Memory.wf s) : Memory.wf (fltCfgWrite s k v) := .ite h.wr.upHub h.wr

theorem Memory.wf.cmpCfgWrite {k v} (h : Memory.wf s) : Memory.wf (cmpCfgWrite s k v) := .ite h.wr.wr.upHub h.wr

theorem Memory.wf.spwrWrite {v} (h : Memory.wf s) : Memory.wf (spwrWrite s v) := h.setFld

/-! ### Machine/CueTake.lean -/

theorem Memory.wf.execCueProducerEvent {fam i} (h : Memory.wf s) : SoundNext (execCueProducerEvent fam i s) :=
  .ite (.next h) (.ite (.next (.ite h.emitChan h)) (.next h.emitProducer))

theorem Memory.wf.execPinEvent {i rising} (h : Memory.wf s) : SoundNext (execPinEvent i rising s) :=
  .ite (.next h) (.next (.when h.setExt fun _ hu => hu.emitProducer))

theorem Memory.wf.unqueue {t} (h : Memory.wf s) : Memory.wf (unqueue s t) := h.of_eq rfl rfl

theorem Memory.wf.takeLatch {p} (h : Memory.wf s) : Memory.wf (takeLatch s p) := by
  unfold Machine.takeLatch
  split
  · exact h
  · exact h
  · exact .ite h.setOvr h.upCore

theorem Memory.wf.takeIrq {p j} (h : Memory.wf s) : Memory.wf (takeIrq s p j) := .ite h.setBit h.setBit

theorem Memory.wf.upCell {k f} (h : Memory.wf s) : Memory.wf (upCell s k f) := h.of_eq rfl rfl

theorem Memory.wf.takeCell {k j} (h : Memory.wf s) : Memory.wf (takeCell s k j) := by
  unfold Machine.takeCell
  dsimp only
  split
  · exact h.upCell.setBit
  · exact h.upCell.setBit
  · exact h.upCell

theorem Memory.wf.takeHub {i} (h : Memory.wf s) : Memory.wf (takeHub s i) := .foldl h fun _ _ hu => .ite hu.hubTrigger hu

theorem Memory.wf.takeCons {k} (h : Memory.wf s) : Memory.wf (takeCons s k) := by
  refine .dite (fun _ => h.takeLatch) (fun _ => .ite h.takeHub (.ite h.stageTrigger ?_))
  split
  · exact h.tmTakeTrg
  · exact h.tmCueBreak
  · exact h.tmTakeTrg
  · exact h.tmCueBreak
  · exact h.wakeEvent
  · exact .dite (fun _ => h.tmTakeTrg) (fun _ => h)

theorem Memory.wf.execCueConsumerTake {t} (h : Memory.wf s) : SoundNext (execCueConsumerTake t s) := by
  refine .ite ?_ (.next h)
  dsimp only
  split
  · exact .next h.unqueue.takeCons
  · exact .next h.unqueue.takeIrq
  · exact .next h.unqueue.takeCell

theorem Memory.wf.execStgTrigger {k} (h : Memory.wf s) : SoundNext (execStgTrigger k s) := .ite (.next h.unqueue.stageTrigger) (.next h)

theorem Memory.wf.cueSignal {c} (h : Memory.wf s) : Memory.wf (cueSignal s c) := h.emitChan.setBit

theorem Memory.wf.clearLatches {k} (h : Memory.wf s) : Memory.wf (clearLatches s k) := .foldl h fun _ _ hu => .ite hu.setBit hu

theorem Memory.wf.execLogicCellClock {k} (h : Memory.wf s) : SoundNext (execLogicCellClock k s) :=
  .next (.upCell (.setBit (.when (.when h fun _ hu => hu.emitProducer) fun _ hu => hu.clearLatches)))

theorem Memory.wf.cellReset {k} (h : Memory.wf s) : Memory.wf (cellReset s k) := h.wr.upCell

theorem Memory.wf.chanCfgWrite {who c v} (h : Memory.wf s) : Memory.wf (chanCfgWrite s who c v).2 :=
  .ite_snd h (.ite_snd (.ite (.ite h.wr h.wr.setFld.setBit) (.setFld (.ite h.wr h.wr.setFld.setBit))) h.setFld)

theorem Memory.wf.cellWrite {who k reg v} (h : Memory.wf s) : Memory.wf (cellWrite s who k reg v).2 := by
  refine .ite_snd h ?_
  split
  · exact h.wr
  · exact .ite h.wr.cellReset h.wr
  · exact .foldl h fun _ _ hu => .ite hu.setBit hu

theorem Memory.wf.cellOwnWrite {k v} (h : Memory.wf s) : Memory.wf (cellOwnWrite s k v) := .ite h.wr h.wr.cellReset

theorem Memory.wf.swsetWrite {who hi v} (h : Memory.wf s) : Memory.wf (swsetWrite s who hi v) := .foldl h fun _ _ hu => .ite hu.cueSignal hu

theorem Memory.wf.chanStatWrite {who c v} (h : Memory.wf s) : Memory.wf (chanStatWrite s who c v) := .ite h.wr h

theorem Memory.wf.consWrite {who k hi v} (h : Memory.wf s) : Memory.wf (consWrite s who k hi v) := h.wr

theorem Memory.wf.irqSelWrite {who p j v} (h : Memory.wf s) : Memory.wf (irqSelWrite s who p j v) := .foldl h fun _ _ hu => .ite hu.setFld hu

theorem Memory.wf.irqClear {who p a v} (h : Memory.wf s) : Memory.wf (irqClear s who p a v) := .ite h.wr h

theorem Memory.wf.ovrWrite {who hi v} (h : Memory.wf s) : Memory.wf (ovrWrite s who hi v) := h.wr

theorem Memory.wf.pinCfgWrite {n v trusted} (h : Memory.wf s) : Memory.wf (pinCfgWrite s n v trusted) := h.plainWrite.tmBreakCheck.tmBreakCheck

theorem Memory.wf.gpioSet {p v set} (h : Memory.wf s) : Memory.wf (gpioSet s p v set) := h.wr

/-! ### Machine/Monitor.lean -/

theorem Memory.wf.linkClockLost (h : Memory.wf s) : Memory.wf (linkClockLost s) := by
  unfold Machine.linkClockLost
  dsimp only
  split
  · exact .ite h.discardAll.txCutShort h.discardAll
  · exact h.discardAll

theorem Memory.wf.pllUnlock {n inj} (h : Memory.wf s) : Memory.wf (pllUnlock s n inj) := .ite h.setBit.logFault.linkClockLost h.setBit.logFault

theorem Memory.wf.execPllUnlock {pll} (h : Memory.wf s) : SoundNext (execPllUnlock pll s) := .ite (.next h.pllUnlock) (.next h)

theorem Memory.wf.execPllRelock {pll ok} (h : Memory.wf s) : SoundNext (execPllRelock pll ok s) :=
  .ite (.next h) (.ite (.next (h.setBit.of_eq rfl rfl)) (.next (.when (h.of_eq rfl rfl) fun _ hu => hu.logFault)))

theorem Memory.wf.execHfxoFail (h : Memory.wf s) : SoundNext (execHfxoFail s) :=
  .ite (.next (.linkClockLost (h.setFld.logFault.of_eq rfl rfl))) (.next h)

theorem Memory.wf.execHfxoRestartTry {ok} (h : Memory.wf s) : SoundNext (execHfxoRestartTry ok s) :=
  have h₁ : Memory.wf _ := h.of_eq rfl rfl
  .ite (.next h) (.ite (.next h₁.clocksOn) (.next h₁))

theorem Memory.wf.wdKick {v} (h : Memory.wf s) : Memory.wf (wdKick s v) := .ite h.wdRestart h

theorem Memory.wf.wdCfgWrite {p v} (h : Memory.wf s) : Memory.wf (wdCfgWrite s p v) := h.plainWrite.wdRestart

theorem Memory.wf.wdPreExpire {p} (h : Memory.wf s) : Memory.wf (wdPreExpire s p) := .fltEvent (.setBit (.ite h.setFld h))

theorem Memory.wf.injWrite {v} (h : Memory.wf s) : Memory.wf (injWrite s v) := by
  refine .ite h (.ite h.plainWrite ?_)
  dsimp only
  split
  · exact .dite (fun _ => h.plainWrite.setBit.wdExpire) (fun _ => h.plainWrite.setBit)
  · exact .dite (fun _ => h.plainWrite.setBit.doubleFault) (fun _ => h.plainWrite.setBit)
  · exact .ite h.plainWrite.setBit.pllUnlock h.plainWrite.setBit
  · exact h.plainWrite

theorem Memory.wf.curtClear {v} (h : Memory.wf s) : Memory.wf (curtClear s v) := .ite h.wr.wr.wr h

/-! ### Machine/Serial.lean -/

theorem Memory.wf.upTwb {k f} (h : Memory.wf s) : Memory.wf (upTwb s k f) := h.of_eq rfl rfl

theorem Memory.wf.twbEvent {k b} (h : Memory.wf s) : Memory.wf (twbEvent s k b) := h.event

theorem Memory.wf.twbFifo {k} (h : Memory.wf s) : Memory.wf (twbFifo s k) := h.wr

theorem Memory.wf.twbFeed {k} (h : Memory.wf s) : Memory.wf (twbFeed s k) := by
  unfold Machine.twbFeed
  dsimp only
  split
  · exact .ite (.when h.upTwb.twbFifo fun _ hu => hu.twbEvent) h
  · exact h

theorem Memory.wf.twbStart {k} (h : Memory.wf s) : Memory.wf (twbStart s k) := .ite h (.ite h.upTwb.setBit.twbFeed (.ite h.upTwb.setBit h))

theorem Memory.wf.twbStop {k} (h : Memory.wf s) : Memory.wf (twbStop s k) := h.upTwb.setBit

theorem Memory.wf.twbDrop {k} (h : Memory.wf s) : Memory.wf (twbDrop s k) := h.upTwb.setBit

theorem Memory.wf.twbCmd {k v} (h : Memory.wf s) : Memory.wf (twbCmd s k v) := .ite h.setBit h.setBit.setBit.setFld.upTwb.twbStart

theorem Memory.wf.twbFinish {k} (h : Memory.wf s) : Memory.wf (twbFinish s k) := by
  unfold Machine.twbFinish
  split
  · exact .ite h.twbDrop.twbEvent.twbStop h.twbDrop.twbEvent.upTwb
  · exact h

theorem Memory.wf.twbTake {k} (h : Memory.wf s) : Memory.wf (twbTake s k) :=
  .ite (.twbFinish (.when h.upTwb.twbFifo fun _ hu => hu.twbEvent)) (.when h.upTwb.twbFifo fun _ hu => hu.twbEvent)

theorem Memory.wf.execTwbTransferDone {k acked nack rx} (h : Memory.wf s) : SoundNext (execTwbTransferDone k acked nack rx s) := by
  unfold Machine.execTwbTransferDone
  dsimp only
  split
  · exact .next h
  · exact .ite (.next h) (.ite (.next h.setFld.twbDrop.twbEvent.twbStop.twbStart) (.ite (.next h.setFld.upTwb.twbTake) (.ite (.next h) (.next
        h.setFld.twbFinish))))

theorem Memory.wf.twbAddressed {k read} (h : Memory.wf s) : Memory.wf (twbAddressed s k read) :=
  .when h.setBit.setBit.setBit.twbEvent fun _ hu => hu.twbEvent

theorem Memory.wf.attnLost {k} (h : Memory.wf s) : Memory.wf (attnLost s k) := by
  unfold Machine.attnLost
  dsimp only
  split
  · exact h.upTwb.upTwb
  · exact h.upTwb.upTwb.twbEvent
  · exact h.upTwb

theorem Memory.wf.execTwbArbitrationLost {k bytes winner} (h : Memory.wf s) : SoundNext (execTwbArbitrationLost k bytes winner s) := by
  refine .ite ?_ (.next (.ite h.setFld.twbDrop.upTwb.twbFifo.twbEvent (.ite h.upTwb.attnLost h)))
  split
  · exact .next (.ite (.twbAddressed (.ite h.setFld.twbDrop.upTwb.twbFifo.twbEvent (.ite h.upTwb.attnLost h))) (.ite
        h.setFld.twbDrop.upTwb.twbFifo.twbEvent (.ite h.upTwb.attnLost h)))
  · exact .next (.ite h.setFld.twbDrop.upTwb.twbFifo.twbEvent (.ite h.upTwb.attnLost h))

theorem Memory.wf.twbIdle {k} (h : Memory.wf s) : Memory.wf (twbIdle s k) := h.setBit.setBit

theorem Memory.wf.twbRelease {k} (h : Memory.wf s) : Memory.wf (twbRelease s k) := h.twbDrop.upTwb

theorem Memory.wf.execTwbMisplacedCondition {k start ninth} (h : Memory.wf s) : SoundNext (execTwbMisplacedCondition k start ninth s) :=
  .ite (.next (.when h.twbRelease.twbEvent fun _ hu => hu.twbEvent)) (.ite (.ite (.next h) (.next (.twbEvent (.twbIdle (.ite h h.twbStop))))) (.next
      h))

theorem Memory.wf.twbTimeout {k} (h : Memory.wf s) : Memory.wf (twbTimeout s k) := .twbIdle (.when (.ite h.twbRelease h) fun _ hu => hu.twbEvent)

theorem Memory.wf.execTwbSclTimeout {k} (h : Memory.wf s) : SoundNext (execTwbSclTimeout k s) :=
  have h₁ := h.setBit.twbEvent.twbTimeout
  .ite (.next h₁.upTwb.twbEvent) (.next h₁)

theorem Memory.wf.execTwbSdaTimeout {k} (h : Memory.wf s) : SoundNext (execTwbSdaTimeout k s) :=
  have h₁ := h.setBit.twbEvent.twbTimeout
  .ite (.next h₁.upTwb) (.next h₁)

theorem Memory.wf.twbRecover {k v} (h : Memory.wf s) : Memory.wf (twbRecover s k v) := .ite h.upTwb h

theorem Memory.wf.execTwbRecoverDone {k ok} (h : Memory.wf s) : SoundNext (execTwbRecoverDone k ok s) :=
  .ite (.ite (.next h.upTwb.setBit.twbStop.twbEvent) (.next h.upTwb.twbEvent)) (.next h)

theorem Memory.wf.execTwbTargetAddressed {k addr} (h : Memory.wf s) : SoundNext (execTwbTargetAddressed k addr s) :=
  .ite (.next h.twbAddressed) (.next h)

theorem Memory.wf.execTwbTargetByte {k b} (h : Memory.wf s) : SoundNext (execTwbTargetByte k b s) :=
  .ite (.next h) (.ite (.ite (.next h) (.next (.when h.upTwb.twbFifo fun _ hu => hu.twbEvent))) (.ite (.next h) (.next h.upTwb.twbFifo.twbEvent)))

theorem Memory.wf.execTwbTargetStop {k stop} (h : Memory.wf s) : SoundNext (execTwbTargetStop k stop s) :=
  .ite (.next (.twbEvent (.ite h.twbIdle.twbStop h.twbIdle))) (.next h)

theorem Memory.wf.attnGo {k src} (h : Memory.wf s) : Memory.wf (attnGo s k src) := .ite h h.upTwb.twbStart

theorem Memory.wf.twbAttn {k v trusted} (h : Memory.wf s) : Memory.wf (twbAttn s k v trusted) := .ite h.plainWrite.setBit.attnGo h.plainWrite.setBit

theorem Memory.wf.execTwbAttnDone {k ok} (h : Memory.wf s) : SoundNext (execTwbAttnDone k ok s) := .ite (.next h.upTwb.twbStop.twbEvent) (.next h)

theorem Memory.wf.twbTxWrite {k v} (h : Memory.wf s) : Memory.wf (twbTxWrite s k v) := .ite h h.upTwb.twbFifo.twbFeed

theorem Memory.wf.twbRxRead {k} (h : Memory.wf s) : Memory.wf (twbRxRead s k).2 := by
  unfold Machine.twbRxRead
  split
  · exact h.upTwb.twbTake
  · exact h

theorem Memory.wf.twbCtrlWrite {k v trusted} (h : Memory.wf s) : Memory.wf (twbCtrlWrite s k v trusted) :=
  .ite (.twbIdle (.ite h.plainWrite.twbDrop.twbStop.upTwb.twbFifo h.plainWrite)) (.ite h.plainWrite.twbDrop.twbStop.upTwb.twbFifo h.plainWrite)

theorem Memory.wf.execTwbBusFree {k} (h : Memory.wf s) : SoundNext (execTwbBusFree k s) := .ite (.next h) (.next h.setFld.setBit.upTwb.twbStart)

theorem Memory.wf.execTwbWakeDetect {k} (h : Memory.wf s) : SoundNext (execTwbWakeDetect k s) :=
  .ite (.ite (.next h.wakeEvent) (.next h.setDom.setBit)) (.next h)

theorem Memory.wf.upCsp {k f} (h : Memory.wf s) : Memory.wf (upCsp s k f) := h.of_eq rfl rfl

theorem Memory.wf.cspEvent {k b} (h : Memory.wf s) : Memory.wf (cspEvent s k b) := h.event

theorem Memory.wf.cspFifo {k} (h : Memory.wf s) : Memory.wf (cspFifo s k) := h.setFld.setFld

theorem Memory.wf.cspStart {k} (h : Memory.wf s) : Memory.wf (cspStart s k) := by
  refine .ite ?_ h
  split
  · exact h.upCsp.cspFifo.setBit
  · exact h

theorem Memory.wf.cspTxWrite {k v} (h : Memory.wf s) : Memory.wf (cspTxWrite s k v) := .ite h h.upCsp.cspFifo.cspStart

theorem Memory.wf.cspRxRead {k} (h : Memory.wf s) : Memory.wf (cspRxRead s k).2 := by
  unfold Machine.cspRxRead
  split
  · exact h.upCsp.cspFifo.cspStart
  · exact h

theorem Memory.wf.execCspMasterFrameDone {k rx} (h : Memory.wf s) : SoundNext (execCspMasterFrameDone k rx s) :=
  .ite (.next h.upCsp.cspFifo.setBit.cspEvent.cspStart) (.next h)

theorem Memory.wf.execCspSlaveSelect {k} (h : Memory.wf s) : SoundNext (execCspSlaveSelect k s) := .ite (.next h.setBit) (.next h)

theorem Memory.wf.execCspSlaveFrameDone {k rx} (h : Memory.wf s) : SoundNext (execCspSlaveFrameDone k rx s) :=
  have h₁ : Memory.wf _ := .ite h.cspEvent h.upCsp
  .ite (.next (.cspFifo (.ite h₁.cspEvent h₁.upCsp.cspEvent))) (.next h)

theorem Memory.wf.execCspSelectRelease {k part} (h : Memory.wf s) : SoundNext (execCspSelectRelease k part s) :=
  .ite (.next (.cspEvent (.when h.setBit fun _ hu => hu.cspEvent))) (.next h)

theorem Memory.wf.cspCtrlWrite {k v trusted} (h : Memory.wf s) : Memory.wf (cspCtrlWrite s k v trusted) :=
  .ite h (.cspStart (.ite h.plainWrite h.plainWrite.setBit))

theorem Memory.wf.execCspWakeDetect {k} (h : Memory.wf s) : SoundNext (execCspWakeDetect k s) :=
  .ite (.ite (.next h.wakeEvent) (.next h.setDom.setBit)) (.next h)

theorem Memory.wf.upHwn {f} (h : Memory.wf s) : Memory.wf (s.upHwn f) := h.of_eq rfl rfl

theorem Memory.wf.hwnEvent {b} (h : Memory.wf s) : Memory.wf (hwnEvent s b) := .ite h.event h.setBit

theorem Memory.wf.hwnFetch (h : Memory.wf s) : Memory.wf (hwnFetch s) := by
  refine .ite h ?_
  split
  next _ _ e => exact (h.qTake.of_snd e).upHwn
  next _ e => exact h.qTake.of_snd e

theorem Memory.wf.hwnAdvance (h : Memory.wf s) : Memory.wf (hwnAdvance s) := .ite h.upHwn (.ite h.upHwn.hwnEvent h)

theorem Memory.wf.hwnShown {st} (h : Memory.wf s) : Memory.wf (hwnShown s st) := h.upHwn

theorem Memory.wf.hwnStage {i b} (h : Memory.wf s) : Memory.wf (hwnStage s i b) := .ite (.ite h.upHwn.qProduce.hwnEvent h.upHwn.qProduce) h.upHwn

theorem Memory.wf.hwnWrite {x b} (h : Memory.wf s) : Memory.wf (hwnWrite s x b) :=
  .ite h.hwnStage.hwnAdvance (.ite h.wr.upHwn.hwnAdvance (.ite h h.hwnEvent.hwnAdvance))

theorem Memory.wf.hwnRead {x} (h : Memory.wf s) : Memory.wf (hwnRead s x) :=
  .hwnAdvance (.ite (.upHwn (.upHwn (.ite h.hwnFetch h))) (.upHwn (.ite h.hwnFetch h)))

theorem Memory.wf.hwnEnd {x unfinished} (h : Memory.wf s) : Memory.wf (hwnEnd s x unfinished) := by
  refine .when ?_ fun _ hu => hu.hwnEvent
  split
  · exact .hwnEvent (.wr (.ite (.hwnEvent (.upHwn (.ite h.upHwn.hwnFetch h.upHwn))) h.upHwn))
  · exact .ite (.hwnEvent (.upHwn (.ite h.upHwn.hwnFetch h.upHwn))) h.upHwn

theorem Memory.wf.execHwnTransactionStart {read} (h : Memory.wf s) : SoundNext (execHwnTransactionStart read s) := by
  refine .ite (.next h) (.ite (.next h.setBit.upHwn) (.next (.upHwn (.twbEvent (.setBit ?_)))))
  split
  · exact h.hwnEnd
  · exact h

theorem Memory.wf.execHwnByteCommit {b} (h : Memory.wf s) : SoundNext (execHwnByteCommit b s) := by
  unfold Machine.execHwnByteCommit
  split
  · exact .next h
  · refine .ite (.next (.upHwn ?_)) ?_
    · split
      · exact h.hwnShown
      · exact h
    · split
      · exact .next h.hwnShown.upHwn
      · exact .ite (.next h.hwnRead) (.next h.hwnWrite)

theorem Memory.wf.execHwnTransactionEnd {unfinished} (h : Memory.wf s) : SoundNext (execHwnTransactionEnd unfinished s) := by
  unfold Machine.execHwnTransactionEnd
  split
  · exact .next h
  · exact .next (.ite h.hwnEnd.setBit h.hwnEnd.twbStop)

theorem Memory.wf.hwnCtrlWrite {v} (h : Memory.wf s) : Memory.wf (hwnCtrlWrite s v) :=
  .when (.ite h.wr.setBit.upHwn (.ite h.wr.setBit.upHwn h.wr.setBit)) fun _ hu => hu.attnGo

/-! ### Machine/Access.lean -/

theorem Memory.wf.dbgApply (h : Memory.wf s) : Memory.wf (dbgApply s) :=
  .foldl h fun _ _ hu => .ite hu.upCore.wdRestart.setBit (.ite hu.upCore.setBit hu)

theorem Memory.wf.readDbg {who a} (h : Memory.wf s) : Memory.wf (readDbg s who a).2 := .ite_snd h h

theorem Memory.wf.readStg {who a} (h : Memory.wf s) : Memory.wf (readStg s who a).2 :=
  .ite_snd h (.ite_snd (.ite h.migStatRead h) (.ite_snd (.ite h.setBit h) (.ite_snd h h)))

theorem Memory.wf.readHook {who a r} (h : Memory.wf s) (e : readHook s who a = some r) : Memory.wf r.2 :=
  have hooks : Machine.readHook s who a = some r → Memory.wf r.2 :=
    .of_ite_some h.readDbg <|
    .of_ite_some h.readStg <|
    .of_ite_some h.qPop <|
    .of_ite_some h <|
    .of_ite_some h.tmStatus <|
    .of_ite_some h.twbRxRead <|
    .of_ite_some h.cspRxRead <|
    .of_ite_some h.tsloLatch <|
    .of_ite_some h.setFld <|
    .of_ite_some h.setBit.showWaiting <|
    .of_ite_some h <|
    .of_ite_some h.rtcLatch <|
    .of_ite_some h <|
    .of_ite_some h <|
    .of_ite_some h.rngRead <|
    .of_ite_some h.poisonPop <|
    .of_ite_some h.hubStatus <|
    .of_ite_some h <|
    .of_ite_some h.padsSampled <|
    .of_ite_some h.padsSampled <|
    .of_ite_some h.tuneStatRead <|
    .of_ite_some h <|
    .of_ite_some h.ntLatch <|
    nofun
  hooks e

theorem Memory.wf.regRead {who a} (h : Memory.wf s) : Memory.wf (regRead s who a).2 := by
  unfold Machine.regRead
  split
  next _ e => exact h.readHook e
  · split
    · exact .ite h.wr h
    · exact h

theorem Memory.wf.writeSys {who a v} (h : Memory.wf s) : Memory.wf (writeSys s who a v) :=
  .ite h.phaseWrite (.ite h.bootselWrite (.ite h.healthWrite (.ite h.swrstWrite (.ite h.playholdWrite h.plainWrite))))

theorem Memory.wf.writePwr {a v} (h : Memory.wf s) : Memory.wf (writePwr s a v) := .ite h.pwrReqWrite (.ite h.wr h.plainWrite)

theorem Memory.wf.writeRtc {a v t} (h : Memory.wf s) : Memory.wf (writeRtc s a v t) := by
  unfold Machine.writeRtc
  split
  · exact .ite h.rtcStage h
  · exact .ite h.rtcCmd (.ite h.rtcStatusWrite (.ite (.ite h.wr h) h.plainWrite))

theorem Memory.wf.writeFlt {a v} (h : Memory.wf s) : Memory.wf (writeFlt s a v) :=
  .ite h.curtClear (.ite h.wdKick (.ite h.injWrite (.ite h.wdCfgWrite h.plainWrite)))

theorem Memory.wf.writeKey {a v} (h : Memory.wf s) : Memory.wf (writeKey s a v) :=
  .ite h.keyCmdWrite (.ite h.wr (.ite h.alarmWrite (.ite h.otpCmdWrite h.plainWrite)))

theorem Memory.wf.writeUnits {a v} (h : Memory.wf s) : Memory.wf (writeUnits s a v) :=
  .ite h.pkaCmdWrite (.ite h.hshCtrlWrite (.ite h.hshGo (.ite h.hshPush (.ite h.rngCtrlWrite h.plainWrite))))

theorem Memory.wf.writeDmc {a v} (h : Memory.wf s) : Memory.wf (writeDmc s a v) :=
  .ite h.dmcCtrlWrite (.ite h.dmcMapWrite (.ite h.dmcRelease (.ite h.dmcDiag h.plainWrite)))

theorem Memory.wf.frozenClear (h : Memory.wf s) : Memory.wf (frozenClear s) := .upStg (.upDram (.foldl h.setBit fun _ _ hu => .ite hu.setPte hu))

theorem Memory.wf.writeStg {a v} (h : Memory.wf s) : Memory.wf (writeStg s a v) :=
  .ite (.ite h.setBit.setBit.dispatchRun h.setBit.setBit) (.ite (.ite h.plainWrite.frozenClear h.plainWrite) (.ite (.ite h.migGo h) (.ite
      h.setFld.setFld h.plainWrite)))

theorem Memory.wf.queueOff {q} (h : Memory.wf s) : Memory.wf (queueOff s q) := .ite h (h.of_eq rfl rfl)

theorem Memory.wf.writeQue {who a v} (h : Memory.wf s) : Memory.wf (writeQue s who a v) := by
  unfold Machine.writeQue
  dsimp only
  split
  · exact h.qBaseWrite
  · exact .ite h.qCfgWrite.queueOff h
  · exact .ite h h.plainWrite
  · exact .ite h.setFld h
  · exact h.qPush
  · exact h

theorem Memory.wf.writeCue {who a v} (h : Memory.wf s) : Memory.wf (writeCue s who a v).2 :=
  .ite_snd h.chanCfgWrite (.ite_snd h.chanStatWrite (.ite_snd h.swsetWrite (.ite_snd h.ovrWrite (.ite_snd h.consWrite (.ite_snd h.irqSelWrite
      (.ite_snd h.irqClear (.ite_snd h.irqClear (.ite_snd (.ite_snd (.ite h.cellOwnWrite h) h.cellWrite) h))))))))

theorem Memory.wf.writeHub {a v t} (h : Memory.wf s) : Memory.wf (writeHub s a v t) :=
  .ite h.hubCtrlWrite (.ite h.spwrWrite (.ite h.hubSwtrig (.ite h.shCfgWrite (.ite h.fltCfgWrite (.ite h.cmpCfgWrite h.plainWrite)))))

theorem Memory.wf.writeTm {a v t} (h : Memory.wf s) : Memory.wf (writeTm s a v t) :=
  .ite h (.ite h.tmCtrlWrite (.ite h.tmCntWrite (.ite h.tmPerWrite (.ite h.tmChWrite (.ite h.tmCcWrite h.plainWrite)))))

theorem Memory.wf.writeTwb {a v t} (h : Memory.wf s) : Memory.wf (writeTwb s a v t) := by
  unfold Machine.writeTwb
  dsimp only
  split
  · exact h.twbCtrlWrite
  · exact h.twbCmd
  · exact h.twbTxWrite
  · exact h.twbRecover
  · exact h.twbAttn
  · exact h.plainWrite

theorem Memory.wf.writeCsp {a v t} (h : Memory.wf s) : Memory.wf (writeCsp s a v t) := by
  unfold Machine.writeCsp
  dsimp only
  split
  · exact h.cspCtrlWrite
  · exact h.cspTxWrite
  · exact h.plainWrite

theorem Memory.wf.writeSvc {a v t} (h : Memory.wf s) : Memory.wf (writeSvc s a v t) := .ite h.svcRxfree (.ite h.plainWrite.svcStat h.plainWrite)

theorem Memory.wf.writePins {a v t} (h : Memory.wf s) : Memory.wf (writePins s a v t) :=
  .ite h.gpioSet (.ite h.gpioSet (.ite h.pinCfgWrite h.plainWrite))

theorem Memory.wf.writeRadio {a v t} (h : Memory.wf s) : Memory.wf (writeRadio s a v t) :=
  .ite h.rfeCtrlWrite (.ite h.rfeTuneWrite (.ite h.rxcCtrlWrite (.ite h.txcCtrlWrite (.ite h.calXtalWrite (.ite h.chCfgWrite (.ite h.plainWrite.setCca
      h.plainWrite))))))

theorem Memory.wf.writeLnk {a v t} (h : Memory.wf s) : Memory.wf (writeLnk s a v t) :=
  .ite h.lnkCtrlWrite (.ite h.poolWrite (.ite h.poolWrite (.ite h.bcnCfgWrite (.ite h.parentWrite (.ite h.parentWrite (.ite h.ntAdjust (.ite
      (h.wr.of_eq rfl rfl) h.plainWrite)))))))

theorem Memory.wf.writeDbg {who a v} (h : Memory.wf s) : Memory.wf (writeDbg s who a v) := .ite h (.ite h.wr.dbgApply (.ite (h.of_eq rfl rfl) h))

theorem Memory.wf.regWrite {who a v} (h : Memory.wf s) : Memory.wf (regWrite s who a v).2 :=
  .ite_snd h.writeCue (.ite h.writeSys (.ite h.writePwr (.ite h.appdivWrite (.ite h.writeRtc (.ite h.writeFlt (.ite h.writeKey (.ite h.writeUnits
      (.ite h.writeDmc (.ite h.writeStg (.ite h.writeQue (.ite h.writeHub (.ite h.writeTm (.ite h.writeTwb (.ite h.writeCsp (.ite h.hwnCtrlWrite (.ite
      h.writeSvc (.ite h.writePins (.ite h.writeRadio (.ite h.writeLnk (.ite h.writeDbg h.plainWrite))))))))))))))))))))

theorem Memory.wf.busServe {who a d} (h : Memory.wf s) : Memory.wf (busServe s who a d).2 := by
  unfold Machine.busServe
  split
  · exact h.regRead
  · split
    next _ e => exact h.regWrite.of_snd e
    next _ e => exact (h.regWrite.of_snd e).curtainViolation

theorem Memory.wf.busTry {who a d} (h : Memory.wf s) :
    Memory.wf (busTry s who a d).2 :=
  .ite_snd h (.ite_snd h.curtainViolation (.ite_snd h h.busServe))

theorem Memory.wf.accessWake {who d} (h : Memory.wf s) : Memory.wf (accessWake s who d) := .ite h.wakeEvent h

theorem Memory.wf.busAccess {who a d} (h : Memory.wf s) : Memory.wf (busAccess s who a d).2 := by
  unfold Machine.busAccess
  split
  next _ e => exact .accessWake ((h.busTry.of_snd e).of_eq rfl rfl)
  · exact h.busTry

theorem Memory.wf.access {who a d} (h : Memory.wf s) : Memory.wf (s.access who a d) := by
  unfold Machine.State.access
  split
  next _ _ e =>
    have h₁ := h.busAccess.of_snd e
    exact .ite (h₁.of_eq rfl rfl) h₁
  next _ _ e => exact h.busAccess.of_snd e

theorem Memory.wf.restDown {d} (h : Memory.wf s) : Memory.wf (restDown s d) :=
  .ite h (.dite (fun _ => .ite h.playerOff.vcoreUpdate.bankStat h) (fun _ => .ite (.bankStat (.ite h.setDom h.dropDom)) (.ite (.ite h.dramsysOff (.ite
      h.selfRefreshEnter h)) h)))

theorem Memory.wf.execDomainPowerUp {d} (h : Memory.wf s) : SoundNext (execDomainPowerUp d s) :=
  .ite (.next (.foldl (.bankStat (.of_eq rfl rfl (.ite h h.setDom))) fun _ _ hu => hu.access)) (.ite (.next h) (.ite (.next h.setDom.bankStat) (.ite
      (.next h.dramPowerUp) (.ite (.next h.selfRefreshExit) (.next h)))))

theorem Memory.wf.execDomainPowerDown {d} (h : Memory.wf s) : SoundNext (execDomainPowerDown d s) :=
  .ite (.next (.ite h.nvmDown (.setDom (.ite h.serialDown h)))) (.next h.restDown)

/-! ### Machine/Csr.lean -/

theorem Memory.wf.execUnitResultWrite {p} (h : Memory.wf s) : SoundNext (execUnitResultWrite p s) := by
  unfold Machine.execUnitResultWrite
  split
  · exact .next h.upCore
  · exact .next h

theorem Memory.wf.execIterativeMulDone {p} (h : Memory.wf s) : SoundNext (execIterativeMulDone p s) := by
  unfold Machine.execIterativeMulDone
  split
  · exact .next h.upCore
  · exact .next h

theorem Memory.wf.execDivideDone {p} (h : Memory.wf s) : SoundNext (execDivideDone p s) := by
  unfold Machine.execDivideDone
  split
  · exact .next h.upCore
  · exact .next h

theorem Memory.wf.raiseException {p code detail eaddr epc} (h : Memory.wf s) : Memory.wf (raiseException s p code detail eaddr epc) :=
  .ite h.doubleFault h.upCore

/-! ### Machine/Lsu.lean -/

theorem Memory.wf.placeOf {who va acc} (h : Memory.wf s) : Memory.wf (placeOf s who va acc).2 := by
  refine .ite_snd ?_ (.ite_snd h h)
  split
  next _ _ _ _ e => exact h.translate.of_snd e
  next _ e => exact h.translate.of_snd e
  next _ e => exact h.translate.of_snd e
  next _ e => exact (h.translate.of_snd e).curtainViolation

theorem Memory.wf.lineRead {who ph fetch e mirror syn} (h : Memory.wf s) : Memory.wf (lineRead s who ph fetch e mirror syn).2 := by
  unfold Machine.lineRead
  split
  · exact .pair h.flashLine
  · exact h.mramRead
  · dsimp only
    exact h.dramOpenRow.dramReadWord
  · exact h
  · exact h
  · exact h
  · split
    · exact h
    · dsimp only
      exact h.correctable
    · exact h

theorem Memory.wf.pathRead {who va ph cp n sec fetch e mirror syn} (h : Memory.wf s) :
    Memory.wf (pathRead s who va ph cp n sec fetch e mirror syn).2 := by
  refine .ite_snd (.touch (.ite h.sceneTouch h)) ?_
  have h₁ : Memory.wf (Machine.lineRead (if isScene va then Machine.sceneTouch s ph else s) who ph fetch e mirror syn).2 :=
    .lineRead (.ite h.sceneTouch h)
  split
  next _ e => exact h₁.of_snd e
  next _ e =>
    have h₂ := h₁.of_snd e
    refine .ite_snd h₂.mappedRead ?_
    split
    next _ _ e => exact (h₂.physRead.of_snd e).noteRead
    · exact h₂.physRead
  next _ e =>
    have h₂ := h₁.of_snd e
    refine .ite_snd ?_ h₂.readFault
    split
    · exact h₂.pageFault.mappedRead
    · exact h₂.pageFault

theorem Memory.wf.pathWrite {who va ph cp bs sec syn} (h : Memory.wf s) : Memory.wf (pathWrite s who va ph cp bs sec syn).2 :=
  have h₁ : Memory.wf _ := .ite h.sceneTouch h
  have h₂ : Memory.wf _ := .ite_snd h₁.dramOpenRow.dramReadWord h₁
  .ite_snd h₁.touch (.ite_snd h₂ (.ite_snd h₂.copyWrite (.ite_snd h₂.physWrite h₂.physWrite.noteWrite)))

theorem Memory.wf.logInput {p e} (h : Memory.wf s) : Memory.wf (logInput s p e) := .ite h.upPair h

theorem Memory.wf.takeValue (h : Memory.wf s) : Memory.wf (takeValue s).2 := by
  unfold Machine.takeValue
  split
  · exact h.upPair
  · exact h

theorem Memory.wf.release {p} (h : Memory.wf s) : Memory.wf (release s p).2 := .ite_snd (.ite_snd h.upPair h.upPair) h

theorem Memory.wf.logUndo {p ph} (h : Memory.wf s) : Memory.wf (logUndo s p ph) := .ite h.upPair h

theorem Memory.wf.holdError {p va} (h : Memory.wf s) : Memory.wf (holdError s p va) := h.upCore

theorem Memory.wf.drainOne {p syn} (h : Memory.wf s) : Memory.wf (drainOne s p syn) := by
  unfold Machine.drainOne
  split
  · exact h
  · refine .ite h.upCore.holdError ?_
    split
    next _ e => exact (h.upCore.pathWrite.of_snd e).holdError
    next _ e => exact h.upCore.pathWrite.of_snd e

theorem Memory.wf.drainAll {p} (h : Memory.wf s) : Memory.wf (drainAll s p) := .foldl h fun _ _ hu => hu.drainOne

theorem Memory.wf.holdLine {p line} (h : Memory.wf s) : Memory.wf (holdLine s p line) := h.upCore

theorem Memory.wf.fetchAt {p va ph sec} (h : Memory.wf s) : Memory.wf (fetchAt s p va ph sec).2 := by
  have h₁ : Memory.wf (if isScene va then Machine.sceneTouch s ph else s) := .ite h.sceneTouch h
  refine .ite_snd h₁ (.ite_snd h₁.touch (.ite_snd h₁ ?_))
  dsimp only
  split
  next _ _ e => exact .of_snd e (.ite_snd (.mappedRead (.ite h₁.flashTouch.holdLine h₁)) (.physRead (.ite h₁.flashTouch.holdLine h₁)))
  next _ e => exact .of_snd e (.ite_snd (.mappedRead (.ite h₁.flashTouch.holdLine h₁)) (.physRead (.ite h₁.flashTouch.holdLine h₁)))

theorem Memory.wf.fetchWord {p va} (h : Memory.wf s) : Memory.wf (fetchWord s p va).2 := by
  unfold Machine.fetchWord
  split
  next _ _ _ _ e => exact (h.placeOf.of_snd e).fetchAt
  next _ e => exact h.placeOf.of_snd e
  next _ e => exact h.placeOf.of_snd e
  next _ _ e => exact (h.placeOf.of_snd e).curtainViolation

theorem Memory.wf.fetchSyls {p n va prev} (h : Memory.wf s) : Memory.wf (fetchSyls p n s va prev).2.2 := by
  induction n generalizing s va prev with
  | zero => exact h
  | succ n ih =>
    unfold Machine.fetchSyls
    split
    next _ _ e =>
      have h₁ := h.fetchWord.of_snd e
      exact .ite_snd_snd h₁ (ih h₁)
    next _ _ e => exact h.fetchWord.of_snd e

theorem Memory.wf.decodeAt {p pc} (h : Memory.wf s) : Memory.wf (decodeAt s p pc).2 := by
  unfold Machine.decodeAt
  dsimp only
  split
  · exact h.fetchSyls
  · exact h.fetchSyls
  · exact h.fetchSyls
  · refine .ite_snd ?_ h.fetchSyls
    split
    next _ _ e => exact h.fetchSyls.fetchWord.of_snd e
    next _ _ e => exact h.fetchSyls.fetchWord.of_snd e

theorem Memory.wf.leaveResv {p r} (h : Memory.wf s) : Memory.wf (leaveResv s p r) := h.upCore

theorem Memory.wf.reserve {p op ph} (h : Memory.wf s) : Memory.wf (reserve s p op ph) := .ite h.leaveResv h

theorem Memory.wf.performSc {p va ph cp sec data syn} (h : Memory.wf s) : Memory.wf (performSc s p va ph cp sec data syn).2 := by
  refine .ite_snd ?_ h.leaveResv
  split
  next _ e => exact h.leaveResv.logUndo.pathWrite.of_snd e
  next _ e => exact h.leaveResv.logUndo.pathWrite.of_snd e

theorem Memory.wf.ownAccess {p op va ph cp sec data e} (h : Memory.wf s) : Memory.wf (ownAccess s p op va ph cp sec data e).2 := by
  refine .ite_snd ?_ (.ite_snd ?_ ?_)
  · split
    next _ _ e => exact h.performSc.of_snd e
    next _ e => exact h.performSc.of_snd e
  · split
    next _ e => exact h.logUndo.pathWrite.of_snd e
    next _ e => exact h.logUndo.pathWrite.of_snd e
  · split
    next _ _ e => exact (h.pathRead.of_snd e).reserve
    next _ e => exact h.pathRead.of_snd e

theorem Memory.wf.farAccess {p op va ph cp sec data} (h : Memory.wf s) : Memory.wf (farAccess s p op va ph cp sec data).2 := by
  refine .ite_snd (.ite_snd h (.ite_snd (.ite_snd h.curtainViolation h) h)) (.ite_snd (.ite_snd h ?_) h)
  split
  next _ e => exact h.release.of_snd e
  next _ e => exact (h.release.of_snd e).upCore

theorem Memory.wf.replayAccess {p op va} (h : Memory.wf s) : Memory.wf (replayAccess s p op va).2 := by
  refine .ite_snd h.upPair (.ite_snd h.release (.ite_snd h.takeValue.release.leaveResv ?_))
  split
  · exact h.takeValue.reserve
  · exact h.takeValue

theorem Memory.wf.logError {p va code} (h : Memory.wf s) : Memory.wf (logError s p va code) := .when h fun _ hu => hu.logInput

theorem Memory.wf.lsuAccess {p op va data got e} (h : Memory.wf s) : Memory.wf (lsuAccess s p op va data got e).2 := by
  unfold Machine.lsuAccess
  dsimp only
  split
  · exact h
  · refine .ite_snd h.replayAccess ?_
    split
    next _ e => exact h.placeOf.of_snd e
    next _ e => exact h.placeOf.of_snd e
    next _ _ e =>
      have h₁ := h.placeOf.of_snd e
      exact .ite_snd (.ite_snd h₁ h₁.curtainViolation.upCore) h₁.curtainViolation
    next _ _ _ _ e =>
      have h₁ := h.placeOf.of_snd e
      exact .ite_snd h₁ (.ite_snd h₁.ownAccess h₁.farAccess)

theorem Memory.wf.coreBus {p a d} (h : Memory.wf s) : Memory.wf (coreBus s p a d).2 := by
  unfold Machine.coreBus
  split
  next _ _ e => exact h.busTry.of_snd e
  next _ e => exact h.busTry.of_snd e
  next _ e => exact (h.busTry.of_snd e).accessWake

theorem Memory.wf.finishAccess {p op va ph cp sec data e mirror syn} (h : Memory.wf s) :
    Memory.wf (finishAccess s p op va ph cp sec data e mirror syn).2 := by
  refine .ite_snd (.ite_snd h (.ite_snd h.leaveResv ?_)) (.ite_snd ?_ ?_)
  · split
    next _ _ e =>
      have h₁ := h.coreBus.of_snd e
      exact .ite h₁ h₁.reserve
    · exact h.coreBus
  · split
    next _ _ e => exact h.drainAll.performSc.of_snd e
    next _ e => exact h.drainAll.performSc.of_snd e
  · split
    next _ _ e => exact (h.pathRead.of_snd e).reserve
    next _ e => exact h.pathRead.of_snd e

/-! ### Machine/Lockstep.lean -/

theorem Memory.wf.pairCheckpoint (h : Memory.wf s) : Memory.wf (pairCheckpoint s) := h.upCore.upPair

theorem Memory.wf.pairMismatch {inj} (h : Memory.wf s) : Memory.wf (pairMismatch s inj) :=
  .ite h.bump.setBit.upCore.logFault h.bump.setBit.upPair.logFault

theorem Memory.wf.execLockstepRestoreDone (h : Memory.wf s) : SoundNext (execLockstepRestoreDone s) :=
  .ite (.next (.upPair (.upCore (.foldl h fun _ _ hu => hu.stw)))) (.next h)

theorem Memory.wf.execLockstepReplayEnd (h : Memory.wf s) : SoundNext (execLockstepReplayEnd s) := .ite (.next h.upPair.setBit) (.next h)

/-! ### Machine/Player.lean -/

theorem Memory.wf.aheadLen {p a} (h : Memory.wf s) : Memory.wf (aheadLen s p a).2 := by
  unfold Machine.aheadLen
  split
  next _ _ e => exact h.decodeAt.of_snd e
  next _ _ _ e => exact h.decodeAt.of_snd e
  next _ _ _ e => exact h.decodeAt.of_snd e
  next _ _ _ e => exact h.decodeAt.of_snd e

theorem Memory.wf.lookAhead {p b ms} (h : Memory.wf s) : Memory.wf (lookAhead s p b ms).2 := by
  have hcall : ∀ next, Memory.wf (match Machine.aheadLen s p next with
      | (.len m, s) => match Machine.aheadLen s p (next + BitVec.ofNat 32 m) with
        | (.len n, s) => (Ahead.len (m + n), s)
        | r => r
      | r => r).2 := fun next => by
    split
    next _ _ e =>
      have h₁ := h.aheadLen.of_snd e
      split
      next _ _ e => exact h₁.aheadLen.of_snd e
      · exact h₁.aheadLen
    · exact h.aheadLen
  unfold Machine.lookAhead
  dsimp only
  split
  · exact hcall _
  · exact hcall _
  · exact .ite_snd h.aheadLen h
  · exact h

theorem Memory.wf.clearLatch {p} (h : Memory.wf s) : Memory.wf (clearLatch s p) := .ite h h.upCore

theorem Memory.wf.quPerform {p op t} (h : Memory.wf s) : Memory.wf (quPerform s p op t).2.2 := by
  unfold Machine.quPerform
  dsimp only
  split
  · exact h.drainAll.qEnq.release
  · exact .ite_snd_snd h h.qDeq
  · exact h.qDeq
  · exact h
  · exact .ite_snd_snd h.cueSignal.release h
  · exact h.clearLatch

theorem Memory.wf.quCommit {p op t} (h : Memory.wf s) : Memory.wf (quCommit s p op t).2 := by
  unfold Machine.quCommit
  dsimp only
  split
  · exact .ite h.upPair.release (.ite h.upPair.clearLatch h.upPair)
  · exact h.quPerform.logInput

theorem Memory.wf.quStep {p a} (h : Memory.wf s) : Memory.wf (quStep s p a).2 := by
  unfold Machine.quStep
  split
  · exact h.quCommit
  · exact h

theorem Memory.wf.readCycle {p ms} (h : Memory.wf s) : Memory.wf (readCycle s p ms).2 := .ite_snd (.ite_snd h.upCore.takeValue h.upCore.logInput) h

theorem Memory.wf.afterBundle {p cu} (h : Memory.wf s) : Memory.wf (afterBundle s p cu) := by
  refine .ite h.raiseException ?_
  split
  · exact h.raiseException
  · exact h

theorem Memory.wf.commitBundle {p b ms lsu ahead} (h : Memory.wf s) : Memory.wf (commitBundle s p b ms lsu ahead) :=
  .dbgApply (.when (.afterBundle (.ite (.upPair (.upCore (.ite h.readCycle.quStep.clearLatch h.readCycle.quStep))) (.upCore (.ite
      h.readCycle.quStep.clearLatch h.readCycle.quStep)))) fun _ hu => hu.pairCheckpoint)

theorem Memory.wf.stallOn {p b c} (h : Memory.wf s) : Memory.wf (stallOn s p b c) := .ite h.upCore.wdRestart h.upCore

theorem Memory.wf.aheadFault {p ms code va e} (h : Memory.wf s) : Memory.wf (aheadFault s p ms code va e) := by
  unfold Machine.aheadFault
  dsimp only
  split
  · refine .ite h.raiseException ?_
    split
    next _ _ e => exact .ite (h.lsuAccess.of_snd e).raiseException h.raiseException
    · exact h.raiseException
  · exact h.raiseException

theorem Memory.wf.runBundle {p b e} (h : Memory.wf s) : Memory.wf (runBundle s p b e) := by
  unfold Machine.runBundle
  dsimp only
  split
  · exact h.raiseException
  · split
    · exact h.stallOn
    · refine .ite h.injDisarm.pairMismatch ?_
      split
      next _ _ _ e => exact (h.lookAhead.of_snd e).stallOn
      next _ _ _ e => exact (h.lookAhead.of_snd e).aheadFault
      next _ _ e =>
        have h₁ := h.lookAhead.of_snd e
        split
        · exact h₁.commitBundle
        · split
          · exact h₁.stallOn
          · exact h₁.commitBundle
        · split
          next _ _ e => exact (h₁.lsuAccess.of_snd e).commitBundle
          next _ _ e => exact (h₁.lsuAccess.of_snd e).stallOn
          next _ _ e =>
            have h₂ := h₁.lsuAccess.of_snd e
            exact .raiseException (.ite h₂ h₂.logError)

theorem Memory.wf.takeImprecise {p} (h : Memory.wf s) : Memory.wf (takeImprecise s p) := by
  unfold Machine.takeImprecise
  split
  · exact h.upCore.logInput.raiseException
  · exact h

theorem Memory.wf.replayEntry {p t} (h : Memory.wf s) (e : replayEntry s p = some t) : Memory.wf t := by
  unfold Machine.replayEntry at e
  split at e
  · split at e
    · split at e
      · cases e
        exact h.upPair.upCore
      · cases e
    · split at e
      · cases e
        exact h.upPair.raiseException
      · cases e
    · cases e
  · cases e

theorem Memory.wf.freshBundle {p e} (h : Memory.wf s) : Memory.wf (freshBundle s p e) := by
  unfold Machine.freshBundle
  dsimp only
  split
  next _ _ e => exact (h.decodeAt.of_snd e).runBundle
  next _ _ _ e => exact (h.decodeAt.of_snd e).raiseException
  next _ _ _ e => exact (h.decodeAt.of_snd e).stallOn
  next _ _ _ e => exact (h.decodeAt.of_snd e).raiseException

theorem Memory.wf.stalledBundle {p st e} (h : Memory.wf s) : Memory.wf (stalledBundle s p st e) := by
  unfold Machine.stalledBundle
  split
  · exact h
  · split
    · exact h
    · exact h
    · exact h
    · exact .ite h.runBundle h.upCore
    · exact h.upCore
    · exact h.runBundle

theorem Memory.wf.fetchFinds {p f} (h : Memory.wf s) : Memory.wf (fetchFinds s p f).2 := by
  refine .ite_snd h ?_
  split
  next _ _ _ _ e =>
    have h₁ := h.placeOf.of_snd e
    split
    · exact h
    · exact h
    · exact h
    · refine .ite_snd h ?_
      split
      next _ e =>
        have h₂ := h₁.lineRead.of_snd e
        exact .ite_snd h₂.pageFault h₂.readFault
      next _ _ e => exact h₁.lineRead.of_snd e
  · exact h

theorem Memory.wf.stepCore {p f e} (h : Memory.wf s) : Memory.wf (stepCore s p f e) := by
  unfold Machine.stepCore
  split
  · exact h.stalledBundle
  · split
    next _ e => exact h.replayEntry e
    · refine .ite h.takeImprecise ?_
      split
      next _ e => exact (h.fetchFinds.of_snd e).freshBundle
      next _ e => exact (h.fetchFinds.of_snd e).raiseException

theorem Memory.wf.execInterruptEntry {p} (h : Memory.wf s) : SoundNext (execInterruptEntry p s) := by
  unfold Machine.execInterruptEntry
  split
  · exact .ite (.next h.logInput.upCore) (.next h)
  · exact .next h

theorem Memory.wf.resume {p b g wait} (h : Memory.wf s) : Memory.wf (resume s p b g wait) := h.upCore.runBundle

theorem Memory.wf.logAccess {p g} (h : Memory.wf s) : Memory.wf (logAccess s p g) := by
  unfold Machine.logAccess
  split
  · exact h.logInput
  · exact h.release.logInput
  · exact h.release
  · exact h

theorem Memory.wf.waitServed {p ph wait} (h : Memory.wf s) : Memory.wf (waitServed s p ph wait) := .when h fun _ hu => hu.readServed

theorem Memory.wf.execLoadReturn {p e mirror syn wait} (h : Memory.wf s) : SoundNext (execLoadReturn p e mirror syn wait s) := by
  unfold Machine.execLoadReturn
  dsimp only
  split
  · split
    · refine .ite (.next h) (.ite (.next h.noteWait) ?_)
      split
      next _ _ e => exact .next (h.finishAccess.of_snd e).waitServed.logAccess.resume
      next _ e => exact .next (h.finishAccess.of_snd e)
    · exact .next h
  · exact .next h

theorem Memory.wf.fetchLine {p va line e mirror syn} (h : Memory.wf s) : Memory.wf (fetchLine s p va line e mirror syn).2 := by
  refine .ite_snd h.touch ?_
  split
  next _ e => exact (h.lineRead.of_snd e).holdLine
  next _ e => exact h.lineRead.of_snd e
  next _ e =>
    have h₁ := h.lineRead.of_snd e
    exact .ite_snd h₁.pageFault h₁.readFault

theorem Memory.wf.execFetchComplete {p e mirror syn wait} (h : Memory.wf s) : SoundNext (execFetchComplete p e mirror syn wait s) := by
  refine .ite ?_ (.next h)
  split
  · exact .ite (.next h.noteWait) (.next (.ite (.ite h.fetchLine.waitServed.upCore.freshBundle h.fetchLine.waitServed.upCore)
        h.fetchLine.waitServed.upCore.raiseException))
  · exact .ite (.next h.noteWait) (.next (.ite h.fetchLine.waitServed.upCore.runBundle h.fetchLine.waitServed.upCore.raiseException))
  · exact .next h

theorem Memory.wf.serveWaiter {q p} (h : Memory.wf s) : Memory.wf (serveWaiter s q p) := by
  unfold Machine.serveWaiter
  split
  · exact .ite h.upCore.runBundle h
  · exact h

theorem Memory.wf.execWfeWake {p} (h : Memory.wf s) : SoundNext (execWfeWake p s) := by
  unfold Machine.execWfeWake
  dsimp only
  split
  · exact .ite (.next h.upCore.resume) (.next h)
  · exact .next h

theorem Memory.wf.runUnitOp {p u code g src lit e} (h : Memory.wf s) : Memory.wf (runUnitOp s p u code g src lit e) := by
  refine .ite (.ite h.takeImprecise (.ite h.raiseException ?_)) h
  split
  · exact h.raiseException
  · exact h.runBundle

/-! ### Machine/Debug.lean -/

theorem Memory.wf.runSteps (h : Memory.wf s) : Memory.wf (runSteps s) := .foldl (h.of_eq rfl rfl) fun _ _ hu => .ite hu.stepCore hu

theorem Memory.wf.debugWord {a d} (h : Memory.wf s) : Memory.wf (debugWord s a d).2 := by
  have hbus : Memory.wf (match Machine.busTry s debugInit a d with
      | (.held, s) => Machine.busServe (Machine.accessWake (s.setDom (pageDom (a / 4096)) .on) debugInit (pageDom (a / 4096))) debugInit a d
      | r => r).2 := by
    split
    next _ e => exact (h.busTry.of_snd e).setDom.accessWake.busServe
    · exact h.busTry
  refine .ite_snd ?_ (.ite_snd h.curtainViolation ?_)
  · dsimp only
    split
    next _ _ e => exact (hbus.of_snd e).runSteps
    next _ _ e => exact hbus.of_snd e
  · dsimp only
    split
    · split
      next _ _ e => exact h.physRead.of_snd e
      next _ e => exact h.physRead.of_snd e
    · split
      next _ e => exact h.physWrite.of_snd e
      next _ e => exact h.physWrite.of_snd e

theorem Memory.wf.debugReads {n a} (h : Memory.wf s) : Memory.wf (debugReads n s a).2.2 := by
  induction n generalizing s a with
  | zero => exact h
  | succ n ih =>
    unfold Machine.debugReads
    split
    next _ _ e => exact ih (h.debugWord.of_snd e)
    next _ e => exact h.debugWord.of_snd e

theorem Memory.wf.debugWrites {ws a} (h : Memory.wf s) : Memory.wf (debugWrites ws s a).2 := by
  induction ws generalizing s a with
  | nil => exact h
  | cons w ws ih =>
    unfold Machine.debugWrites
    split
    next _ _ e => exact ih (h.debugWord.of_snd e)
    next _ e => exact h.debugWord.of_snd e

theorem Memory.wf.debugReply {cmd seq status data} (h : Memory.wf s) : Memory.wf (debugReply s cmd seq status data) := h.upSvc.svcStat

theorem Memory.wf.debugServe {cmd f} (h : Memory.wf s) (hf : ∀ u x1 x2, Memory.wf u → Memory.wf (f u x1 x2)) : Memory.wf (debugServe s cmd f) := by
  unfold Machine.debugServe
  split
  · exact .ite (.ite h.debugReply (hf _ _ _ h)) h
  · exact h

theorem Memory.wf.execSvcDbgrd (h : Memory.wf s) : SoundNext (execSvcDbgrd s) :=
  .next (.debugServe h fun _ _ _ hu => .ite hu.debugReply hu.debugReads.debugReply)

theorem Memory.wf.execSvcDbgwr (h : Memory.wf s) : SoundNext (execSvcDbgwr s) :=
  .next (.debugServe h fun _ _ _ hu => .ite hu.debugReply hu.debugWrites.debugReply)

/-! ### Machine/StageRows.lean -/

theorem Memory.wf.execReqAlloc {base index acl fs tables} (h : Memory.wf s) : SoundNext (execReqAlloc base index acl fs tables s) :=
  .next (.when (.serveRequest h fun _ _ hu => hu.allocProp) fun _ hu => hu.policyRun)

theorem Memory.wf.execPageWalk {who a write e} (h : Memory.wf s) : SoundNext (execPageWalk who a write e s) := by
  refine .ite ?_ (.next h)
  split
  next _ e => exact .next (h.translate.of_snd e).curtainViolation
  next _ _ e => exact .next (h.translate.of_snd e)

theorem Memory.wf.execSweepDone (h : Memory.wf s) : SoundNext (execSweepDone s) := .ite (.next h.sweepPages.setBit.policyRun) (.next h)

/-! ### Machine/Tick.lean -/

theorem Memory.wf.ntAdvance {units} (h : Memory.wf s) : Memory.wf (ntAdvance s units) := by
  unfold Machine.ntAdvance
  dsimp only
  split
  · exact h.ntStep.ntSlew.upTime
  · exact h.of_eq rfl rfl

theorem Memory.wf.ntSlewStep {ticks} (h : Memory.wf s) : Memory.wf (ntSlewStep s ticks) := .ite h (.ite (.setBit (h.of_eq rfl rfl)) (h.of_eq rfl rfl))

theorem Memory.wf.ntBackhold (h : Memory.wf s) : Memory.wf (ntBackhold s) := .ite h.setBit h

theorem Memory.wf.ntTick (h : Memory.wf s) : Memory.wf (ntTick s) := .ite h.ntAdvance.ntSlewStep.ntBackhold h

theorem Memory.wf.ntEdge (h : Memory.wf s) : Memory.wf (ntEdge s) := .ite h h.ntAdvance.ntSlewStep.ntBackhold

theorem Memory.wf.xoTick (h : Memory.wf s) : Memory.wf (xoTick s) := .ite h (.ite h.upTime h.upTime.rtcEdge.ntEdge)

theorem Memory.wf.wdTick {p} (h : Memory.wf s) : Memory.wf (wdTick s p) :=
  .ite (.ite h.setFld.wdExpire (.ite h.setFld.wdPreExpire h.setFld)) (.ite h h.wdRestart)

theorem Memory.wf.secondTick (h : Memory.wf s) : Memory.wf (secondTick s) := by
  unfold Machine.secondTick
  exact .healthSecond (.with_hub (.setFld (.ntStat (.ite h h.wr))))

theorem Memory.wf.frozenTick (h : Memory.wf s) : Memory.wf (frozenTick s) := .ite h.bump h

theorem Memory.wf.phaseTick (h : Memory.wf s) : Memory.wf (phaseTick s) := h.of_eq rfl rfl

theorem Memory.wf.clkoutTick (h : Memory.wf s) : Memory.wf (clkoutTick s) := .ite (h.of_eq rfl rfl) (h.of_eq rfl rfl)

theorem Memory.wf.policyTick (h : Memory.wf s) : Memory.wf (policyTick s) := .ite h.policyRun h

theorem Memory.wf.tick (h : Memory.wf s) : Memory.wf (tick s) := by
  unfold Machine.tick
  extract_lets u v w x
  have hv : Memory.wf v := .clkoutTick (h.policyTick.of_eq rfl rfl)
  have hw : Memory.wf w := hv.phaseTick.ntTick.xoTick.frozenTick
  have hx : Memory.wf x := .ite (.foldl hw fun _ _ hu => hu.wdTick) hw
  exact .ite hx.secondTick hx

/-! ### The rows of exec -/

theorem Memory.wf.exec {i} (h : Memory.wf s) : SoundNext (exec i s) := by
  cases i with
  | registerWrite | dbgStep => exact .next h.access.runSteps
  | domainPowerUp => exact h.execDomainPowerUp
  | domainPowerDown => exact h.execDomainPowerDown
  | appdivWrite | softwareReset | playerReset | playerHoldSet | playerHoldRelease | bootselNext | healthStart | healthStop | phaseWrite | migrationGo
    | migstatRead | stgFrozenClear | dispatchEnable | trigqWrite | stgRunRead | queuePushEnqueue | queuePushRelease | queuePop | queueEnable |
    queueDisable | queueClear | queueClearDrops | dramSpeedSwitch | dramRetrain | channel1Off | channel1On | diagRead | diagWrite | diagPoison |
    releaseResume | releaseScrub | releaseReset | dmcAddrmapWrite | poisonqRead | cecountRead | flashJreadySet | flcEcccntRead | stallmaxRead |
    mrcEcccntRead | demodEnable | demodDisable | rxcApply | receiverEnable | receiverDisable | tsloRead | rxcCnt0Read | rxcCnt1Read | rxcCnt2Read |
    agccntRead | cwcntRead | frmcntRead | itersumRead | itermaxRead | hdrcntRead | latmaxRead | vitcntRead | rfeVcocal | txAbort | txDisable |
    txcCntRead | airtimeRead | maskstatRead | maskworstRead | tunestatRead | lnkEnable | lnkDisable | ackenDisable | relayenDisable | extenEnable |
    extenDisable | poolConfigWrite | cntrxRead | cntrejRead | cntsecRead | cntdropRead | cntackRead | cntrlyRead | cntrlydRead | cntovlRead | ntAdjust
    | ntSet | ntRead | trackerRoot | trackerDisable | trackerEnable | parentWrite | schcntRead | cntbcnRead | hubSwtrig | sheetDisable | hubDisable |
    filterReset | filterConfigWrite | compareReset | shcntRead | cueSoftwareSignal | logicCellReset | channelOwnerWrite | cellOwnerWrite |
    irqpendClear | ovrClear | timerEnable | timerDisable | timerCntWrite | timerImmediateWrite | timerModeChange | twbCmd | twbRecover | twbAttn |
    twbTxdataWrite | twbRxdataRead | twbDisable | cspTxdataWrite | cspRxdataRead | cspDisable | hwnDisable | hwnAttnSet | otpProgOwner | otpRevoke |
    otpBurnOwned | otpBurnRetired | keyGenerate | keyWrite | keyDerive | keyDelete | keySetattr | keyAttest | keySignid | keyRekey | aesCntRead |
    aesAuthfailRead | aesMemerrRead | pkaEcdsaSign | pkaEcdsaVerify | pkaEcdh | pkaKeygen | pkaPointCheck | pkaX25519 | hshInit | hshFeedMemory |
    hshFeedLast | hshPushedLast | hshDataPush | rngRestart | rngReseed | rngDataRead | powerRequest | powerRequestCancel | rtcApply | rtcSubsecRead |
    osfClear | svcRxfree | svcCntRead | watchdogKick | injectArm | curtainRecordClear | cecnt0Read | cecnt1Read | dbgHalt | pinConfigWrite |
    gpioOutset | gpioOutclr => exact .next h.access
  | vcoreSlewDone => exact h.execVcoreSlewDone
  | bundleExecute => exact .next (.when h fun _ hu => hu.stepCore)
  | interruptEntry => exact h.execInterruptEntry
  | impreciseBusError => exact .next (.when h fun _ hu => hu.takeImprecise)
  | unitResultWrite => exact h.execUnitResultWrite
  | iterativeMulDone => exact h.execIterativeMulDone
  | divideDone => exact h.execDivideDone
  | loadReturn => exact h.execLoadReturn
  | fetchComplete => exact h.execFetchComplete
  | writeBufferDrain => exact .next h.drainOne
  | aluAdd | aluSub | aluAnd | aluOr | aluXor | aluEq | aluLt | aluLtu | aluNe | aluGe | aluGeu | aluMin | aluMax | aluMinu | aluMaxu | aluSxb |
    aluSxh | aluZxb | aluZxh | aluMul | aluMulh | mulMul | mulMulh | mulMulhu | mulMac | mulMacu | mulAccw | mulDiv | mulDivu | mulRem | mulRemu |
    shfSll | shfSrl | shfSra | shfRor | shfExt | shfExts | shfIns | shfFsr | shfClz | shfPop | shfRev | shfBswap | simdAddB | simdSubB | simdAddsB |
    simdAddusB | simdAvguB | simdAbsdB | simdSadB | simdCmpeqB | simdShufB | simdAddH | simdSubH | simdAddsH | simdSubsH | simdMulH | simdDotH |
    simdMaxH | simdMinH | lsuLdW | lsuLdH | lsuLdHu | lsuLdB | lsuLdBu | lsuLrW | lsuStW | lsuStH | lsuStB | lsuScW | lsuFence | quEnq | quDeq |
    quDeqnb | quCnt | quSig | quWfe | cuJmp | cuBr | cuCall | cuCallr | cuRet | cuLoop | cuTrap | cuEret | cuWfe | cuLimm => exact .next h.runUnitOp
  | deqEntryArrives => exact .next (.foldl h fun _ _ hu => hu.serveWaiter)
  | wfeWake => exact h.execWfeWake
  | lockstepCheckpoint => exact .next (.when h fun _ hu => hu.pairCheckpoint)
  | lockstepMismatch => exact .next (.when h fun _ hu => hu.pairMismatch)
  | lockstepRestoreDone => exact h.execLockstepRestoreDone
  | lockstepReplayEnd => exact h.execLockstepReplayEnd
  | backupDomainPor => exact .next h.resetBackup.mainReset.setBit.setBit
  | mainPor | pinReset => exact .next h.mainReset
  | playerPowered => exact h.execPlayerPowered
  | bootSequencerStart => exact h.execBootSequencerStart
  | clocksLocked => exact h.execClocksLocked
  | romImageVerified => exact h.execRomImageVerified
  | recoveryUnlockWindowEnd => exact h.execRecoveryUnlockWindowEnd
  | healthDeadline => exact h.execHealthDeadline
  | healthGraceEnd => exact .next (.when h fun _ hu => hu.mainReset)
  | reqAlloc => exact h.execReqAlloc
  | reqFree => exact .next (.serveRequest h fun _ _ hu => hu.freeProp)
  | reqHint => exact .next (.serveRequest h fun _ _ hu => hu.hintProp)
  | reqPin => exact .next (.serveRequest h fun _ _ hu => hu.pinProp)
  | reqUnpin => exact .next (.serveRequest h fun _ _ hu => hu.unpinProp)
  | reqQuery => exact .next (.serveRequest h fun _ _ hu => hu.queryProp)
  | reqSeal => exact .next (.serveRequest h fun _ _ hu => hu.sealProp)
  | reqUnseal => exact .next (.serveRequest h fun _ _ hu => hu.unsealProp)
  | reqDone => exact .next (.serveRequest h fun _ _ hu => hu.doneTask)
  | reqBadKind => exact .next (.serveRequest h fun _ _ hu => hu)
  | pageWalk => exact h.execPageWalk
  | migrationCopyDone => exact .next h.migCopyDone
  | migrationPassDone => exact .next h.migPassDone
  | migrationFinalDone => exact .next h.migFinalDone
  | epochBoundary => exact .next h.wr.setBit.upStg
  | sweepDone => exact h.execSweepDone
  | dispatcherRun => exact .next h.dispatchRun
  | stgTrigger => exact h.execStgTrigger
  | dramTrainingDone => exact h.execDramTrainingDone
  | dramAccess => exact h.execDramAccess
  | dramBackgroundFill => exact h.execDramBackgroundFill
  | patrolScrubRead => exact h.execPatrolScrubRead
  | zqCalibration => exact .next h
  | dqsOscRead => exact .next h.setFld
  | dramSpeedSwitchDone => exact h.execDramSpeedSwitchDone
  | dramRetrainDone => exact h.execDramRetrainDone
  | dramPageTimerExpiry => exact .next h.upDram
  | refreshDue => exact h.execRefreshDue
  | refreshPullIn => exact h.execRefreshPullIn
  | mr4Poll => exact h.execMr4Poll
  | scrubReleaseDone => exact h.execScrubReleaseDone
  | flashProgram => exact h.execFlashProgram
  | flashErase => exact h.execFlashErase
  | flashEpoch => exact h.execFlashEpoch
  | flashRetire => exact h.execFlashRetire
  | flashBlankcheck => exact h.execFlashBlankcheck
  | flashAbort => exact h.execFlashAbort
  | flashRelease => exact h.execFlashRelease
  | progBurstDone => exact h.execProgBurstDone
  | erasePulseDone => exact h.execErasePulseDone
  | eraseSuspend => exact h.execEraseSuspend
  | eraseResume => exact h.execEraseResume
  | flashRead => exact h.execFlashRead
  | flashPrefetch => exact h.execFlashPrefetch
  | mramWritePerform => exact h.execMramWritePerform
  | preambleDetected => exact h.execPreambleDetected
  | syncFound => exact h.execSyncFound
  | syncWindowTimeout => exact h.execSyncWindowTimeout
  | headerDecision => exact h.execHeaderDecision
  | payloadCaptured => exact h.execPayloadCaptured
  | agcMeasurement => exact h.execAgcMeasurement
  | rxcApplyPendingDone => exact h.execRxcApplyPendingDone
  | rxcSwitchDone => exact .next h.switchDone
  | receiverReturn => exact h.execReceiverReturn
  | codewordDecodeStart => exact h.execCodewordDecodeStart
  | codewordDecodeDone => exact h.execCodewordDecodeDone
  | altHypothesisStart => exact h.execAltHypothesisStart
  | viterbiDecode => exact h.execViterbiDecode
  | txCommit => exact h.execTxCommit
  | txDeferEnd => exact h.execTxDeferEnd
  | txDeferDeadline => exact h.execTxDeferDeadline
  | txSequenceStep => exact h.execTxSequenceStep
  | txLastSymbol => exact h.execTxLastSymbol
  | txLate => exact h.execTxLate
  | synthLock => exact h.execSynthLock
  | synthLockTimeout => exact h.execSynthLockTimeout
  | synthLockLost => exact h.execSynthLockLost
  | vcoCalibrationDone => exact h.execVcoCalibrationDone
  | tunerTrialStep => exact h.execTunerTrialStep
  | tunerTrialJudge => exact h.execTunerTrialJudge
  | calPendingApply => exact h.execCalPendingApply
  | rtcTrimLearn => exact h.execRtcTrimLearn
  | lnkFrameReceive => exact h.execLnkFrameReceive
  | micVerifyDone => exact h.execMicVerifyDone
  | relayStart => exact h.execRelayStart
  | floorExpire => exact h.execFloorExpire
  | extClearDone => exact h.execExtClearDone
  | ntSourceChange | alarmConditionEnd => exact .next h.setBit
  | slewDone => exact h.execSlewDone
  | backholdEnd => exact h.execBackholdEnd
  | beaconWindowOpen => exact h.execBeaconWindowOpen
  | beaconWindowClose => exact h.execBeaconWindowClose
  | searchStart => exact h.execSearchStart
  | searchWindowOpen => exact h.execSearchWindowOpen
  | searchWindowEnd => exact h.execSearchWindowEnd
  | listenWindowOpen => exact h.execListenWindowOpen
  | listenWindowClose => exact h.execListenWindowClose
  | announcedWindowOpen => exact h.execAnnouncedWindowOpen
  | scheduleCycleBoundary => exact .next h.upSched.schNext
  | hubRtcTrigger => exact h.execHubRtcTrigger
  | hubCueTrigger => exact h.execHubCueTrigger
  | hubPinTrigger => exact .next (.foldl h.setExt fun _ _ hu => .ite hu.hubTrigger hu)
  | hubEnd => exact .next (.hubCycle h fun _ _ _ hu => hu.stepEnd)
  | hubPower => exact .next (.hubCycle h fun _ _ _ hu => hu.stepPower)
  | hubWait => exact .next (.hubCycle h fun _ _ _ hu => hu.stepWait)
  | hubTwb => exact .next (.hubCycle h fun _ _ _ hu => hu.stepTwb)
  | hubCsp => exact .next (.hubCycle h fun _ _ _ hu => hu.stepCsp)
  | hubAdc => exact .next (.hubCycle h fun _ _ _ hu => hu.stepAdc)
  | hubDsm => exact .next (.hubCycle h fun _ _ _ hu => hu.stepDsm)
  | hubPin => exact .next (.hubCycle h fun _ _ _ hu => hu.stepPin)
  | hubCapture => exact .next (.hubCycle h fun _ _ _ hu => hu.stepCapture)
  | hubFilter => exact .next (.hubCycle h fun _ _ _ hu => hu.stepFilter)
  | hubCompare => exact .next (.hubCycle h fun _ _ _ hu => hu.stepCompare)
  | hubStore => exact .next (.hubCycle h fun _ _ _ hu => hu.stepStore)
  | hubSignal => exact .next (.hubCycle h fun _ _ _ hu => hu.stepSignal)
  | hubBranch => exact .next (.hubCycle h fun _ _ _ hu => hu.stepBranch)
  | hubIllegalStep => exact .next (.hubCycle h fun _ _ _ hu => hu.hubFail)
  | hubStepSkip => exact .next (.hubCycle h fun _ _ _ hu => hu.hubAdvance)
  | hubResourceStepDone => exact h.execHubResourceStepDone
  | hubWaitEnd => exact h.execHubWaitEnd
  | spwrOvercurrent => exact h.execSpwrOvercurrent
  | cueProducerEvent => exact h.execCueProducerEvent
  | pinEvent => exact h.execPinEvent
  | cueConsumerTake => exact h.execCueConsumerTake
  | logicCellClock => exact h.execLogicCellClock
  | timerCountTick => exact h.execTimerCountTick
  | deadTimeExpiry => exact h.execDeadTimeExpiry
  | timerBreakPin => exact h.execTimerBreakPin
  | timerBreakCue => exact h.execTimerBreakCue
  | timerTrgStart => exact .next (.tmAct h fun _ hu => .ite hu hu.tmStart)
  | timerTrgRestart => exact .next (.tmAct h fun _ hu => hu.tmRestart)
  | timerTrgStop => exact .next (.tmAct h fun _ hu => hu.tmStop)
  | timerCaptureEdge => exact h.execTimerCaptureEdge
  | timerPulseEdge => exact h.execTimerPulseEdge
  | twbTransferDone => exact h.execTwbTransferDone
  | twbArbitrationLost => exact h.execTwbArbitrationLost
  | twbMisplacedCondition => exact h.execTwbMisplacedCondition
  | twbSclTimeout => exact h.execTwbSclTimeout
  | twbSdaTimeout => exact h.execTwbSdaTimeout
  | twbRecoverDone => exact h.execTwbRecoverDone
  | twbTargetAddressed => exact h.execTwbTargetAddressed
  | twbTargetByte => exact h.execTwbTargetByte
  | twbTargetStop => exact h.execTwbTargetStop
  | twbAttnDone => exact h.execTwbAttnDone
  | twbWakeDetect => exact h.execTwbWakeDetect
  | cspWakeDetect => exact h.execCspWakeDetect
  | cspMasterFrameDone => exact h.execCspMasterFrameDone
  | cspSlaveFrameDone => exact h.execCspSlaveFrameDone
  | cspSelectRelease => exact h.execCspSelectRelease
  | hwnTransactionStart => exact h.execHwnTransactionStart
  | hwnByteCommit => exact h.execHwnByteCommit
  | hwnTransactionEnd => exact h.execHwnTransactionEnd
  | otpCommandDone => exact h.execOtpCommandDone
  | keyCommandDone => exact h.execKeyCommandDone
  | jobEcbEncrypt | jobEcbDecrypt | jobCtr | jobCbcMac | jobCmacGenerate | jobCmacVerify | jobCcmSeal | jobCcmOpen => exact .next h.jobStart
  | cipherJobDone => exact h.execCipherJobDone
  | alarmSupplyGlitch | alarmClockGlitch | alarmTemperature => exact .next h.alarm
  | alarmTamp => exact .next (.when h fun _ hu => hu.alarm)
  | pkaDone => exact h.execPkaDone
  | hshDone => exact h.execHshDone
  | trngStartupDone => exact h.execTrngStartupDone
  | trngHealthFail => exact h.execTrngHealthFail
  | powerCommit => exact h.execPowerCommit
  | powerStateReached => exact h.execPowerStateReached
  | wakeEvent => exact .next h.wakeEvent
  | powerExitComplete => exact h.execPowerExitComplete
  | dozeEnter => exact h.execDozeEnter
  | dozeExit => exact h.execDozeExit
  | autoRestReturn => exact h.execAutoRestReturn
  | vbatCheck => exact h.execVbatCheck
  | backupSupplySwitch => exact h.execBackupSupplySwitch
  | backupRetentionTrip => exact .next h.resetBackup
  | rtcApplyTransfer => exact h.execRtcApplyTransfer
  | rtcApplyCommit => exact h.execRtcApplyCommit
  | rtcAlarm => exact h.execRtcAlarm
  | rtcTrimUpdate => exact h.execRtcTrimUpdate
  | oscStopDetect => exact .next h.setBit.setBit
  | oscRestart => exact .next (.when h.setBit fun _ hu => hu.rcCalibrate)
  | blackoutWake => exact h.execBlackoutWake
  | svcPacketReceive => exact h.execSvcPacketReceive
  | svcReplyDone => exact h.execSvcReplyDone
  | svcRateRevert => exact h.execSvcRateRevert
  | svcHello => exact .next (.svcServe h fun _ hu => .ite_snd hu hu.upSvc)
  | svcStatus => exact .next (.svcServe h fun _ hu => .ite hu hu.motionSeen)
  | svcLoad => exact .next (.svcServe h fun _ hu => hu.loadRun)
  | svcVerify => exact h.execSvcVerify
  | svcActivateLive => exact h.execSvcActivateLive
  | svcActivateReset => exact h.execSvcActivateReset
  | svcProgress => exact .next (.svcServe h fun _ hu => hu)
  | svcAbort => exact h.execSvcAbort
  | svcAuth => exact .next (.svcServe h fun _ hu => hu.drawBytes.upSvc)
  | ownerLock | ownerUnlock | ownerSetminver | ownerAddkey | ownerRevoke | ownerBurnOwned | ownerRetire | ownerDebugUnlock | ownerRecoveryUnlock =>
    exact .next h.ownerServe
  | svcDbgrd => exact h.execSvcDbgrd
  | svcDbgwr => exact h.execSvcDbgwr
  | activateDrained => exact h.execActivateDrained
  | activateDrainTimeout => exact h.execActivateDrainTimeout
  | serviceReady => exact h.execServiceReady
  | serviceConfirm => exact h.execServiceConfirm
  | readyTimeout => exact .next (.when h fun _ hu => hu.fallback)
  | holdoverTimeout => exact .next (.when h fun _ hu => hu.softReset)
  | vcoreReg => exact .next h.logFault
  | hfxoFail => exact h.execHfxoFail
  | hfxoRestartTry => exact h.execHfxoRestartTry
  | watchdogPreExpiry => exact .next (.when h fun _ hu => hu.wdPreExpire)
  | watchdogExpiry => exact .next (.when h fun _ hu => hu.wdExpire)
  | warmEntryDone => exact h.execWarmEntryDone
  | pllUnlock => exact h.execPllUnlock
  | pllRelock => exact h.execPllRelock
  | announcedWindowClose => exact h.execAnnouncedWindowClose
  | twbBusFree => exact h.execTwbBusFree
  | cspSlaveSelect => exact h.execCspSlaveSelect
  | timerBreakRelease => exact h.execTimerBreakRelease
  | svcGapTimeout => exact h.execSvcGapTimeout

/-! ### The step -/

theorem Memory.wf.step (h : Memory.wf s) : SoundNext (step s) := by
  unfold Machine.step
  split
  · exact .next h.tick
  · exact .exec (h.of_eq rfl rfl)

end

end Sys2Proof.Machine

namespace Sys2Proof.CanonicalForms
open Sys2Proof.Machine

/-- Settles O60: a step is a row of `exec` on the state whose queue has lost its front, or a tick, and each
keeps the canonical form (`Memory.wf.step`). -/
theorem everyStepKeepsTheCanonicalForms : Obligations.EveryStepKeepsTheCanonicalForms := by
  unfold Obligations.EveryStepKeepsTheCanonicalForms
  exact fun s t h e => h.step t e

end Sys2Proof.CanonicalForms
end

section
/-! PROOF. The state right after a reset. -/
namespace Sys2Proof.ResetState
open Sys2Proof.Machine Sys2Proof.Safety Sys2Proof.Reg

/-- Nothing is listed in either finite map, so both are in canonical form. -/
theorem sound_reset : Sound State.reset := ⟨rfl, rfl⟩

/-- With nothing listed a register reads the reset value of its row of the tables (04 R98). -/
theorem rd_reset (a : Nat) : State.reset.rd a = regReset a := rfl

theorem core_reset_stopped : ∀ n : Fin 6, (State.reset.core n).run = .stopped := by decide

/-- Settles O59: with nothing listed, what a register reads is its row of the tables (`rd_reset`), which for a row
whose reset is a dash log 4 fixes; memory too has nothing listed (log 5). -/
theorem resetIsSoundAndReadsTheTables : Obligations.ResetIsSoundAndReadsTheTables := by
  unfold Obligations.ResetIsSoundAndReadsTheTables
  refine ⟨sound_reset, rfl, rfl, rfl, rd_reset, ?_, ?_, core_reset_stopped, ?_, ?_, rfl⟩
  · simp only [rd_reset]
    decide +kernel
  · simp only [rd_reset]
    decide +kernel
  · decide
  · decide

end Sys2Proof.ResetState
end

section
/-! PROOF. What a main reset leaves (04 R98), for every cause of one. -/
namespace Sys2Proof.MainReset
open Sys2Proof.Machine Sys2Proof.Safety Sys2Proof.Reg

variable (s : State) (cause : Nat)

/-- What becomes of a register that no reset sets: the value of a kept one stays, unless it is an unlearned entry
of the trim table (18 R454), and any other one is reset. -/
theorem mainReset_rd_kept (power : Bool) {a : Nat} (hcause : a ≠ SYS.RSTCAUSE) (hesc : power = false → a ≠ FLT.ESC)
    (hlife : a = SYS.LIFECYCLE → s.keys.otpCmd = none) (hwf : Unlearned s a → sparseWf regReset s.regs = true) :
    (mainReset s cause power).rd a =
      if ((if power then keptAtPower a else keptReg a) && !unlearned (a, s.rd a)) = true then s.rd a else regReset a := by
  by_cases hu : Unlearned s a
  · rw [mainReset_unlearned s cause power a (hwf hu) hu]
    simp [show unlearned (a, s.rd a) = true from hu]
  · rw [mainReset_rd s cause power a hcause hesc hlife hu]
    simp [show unlearned (a, s.rd a) = false by simpa [Unlearned] using hu]

/-- A reset with the power lost: its causes alone are set and memory keeps flash and MRAM. -/
theorem mainReset_cold : let t := mainReset s cause true
    t.rd SYS.RSTCAUSE = BitVec.ofNat 32 cause ∧
    (∀ a, a ≠ SYS.RSTCAUSE → (a = SYS.LIFECYCLE → s.keys.otpCmd = none) →
      (unlearned (a, s.rd a) = true → sparseWf regReset s.regs = true) →
      t.rd a = if (keptAtPower a && !unlearned (a, s.rd a)) = true then s.rd a else regReset a) ∧
    (∀ b, t.byte b = if nonVolatile b = true then (flashCut s).byte b else memDefault b) ∧
    t.cores = State.reset.cores ∧ t.doms = State.reset.doms ∧ t.pending = s.pending := by
  refine ⟨mainReset_cause s cause true, fun a h => mainReset_rd_kept s cause true h nofun, fun b => ?_, mainReset_rest s cause true⟩
  rw [mainReset_byte]
  cases nonVolatile b <;> simp

/-- A reset with the power kept: its cause joins those shown, the warm count and all of memory stay. -/
theorem mainReset_keepsWarm : let t := mainReset s cause false
    t.rd SYS.RSTCAUSE = BitVec.ofNat 32 ((s.rd SYS.RSTCAUSE).toNat ||| cause) ∧
    (∀ a, a ≠ SYS.RSTCAUSE → a ≠ FLT.ESC → (a = SYS.LIFECYCLE → s.keys.otpCmd = none) →
      (unlearned (a, s.rd a) = true → sparseWf regReset s.regs = true) →
      t.rd a = if (keptReg a && !unlearned (a, s.rd a)) = true then s.rd a else regReset a) ∧
    t.fld FLT.ESC 15 8 = s.fld FLT.ESC 15 8 ∧
    (∀ b, t.byte b = (flashCut s).byte b) ∧
    t.cores = State.reset.cores ∧ t.doms = State.reset.doms ∧ t.pending = s.pending := by
  refine ⟨mainReset_cause s cause false, fun a h h2 => mainReset_rd_kept s cause false h fun _ => h2, mainReset_warm s cause,
    fun b => ?_, mainReset_rest s cause false⟩
  rw [mainReset_byte]
  simp

theorem flashCut_idle (hprog : s.nvm.prog = none) (herase : s.nvm.erase = none) : flashCut s = s := by
  simp only [flashCut, hprog, herase]

theorem exec_healthGraceEnd (hgrace : s.boot.grace = true) (hleft : s.boot.graceLeft ≤ 1) :
    exec .healthGraceEnd s = .next (mainReset s 0x20 false) := by
  show Host.Outcome.next (s.when (s.boot.grace && decide (s.boot.graceLeft ≤ 1)) _) = _
  simp [State.when, hgrace, hleft]

theorem regWrite_sys {who a : Nat} (v : Word) (h : a / 4096 = 0x30000) : regWrite s who a v = (false, writeSys s who a v) := by
  simp [regWrite, h]

/-- 04 R106: the command's write carries the key 0xA5, whatever the rest of its word. -/
theorem exec_softwareReset {who : Nat} (v : Word) (h : Reaches s who SYS.SWRST true) :
    exec (.softwareReset who v) s = .next (mainReset s 0x10 false) := by
  have hkey : writeSys s who SYS.SWRST (withBits v 7 0 0xA5) = mainReset s 0x10 false := if_pos (bitsOf_withBits_A5 v)
  exact congrArg Host.Outcome.next (access_write h ((regWrite_sys s _ rfl).trans (congrArg _ hkey)))

/-- 18 R458: the backup domain's registers but CAPSTEP lose their values before the main reset. -/
theorem resetBackup_rd (a : Nat) : (resetBackup s).rd a = if (a / 4096 != 0x30003 || a == RTC.CAPSTEP) = true then s.rd a else regReset a :=
  sparseGet_filter regReset (fun a => a / 4096 != 0x30003 || a == RTC.CAPSTEP) a s.regs

theorem resetBackup_wf (h : sparseWf regReset s.regs = true) : sparseWf regReset (resetBackup s).regs = true := sparseWf_filter _ _ _ h

/-- What the state of a backup reset reads outside the two registers that take the level of PWR_DEF. -/
theorem backupReset_rd {a : Nat} (pwrDef : Bool) (hstatus : a ≠ RTC.STATUS) (hpwron : a ≠ RTC.PWRON) :
    (((mainReset (resetBackup s) 1 true).setBit RTC.STATUS 6 pwrDef).setBit RTC.PWRON 0 (!pwrDef)).rd a = (mainReset (resetBackup s) 1 true).rd a := by
  rw [State.rd_setBit_ne _ hpwron, State.rd_setBit_ne _ hstatus]

theorem leaves_backupDomainPor (pwrDef : Bool) : Leaves (.backupDomainPor pwrDef) s (fun t => t.rd SYS.RSTCAUSE = 1 ∧
    (∀ a, a ≠ SYS.RSTCAUSE → a / 4096 ≠ 0x30003 → (a = SYS.LIFECYCLE → s.keys.otpCmd = none) →
      (unlearned (a, s.rd a) = true → sparseWf regReset s.regs = true) →
      t.rd a = if (keptAtPower a && !unlearned (a, s.rd a)) = true then s.rd a else regReset a) ∧
    (∀ a, a / 4096 = 0x30003 → a ≠ RTC.CAPSTEP → a ≠ RTC.STATUS → a ≠ RTC.PWRON →
      (unlearned (a, regReset a) = true → sparseWf regReset s.regs = true) → t.rd a = regReset a) ∧
    t.rd RTC.CAPSTEP = s.rd RTC.CAPSTEP ∧ t.bit RTC.STATUS 6 = pwrDef ∧ t.bit RTC.PWRON 0 = !pwrDef ∧
    t.cores = State.reset.cores ∧ t.pending = s.pending) := by
  obtain ⟨hcause, hregs, -, hcores, -, hpending⟩ := mainReset_cold (resetBackup s) 1
  have hrest := @backupReset_rd s
  refine ⟨_, rfl, ?_, ?_, ?_, ?_, ?_, State.bit_setBit_self _ _ _ (by decide), hcores, hpending⟩
  · exact (hrest _ (by decide) (by decide)).trans hcause
  · intro a hne hpage hlife hwf
    have hold : (resetBackup s).rd a = s.rd a := by simp [resetBackup_rd, hpage]
    rw [hrest _ (by rintro rfl; exact hpage rfl) (by rintro rfl; exact hpage rfl), hregs a hne hlife, hold]
    rw [hold]
    exact fun hu => resetBackup_wf s (hwf hu)
  · intro a hpage hcap hstatus hpwron hwf
    have hold : (resetBackup s).rd a = regReset a := by simp [resetBackup_rd, hpage, hcap]
    rw [hrest _ hstatus hpwron, hregs a (fun e => absurd hpage (by rw [e]; decide)) (fun e => absurd hpage (by rw [e]; decide)), hold, ite_self]
    rw [hold]
    exact fun hu => resetBackup_wf s (hwf hu)
  · have hold : (resetBackup s).rd RTC.CAPSTEP = s.rd RTC.CAPSTEP := by simp [resetBackup_rd]
    have hun : unlearned (RTC.CAPSTEP, s.rd RTC.CAPSTEP) = false := rfl
    rw [hrest _ (by decide) (by decide), hregs RTC.CAPSTEP (by decide) (fun e => absurd e (by decide)), hold]
    · simp [hun, show keptAtPower RTC.CAPSTEP = true by decide]
    · rw [hold, hun]
      exact nofun
  · rw [State.bit_setBit_ne _ (by decide)]
    exact State.bit_setBit_self _ _ _ (by decide)

/-- Settles O24: each cause of a main reset makes one of the two kinds, cold (`mainReset_cold`) or warm (`mainReset_keepsWarm`).
Which registers of a dash row are kept is log 4, and that a warm reset keeps every byte of memory is log 5. -/
theorem mainResetLeavesResetRegisters : Obligations.MainResetLeavesResetRegisters := by
  unfold Obligations.MainResetLeavesResetRegisters
  exact fun s => ⟨flashCut_idle s, ⟨_, rfl, mainReset_cold s 2⟩, ⟨_, rfl, mainReset_cold s 6⟩, ⟨_, rfl, mainReset_keepsWarm s 8⟩,
    fun hgrace hleft => ⟨_, exec_healthGraceEnd s hgrace hleft, mainReset_keepsWarm s 0x20⟩,
    fun _ v h => ⟨_, exec_softwareReset s v h, mainReset_keepsWarm s 0x10⟩, leaves_backupDomainPor s⟩

end Sys2Proof.MainReset
end

section
/-! PROOF. The lockstep of the link pair (04 R89, R90, R91): its checkpoint, its mismatch, its restore and its replay. -/
namespace Sys2Proof.LinkPair
open Sys2Proof.Machine Sys2Proof.Safety Sys2Proof.Reg

variable {s : State}

/-- 04 R89: the core stalls in nothing, so it stands at a boundary where a checkpoint may be taken. -/
theorem exec_lockstepCheckpoint (hrun : (s.core 4).run = .running) (hstall : (s.core 4).stall = none) (hrestoring : s.pair.restoring = false)
    (hreplay : s.pair.replay = false) : exec .lockstepCheckpoint s = .next (pairCheckpoint s) := by
  have hdue : ((s.core 4).run == .running && atBoundary (s.core 4) && !s.pair.restoring && !s.pair.replay) = true := by
    simp [atBoundary, hrun, hstall, hrestoring, hreplay]
  exact congrArg Host.Outcome.next (if_pos hdue)

theorem pairCheckpoint_core : (pairCheckpoint s).core 4 = passCycles 64 (s.core 4) := core_upCore_self s 4 (passCycles 64)

theorem pairCheckpoint_pair : (pairCheckpoint s).pair =
    { s.pair with chk := passCycles 64 (s.core 4), undo := [], inlog := [], outs := 0, bundles := 0 } :=
  congrArg (fun c => { s.pair with chk := c, undo := [], inlog := [], outs := 0, bundles := 0 }) (core_upCore_self s 4 (passCycles 64))

theorem exec_lockstepMismatch (hrun : (s.core 4).run = .running) (hrestoring : s.pair.restoring = false) :
    exec .lockstepMismatch s = .next (pairMismatch s 0) := by
  have hdue : ((s.core 4).run == .running && !s.pair.restoring) = true := by simp [hrun, hrestoring]
  exact congrArg Host.Outcome.next (if_pos hdue)

/-- The count of mismatches is apart from RESTORING and HALTED. -/
theorem bit_countMismatch : (s.bump SYS.LSTEP 15 0 1).bit SYS.LSTEP 16 = s.bit SYS.LSTEP 16 :=
  State.bit_setFld_apart s _ _ (by decide) (by decide) (by decide)

/-- 04 R90: a first mismatch is counted and sets RESTORING. -/
def restoringState (s : State) : State := ((s.bump SYS.LSTEP 15 0 1).setBit SYS.LSTEP 16 true).upPair (fun l => { l with restoring := true })

/-- 04 R91: a mismatch before the replay ends is counted, sets HALTED and stops the pair. -/
def haltedState (s : State) : State := ((s.bump SYS.LSTEP 15 0 1).setBit SYS.LSTEP 17 true).upCore 4 (fun c => { c with run := .held })

theorem pairMismatch_first (h : s.bit SYS.LSTEP 16 = false) : pairMismatch s 0 = logFault (restoringState s) 7 1 0 1 0 :=
  if_neg (by simp [bit_countMismatch, h])

theorem pairMismatch_second (h : s.bit SYS.LSTEP 16 = true) : pairMismatch s 0 = logFault (haltedState s) 8 1 0 0 0 :=
  if_pos (bit_countMismatch.trans h)

/-- Neither touches the ring of the log before the entry is written. -/
theorem logHead_restoringState : (restoringState s).fld FLT.LOGHEAD 5 0 = s.fld FLT.LOGHEAD 5 0 :=
  (State.fld_setBit_ne _ (by decide) _ _ _ _).trans (State.fld_setFld_ne _ (by decide) _ _ _ _ _)

theorem logHead_haltedState : (haltedState s).fld FLT.LOGHEAD 5 0 = s.fld FLT.LOGHEAD 5 0 :=
  (State.fld_setBit_ne _ (by decide) _ _ _ _).trans (State.fld_setFld_ne _ (by decide) _ _ _ _ _)

theorem fld_lstep_logFault (cls init detail flags : Nat) (loc : Word) (hi lo : Nat) :
    (logFault s cls init detail flags loc).fld SYS.LSTEP hi lo = s.fld SYS.LSTEP hi lo := by
  unfold State.fld
  rw [logFault_rd s _ _ _ _ _ (by decide) (by decide)]

theorem leaves_firstMismatch (hrun : (s.core 4).run = .running) (hrestoring : s.pair.restoring = false) (hfirst : s.bit SYS.LSTEP 16 = false) :
    Leaves .lockstepMismatch s (fun t => t.bit SYS.LSTEP 16 = true ∧ t.fld SYS.LSTEP 15 0 = min (s.fld SYS.LSTEP 15 0 + 1) 0xFFFF ∧
      t.pair = { s.pair with restoring := true } ∧ t.cores = s.cores ∧ t.fld (FLT.LOG (s.fld FLT.LOGHEAD 5 0) 2) 7 0 = 7 ∧ t.mem = s.mem) := by
  obtain ⟨hmem, hcores, hpair, -⟩ := logFault_fields (restoringState s) 7 1 0 1 0
  refine ⟨_, (exec_lockstepMismatch hrun hrestoring).trans (congrArg _ (pairMismatch_first hfirst)), ?_, ?_, hpair, hcores, ?_, hmem⟩
  · rw [logFault_bit _ _ _ _ _ _ _ (by decide) (by decide)]
    exact State.bit_setBit_self _ _ _ (by decide)
  · rw [fld_lstep_logFault]
    exact (State.fld_setBit_apart _ _ _ (by decide) (by decide)).trans (State.fld_bump_self s _ (by decide) (by decide))
  · rw [← logHead_restoringState]
    exact logFault_cls (restoringState s) 7 1 0 1 0

theorem leaves_secondMismatch (hrun : (s.core 4).run = .running) (hrestoring : s.pair.restoring = false) (hsecond : s.bit SYS.LSTEP 16 = true) :
    Leaves .lockstepMismatch s (fun t => t.bit SYS.LSTEP 17 = true ∧ t.core 4 = { s.core 4 with run := .held } ∧
      t.fld (FLT.LOG (s.fld FLT.LOGHEAD 5 0) 2) 7 0 = 8 ∧ t.mem = s.mem) := by
  obtain ⟨hmem, hcores, -⟩ := logFault_fields (haltedState s) 8 1 0 0 0
  refine ⟨_, (exec_lockstepMismatch hrun hrestoring).trans (congrArg _ (pairMismatch_second hsecond)), ?_, ?_, ?_, hmem⟩
  · rw [logFault_bit _ _ _ _ _ _ _ (by decide) (by decide)]
    exact State.bit_setBit_self _ _ _ (by decide)
  · unfold State.core
    rw [hcores]
    exact core_upCore_self ((s.bump SYS.LSTEP 15 0 1).setBit SYS.LSTEP 17 true) 4 (fun c => { c with run := .held })
  · rw [← logHead_haltedState]
    exact logFault_cls (haltedState s) 8 1 0 0 0

/-- 04 R91: the D-TCM rolled back from the newest entry of the undo log. -/
def rolledBack (s : State) : State := s.pair.undo.reverse.foldl (fun u e => u.stw e.1 e.2) s

/-- What a restore gives the core of the pair: its checkpoint, and of its present state what no checkpoint holds. -/
def restoredCore (chk c : Core) : Core :=
  { chk with run := .running, wbuf := c.wbuf, held := c.held, cycle := c.cycle, flines := c.flines, latch := c.latch, stall := none, got := [] }

/-- What a restore leaves of the lockstep: the logged inputs and outputs are still to be replayed. -/
def restoredPair (l : Lockstep) : Lockstep :=
  { l with undo := [], bundles := 0, restoring := false, replay := true, rin := l.inlog, rout := l.outs }

theorem exec_lockstepRestoreDone (hrun : (s.core 4).run = .running) (hrestoring : s.pair.restoring = true) :
    exec .lockstepRestoreDone s =
      .next (((rolledBack s).upCore 4 (restoredCore (rolledBack s).pair.chk)).upPair restoredPair) :=
  if_pos ⟨hrestoring, hrun⟩

theorem leaves_restore (hrun : (s.core 4).run = .running) (hrestoring : s.pair.restoring = true) :
    Leaves .lockstepRestoreDone s (fun t => t.core 4 = restoredCore s.pair.chk (s.core 4) ∧ t.pair = restoredPair s.pair ∧
      t.mem = (rolledBack s).mem ∧ t.regs = s.regs) := by
  obtain ⟨hcores, hregs, hpair⟩ : (rolledBack s).cores = s.cores ∧ (rolledBack s).regs = s.regs ∧ (rolledBack s).pair = s.pair :=
    undo_rest s.pair.undo.reverse s
  have hcore : (rolledBack s).core 4 = s.core 4 := by
    unfold State.core
    rw [hcores]
  refine ⟨_, exec_lockstepRestoreDone hrun hrestoring, ?_, congrArg restoredPair hpair, rfl, hregs⟩
  rw [← hcore, ← hpair]
  exact core_upCore_self (rolledBack s) 4 _

theorem leaves_replayEnd (hreplay : s.pair.replay = true) (hin : s.pair.rin = []) (hout : s.pair.rout = 0) :
    Leaves .lockstepReplayEnd s (fun t => t.bit SYS.LSTEP 16 = false ∧ t.pair = { s.pair with replay := false } ∧
      t.cores = s.cores ∧ OnlyRegs s t [SYS.LSTEP]) :=
  ⟨_, if_pos ⟨hreplay, hin, hout⟩, State.bit_setBit_self _ _ _ (by decide), rfl, rfl, onlyRegs_setFld (s.upPair _) _ _ _ _⟩

/-- Settles O28: one lemma for each event of the pair. The hypotheses of a clause are the guard of its event's row, so the row
acts and the clause says what it leaves. -/
theorem lockstepRollsBackAndReplays : Obligations.LockstepRollsBackAndReplays := by
  unfold Obligations.LockstepRollsBackAndReplays
  intro s hrun
  refine ⟨fun hstall hrestoring hreplay => ⟨_, exec_lockstepCheckpoint hrun hstall hrestoring hreplay, pairCheckpoint_core, ?_,
    pairCheckpoint_pair, rfl, rfl⟩, leaves_firstMismatch hrun, leaves_secondMismatch hrun, leaves_restore hrun, leaves_replayEnd⟩
  rw [pairCheckpoint_core]
  rfl

end Sys2Proof.LinkPair
end

section
/-! PROOF. The events of start-up (04 R99, R102, R103, R104, 20 R485, 01 R14). -/
namespace Sys2Proof.StartUp
open Sys2Proof.Machine Sys2Proof.Safety Sys2Proof.Reg

variable {s : State}

/-- A core that starts with a0 = 0 has every register as after a reset. -/
theorem startCore_zero (s : State) (p : Fin 6) (entry : Word) : startCore s p entry 0 = s.setCore p { pc := entry, run := .running } := by
  have ha : (Vector.replicate 32 (0 : Word)).set 0 0 = Vector.replicate 32 0 := by decide
  rw [startCore, ha]

/-! ### The boot sequencer and the clocks -/

theorem exec_bootSequencerStart (svc : Bool) (eui : BitVec 64) (lim : Fin 4) (en pol : Bool) (hstep : s.boot.step = .power) :
    let s1 := ((keyBoot s).wr LNK.EUILO (BitVec.ofNat 32 eui.toNat)).wr LNK.EUIHI (BitVec.ofNat 32 (eui.toNat / 2 ^ 32))
    let s2 := ((s1.setFld SYS.BOOTSEL 9 8 (if lim.val = 0 then 2 else lim.val)).setBit KEY.ALARM 16 en).setBit KEY.ALARM 17 pol
    let s3 := showEpochs (s2.upBoot (fun b => { b with step := .clocks, svcReq := svc }))
    exec (.bootSequencerStart svc eui lim en pol) s = .next ((if lifecycle s3 = 3 then enterRecovery s3 0 else
      selectBlock s3 0 3 (bootOrder s3)).setCore 5 { pc := 0, run := .running }) := by
  intro s1 s2 s3
  have hexec : exec (.bootSequencerStart svc eui lim en pol) s = if lifecycle s3 = 3 then .next (startCore (enterRecovery s3 0) 5 0 0)
      else .next (startCore (selectBlock s3 0 3 (bootOrder s3)) 5 0 0) := if_neg (not_not_intro hstep)
  rw [hexec, startCore_zero, startCore_zero]
  split <;> rfl

/-- 01 R12: the free value of a measurement of RC16 lies within 0.5 % of 16 MHz. -/
theorem rcCalibrate_rccal (s : State) : 15920000 ≤ (rcCalibrate s).fld CLK.RCCAL 23 0 ∧ (rcCalibrate s).fld CLK.RCCAL 23 0 ≤ 16080000 := by
  have hfld : (rcCalibrate s).fld CLK.RCCAL 23 0 = (15920000 + s.draw.1.toNat % 160001) % 2 ^ 24 :=
    (State.fld_setBit_ne _ (by decide) _ _ _ _).trans (State.fld_setFld_self _ _ _ (by decide) (by decide))
  rw [hfld]
  omega

/-- The four locks (bits 4 to 1) and the end of the measurement (bit 5) together. -/
theorem bitsOf_locksAndMeasured (v : Word) : bitsOf (withBits (withBits v 4 1 15) 5 5 (natBit true)) 5 1 = 31 := by
  refine Nat.eq_of_testBit_eq fun i => ?_
  rw [testBit_bitsOf, getLsbD_withBits _ _ (by decide) (by decide), getLsbD_withBits _ _ (by decide) (by decide)]
  rcases Nat.lt_or_ge i 5 with hi | hi
  · interval_cases i <;> rfl
  · have h31 : Nat.testBit 31 i = false := Nat.testBit_lt_two_pow (Nat.lt_of_lt_of_le (by decide) (Nat.pow_le_pow_right (by decide) hi))
    simp [h31, Nat.not_lt.2 hi]

theorem clocksOn_status (s : State) : (clocksOn s).fld CLK.STATUS 5 1 = 31 := by
  have hrd : (clocksOn s).rd CLK.STATUS = withBits (withBits (s.rd CLK.STATUS) 4 1 15) 5 5 (natBit true) := by
    refine (State.rd_setFld_self _ _ _ _ _).trans (congrArg (withBits · 5 5 (natBit true)) ?_)
    exact (State.rd_setFld_ne _ (by decide) _ _ _).trans (State.rd_setFld_self s _ _ _ _)
  exact (congrArg (bitsOf · 5 1) hrd).trans (bitsOf_locksAndMeasured _)

theorem onlyRegs_clocksOn (s : State) : OnlyRegs s (clocksOn s) [CLK.STATUS, CLK.RCCAL] := by
  refine ⟨fun b hb => ?_, fun _ => rfl⟩
  obtain ⟨hstatus, hrccal⟩ : b ≠ CLK.STATUS ∧ b ≠ CLK.RCCAL := by simpa using hb
  exact (State.rd_setBit_ne _ hstatus _ _).trans ((State.rd_setFld_ne _ hrccal _ _ _).trans (State.rd_setFld_ne s hstatus _ _ _))

theorem leaves_clocksLocked (hstep : s.boot.step = .clocks) : Leaves .clocksLocked s (fun t => t.fld CLK.STATUS 5 1 = 31 ∧
    t.fld CLK.RCCAL 23 0 ≥ 15920000 ∧ t.fld CLK.RCCAL 23 0 ≤ 16080000 ∧ OnlyRegs s t [CLK.STATUS, CLK.RCCAL] ∧ t.cores = s.cores ∧
    t.boot = { s.boot with step := if s.boot.svcReq = true then .window else .verify }) := by
  obtain ⟨hlow, hhigh⟩ := rcCalibrate_rccal (s.setFld CLK.STATUS 4 1 15)
  exact ⟨_, if_pos hstep, clocksOn_status s, hlow, hhigh, onlyRegs_clocksOn s, rfl, rfl⟩

/-! ### The boot ROM -/

theorem setBytes_kept (bs : List Byte) (a : Nat) (s : State) : (s.setBytes a bs).svc = s.svc ∧ (s.setBytes a bs).uptime = s.uptime := by
  induction bs generalizing s a with
  | nil => exact ⟨rfl, rfl⟩
  | cons b bs ih => exact ih (a + 1) (s.setByte a b)

/-- A device past its provisioning goes straight to the check of the image. -/
theorem exec_romImageVerified (ok : Bool) (hstep : s.boot.step = .verify) (hlife : lifecycle s ≠ 0) :
    exec (.romImageVerified ok) s = .next (if imageCheck s (s.fld SYS.BOOTSEL 0 0) false 0 = 0 then
      svcPresent (((enterImage s 0).upSvc (fun v => { v with
        ustate := if (enterImage s 0).fld SYS.BOOTSEL 5 4 = 0 then 0 else 6, live := false, trialAt := (enterImage s 0).uptime })).upBoot
          (fun b => { b with step := .done }))
      else bootNext s) := by
  show execRomImageVerified ok s = _
  rw [execRomImageVerified, if_neg (not_not_intro hstep), if_neg hlife]
  dsimp only
  split <;> rfl

/-- The image goes to memory, so what the registers say of its block still stands when it is entered. -/
theorem enterImage_kept (s : State) (a0 : Word) : (enterImage s a0).regs = s.regs ∧ (enterImage s a0).uptime = s.uptime := by
  unfold enterImage startCore
  simp only [State.setCore_regs, State.setBytes_regs, State.setCore_uptime, (setBytes_kept _ _ s).2, and_self]

/-! ### The health deadline and the warm entry -/

theorem exec_healthDeadline (served : Bool) (hrun : s.bit SYS.HEALTH 8 = true) (hgrace : s.boot.grace = false) (hstate : s.svc.ustate ≠ 6)
    (hdue : max 10 (s.fld SYS.HEALTHDL 15 0) ≤ s.fld SYS.HEALTH 31 16) : exec (.healthDeadline served) s = .next (healthExpire s) := by
  have hdue' : healthDue s = true := decide_eq_true hdue
  have hserved : (served && (healthExpire s).svc.ustate == 6) = false := by
    have : (healthExpire s).svc.ustate ≠ 6 := hstate
    simp [this]
  show execHealthDeadline served s = _
  simp only [execHealthDeadline, hrun, hdue', hgrace, and_self, if_true, Bool.false_eq_true, if_false]
  exact congrArg Host.Outcome.next (if_neg (by simp [hserved]))

theorem exec_warmEntryDone (hwarm : s.flt.warmEntry = true) :
    let h := imageBytes s (blockSector (s.fld SYS.BOOTSEL 0 0)) 0 320
    let u := startCore s 5 (BitVec.ofNat 32 (0x18000000 + hdrFld h 20 4)) 1
    sha256 (s.bytes 0x18000000 (hdrFld h 16 4)) = (h.drop 36).take 32 →
      exec .warmEntryDone s = .next { u with flt := { u.flt with warmEntry := false } } := by
  intro h u hhash
  show execWarmEntryDone s = _
  rw [execWarmEntryDone, if_neg (by simp [hwarm])]
  exact if_pos hhash

/-! ### A player's power -/

/-- 04 R103: a player whose hold is 0 starts at its `SYS.ENTRYn`. -/
theorem enterCore_free (n : Fin 4) (h : s.bit SYS.PLAYHOLD n = false) :
    enterCore s ⟨n.val, by omega⟩ = s.setCore ⟨n.val, by omega⟩ { pc := s.rd (SYS.ENTRY n), run := .running } := by
  have hfree : coreHeld s ⟨n.val, by omega⟩ = false := by simp [coreHeld, h]
  rw [enterCore, if_neg (by simp [hfree]), startCore_zero]

/-- 01 R14: where the dividers stand when the sequencer looks at the latest setting: VCORE allows it at once, or has yet to rise. -/
def dividersSet (s : State) : State :=
  if vcoreFor s (s.fld CLK.APPDIV 7 0) ≤ s.fld CLK.VCORE 6 0 then s.upPwr (fun p => { p with divs := s.fld CLK.APPDIV 7 0 }) else s

theorem vcoreStart_eq (s : State) : vcoreStart s = if vcoreFor s (s.fld CLK.APPDIV 7 0) = s.fld CLK.VCORE 6 0 then dividersSet s
    else ((dividersSet s).setFld CLK.VCORE 6 0 (vcoreFor s (s.fld CLK.APPDIV 7 0))).setBit CLK.STATUS 8 true := rfl

theorem dividersSet_kept (s : State) : (dividersSet s).regs = s.regs ∧ (dividersSet s).mem = s.mem ∧ (dividersSet s).cores = s.cores ∧
    (dividersSet s).doms = s.doms := by
  unfold dividersSet
  split <;> exact ⟨rfl, rfl, rfl, rfl⟩

theorem onlyRegs_of_kept {s t : State} {l : List Nat} (hregs : t.regs = s.regs) (hmem : t.mem = s.mem) : OnlyRegs s t l :=
  ⟨fun b _ => congrArg (fun r => sparseGet regReset r b) hregs, fun b => congrArg (fun m => sparseGet memDefault m b) hmem⟩

theorem onlyRegs_vcoreUpdate (s : State) : OnlyRegs s (vcoreUpdate s) [CLK.VCORE, CLK.STATUS] := by
  obtain ⟨hregs, hmem, -⟩ := dividersSet_kept s
  have hdivs : OnlyRegs s (dividersSet s) [] := onlyRegs_of_kept hregs hmem
  rw [vcoreUpdate, vcoreStart_eq]
  split
  · exact onlyRegs_of_kept rfl rfl
  · split
    · exact onlyRegs_of_kept hregs hmem
    · have hvcore : OnlyRegs s ((dividersSet s).setFld CLK.VCORE 6 0 (vcoreFor s (s.fld CLK.APPDIV 7 0))) [CLK.VCORE, CLK.STATUS] :=
        onlyRegs_trans hdivs (onlyRegs_wr _ (by decide) _) nofun
      exact onlyRegs_trans hvcore (onlyRegs_wr _ (by decide) _) fun _ h => h

theorem vcoreUpdate_kept (s : State) : (vcoreUpdate s).cores = s.cores ∧ (vcoreUpdate s).doms = s.doms := by
  obtain ⟨-, -, hkept⟩ := dividersSet_kept s
  rw [vcoreUpdate, vcoreStart_eq]
  split
  · exact ⟨rfl, rfl⟩
  · split <;> exact hkept

/-- Where VCORE has yet to rise, or the sequencer is busy, the dividers stay (01 R14). -/
theorem vcoreUpdate_pwr (s : State) (h : s.fld CLK.VCORE 6 0 < (vcoreUpdate s).fld CLK.VCORE 6 0 ∨ s.bit CLK.STATUS 8 = true) :
    (vcoreUpdate s).pwr = s.pwr := by
  by_cases hbusy : s.bit CLK.STATUS 8 = true
  · rw [vcoreUpdate, if_pos hbusy]
  · replace h := h.resolve_right hbusy
    rw [vcoreUpdate, if_neg hbusy, vcoreStart_eq] at h ⊢
    have hregs : (dividersSet s).fld CLK.VCORE 6 0 = s.fld CLK.VCORE 6 0 :=
      congrArg (fun r => bitsOf (sparseGet regReset r CLK.VCORE) 6 0) (dividersSet_kept s).1
    split at h
    case isTrue => omega
    case isFalse hwant =>
      have hset : (((dividersSet s).setFld CLK.VCORE 6 0 (vcoreFor s (s.fld CLK.APPDIV 7 0))).setBit CLK.STATUS 8 true).fld CLK.VCORE 6 0 =
          vcoreFor s (s.fld CLK.APPDIV 7 0) % 128 :=
        (State.fld_setBit_ne _ (by decide) _ _ _ _).trans (State.fld_setFld_self _ _ _ (by decide) (by decide))
      rw [hset] at h
      have hrise : ¬ vcoreFor s (s.fld CLK.APPDIV 7 0) ≤ s.fld CLK.VCORE 6 0 := by omega
      rw [if_neg hwant, dividersSet, if_neg hrise]
      rfl

/-- A player's domain comes on, its code runs at 50 MHz, and the sequencer looks at the operating point. -/
theorem exec_playerPowered (n : Fin 4) (hoff : s.dom (Dom.app n) = .off) (hhold : s.bit SYS.PLAYHOLD n = false) :
    exec (.playerPowered n) s = .next (vcoreUpdate (playerClocked ((s.setDom (Dom.app n) .on).setCore ⟨n.val, by omega⟩
      { pc := s.rd (SYS.ENTRY n), run := .running }) n)) := by
  show execPlayerPowered n s = _
  rw [execPlayerPowered, if_pos hoff, enterCore_free n (show (s.setDom (Dom.app n) .on).bit SYS.PLAYHOLD n = false from hhold)]
  rfl

theorem leaves_playerPowered (n : Fin 4) (hoff : s.dom (Dom.app n) = .off) (hhold : s.bit SYS.PLAYHOLD n = false) :
    Leaves (.playerPowered n) s (fun t => t.core ⟨n.val, by omega⟩ = { pc := s.rd (SYS.ENTRY n), run := .running } ∧
      t.dom (Dom.app n) = .on ∧ (s.fld CLK.VCORE 6 0 < t.fld CLK.VCORE 6 0 ∨ s.bit CLK.STATUS 8 = true →
        t.pwr.divs = s.pwr.divs - s.pwr.divs / 4 ^ n.val % 4 * 4 ^ n.val + 3 * 4 ^ n.val) ∧ OnlyRegs s t [CLK.VCORE, CLK.STATUS]) := by
  set u := playerClocked ((s.setDom (Dom.app n) .on).setCore ⟨n.val, by omega⟩ { pc := s.rd (SYS.ENTRY n), run := .running }) n with hu
  obtain ⟨hcores, hdoms⟩ := vcoreUpdate_kept u
  refine ⟨_, exec_playerPowered n hoff hhold, ?_, ?_, ?_, ?_⟩
  · unfold State.core
    rw [hcores]
    exact (core_setCore (s.setDom (Dom.app n) .on) _ _ _).trans (if_pos rfl)
  · unfold State.dom
    rw [hdoms]
    exact modAt_getD DomCond.on s.doms (Dom.app n)
  · exact fun h => congrArg Power.divs (vcoreUpdate_pwr u h)
  · exact onlyRegs_trans (l := []) (onlyRegs_of_kept rfl rfl) (onlyRegs_vcoreUpdate u) nofun

/-- Settles O26: each event of start-up, where its guard holds. The free value that RC16's measurement shows lies in its
range by the model's choice (log 104), and the boot sequencer's readings are the command's operands (log 44). -/
theorem startUpFollowsItsSteps : Obligations.StartUpFollowsItsSteps := by
  unfold Obligations.StartUpFollowsItsSteps
  refine fun s => ⟨exec_bootSequencerStart, leaves_clocksLocked, fun hstep => if_pos hstep, ?_, ?_, ?_, ?_, ?_, fun h => if_pos h⟩
  · intro ok hstep hlife hcheck
    rw [exec_romImageVerified ok hstep hlife, if_neg hcheck]
  · intro ok hstep hlife hcheck h
    obtain ⟨hregs, huptime⟩ := enterImage_kept s 0
    rw [exec_romImageVerified ok hstep hlife, if_pos hcheck, State.fld, State.rd, hregs, huptime]
    rfl
  · exact fun served hrun hgrace hstate hdue => exec_healthDeadline served hrun hgrace hstate hdue
  · exact fun hwarm hhash => ⟨_, exec_warmEntryDone hwarm hhash, (core_setCore _ _ _ _).trans (if_pos rfl), rfl, rfl, rfl⟩
  · exact fun n hoff hhold => leaves_playerPowered n hoff hhold

end Sys2Proof.StartUp
end

section
/-! PROOF. The migration of a page: what each transition of its channel leaves (05 R113, R115, R116). -/
namespace Sys2Proof.Migrations
open Sys2Proof.Machine Sys2Proof.Safety Sys2Proof.Reg

variable {s u : State} {c : Fin 2} {who : Nat}

/-! ### The registers and the record of a channel -/

@[simp] theorem migState_setCtrl (s : State) (c : Fin 2) (x : Nat) : migState (s.setFld (STG.MIGCTRL c) 7 4 x) c = x % 16 :=
  State.fld_setFld_self s _ x (by decide) (by decide)

@[simp] theorem migState_setStat (s : State) (c : Fin 2) (hi lo x : Nat) : migState (s.setFld (STG.MIGSTAT c) hi lo x) c = migState s c :=
  State.fld_setFld_ne s (mig_addr c).2 _ _ _ _ _

@[simp] theorem migState_setStatBit (s : State) (c : Fin 2) (i : Nat) (b : Bool) : migState (s.setBit (STG.MIGSTAT c) i b) c = migState s c :=
  migState_setStat s c _ _ _

@[simp] theorem migStat_setCtrl (s : State) (c : Fin 2) (hi lo x h l : Nat) :
    (s.setFld (STG.MIGCTRL c) hi lo x).fld (STG.MIGSTAT c) h l = s.fld (STG.MIGSTAT c) h l :=
  State.fld_setFld_ne s (mig_addr c).1 _ _ _ _ _

@[simp] theorem upMig_self (s : State) (c : Fin 2) (f : Migration → Migration) : (upMig s c f).stg.mig[c] = f s.stg.mig[c] :=
  Vector.getElem_set_self _

/-! ### The page table -/

/-- A store of bytes leaves in memory what memory and the bytes give. -/
theorem setBytes_mem_of (bs : List Byte) (a : Nat) (h : u.mem = s.mem) : (u.setBytes a bs).mem = (s.setBytes a bs).mem := by
  induction bs generalizing s u a with
  | nil => exact h
  | cons b bs ih =>
    rw [State.setBytes, State.setBytes]
    have hb : (u.setByte a b).mem = (s.setByte a b).mem := by rw [State.setByte_mem, State.setByte_mem, h]
    exact ih (u := u.setByte a b) (s := s.setByte a b) (a + 1) hb

/-- What a page-table write leaves in memory rests on memory and `STG.PTBASE` alone. -/
theorem setPte_mem_of (hm : u.mem = s.mem) (hr : u.rd STG.PTBASE = s.rd STG.PTBASE) (a : Nat) (e : BitVec 64) :
    (setPte u a e).mem = (setPte s a e).mem := by
  unfold setPte
  rw [pteAddr_of hm hr]
  split
  · rw [State.upStg_mem, State.upStg_mem]
    exact setBytes_mem_of (leBytes 8 e.toNat) _ hm
  · exact hm

/-- So does the entry of a page. -/
theorem pte_of (hm : u.mem = s.mem) (hr : u.rd STG.PTBASE = s.rd STG.PTBASE) (a : Nat) : u.pte a = s.pte a := by
  unfold State.pte
  rw [pteAddr_of hm hr]
  unfold State.ld State.bytes State.byte
  rw [hm]

/-- 05 R113: a page-table write invalidates the page in every TLB. -/
theorem setPte_tlb_page {a : Nat} {e : BitVec 64} (h : (pteAddr s a).isSome = true) : ∀ t ∈ (setPte s a e).stg.tlb, t.page ≠ a / 4096 * 4096 := by
  obtain ⟨p, hp⟩ := Option.isSome_iff_exists.1 h
  intro t ht
  simp only [setPte, hp, State.upStg_stg, List.mem_filter, bne_iff_ne] at ht
  exact ht.2

/-! ### ABORT -/

theorem migAbort_state (s : State) (c : Fin 2) (reason : Nat) : migState (migAbort s c reason) c = 5 :=
  (migState_setStat _ _ _ _ _).trans (migState_setCtrl _ c 5)

theorem migAbort_reason (s : State) (c : Fin 2) (reason : Nat) : (migAbort s c reason).fld (STG.MIGSTAT c) 14 12 = reason % 8 :=
  State.fld_setFld_self _ _ _ (by decide) (by decide)

/-- 05 R115: an abort clears M in the entry of its page, whatever of the channel is shown before. -/
theorem migAbort_setStat_mem (s : State) (c : Fin 2) (hi lo x reason : Nat) : (migAbort (s.setFld (STG.MIGSTAT c) hi lo x) c reason).mem =
    (setPte s s.stg.mig[c].page (pteWith (s.pte s.stg.mig[c].page) 4 4 0)).mem := by
  have hbase : (s.setFld (STG.MIGSTAT c) hi lo x).rd STG.PTBASE = s.rd STG.PTBASE := State.rd_setFld_ne s (by revert c; decide) _ _ _
  simp only [migAbort, State.setFld_mem, State.setFld_stg, pte_of (State.setFld_mem s _ hi lo x) hbase]
  exact setPte_mem_of (State.setFld_mem s _ hi lo x) hbase _ _

/-! ### GO -/

/-- 05 R115: GO is a write of `STG.MIGCTRLc` with bit 0 set. -/
theorem exec_migrationGo {v : Word} (h : Reaches s who (STG.MIGCTRL c) true) : exec (.migrationGo who c v) s = .next (migGo s c) := by
  refine congrArg Host.Outcome.next (access_write h ?_)
  rw [regWrite_mig, vset0, if_pos rfl]

/-- What the record of a channel holds while it moves a page to a frame. -/
def startedMig (s : State) (page tier f : Nat) (second : Bool) : Migration :=
  { page := page, src := frameAddr (pteFld (s.pte page) 14 12) (pteFld (s.pte page) 29 15), dst := frameAddr tier f, tier := tier, frame := f, second := second }

/-- 05 R115: what a start leaves in the channel, and in memory: M set in the page's entry. -/
theorem migStart_facts (s : State) (c : Fin 2) (page tier f : Nat) (second : Bool) :
    migState (migStart s c page tier f second) c = 1 ∧ (migStart s c page tier f second).fld (STG.MIGSTAT c) 14 0 = 0 ∧
    (migStart s c page tier f second).bit (STG.MIGSTAT c) 15 = false ∧
    (migStart s c page tier f second).stg.mig[c] = startedMig s page tier f second ∧
    (migStart s c page tier f second).mem = (setPte s page (pteWith (s.pte page) 4 4 1)).mem := by
  have hbank : (bankOn s tier f).mem = s.mem ∧ (bankOn s tier f).rd STG.PTBASE = s.rd STG.PTBASE := by
    unfold bankOn
    split <;> exact ⟨rfl, rfl⟩
  refine ⟨?_, ?_, State.bit_setBit_self _ _ _ (by decide), ?_, ?_⟩
  · exact (migState_setStatBit _ _ _ _).trans ((migState_setStat _ _ _ _ _).trans (migState_setCtrl _ c 1))
  · exact (State.fld_setBit_apart _ _ _ (by decide) (by decide)).trans (State.fld_setFld_self _ _ _ (by decide) (by decide))
  · simp only [migStart, startedMig, State.setBit_stg, State.setFld_stg, upMig_self]
  · simp only [migStart, upMig, State.setBit_mem, State.setFld_mem, State.upStg_mem]
    exact setPte_mem_of hbank.1 hbank.2 page _

/-! ### The copies -/

/-- 05 R115: the channel in RECOPY after the whole-page copy, which `n` granules were written during. -/
def recopying (u : State) (c : Fin 2) (n : Nat) : State :=
  ((upMig (u.setFld (STG.MIGSTAT c) 10 4 n) c (fun m => { m with dirty := 0 })).setFld (STG.MIGSTAT c) 3 0 1).setFld (STG.MIGCTRL c) 7 4 2

theorem migCopyDone_copied (hst : migState s c = 1) (hok : migRefused s s.stg.mig[c] = false) (hcopy : migCopy s c s.stg.mig[c] 0 4096 = (true, u)) :
    migCopyDone s c = recopying u c (dirtyCount s.stg.mig[c]) := by
  simp only [migCopyDone, if_pos hst, hok, Bool.false_eq_true, if_false, hcopy]
  rfl

theorem migCopyDone_failed (hst : migState s c = 1) (hok : migRefused s s.stg.mig[c] = false) (hcopy : migCopy s c s.stg.mig[c] 0 4096 = (false, u)) :
    migCopyDone s c = migAbort u c 3 := by
  simp only [migCopyDone, if_pos hst, hok, Bool.false_eq_true, if_false, hcopy]

theorem recopying_facts (u : State) (c : Fin 2) (n : Nat) : migState (recopying u c n) c = 2 ∧ (recopying u c n).fld (STG.MIGSTAT c) 3 0 = 1 ∧
    (recopying u c n).fld (STG.MIGSTAT c) 10 4 = n % 128 ∧ (recopying u c n).stg.mig[c] = { u.stg.mig[c] with dirty := 0 } ∧
    (recopying u c n).mem = u.mem := by
  unfold recopying
  refine ⟨migState_setCtrl _ c 2, ?_, ?_, ?_, rfl⟩
  · exact (migStat_setCtrl _ c _ _ _ _ _).trans (State.fld_setFld_self _ _ 1 (by decide) (by decide))
  · rw [migStat_setCtrl, State.fld_setFld_apart _ _ _ (by decide) (by decide) (by decide)]
    exact State.fld_setFld_self u _ n (by decide) (by decide)
  · simp only [State.setFld_stg, upMig_self]

/-- 05 R115: a recopy pass that leaves little enough goes on to FINAL. -/
theorem migPassDone_final (hst : migState s c = 2) (hok : migRefused s s.stg.mig[c] = false) (hn : dirtyCount s.stg.mig[c] ≤ finalMax s.stg.mig[c].tier) :
    migPassDone s c = (s.setFld (STG.MIGSTAT c) 10 4 (dirtyCount s.stg.mig[c])).setFld (STG.MIGCTRL c) 7 4 3 := by
  simp only [migPassDone, if_pos hst, hok, Bool.false_eq_true, if_false, if_pos hn]

/-- The count of the passes and the most that there may be do not change as `DIRTY` is shown. -/
theorem passes_shown (s : State) (c : Fin 2) (n : Nat) : (s.setFld (STG.MIGSTAT c) 10 4 n).fld (STG.MIGSTAT c) 3 0 = s.fld (STG.MIGSTAT c) 3 0 ∧
    (s.setFld (STG.MIGSTAT c) 10 4 n).fld STG.MIGCFG 3 0 = s.fld STG.MIGCFG 3 0 :=
  ⟨State.fld_setFld_apart _ _ _ (by decide) (by decide) (by decide), State.fld_setFld_ne _ (by revert c; decide) _ _ _ _ _⟩

section Pass
variable (hst : migState s c = 2) (hok : migRefused s s.stg.mig[c] = false) (hn : finalMax s.stg.mig[c].tier < dirtyCount s.stg.mig[c])
include hst hok hn

/-- 05 R115: a pass that leaves too much is followed by another while `PASSES` has not reached its limit. -/
theorem migPassDone_again (hp : s.fld (STG.MIGSTAT c) 3 0 < orIfZero 1 (s.fld STG.MIGCFG 3 0))
    (hcopy : copyDirty (s.setFld (STG.MIGSTAT c) 10 4 (dirtyCount s.stg.mig[c])) c s.stg.mig[c] = (true, u)) :
    migPassDone s c = (upMig u c (fun m => { m with dirty := 0 })).bump (STG.MIGSTAT c) 3 0 1 := by
  simp only [migPassDone, if_pos hst, hok, Bool.false_eq_true, if_false, if_neg (not_le_of_gt hn), passes_shown, if_pos hp, hcopy]

theorem migPassDone_failed (hp : s.fld (STG.MIGSTAT c) 3 0 < orIfZero 1 (s.fld STG.MIGCFG 3 0))
    (hcopy : copyDirty (s.setFld (STG.MIGSTAT c) 10 4 (dirtyCount s.stg.mig[c])) c s.stg.mig[c] = (false, u)) :
    migPassDone s c = migAbort u c 3 := by
  simp only [migPassDone, if_pos hst, hok, Bool.false_eq_true, if_false, if_neg (not_le_of_gt hn), passes_shown, if_pos hp, hcopy]

/-- 05 R115: after the last pass the migration ends with HOT. -/
theorem migPassDone_hot (hp : orIfZero 1 (s.fld STG.MIGCFG 3 0) ≤ s.fld (STG.MIGSTAT c) 3 0) :
    migPassDone s c = migAbort (s.setFld (STG.MIGSTAT c) 10 4 (dirtyCount s.stg.mig[c])) c 1 := by
  simp only [migPassDone, if_pos hst, hok, Bool.false_eq_true, if_false, if_neg (not_le_of_gt hn), passes_shown, if_neg (not_lt_of_ge hp)]

end Pass

/-! ### The final copy -/

/-- 05 R112: the entry of a page that a migration has moved or copied. -/
def movedPte (m : Migration) (e : BitVec 64) : BitVec 64 :=
  if m.second then pteWith (pteWith (pteWith (pteWith e 4 4 0) 3 3 1) 34 32 m.tier) 49 35 m.frame
  else pteWith (ptePlace (pteWith e 4 4 0) m.tier m.frame) 1 1 (if m.tier = 4 then 0 else pteFld (pteWith e 4 4 0) 1 1)

/-- 05 R115: the channel in DONE, its page's entry rewritten. -/
def moved (u : State) (c : Fin 2) (m : Migration) : State :=
  let s := setPte u m.page (movedPte m (u.pte m.page))
  ((upMig (if m.second then s else remapReservations s m.src) c (fun m => { m with dirty := 0 })).setFld (STG.MIGSTAT c) 10 4 0).setFld (STG.MIGCTRL c) 7 4 4

/-- Log 64: no core that buffers nothing holds up the final copy. -/
theorem no_buffered_store (hbuf : ∀ p : Fin 6, (s.core p).wbuf = []) (f : WEntry → Bool) : s.cores.any (fun x => x.wbuf.any f) = false := by
  rw [Vector.any_eq_false]
  intro i hi
  have h : s.cores[i].wbuf = [] := hbuf ⟨i, hi⟩
  simp [h]

section Final
variable (hst : migState s c = 3) (hok : migRefused s s.stg.mig[c] = false) (hbuf : ∀ p : Fin 6, (s.core p).wbuf = [])
include hst hok hbuf

theorem migFinalDone_moved (hcopy : copyDirty s c s.stg.mig[c] = (true, u)) : migFinalDone s c = moved u c s.stg.mig[c] := by
  simp only [migFinalDone, if_pos hst, no_buffered_store hbuf, hok, Bool.false_eq_true, if_false, hcopy]
  rfl

theorem migFinalDone_failed (hcopy : copyDirty s c s.stg.mig[c] = (false, u)) : migFinalDone s c = migAbort u c 3 := by
  simp only [migFinalDone, if_pos hst, no_buffered_store hbuf, hok, Bool.false_eq_true, if_false, hcopy]

end Final

theorem moved_facts (u : State) (c : Fin 2) (m : Migration) : migState (moved u c m) c = 4 ∧ (moved u c m).fld (STG.MIGSTAT c) 10 4 = 0 ∧
    (moved u c m).stg.tlb = (setPte u m.page (movedPte m (u.pte m.page))).stg.tlb := by
  unfold moved
  refine ⟨migState_setCtrl _ c 4, ?_, ?_⟩
  · exact (migStat_setCtrl _ c _ _ _ _ _).trans (State.fld_setFld_self _ _ 0 (by decide) (by decide))
  · split <;> rfl

/-! ### The read of the status -/

/-- 05 R115: a read of `STG.MIGSTATc` by a trusted initiator. -/
theorem exec_migstatRead (h : Reaches s who (STG.MIGSTAT c) false) (ht : s.trusted who = true) :
    exec (.migstatRead who c) s = .next { migStatRead s c with rdata := s.rd (STG.MIGSTAT c) } := by
  refine congrArg Host.Outcome.next ((access_read h).trans ?_)
  rw [regRead_mig s who ht]

/-- The channel back in IDLE, a completed page counted. -/
def idled (s : State) (c : Fin 2) : State :=
  (if migState s c = 4 then s.bump (STG.MIGSTAT c) 31 16 1 else s).setFld (STG.MIGCTRL c) 7 4 0

theorem migStatRead_ended (h : migState s c = 4 ∨ migState s c = 5) : migStatRead s c = policyStart (idled s c) s.stg.plan.length := by
  simp only [migStatRead, if_pos h, idled]
  split <;> rfl

theorem idled_facts (s : State) (c : Fin 2) : migState (idled s c) c = 0 ∧
    (idled s c).fld (STG.MIGSTAT c) 31 16 = (if migState s c = 4 then min (s.fld (STG.MIGSTAT c) 31 16 + 1) 0xFFFF else s.fld (STG.MIGSTAT c) 31 16) ∧
    OnlyRegs s (idled s c) [STG.MIGSTAT c, STG.MIGCTRL c] := by
  unfold idled
  refine ⟨migState_setCtrl _ c 0, ?_, onlyRegs_trans (l := [STG.MIGSTAT c]) ?_ (onlyRegs_wr _ (by simp) _) (by simp)⟩
  · rw [migStat_setCtrl]
    split
    · exact State.fld_bump_self s _ (by decide) (by decide)
    · rfl
  · split
    · exact onlyRegs_setFld s _ _ _ _
    · exact ⟨fun _ _ => rfl, fun _ => rfl⟩

/-! ### The statement -/

/-- A channel that aborts for an unreadable source (REASON 3). -/
theorem aborted_source (s : State) (c : Fin 2) : migState (migAbort s c 3) c = 5 ∧ (migAbort s c 3).fld (STG.MIGSTAT c) 14 12 = 3 :=
  ⟨migAbort_state s c 3, migAbort_reason s c 3⟩

/-- Settles O37: each transition by the lemma about what its command makes of the channel. Any trusted initiator's read of the status
ends DONE and FAILED (log 53), and a copy completes in one step (log 59). -/
theorem migrationFollowsItsStates : Obligations.MigrationFollowsItsStates := by
  unfold Obligations.MigrationFollowsItsStates
  intro who c s m page aborted
  refine ⟨fun v hreach => ⟨fun hbusy => ?_, fun hfree hidle hallowed => ?_⟩, fun hst hok u => ⟨fun hcopy => ?_, fun hcopy => ?_⟩,
    fun hst hok => ⟨fun hn => ?_, fun hn hp u => ⟨fun hcopy => ?_, fun hcopy => ?_⟩, fun hn hp => ?_⟩,
    fun hst hok hbuf u => ⟨fun hcopy hpte => ?_, fun hcopy => ?_⟩, fun hreach htrust hst => ?_⟩
  · rw [exec_migrationGo hreach]
    exact congrArg Host.Outcome.next (if_pos hbusy)
  · refine ⟨_, exec_migrationGo hreach, ?_⟩
    have hgo : migGo s c = migStart s c page (s.fld (STG.MIGDST c) 2 0) (s.fld (STG.MIGDST c) 17 3) (s.bit (STG.MIGDST c) 18) := by
      rw [migGo, if_neg (by rw [hfree]; decide), if_neg (by simp [hidle, hallowed, page])]
    rw [hgo]
    exact migStart_facts s c _ _ _ _
  · exact ⟨_, congrArg Host.Outcome.next (migCopyDone_copied hst hok hcopy), recopying_facts u c _⟩
  · exact ⟨_, congrArg Host.Outcome.next (migCopyDone_failed hst hok hcopy), aborted_source u c⟩
  · exact ⟨_, congrArg Host.Outcome.next (migPassDone_final hst hok hn), migState_setCtrl _ c 3, rfl, rfl⟩
  · refine ⟨_, congrArg Host.Outcome.next (migPassDone_again hst hok hn hp hcopy), ?_, ?_, ?_⟩
    · exact State.fld_bump_self _ _ (by decide) (by decide)
    · rw [State.bump_stg]
      exact upMig_self u c _
    · exact onlyRegs_setFld (upMig u c _) _ _ _ _
  · exact ⟨_, congrArg Host.Outcome.next (migPassDone_failed hst hok hn hp hcopy), aborted_source u c⟩
  · refine ⟨_, congrArg Host.Outcome.next (migPassDone_hot hst hok hn hp), migAbort_state _ c 1, migAbort_reason _ c 1, ?_⟩
    exact migAbort_setStat_mem s c _ _ _ 1
  · obtain ⟨hdone, hdirty, htlb⟩ := moved_facts u c m
    refine ⟨_, congrArg Host.Outcome.next (migFinalDone_moved hst hok hbuf hcopy), hdone, hdirty, ?_⟩
    rw [htlb]
    exact setPte_tlb_page hpte
  · exact ⟨_, congrArg Host.Outcome.next (migFinalDone_failed hst hok hbuf hcopy), aborted_source u c⟩
  · have hexec := exec_migstatRead hreach htrust
    rw [migStatRead_ended hst] at hexec
    refine ⟨hexec, fun hplan => ⟨_, hexec, ?_⟩⟩
    rw [hplan]
    obtain ⟨hidle, hcount, honly⟩ := idled_facts s c
    exact ⟨rfl, hidle, hcount, honly⟩

end Sys2Proof.Migrations
end

section
/-! PROOF. The requests to the stage manager: what serving each kind answers and leaves (05 R118, R120, R121). -/
namespace Sys2Proof.StageRequests
open Sys2Proof.Machine Sys2Proof.Safety Sys2Proof.Reg

variable {s t : State} {n k : Nat} {q : Request} {r : Region}

/-! ### Taking a request -/

/-- 05 R120, R121: the stage manager takes the request `q`, of KIND `k`, from the queue `n`, which leaves the state `t`. -/
def Taken (s : State) (k n : Nat) (q : Request) (t : State) : Prop :=
  requestQueue s (k == 0x10) = some n ∧ headKind s n = some k ∧ takeRequest s n = (some q, t)

/-- 05 R120: a request that is taken is served and answered, where the command serves its kind. -/
theorem serveRequest_taken (h : Taken s k n q t) (p : Nat → Bool) (hp : p k = true) (f : State → Request → Reply × State) :
    serveRequest s (k == 0x10) p f = answerRequest (f t q).2 q (f t q).1 :=
  serve_eq p f h.1 h.2.1 h.2.2 hp

/-- A command of the KIND `x`, whose service `f` of the request answers `y` and leaves `u`. -/
theorem exec_served {i : Instr} {d : Bool} {p : Nat → Bool} {f : State → Request → Reply × State} {x : Nat} {y : Reply} {u : State}
    (hi : exec i s = .next (serveRequest s d p f)) (h : Taken s k n q t) (hk : k = x) (hd : d = (x == 0x10)) (hp : p x = true)
    (hf : f t q = (y, u)) : exec i s = .next (answerRequest u q y) := by
  subst hk
  rw [hi, hd, serveRequest_taken h p hp, hf]

/-! ### The prop that a request names -/

/-- 05 R121: neither the owner nor a trusted requester. -/
theorem requestRegion_notOwned (h : regionAt t q.arg0 = some r) (hb : r.base = q.arg0) (ho : ownsRegion q r = false) :
    requestRegion t q true = .inl 4 := by
  simp [requestRegion, h, hb, ho]

/-- A request for a prop that it may not name is answered with the refusal, and nothing else happens. -/
theorem refused {c : Nat} (h : requestRegion t q true = .inl c) (fs : List Nat) :
    freeProp t q = ({ status := c }, t) ∧ hintProp t q = ({ status := c }, t) ∧ pinProp t q = ({ status := c }, t) ∧
    unpinProp t q = ({ status := c }, t) ∧ sealProp t q = ({ status := c }, t) ∧ unsealProp t q fs = ({ status := c }, t) := by
  simp only [freeProp, hintProp, pinProp, unpinProp, sealProp, unsealProp, h, and_self]

section Named
variable (h : requestRegion t q true = .inr r)
include h

/-- 05 R121 FREE: a prop that backs the ring of an enabled queue stays. -/
theorem freeProp_ring (hb : backsRing t r = true) : freeProp t q = ({ status := 7 }, t) := by
  simp only [freeProp, h, hb, if_true]

theorem freeProp_unmaps (hb : backsRing t r = false) : freeProp t q = ({ status := 1 },
    (mapPtes (migAbortIf t 2 (fun m => decide (r.base ≤ m.page) && decide (m.page < r.base + r.size))) r (fun _ => 0)).upStg (fun g => { g with
      regions := g.regions.filter (fun x => x.base != r.base),
      zeroFill := g.zeroFill.filter (fun p => decide (p < r.base ∨ r.base + r.size ≤ p)) })) := by
  simp only [freeProp, h, hb, Bool.false_eq_true, if_false]

theorem hintProp_named : hintProp t q = ({ status := 1 }, setRegion t { r with attr := withBits r.attr 1 0 (q.arg1 % 4) }) := by
  simp only [hintProp, h]

/-- 05 R119 PIN to a tier that R110 allows and that is not T0 for a RETAIN prop. -/
theorem pinProp_named (ht : q.arg1 % 8 < 5) (ha : tierAllowed r.attr (q.arg1 % 8) (attrOwner r.attr - 2) = true)
    (hr : ¬ (q.arg1 % 8 = 0 ∧ attrPers r.attr = 1)) :
    pinProp t q = ({ status := 1 }, setRegion t { r with attr := withBits (withBits r.attr 24 24 1) 18 16 (q.arg1 % 8) }) := by
  have htier : (if q.arg1 % 8 = 7 then presentTier t r else q.arg1 % 8) = q.arg1 % 8 := if_neg (by omega)
  have hok : ¬ (4 < q.arg1 % 8 ∨ ¬ tierAllowed r.attr (q.arg1 % 8) (attrOwner r.attr - 2) = true ∨ (q.arg1 % 8 = 0 ∧ attrPers r.attr = 1)) := by
    rintro (h4 | hn | h0)
    · omega
    · exact hn ha
    · exact hr h0
  simp only [pinProp, h, htier, if_neg hok]

theorem unpinProp_named : unpinProp t q = ({ status := 1 }, setRegion t { r with attr := withBits r.attr 24 24 0 }) := by
  simp only [unpinProp, h]

theorem sealProp_named : sealProp t q =
    ({ status := 1 }, mapPtes (setRegion t { r with attr := withBits r.attr 7 7 1 }) r (fun e => pteWith e 1 1 0)) := by
  simp only [sealProp, h]

/-- 05 R121 UNSEAL of a prop with no page in T4: no page moves. -/
theorem unsealProp_named (h4 : ∀ p ∈ regionPages r, pteFld (t.pte p) 14 12 ≠ 4) (fs : List Nat) : unsealProp t q fs =
    ({ status := 1 }, mapPtes (setRegion t { r with attr := withBits r.attr 7 7 0 }) r (fun e => if pteFld e 14 12 = 4 then e else pteWith e 1 1 1)) := by
  have hnone : (regionPages r).filter (fun p => pteFld (t.pte p) 14 12 == 4) = [] := by
    rw [List.filter_eq_nil_iff]
    exact fun p hp => by simpa using h4 p hp
  simp only [unsealProp, h, hnone]
  rfl

end Named

/-- 05 R121 QUERY, without the clear of bit 25. -/
theorem queryProp_named (h : requestRegion t q false = .inr r) (ha : testB q.arg1 0 = false) :
    queryProp t q = ({ status := 1, r0 := (reportAttr t r).toNat, r1 := r.size + r.index }, t) := by
  simp only [queryProp, h, ha, Bool.false_eq_true, if_false]

/-- 05 R121 DONE: the player of the requester is free again, its watchdog restarted and its descriptor's trigger cleared. -/
theorem doneTask_own (p : Fin 4) (hw : q.who = p.val + 2) (hd : q.arg0 ≠ 0) (ht : t.stg.task[p] = q.arg0) : doneTask t q =
    ({ status := 1 }, wdRestart (clearTrigger ((setDescState t q.arg0 (descState 2 p (descField t q.arg0 25 1))).upStg (fun g => { g with
      task := g.task.set p 0 })) q.arg0) p) := by
  have hcore : initCore q.who = some ⟨p.val, by omega⟩ := by rw [hw, initCore_app]
  simp only [doneTask, hcore, p.isLt, dif_pos, if_pos (show q.arg0 ≠ 0 ∧ t.stg.task[p.val] = q.arg0 from ⟨hd, ht⟩)]

/-! ### ALLOC -/

/-- 05 R109: the ATTR word of the new prop, its owner the one that its trusted requester names. -/
def newAttr (q : Request) : Word := withBits (BitVec.ofNat 32 (q.arg1 % 2048)) 10 8 (attrOwner (BitVec.ofNat 32 (q.arg1 % 2048)))

/-- 05 R109: the access masks of the new prop, with its owner in both. -/
def newMasks (q : Request) : Nat :=
  q.arg2 % 65536 ||| (2 ^ attrOwner (BitVec.ofNat 32 (q.arg1 % 2048)) + 2 ^ (attrOwner (BitVec.ofNat 32 (q.arg1 % 2048)) + 8))

/-- The second-level tables that the policy adds to the directory. -/
def addTables (s : State) (tables : List (Nat × Nat)) : State :=
  tables.foldl (fun s e => s.st ((s.rd STG.PTBASE).toNat + 4 * (e.1 % 512)) 4 (e.2 / 4096 * 4096 + 1)) s

/-- 05 R108: the pages of a new prop, of zeros, in the frames chosen. -/
def addPages (s : State) (base acl : Nat) (attr : Word) (fs : List (Nat × Nat)) : State :=
  (List.range fs.length).foldl (fun s i => setPte (zeroPage (bankOn s (fs.getD i (1, 0)).1 (fs.getD i (1, 0)).2) (base + 4096 * i)
    (frameAddr (fs.getD i (1, 0)).1 (fs.getD i (1, 0)).2) (attrSecure attr)) (base + 4096 * i) (newPte attr acl (fs.getD i (1, 0)).1 (fs.getD i (1, 0)).2)) s

section Chosen
variable {base index acl : Nat} {fs tables : List (Nat × Nat)}

theorem allocBase_chosen (hfree : rangeFree t base q.arg0 = true) (htables : rangeTables t tables base q.arg0 = true) (h : q.arg3 = 0 ∨ q.arg3 = base) :
    allocBase t q tables base = some base := by
  by_cases h0 : q.arg3 = 0
  · simp [allocBase, h0, hfree, htables]
  · obtain rfl : q.arg3 = base := h.resolve_left h0
    simp [allocBase, h0, hfree, htables]

theorem allocIndex_chosen (hi : index < 4096) (hx : ∀ x ∈ t.stg.regions, x.index ≠ index) : allocIndex t index = index := by
  simp only [allocIndex]
  refine if_pos ?_
  simpa [hi] using hx

theorem allocAcl_chosen (ha : acl < 64) (hx : ∀ x ∈ t.stg.regions, x.acl ≠ acl) (masks : Nat) : allocAcl t acl masks = some acl := by
  have hfits : (decide (acl < 64) && (t.stg.regions.all (fun r => r.acl != acl) || t.fld (STG.ACL acl) 15 0 == masks)) = true := by
    rw [List.all_eq_true.2 (fun x h => bne_iff_ne.2 (hx x h))]
    simp [ha]
  simp only [allocAcl, List.find?_cons, hfits]

/-- 05 R121 ALLOC by a trusted requester, where the choice of the policy fits (log 96). -/
theorem allocProp_chosen (htrust : q.trust = true) (hal : q.arg0 % 4096 = 0) (hlo : 4096 ≤ q.arg0) (hhi : q.arg0 ≤ 0x4000000)
    (hpers : attrPers (newAttr q) ≠ 3) (hfast : ¬ (attrFast (newAttr q) = true ∧ attrPers (newAttr q) = 2)) (hroom : t.stg.regions.length < 4096)
    (hframes : framesOk t (newAttr q) (q.arg0 / 4096) fs = true) (hbase : allocBase t q tables base = some base)
    (hindex : allocIndex t index = index) (hacl : allocAcl t acl (newMasks q) = some acl) :
    allocProp t q base index acl fs tables = ({ status := 1, r0 := base, r1 := index },
      (addPages ((addTables t tables).wr (STG.ACL acl) (BitVec.ofNat 32 (newMasks q))) base acl (newAttr q) fs).upStg (fun g => { g with
        regions := g.regions ++ [{ base := base, size := q.arg0, attr := newAttr q, acl := acl, index := index }] })) := by
  have hsize : ¬ (q.arg0 % 4096 ≠ 0 ∨ q.arg0 < 4096 ∨ 0x4000000 < q.arg0 ∨ attrPers (newAttr q) = 3 ∨
      (attrFast (newAttr q) = true ∧ attrPers (newAttr q) = 2)) := by
    rintro (h | h | h | h | h)
    · exact h hal
    · omega
    · omega
    · exact hpers h
    · exact hfast h
  unfold newAttr at *
  unfold newMasks at *
  simp only [allocProp, htrust, if_true, if_neg hsize, if_neg (Nat.not_le_of_lt hroom), hframes, hbase, hacl, hindex]
  rfl

end Chosen

/-! A page that is not SECURE is zeroed without a fault that could touch a prop's record. -/

theorem zeroRange_stg (s : State) (a m : Nat) : (s.zeroRange a m).stg = s.stg := by
  unfold State.zeroRange
  split
  · rfl
  · exact setBytes_stg _ _ _

theorem zeroPage_stg (s : State) (a ph : Nat) : (zeroPage s a ph false).stg = s.stg := by
  have hplain : (ciphered false ph && s.keys.mem.isSome) = false := rfl
  unfold zeroPage
  rw [if_neg (by rw [hplain]; decide)]
  split
  · refine (zeroRange_stg _ _ _).trans ?_
    unfold dramValidate
    split <;> rfl
  · exact zeroRange_stg _ _ _
  · exact zeroRange_stg _ _ _

theorem addPages_regions (s : State) (base acl : Nat) {attr : Word} (h : attrSecure attr = false) (fs : List (Nat × Nat)) :
    (addPages s base acl attr fs).stg.regions = s.stg.regions := by
  refine foldl_regions _ (fun u i => ?_) _ s
  rw [setPte_regions, h, zeroPage_stg]
  unfold bankOn
  split <;> rfl

/-- Settles O35: each request by the lemma about what its service answers, in the state that taking it leaves. -/
theorem requestsAreServedAndAnswered : Obligations.RequestsAreServedAndAnswered := by
  unfold Obligations.RequestsAreServedAndAnswered
  intro k n q r s t hqueue hkind htake
  have h : Taken s k n q t := ⟨hqueue, hkind, htake⟩
  refine ⟨fun _ hat hbase hown => ?_, fun hr => ⟨fun hk hring => exec_served rfl h hk rfl rfl (freeProp_ring hr hring),
      fun hk hring => exec_served rfl h hk rfl rfl (freeProp_unmaps hr hring),
      fun hk => exec_served rfl h hk rfl rfl (hintProp_named hr),
      fun hk htier hallowed hretain => exec_served rfl h hk rfl rfl (pinProp_named hr htier hallowed hretain),
      fun hk => exec_served rfl h hk rfl rfl (unpinProp_named hr),
      fun hk => exec_served rfl h hk rfl rfl (sealProp_named hr),
      fun hk h4 fs => exec_served rfl h hk rfl rfl (unsealProp_named hr h4 fs)⟩,
    fun hk hr ha => exec_served rfl h hk rfl rfl (queryProp_named hr ha), ?_,
    fun p hk hwho hdesc htask => exec_served rfl h hk rfl rfl (doneTask_own p hwho hdesc htask), fun hk => ?_⟩
  · obtain ⟨hfree, hhint, hpin, hunpin, hseal, hunseal⟩ := refused (requestRegion_notOwned hat hbase hown) []
    simp only [List.forall_mem_cons, List.not_mem_nil, false_implies, implies_true, and_true]
    exact ⟨fun hk => exec_served rfl h hk.symm rfl rfl hfree, fun hk => exec_served rfl h hk.symm rfl rfl hhint,
      fun hk => exec_served rfl h hk.symm rfl rfl hpin, fun hk => exec_served rfl h hk.symm rfl rfl hunpin,
      fun hk => exec_served rfl h hk.symm rfl rfl hseal, fun hk => exec_served rfl h hk.symm rfl rfl hunseal⟩
  · rintro base index acl fs tables rfl htrust hal hlo hhi attr0 attr new placed u hpers hfast hroom hframes hfree htables hwant hindex hnoindex hacl
      hnoacl v
    refine ⟨?_, fun hsec => ?_⟩
    · have halloc := allocProp_chosen htrust hal hlo hhi hpers hfast hroom hframes (allocBase_chosen hfree htables hwant)
        (allocIndex_chosen hindex hnoindex) (allocAcl_chosen hacl hnoacl (newMasks q))
      have hserve : serveRequest s false (fun k => k == 1) (fun s q => allocProp s q base index acl fs tables) = v := by
        rw [show false = ((1 : Nat) == 0x10) from rfl, serveRequest_taken h _ rfl, halloc]
        rfl
      show execReqAlloc base index acl fs tables s = _
      rw [execReqAlloc, hserve]
      rfl
    · exact (addPages_regions _ base acl hsec fs).trans (congrArg Stage.regions (alloc_regions tables t))
  · have hq : (k == 0x10) = false := by
      rw [beq_eq_false_iff_ne]
      omega
    have hbad : kindDefined k = false := by
      simp only [kindDefined, hq, Bool.or_false, Bool.and_eq_false_iff, decide_eq_false_iff_not]
      omega
    exact exec_served (f := fun s _ => ({ status := 8 }, s)) rfl h rfl hq.symm (by rw [hbad]; rfl) rfl

end Sys2Proof.StageRequests
end

section
/-! PROOF. The page walk: what the translation of a scene access that misses its TLB leaves (05 R113, R114, R117, R122, 04 R94). -/
namespace Sys2Proof.PageWalk
open Sys2Proof.Machine Sys2Proof.Safety Sys2Proof.Reg

variable {s u : State} {who a : Nat} {write : Bool} {e : Ecc}

/-! ### The command -/

/-- A walk that ends without a translation ends as it is. -/
theorem exec_pageWalk_unmapped (ha : isScene a = true) (h : Machine.translate s who (if write then .write else .read) a true e = (.unmapped, u)) :
    exec (.pageWalk who a write e) s = .next u := by
  show execPageWalk who a write e s = _
  rw [execPageWalk, if_pos ha, h]

/-- 04 R94: however a walk ends, the curtain's record of a violation leaves the stage manager, memory and the cores as they are. -/
theorem leaves_pageWalk (ha : isScene a = true) (h : (Machine.translate s who (if write then .write else .read) a true e).2 = u) :
    Leaves (.pageWalk who a write e) s (fun t => t.stg = u.stg ∧ t.mem = u.mem ∧ t.cores = u.cores) := by
  subst h
  show ∃ t, execPageWalk who a write e s = .next t ∧ _
  rw [execPageWalk, if_pos ha]
  split
  · next v hv =>
    refine ⟨_, rfl, ?_⟩
    rw [hv]
    exact curt_keeps v who _ write
  · next r v hne hv =>
    refine ⟨v, rfl, ?_⟩
    rw [hv]
    exact ⟨rfl, rfl, rfl⟩

/-! ### The translation -/

variable {acc : Acc}

/-- 05 R123: a page that is not marked is not refilled. -/
theorem zeroRefill_unmarked (h : s.stg.zeroFill.contains (a / 4096 * 4096) = false) : zeroRefill s a = s := by
  rw [zeroRefill, h]
  rfl

theorem translate_off (h : s.bit STG.CTRL 0 = false) : Machine.translate s who acc a true e = (.unmapped, setWhere s who a 0 false) := by
  simp only [Machine.translate, h, Bool.not_false, if_true]

/-- The translation that a walk brings into a TLB. -/
def walkedEntry (s : State) (who a : Nat) : TlbEntry :=
  { init := who % 256, page := a / 4096 * 4096, pte := s.pte a, epoch := (s.rd STG.EPOCH).toNat }

/-- 05 R113, log 21: the TLBs with a translation more, for which the oldest of its initiator makes room. -/
def tlbWith (x : TlbEntry) (l : List TlbEntry) : List TlbEntry :=
  (x :: (l.filter (fun t => t.init == x.init)).take (tlbSize x.init - 1)) ++ l.filter (fun t => t.init != x.init)

/-- What a walk that finds its page leaves. -/
def walked (s : State) (who a : Nat) (e : Ecc) : State :=
  setWhere ((setAccessed (walkRead s who a e) a).upStg (fun g => { g with
    tlb := tlbWith (walkedEntry s who a) (setAccessed (walkRead s who a e) a).stg.tlb })) who a (s.pte a) false

/-- The walker's read changes no prop. -/
theorem regionAt_walkRead (s : State) (who a : Nat) (e : Ecc) : regionAt (walkRead s who a e) a = regionAt s a := by
  rw [regionAt, (walkRead_keeps s who a e).1]
  rfl

section Miss
variable (hon : s.bit STG.CTRL 0 = true) (hzero : s.stg.zeroFill.contains (a / 4096 * 4096) = false)
  (hmiss : s.stg.tlb.find? (fun t => t.init == who % 256 && t.page == a / 4096 * 4096) = none)
include hon hzero hmiss

/-- 05 R114: a page that a prop covers and whose entry is valid is walked to. -/
theorem translate_walked (hv : pteBit (s.pte a) 0 = true) (hr : (regionAt s a).isSome = true) :
    (Machine.translate s who acc a true e).2 = walked s who a e := by
  simp only [Machine.translate, hon, Bool.not_true, Bool.false_eq_true, if_false, zeroRefill_unmarked hzero, hmiss, regionAt_walkRead, hv, hr, Bool.true_and,
    if_true, walked, tlbWith, walkedEntry]

/-- 05 R114: any other page is not. -/
theorem translate_unmapped (h : pteBit (s.pte a) 0 = false ∨ regionAt s a = none) :
    Machine.translate s who acc a true e = (.unmapped, setWhere (walkRead s who a e) who a 0 false) := by
  have hno : (pteBit (s.pte a) 0 && (regionAt s a).isSome) = false := by
    rcases h with h | h <;> simp [h]
  simp only [Machine.translate, hon, Bool.not_true, Bool.false_eq_true, if_false, zeroRefill_unmarked hzero, hmiss, regionAt_walkRead, hno]

end Miss

/-! ### What a walk leaves -/

/-- 05 R122: what `STG.WHERE` will tell is all that it keeps. -/
theorem setWhere_kept (s : State) (who a : Nat) (x : BitVec 64) (hit : Bool) : (setWhere s who a x hit).stg.tlb = s.stg.tlb ∧
    (setWhere s who a x hit).regs = s.regs ∧ (setWhere s who a x hit).mem = s.mem ∧ (setWhere s who a x hit).cores = s.cores := ⟨rfl, rfl, rfl, rfl⟩

/-- 05 R117: setting A changes the page's entry alone. -/
theorem setAccessed_facts (s : State) (a : Nat) : (setAccessed s a).stg = s.stg ∧ (setAccessed s a).cores = s.cores ∧
    ∀ p, pteAddr s a = some p → ∀ b, (b < p ∨ p + 8 ≤ b) → (setAccessed s a).byte b = s.byte b := by
  unfold setAccessed
  split
  · next p hp =>
    obtain ⟨hstg, hcores, -⟩ := st_fields s p 8 (pteWith (BitVec.ofNat 64 (s.ld p 8)) 30 30 1).toNat
    refine ⟨hstg, hcores, fun q hq b hb => ?_⟩
    obtain rfl : p = q := Option.some.inj (hp.symm.trans hq)
    exact State.byte_st_out s p 8 _ b hb
  · next hp => exact ⟨rfl, rfl, fun _ _ _ _ => rfl⟩

theorem walked_facts (s : State) (who a : Nat) (e : Ecc) (hv : pteBit (s.pte a) 0 = true) : walkedEntry s who a ∈ (walked s who a e).stg.tlb ∧
    (walked s who a e).stg.whereWords.head? =
      some (who % 256, BitVec.ofNat 32 (pteFld (s.pte a) 14 12 + 8 * ((pteCopy (s.pte a)).map (fun c => c.1)).getD 7 + a / 4096 * 4096)) ∧
    (walked s who a e).cores = s.cores ∧ ∀ p, pteAddr s a = some p → ∀ b, (b < p ∨ p + 8 ≤ b) → (walked s who a e).byte b = s.byte b := by
  obtain ⟨-, hcores, hmem, hregs⟩ := walkRead_keeps s who a e
  obtain ⟨-, hacores, hbyte⟩ := setAccessed_facts (walkRead s who a e) a
  have haddr : pteAddr (walkRead s who a e) a = pteAddr s a := pteAddr_of hmem (hregs _ (by decide) (by decide)) a
  unfold walked
  generalize setAccessed (walkRead s who a e) a = v at hacores hbyte ⊢
  refine ⟨List.mem_append_left _ List.mem_cons_self, ?_, hacores.trans hcores, fun p hp b hb => ?_⟩
  · simp [setWhere, hv, natBit]
  · exact (hbyte p (haddr.trans hp) b hb).trans (core_mem hmem b)

/-- Settles O36: with translation off, and for a page that is not there, no TLB takes an entry; any other walk leaves what `walked` says, and
the curtain keeps that. -/
theorem pageWalkFillsTheTlb : Obligations.PageWalkFillsTheTlb := by
  unfold Obligations.PageWalkFillsTheTlb
  intro who a write e s ha
  refine ⟨fun hoff => ⟨_, exec_pageWalk_unmapped ha (translate_off hoff), setWhere_kept s who a 0 false⟩,
    fun hon hzero hmiss => ⟨fun hv hr => ?_, fun hno => ?_⟩⟩
  · obtain ⟨t, hexec, hstg, hmem, hcores⟩ := leaves_pageWalk (write := write) ha (translate_walked (e := e) hon hzero hmiss hv hr)
    obtain ⟨htlb, hwhere, hkept, hbyte⟩ := walked_facts s who a e hv
    exact ⟨t, hexec, by rw [hstg]; exact htlb, by rw [hstg]; exact hwhere, hcores.trans hkept,
      fun p hp b hb => (core_mem hmem b).trans (hbyte p hp b hb)⟩
  · obtain ⟨hstg, hcores, hmem, -⟩ := walkRead_keeps s who a e
    obtain ⟨htlb, -, hwmem, hwcores⟩ := setWhere_kept (walkRead s who a e) who a 0 false
    exact ⟨_, exec_pageWalk_unmapped ha (translate_unmapped hon hzero hmiss hno), htlb.trans (congrArg Stage.tlb hstg), hwmem.trans hmem,
      hwcores.trans hcores⟩

end Sys2Proof.PageWalk
end

section
/-! PROOF. The registers of a queue: what a write or a read of each does to the queue behind it (05 R132, R133, R135). -/
namespace Sys2Proof.QueueRegisters
open Sys2Proof.Machine Sys2Proof.Safety Sys2Proof.Reg

variable {s u : State} {who : Nat} {q : Fin 128} {v w : Word}

/-! ### PUSH -/

theorem exec_queuePushEnqueue (h : Reaches s who (QUE.QPUSH q) true) : exec (.queuePushEnqueue who q v) s = .next (qPush s q who v) :=
  congrArg Host.Outcome.next (access_write h (regWrite_push q s who v))

/-- 05 R132: a release is a PUSH with bit 31 set. -/
theorem exec_queuePushRelease (h : Reaches s who (QUE.QPUSH q) true) : exec (.queuePushRelease who q v) s = .next (qPush s q who (vSet v 31)) :=
  congrArg Host.Outcome.next (access_write h (regWrite_push q s who _))

/-- 05 R133: a queue that is off, a producer that the mask keeps out, and a word for a larger element that releases nothing. -/
theorem qPush_refused (h : qOn s q = false ∨ (qSize s q = 4 ∧ qAllowed s q who true = false) ∨ (qSize s q ≠ 4 ∧ v.getLsbD 31 = false)) :
    qPush s q who v = qLast s q 2 := by
  rcases h with h | ⟨h4, h⟩ | ⟨h4, h⟩
  · simp [qPush, h]
  · simp [qPush, qEnq, h4, h]
  · have h31 : testB v.toNat 31 = false := by rw [testB_toNat, h]
    simp [qPush, h4, h31]

theorem qPush_admitted (hon : qOn s q = true) (h4 : qSize s q = 4) (ha : qAllowed s q who true = true) :
    qPush s q who v = qLast (qAppend s q who (leBytes 4 v.toNat)).2 q (qAppend s q who (leBytes 4 v.toNat)).1 := by
  simp [qPush, qEnq, hon, h4, ha]

/-- The count of a release is in the low half of the word. -/
theorem vSet_high_mod (v : Word) : (vSet v 31).toNat % 65536 = v.toNat % 65536 := by
  have h : ∀ x : Word, bitsOf x 15 0 = x.toNat % 65536 := fun x => rfl
  rw [← h, ← h, bitsOf_vSet v 31 15 0 (by decide) (by decide)]

theorem qPush_releases (hon : qOn s q = true) (h4 : qSize s q ≠ 4) (ha : qAllowed s q who false = true) :
    qPush s q who (vSet v 31) = qLast (qRelease s q (v.toNat % 65536)) q 0 := by
  have h31 : testB (vSet v 31).toNat 31 = true := by
    rw [testB_vSet _ _ _ (by decide)]
    simp
  simp only [qPush, hon, h4, h31, ha, vSet_high_mod, Bool.not_true, Bool.false_eq_true, if_false, if_true]

/-- 05 R133: a full ring refuses, unless the policy lets its oldest entry go. -/
theorem qAppend_full {bs : List Byte} (hfull : qNoRoom s q = true) (hkeep : s.bit (QUE.QCFG q) 8 = false ∨ qOldestAtTail s q = false) :
    qAppend s q who bs = (1, qDrop s q) := by
  have hno : (s.bit (QUE.QCFG q) 8 && qOldestAtTail s q) = false := by
    rcases hkeep with h | h <;> simp [h]
  simp [qAppend, qStore, hfull, hno]

/-- 05 R133: in a ring with room the element is stored at TAIL and counted. -/
theorem qAppend_room {bs : List Byte} (hroom : qNoRoom s q = false) (hw : engineWrite s queueBlock (qSlot s q (qTail s q)) bs false = (false, u)) :
    qAppend s q who bs = (0,
      let w := qSetTag (u.setFld (QUE.QTAIL q) 13 0 (qAdvance u q (qTail u q) 1)) q (qTail s q) who
      qSetCount w q (qCount w q + 1)) := by
  simp only [qAppend, qStore, hroom, hw, Bool.false_and, Bool.false_eq_true, if_false]

/-- What a refusal leaves: a drop counted, saturating, and LASTCODE. -/
theorem qLast_qDrop_facts (s : State) (q : Fin 128) : (qLast (qDrop s q) q 1).fld (QUE.QSTAT q) 21 20 = 1 ∧
    (qLast (qDrop s q) q 1).fld (QUE.QSTAT q) 31 24 = min (s.fld (QUE.QSTAT q) 31 24 + 1) 255 ∧
    (qLast (qDrop s q) q 1).fld (QUE.QSTAT q) 14 0 = s.fld (QUE.QSTAT q) 14 0 ∧ OnlyRegs s (qLast (qDrop s q) q 1) [QUE.QSTAT q] := by
  obtain ⟨hcode, honly, hrest⟩ := qLast_only (qDrop s q) q 1 (by decide)
  refine ⟨hcode, ?_, ?_, onlyRegs_trans (onlyRegs_setFld s _ _ _ _) honly fun _ h => h⟩
  · rw [hrest _ _ (by decide)]
    exact State.fld_bump_self s _ (by decide) (by decide)
  · rw [hrest _ _ (by decide)]
    exact State.fld_setFld_apart s _ _ (by decide) (by decide) (by decide)

/-! ### POP -/

theorem exec_queuePop (h : Reaches s who (QUE.QPOP q) false) :
    exec (.queuePop who q) s = .next { (qPop s q who).2 with rdata := (qPop s q who).1 } := by
  refine congrArg Host.Outcome.next ((access_read h).trans ?_)
  rw [regRead_pop]

section Consumer
variable (hon : qOn s q = true) (ha : qAllowed s q who false = true)
include hon ha

theorem qPop_empty (h0 : qCount s q = 0) : qPop s q who = (0, qLast s q 1) := by
  simp [qPop, qDeq, hon, ha, h0]

/-- 05 R133: the head of a queue of words is read and handed out. -/
theorem qPop_head (h0 : qCount s q ≠ 0) (h4 : qSize s q = 4) (hr : qRead s q (qHead s q) = (some w, u)) :
    qPop s q who = (w, qLast (qClearPending (qHandOut u q) q w) q 0) := by
  simp [qPop, qDeq, hon, ha, h0, h4, hr]

end Consumer

/-! ### EN and CLR -/

/-- 05 R132: a trusted write of `QnCFG`, while no core waits for the queue to be enabled no more. -/
theorem access_qcfg {t : State} (h : Reaches s who (QUE.QCFG q) true) (ht : s.trusted who = true) (hw : qCfgWrite s q w = t)
    (hcores : t.cores = s.cores) (hidle : ∀ p : Fin 6, (s.core p).stall = none) : s.access who (QUE.QCFG q) (some w) = t := by
  subst hw
  refine access_write h ?_
  have hoff : queueOff (qCfgWrite s q w) q = qCfgWrite s q w := queueOff_idle _ _ fun p => by
    rw [State.core, hcores]
    exact hidle p
  rw [regWrite_qcfg, if_pos ht, hoff]

/-- 05 R132: FULL and WMK change, and nothing else. -/
theorem onlyRegs_qFlags (s : State) (q : Fin 128) {l : List Nat} (h : QUE.QSTAT q ∈ l) : OnlyRegs s (qFlags s q) l :=
  onlyRegs_trans (onlyRegs_wr s h _) (onlyRegs_wr _ h _) fun _ h => h

theorem qFlags_qcfg (s : State) (q : Fin 128) : (qFlags s q).rd (QUE.QCFG q) = s.rd (QUE.QCFG q) :=
  (onlyRegs_qFlags s q (List.mem_singleton.2 rfl)).1 _ (by simp)

theorem qFlags_cfgerr (s : State) (q : Fin 128) : (qFlags s q).bit (QUE.QSTAT q) 19 = s.bit (QUE.QSTAT q) 19 := by
  rw [qFlags, State.bit_setBit_apart _ _ _ (by decide) (by decide), State.bit_setBit_apart _ _ _ (by decide) (by decide)]

theorem qFlags_cores (s : State) (q : Fin 128) : (qFlags s q).cores = s.cores := by
  simp only [qFlags, State.setBit_cores]

theorem upStg_bit (s : State) (f : Stage → Stage) (a i : Nat) : (s.upStg f).bit a i = s.bit a i := rfl

/-- 05 R135: what setting EN leaves of a configuration written with EN 0. -/
theorem qEnable_facts (h : s.bit (QUE.QCFG q) 10 = false) : (qEnable s q w).bit (QUE.QCFG q) 10 = qGeometryOk s q w ∧
    (qEnable s q w).bit (QUE.QSTAT q) 19 = !qGeometryOk s q w ∧ OnlyRegs s (qEnable s q w) [QUE.QCFG q, QUE.QSTAT q] ∧
    (qEnable s q w).cores = s.cores := by
  unfold qEnable
  cases hok : qGeometryOk s q w with
  | true =>
    rw [if_pos rfl, upStg_bit, upStg_bit]
    refine ⟨?_, State.bit_setBit_self _ _ _ (by decide), ?_, ?_⟩
    · rw [State.bit_setBit_ne _ (que_ne q).1, State.bit_setBit_self _ _ _ (by decide)]
    · exact onlyRegs_trans (onlyRegs_trans (onlyRegs_wr s (by simp) _) (onlyRegs_wr _ (by simp) _) fun _ h => h) (onlyRegs_upStg _ _ _) fun _ h => h
    · simp only [State.upStg_cores, State.setBit_cores]
  | false =>
    rw [if_neg Bool.false_ne_true]
    refine ⟨?_, State.bit_setBit_self _ _ _ (by decide), onlyRegs_wr s (by simp) _, ?_⟩
    · rw [State.bit_setBit_ne _ (que_ne q).1, h]
    · simp only [State.setBit_cores]

/-- 05 R135: the state in which a configuration other than the one that stands is written: it needs a CLR. -/
def reshaped (s : State) (q : Fin 128) (w : Word) : State := if s.fld (QUE.QCFG q) 6 0 != bitsOf w 6 0 then qUnclear s q else s

theorem reshaped_kept (s : State) (q : Fin 128) (w : Word) : OnlyRegs s (reshaped s q w) [] ∧ (reshaped s q w).cores = s.cores := by
  unfold reshaped
  split
  · exact ⟨onlyRegs_upStg s _ _, rfl⟩
  · exact ⟨⟨fun _ _ => rfl, fun _ => rfl⟩, rfl⟩

/-- The configuration as it is written: without EN and CLR. -/
def written (s : State) (q : Fin 128) (w : Word) : State := s.wr (QUE.QCFG q) (w &&& BitVec.ofNat 32 0xFFFF017F)

theorem written_off (s : State) (q : Fin 128) (w : Word) : (written s q w).bit (QUE.QCFG q) 10 = false := by
  rw [State.bit, written, State.rd_wr_self, testB_toNat, BitVec.getLsbD_and, show (BitVec.ofNat 32 0xFFFF017F).getLsbD 10 = false from rfl, Bool.and_false]

theorem qCfgWrite_enable (hoff : qOn s q = false) (h11 : v.getLsbD 11 = false) :
    qCfgWrite s q (vSet v 10) = qFlags (qEnable (written (reshaped s q (vSet v 10)) q (vSet v 10)) q (vSet v 10)) q := by
  have hen : testB (vSet v 10).toNat 10 = true := by
    rw [testB_vSet _ _ _ (by decide)]
    simp
  have hclr : testB (vSet v 10).toNat 11 = false := by
    rw [testB_vSet _ _ _ (by decide), testB_toNat, h11]
    rfl
  simp only [qCfgWrite, hoff, hen, hclr, Bool.false_eq_true, if_false, if_true]
  rfl

theorem leaves_queueEnable (h : Reaches s who (QUE.QCFG q) true) (ht : s.trusted who = true) (hoff : qOn s q = false) (h11 : v.getLsbD 11 = false)
    (hidle : ∀ p : Fin 6, (s.core p).stall = none) : Leaves (.queueEnable who q v) s (fun t =>
      t.bit (QUE.QCFG q) 10 = qGeometryOk (written (reshaped s q (vSet v 10)) q (vSet v 10)) q (vSet v 10) ∧
      t.bit (QUE.QSTAT q) 19 = (!t.bit (QUE.QCFG q) 10) ∧ OnlyRegs s t [QUE.QCFG q, QUE.QSTAT q]) := by
  obtain ⟨hkept, hcores⟩ := reshaped_kept s q (vSet v 10)
  obtain ⟨hen, herr, honly, hecores⟩ := qEnable_facts (w := vSet v 10) (written_off (reshaped s q (vSet v 10)) q (vSet v 10))
  set x := qEnable (written (reshaped s q (vSet v 10)) q (vSet v 10)) q (vSet v 10)
  have hfen : (qFlags x q).bit (QUE.QCFG q) 10 = x.bit (QUE.QCFG q) 10 := by rw [State.bit, qFlags_qcfg]; rfl
  refine ⟨_, congrArg Host.Outcome.next (access_qcfg h ht (qCfgWrite_enable hoff h11) ((qFlags_cores x q).trans (hecores.trans hcores)) hidle),
    hfen.trans hen, ?_, ?_⟩
  · rw [qFlags_cfgerr, herr, hfen, hen]
  · exact onlyRegs_trans (onlyRegs_trans (onlyRegs_trans hkept (onlyRegs_wr _ (by simp) _) nofun) honly fun _ h => h)
      (onlyRegs_qFlags x q (by simp)) fun _ h => h

/-- 05 R132, R135: while EN is 1, a write changes WMARK and EN alone. -/
def disabled (s : State) (q : Fin 128) (w : Word) : State := (qFlags (s.setFld (QUE.QCFG q) 31 16 (bitsOf w 31 16)) q).setBit (QUE.QCFG q) 10 false

theorem qCfgWrite_disable (hon : qOn s q = true) : qCfgWrite s q (vClr v 10) = disabled s q (vClr v 10) := by
  have hen : testB (vClr v 10).toNat 10 = false := by
    rw [testB_vClr _ _ _ (by decide)]
    simp
  simp only [qCfgWrite, hon, if_true, hen, disabled]

theorem disabled_facts (s : State) (q : Fin 128) (w : Word) : (disabled s q w).bit (QUE.QCFG q) 10 = false ∧
    (disabled s q w).fld (QUE.QCFG q) 9 0 = s.fld (QUE.QCFG q) 9 0 ∧ (disabled s q w).fld (QUE.QCFG q) 31 16 = w.toNat / 65536 ∧
    (disabled s q w).cores = s.cores ∧ OnlyRegs s (disabled s q w) [QUE.QCFG q, QUE.QSTAT q] := by
  have hflags : ∀ (x : State) (hi lo : Nat), (qFlags x q).fld (QUE.QCFG q) hi lo = x.fld (QUE.QCFG q) hi lo := fun x hi lo => by
    rw [State.fld, qFlags_qcfg]
    rfl
  unfold disabled
  refine ⟨State.bit_setBit_self _ _ _ (by decide), ?_, ?_, ?_, ?_⟩
  · rw [State.fld_setBit_apart _ _ _ (by decide) (by decide), hflags, State.fld_setFld_apart _ _ _ (by decide) (by decide) (by decide)]
  · rw [State.fld_setBit_apart _ _ _ (by decide) (by decide), hflags, State.fld_setFld_self _ _ _ (by decide) (by decide),
      Nat.mod_eq_of_lt (bitsOf_lt _ _ _), bitsOf, Nat.shiftRight_eq_div_pow]
    exact Nat.mod_eq_of_lt (by have := w.isLt; omega)
  · rw [State.setBit_cores, qFlags_cores, State.setFld_cores]
  · exact onlyRegs_trans (onlyRegs_trans (onlyRegs_wr s (by simp) _) (onlyRegs_qFlags _ q (by simp)) fun _ h => h) (onlyRegs_wr _ (by simp) _) fun _ h => h

/-- `QnCFG.WMARK` is above the bit that a disable clears. -/
theorem vClr_high (v : Word) : (vClr v 10).toNat / 65536 = v.toNat / 65536 := by
  have h : ∀ x : Word, bitsOf x 31 16 = x.toNat / 65536 := fun x => by
    rw [bitsOf, Nat.shiftRight_eq_div_pow]
    exact Nat.mod_eq_of_lt (by have := x.isLt; omega)
  rw [← h, ← h, bitsOf_vClr v 10 31 16 (by decide) (by decide)]

/-- 05 R132: CLR in the word that a disabled queue is configured with. -/
theorem qCfgWrite_clear (hoff : qOn s q = false) : qCfgWrite s q (vClr (vSet v 11) 10) =
    qFlags (written (qClear (reshaped s q (vClr (vSet v 11) 10)) q) q (vClr (vSet v 11) 10)) q := by
  have hen : testB (vClr (vSet v 11) 10).toNat 10 = false := by
    rw [testB_vClr _ _ _ (by decide)]
    simp
  have hclr : testB (vClr (vSet v 11) 10).toNat 11 = true := by
    rw [testB_vClr _ _ _ (by decide), testB_vSet _ _ _ (by decide)]
    simp
  simp only [qCfgWrite, hoff, hen, hclr, Bool.false_eq_true, if_false, if_true]
  rfl

/-! ### CLRD -/

theorem exec_queueClearDrops (h : Reaches s who (QUE.QSTAT q) true) (hm : qMayClear s q who = true) :
    exec (.queueClearDrops who q v) s = .next (s.setFld (QUE.QSTAT q) 31 24 0) := by
  have h23 : testB (vSet v 23).toNat 23 = true := by
    rw [testB_vSet _ _ _ (by decide)]
    simp
  refine congrArg Host.Outcome.next (access_write h ?_)
  rw [regWrite_qstat, if_pos ⟨h23, hm⟩]

/-- Settles O39: each write or read by what it does to the queue, `qPush`, `qPop` and `qCfgWrite` case by case. -/
theorem queueRegistersOperateQueues : Obligations.QueueRegistersOperateQueues := by
  unfold Obligations.QueueRegistersOperateQueues
  intro who q v s
  refine ⟨fun hreach => ⟨fun href => ?_, fun hon h4 ha => ⟨?_, fun hfull hkeep => ?_, fun u hroom hw => ?_⟩, fun hon h4 ha => ?_⟩,
    fun hreach hon ha => ⟨fun h0 => ?_, fun w u h0 h4 hr => ?_⟩, fun hreach ht => ⟨fun hoff h11 hidle => ?_, fun hon hidle => ?_, fun hoff => ?_⟩,
    fun hreach hm => ?_⟩
  · obtain ⟨hcode, honly, hrest⟩ := qLast_only s q 2 (by decide)
    refine ⟨_, ?_, hcode, hrest 14 0 (by decide), honly⟩
    rw [exec_queuePushEnqueue hreach, qPush_refused href]
  · rw [exec_queuePushEnqueue hreach, qPush_admitted hon h4 ha]
  · refine ⟨_, ?_, qLast_qDrop_facts s q⟩
    rw [exec_queuePushEnqueue hreach, qPush_admitted hon h4 ha, qAppend_full hfull hkeep]
  · rw [exec_queuePushEnqueue hreach, qPush_admitted hon h4 ha, qAppend_room hroom hw]
  · rw [exec_queuePushRelease hreach, qPush_releases hon h4 ha]
  · obtain ⟨hcode, honly, -⟩ := qLast_only s q 1 (by decide)
    refine ⟨{ qLast s q 1 with rdata := 0 }, ?_, rfl, hcode, honly⟩
    rw [exec_queuePop hreach, qPop_empty hon ha h0]
  · rw [exec_queuePop hreach, qPop_head hon ha h0 h4 hr]
  · exact leaves_queueEnable hreach ht hoff h11 hidle
  · obtain ⟨hen, hlow, hhigh, hcores, honly⟩ := disabled_facts s q (vClr v 10)
    exact ⟨_, congrArg Host.Outcome.next (access_qcfg hreach ht (qCfgWrite_disable hon) hcores hidle), hen, hlow,
      hhigh.trans (vClr_high v), hcores, honly⟩
  · intro u hcores hidle
    exact congrArg Host.Outcome.next (access_qcfg hreach ht (qCfgWrite_clear hoff) ((qFlags_cores _ q).trans hcores) hidle)
  · refine ⟨_, exec_queueClearDrops hreach hm, ?_, ?_, onlyRegs_setFld s _ _ _ _⟩
    · exact State.fld_setFld_self s _ 0 (by decide) (by decide)
    · exact State.fld_setFld_apart s _ 0 (by decide) (by decide) (by decide)

end Sys2Proof.QueueRegisters
end

section
/-! PROOF. The DRAM controller at work: training, the set point, channel 1, refreshes and the mapping (06 R147 to R156, R161). -/
namespace Sys2Proof.DramControl
open Sys2Proof.Machine Sys2Proof.Safety Sys2Proof.Reg

variable {s t : State} {who : Nat} {v w : Word}

/-! ### Registers after several writes -/

/-- What a bit of a register reads as after each kind of update, for updates that are written one upon another. -/
theorem bit_after (s : State) : (∀ a i c, i < 32 → (s.setBit a i c).bit a i = c) ∧
    (∀ a i j c, i < 32 → j ≠ i → (s.setBit a i c).bit a j = s.bit a j) ∧
    (∀ a b i j c, b ≠ a → (s.setBit a i c).bit b j = s.bit b j) ∧
    (∀ a b hi lo x j, b ≠ a → (s.setFld a hi lo x).bit b j = s.bit b j) ∧
    (∀ a b v j, b ≠ a → (s.wr a v).bit b j = s.bit b j) ∧ ∀ f b j, (s.upDram f).bit b j = s.bit b j :=
  ⟨fun a _ c h => State.bit_setBit_self s a c h, fun a _ _ c h hd => State.bit_setBit_apart s a c h hd,
    fun _ _ i j c h => State.bit_setBit_ne s h i j c, fun _ _ hi lo x j h => State.bit_setFld_ne s h hi lo x j,
    fun _ _ v j h => State.bit_wr_ne s h v j, upDram_bit s⟩

/-- What a field reads as after each kind of update. -/
theorem fld_after (s : State) : (∀ a hi lo x, hi < 32 → lo ≤ hi → (s.setFld a hi lo x).fld a hi lo = x % 2 ^ (hi + 1 - lo)) ∧
    (∀ a hi lo hi' lo' x, hi < 32 → lo ≤ hi → hi' < lo ∨ hi < lo' → (s.setFld a hi lo x).fld a hi' lo' = s.fld a hi' lo') ∧
    (∀ a b hi lo hi' lo' x, b ≠ a → (s.setFld a hi lo x).fld b hi' lo' = s.fld b hi' lo') ∧
    (∀ a i hi' lo' c, i < 32 → hi' < i ∨ i < lo' → (s.setBit a i c).fld a hi' lo' = s.fld a hi' lo') ∧
    (∀ a b i hi' lo' c, b ≠ a → (s.setBit a i c).fld b hi' lo' = s.fld b hi' lo') ∧
    (∀ a b hi' lo' v, b ≠ a → (s.wr a v).fld b hi' lo' = s.fld b hi' lo') ∧ ∀ f b hi' lo', (s.upDram f).fld b hi' lo' = s.fld b hi' lo' :=
  ⟨fun a _ _ x h hl => State.fld_setFld_self s a x h hl, fun a _ _ _ _ x h hl hd => State.fld_setFld_apart s a x h hl hd,
    fun _ _ hi lo hi' lo' x h => State.fld_setFld_ne s h hi lo x hi' lo', fun a _ _ _ c h hd => State.fld_setBit_apart s a c h hd,
    fun _ _ i hi' lo' c h => State.fld_setBit_ne s h i c hi' lo', fun _ _ hi' lo' v h => State.fld_wr_ne s h v hi' lo', upDram_fld s⟩

/-- A write of a register, or of a field or bit of one, that may change. -/
theorem onlyRegs_then {l : List Nat} {a : Nat} (h : OnlyRegs s t l) (ha : a ∈ l) (v : Word) : OnlyRegs s (t.wr a v) l :=
  onlyRegs_trans h (onlyRegs_wr t ha v) fun _ hb => hb

theorem onlyRegs_refl (s : State) (l : List Nat) : OnlyRegs s s l := ⟨fun _ _ => rfl, fun _ => rfl⟩

theorem onlyRegs_upDram {l : List Nat} (h : OnlyRegs s t l) (f : Dram → Dram) : OnlyRegs s (t.upDram f) l := h

/-! ### Training and the background fill -/

/-- 06 R147: the state that the end of training leaves. -/
def trained (s : State) (f : Fin 6) : State :=
  let u := ((s.setBit DMC.STATUS 1 false).setFld DMC.TRAIN 3 0 f.val).setBit DMC.STATUS 8 (f.val != 0)
  let u := (u.upDram (fun d => { d with valid := [], badChk := [], release := 0, trainAll := false })).setBit DMC.STATUS 0 (f.val == 0)
  (((u.setFld DMC.FREEZE 31 0 0).setBit DMC.STATUS 2 false).setBit DMC.STATUS 4 (f.val == 0)).wr DMC.FILLPTR 0

theorem leaves_dramTrainingDone (f : Fin 6) (hon : s.dom Dom.dramsys = .on) (htrain : s.dram.trainAll = true) :
    Leaves (.dramTrainingDone f) s (fun t => t.fld DMC.TRAIN 3 0 = f.val ∧ t.bit DMC.STATUS 0 = (f.val == 0) ∧
      t.bit DMC.STATUS 8 = (f.val != 0) ∧ t.bit DMC.STATUS 1 = false ∧ t.bit DMC.STATUS 4 = (f.val == 0) ∧ t.dram.valid = [] ∧
      t.rd DMC.FILLPTR = 0 ∧ OnlyRegs s t [DMC.TRAIN, DMC.STATUS, DMC.FREEZE, DMC.FILLPTR]) := by
  have hexec : exec (.dramTrainingDone f) s = .next (trained s f) := if_pos ⟨hon, htrain⟩
  have hfield : (trained s f).fld DMC.TRAIN 3 0 = f.val := by
    simp (disch := decide) only [trained, fld_after]
    omega
  have hbits : (trained s f).bit DMC.STATUS 0 = (f.val == 0) ∧ (trained s f).bit DMC.STATUS 8 = (f.val != 0) ∧
      (trained s f).bit DMC.STATUS 1 = false ∧ (trained s f).bit DMC.STATUS 4 = (f.val == 0) := by
    simp (disch := decide) only [trained, bit_after, and_self]
  obtain ⟨hready, hfail, hbusy, hfilling⟩ := hbits
  refine ⟨_, hexec, hfield, hready, hfail, hbusy, hfilling, rfl, State.rd_wr_self _ _ _, ?_⟩
  iterate 5 refine onlyRegs_then ?_ (by simp) _
  refine onlyRegs_upDram ?_ _
  iterate 3 refine onlyRegs_then ?_ (by simp) _
  exact onlyRegs_refl s _

/-- 06 R148: the filler's frame, valid. -/
theorem leaves_dramBackgroundFill (hfilling : s.bit DMC.STATUS 4 = true) (hready : s.bit DMC.STATUS 0 = true)
    (hfrozen : s.bit DMC.FREEZE 0 = false) (hon : s.dom Dom.dramsys = .on) :
    let f := s.fld DMC.FILLPTR 14 0
    (f + 1 < framesPowered s → Leaves .dramBackgroundFill s (fun t => t.dram.valid.contains f = true ∧
      t.fld DMC.FILLPTR 14 0 = f + 1 ∧ t.bit DMC.STATUS 4 = true)) ∧
    (framesPowered s ≤ f + 1 → Leaves .dramBackgroundFill s (fun t => t.dram.valid.contains f = true ∧ t.bit DMC.STATUS 4 = false)) := by
  intro f
  obtain ⟨hregs, hvalid⟩ := validate_regs s f
  obtain ⟨-, hbit, hfld⟩ := filled_regs hregs
  have hframes : framesPowered (dramValidate s f) = framesPowered s := by simp only [framesPowered, hbit, hfld]
  have hexec : exec .dramBackgroundFill s = if f + 1 < framesPowered s then .next ((dramValidate s f).setFld DMC.FILLPTR 14 0 (f + 1))
      else .next (((dramValidate s f).setFld DMC.FILLPTR 14 0 0).setBit DMC.STATUS 4 false) := by
    rw [← hframes]
    exact if_pos ⟨hfilling, hready, by simp [hfrozen], hon⟩
  have hpowered : framesPowered s ≤ 28672 := by
    unfold framesPowered
    split <;> decide
  refine ⟨fun hmore => ⟨_, hexec.trans (if_pos hmore), hvalid, ?_, ?_⟩, fun hlast => ⟨_, hexec.trans (if_neg (by omega)), hvalid, ?_⟩⟩
  · rw [State.fld_setFld_self _ _ _ (by decide) (by decide)]
    omega
  · rw [State.bit_setFld_ne _ (by decide), hbit, hfilling]
  · exact State.bit_setBit_self _ _ _ (by decide)

/-- 06 R149: a drift that is read. -/
theorem leaves_dqsOscRead (d : BitVec 16) :
    Leaves (.dqsOscRead d) s (fun t => t.fld DMC.TRAIN 31 16 = d.toNat ∧ OnlyRegs s t [DMC.TRAIN]) :=
  ⟨_, rfl, (State.fld_setFld_self s _ _ (by decide) (by decide)).trans (Nat.mod_eq_of_lt d.isLt), onlyRegs_setFld s _ _ _ _⟩

/-! ### A write of `DMC.CTRL` -/

/-- 06 R150: a write of the set point: another one than before starts a switch, unless the controller runs at it. -/
def setPoint (s : State) (on : Bool) : State :=
  if on != s.bit DMC.CTRL 1 then (s.setBit DMC.CTRL 1 on).setBit DMC.STATUS 6 (s.bit DMC.STATUS 6 || (on != s.dram.speed)) else s

theorem setPoint_facts (s : State) (on : Bool) : (setPoint s on).bit DMC.CTRL 1 = on ∧
    (setPoint s on).bit DMC.STATUS 6 = (s.bit DMC.STATUS 6 || (on != s.bit DMC.CTRL 1 && on != s.dram.speed)) ∧
    (∀ i, i ≠ 1 → (setPoint s on).bit DMC.CTRL i = s.bit DMC.CTRL i) ∧ (∀ i, i ≠ 6 → (setPoint s on).bit DMC.STATUS i = s.bit DMC.STATUS i) ∧
    (setPoint s on).dram = s.dram ∧ OnlyRegs s (setPoint s on) [DMC.CTRL, DMC.STATUS] := by
  unfold setPoint
  by_cases h : on = s.bit DMC.CTRL 1
  · rw [if_neg (by simp [h])]
    exact ⟨h.symm, by simp [h], fun _ _ => rfl, fun _ _ => rfl, rfl, onlyRegs_refl s _⟩
  · have hne : (on != s.bit DMC.CTRL 1) = true := bne_iff_ne.2 h
    rw [if_pos hne, hne, Bool.true_and]
    refine ⟨?_, ?_, fun i hi => ?_, fun i hi => ?_, rfl, onlyRegs_then (onlyRegs_then (onlyRegs_refl s _) (by simp) _) (by simp) _⟩
    · rw [State.bit_setBit_ne _ (by decide), State.bit_setBit_self _ _ _ (by decide)]
    · exact State.bit_setBit_self _ _ _ (by decide)
    · rw [State.bit_setBit_ne _ (by decide), State.bit_setBit_apart _ _ _ (by decide) hi]
    · rw [State.bit_setBit_apart _ _ _ (by decide) hi, State.bit_setBit_ne _ (by decide)]

/-- 06 R156: CH1OFF of a write is refused: channels interleave. -/
def ch1Refused (s : State) (off : Bool) : Bool := off && s.fld DMC.ADDRMAP 3 0 != 0

/-- 06 R156: the state in which channel 1 takes the write: CH1OFF as written, CFGERR 0. -/
def ch1Taken (s : State) (off : Bool) : State := (s.setBit DMC.CTRL 2 off).setBit DMC.STATUS 7 false

/-- 06 R156: the four ends of a write of CH1OFF: refused, channel 1 down, back up with a retrain and a fill, or still up. -/
theorem ch1Write_eq (s : State) (off : Bool) : ch1Write s off =
    if ch1Refused s off then s.setBit DMC.STATUS 7 true
    else if off then (ch1Taken s off).upDram (fun d => { d with valid := d.valid.filter (fun f => decide (f < 14336)) })
    else if s.bit DMC.CTRL 2 then fillAgain ((ch1Taken s off).setBit DMC.STATUS 1 true) else ch1Taken s off := by
  simp [ch1Write, ch1Refused, ch1Taken]

/-- 06 R156: what a write of CH1OFF leaves of CTRL and STATUS. -/
theorem ch1Write_bits (s : State) (off : Bool) :
    (ch1Write s off).bit DMC.CTRL 0 = s.bit DMC.CTRL 0 ∧ (ch1Write s off).bit DMC.CTRL 1 = s.bit DMC.CTRL 1 ∧
    (ch1Write s off).bit DMC.CTRL 2 = (if ch1Refused s off then s.bit DMC.CTRL 2 else off) ∧
    (ch1Write s off).bit DMC.STATUS 7 = ch1Refused s off ∧ (ch1Write s off).bit DMC.STATUS 6 = s.bit DMC.STATUS 6 ∧
    (ch1Write s off).bit DMC.STATUS 1 = (s.bit DMC.STATUS 1 || (s.bit DMC.CTRL 2 && !off)) ∧
    (ch1Write s off).bit DMC.STATUS 4 = (s.bit DMC.STATUS 4 || (s.bit DMC.CTRL 2 && !off)) := by
  rw [ch1Write_eq]
  cases hr : ch1Refused s off with
  | true =>
    have hoff : off = true := (Bool.and_eq_true_iff.1 hr).1
    simp (disch := decide) [bit_after, hoff]
  | false =>
    cases off with
    | true => simp (disch := decide) [bit_after, ch1Taken]
    | false => cases hwas : s.bit DMC.CTRL 2 <;> simp (disch := decide) [bit_after, ch1Taken, fillAgain]

/-- 06 R156: channel 1 that goes down forgets its frames. -/
theorem ch1Write_dram (s : State) (off : Bool) : (ch1Write s off).dram.speed = s.dram.speed ∧ (ch1Write s off).dram.valid =
    if off && s.fld DMC.ADDRMAP 3 0 == 0 then s.dram.valid.filter (fun f => decide (f < 14336)) else s.dram.valid := by
  rw [ch1Write_eq]
  cases hr : ch1Refused s off with
  | true =>
    obtain ⟨rfl, hmap⟩ : off = true ∧ s.fld DMC.ADDRMAP 3 0 ≠ 0 := by simpa [ch1Refused] using hr
    simp [hmap]
  | false =>
    cases off with
    | true =>
      have hmap : s.fld DMC.ADDRMAP 3 0 = 0 := by simpa [ch1Refused] using hr
      simp [ch1Taken, hmap]
    | false => cases hwas : s.bit DMC.CTRL 2 <;> exact ⟨rfl, rfl⟩

theorem onlyRegs_ch1Write (s : State) (off : Bool) : OnlyRegs s (ch1Write s off) [DMC.CTRL, DMC.STATUS, DMC.FILLPTR] := by
  have hs := onlyRegs_refl s [DMC.CTRL, DMC.STATUS, DMC.FILLPTR]
  have htaken : OnlyRegs s (ch1Taken s off) [DMC.CTRL, DMC.STATUS, DMC.FILLPTR] := onlyRegs_then (onlyRegs_then hs (by simp) _) (by simp) _
  rw [ch1Write_eq]
  split
  · exact onlyRegs_then hs (by simp) _
  · split
    · exact htaken
    · split
      · exact onlyRegs_then (onlyRegs_then (onlyRegs_then htaken (by simp) _) (by simp) _) (by simp) _
      · exact htaken

/-- A write of `DMC.CTRL` up to its bit RETRAIN. -/
def ctrlSet (s : State) (w : Word) : State := ch1Write (setPoint (s.setBit DMC.CTRL 0 (w.getLsbD 0)) (w.getLsbD 1)) (w.getLsbD 2)

/-- 06 R150: whether a write of CTRL starts a retrain: asked for while the controller is frozen or disabled (log 93). -/
def retrains (s : State) (w : Word) : Bool := w.getLsbD 3 && (s.bit DMC.FREEZE 0 || !s.bit DMC.CTRL 0)

theorem dmcCtrlWrite_eq (s : State) (w : Word) :
    dmcCtrlWrite s w = (ctrlSet s w).when (retrains (ctrlSet s w) w) (fun u => u.setBit DMC.STATUS 1 true) := by
  simp only [dmcCtrlWrite, ctrlSet, setPoint, retrains, testB_toNat]

/-- 06 R150, R156: what a write of `DMC.CTRL` leaves of the controller. -/
def CtrlWritten (s : State) (w : Word) (t : State) : Prop :=
  let refused := w.getLsbD 2 && s.fld DMC.ADDRMAP 3 0 != 0
  t.bit DMC.CTRL 0 = w.getLsbD 0 ∧ t.bit DMC.CTRL 1 = w.getLsbD 1 ∧ t.bit DMC.CTRL 2 = (if refused then s.bit DMC.CTRL 2 else w.getLsbD 2) ∧
  t.bit DMC.STATUS 6 = (s.bit DMC.STATUS 6 || (w.getLsbD 1 != s.bit DMC.CTRL 1 && w.getLsbD 1 != s.dram.speed)) ∧ t.bit DMC.STATUS 7 = refused ∧
  (w.getLsbD 0 = s.bit DMC.CTRL 0 → t.bit DMC.STATUS 1 =
    (s.bit DMC.STATUS 1 || (s.bit DMC.CTRL 2 && !w.getLsbD 2) || (w.getLsbD 3 && (s.bit DMC.FREEZE 0 || !s.bit DMC.CTRL 0)))) ∧
  t.bit DMC.STATUS 4 = (s.bit DMC.STATUS 4 || (s.bit DMC.CTRL 2 && !w.getLsbD 2)) ∧ t.dram.speed = s.dram.speed ∧
  t.dram.valid = (if w.getLsbD 2 && s.fld DMC.ADDRMAP 3 0 == 0 then s.dram.valid.filter (fun f => decide (f < 14336)) else s.dram.valid) ∧
  OnlyRegs s t [DMC.CTRL, DMC.STATUS, DMC.FILLPTR]

theorem fld_of_onlyRegs {l : List Nat} {a : Nat} (h : OnlyRegs s t l) (ha : a ∉ l) (hi lo : Nat) : t.fld a hi lo = s.fld a hi lo :=
  congrArg (bitsOf · hi lo) (h.1 a ha)

theorem bit_of_onlyRegs {l : List Nat} {a : Nat} (h : OnlyRegs s t l) (ha : a ∉ l) (i : Nat) : t.bit a i = s.bit a i :=
  congrArg (fun x : Word => testB x.toNat i) (h.1 a ha)

/-- The write of EN and of the set point, before that of CH1OFF. -/
theorem enabled_facts (s : State) (w : Word) : let u := setPoint (s.setBit DMC.CTRL 0 (w.getLsbD 0)) (w.getLsbD 1)
    u.bit DMC.CTRL 0 = w.getLsbD 0 ∧ u.bit DMC.CTRL 1 = w.getLsbD 1 ∧ u.bit DMC.CTRL 2 = s.bit DMC.CTRL 2 ∧
    u.bit DMC.STATUS 6 = (s.bit DMC.STATUS 6 || (w.getLsbD 1 != s.bit DMC.CTRL 1 && w.getLsbD 1 != s.dram.speed)) ∧
    (∀ i, i ≠ 6 → u.bit DMC.STATUS i = s.bit DMC.STATUS i) ∧ u.dram = s.dram ∧ OnlyRegs s u [DMC.CTRL, DMC.STATUS] := by
  obtain ⟨hpoint, hswitch, hctrl, hstatus, hdram, honly⟩ := setPoint_facts (s.setBit DMC.CTRL 0 (w.getLsbD 0)) (w.getLsbD 1)
  refine ⟨?_, hpoint, ?_, ?_, fun i hi => ?_, hdram, onlyRegs_trans (onlyRegs_wr s (by simp) _) honly fun _ h => h⟩
  · rw [hctrl 0 (by decide), State.bit_setBit_self _ _ _ (by decide)]
  · rw [hctrl 2 (by decide), State.bit_setBit_apart _ _ _ (by decide) (by decide)]
  · rw [hswitch, State.bit_setBit_ne _ (by decide), State.bit_setBit_apart _ _ _ (by decide) (by decide)]
    rfl
  · rw [hstatus i hi, State.bit_setBit_ne _ (by decide)]

/-- 06 R150: what a write of CTRL leaves where it starts a retrain, and where it does not. -/
theorem startRetrain_facts (s : State) (c : Bool) : let t := s.when c (fun u => u.setBit DMC.STATUS 1 true)
    (∀ i, t.bit DMC.CTRL i = s.bit DMC.CTRL i) ∧ t.bit DMC.STATUS 1 = (s.bit DMC.STATUS 1 || c) ∧
    (∀ i, i ≠ 1 → t.bit DMC.STATUS i = s.bit DMC.STATUS i) ∧ t.dram = s.dram ∧ OnlyRegs s t [DMC.CTRL, DMC.STATUS, DMC.FILLPTR] := by
  cases c with
  | false => exact ⟨fun _ => rfl, (Bool.or_false _).symm, fun _ _ => rfl, rfl, onlyRegs_refl s _⟩
  | true =>
    exact ⟨fun _ => State.bit_setBit_ne s (by decide) _ _ _, (State.bit_setBit_self s _ _ (by decide)).trans (Bool.or_true _).symm,
      fun _ hi => State.bit_setBit_apart s _ _ (by decide) hi, rfl, onlyRegs_wr s (by simp) _⟩

theorem ctrlWritten_dmcCtrlWrite (s : State) (w : Word) : CtrlWritten s w (dmcCtrlWrite s w) := by
  obtain ⟨hen, hpoint, hoff, hswitch, hstatus, hdram, honly⟩ := enabled_facts s w
  set u := setPoint (s.setBit DMC.CTRL 0 (w.getLsbD 0)) (w.getLsbD 1)
  obtain ⟨hen', hpoint', hoff', herr', hswitch', htrain', hfill'⟩ := ch1Write_bits u (w.getLsbD 2)
  obtain ⟨hspeed', hvalid'⟩ := ch1Write_dram u (w.getLsbD 2)
  have honly' := onlyRegs_trans honly (onlyRegs_ch1Write u (w.getLsbD 2)) (by simp)
  set x := ch1Write u (w.getLsbD 2)
  obtain ⟨hctrl, htrain, hrest, hkept, hretrain⟩ := startRetrain_facts x (retrains x w)
  have hmap : u.fld DMC.ADDRMAP 3 0 = s.fld DMC.ADDRMAP 3 0 := fld_of_onlyRegs honly (by decide) _ _
  have hrefused : ch1Refused u (w.getLsbD 2) = (w.getLsbD 2 && s.fld DMC.ADDRMAP 3 0 != 0) := by rw [ch1Refused, hmap]
  rw [hrefused] at hoff' herr'
  have hset : ctrlSet s w = x := rfl
  rw [dmcCtrlWrite_eq, hset]
  refine ⟨?_, ?_, ?_, ?_, ?_, fun h => ?_, ?_, ?_, ?_, onlyRegs_trans honly' hretrain fun _ hb => hb⟩
  · exact (hctrl 0).trans (hen'.trans hen)
  · exact (hctrl 1).trans (hpoint'.trans hpoint)
  · exact (hctrl 2).trans (hoff'.trans (by rw [hoff]))
  · exact (hrest 6 (by decide)).trans (hswitch'.trans hswitch)
  · exact (hrest 7 (by decide)).trans herr'
  · have hstart : retrains x w = (w.getLsbD 3 && (s.bit DMC.FREEZE 0 || !s.bit DMC.CTRL 0)) := by
      rw [retrains, bit_of_onlyRegs honly' (by decide), hen', hen, h]
    exact htrain.trans (by rw [htrain', hstatus 1 (by decide), hoff, hstart])
  · exact (hrest 4 (by decide)).trans (hfill'.trans (by rw [hstatus 4 (by decide), hoff]))
  · exact (congrArg Dram.speed hkept).trans (hspeed'.trans (by rw [hdram]))
  · exact (congrArg Dram.valid hkept).trans (hvalid'.trans (by rw [hdram, hmap]))

theorem leaves_ctrlWrite {i : Instr} (h : Reaches s who DMC.CTRL true) (hi : exec i s = .next (s.access who DMC.CTRL (some w))) :
    Leaves i s (CtrlWritten s w) :=
  ⟨_, hi.trans (congrArg Host.Outcome.next (access_write h rfl)), ctrlWritten_dmcCtrlWrite s w⟩

/-- 06 R150: a switch that no migration holds up ends. -/
theorem leaves_dramSpeedSwitchDone (hswitch : s.bit DMC.STATUS 6 = true) (hfinal : ∀ c : Fin 2, migState s c ≠ 3) :
    Leaves .dramSpeedSwitchDone s (fun t => t.dram.speed = (!s.dram.speed) ∧ t.bit DMC.STATUS 6 = (s.bit DMC.CTRL 1 != !s.dram.speed) ∧
      OnlyRegs s t [DMC.STATUS]) := by
  have hnone : (List.finRange 2).any (fun c => migState s c == 3 && (s.stg.mig[c].tier == 3 || targetOf s.stg.mig[c].src == .dram)) = false := by
    simp [hfinal]
  exact ⟨_, if_pos ⟨hswitch, hnone⟩, rfl, State.bit_setBit_self _ _ _ (by decide), onlyRegs_wr s (by simp) _⟩

/-- 06 R150, R156: a retrain ends. -/
theorem leaves_dramRetrainDone (f : Fin 6) (hbusy : s.bit DMC.STATUS 1 = true) (htrain : s.dram.trainAll = false) :
    Leaves (.dramRetrainDone f) s (fun t => t.bit DMC.STATUS 1 = false ∧ t.fld DMC.TRAIN 3 0 = f.val ∧ t.bit DMC.STATUS 8 = (f.val != 0) ∧
      t.dram = s.dram ∧ OnlyRegs s t [DMC.TRAIN, DMC.STATUS]) := by
  refine ⟨_, if_pos ⟨hbusy, by simp [htrain]⟩, ?_, ?_, State.bit_setBit_self _ _ _ (by decide), rfl, ?_⟩
  · simp (disch := decide) only [bit_after]
  · simp (disch := decide) only [fld_after]
    omega
  · iterate 3 refine onlyRegs_then ?_ (by simp) _
    exact onlyRegs_refl s _

/-! ### Refreshes -/

theorem closeRows_credit (s : State) (n : Nat) (c : Fin 2) : refreshCredit (dramCloseRows s n) c = refreshCredit s c := rfl

/-- The count of refresh bursts lies apart from the credits. -/
theorem refreshCredit_bump (s : State) (c : Fin 2) : refreshCredit (s.bump DMC.REFSTAT 31 16 1) c = refreshCredit s c :=
  congrArg (sint 5) (State.fld_setFld_apart s _ _ (by decide) (by decide) (by omega))

theorem burstCount_setRefreshCredit (s : State) (c : Fin 2) (d : Int) : (setRefreshCredit s c d).fld DMC.REFSTAT 31 16 = s.fld DMC.REFSTAT 31 16 :=
  State.fld_setFld_apart s _ _ (by omega) (by omega) (by omega)

theorem onlyRegs_setRefreshCredit (s : State) (c : Fin 2) (d : Int) : OnlyRegs s (setRefreshCredit s c d) [DMC.REFSTAT] := onlyRegs_setFld s _ _ _ _

/-- 06 R153: what a refresh that falls due does. -/
theorem exec_refreshDue (c : Fin 2) (idle : Bool) (hon : s.dom Dom.dramsys = .on) : exec (.refreshDue c idle) s =
    let d := clampI (-8) 8 (refreshCredit s c - 1)
    if d = -8 then .next ((dramCloseRows (setRefreshCredit s c 0) c.val).bump DMC.REFSTAT 31 16 1)
    else if d < 0 ∧ (¬ s.bit DMC.REFCFG 0 ∨ idle) then .next (dramCloseRows (setRefreshCredit s c (d + 1)) c.val)
    else .next (setRefreshCredit s c d) := if_neg (not_not_intro hon)

/-- 06 R153: D at −8: a burst. -/
theorem leaves_refreshBurst (c : Fin 2) (idle : Bool) (hon : s.dom Dom.dramsys = .on) (hd : refreshCredit s c ≤ -7) :
    Leaves (.refreshDue c idle) s (fun t => refreshCredit t c = 0 ∧ t.fld DMC.REFSTAT 31 16 = min (s.fld DMC.REFSTAT 31 16 + 1) 0xFFFF ∧
      t.dram.rows = s.dram.rows.filter (fun r => r.1 / 8 != c.val) ∧ OnlyRegs s t [DMC.REFSTAT]) := by
  have hburst : clampI (-8) 8 (refreshCredit s c - 1) = -8 := by unfold clampI; split <;> omega
  refine ⟨_, (exec_refreshDue c idle hon).trans (if_pos hburst), ?_, ?_, rfl, onlyRegs_then (onlyRegs_setRefreshCredit s c 0) (by simp) _⟩
  · rw [refreshCredit_bump, closeRows_credit, setRefresh_self s c (by decide) (by decide)]
  · rw [State.fld_bump_self _ _ (by decide) (by decide)]
    exact congrArg (fun n => min (n + 1) 0xFFFF) (burstCount_setRefreshCredit s c 0)

/-- 06 R153: between its bounds D follows by one. -/
theorem clampI_due {d : Int} (h1 : -7 < d) (h2 : d ≤ 8) : clampI (-8) 8 (d - 1) = d - 1 := by unfold clampI; split <;> omega

theorem leaves_refreshAtOnce (c : Fin 2) (idle : Bool) (hon : s.dom Dom.dramsys = .on) (h1 : -7 < refreshCredit s c) (h2 : refreshCredit s c ≤ 0)
    (hnow : s.bit DMC.REFCFG 0 = false ∨ idle = true) : Leaves (.refreshDue c idle) s (fun t => refreshCredit t c = refreshCredit s c ∧
      t.dram.rows = s.dram.rows.filter (fun r => r.1 / 8 != c.val) ∧ OnlyRegs s t [DMC.REFSTAT]) := by
  have hexec := exec_refreshDue c idle hon
  rw [clampI_due h1 (by omega)] at hexec
  refine ⟨_, hexec.trans ((if_neg (by omega)).trans (if_pos ⟨by omega, by simpa using hnow⟩)), ?_, rfl, onlyRegs_setRefreshCredit s c _⟩
  rw [closeRows_credit, setRefresh_self s c (by omega) (by omega), Int.sub_add_cancel]

theorem leaves_refreshPostponed (c : Fin 2) (idle : Bool) (hon : s.dom Dom.dramsys = .on) (h1 : -7 < refreshCredit s c)
    (hlater : 0 < refreshCredit s c ∨ s.bit DMC.REFCFG 0 = true ∧ idle = false) (h2 : refreshCredit s c ≤ 8) :
    Leaves (.refreshDue c idle) s (fun t => refreshCredit t c = refreshCredit s c - 1 ∧ t.dram = s.dram ∧ OnlyRegs s t [DMC.REFSTAT]) := by
  have hexec := exec_refreshDue c idle hon
  rw [clampI_due h1 h2] at hexec
  have hnot : ¬ (refreshCredit s c - 1 < 0 ∧ (¬ s.bit DMC.REFCFG 0 = true ∨ idle = true)) := by
    rintro ⟨hneg, hnow⟩
    rcases hlater with hpos | ⟨hpost, hidle⟩
    · omega
    · simp [hpost, hidle] at hnow
  exact ⟨_, hexec.trans ((if_neg (by omega)).trans (if_neg hnot)), setRefresh_self s c (by omega) (by omega), rfl, onlyRegs_setRefreshCredit s c _⟩

/-- 06 R153: a refresh of an idle channel. -/
theorem leaves_refreshPullIn (c : Fin 2) (hon : s.dom Dom.dramsys = .on) (hmay : s.bit DMC.REFCFG 1 = true ∨ refreshCredit s c < 0)
    (h1 : -8 ≤ refreshCredit s c) (h2 : refreshCredit s c < 8) : Leaves (.refreshPullIn c) s (fun t => refreshCredit t c = refreshCredit s c + 1 ∧
      t.dram.rows = s.dram.rows.filter (fun r => r.1 / 8 != c.val) ∧ OnlyRegs s t [DMC.REFSTAT]) := by
  have hmay' : refreshCredit s c < 0 ∨ s.bit DMC.REFCFG 1 = true ∧ refreshCredit s c < 8 := hmay.symm.imp_right fun h => ⟨h, h2⟩
  refine ⟨_, if_pos ⟨hon, hmay'⟩, ?_, rfl, onlyRegs_setRefreshCredit s c _⟩
  rw [closeRows_credit, setRefresh_self s c (by omega) (by omega)]

theorem exec_refresh_off (c : Fin 2) (idle : Bool) (hoff : s.dom Dom.dramsys ≠ .on) :
    exec (.refreshDue c idle) s = .next s ∧ exec (.refreshPullIn c) s = .next s :=
  ⟨if_pos hoff, if_neg fun h => hoff h.1⟩

/-! ### MR4 -/

/-- 06 R154: the codes of both dies. -/
def codesRead (s : State) (x y : Fin 8) : State := (s.setFld DMC.STATUS 18 16 x.val).setFld DMC.STATUS 22 20 y.val

/-- 06 R154: code 0b111 of a die is logged. -/
def logOverheat (s : State) (die : Nat) (code : Fin 8) : State := s.when (code.val == 7) (fun u => logFault u 0x0E 0xB die 0 0)

theorem logOverheat_fld (s : State) (die : Nat) (code : Fin 8) (hi lo : Nat) : (logOverheat s die code).fld DMC.STATUS hi lo = s.fld DMC.STATUS hi lo := by
  unfold logOverheat State.when
  split
  · rw [State.fld, logFault_rd _ _ _ _ _ _ (by decide) (by decide)]
    rfl
  · rfl

theorem logOverheat_mild (s : State) (die : Nat) {code : Fin 8} (h : code.val ≠ 7) : logOverheat s die code = s := by
  simp [logOverheat, State.when, h]

theorem leaves_mr4Poll (x y : Fin 8) : Leaves (.mr4Poll x y) s (fun t => t.fld DMC.STATUS 18 16 = x.val ∧ t.fld DMC.STATUS 22 20 = y.val ∧
    (x.val ≠ 7 → y.val ≠ 7 → OnlyRegs s t [DMC.STATUS]) ∧
    (x.val = 7 → y.val ≠ 7 → t.fld (FLT.LOG (s.fld FLT.LOGHEAD 5 0) 2) 7 0 = 0x0E)) := by
  have hexec : exec (.mr4Poll x y) s = .next (logOverheat (logOverheat (codesRead s x y) 0 x) 1 y) := rfl
  refine ⟨_, hexec, ?_, ?_, fun hx hy => ?_, fun hx hy => ?_⟩
  · rw [logOverheat_fld, logOverheat_fld]
    simp (disch := decide) only [codesRead, fld_after]
    omega
  · rw [logOverheat_fld, logOverheat_fld]
    simp (disch := decide) only [codesRead, fld_after]
    omega
  · rw [logOverheat_mild _ _ hy, logOverheat_mild _ _ hx]
    exact onlyRegs_then (onlyRegs_setFld s _ _ _ _) (by simp) _
  · have hlog : logOverheat (codesRead s x y) 0 x = logFault (codesRead s x y) 0x0E 0xB 0 0 0 := by simp [logOverheat, State.when, hx]
    have hhead : s.fld FLT.LOGHEAD 5 0 = (codesRead s x y).fld FLT.LOGHEAD 5 0 := by simp (disch := decide) only [codesRead, fld_after]
    rw [logOverheat_mild _ _ hy, hlog, hhead, logFault_cls]

/-! ### The mapping -/

theorem exec_dmcAddrmapWrite (h : Reaches s who DMC.ADDRMAP true) : exec (.dmcAddrmapWrite who v) s = .next (dmcMapWrite s v) :=
  congrArg Host.Outcome.next (access_write h rfl)

/-- 06 R148, R161: another mapping forgets every frame. -/
def mapChanged (s : State) (g : Nat) : State :=
  if g ≠ s.fld DMC.ADDRMAP 3 0 then fillAgain (s.upDram (fun d => { d with valid := [], badChk := [] })) else s

theorem onlyRegs_mapChanged (s : State) (g : Nat) : OnlyRegs s (mapChanged s g) [DMC.ADDRMAP, DMC.STATUS, DMC.FILLPTR] := by
  have hs := onlyRegs_refl s [DMC.ADDRMAP, DMC.STATUS, DMC.FILLPTR]
  unfold mapChanged
  split
  · exact onlyRegs_then (onlyRegs_then (onlyRegs_upDram hs _) (by simp) _) (by simp) _
  · exact hs

theorem leaves_dmcAddrmapWrite (h : Reaches s who DMC.ADDRMAP true) (hoff : s.bit DMC.CTRL 0 = false) (hcode : v.toNat % 16 ≤ 9) :
    Leaves (.dmcAddrmapWrite who v) s (fun t => t.fld DMC.ADDRMAP 3 0 = v.toNat % 16 ∧ t.bit DMC.STATUS 7 = false ∧
      (v.toNat % 16 ≠ s.fld DMC.ADDRMAP 3 0 → t.dram.valid = [] ∧ t.bit DMC.STATUS 4 = true ∧ t.rd DMC.FILLPTR = 0) ∧
      OnlyRegs s t [DMC.ADDRMAP, DMC.STATUS, DMC.FILLPTR]) := by
  have hw : dmcMapWrite s v = ((mapChanged s (v.toNat % 16)).setFld DMC.ADDRMAP 3 0 (v.toNat % 16)).setBit DMC.STATUS 7 false :=
    if_neg (by simp [hoff, hcode])
  refine ⟨_, (exec_dmcAddrmapWrite h).trans (congrArg Host.Outcome.next hw), ?_, State.bit_setBit_self _ _ _ (by decide), fun hne => ?_, ?_⟩
  · simp (disch := decide) only [fld_after]
    omega
  · rw [mapChanged, if_pos hne]
    refine ⟨rfl, ?_, ?_⟩
    · simp (disch := decide) only [fillAgain, bit_after]
    · rw [State.rd_setBit_ne _ (by decide), State.rd_setFld_ne _ (by decide)]
      exact State.rd_wr_self _ _ _
  · exact onlyRegs_then (onlyRegs_then (onlyRegs_mapChanged s _) (by simp) _) (by simp) _

theorem leaves_dmcAddrmapWrite_refused (h : Reaches s who DMC.ADDRMAP true) (hno : s.bit DMC.CTRL 0 = true ∨ 9 < v.toNat % 16) :
    Leaves (.dmcAddrmapWrite who v) s (fun t => t.bit DMC.STATUS 7 = true ∧ t.dram = s.dram ∧ OnlyRegs s t [DMC.STATUS]) :=
  ⟨_, (exec_dmcAddrmapWrite h).trans (congrArg Host.Outcome.next (if_pos hno)), State.bit_setBit_self s _ _ (by decide), rfl, onlyRegs_setFld s _ _ _ _⟩

/-- Settles O42: each event and each write by the lemma about it; the four writes of `DMC.CTRL` by what any of them leaves. -/
theorem dramTrainsSwitchesAndRefreshes : Obligations.DramTrainsSwitchesAndRefreshes := by
  unfold Obligations.DramTrainsSwitchesAndRefreshes
  intro who v s
  refine ⟨fun f hon htrain => leaves_dramTrainingDone f hon htrain, leaves_dramBackgroundFill, rfl, leaves_dqsOscRead,
    fun h => ⟨leaves_ctrlWrite h rfl, leaves_ctrlWrite h rfl, leaves_ctrlWrite h rfl, leaves_ctrlWrite h rfl⟩, leaves_dramSpeedSwitchDone,
    leaves_dramRetrainDone, fun c b => ⟨_, rfl, rfl, rfl, rfl⟩, exec_refresh_off, fun c idle hon => ?_, leaves_mr4Poll,
    fun h => ⟨leaves_dmcAddrmapWrite_refused h, leaves_dmcAddrmapWrite h⟩⟩
  exact ⟨leaves_refreshBurst c idle hon, leaves_refreshAtOnce c idle hon, leaves_refreshPostponed c idle hon, leaves_refreshPullIn c hon⟩

end Sys2Proof.DramControl
end

section
/-! PROOF. Errors of DRAM words: what each read and write of a word leaves, the diagnostic accesses, and the releases of a freeze
(06 R142 to R148, R157 to R161). -/
namespace Sys2Proof.DramErrors
open Sys2Proof.Machine Sys2Proof.Safety Sys2Proof.Reg Sys2Proof.DramControl

variable {s : State} {who a op : Nat} {p : DramPath} {bs : List Byte}

/-! ### Reads of a word -/

/-- 06 R143: neither a clean word nor a poisoned one has the syndrome of a single bit. -/
theorem synSingle_ne {x : BitVec 8} (h : synSingle x = true) : x ≠ 0 ∧ x ≠ 0xFF := by
  have hodd : onesBelow 8 x.toNat % 2 = 1 := by
    simp only [synSingle, Bool.and_eq_true, beq_iff_eq] at h
    exact h.1
  constructor <;> rintro rfl <;> exact absurd hodd (by decide)

/-- 06 R143: the state that the correction of a word leaves: its data bit set right, the error counted, the word written back. -/
def corrected (s : State) (w : Nat) : State :=
  let b := (synBit (storedSyn s w)).getD 64
  let u := if b < 64 then s.setByte (w + b / 8) (s.byte (w + b / 8) ^^^ BitVec.ofNat 8 (2 ^ (b % 8))) else s
  setSyn ((u.bump DMC.CECOUNT 15 0 1).wr DMC.CEADDR (BitVec.ofNat 32 w)) w 0

section Read
variable (hinj : s.bit FLT.INJCTRL 16 = false) (hvalid : s.dram.valid.contains (frameOfDram a) = true)
include hinj hvalid

/-- 06 R143, R148: a word of a valid frame is read by its syndrome. -/
theorem dramReadWord_eq : dramReadWord s who a op p =
    if pathSyn s (a / 8 * 8) p = 0 then (true, s)
    else if pathSyn s (a / 8 * 8) p = 0xFF then (false, s.bump DMC.CECOUNT 31 16 1)
    else if synSingle (pathSyn s (a / 8 * 8) p) then (true, corrected s (a / 8 * 8))
    else (false, dramFreeze s who a (pathWord s (a / 8 * 8) p) op (pathSyn s (a / 8 * 8) p)) := by
  have hinjected : ∀ k, k ≠ 0 → ¬ injMeets s (a / 8 * 8) 8 = k := fun k hk => by rw [injMeets_off hinj]; exact hk.symm
  refine (if_neg ?_).trans ((if_neg (hinjected 1 (by decide))).trans (if_neg (hinjected 2 (by decide))))
  rw [hvalid]
  decide

theorem dramReadWord_poisoned (hx : pathSyn s (a / 8 * 8) p = 0xFF) : dramReadWord s who a op p = (false, s.bump DMC.CECOUNT 31 16 1) := by
  rw [dramReadWord_eq hinj hvalid, hx]
  rfl

theorem dramReadWord_single (hx : synSingle (pathSyn s (a / 8 * 8) p) = true) : dramReadWord s who a op p = (true, corrected s (a / 8 * 8)) := by
  obtain ⟨h0, hff⟩ := synSingle_ne hx
  rw [dramReadWord_eq hinj hvalid, if_neg h0, if_neg hff, if_pos hx]

theorem dramReadWord_wide (h0 : pathSyn s (a / 8 * 8) p ≠ 0) (hff : pathSyn s (a / 8 * 8) p ≠ 0xFF) (hx : synSingle (pathSyn s (a / 8 * 8) p) = false) :
    dramReadWord s who a op p = (false, dramFreeze s who a (pathWord s (a / 8 * 8) p) op (pathSyn s (a / 8 * 8) p)) := by
  rw [dramReadWord_eq hinj hvalid, if_neg h0, if_neg hff, if_neg (by simp [hx])]

end Read

/-- 06 R143: a correction is counted, shown in `DMC.CEADDR`, and leaves a word whose check byte matches. -/
theorem corrected_facts (s : State) (w : Nat) : (corrected s w).fld DMC.CECOUNT 15 0 = min (s.fld DMC.CECOUNT 15 0 + 1) 0xFFFF ∧
    (corrected s w).rd DMC.CEADDR = BitVec.ofNat 32 w ∧ storedSyn (corrected s w) w = 0 := by
  have hcount : ∀ u : State, u.regs = s.regs →
      (setSyn ((u.bump DMC.CECOUNT 15 0 1).wr DMC.CEADDR (BitVec.ofNat 32 w)) w 0).fld DMC.CECOUNT 15 0 = min (s.fld DMC.CECOUNT 15 0 + 1) 0xFFFF := by
    intro u hu
    obtain ⟨-, -, hfld⟩ := filled_regs hu
    rw [setSyn_fld, State.fld_wr_ne _ (by decide), State.fld_bump_self _ _ (by decide) (by decide), hfld]
    rfl
  refine ⟨hcount _ ?_, State.rd_wr_self _ _ _, syn_self _ w 0⟩
  split <;> rfl

/-! ### An access to a word that the controller serves -/

/-- The row that an access opens changes nothing that the code checks. -/
theorem pathSyn_openRow (s : State) (a w : Nat) (p : DramPath) : pathSyn (dramOpenRow s a) w p = pathSyn s w p := by cases p <;> rfl

theorem pathWord_openRow (s : State) (a w : Nat) (p : DramPath) : pathWord (dramOpenRow s a) w p = pathWord s w p := by cases p <;> rfl

section Serve
variable (htarget : targetOf a = .dram) (hserves : dramServes s a = true)
include htarget hserves

theorem exec_dramAccess_read : exec (.dramAccess who a none p) s = .next (dramReadWord (dramOpenRow s a) who a 0 p).2 :=
  if_neg (by simp [htarget, hserves])

theorem exec_dramAccess_write : exec (.dramAccess who a (some bs) p) s = .next (performWrite s who a (bs.take (8 - a % 8)) p).2 :=
  if_neg (by simp [htarget, hserves])

/-- 06 R157: an access that is served is no error response to count. -/
theorem touch_served : touch s a = s := by
  simp [touch, restDom, htarget, serves_unfrozen hserves]

theorem performWrite_served : performWrite s who a bs p = if (dramWrite s who a bs p).1 then dramWrite s who a bs p
    else (false, loseReservations (markDirty (dramWrite s who a bs p).2 a bs.length) who a bs.length) := by
  simp only [performWrite, touch_served htarget hserves, htarget]

end Serve

/-- Bytes within one word are one piece. -/
theorem wordPieces_one (hpos : 0 < bs.length) (hfit : a % 8 + bs.length ≤ 8) : wordPieces bs.length a bs = [(a, bs)] := by
  have hrest : ∀ n b, wordPieces n b [] = [] := fun n b => by cases n <;> rfl
  obtain ⟨x, xs, rfl⟩ : ∃ x xs, bs = x :: xs := List.exists_cons_of_length_pos hpos
  rw [List.length_cons] at hfit
  have htake : (x :: xs).take (8 - a % 8) = x :: xs := List.take_of_length_le (by simp; omega)
  have hdrop : (x :: xs).drop (8 - a % 8) = [] := List.drop_of_length_le (by simp; omega)
  simp only [List.length_cons, wordPieces, List.isEmpty_cons, Bool.false_eq_true, if_false, htake, hdrop, hrest]

/-- 06 R145: a whole word is written without a read. -/
theorem dramWrite_whole (ha : a % 8 = 0) (hlen : bs.length = 8) : dramWrite s who a bs p =
    (false, setSyn ((dramValidate (dramOpenRow s a) (frameOfDram a)).setBytes a bs) a 0) := by
  rw [dramWrite, wordPieces_one (by omega) (by omega)]
  simp [hlen, setSyn]

/-- 06 R145: a part of a word, whose read fails, is discarded (a poisoned word included: log 91). -/
theorem dramWrite_discarded (hpos : 0 < bs.length) (hfit : a % 8 + bs.length < 8) (hread : (dramReadWord (dramOpenRow s a) who a 1 p).1 = false) :
    dramWrite s who a bs p = (true, (dramReadWord (dramOpenRow s a) who a 1 p).2) := by
  have hpart : bs.length ≠ 8 := by omega
  rw [dramWrite, wordPieces_one hpos (by omega)]
  simp [hpart, hread]

theorem setBytes_dram (bs : List Byte) (b : Nat) (s : State) : (s.setBytes b bs).dram = s.dram := by
  induction bs generalizing s b with
  | nil => rfl
  | cons x xs ih => exact ih (b + 1) (s.setByte b x)

section Word
variable (hinj : s.bit FLT.INJCTRL 16 = false) (htarget : targetOf a = .dram) (hserves : dramServes s a = true)
include hinj htarget hserves

theorem exec_read_clean (hx : pathSyn s (a / 8 * 8) p = 0) : exec (.dramAccess who a none p) s = .next (dramOpenRow s a) := by
  rw [exec_dramAccess_read htarget hserves, dramRead_clean (s := dramOpenRow s a) hinj ((pathSyn_openRow s a _ p).trans hx)]

section Valid
variable (hvalid : s.dram.valid.contains (frameOfDram a) = true)
include hvalid

theorem leaves_read_poisoned (hx : pathSyn s (a / 8 * 8) p = 0xFF) : Leaves (.dramAccess who a none p) s (fun t =>
    t.fld DMC.CECOUNT 31 16 = min (s.fld DMC.CECOUNT 31 16 + 1) 0xFFFF ∧ OnlyRegs s t [DMC.CECOUNT]) := by
  refine ⟨_, exec_dramAccess_read htarget hserves, ?_⟩
  rw [dramReadWord_poisoned (s := dramOpenRow s a) hinj hvalid ((pathSyn_openRow s a _ p).trans hx)]
  exact ⟨State.fld_bump_self _ _ (by decide) (by decide), onlyRegs_setFld (dramOpenRow s a) _ _ _ _⟩

theorem leaves_read_single (hx : synSingle (pathSyn s (a / 8 * 8) p) = true) : Leaves (.dramAccess who a none p) s (fun t =>
    t.fld DMC.CECOUNT 15 0 = min (s.fld DMC.CECOUNT 15 0 + 1) 0xFFFF ∧ t.rd DMC.CEADDR = BitVec.ofNat 32 (a / 8 * 8) ∧
      storedSyn t (a / 8 * 8) = 0) := by
  refine ⟨_, exec_dramAccess_read htarget hserves, ?_⟩
  rw [dramReadWord_single (s := dramOpenRow s a) hinj hvalid (by rwa [pathSyn_openRow])]
  exact corrected_facts (dramOpenRow s a) _

theorem leaves_read_wide (h0 : pathSyn s (a / 8 * 8) p ≠ 0) (hff : pathSyn s (a / 8 * 8) p ≠ 0xFF)
    (hx : synSingle (pathSyn s (a / 8 * 8) p) = false) : Leaves (.dramAccess who a none p) s (fun t =>
      t = dramFreeze (dramOpenRow s a) who a (pathWord s (a / 8 * 8) p) 0 (pathSyn s (a / 8 * 8) p) ∧ t.fld DMC.FREEZE 2 0 = 3 ∧
      t.rd DMC.FRZADDR = BitVec.ofNat 32 (a / 8 * 8) ∧ t.fld DMC.FRZSYN 7 0 = (pathSyn s (a / 8 * 8) p).toNat) := by
  rw [← pathSyn_openRow s a] at h0 hff hx
  have hread := dramReadWord_wide (s := dramOpenRow s a) (who := who) (op := 0) hinj hvalid h0 hff hx
  rw [pathSyn_openRow, pathWord_openRow] at hread
  refine ⟨_, (exec_dramAccess_read htarget hserves).trans (by rw [hread]), rfl, ?_⟩
  exact dramFreeze_facts (s := dramOpenRow s a) who a _ 0 _ (serves_unfrozen hserves)

theorem leaves_write_discarded (hpos : 0 < bs.length) (hfit : a % 8 + bs.length < 8) (hx : pathSyn s (a / 8 * 8) p = 0xFF) :
    Leaves (.dramAccess who a (some bs) p) s (fun t => t.mem = s.mem ∧ OnlyRegs s t [DMC.CECOUNT]) := by
  have hread := dramReadWord_poisoned (s := dramOpenRow s a) (who := who) (op := 1) hinj hvalid ((pathSyn_openRow s a _ p).trans hx)
  have hwrite : dramWrite s who a bs p = (true, (dramOpenRow s a).bump DMC.CECOUNT 31 16 1) := by
    rw [dramWrite_discarded hpos hfit (by rw [hread]), hread]
  refine ⟨_, exec_dramAccess_write htarget hserves, ?_⟩
  rw [List.take_of_length_le (by omega), performWrite_served htarget hserves, hwrite, if_pos rfl]
  exact ⟨rfl, onlyRegs_setFld (dramOpenRow s a) _ _ _ _⟩

end Valid

omit hinj in
theorem leaves_write_whole (ha : a % 8 = 0) (hlen : bs.length = 8) : Leaves (.dramAccess who a (some bs) p) s (fun t =>
    storedSyn t a = 0 ∧ (∀ i < 8, t.byte (a + i) = bs.getD i 0) ∧ t.dram.valid.contains (frameOfDram a) = true ∧ t.regs = s.regs) := by
  obtain ⟨hregs, hvalid⟩ := validate_regs (dramOpenRow s a) (frameOfDram a)
  set u := (dramValidate (dramOpenRow s a) (frameOfDram a)).setBytes a bs with hu
  have hexec : exec (.dramAccess who a (some bs) p) s =
      .next (loseReservations (markDirty (setSyn u a 0) a bs.length) who a bs.length) := by
    rw [exec_dramAccess_write htarget hserves, List.take_of_length_le (by omega), performWrite_served htarget hserves,
      dramWrite_whole ha hlen]
    rfl
  refine ⟨_, hexec, syn_self u a 0, fun i hi => ?_, ?_, ?_⟩
  · show u.byte (a + i) = _
    rw [hu, State.byte_setBytes, if_pos (by omega), Nat.add_sub_cancel_left]
  · show u.dram.valid.contains _ = true
    rw [hu, setBytes_dram, hvalid]
  · show u.regs = s.regs
    rw [hu, State.setBytes_regs, hregs]
    rfl

end Word

/-- 06 R146: the patrol reads a clean word and goes on. -/
theorem leaves_patrolScrubRead (hinj : s.bit FLT.INJCTRL 16 = false) (hrate : s.fld DMC.SCRUB 7 0 ≠ 0) (hserves : dramServes s 0x80000000 = true)
    (hword : dramServes s (0x80000000 + 8 * s.dram.patrol) = true) (hx : storedSyn s (0x80000000 + 8 * s.dram.patrol) = 0) :
    Leaves (.patrolScrubRead .clean) s (fun t => t.dram = { (dramOpenRow s (0x80000000 + 8 * s.dram.patrol)).dram with
      patrol := (s.dram.patrol + 1) % 0xE00000 } ∧ t.regs = s.regs ∧ t.mem = s.mem) := by
  set w := 0x80000000 + 8 * s.dram.patrol with hw
  have halign : w / 8 * 8 = w := by omega
  have hclean : dramReadWord (dramOpenRow s w) 0xB w 2 .clean = (true, dramOpenRow s w) := dramRead_clean hinj (by rw [halign]; exact hx)
  have hexec : exec (.patrolScrubRead .clean) s =
      .next ((dramOpenRow s w).upDram (fun d => { d with patrol := (d.patrol + 1) % 0xE00000 })) := by
    refine (if_pos ⟨hrate, hserves⟩).trans ?_
    rw [if_pos hword, hclean]
  exact ⟨_, hexec, rfl, rfl, rfl⟩

/-! ### Diagnostic accesses -/

theorem access_diagctrl {v : Word} (h : Reaches s who DMC.DIAGCTRL true) : s.access who DMC.DIAGCTRL (some v) = dmcDiag s v := access_write h rfl

/-- A diagnostic access acts only while the controller is frozen (log 60). -/
theorem dmcDiag_served (h : s.bit DMC.FREEZE 0 = false) (v : Word) : dmcDiag s v = s := by simp [dmcDiag, h]

/-- The channel-local address that `DMC.DIAGADDR` names. -/
def diagLocal (s : State) : Nat := s.fld DMC.DIAGADDR 25 3 * 8

/-- 06 R161: the word of a diagnostic access. -/
def diagWord (s : State) : Nat := dramUnmap s (s.fld DMC.DIAGADDR 31 31) (diagLocal s)

/-- 06 R161: DIAGCTRL shows that an access is done. -/
def diagDone (s : State) : State := s.setFld DMC.DIAGCTRL 9 8 1

/-- What a diagnostic read shows. -/
def diagShown (s : State) : State :=
  let data := s.viewNat (diagWord s) 8
  let x := storedSyn s (diagWord s)
  (((diagDone s).wr DMC.DIAGDLO (BitVec.ofNat 32 data)).wr DMC.DIAGDHI (BitVec.ofNat 32 (data / 2 ^ 32))).wr
    DMC.DIAGCHK (BitVec.ofNat 32 ((dramCheck data (diagLocal s) ^^^ x).toNat + 256 * x.toNat))

/-- The frame of the word, valid for a write into it (log 92). -/
def diagFrame (s : State) : State := dramValidate (diagDone s) (frameOfDram (diagWord s))

/-- The data of a diagnostic write, stored. -/
def diagBytes (s : State) : State :=
  (diagFrame s).setBytes (diagWord s) (leBytes 8 ((s.rd DMC.DIAGDLO).toNat + 2 ^ 32 * (s.rd DMC.DIAGDHI).toNat))

/-- What a diagnostic write leaves: the data, with the check byte as `DMC.DIAGCHK` gives it. -/
def diagStored (s : State) : State :=
  setSyn (diagBytes s) (diagWord s) (dramCheck ((s.rd DMC.DIAGDLO).toNat + 2 ^ 32 * (s.rd DMC.DIAGDHI).toNat) (diagLocal s) ^^^
    BitVec.ofNat 8 ((diagBytes s).fld DMC.DIAGCHK 7 0))

/-- 06 R161: a diagnostic write, or a poisoning, leaves what DIAGCTRL shows. -/
theorem diagFrame_fld (s : State) : (diagFrame s).fld DMC.DIAGCTRL 9 8 = 1 := by
  obtain ⟨-, -, hfld⟩ := filled_regs (validate_regs (diagDone s) (frameOfDram (diagWord s))).1
  exact (hfld _ _ _).trans (State.fld_setFld_self s _ 1 (by decide) (by decide))

theorem diagBytes_regs (s : State) : (diagBytes s).regs = (diagFrame s).regs := State.setBytes_regs _ _ _

section Frozen
variable (hfrozen : s.bit DMC.FREEZE 0 = true) (hup : s.bit DMC.CTRL 2 = false) (hin : diagLocal s < 0x03800000)
include hfrozen hup hin

/-- 06 R159: of several start bits the lowest counts (log 92). -/
theorem dmcDiag_frozen {v : Word} (hstart : (testB v.toNat 0 || testB v.toNat 1 || testB v.toNat 2) = true) : dmcDiag s v =
    if testB v.toNat 0 then diagShown s else if testB v.toNat 1 then diagStored s
    else setSyn (diagFrame s) (diagWord s) 0xFF := by
  have hgo : (!(testB v.toNat 0 || testB v.toNat 1 || testB v.toNat 2) || !s.bit DMC.FREEZE 0) = false := by simp only [hstart, hfrozen]; rfl
  have harray : ¬ ((s.fld DMC.DIAGADDR 31 31 = 1 ∧ s.bit DMC.CTRL 2 = true) ∨ 0x03800000 ≤ s.fld DMC.DIAGADDR 25 3 * 8) := by
    rw [hup]
    exact fun h => h.elim (fun h => Bool.false_ne_true h.2) (Nat.not_le.2 hin)
  unfold dmcDiag
  dsimp only
  rw [hgo, if_neg Bool.false_ne_true, if_neg harray]
  split
  · rfl
  · split
    · rw [State.rd_setFld_ne s (a := DMC.DIAGCTRL) (b := DMC.DIAGDLO) (by decide), State.rd_setFld_ne s (a := DMC.DIAGCTRL) (b := DMC.DIAGDHI) (by decide)]
      rfl
    · rfl

theorem leaves_diagRead (h : Reaches s who DMC.DIAGCTRL true) : Leaves (.diagRead who) s (fun t => t.fld DMC.DIAGCTRL 9 8 = 1 ∧
    t.rd DMC.DIAGDLO = BitVec.ofNat 32 (s.viewNat (diagWord s) 8) ∧ t.rd DMC.DIAGDHI = BitVec.ofNat 32 (s.viewNat (diagWord s) 8 / 2 ^ 32) ∧
    t.bit DMC.FREEZE 0 = true ∧ t.dram = s.dram ∧ OnlyRegs s t [DMC.DIAGCTRL, DMC.DIAGDLO, DMC.DIAGDHI, DMC.DIAGCHK]) := by
  have hread : dmcDiag s 1 = diagShown s := (dmcDiag_frozen hfrozen hup hin (by decide)).trans (if_pos (by decide))
  refine ⟨diagShown s, congrArg Host.Outcome.next ((access_diagctrl h).trans hread), ?_, ?_, ?_, ?_, ?_, ?_⟩
  · simp (disch := decide) only [diagShown, diagDone, fld_after]
    rfl
  · exact (State.rd_wr_ne _ (by decide) _).trans ((State.rd_wr_ne _ (by decide) _).trans (State.rd_wr_self _ _ _))
  · exact (State.rd_wr_ne _ (by decide) _).trans (State.rd_wr_self _ _ _)
  · simp (disch := decide) only [diagShown, diagDone, bit_after, hfrozen]
  · simp only [diagShown, diagDone, State.wr_dram, State.setFld_dram]
  · iterate 4 refine onlyRegs_then ?_ (by simp) _
    exact onlyRegs_refl s _

theorem leaves_diagWrite (h : Reaches s who DMC.DIAGCTRL true) : Leaves (.diagWrite who) s (fun t => t.fld DMC.DIAGCTRL 9 8 = 1 ∧
    ∀ i < 8, t.byte (diagWord s + i) = (leBytes 4 (s.rd DMC.DIAGDLO).toNat ++ leBytes 4 (s.rd DMC.DIAGDHI).toNat).getD i 0) := by
  have hwrite : dmcDiag s 2 = diagStored s := (dmcDiag_frozen hfrozen hup hin (by decide)).trans ((if_neg (by decide)).trans (if_pos rfl))
  refine ⟨diagStored s, congrArg Host.Outcome.next ((access_diagctrl h).trans hwrite), ?_, fun i hi => ?_⟩
  · rw [diagStored, setSyn_fld, (filled_regs (diagBytes_regs s)).2.2, diagFrame_fld]
  · rw [diagStored, setSyn_byte, diagBytes, State.byte_setBytes, leBytes_length, if_pos (by omega), Nat.add_sub_cancel_left, words8]

theorem leaves_diagPoison (h : Reaches s who DMC.DIAGCTRL true) : Leaves (.diagPoison who) s (fun t => t.fld DMC.DIAGCTRL 9 8 = 1 ∧
    storedSyn t (diagWord s) = 0xFF ∧ (s.dram.valid.contains (frameOfDram (diagWord s)) = true → t.mem = s.mem)) := by
  have hpoison : dmcDiag s 4 = setSyn (diagFrame s) (diagWord s) 0xFF :=
    (dmcDiag_frozen hfrozen hup hin (by decide)).trans ((if_neg (by decide)).trans (if_neg (by decide)))
  refine ⟨_, congrArg Host.Outcome.next ((access_diagctrl h).trans hpoison), diagFrame_fld s, syn_self _ _ _, fun hvalid => ?_⟩
  have hframe : diagFrame s = diagDone s := if_pos hvalid
  rw [setSyn_mem, hframe]
  rfl

end Frozen

/-! ### Releases -/

theorem access_freeze {v : Word} (h : Reaches s who DMC.FREEZE true) : s.access who DMC.FREEZE (some v) = dmcRelease s (bitsOf v 5 4) := access_write h rfl

section Release
variable (hfrozen : s.bit DMC.FREEZE 0 = true) (hcause : s.fld DMC.FREEZE 2 1 ≠ 2) (hidle : s.dram.release = 0)
include hfrozen hcause hidle

/-- 06 R160: a release that the controller takes. -/
theorem dmcRelease_taken (mode : Nat) : dmcRelease s mode = match mode with
    | 1 => ((clearCapture s).wr DMC.FREEZE 0).setBit DMC.STATUS 2 false
    | 2 => (s.upDram (fun d => { d with release := 2 })).setBit DMC.STATUS 5 true
    | 3 => ((clearCapture (s.upDram (fun d => { d with release := 3, trainAll := true, valid := [], lost := d.valid ++ d.lost }))).setBit
        DMC.STATUS 0 false).setBit DMC.STATUS 1 true
    | _ => s :=
  (if_neg (by simp [hfrozen, hidle])).trans (if_neg (by simp [hcause]))

theorem leaves_releaseResume (h : Reaches s who DMC.FREEZE true) : Leaves (.releaseResume who) s (fun t => t.rd DMC.FREEZE = 0 ∧
    t.bit DMC.STATUS 2 = false ∧ t.dram = s.dram ∧
    OnlyRegs s t [DMC.FREEZE, DMC.STATUS, DMC.FRZADDR, DMC.FRZCMD, DMC.FRZSYN, DMC.FRZDLO, DMC.FRZDHI]) := by
  obtain ⟨honly, hdram⟩ := clearCap_only s
  refine ⟨_, congrArg Host.Outcome.next ((access_freeze h).trans (dmcRelease_taken hfrozen hcause hidle 1)), ?_, ?_, hdram, ?_⟩
  · exact (State.rd_setBit_ne _ (by decide) _ _).trans (State.rd_wr_self _ _ _)
  · exact State.bit_setBit_self _ _ _ (by decide)
  · iterate 2 refine onlyRegs_then ?_ (by simp) _
    exact onlyRegs_trans honly (onlyRegs_refl _ _) (by simp)

theorem leaves_releaseScrub (h : Reaches s who DMC.FREEZE true) : Leaves (.releaseScrub who) s (fun t =>
    t.dram = { s.dram with release := 2 } ∧ t.bit DMC.STATUS 5 = true ∧ OnlyRegs s t [DMC.STATUS]) :=
  ⟨_, congrArg Host.Outcome.next ((access_freeze h).trans (dmcRelease_taken hfrozen hcause hidle 2)), rfl,
    State.bit_setBit_self _ _ _ (by decide), onlyRegs_setFld (s.upDram _) _ _ _ _⟩

theorem leaves_releaseReset (h : Reaches s who DMC.FREEZE true) : Leaves (.releaseReset who) s (fun t =>
    t.dram = { s.dram with release := 3, trainAll := true, valid := [], lost := s.dram.valid ++ s.dram.lost } ∧
    t.bit DMC.STATUS 0 = false ∧ t.bit DMC.STATUS 1 = true) := by
  refine ⟨_, congrArg Host.Outcome.next ((access_freeze h).trans (dmcRelease_taken hfrozen hcause hidle 3)), rfl, ?_, ?_⟩
  all_goals simp (disch := decide) only [bit_after]

end Release

/-- 06 R160: a scrub that found no damaged word ends the freeze. -/
theorem leaves_scrubReleaseDone (hscrub : s.dram.release = 2) (hnone : s.dram.badChk = []) : Leaves (.scrubReleaseDone []) s (fun t =>
    t.rd DMC.FREEZE = 0 ∧ t.bit DMC.STATUS 2 = false ∧ t.bit DMC.STATUS 5 = false ∧ t.dram = { s.dram with release := 0 } ∧
    OnlyRegs s t [DMC.FREEZE, DMC.STATUS]) := by
  have hexec : exec (.scrubReleaseDone []) s = .next ((((s.upDram (fun d => { d with release := 0 })).setBit DMC.STATUS 5 false).wr DMC.FREEZE 0).setBit
      DMC.STATUS 2 false) := by
    refine (if_pos hscrub).trans ?_
    simp [hnone]
  refine ⟨_, hexec, ?_, ?_, ?_, rfl, ?_⟩
  · exact (State.rd_setBit_ne _ (by decide) _ _).trans (State.rd_wr_self _ _ _)
  · exact State.bit_setBit_self _ _ _ (by decide)
  · simp (disch := decide) only [bit_after]
  · iterate 3 refine onlyRegs_then ?_ (by simp) _
    exact onlyRegs_refl s _

/-! ### The queue of poisoned frames -/

/-- 06 R161: a read of POISONQ takes the oldest frame. -/
theorem exec_poisonqRead (h : Reaches s who DMC.POISONQ false) :
    exec (.poisonqRead who) s = .next { (poisonPop s).2 with rdata := (poisonPop s).1 } := congrArg Host.Outcome.next (access_read h)

theorem leaves_poisonqRead_frame {f : Nat} {l : List Nat} (h : Reaches s who DMC.POISONQ false) (hq : s.dram.poisonq = f :: l) :
    Leaves (.poisonqRead who) s (fun t => t.rdata = BitVec.ofNat 32 (f + 2 ^ 30 * natBit s.dram.poisonOvf + 2 ^ 31) ∧
      t.dram = { s.dram with poisonq := l, poisonOvf := false } ∧ t.regs = s.regs ∧ t.mem = s.mem) := by
  have hpop : poisonPop s = (BitVec.ofNat 32 (f + 2 ^ 30 * natBit s.dram.poisonOvf + 2 ^ 31),
      s.upDram (fun d => { d with poisonq := l, poisonOvf := false })) := by simp only [poisonPop, hq]
  refine ⟨_, exec_poisonqRead h, ?_⟩
  rw [hpop]
  exact ⟨rfl, rfl, rfl, rfl⟩

theorem leaves_poisonqRead_empty (h : Reaches s who DMC.POISONQ false) (hq : s.dram.poisonq = []) :
    Leaves (.poisonqRead who) s (fun t => t = { s with rdata := 0 }) := by
  have hpop : poisonPop s = (0, s) := by simp only [poisonPop, hq]
  exact ⟨_, exec_poisonqRead h, by rw [hpop]⟩

/-- Settles O43: a read of a word by its syndrome, a write by what it covers of its word; a part of a poisoned word is discarded (log 91)
and a diagnostic access acts only while the controller is frozen (log 60). -/
theorem dramErrorsFreezeAndRelease : Obligations.DramErrorsFreezeAndRelease := by
  unfold Obligations.DramErrorsFreezeAndRelease
  intro who a s hinj
  refine ⟨fun ht hs => ⟨?_, ?_, ?_, ?_, ?_, ?_, ?_⟩, ?_, ?_, ?_, ?_, leaves_scrubReleaseDone, leaves_poisonqRead_empty, ?_⟩
  · exact fun p hx => exec_read_clean hinj ht hs hx
  · exact fun p hvalid hx => leaves_read_poisoned hinj ht hs hvalid hx
  · exact fun p hvalid hx => leaves_read_single hinj ht hs hvalid hx
  · exact fun p hvalid h0 hff hx => leaves_read_wide hinj ht hs hvalid h0 hff hx
  · exact fun bs p => exec_dramAccess_write ht hs
  · exact fun bs p ha hlen => leaves_write_whole ht hs ha hlen
  · exact fun bs p hpos hfit hvalid hx => leaves_write_discarded hinj ht hs hvalid hpos hfit hx
  · exact fun hrate hserves hword hx => leaves_patrolScrubRead hinj hrate hserves hword hx
  · exact fun h hserved => by
      have hnext : ∀ v : Word, Host.Outcome.next (s.access who DMC.DIAGCTRL (some v)) = (.next s : Out) := fun v => by
        rw [access_diagctrl h, dmcDiag_served hserved]
      exact ⟨hnext 1, hnext 2, hnext 4⟩
  · exact fun h hfrozen hup hin => ⟨leaves_diagRead hfrozen hup hin h, leaves_diagWrite hfrozen hup hin h, leaves_diagPoison hfrozen hup hin h⟩
  · exact fun h hfrozen hcause hidle =>
      ⟨leaves_releaseResume hfrozen hcause hidle h, leaves_releaseScrub hfrozen hcause hidle h, leaves_releaseReset hfrozen hcause hidle h⟩
  · exact fun f l h hq _ => leaves_poisonqRead_frame h hq

end Sys2Proof.DramErrors
end

section
/-! PROOF. The flash controller and the MRAM controller at work: descriptors that are refused or started, bursts, erase pulses,
suspension, and the read path (07 R167 to R179). -/
namespace Sys2Proof.FlashDescriptors
open Sys2Proof.Machine Sys2Proof.Safety Sys2Proof.Reg

variable {env : FlashEnv} {who f wait : Nat} {v : Word} {d : FlashDesc} {o : FlashOp} {u fetch : Bool} {mir : Ecc} {r : Option Nat} {s s1 : State}

/-! ### Descriptors that a check refuses or that start -/

/-- 07 R172: while JREADY is 0 these descriptors stay in their queues. -/
theorem exec_awaitsJready (hready : s.bit FLC.CTRL 0 = false) :
    exec (.flashProgram env) s = .next s ∧ exec (.flashErase env) s = .next s ∧ exec (.flashRetire env) s = .next s ∧
    exec (.flashRelease env) s = .next s := by
  have hshut : (!flcTakes s || !s.bit FLC.CTRL 0) = true := by simp [hready]
  exact ⟨if_pos hshut, if_pos hshut, if_pos hshut, if_pos hshut⟩

/-- 07 R171: a descriptor ends with the code `c` of the check it fails, and starts otherwise. -/
def endedOr (s : State) (d : FlashDesc) (c : Nat) (started : State) : State := if c ≠ 0 then finishDesc s d.addr c 0 0 else started

/-- 07 R171: what a PROGRAM whose checks end with the code `c` leaves before it ends or starts: its source is read by the later checks. -/
def sourceRead (s : State) (d : FlashDesc) (c : Nat) : State :=
  if c = 0 ∨ (12 ≤ c ∧ c ≤ 17) then (physRead s flashInit d.src d.len).2 else s

/-- 07 R170, R175: a PROGRAM that starts: PROG_OPEN, then the backup that its first burst needs. -/
def programStarted (s : State) (d : FlashDesc) : State :=
  let crc := crc32 (((physRead s flashInit d.src d.len).1).getD [])
  let r := journalOpen s 3 0 (d.flash / 0x4000) d.flash d.len crc d.addr
  let o : FlashOp := { desc := d.addr, op := 1, off := d.flash, len := d.len, crc := crc, openSeq := r.2.1, openSlot := r.1, safe := d.safe }
  prepareBurst (invalidateSectors (startProg r.2.2 o) d.flash d.len) o

/-- 07 R171: the code of the check that an ERASE fails, 0 for none. -/
def eraseRefusal (env : FlashEnv) (s : State) (d : FlashDesc) : Nat :=
  if d.flash % 0x4000 ≠ 0 ∨ 0x400000 ≤ d.flash then 8 else if blockLocked s d.flash then 10 else if flcState s = 3 then 18
  else if env.jErr then 17 else 0

/-- 07 R173, R182: an ERASE that starts: the earlier CLOSE records of the sector end, ERASE_OPEN, then the pulses. -/
def eraseStarted (s : State) (d : FlashDesc) : State :=
  let c := retireCloses s (d.flash / 0x4000)
  let r := journalOpen c 1 0 (d.flash / 0x4000) d.flash 0x4000 (wearCount c (d.flash / 0x4000) + 1) d.addr
  let o : FlashOp := { desc := d.addr, op := 2, off := d.flash, len := 0x4000, openSeq := r.2.1, openSlot := r.1 }
  let t := (setFlcState (r.2.2.upNvm (fun v => { v with erase := some o, eraseAt := c.uptime })) 2).wr FLC.CUR (BitVec.ofNat 32 d.addr)
  invalidateSectors (descStatus t d.addr 1) d.flash 0x4000

/-- 07 R177: the code of the check that a RETIRE fails, 0 for none. -/
def retireRefusal (env : FlashEnv) (s : State) (d : FlashDesc) : Nat :=
  if s.fld SYS.BOOTSEL 0 0 = d.flash % 2 then 10 else if sectorBlocked s (8 * (d.flash % 2) + 7) then 18 else if env.jErr then 17 else 0

/-- 07 R177: a RETIRE that starts on the epoch row of its block. -/
def retireStarted (s : State) (d : FlashDesc) : State :=
  let b := d.flash % 2
  let r := journalOpen s 9 b (8 * b + 7) (epochBurst b 0) 1024 0 d.addr
  invalidateSectors (startProg r.2.2 { desc := d.addr, op := 4, off := b, len := 1024, openSeq := r.2.1, openSlot := r.1 }) (epochBurst b 0) 2048

/-- 07 R178: the code of the check that an EPOCH fails although its row has a blank burst, 0 for none. -/
def epochRefusal (env : FlashEnv) (s : State) (d : FlashDesc) : Nat :=
  let sec := 8 * (d.flash % 2) + 7
  if s.bit (FLC.UNSETTLED 0) sec then 11 else if sectorBlocked s sec then 18
  else if env.srcErr ∨ (physRead s flashInit d.src 64).1.isNone then 12 else if env.jErr then 17 else 0

/-- 07 R178: an EPOCH that starts on the blank burst `i` of its row. -/
def epochStarted (s : State) (d : FlashDesc) (i : Nat) : State :=
  let b := d.flash % 2
  let r := journalOpen s 7 b (8 * b + 7) (epochBurst b i) 64 i d.addr
  invalidateSectors (startProg r.2.2 { desc := d.addr, op := 3, off := epochBurst b i, len := 64, crc := i, openSeq := r.2.1, openSlot := r.1 })
    (epochBurst b i) 64

section Taken
variable (htakes : flcTakes s = true)
include htakes

theorem exec_flashProgram_taken (hready : s.bit FLC.CTRL 0 = true) (h : takeDesc s (fun op => op == 1) = (some (d, u), s1)) :
    exec (.flashProgram env) s = let c := programRefusal s1 d env
      .next (if c.1 ≠ 0 then finishDesc (sourceRead s1 d c.1) d.addr c.1 c.2 0 else programStarted (sourceRead s1 d c.1) d) := by
  show execFlashProgram env s = _
  simp only [execFlashProgram, htakes, hready, h]
  exact (apply_ite Host.Outcome.next _ _ _).symm

theorem exec_flashErase_taken (hready : s.bit FLC.CTRL 0 = true) (h : takeDesc s (fun op => op == 2) = (some (d, u), s1)) :
    exec (.flashErase env) s = .next (endedOr s1 d (eraseRefusal env s1 d) (eraseStarted s1 d)) := by
  show execFlashErase env s = _
  simp only [execFlashErase, htakes, hready, h]
  exact (apply_ite Host.Outcome.next _ _ _).symm

theorem exec_flashRetire_taken (hready : s.bit FLC.CTRL 0 = true) (h : takeDesc s (fun op => op == 4) = (some (d, u), s1)) :
    exec (.flashRetire env) s = .next (endedOr s1 d (retireRefusal env s1 d) (retireStarted s1 d)) := by
  show execFlashRetire env s = _
  simp only [execFlashRetire, htakes, hready, h]
  exact (apply_ite Host.Outcome.next _ _ _).symm

/-- 07 R171, R176: a RELEASE whose journal record cannot be written. -/
theorem exec_flashRelease_journalErr (hready : s.bit FLC.CTRL 0 = true) (h : takeDesc s (fun op => op == 7) = (some (d, u), s1))
    (herr : env.jErr = true) : exec (.flashRelease env) s = .next (finishDesc s1 d.addr 17 0 0) := by
  show execFlashRelease env s = _
  simp only [execFlashRelease, htakes, hready, h]
  exact if_pos herr

/-- 07 R178: an EPOCH needs a source and a blank burst, and no JREADY (R172). -/
theorem exec_flashEpoch_taken (h : takeDesc s (fun op => op == 3) = (some (d, u), s1)) :
    exec (.flashEpoch env) s = .next (if srcOk d.src = false then finishDesc s1 d.addr 8 0 0
      else (blankBurst s1 (d.flash % 2)).elim (finishDesc s1 d.addr 16 0 0) fun i => endedOr s1 d (epochRefusal env s1 d) (epochStarted s1 d i)) := by
  show execFlashEpoch env s = _
  simp only [execFlashEpoch, htakes, h]
  cases srcOk d.src with
  | false => rfl
  | true =>
    cases blankBurst s1 (d.flash % 2) with
    | none => rfl
    | some i => exact (apply_ite Host.Outcome.next _ _ _).symm

theorem exec_flashBlankcheck_taken (h : takeDesc s (fun op => op == 5) = (some (d, u), s1)) :
    exec .flashBlankcheck s = .next (if rangeBad d.flash d.len true then finishDesc s1 d.addr 8 0 0
      else if s1.bit (FLC.UNSETTLED (d.flash / 0x4000 / 32)) (d.flash / 0x4000 % 32) then finishDesc s1 d.addr 11 0 0
      else if sectorBlocked s1 (d.flash / 0x4000) then finishDesc s1 d.addr 18 0 0
      else (firstDirty s1 d.flash d.len).elim (finishDesc s1 d.addr 3 0 0) fun g => finishDesc s1 d.addr 4 g 0) := by
  show execFlashBlankcheck s = _
  simp only [execFlashBlankcheck, htakes, h, apply_ite Host.Outcome.next]
  cases firstDirty s1 d.flash d.len <;> rfl

end Taken

/-- 07 R173: an ABORT acts from Q109 alone, in every state but SPROG. -/
theorem exec_flashAbort_taken (hprog : flcState s ≠ 4) (h : takeDesc s (fun op => op == 6) = (some (d, u), s1)) :
    exec .flashAbort s = .next (if u = false then finishDesc s1 d.addr 9 0 0
      else s1.nvm.erase.elim (finishDesc s1 d.addr 3 0 0) fun o => finishDesc (abandonErase s1 o 2 15) d.addr 3 0 0) := by
  refine (if_neg hprog).trans ?_
  rw [h]
  cases u with
  | false => rfl
  | true => cases herase : s1.nvm.erase <;> simp only [herase] <;> rfl

/-! ### Which check a descriptor fails -/

theorem endedOr_refused {c : Nat} {t : State} (h : c ≠ 0) : endedOr s d c t = finishDesc s d.addr c 0 0 := if_pos h

theorem endedOr_zero {c : Nat} {t : State} (h : c = 0) : endedOr s d c t = t := if_neg (not_not.2 h)

theorem eraseRefusal_badAddr (h : d.flash % 0x4000 ≠ 0 ∨ 0x400000 ≤ d.flash) : eraseRefusal env s d = 8 := if_pos h

theorem eraseRefusal_none (halign : d.flash % 0x4000 = 0) (hin : d.flash < 0x400000) (hlock : blockLocked s d.flash = false)
    (hstate : flcState s ≠ 3) (hj : env.jErr = false) : eraseRefusal env s d = 0 := by
  have haddr : ¬ (d.flash % 0x4000 ≠ 0 ∨ 0x400000 ≤ d.flash) := by omega
  simp only [eraseRefusal, haddr, hlock, hstate, hj, Bool.false_eq_true, if_false]

theorem retireRefusal_active (h : s.fld SYS.BOOTSEL 0 0 = d.flash % 2) : retireRefusal env s d = 10 := if_pos h

theorem retireRefusal_none (hother : s.fld SYS.BOOTSEL 0 0 ≠ d.flash % 2) (hfree : sectorBlocked s (8 * (d.flash % 2) + 7) = false)
    (hj : env.jErr = false) : retireRefusal env s d = 0 := by
  simp only [retireRefusal, hother, hfree, hj, Bool.false_eq_true, if_false]

theorem epochRefusal_none {bs : List Byte} (hsettled : s.bit (FLC.UNSETTLED 0) (8 * (d.flash % 2) + 7) = false)
    (hfree : sectorBlocked s (8 * (d.flash % 2) + 7) = false) (hsrc : env.srcErr = false)
    (hread : (physRead s flashInit d.src 64).1 = some bs) (hj : env.jErr = false) : epochRefusal env s d = 0 := by
  simp [epochRefusal, hsettled, hfree, hsrc, hread, hj]

/-- 07 R170: a range of blank bursts has no first burst that is not. -/
theorem firstDirty_eq_none {n : Nat} (h : ∀ i < n / 64, flashBlank s (f + 64 * i) 64 = true) : firstDirty s f n = none := by
  simpa [firstDirty] using h

/-! ### Bursts -/

/-- 07 R163, R169: a burst of a PROGRAM is in the array, its bits cleared where the source has 0, and PROGRESS is written. -/
def burstProgrammed (s : State) (o : FlashOp) : State :=
  descProgress (s.setBytes (flashAt (burstAt o)) (List.zipWith (fun a b => a &&& b) (s.bytes (flashAt (burstAt o)) 64)
    (s.viewBytes ((readDesc s o.desc).src + o.done) 64))) o.desc (o.done + 64)

/-- 07 R173: a burst ends and more remain, in an operation that holds no backup. -/
theorem exec_progBurstDone_more (hprog : s.nvm.prog = some o) (hop : o.op = 1) (hmore : o.done + 64 < o.len) (hback : o.backup = none) :
    exec (.progBurstDone true r) s = let o2 := { o with done := o.done + 64 }
      .next (prepareBurst ((burstProgrammed s o).upNvm (fun v => { v with prog := some o2, gap := v.readAt.isSome })) o2) := by
  show execProgBurstDone true r s = _
  simp [execProgBurstDone, burstProgrammed, hprog, hop, hmore, hback]

/-- 07 R166, R175: a burst that fails is torn; the backup is released, the operation closed, and its descriptor ends with PROG_FAIL. -/
theorem exec_progBurstDone_failed (hprog : s.nvm.prog = some o) :
    exec (.progBurstDone false r) s = let x := releaseBackup (tearBurst s (burstAt o)) o
      let c := closeProg x.2 x.1 false
      .next (endProg (finishDesc c.2 o.desc 5 (burstAt o) c.1)) := by
  show execProgBurstDone false r s = _
  simp only [execProgBurstDone, hprog]
  rfl

/-! ### Erase pulses and suspension -/

/-- An erase one pulse later, with PROGRESS written. -/
def pulsed (s : State) (o : FlashOp) : State :=
  descProgress (s.upNvm (fun v => { v with erase := some { o with done := o.done + 1 } })) o.desc (o.done + 1)

/-- 07 R173: whether a read has waited for SUSPLIM. -/
def readWaited (s : State) : Bool := s.nvm.readAt.any (fun k => decide (k + usTicks (suspLim s) ≤ s.uptime))

/-- 07 R173: a suspended erase. -/
def eraseSuspended (s : State) (o : FlashOp) : State :=
  descStatus ((((setFlcState s 3).wr FLC.SUSPDESC (BitVec.ofNat 32 o.desc)).wr FLC.CUR 0).upNvm
    (fun v => { v with eraseAt := s.uptime, quietAt := s.uptime, readAt := none })) o.desc 2

/-- 07 R173: an erase that goes on. -/
def eraseResumed (s : State) (o : FlashOp) : State :=
  descStatus ((((setFlcState s 2).wr FLC.SUSPDESC 0).wr FLC.CUR (BitVec.ofNat 32 o.desc)).upNvm (fun v => { v with eraseAt := s.uptime })) o.desc 1

section Erase
variable (herase : s.nvm.erase = some o)
include herase

/-- 07 R164, R173: a pulse in state ERASE: the verified one ends the erase, the 48th without verify fails it. -/
theorem exec_erasePulseDone {verified : Bool} (hstate : flcState s = 2) :
    exec (.erasePulseDone verified) s = let o2 := { o with done := o.done + 1 }
      let r := eraseDone (pulsed s o) o2
      .next (if verified then (setFlcState ((finishDesc r.2 o.desc 3 0 r.1).upNvm (fun v => { v with erase := none })) 0).wr FLC.CUR 0
        else if 48 ≤ o.done + 1 then (abandonErase (pulsed s o) o2 1 6).setBit FLC.ERR 1 true else pulsed s o) := by
  show execErasePulseDone verified s = _
  simp only [execErasePulseDone, herase, hstate, apply_ite Host.Outcome.next]
  rfl

theorem exec_eraseSuspend : exec .eraseSuspend s =
    if flcState s = 2 ∧ s.nvm.eraseAt + usTicks (minRun s) ≤ s.uptime ∧ (readWaited s || urgentRuns s) = true then .next (eraseSuspended s o)
    else .next s := by
  show execEraseSuspend s = _
  cases hread : s.nvm.readAt <;> simp only [execEraseSuspend, herase, readWaited, hread] <;> rfl

theorem exec_eraseResume : exec .eraseResume s =
    if flcState s = 3 ∧ ((s.nvm.quietAt + usTicks (suspLim s) ≤ s.uptime ∧ urgentRuns s = false) ∨
      s.nvm.eraseAt + usTicks (maxSusp s) ≤ s.uptime ∨ s.bit FLC.STATUS 4 = true) then .next (eraseResumed s o) else .next s := by
  show execEraseResume s = _
  simp only [execEraseResume, herase, Bool.and_eq_true, decide_eq_true_eq, Bool.not_eq_true']
  rfl

end Erase

/-! ### The read path -/

theorem exec_flashRead_clean (hf : f < 0x400000) : exec (.flashRead who f fetch .ok mir wait) s = let s2 := touch s (flashAt f)
    if sectorBlocked s2 (f / 0x4000) then .next (readServed s2 wait)
    else if readWaits s2 f then .next (noteWait s2) else .next (readServed (flashTouch s2 who (f / 32) fetch) wait) := by
  show execFlashRead who f fetch .ok mir wait s = _
  simp only [execFlashRead, Nat.mod_eq_of_lt hf, flashLine]
  cases sectorBlocked (touch s (flashAt f)) (f / 0x4000) <;> rfl

/-- 07 R167: the idle array reads the line after the last miss. -/
theorem leaves_flashPrefetch {l : Nat} (hmiss : s.nvm.miss = some l) (hon : s.bit FLC.CTRL 1 = true) (hidle : flcState s = 0 ∨ flcState s = 3)
    (hnew : s.nvm.pf.contains (l + 1) = false) (hin : 32 * (l + 1) < 0x400000) (hfree : sectorBlocked s (32 * (l + 1) / 0x4000) = false) :
    Leaves .flashPrefetch s (fun t => t.nvm.pf = lruTouch 4 (l + 1) s.nvm.pf ∧ t.nvm.miss = none ∧ t.regs = s.regs ∧ t.mem = s.mem) := by
  have hexec : exec .flashPrefetch s = .next (s.upNvm (fun v => { v with pf := lruTouch 4 (l + 1) v.pf, miss := none })) := by
    show execFlashPrefetch s = _
    simp only [execFlashPrefetch, hmiss]
    exact if_pos ⟨hon, hidle, by simp only [hnew]; decide, hin, by simp only [hfree]; decide⟩
  exact ⟨_, hexec, rfl, rfl, rfl, rfl⟩

/-! ### JREADY and MRAM writes -/

/-- 07 R172: the curtain lets only trusted firmware write FLC, and it sets JREADY. -/
theorem leaves_flashJreadySet (h : Reaches s who FLC.CTRL true) :
    Leaves (.flashJreadySet who v) s (fun t => t.bit FLC.CTRL 0 = true ∧ OnlyRegs s t [FLC.CTRL]) := by
  have htrusted : s.trusted who = true := curtain_trusted h.2 fun t ht => by rw [curtainBlocks, ht]; rfl
  have hrow : regRow FLC.CTRL = some { off := 0, reset := 6, rwt := 0xF } := by decide +kernel
  have hwrite : regWrite s who FLC.CTRL (vSet v 0) = (false, s.plainWrite FLC.CTRL (vSet v 0) (s.trusted who)) := rfl
  rw [htrusted, plainWrite_only _ _ hrow] at hwrite
  refine ⟨_, congrArg Host.Outcome.next (access_write h hwrite), ?_, onlyRegs_wr s (by simp) _⟩
  rw [State.bit, State.rd_wr_self, testB_toNat, getLsbD_codeWrite _ _ _ _ _ (by decide), ← testB_toNat, vset0]
  rfl

theorem foldl_setByte_nvm (l : List (Nat × Byte)) (s : State) : (l.foldl (fun (t : State) (x : Nat × Byte) => t.setByte x.1 x.2) s).nvm = s.nvm := by
  induction l generalizing s with
  | nil => rfl
  | cons x l ih => exact ih _

/-- 07 R179: the oldest buffered write leaves the buffer. -/
theorem leaves_mramWritePerform {e : Nat × List (Nat × Byte)} {l : List (Nat × List (Nat × Byte))} (h : s.nvm.mbuf = e :: l) :
    Leaves .mramWritePerform s (fun t => t.nvm.mbuf = l ∧ t.mem = (e.2.foldl (fun (s : State) (x : Nat × Byte) => s.setByte x.1 x.2) s).mem ∧
      t.bit MRC.STATUS 0 = !l.isEmpty) := by
  have hexec : exec .mramWritePerform s = .next ((mramPerform s e).setBit MRC.STATUS 0 (!l.isEmpty)) := by
    show execMramWritePerform s = _
    simp only [execMramWritePerform, h]
  refine ⟨_, hexec, ?_, rfl, State.bit_setBit_self _ _ _ (by decide)⟩
  show (e.2.foldl _ s).nvm.mbuf.erase e = l
  rw [foldl_setByte_nvm, h, List.erase_cons_head]

/-! ### The statement -/

/-- Settles O44: a descriptor that is taken ends with the code of the first check it fails, and starts where it fails none; the bursts, the
pulses, the suspensions and the reads then follow the operations that run. -/
theorem flashRunsItsDescriptors : Obligations.FlashRunsItsDescriptors := by
  unfold Obligations.FlashRunsItsDescriptors
  intro env who v d u s s1
  refine ⟨exec_awaitsJready, fun htakes hready => ⟨fun h => ?_, fun h => ?_, fun h => ?_, fun h => exec_flashRelease_journalErr htakes hready h⟩,
    fun htakes => ⟨fun h => ?_, fun h => ?_⟩, fun hprog h => ?_, fun o r hprog => ?_, fun o herase hstate => ?_, fun o herase hstate => ?_,
    fun f wait fetch mir hf => ?_, fun l => leaves_flashPrefetch, leaves_flashJreadySet, fun e l => leaves_mramWritePerform⟩
  · -- PROGRAM
    rw [exec_flashProgram_taken htakes hready h]
    exact ⟨fun hc => congrArg _ (if_pos hc), fun hc => congrArg _ (if_neg (not_not.2 hc))⟩
  · -- ERASE
    rw [exec_flashErase_taken htakes hready h]
    refine ⟨fun hbad => ?_, fun halign hin hlock hst hj => ?_⟩
    · rw [eraseRefusal_badAddr hbad, endedOr_refused (by decide)]
    · rw [endedOr_zero (eraseRefusal_none halign hin hlock hst hj)]
      rfl
  · -- RETIRE
    rw [exec_flashRetire_taken htakes hready h]
    refine ⟨fun hactive => ?_, fun hother hfree hj => ?_⟩
    · rw [retireRefusal_active hactive, endedOr_refused (by decide)]
    · rw [endedOr_zero (retireRefusal_none hother hfree hj)]
      rfl
  · -- EPOCH
    rw [exec_flashEpoch_taken htakes h]
    refine ⟨fun hsrc => by rw [if_pos hsrc], fun hsrc hfull => ?_, fun i bs hsrc hblank hsettled hfree herr hread hj => ?_⟩
    · rw [hsrc, hfull]
      rfl
    · rw [hsrc, hblank, Option.elim_some, endedOr_zero (epochRefusal_none hsettled hfree herr hread hj)]
      rfl
  · -- BLANKCHECK
    rw [exec_flashBlankcheck_taken htakes h]
    refine ⟨fun hbad => by rw [if_pos hbad], fun hrange hsettled hfree => ?_⟩
    rw [hrange, hsettled, hfree]
    refine ⟨fun hall => ?_, fun g hdirty => ?_⟩
    · rw [firstDirty_eq_none hall]
      rfl
    · rw [hdirty]
      rfl
  · -- ABORT
    rw [exec_flashAbort_taken hprog h]
    refine ⟨fun hu => by rw [if_pos hu], fun hu hnone => ?_, fun o hu hsome => ?_⟩
    · rw [hu, hnone]
      rfl
    · rw [hu, hsome]
      rfl
  · exact ⟨exec_progBurstDone_more hprog, exec_progBurstDone_failed hprog⟩
  · -- ERASE running
    refine ⟨fun hpulses => ?_, exec_erasePulseDone herase hstate, fun hrun hwhy => ?_, fun hearly => ?_⟩
    · rw [exec_erasePulseDone herase hstate]
      exact congrArg _ ((if_neg Bool.false_ne_true).trans (if_neg (by omega)))
    · have hdue : (readWaited s || urgentRuns s) = true := by
        rcases hwhy with hurgent | ⟨k, hk, hwaited⟩
        · simp [hurgent]
        · simp [readWaited, hk, hwaited]
      exact (exec_eraseSuspend herase).trans (if_pos ⟨hstate, hrun, hdue⟩)
    · exact (exec_eraseSuspend herase).trans (if_neg fun h => absurd h.2.1 (by omega))
  · -- ERASE suspended
    refine ⟨fun hwhy => (exec_eraseResume herase).trans (if_pos ⟨hstate, hwhy⟩), fun hurgent hmax hentry => ?_⟩
    refine (exec_eraseResume herase).trans (if_neg ?_)
    rintro ⟨-, ⟨-, hquiet⟩ | hlong | hrest⟩
    · simp [hurgent] at hquiet
    · omega
    · simp [hentry] at hrest
  · -- Reads
    dsimp only
    rw [exec_flashRead_clean hf]
    exact ⟨fun hblocked => if_pos hblocked, fun hopen hwaits => (if_neg (by simp [hopen])).trans (if_pos hwaits),
      fun hopen hserved => (if_neg (by simp [hopen])).trans (if_neg (by simp [hserved]))⟩

end Sys2Proof.FlashDescriptors
end

section
/-! PROOF. The receiver: demodulators between preamble and payload, their switches, gain control, changes of the capture values, and the
read of a time-stamp (08 R193 to R213).  A demodulator's moves touch its STAT and the status of the receiver alone, so the counts and the
measurements of its frame stand. -/
namespace Sys2Proof.ReceiveChain
open Sys2Proof.Machine Sys2Proof.Safety Sys2Proof.Reg

variable {s : State} {who : Nat} {v : Word} {n : Fin 64} {m : RxMeta}

/-! ### A demodulator that moves -/

/-- The registers that a demodulator does not touch as it moves: those of a channel but STAT, and those of FEC. -/
abbrev ApartFromMoves (a : Nat) : Prop := (a / 4096 = 0x30032 ∧ a % 64 ≠ 4) ∨ a / 4096 = 0x30035

/-- The registers of a channel that the receiver's commands name, but STAT. -/
abbrev channelRegs (n : Fin 64) : List Nat :=
  [CH.CH_CFG n, CH.CH_FLAGS n, CH.CH_RSSI n, CH.CH_FOFS n, CH.CH_TSLO n, CH.CH_CNT0 n, CH.CH_CNT1 n]

theorem channelRegs_place (n : Fin 64) : ∀ a ∈ channelRegs n, a / 4096 = 0x30032 ∧ a % 64 ≠ 4 := by
  have hn := n.isLt
  simp only [List.forall_mem_cons, CH.CH_CFG, CH.CH_FLAGS, CH.CH_RSSI, CH.CH_FOFS, CH.CH_TSLO, CH.CH_CNT0, CH.CH_CNT1, List.not_mem_nil, false_implies,
    implies_true, and_true]
  omega

theorem apartFromMoves {a : Nat} (h : a ∈ channelRegs n) : ApartFromMoves a := .inl (channelRegs_place n a h)

/-- A register of a channel is none of another block. -/
theorem channel_ne {a b : Nat} (ha : a ∈ channelRegs n) (hb : b / 4096 ≠ 0x30032) : a ≠ b := fun e => hb (e ▸ (channelRegs_place n a ha).1)

theorem demodState_setDemod (s : State) (n : Fin 64) {st : Nat} (h : st < 8) : demodState (setDemod s n st) n = st :=
  (setDemod_facts s n st).1.trans (Nat.mod_eq_of_lt h)

theorem rd_setDemod (s : State) (n : Fin 64) (st : Nat) {a : Nat} (h : ApartFromMoves a) : (setDemod s n st).rd a = s.rd a := setDemod_fld s n st h

theorem fld_setDemod (s : State) (n : Fin 64) (st : Nat) {a hi lo : Nat} (h : ApartFromMoves a) : (setDemod s n st).fld a hi lo = s.fld a hi lo :=
  fld_of_rd (rd_setDemod s n st h) hi lo

theorem gain_setDemod (s : State) (n : Fin 64) (st : Nat) : (setDemod s n st).fld (CH.CH_STAT n) 15 8 = s.fld (CH.CH_STAT n) 15 8 :=
  (setDemod_facts s n st).2.1

theorem mem_setDemod (s : State) (n : Fin 64) (st : Nat) : (setDemod s n st).mem = s.mem := by
  obtain ⟨-, -, -, hmem, -⟩ := setDemod_facts s n st
  exact hmem

theorem fec_setDemod (s : State) (n : Fin 64) (st : Nat) : (setDemod s n st).fec = s.fec := by
  obtain ⟨-, -, -, -, hfec, -⟩ := setDemod_facts s n st
  exact hfec

theorem demodFrame_setDemod (s : State) (n : Fin 64) (st : Nat) : demodFrame (setDemod s n st) n = demodFrame s n := by
  obtain ⟨-, -, -, -, -, hframes, -⟩ := setDemod_facts s n st
  exact demodFrame_of hframes n

/-- 08 R194: a demodulator that leaves its frame for SEARCH. -/
theorem backToSearch_facts (s : State) (n : Fin 64) : let t := setDemod (dropFrame s n) n 1
    demodState t n = 1 ∧ demodFrame t n = none ∧ (∀ hi lo, t.fld (CH.CH_CNT1 n) hi lo = s.fld (CH.CH_CNT1 n) hi lo) ∧ t.mem = s.mem := by
  obtain ⟨hnone, hrd, hmem⟩ := dropFrame_facts s n
  have hstatus : CH.CH_CNT1 n ≠ FEC.STATUS := channel_ne (n := n) (by simp) (by decide)
  exact ⟨demodState_setDemod _ n (by decide), (demodFrame_setDemod _ n 1).trans hnone,
    fun hi lo => (fld_setDemod _ n 1 (apartFromMoves (n := n) (by simp))).trans (fld_of_rd (hrd _ hstatus) hi lo), (mem_setDemod _ n 1).trans hmem⟩

/-! ### Preamble and sync word -/

/-- 08 R197: a preamble freezes the AGC. -/
def agcFrozen (s : State) : State :=
  if s.rxc.agc = .frozen then s else ((agcTo s .frozen).setFld RXC.AGCSTAT 31 16 0).upRxc (fun r => { r with frozenAt := s.uptime })

theorem agcFrozen_facts (s : State) : (∀ a, a / 4096 = 0x30032 → (agcFrozen s).rd a = s.rd a) ∧ (agcFrozen s).mem = s.mem ∧
    (agcFrozen s).rxc.frames = s.rxc.frames := by
  unfold agcFrozen
  split
  · exact ⟨fun _ _ => rfl, rfl, rfl⟩
  · obtain ⟨hmem, hframes, -⟩ := agcTo_rest s .frozen
    have hne : ∀ a, a / 4096 = 0x30032 → a ≠ RXC.AGCSTAT := fun a ha e => absurd (e ▸ ha) (by decide)
    exact ⟨fun a ha => (State.rd_setFld_ne _ (hne a ha) _ _ _).trans (agcTo_rd s .frozen ha), hmem, hframes⟩

/-- 08 R194, 09 R218: the frame that a demodulator begins at a preamble. -/
def frameBegun (s : State) (n : Fin 64) : RxMeta :=
  { demod := n, bin := demodBin s n, sun := s.bit RXC.STATUS 1, syncw := s.rd FEC.SYNCW,
    mode := if s.bit RXC.STATUS 1 then 4 + bitsOf s.rxc.sunCfg 1 0 else demodMode s n }

/-- 08 R194: a preamble, but for the move to PREAMBLE. -/
def preambleTaken (s : State) (n : Fin 64) (d : BitVec 8) : State :=
  (agcFrozen ((s.bump (CH.CH_CNT0 n) 15 0 1).upRxc
    (fun r => { r with frames := frameBegun s n :: r.frames.filter (fun x => x.demod != n.val) }))).setFld (CH.CH_STAT n) 15 8 d.toNat

theorem preambleTaken_facts (s : State) (n : Fin 64) (d : BitVec 8) : let t := preambleTaken s n d
    t.fld (CH.CH_CNT0 n) 15 0 = min (s.fld (CH.CH_CNT0 n) 15 0 + 1) 0xFFFF ∧ t.fld (CH.CH_STAT n) 15 8 = d.toNat ∧
    (demodFrame t n).isSome = true ∧ t.mem = s.mem := by
  obtain ⟨hrd, hmem, hframes⟩ := agcFrozen_facts ((s.bump (CH.CH_CNT0 n) 15 0 1).upRxc
    (fun r => { r with frames := frameBegun s n :: r.frames.filter (fun x => x.demod != n.val) }))
  refine ⟨?_, ?_, ?_, hmem⟩
  · refine (State.fld_setFld_ne _ (by simp) _ _ _ _ _).trans ((fld_of_rd (hrd _ (channelRegs_place n _ (by simp)).1) 15 0).trans ?_)
    exact State.fld_bump_self s _ (by decide) (by decide)
  · exact (State.fld_setFld_self _ _ _ (by decide) (by decide)).trans (Nat.mod_eq_of_lt d.isLt)
  · refine (congrArg Option.isSome (demodFrame_of hframes n)).trans ?_
    simp [demodFrame, State.upRxc, frameBegun]

theorem leaves_preambleDetected {k : Nat} {d : BitVec 8} (hready : s.bit RXC.STATUS 0 = true) (hsearch : demodState s n = 1) (hthr : detThr s n ≤ k) :
    Leaves (.preambleDetected n k d) s (fun t => demodState t n = 2 ∧ t.fld (CH.CH_CNT0 n) 15 0 = min (s.fld (CH.CH_CNT0 n) 15 0 + 1) 0xFFFF ∧
      t.fld (CH.CH_STAT n) 15 8 = d.toNat ∧ (demodFrame t n).isSome = true ∧ t.mem = s.mem) := by
  have hexec : exec (.preambleDetected n k d) s = .next (setDemod (preambleTaken s n d) n 2) := if_pos ⟨hready, hsearch, hthr⟩
  obtain ⟨hcount, hgain, hframe, hmem⟩ := preambleTaken_facts s n d
  exact ⟨_, hexec, demodState_setDemod _ n (by decide), (fld_setDemod _ n 2 (apartFromMoves (n := n) (by simp))).trans hcount, (gain_setDemod _ n 2).trans hgain,
    (congrArg Option.isSome (demodFrame_setDemod _ n 2)).trans hframe, (mem_setDemod _ n 2).trans hmem⟩

theorem exec_preambleDetected_weak {k : Nat} {d : BitVec 8} (h : k < detThr s n) : exec (.preambleDetected n k d) s = .next s :=
  if_neg fun hall => absurd hall.2.2 (by omega)

/-- 08 R201, R202: the registers of a sync word: its count, the frame's power and frequency offset, and the time-stamp. -/
def syncMeasured (s : State) (n : Fin 64) (x : SyncMeas) (ts : BitVec 64) : State :=
  (((s.bump (CH.CH_CNT0 n) 31 16 1).setFld (CH.CH_RSSI n) 9 0 x.rssi.val).setFld (CH.CH_FOFS n) 15 0 x.fofs.toNat).wr (CH.CH_TSLO n)
    (BitVec.ofNat 32 ts.toNat)

theorem syncMeasured_facts (s : State) (n : Fin 64) (x : SyncMeas) (ts : BitVec 64) : let t := syncMeasured s n x ts
    t.fld (CH.CH_CNT0 n) 31 16 = min (s.fld (CH.CH_CNT0 n) 31 16 + 1) 0xFFFF ∧ t.rd (CH.CH_TSLO n) = BitVec.ofNat 32 ts.toNat ∧
    t.fld (CH.CH_RSSI n) 9 0 = x.rssi.val ∧ t.fld (CH.CH_FOFS n) 15 0 = x.fofs.toNat := by
  refine ⟨?_, State.rd_wr_self _ _ _, ?_, ?_⟩
  · rw [syncMeasured, State.fld_wr_ne _ (by simp), State.fld_setFld_ne _ (by simp), State.fld_setFld_ne _ (by simp),
      State.fld_bump_self _ _ (by decide) (by decide)]
    rfl
  · rw [syncMeasured, State.fld_wr_ne _ (by simp), State.fld_setFld_ne _ (by simp), State.fld_setFld_self _ _ _ (by decide) (by decide)]
    exact Nat.mod_eq_of_lt (x.rssi.isLt.trans (by decide))
  · rw [syncMeasured, State.fld_wr_ne _ (by simp), State.fld_setFld_self _ _ _ (by decide) (by decide)]
    exact Nat.mod_eq_of_lt x.fofs.isLt

/-- 08 R202: the instant of a sync word with the group delay of the mode taken off. -/
def syncStamp (s : State) (m : RxMeta) (x : SyncMeas) : BitVec 64 := s.nt - BitVec.ofNat 64 x.back - BitVec.ofNat 64 (s.fld (RXC.GDLY m.mode) 15 0)

/-- A sync word that is found leaves its measurements, and the demodulator in HEADER. -/
theorem exec_syncFound {x : SyncMeas} (hframe : demodFrame s n = some m) (hstate : demodState s n = 2) (hsfd : sfdMatches s m x = true) :
    ∃ u, exec (.syncFound n x) s = .next (setDemod u n 3) ∧ u.regs = (syncMeasured s n x (syncStamp s m x)).regs ∧ u.mem = s.mem := by
  have hexec : exec (.syncFound n x) s = execSyncFound n x s := rfl
  rw [hexec, execSyncFound, hframe]
  have hmay : ¬ (demodState s n ≠ 2 ∨ sfdMatches s m x = false) := by simp [hstate, hsfd]
  exact ⟨_, if_neg hmay, cal_facts _ n x⟩

theorem leaves_syncFound {x : SyncMeas} (hframe : demodFrame s n = some m) (hstate : demodState s n = 2) (hsfd : sfdMatches s m x = true) :
    Leaves (.syncFound n x) s (fun t => demodState t n = 3 ∧ t.fld (CH.CH_CNT0 n) 31 16 = min (s.fld (CH.CH_CNT0 n) 31 16 + 1) 0xFFFF ∧
      t.rd (CH.CH_TSLO n) = BitVec.ofNat 32 (syncStamp s m x).toNat ∧ t.fld (CH.CH_RSSI n) 9 0 = x.rssi.val ∧
      t.fld (CH.CH_FOFS n) 15 0 = x.fofs.toNat ∧ t.mem = s.mem) := by
  obtain ⟨u, hexec, hregs, hmem⟩ := exec_syncFound hframe hstate hsfd
  obtain ⟨hcount, hstamp, hrssi, hfofs⟩ := syncMeasured_facts s n x (syncStamp s m x)
  have hrd : ∀ a ∈ channelRegs n, (setDemod u n 3).rd a = (syncMeasured s n x (syncStamp s m x)).rd a :=
    fun a ha => (rd_setDemod u n 3 (apartFromMoves ha)).trans (congrArg (sparseGet regReset · a) hregs)
  exact ⟨_, hexec, demodState_setDemod u n (by decide), (fld_of_rd (hrd _ (by simp)) _ _).trans hcount, (hrd _ (by simp)).trans hstamp,
    (fld_of_rd (hrd _ (by simp)) _ _).trans hrssi, (fld_of_rd (hrd _ (by simp)) _ _).trans hfofs, (mem_setDemod u n 3).trans hmem⟩

theorem leaves_syncWindowTimeout {k : Nat} (hstate : demodState s n = 2) (hwin : syncWin s n ≤ k) :
    Leaves (.syncWindowTimeout n k) s (fun t => demodState t n = 1 ∧ demodFrame t n = none ∧ t.mem = s.mem) := by
  obtain ⟨hsearch, hnone, -, hmem⟩ := backToSearch_facts s n
  exact ⟨_, if_pos ⟨hstate, hwin⟩, hsearch, hnone, hmem⟩

theorem exec_syncWindowTimeout_early {k : Nat} (h : k < syncWin s n) : exec (.syncWindowTimeout n k) s = .next s :=
  if_neg fun hall => absurd hall.2 (by omega)

/-! ### Header and payload -/

/-- 08 R194: a header that fails is counted. -/
theorem headerFails_facts (s : State) (n : Fin 64) : let t := headerFails s n
    demodState t n = 1 ∧ demodFrame t n = none ∧ t.fld (CH.CH_CNT1 n) 15 0 = min (s.fld (CH.CH_CNT1 n) 15 0 + 1) 0xFFFF ∧ t.mem = s.mem := by
  obtain ⟨hsearch, hnone, hcount, hmem⟩ := backToSearch_facts (s.bump (CH.CH_CNT1 n) 15 0 1) n
  exact ⟨hsearch, hnone, (hcount 15 0).trans (State.fld_bump_self s _ (by decide) (by decide)), hmem⟩

theorem exec_headerDecision {soft : List Int} (hframe : demodFrame s n = some m) (hstate : demodState s n = 3) :
    (m.sun = true → exec (.headerDecision n soft) s = .next (sunHeader s n m soft)) ∧
    (m.sun = false → exec (.headerDecision n soft) s = .next (cnbHeader { s with free := s.free + 2 } n m s.free soft)) := by
  have hexec : exec (.headerDecision n soft) s =
      if m.sun then .next (sunHeader s n m soft) else .next (cnbHeader { s with free := s.free + 2 } n m s.free soft) := by
    show execHeaderDecision n soft s = _
    rw [execHeaderDecision, hframe]
    exact if_neg (not_not.2 hstate)
  exact ⟨fun h => hexec.trans (if_pos h), fun h => hexec.trans (if_neg (by simp [h]))⟩

/-- 09 R221: the corrected bits of a CNB header are counted before it is judged. -/
def headerCounted (s : State) (soft : List Int) : State :=
  ({ s with free := s.free + 2 } : State).bump FEC.HDRCNT 31 16 (headerCorrected soft (headerDecode s.free soft))

theorem fld_headerCounted (s : State) (soft : List Int) : (headerCounted s soft).fld FEC.HDRCNT 15 0 = s.fld FEC.HDRCNT 15 0 :=
  State.fld_setFld_apart { s with free := s.free + 2 } _ _ (by decide) (by decide) (by decide)

theorem fld_upFrame (s : State) (n : Nat) (f : RxMeta → RxMeta) (a hi lo : Nat) : (upFrame s n f).fld a hi lo = s.fld a hi lo := rfl

theorem cnbHeader_passes {soft : List Int} (h : headerOk m.mode (headerDecode s.free soft) = true) :
    ∃ f, cnbHeader { s with free := s.free + 2 } n m s.free soft = setDemod (upFrame ((headerCounted s soft).bump FEC.HDRCNT 15 0 1) n f) n 4 :=
  ⟨_, if_pos h⟩

theorem cnbHeader_fails {soft : List Int} (h : headerOk m.mode (headerDecode s.free soft) = false) :
    cnbHeader { s with free := s.free + 2 } n m s.free soft = headerFails (headerCounted s soft) n :=
  if_neg (by simp [h])

theorem sunHeader_passes {soft : List Int} (h : phrSwitch (sunDecode m.coded (testB s.rxc.sunCfg.toNat 2) soft) = false) :
    ∃ f, sunHeader s n m soft = setDemod (upFrame s n f) n 4 :=
  ⟨_, if_neg (by simp [h])⟩

theorem leaves_headerDecision_cnb {soft : List Int} (hframe : demodFrame s n = some m) (hstate : demodState s n = 3) (hsun : m.sun = false)
    (hok : headerOk m.mode (headerDecode s.free soft) = true) :
    Leaves (.headerDecision n soft) s (fun t => demodState t n = 4 ∧ t.fld FEC.HDRCNT 15 0 = min (s.fld FEC.HDRCNT 15 0 + 1) 0xFFFF ∧ t.mem = s.mem) := by
  obtain ⟨f, hpass⟩ := cnbHeader_passes (n := n) hok
  have hexec := (exec_headerDecision (soft := soft) hframe hstate).2 hsun
  rw [hpass] at hexec
  refine ⟨_, hexec, demodState_setDemod _ n (by decide), ?_, mem_setDemod _ n 4⟩
  rw [fld_setDemod _ n 4 (by decide), fld_upFrame, State.fld_bump_self _ _ (by decide) (by decide), fld_headerCounted]
  rfl

theorem leaves_headerDecision_fails {soft : List Int} (hframe : demodFrame s n = some m) (hstate : demodState s n = 3)
    (hbad : (m.sun = false ∧ headerOk m.mode (headerDecode s.free soft) = false) ∨
      (m.sun = true ∧ phrSwitch (sunDecode m.coded (testB s.rxc.sunCfg.toNat 2) soft) = true)) :
    Leaves (.headerDecision n soft) s (fun t => demodState t n = 1 ∧ demodFrame t n = none ∧
      t.fld (CH.CH_CNT1 n) 15 0 = min (s.fld (CH.CH_CNT1 n) 15 0 + 1) 0xFFFF ∧ t.mem = s.mem) := by
  obtain ⟨hsunFrame, hcnbFrame⟩ := exec_headerDecision (soft := soft) hframe hstate
  rcases hbad with ⟨hsun, hbad⟩ | ⟨hsun, hswitch⟩
  · obtain ⟨hsearch, hnone, hcount, hmem⟩ := headerFails_facts (headerCounted s soft) n
    have hcnt1 : CH.CH_CNT1 n ≠ FEC.HDRCNT := channel_ne (n := n) (by simp) (by decide)
    have hsame : (headerCounted s soft).fld (CH.CH_CNT1 n) 15 0 = s.fld (CH.CH_CNT1 n) 15 0 := fld_of_rd (State.rd_bump_ne _ hcnt1 _ _ _) _ _
    exact ⟨_, (hcnbFrame hsun).trans (congrArg _ (cnbHeader_fails hbad)), hsearch, hnone, by rw [hcount, hsame], hmem⟩
  · have hfails : sunHeader s n m soft = headerFails s n := if_pos hswitch
    exact ⟨_, (hsunFrame hsun).trans (congrArg _ hfails), headerFails_facts s n⟩

theorem leaves_headerDecision_sun {soft : List Int} (hframe : demodFrame s n = some m) (hstate : demodState s n = 3) (hsun : m.sun = true)
    (hok : phrSwitch (sunDecode m.coded (testB s.rxc.sunCfg.toNat 2) soft) = false) :
    Leaves (.headerDecision n soft) s (fun t => demodState t n = 4 ∧ t.mem = s.mem) := by
  obtain ⟨f, hpass⟩ := sunHeader_passes (n := n) hok
  have hexec := (exec_headerDecision (soft := soft) hframe hstate).1 hsun
  rw [hpass] at hexec
  exact ⟨_, hexec, demodState_setDemod _ n (by decide), mem_setDemod _ n 4⟩

/-- 08 R195: a SUN-FSK frame whose last symbol is captured joins the frames of FEC. -/
def sunJoins (f : Fec) (n : Fin 64) (m : RxMeta) : List FecFrame :=
  ((f.frames ++ [({ id := f.next, m := m } : FecFrame)]).filter (fun x => !(x.m.demod == n.val && x.m.ts == m.ts && x.failed))).map (fun x =>
    if x.m.demod = n.val ∧ x.m.ts = m.ts then { x with m := m } else x)

theorem mem_sunJoins (f : Fec) (n : Fin 64) (m : RxMeta) : ({ id := f.next, m := m } : FecFrame) ∈ sunJoins f n m := by
  refine List.mem_map.2 ⟨{ id := f.next, m := m }, List.mem_filter.2 ⟨?_, ?_⟩, ite_self _⟩
  · exact List.mem_append_right _ List.mem_cons_self
  · simp

/-- 08 R195: its demodulator forgets the frame. -/
def sunHandedOver (s : State) (n : Fin 64) (m : RxMeta) : State :=
  (s.upFec (fun f => { f with frames := sunJoins f n m, next := f.next + 1 })).upRxc
    (fun r => { r with frames := r.frames.filter (fun x => x.demod != n.val) })

theorem demodFrame_sunHandedOver (s : State) (n : Fin 64) (m : RxMeta) : demodFrame (sunHandedOver s n m) n = none := by
  have hsame : (sunHandedOver s n m).rxc.frames = (dropFrame s n).rxc.frames := rfl
  exact (demodFrame_of hsame n).trans (dropFrame_facts s n).1

theorem fecStatus_frames (s : State) : (fecStatus s).rxc.frames = s.rxc.frames := rfl

theorem exec_payloadCaptured_sun {rest : List (List (List Int))} (hframe : demodFrame s n = some m) (hstate : demodState s n = 4)
    (hsun : m.sun = true) :
    exec (.payloadCaptured n rest) s = .next (fecStatus (setDemod ((sunHandedOver s n m).bump (CH.CH_CNT1 n) 31 16 1) n 1)) := by
  show execPayloadCaptured n rest s = _
  rw [execPayloadCaptured, hframe]
  refine (if_neg (not_not.2 hstate)).trans ?_
  rw [if_pos hsun]
  rfl

theorem leaves_payloadCaptured_sun {rest : List (List (List Int))} (hframe : demodFrame s n = some m) (hstate : demodState s n = 4)
    (hsun : m.sun = true) :
    Leaves (.payloadCaptured n rest) s (fun t => demodState t n = 1 ∧ demodFrame t n = none ∧
      t.fld (CH.CH_CNT1 n) 31 16 = min (s.fld (CH.CH_CNT1 n) 31 16 + 1) 0xFFFF ∧ (∃ f ∈ t.fec.frames, f.id = s.fec.next ∧ f.m = m) ∧ t.mem = s.mem) := by
  have hcount : ((sunHandedOver s n m).bump (CH.CH_CNT1 n) 31 16 1).fld (CH.CH_CNT1 n) 31 16 = min (s.fld (CH.CH_CNT1 n) 31 16 + 1) 0xFFFF :=
    State.fld_bump_self (sunHandedOver s n m) _ (by decide) (by decide)
  obtain ⟨hrd, hmem, hfec, -⟩ := fecStatus_facts (setDemod ((sunHandedOver s n m).bump (CH.CH_CNT1 n) 31 16 1) n 1)
  have hstat : CH.CH_STAT n ≠ FEC.STATUS := by
    have := n.isLt
    simp only [CH.CH_STAT, FEC.STATUS]
    omega
  refine ⟨_, exec_payloadCaptured_sun hframe hstate hsun, ?_, ?_, ?_, ⟨{ id := s.fec.next, m := m }, ?_, rfl, rfl⟩, hmem.trans (mem_setDemod _ n 1)⟩
  · exact (fld_of_rd (hrd _ hstat) 2 0).trans (demodState_setDemod _ n (by decide))
  · rw [demodFrame_of (fecStatus_frames _), demodFrame_setDemod, demodFrame_of (congrArg Rxc.frames (State.bump_rxc _ _ _ _ _)), demodFrame_sunHandedOver]
  · exact (fld_of_rd (hrd _ (channel_ne (n := n) (by simp) (by decide))) 31 16).trans ((fld_setDemod _ n 1 (apartFromMoves (n := n) (by simp))).trans hcount)
  · rw [hfec, fec_setDemod]
    exact mem_sunJoins s.fec n m

/-! ### The switch of a demodulator -/

theorem access_chCfg (h : Reaches s who (CH.CH_CFG n) true) : s.access who (CH.CH_CFG n) (some v) = chCfgWrite s n v :=
  access_write h (regWrite_chcfgr s who v n)

theorem testB_and (v w : Word) (i : Nat) : testB (v &&& w).toNat i = (testB v.toNat i && testB w.toNat i) := by
  rw [testB_toNat, testB_toNat, testB_toNat, BitVec.getLsbD_and]

theorem chCfgWrite_refused (hoff : demodOn s n = false) (hen : testB v.toNat 12 = true) (hno : demodMayStart s n v = false) :
    chCfgWrite s n v = (s.wr (CH.CH_CFG n) (v &&& 0x77F)).setBit (CH.CH_FLAGS n) 4 true := by
  simp [chCfgWrite, hoff, hen, hno]

/-- 08 R193: an enabled demodulator listens at once where the receiver is ready and NARROW. -/
theorem chCfgWrite_starts (hoff : demodOn s n = false) (hen : testB v.toNat 12 = true) (hmay : demodMayStart s n v = true)
    (hready : s.bit RXC.STATUS 0 = true) (hnarrow : s.bit RXC.STATUS 1 = false) (hidle : demodState s n = 0) :
    chCfgWrite s n v = demodListen (s.wr (CH.CH_CFG n) (v &&& 0x177F)) n := by
  have hstatus : RXC.STATUS ≠ CH.CH_CFG n := (channel_ne (n := n) (by simp) (by decide)).symm
  have hon : (s.wr (CH.CH_CFG n) (v &&& 0x177F)).bit (CH.CH_CFG n) 12 = true := by
    rw [State.bit, State.rd_wr_self, testB_and, hen]
    rfl
  have hstate : demodState (s.wr (CH.CH_CFG n) (v &&& 0x177F)) n = 0 := (State.fld_wr_ne s (by simp) _ _ _).trans hidle
  have hserves : demodServes (s.wr (CH.CH_CFG n) (v &&& 0x177F)) n = true := by
    rw [demodServes, State.bit_wr_ne s hstatus, hnarrow]
    exact hon
  simp only [chCfgWrite, hoff, hen, hmay, Bool.false_eq_true, if_false, if_true]
  exact if_pos ⟨(State.bit_wr_ne s hstatus _ _).trans hready, hserves, hstate⟩

/-- 08 R194: a demodulator in SEARCH whose EN is cleared, with its bin and mode as they were, turns OFF. -/
theorem chCfgWrite_stops (hon : demodOn s n = true) (hsearch : demodState s n = 1) (hnarrow : s.bit RXC.STATUS 1 = false)
    (hbin : bitsOf v 6 0 = demodBin s n) (hmode : bitsOf v 10 8 = demodMode s n) (hen : testB v.toNat 12 = false) :
    chCfgWrite s n v = setDemod (s.setBit (CH.CH_CFG n) 12 false) n 0 := by
  have hstatus : RXC.STATUS ≠ CH.CH_CFG n := (channel_ne (n := n) (by simp) (by decide)).symm
  have hkept : discardFrame s 3 0 n = s := by simp [discardFrame, demodBusy, hsearch]
  have hstate : demodState (s.setBit (CH.CH_CFG n) 12 false) n = 1 := (State.fld_setBit_ne s (by simp) _ _ _ _).trans hsearch
  simp [chCfgWrite, hon, hbin, hmode, hen, hkept, State.bit_setBit_ne s hstatus, hnarrow, hstate]

theorem leaves_demodEnable_refused (h : Reaches s who (CH.CH_CFG n) true) (hoff : demodOn s n = false) (hno : demodMayStart s n (vSet v 12) = false) :
    Leaves (.demodEnable who n v) s (fun t => demodOn t n = false ∧ t.bit (CH.CH_FLAGS n) 4 = true ∧ OnlyRegs s t [CH.CH_CFG n, CH.CH_FLAGS n]) := by
  have hen : testB (vSet v 12).toNat 12 = true := by simp [testB_vSet]
  refine ⟨_, congrArg Host.Outcome.next ((access_chCfg h).trans (chCfgWrite_refused hoff hen hno)), ?_, State.bit_setBit_self _ _ _ (by decide),
    onlyRegs_trans (onlyRegs_wr s (by simp) _) (onlyRegs_wr _ (by simp) _) fun _ hb => hb⟩
  rw [demodOn, State.bit_setBit_ne _ (by simp), State.bit, State.rd_wr_self, testB_and]
  exact Bool.and_false _

theorem leaves_demodEnable (h : Reaches s who (CH.CH_CFG n) true) (hoff : demodOn s n = false) (hmay : demodMayStart s n (vSet v 12) = true)
    (hready : s.bit RXC.STATUS 0 = true) (hnarrow : s.bit RXC.STATUS 1 = false) (hidle : demodState s n = 0) :
    Leaves (.demodEnable who n v) s (fun t => demodOn t n = true ∧ demodState t n = 1 ∧ demodBin t n = bitsOf v 6 0 ∧ t.mem = s.mem) := by
  have hen : testB (vSet v 12).toNat 12 = true := by simp [testB_vSet]
  let u := s.wr (CH.CH_CFG n) (vSet v 12 &&& 0x177F)
  have hcfg : (demodListen u n).rd (CH.CH_CFG n) = vSet v 12 &&& 0x177F :=
    (rd_setDemod _ n 1 (apartFromMoves (n := n) (by simp))).trans (State.rd_wr_self s _ _)
  refine ⟨_, congrArg Host.Outcome.next ((access_chCfg h).trans (chCfgWrite_starts hoff hen hmay hready hnarrow hidle)), ?_,
    demodState_setDemod _ n (by decide), ?_, mem_setDemod _ n 1⟩
  · rw [demodOn, State.bit, hcfg, testB_and, hen]
    rfl
  · rw [demodBin, State.fld, hcfg, bitsOf_and _ _ _ _ (by decide), bitsOf_vSet _ _ _ _ (by decide) (by decide)]

theorem leaves_demodDisable (h : Reaches s who (CH.CH_CFG n) true) (hon : demodOn s n = true) (hsearch : demodState s n = 1)
    (hnarrow : s.bit RXC.STATUS 1 = false) (hbin : bitsOf v 6 0 = demodBin s n) (hmode : bitsOf v 10 8 = demodMode s n) :
    Leaves (.demodDisable who n v) s (fun t => demodOn t n = false ∧ demodState t n = 0 ∧ t.mem = s.mem) := by
  have hen : testB (vClr v 12).toNat 12 = false := by simp [testB_vClr]
  have hstops := chCfgWrite_stops hon hsearch hnarrow ((bitsOf_vClr v 12 6 0 (by decide) (by decide)).trans hbin)
    ((bitsOf_vClr v 12 10 8 (by decide) (by decide)).trans hmode) hen
  refine ⟨_, congrArg Host.Outcome.next ((access_chCfg h).trans hstops), ?_, demodState_setDemod _ n (by decide), mem_setDemod _ n 0⟩
  rw [demodOn, State.bit, rd_setDemod _ n 0 (apartFromMoves (n := n) (by simp))]
  exact State.bit_setBit_self s _ _ (by decide)

/-! ### Gain control -/

/-- 08 R197: a measurement that completes no average of bin power. -/
theorem exec_agcMeasurement_track {p : Int} {k : Nat} (htrack : s.rxc.agc = .track) :
    exec (.agcMeasurement p k []) s = .next (agcTrack s p (decide (orIfZero 1 (s.fld RXC.AGCCFG 19 16) ≤ k))) := by
  show execAgcMeasurement p k [] s = _
  simp only [execAgcMeasurement, List.foldl_nil, htrack]
  rfl

theorem exec_agcMeasurement_hold {p : Int} {k : Nat} (hhold : s.rxc.agc = .hold) : exec (.agcMeasurement p k []) s = .next s := by
  show execAgcMeasurement p k [] s = _
  simp only [execAgcMeasurement, List.foldl_nil, hhold]

theorem exec_agcMeasurement_unclipped {p : Int} {k : Nat} (hfrozen : s.rxc.agc = .frozen) (hfew : k < orIfZero 1 (s.fld RXC.AGCCFG 19 16)) :
    exec (.agcMeasurement p k []) s = .next s := by
  show execAgcMeasurement p k [] s = _
  simp only [execAgcMeasurement, List.foldl_nil, hfrozen]
  exact if_neg fun hclip => absurd (of_decide_eq_true hclip) (not_le.2 hfew)

theorem leaves_agcMeasurement_clipped {p : Int} {k : Nat} (htrack : s.rxc.agc = .track) (hclip : orIfZero 1 (s.fld RXC.AGCCFG 19 16) ≤ k) :
    Leaves (.agcMeasurement p k []) s (fun t => t.fld RXC.AGCSTAT 4 0 = s.fld RXC.AGCSTAT 4 0 - 12 ∧ OnlyRegs s t [RXC.AGCSTAT]) := by
  have hgain : s.fld RXC.AGCSTAT 4 0 < 32 := bitsOf_lt _ _ _
  have hstep : agcTrack s p (decide (orIfZero 1 (s.fld RXC.AGCCFG 19 16) ≤ k)) =
      s.setFld RXC.AGCSTAT 4 0 (s.fld RXC.AGCSTAT 4 0 - min 12 (s.fld RXC.AGCSTAT 4 0)) := if_pos (decide_eq_true hclip)
  refine ⟨_, (exec_agcMeasurement_track htrack).trans (congrArg _ hstep), ?_, onlyRegs_setFld s _ _ _ _⟩
  rw [State.fld_setFld_self _ _ _ (by decide) (by decide)]
  omega

/-! ### The switch of the receiver and APPLY -/

theorem access_rxcCtrl (h : Reaches s who RXC.CTRL true) : s.access who RXC.CTRL (some v) = rxcCtrlWrite s v := access_write h rfl

/-- 08 R205: a write that leaves EN as it is and sets APPLY. -/
theorem rxcCtrlWrite_applies (hen : testB v.toNat 0 = s.bit RXC.CTRL 0) (happly : testB v.toNat 2 = true) :
    rxcCtrlWrite s v = rxcApply (s.wr RXC.CTRL (v &&& 0xB)) := by
  rw [rxcCtrlWrite, hen, happly]
  cases s.bit RXC.CTRL 0 <;> rfl

/-- 08 R211: a write that sets EN where no transmission is in progress. -/
theorem rxcCtrlWrite_starts (hwas : s.bit RXC.CTRL 0 = false) (hblank : s.bit RXC.STATUS 4 = false) (hen : testB v.toNat 0 = true)
    (happly : testB v.toNat 2 = false) (hwanted : receiverWanted (s.wr RXC.CTRL (v &&& 0xB)) = true) :
    rxcCtrlWrite s v = receiverStart (s.wr RXC.CTRL (v &&& 0xB)) := by
  have hfree : (s.wr RXC.CTRL (v &&& 0xB)).bit RXC.STATUS 4 = false := (State.bit_wr_ne s (by decide) _ _).trans hblank
  simp only [rxcCtrlWrite, hwas, hen, happly, hfree, hwanted, Bool.false_eq_true, not_false_eq_true, not_true_eq_false, and_self, or_self, if_true, if_false]

/-- 08 R205: a write that clears EN where nothing else wants the receiver. -/
theorem rxcCtrlWrite_stops (hwas : s.bit RXC.CTRL 0 = true) (hen : testB v.toNat 0 = false) (happly : testB v.toNat 2 = false)
    (hidle : receiverWanted (s.wr RXC.CTRL (v &&& 0xB)) = false) : rxcCtrlWrite s v = receiverStop (s.wr RXC.CTRL (v &&& 0xB)) := by
  simp only [rxcCtrlWrite, hwas, hen, happly, hidle, Bool.false_eq_true, false_and, not_false_eq_true, and_self, if_true, if_false]

theorem applyOutcome_waits (hblank : s.bit RXC.STATUS 4 = false) (hbusy : busyCnt s ≠ 0) (hforce : s.bit RXC.CTRL 3 = false) :
    applyOutcome s = s.setBit RXC.STATUS 2 true := by
  simp [applyOutcome, hblank, hbusy, hforce]

theorem applyOutcome_now (hblank : s.bit RXC.STATUS 4 = false) (hfree : busyCnt s = 0) : applyOutcome s = applyNow s := by
  simp [applyOutcome, hblank, hfree]

/-- 08 R205: an APPLY that is accepted, before its outcome: CFGERR clears and the staged values are kept. -/
def applyAccepted (u : State) : State := (u.setBit RXC.STATUS 6 false).upRxc (fun r => { r with want := some (staged u) })

theorem applyAccepted_facts (s : State) (w : Word) : let u := applyAccepted (s.wr RXC.CTRL w)
    u.bit RXC.STATUS 4 = s.bit RXC.STATUS 4 ∧ busyCnt u = busyCnt s ∧ u.rd RXC.CTRL = w := by
  refine ⟨?_, ?_, ?_⟩
  · exact (State.bit_setBit_apart _ _ _ (by decide) (by decide)).trans (State.bit_wr_ne s (by decide) _ _)
  · exact (State.fld_setBit_apart _ _ _ (by decide) (by decide)).trans (State.fld_wr_ne s (by decide) _ _ _)
  · exact (State.rd_setBit_ne _ (by decide) _ _).trans (State.rd_wr_self s _ _)

theorem exec_rxcApply (h : Reaches s who RXC.CTRL true) (hen : v.getLsbD 0 = s.bit RXC.CTRL 0) :
    exec (.rxcApply who v) s = .next (rxcApply (s.wr RXC.CTRL (vSet v 2 &&& 0xB))) := by
  refine congrArg Host.Outcome.next ((access_rxcCtrl h).trans (rxcCtrlWrite_applies ?_ ?_))
  · rw [testB_vSet _ _ _ (by decide), testB_toNat, hen]
    exact Bool.or_false _
  · simp [testB_vSet]

theorem rxcApply_accepted (h : applyInRange s = true) : rxcApply s = applyOutcome (applyAccepted s) := if_neg (by simp [h])

theorem exec_rxcApply_refused (h : Reaches s who RXC.CTRL true) (hen : v.getLsbD 0 = s.bit RXC.CTRL 0)
    (hout : applyInRange (s.wr RXC.CTRL (vSet v 2 &&& 0xB)) = false) :
    exec (.rxcApply who v) s = .next ((s.wr RXC.CTRL (vSet v 2 &&& 0xB)).setBit RXC.STATUS 6 true) :=
  (exec_rxcApply h hen).trans (congrArg _ (if_pos (by rw [hout]; rfl)))

theorem exec_rxcApply_waits (h : Reaches s who RXC.CTRL true) (hen : v.getLsbD 0 = s.bit RXC.CTRL 0)
    (hin : applyInRange (s.wr RXC.CTRL (vSet v 2 &&& 0xB)) = true) (hblank : s.bit RXC.STATUS 4 = false) (hbusy : busyCnt s ≠ 0)
    (hforce : v.getLsbD 3 = false) :
    exec (.rxcApply who v) s = .next ((applyAccepted (s.wr RXC.CTRL (vSet v 2 &&& 0xB))).setBit RXC.STATUS 2 true) := by
  obtain ⟨hstatus, hcount, hctrl⟩ := applyAccepted_facts s (vSet v 2 &&& 0xB)
  have hforce' : (applyAccepted (s.wr RXC.CTRL (vSet v 2 &&& 0xB))).bit RXC.CTRL 3 = false := by
    rw [State.bit, hctrl, testB_and, testB_vSet _ _ _ (by decide), testB_toNat, hforce]
    rfl
  rw [exec_rxcApply h hen, rxcApply_accepted hin, applyOutcome_waits (hstatus.trans hblank) (hcount.trans_ne hbusy) hforce']

theorem exec_rxcApply_now (h : Reaches s who RXC.CTRL true) (hen : v.getLsbD 0 = s.bit RXC.CTRL 0)
    (hin : applyInRange (s.wr RXC.CTRL (vSet v 2 &&& 0xB)) = true) (hblank : s.bit RXC.STATUS 4 = false) (hfree : busyCnt s = 0) :
    exec (.rxcApply who v) s = .next (applyNow (applyAccepted (s.wr RXC.CTRL (vSet v 2 &&& 0xB)))) := by
  obtain ⟨hstatus, hcount, -⟩ := applyAccepted_facts s (vSet v 2 &&& 0xB)
  rw [exec_rxcApply h hen, rxcApply_accepted hin, applyOutcome_now (hstatus.trans hblank) (hcount.trans hfree)]

theorem exec_rxcApplyPendingDone (hpend : s.bit RXC.STATUS 2 = true) (hfree : busyCnt s = 0) (hblank : s.bit RXC.STATUS 4 = false) :
    exec .rxcApplyPendingDone s = .next (applyNow s) :=
  if_pos ⟨hpend, hfree, by simp [hblank]⟩

theorem exec_rxcSwitchDone (h : s.bit RXC.STATUS 3 = true) :
    exec .rxcSwitchDone s = .next (receiverReady (rxcEvent (s.setBit RXC.STATUS 3 false) 2)) :=
  congrArg Host.Outcome.next (if_pos h)

theorem exec_receiverEnable (h : Reaches s who RXC.CTRL true) (hwas : s.bit RXC.CTRL 0 = false) (hblank : s.bit RXC.STATUS 4 = false)
    (happly : v.getLsbD 2 = false) (hwanted : receiverWanted (s.wr RXC.CTRL (vSet v 0 &&& 0xB)) = true) :
    exec (.receiverEnable who v) s = .next (receiverStart (s.wr RXC.CTRL (vSet v 0 &&& 0xB))) := by
  refine congrArg Host.Outcome.next ((access_rxcCtrl h).trans (rxcCtrlWrite_starts hwas hblank (vset0 v) ?_ hwanted))
  rw [testB_vSet _ _ _ (by decide), testB_toNat, happly]
  rfl

theorem exec_receiverDisable (h : Reaches s who RXC.CTRL true) (hwas : s.bit RXC.CTRL 0 = true) (happly : v.getLsbD 2 = false)
    (hidle : receiverWanted (s.wr RXC.CTRL (vClr v 0 &&& 0xB)) = false) :
    exec (.receiverDisable who v) s = .next (receiverStop (s.wr RXC.CTRL (vClr v 0 &&& 0xB))) := by
  refine congrArg Host.Outcome.next ((access_rxcCtrl h).trans (rxcCtrlWrite_stops hwas ?_ ?_ hidle))
  · simp [testB_vClr]
  · rw [testB_vClr _ _ _ (by decide), testB_toNat, happly]
    rfl

/-- 08 R209, R205: the receiver returns, and an APPLY that the transmission has held up has its outcome. -/
theorem exec_receiverReturn (hblank : s.bit RXC.STATUS 4 = true) (hjob : s.txc.job = none) : exec .receiverReturn s =
    let u := receiverReady (s.setBit RXC.STATUS 4 false)
    .next (if s.rxc.applyHeld then applyOutcome (u.upRxc (fun r => { r with applyHeld := false })) else u) := by
  have hheld : (receiverReady (s.setBit RXC.STATUS 4 false)).rxc.applyHeld = s.rxc.applyHeld := receiverReady_held _
  have hexec : exec .receiverReturn s = _ := if_pos ⟨hblank, by simp [hjob]⟩
  rw [hexec, hheld]

/-! ### Time-stamps -/

theorem tsloLatch_stamped {ts : BitVec 64} (h : s.rxc.stamps.find? (fun e => e.1 == n.val) = some (n.val, ts)) :
    tsloLatch s n = s.wr (CH.CH_TSHI n) (BitVec.ofNat 32 (ts.toNat / 2 ^ 32)) := by
  simp only [tsloLatch, h]

theorem leaves_tsloRead {ts : BitVec 64} (h : Reaches s who (CH.CH_TSLO n) false)
    (hstamp : s.rxc.stamps.find? (fun e => e.1 == n.val) = some (n.val, ts)) :
    Leaves (.tsloRead who n) s (fun t => t.rdata = s.rd (CH.CH_TSLO n) ∧ t.rd (CH.CH_TSHI n) = BitVec.ofNat 32 (ts.toNat / 2 ^ 32) ∧
      OnlyRegs s t [CH.CH_TSHI n]) := by
  have hread := access_read h
  rw [regRead_tslo, tsloLatch_stamped hstamp] at hread
  exact ⟨_, congrArg Host.Outcome.next hread, State.rd_wr_ne s (by simp) _, State.rd_wr_self s _ _, onlyRegs_wr s (by simp) _⟩

/-! ### The statement -/

/-- Settles O45: each command of the receiver leaves what its own rule above says; a demodulator's moves touch its STAT and the receiver's
status alone, so the counts and measurements of its frame stand. -/
theorem receiverFollowsItsFrames : Obligations.ReceiverFollowsItsFrames := by
  unfold Obligations.ReceiverFollowsItsFrames
  intro who v n s
  refine ⟨fun k d => leaves_preambleDetected, fun k d => exec_preambleDetected_weak, fun x m => leaves_syncFound,
    fun k => ⟨leaves_syncWindowTimeout, exec_syncWindowTimeout_early⟩,
    fun soft m hframe hstate => ⟨leaves_headerDecision_cnb hframe hstate, leaves_headerDecision_fails hframe hstate, leaves_headerDecision_sun hframe hstate⟩,
    fun m rest => leaves_payloadCaptured_sun,
    fun h hoff => ⟨leaves_demodEnable_refused h hoff, leaves_demodEnable h hoff⟩, leaves_demodDisable,
    fun p k => ⟨exec_agcMeasurement_hold, leaves_agcMeasurement_clipped, exec_agcMeasurement_unclipped⟩,
    fun h hen => ⟨exec_rxcApply_refused h hen, exec_rxcApply_waits h hen, exec_rxcApply_now h hen⟩,
    exec_rxcApplyPendingDone, exec_rxcSwitchDone, exec_receiverEnable, exec_receiverDisable, fun hblank hjob => ?_, fun ts => leaves_tsloRead⟩
  rw [exec_receiverReturn hblank hjob]
  exact ⟨fun hnone => by rw [hnone]; rfl, fun hheld => by rw [hheld]; rfl⟩

end Sys2Proof.ReceiveChain
end

section
/-! PROOF. The decoder's schedule (09 R230 to R234) and the transmitter's: commit, deferral, sequence, lock, tuner and calibration (10 R244 to R265).  Each
command of a committed transmission acts only where its condition holds, so its lemma gives the state that this condition selects. -/
namespace Sys2Proof.DecoderAndTransmitter
open Sys2Proof.Machine Sys2Proof.Safety Sys2Proof.Reg

variable {s : State} {who : Nat} {v : Word}

/-! ### Registers that may change -/

theorem fld_raise_apart (s : State) (a n : Nat) {hi lo hi' lo' : Nat} (h : hi < 32) (hl : lo ≤ hi) (hd : hi' < lo ∨ hi < lo') :
    (s.raise a hi lo n).fld a hi' lo' = s.fld a hi' lo' := by
  unfold State.raise
  split
  · exact State.fld_setFld_apart s a _ h hl hd
  · rfl

theorem onlyRegs_raise (s : State) (a hi lo n : Nat) : OnlyRegs s (s.raise a hi lo n) [a] :=
  ⟨fun _ hb => State.rd_raise_ne s (List.ne_of_not_mem_cons hb) _ _ _, byte_of_mem (raise_mem s a hi lo n)⟩

/-! ### The decoder takes a codeword -/

section Decoder
variable {c : Cw} {l : List Cw} {f : FecFrame} {us : Nat}

theorem exec_codewordDecodeStart (hwait : s.fec.waiting = c :: l) (hidle : s.fec.cur = none) :
    exec (.codewordDecodeStart []) s = .next (fecStatus (decoderTake (s.upFec (fun g => { g with waiting := l })) c)) := by
  show execCodewordDecodeStart [] s = _
  simp only [execCodewordDecodeStart, List.foldl_nil, hwait, hidle]

theorem leaves_codewordDecodeStart (hwait : s.fec.waiting = c :: l) (hidle : s.fec.cur = none) :
    Leaves (.codewordDecodeStart []) s (fun t => t.fec.cur = some (if c.hyp = 0 then { c with cfg := s.rd FEC.DECCFG } else c) ∧
      t.fec.waiting = l ∧ t.bit FEC.STATUS 8 = true ∧ OnlyRegs s t [FEC.STATUS]) := by
  obtain ⟨-, -, hfec, -, hbusy⟩ := fecStatus_facts (decoderTake (s.upFec (fun g => { g with waiting := l })) c)
  exact ⟨_, exec_codewordDecodeStart hwait hidle, congrArg Fec.cur hfec, congrArg Fec.waiting hfec, hbusy,
    fecStatus_only s _ _ List.mem_cons_self (StartUp.onlyRegs_of_kept rfl rfl)⟩

theorem leaves_altHypothesisStart (hwait : s.fec.waiting = []) (hidle : s.fec.cur = none) (halts : s.fec.alts = c :: l) :
    Leaves .altHypothesisStart s (fun t => t.fec.cur = some c ∧ t.fec.alts = l ∧ OnlyRegs s t [FEC.STATUS]) := by
  have hexec : exec .altHypothesisStart s = .next (fecStatus (s.upFec (fun g => { g with cur := some c, alts := l }))) := by
    show execAltHypothesisStart s = _
    simp only [execAltHypothesisStart, hwait, hidle, halts]
  exact ⟨_, hexec, rfl, rfl, fecStatus_only s _ _ List.mem_cons_self (StartUp.onlyRegs_of_kept rfl rfl)⟩

/-! ### The decoding of a codeword ends -/

/-- 09 R239: the decoder is free, and its iterations are counted. -/
def decoderFreed (s : State) (n : Nat) : State := (s.upFec (fun g => { g with cur := none })).bump FEC.ITERSUM 31 0 n

theorem onlyRegs_decoderFreed (s : State) (n : Nat) : OnlyRegs s (decoderFreed s n) [FEC.ITERSUM, FEC.STATUS] :=
  onlyRegs_trans (onlyRegs_setFld (s.upFec (fun g => { g with cur := none })) _ _ _ _) (StartUp.onlyRegs_of_kept rfl rfl) (by simp)

/-- 09 R239: a codeword counted as decoded or as failed when the decoder is freed. -/
theorem fld_decoderFreed_bump (s : State) (n : Nat) {hi lo : Nat} (h : hi < 32) (hl : lo ≤ hi) :
    ((decoderFreed s n).bump FEC.CWCNT hi lo 1).fld FEC.CWCNT hi lo = min (s.fld FEC.CWCNT hi lo + 1) (2 ^ (hi + 1 - lo) - 1) := by
  rw [State.fld_bump_self _ _ h hl, fld_of_rd ((onlyRegs_decoderFreed s n).1 FEC.CWCNT (by decide))]

/-- 09 R230: a codeword that waits for its next hypothesis: behind those that failed before it, unless it was itself at one. -/
def awaitHypothesis (s : State) (c : Cw) : State :=
  s.upFec (fun g => { g with alts := if c.hyp = 0 then g.alts ++ [{ c with hyp := c.hyp + 1 }] else { c with hyp := c.hyp + 1 } :: g.alts })

/-- 09 R231: a codeword that fails under every hypothesis is counted. -/
def codewordFailed (s : State) (f : FecFrame) (c : Cw) (us : Nat) : State :=
  ((decoderFreed s (decodeOf f c).iters).bump FEC.CWCNT 31 16 1).raise FEC.LATMAX 15 0 us

/-- 09 R231: a frame with one more codeword decoded. -/
def withCodeword (f : FecFrame) (c : Cw) : FecFrame :=
  { f with done := (c.idx, (decodeOf f c).info) :: f.done, iter := max f.iter (decodeOf f c).iters, alt := f.alt || c.hyp != 0 }

/-- 09 R239: a decoded codeword is counted, with its iterations and its hypothesis. -/
def codewordCounted (s : State) (f : FecFrame) (c : Cw) : State :=
  (((decoderFreed s (decodeOf f c).iters).bump FEC.CWCNT 15 0 1).raise FEC.ITERMAX 5 0 (decodeOf f c).iters).bump FEC.ITERMAX 31 16 (natBit (c.hyp != 0))

/-- A decoded codeword, before its frame is judged. -/
def codewordDecoded (s : State) (f : FecFrame) (c : Cw) (us : Nat) : State :=
  ((codewordCounted s f c).upFec (fun g => { g with frames := g.frames.map (fun x => if x.id = f.id then withCodeword f c else x) })).raise
    FEC.LATMAX 15 0 us

/-- CODEWORD_DECODE_DONE, where a frame is known to the decoder: what it leaves depends on the frame, on the decoding, and on the hypotheses left. -/
theorem exec_codewordDecodeDone (hcur : s.fec.cur = some c) (hframe : s.fec.frames.find? (fun x => x.id == c.frame) = some f) :
    exec (.codewordDecodeDone us) s = .next (fecStatus (
      if f.failed then decoderFreed s (decodeOf f c).iters
      else if (decodeOf f c).ok then fecFinish (codewordDecoded s f c us) (withCodeword f c)
      else if c.hyp + 1 < cfgHypo c.cfg then awaitHypothesis (decoderFreed s (decodeOf f c).iters) c
      else fecFail (codewordFailed s f c us) f)) := by
  have hexec : exec (.codewordDecodeDone us) s =
      if f.failed then .next (fecStatus (decoderFreed s (decodeOf f c).iters))
      else if (decodeOf f c).ok then .next (fecStatus (fecFinish (codewordDecoded s f c us) (withCodeword f c)))
      else if c.hyp + 1 < cfgHypo c.cfg then .next (fecStatus (awaitHypothesis (decoderFreed s (decodeOf f c).iters) c))
      else .next (fecStatus (fecFail (codewordFailed s f c us) f)) := by
    show execCodewordDecodeDone us s = _
    simp only [execCodewordDecodeDone, hcur, hframe]
    rfl
  rw [hexec]
  split_ifs <;> rfl

theorem leaves_codewordDecodeDone_failedFrame (hcur : s.fec.cur = some c) (hframe : s.fec.frames.find? (fun x => x.id == c.frame) = some f)
    (hfailed : f.failed = true) :
    Leaves (.codewordDecodeDone us) s (fun t => t.fec = { s.fec with cur := none } ∧ OnlyRegs s t [FEC.ITERSUM, FEC.STATUS]) := by
  have hexec := exec_codewordDecodeDone (us := us) hcur hframe
  rw [if_pos hfailed] at hexec
  exact ⟨_, hexec, rfl, fecStatus_only s _ _ (by simp) (onlyRegs_decoderFreed s _)⟩

theorem codewordDecoded_facts (s : State) (f : FecFrame) (c : Cw) (us : Nat) : let u := codewordDecoded s f c us
    u.fec.cur = none ∧ u.fld FEC.CWCNT 15 0 = min (s.fld FEC.CWCNT 15 0 + 1) 0xFFFF ∧ u.mem = s.mem := by
  refine ⟨?_, ?_, ?_⟩
  · simp [codewordDecoded, codewordCounted, raise_fec, decoderFreed]
  · refine (fld_of_rd ?_ 15 0).trans (fld_decoderFreed_bump s (decodeOf f c).iters (by decide) (by decide))
    exact (State.rd_raise_ne _ (by decide) _ _ _).trans ((State.rd_bump_ne _ (by decide) _ _ _).trans (State.rd_raise_ne _ (by decide) _ _ _))
  · simp [codewordDecoded, codewordCounted, raise_mem, decoderFreed]

theorem leaves_codewordDecodeDone_decoded (hcur : s.fec.cur = some c) (hframe : s.fec.frames.find? (fun x => x.id == c.frame) = some f)
    (hfailed : f.failed = false) (hok : (decodeOf f c).ok = true) :
    Leaves (.codewordDecodeDone us) s (fun t => t.fec.cur = none ∧ t.fld FEC.CWCNT 15 0 = min (s.fld FEC.CWCNT 15 0 + 1) 0xFFFF ∧ t.mem = s.mem) := by
  have hexec := exec_codewordDecodeDone (us := us) hcur hframe
  rw [if_neg (by simp [hfailed]), if_pos hok] at hexec
  obtain ⟨hfree, hcount, hmem⟩ := codewordDecoded_facts s f c us
  obtain ⟨hfinCur, hfinCount, hfinMem⟩ := fecFinish_facts (codewordDecoded s f c us) (withCodeword f c)
  obtain ⟨hrd, hstatMem, hstatFec, -⟩ := fecStatus_facts (fecFinish (codewordDecoded s f c us) (withCodeword f c))
  exact ⟨_, hexec, (congrArg Fec.cur hstatFec).trans (hfinCur.trans hfree),
    (fld_of_rd ((hrd _ (by decide)).trans hfinCount) 15 0).trans hcount, hstatMem.trans (hfinMem.trans hmem)⟩

theorem leaves_codewordDecodeDone_next (hcur : s.fec.cur = some c) (hframe : s.fec.frames.find? (fun x => x.id == c.frame) = some f)
    (hfailed : f.failed = false) (hbad : (decodeOf f c).ok = false) (hmore : c.hyp + 1 < cfgHypo c.cfg) :
    Leaves (.codewordDecodeDone us) s (fun t =>
      t.fec.alts = (if c.hyp = 0 then s.fec.alts ++ [{ c with hyp := c.hyp + 1 }] else { c with hyp := c.hyp + 1 } :: s.fec.alts) ∧
      t.fec.frames = s.fec.frames ∧ OnlyRegs s t [FEC.ITERSUM, FEC.STATUS]) := by
  have hexec := exec_codewordDecodeDone (us := us) hcur hframe
  rw [if_neg (by simp [hfailed]), if_neg (by simp [hbad]), if_pos hmore] at hexec
  exact ⟨_, hexec, rfl, rfl, fecStatus_only s _ _ (by simp) (onlyRegs_decoderFreed s _)⟩

/-- 09 R231: a frame that fails loses its codewords; it is kept, as failed, while its demodulator still captures. -/
theorem fecFail_facts (s : State) (f : FecFrame) : let t := fecFail s f
    t.fec.cur = s.fec.cur ∧ t.fec.waiting = s.fec.waiting.filter (fun x => x.frame != f.id) ∧ t.fec.alts = s.fec.alts.filter (fun x => x.frame != f.id) ∧
    t.fec.frames = (if s.rxc.frames.any (fun m => m.demod == f.m.demod && m.ts == f.m.ts) then s.fec.frames.map (fun x => if x.id = f.id then { x with failed := true } else x)
      else s.fec.frames.filter (fun x => x.id != f.id)) ∧
    t.regs = s.regs ∧ t.lnk = s.lnk ∧ t.mem = s.mem := by
  unfold fecFail
  split_ifs <;> exact ⟨rfl, rfl, rfl, rfl, rfl, rfl, rfl⟩

theorem codewordFailed_facts (s : State) (f : FecFrame) (c : Cw) (us : Nat) : let u := codewordFailed s f c us
    u.fec = { s.fec with cur := none } ∧ u.fld FEC.CWCNT 31 16 = min (s.fld FEC.CWCNT 31 16 + 1) 0xFFFF ∧ u.rxc = s.rxc ∧ u.lnk = s.lnk ∧ u.mem = s.mem := by
  have hcount := fld_decoderFreed_bump s (decodeOf f c).iters (hi := 31) (lo := 16) (by decide) (by decide)
  have hrxc : ∀ u : State, (u.raise FEC.LATMAX 15 0 us).rxc = u.rxc := fun u => by unfold State.raise; split <;> rfl
  exact ⟨raise_fec _ _ _ _ _, (fld_of_rd (State.rd_raise_ne _ (by decide) _ _ _) 31 16).trans hcount, hrxc _, raise_lnk _ _ _ _ _, raise_mem _ _ _ _ _⟩

theorem leaves_codewordDecodeDone_last (hcur : s.fec.cur = some c) (hframe : s.fec.frames.find? (fun x => x.id == c.frame) = some f)
    (hfailed : f.failed = false) (hbad : (decodeOf f c).ok = false) (hlast : cfgHypo c.cfg ≤ c.hyp + 1) :
    Leaves (.codewordDecodeDone us) s (fun t => t.fec.cur = none ∧ t.fec.waiting = s.fec.waiting.filter (fun x => x.frame != f.id) ∧
      t.fec.alts = s.fec.alts.filter (fun x => x.frame != f.id) ∧
      t.fec.frames = (if s.rxc.frames.any (fun m => m.demod == f.m.demod && m.ts == f.m.ts) then s.fec.frames.map (fun x => if x.id = f.id then { x with failed := true } else x)
        else s.fec.frames.filter (fun x => x.id != f.id)) ∧
      t.fld FEC.CWCNT 31 16 = min (s.fld FEC.CWCNT 31 16 + 1) 0xFFFF ∧ t.lnk = s.lnk ∧ t.mem = s.mem) := by
  have hexec := exec_codewordDecodeDone (us := us) hcur hframe
  rw [if_neg (by simp [hfailed]), if_neg (by simp [hbad]), if_neg (by omega)] at hexec
  obtain ⟨hfec, hcount, hrxc, hlnk, hmem⟩ := codewordFailed_facts s f c us
  obtain ⟨hfree, hwait, halts, hframes, hregs, hfailLnk, hfailMem⟩ := fecFail_facts (codewordFailed s f c us) f
  obtain ⟨hrd, hstatMem, hstatFec, hstatLnk, -⟩ := fecStatus_facts (fecFail (codewordFailed s f c us) f)
  rw [hfec] at hfree hwait halts hframes
  rw [hrxc] at hframes
  refine ⟨_, hexec, (congrArg Fec.cur hstatFec).trans hfree, (congrArg Fec.waiting hstatFec).trans hwait, (congrArg Fec.alts hstatFec).trans halts,
    (congrArg Fec.frames hstatFec).trans hframes, ?_, hstatLnk.trans (hfailLnk.trans hlnk), hstatMem.trans (hfailMem.trans hmem)⟩
  exact (fld_of_rd ((hrd _ (by decide)).trans (congrArg (sparseGet regReset · FEC.CWCNT) hregs)) 31 16).trans hcount

/-! ### SUN-FSK frames -/

/-- 09 R234: what the oldest SUN-FSK frame decodes to: its MPDU, where its FCS is correct. -/
def viterbiMpdu (s : State) (f : FecFrame) (soft : List Int) : Option (List Byte) :=
  sunMpdu (testB f.m.code 2) (testB f.m.code 1) f.m.len (sunDecode f.m.coded (testB s.rxc.sunCfg.toNat 2) soft)

theorem fecDrop_rxc (s : State) (id : Nat) : (fecDrop s id).rxc = s.rxc := rfl

variable {soft : List Int}

theorem leaves_viterbiDecode_ok {mpdu : List Byte} (hframe : s.fec.frames.find? (fun x => x.m.sun) = some f) (hok : viterbiMpdu s f soft = some mpdu) :
    Leaves (.viterbiDecode soft) s (fun t => t.lnk.rx.map (fun x => x.mpdu) = s.lnk.rx.map (fun x => x.mpdu) ++ [mpdu] ∧
      t.fld FEC.VITCNT 15 0 = min (s.fld FEC.VITCNT 15 0 + 1) 0xFFFF ∧ OnlyRegs s t [FEC.VITCNT]) := by
  have hexec : exec (.viterbiDecode soft) s = .next (((fecDrop s f.id).bump FEC.VITCNT 15 0 1).upLnk (fun l => { l with rx := l.rx ++
      [{ m := f.m, mpdu := mpdu, cw := 0, iter := 0, alt := false, fin := frameEnd f.m }] })) := by
    rw [viterbiMpdu] at hok
    show execViterbiDecode soft s = _
    simp only [execViterbiDecode, hframe, fecDrop_rxc, hok]
  refine ⟨_, hexec, ?_, State.fld_bump_self (fecDrop s f.id) _ (by decide) (by decide), onlyRegs_setFld (fecDrop s f.id) _ _ _ _⟩
  exact List.map_append

theorem leaves_viterbiDecode_bad (hframe : s.fec.frames.find? (fun x => x.m.sun) = some f) (hbad : viterbiMpdu s f soft = none) :
    Leaves (.viterbiDecode soft) s (fun t => t.lnk = s.lnk ∧ t.fld FEC.VITCNT 31 16 = min (s.fld FEC.VITCNT 31 16 + 1) 0xFFFF ∧ OnlyRegs s t [FEC.VITCNT]) := by
  have hexec : exec (.viterbiDecode soft) s = .next ((fecDrop s f.id).bump FEC.VITCNT 31 16 1) := by
    rw [viterbiMpdu] at hbad
    show execViterbiDecode soft s = _
    simp only [execViterbiDecode, hframe, fecDrop_rxc, hbad]
  exact ⟨_, hexec, rfl, State.fld_bump_self (fecDrop s f.id) _ (by decide) (by decide), onlyRegs_setFld (fecDrop s f.id) _ _ _ _⟩

end Decoder

/-! ### Commit and deferral -/

theorem exec_txCommit_disabled (h : s.bit TXC.CTRL 0 = false) : exec .txCommit s = .next s := if_neg (by simp [h])

theorem exec_txCommit {js : List TxJob} {u : State} {j : TxJob} (hen : s.bit TXC.CTRL 0 = true) (hfree : s.txc.job = none)
    (hcands : txCandidates s = (js, u)) (hchosen : txChoose u [] js = some j) : exec .txCommit s = .next (Machine.txCommit u j) := by
  have hmay : s.bit TXC.CTRL 0 = true ∧ s.txc.job.isNone = true := ⟨hen, by rw [hfree]; rfl⟩
  show execTxCommit s = _
  simp only [execTxCommit, if_pos hmay, hcands, hchosen]

section Job
variable {j : TxJob} (hjob : s.txc.job = some j)
include hjob

theorem exec_txDeferEnd (hbegun : j.begun = false) (hfree : txWaits s j = false) : exec .txDeferEnd s = .next (txStepZero s j) := by
  show execTxDeferEnd s = _
  simp [execTxDeferEnd, hjob, hbegun, hfree]

theorem exec_txDeferDeadline (hbegun : j.begun = false) (hdue : lastCommit s j ≤ s.nt.toNat) :
    exec .txDeferDeadline s = if j.cls = 2 ∧ carrierBusy s j = true then
      .next (txDone (setTxState (s.upTxc (fun t => { t with job := none })) 0) j 5) else .next (txStepZero s j) := by
  have hacts : ¬ (j.begun = true ∨ s.nt.toNat < lastCommit s j) := by simp [hbegun, hdue]
  show execTxDeferDeadline s = _
  simp only [execTxDeferDeadline, hjob, if_neg hacts]

/-! ### The sequence -/

theorem exec_txSequenceStep {p : BitVec 12} (hbegun : j.begun = true) (hdata : j.data = false ∨ j.after = true)
    (hlock : j.step ≠ 1 ∨ s.bit RFE.STATUS 0 = true ∨ j.result ≠ none) :
    exec (.txSequenceStep p) s = if s.uptime < stepDue j then .next s else .next (txStep s j j.step (stepDue j) p.toNat) := by
  have hpast : (j.data && !j.after) = false := by rcases hdata with h | h <;> simp [h]
  have hlocked : (j.step == 1 && !s.bit RFE.STATUS 0 && j.result.isNone) = false := by
    rcases hlock with h | h | h
    · simp [h]
    · simp [h]
    · rw [Option.isNone_eq_false_iff.2 (Option.isSome_iff_ne_none.2 h), Bool.and_false]
  show execTxSequenceStep p s = _
  simp only [execTxSequenceStep, hjob, hbegun, hpast, hlocked, Bool.not_true, Bool.false_or, decide_eq_true_eq]

theorem exec_txLastSymbol_during {x : TxMeas} (hdata : j.data = true) (hafter : j.after = false) :
    exec (.txLastSymbol x) s = if s.uptime < j.inst + jobTicks j then .next s
      else .next (txMeasured (s.upJob (fun j => { j with after := true, result := some 2, inst := j.inst + jobTicks j })) j x (jobTicks j)) := by
  show execTxLastSymbol x s = _
  simp only [execTxLastSymbol, hjob]
  exact if_pos ⟨hdata, by simp [hafter]⟩

theorem exec_txLastSymbol_cut {x : TxMeas} (hdata : j.data = true) (hafter : j.after = true) (hnew : j.measured = false) :
    exec (.txLastSymbol x) s = .next (txMeasured s j x j.dur) := by
  show execTxLastSymbol x s = _
  simp [execTxLastSymbol, hjob, hdata, hafter, hnew]

/-! ### Ends before the sequence is over -/

theorem exec_txLate (hlate : projectedLate s j = true) : exec .txLate s = .next (txGiveUp s j 4) := by
  show execTxLate s = _
  simp only [execTxLate, hjob, if_pos hlate]

theorem exec_synthLockTimeout (hbegun : j.begun = true) (hunlocked : s.bit RFE.STATUS 0 = false) (hstep : j.step ≤ 1)
    (hdue : j.inst + lockTimeout s ≤ s.uptime) : exec .synthLockTimeout s = .next (txGiveUp s j (if projectedLate s j then 4 else 3)) := by
  show execSynthLockTimeout s = _
  simp only [execSynthLockTimeout, hjob]
  exact if_pos ⟨hbegun, by simp [hunlocked], hstep, hdue⟩

end Job

/-- An event of RFE changes `RFE.EVT` and what cue lines change. -/
theorem rfeEvent_facts (s : State) (b : Nat) : (rfeEvent s b).txc = s.txc ∧ (rfeEvent s b).mem = s.mem ∧
    ∀ a, a / 4096 ≠ 0x30014 → a ≠ RFE.EVT → (rfeEvent s b).rd a = s.rd a := by
  refine ⟨?_, (event_nt s _ _ _ _ _).2, fun a => event_rd s _ _ _ _ _⟩
  obtain ⟨r, q, m, hevent, -⟩ := cueOnly_event s RFE.EVT RFE.IEN b .misca 11
  rw [rfeEvent, hevent]
  split <;> rfl

theorem exec_synthLockLost {j : TxJob} (hjob : s.txc.job = some j) (hbegun : j.begun = true) (hresult : j.result = none)
    (hlocked : s.bit RFE.STATUS 0 = true) :
    exec .synthLockLost s = .next (txCutShort (rfeEvent (s.setBit RFE.STATUS 0 false) 1) j 10) := by
  have hkept : (rfeEvent (s.setBit RFE.STATUS 0 false) 1).txc.job = some j := (congrArg Txc.job (rfeEvent_facts _ 1).1).trans hjob
  have hexec : exec .synthLockLost s = _ := if_neg (not_not.2 hlocked)
  rw [hexec]
  simp only [hkept]
  exact if_pos ⟨hbegun, by rw [hresult]; rfl⟩

/-! ### ABORT and EN -/

theorem txcCtrlWrite_aborts (s : State) {w : Word} (h : testB w.toNat 1 = true ∨ ¬ testB w.toNat 0 = true) :
    txcCtrlWrite s w = txAbort (s.wr TXC.CTRL (w &&& 1)) := if_pos h

theorem txAbort_of_job {u : State} {j : TxJob} (hjob : u.txc.job = some j) (hbegun : j.begun = true) :
    txAbort u = if j.data then (if j.result.isSome then u else txCutShort u j 9) else txGiveUp u j 9 := by
  simp only [txAbort, hjob, hbegun, Bool.not_true, Bool.false_eq_true, if_false]

theorem access_txcCtrl (h : Reaches s who TXC.CTRL true) : s.access who TXC.CTRL (some v) = txcCtrlWrite s v := access_write h rfl

theorem exec_txAbort {j : TxJob} (hjob : s.txc.job = some j) (h : Reaches s who TXC.CTRL true) (hdata : j.data = true) (hbegun : j.begun = true)
    (hresult : j.result = none) : exec (.txAbort who v) s = .next (txCutShort (s.wr TXC.CTRL (vSet v 1 &&& 1)) j 9) := by
  have hab : testB (vSet v 1).toNat 1 = true := by simp [testB_vSet]
  refine congrArg Host.Outcome.next ((access_txcCtrl h).trans ((txcCtrlWrite_aborts s (.inl hab)).trans ?_))
  rw [txAbort_of_job (u := s.wr _ _) hjob hbegun, if_pos hdata, hresult]
  rfl

theorem exec_txDisable {j : TxJob} (hjob : s.txc.job = some j) (h : Reaches s who TXC.CTRL true) (hdata : j.data = false) (hbegun : j.begun = true) :
    exec (.txDisable who v) s = .next (txGiveUp (s.wr TXC.CTRL (vClr v 0 &&& 1)) j 9) := by
  have hoff : ¬ testB (vClr v 0).toNat 0 = true := by simp [testB_vClr]
  refine congrArg Host.Outcome.next ((access_txcCtrl h).trans ((txcCtrlWrite_aborts s (.inr hoff)).trans ?_))
  rw [txAbort_of_job (u := s.wr _ _) hjob hbegun, if_neg (by simp [hdata])]

/-! ### The tuner -/

/-- 10 R257: |Γ| of a transmission and the largest so far, as TUNESTAT shows them. -/
def reflectionShown (s : State) (g : Nat) : State := (s.setFld RFE.TUNESTAT 7 0 g).raise RFE.TUNESTAT 15 8 g

theorem reflectionShown_facts (s : State) (g : Nat) : let t := reflectionShown s g
    t.fld RFE.TUNESTAT 7 0 = g % 256 ∧ t.fld RFE.TUNESTAT 31 16 = s.fld RFE.TUNESTAT 31 16 ∧ t.txc = s.txc ∧ OnlyRegs s t [RFE.TUNESTAT] := by
  refine ⟨?_, ?_, ?_, onlyRegs_trans (onlyRegs_setFld s _ _ _ _) (onlyRegs_raise _ _ _ _ _) fun _ hb => hb⟩
  · exact (fld_raise_apart _ _ _ (by decide) (by decide) (by decide)).trans (State.fld_setFld_self s _ _ (by decide) (by decide))
  · exact (fld_raise_apart _ _ _ (by decide) (by decide) (by decide)).trans (State.fld_setFld_apart s _ _ (by decide) (by decide) (by decide))
  · unfold reflectionShown State.raise
    split <;> rfl

/-- 10 R257: of a transmission through RFIO at PWR 20 or more |Γ| is shown, with an event where it exceeds the limit. -/
theorem reflect_eq (s : State) (j : TxJob) (g : Nat) : reflect s j g = if j.pwr < 20 ∨ testB s.txc.path 1 then s
    else if s.fld RFE.TUNECFG 7 0 < g then rfeEvent (reflectionShown s g) 0 else reflectionShown s g := by
  obtain ⟨-, -, -, hrd, -⟩ := reflectionShown_facts s g
  have hlimit : (reflectionShown s g).fld RFE.TUNECFG 7 0 = s.fld RFE.TUNECFG 7 0 := fld_of_rd (hrd _ (by decide)) 7 0
  rw [reflect, ← reflectionShown, State.when, hlimit]
  simp only [decide_eq_true_eq]

theorem reflect_facts (s : State) (j : TxJob) (g : Nat) : let t := reflect s j g
    t.txc = s.txc ∧ t.fld RFE.TUNESTAT 31 16 = s.fld RFE.TUNESTAT 31 16 ∧ t.rd RFE.TUNE = s.rd RFE.TUNE ∧ t.rd RFE.TUNECFG = s.rd RFE.TUNECFG ∧
    (20 ≤ j.pwr → testB s.txc.path 1 = false → t.fld RFE.TUNESTAT 7 0 = g % 256) ∧ (g ≤ s.fld RFE.TUNECFG 7 0 → OnlyRegs s t [RFE.TUNESTAT]) := by
  obtain ⟨hshown, hkept, htxc, honly⟩ := reflectionShown_facts s g
  obtain ⟨hevTxc, -, hevRd⟩ := rfeEvent_facts (reflectionShown s g) 0
  rw [reflect_eq]
  split_ifs with hnone hover
  · exact ⟨rfl, rfl, rfl, rfl, fun hpwr hpath => absurd hnone (by simp [hpath, hpwr]), fun _ => (StartUp.onlyRegs_of_kept rfl rfl)⟩
  · have hstat := hevRd RFE.TUNESTAT (by decide) (by decide)
    exact ⟨hevTxc.trans htxc, (fld_of_rd hstat 31 16).trans hkept, (hevRd _ (by decide) (by decide)).trans (honly.1 _ (by decide)),
      (hevRd _ (by decide) (by decide)).trans (honly.1 _ (by decide)), fun _ _ => (fld_of_rd hstat 7 0).trans hshown, fun hle => absurd hover (by omega)⟩
  · exact ⟨htxc, hkept, honly.1 _ (by decide), honly.1 _ (by decide), fun _ _ => hshown, fun _ => honly⟩

/-- 10 R258: |Γ| measured for the trial that is due, and the number of the next trial. -/
def trialMeasured (s : State) (j : TxJob) (g : BitVec 8) : State :=
  (reflect (s.upJob (fun j => { j with tried := true })) j g.toNat).upTxc (fun t => { t with trial := (t.trial + 1) % 6, gamma := g.toNat })

theorem exec_tunerTrialStep {j : TxJob} {g : BitVec 8} (hjob : s.txc.job = some j) (hdue : trialDue s j = true) (hfrom : s.txc.trialFrom = none)
    (htrial : s.txc.trial = 0) (hroom : tuneBank (s.rd RFE.TUNE) 0 < 63) :
    exec (.tunerTrialStep g) s = .next (((trialMeasured s j g).setFld RFE.TUNE 5 0 (tuneBank (s.rd RFE.TUNE) 0 + 1)).upTxc
      (fun t => { t with trialFrom := some (s.rd RFE.TUNE) })) := by
  have hmay : trialDue s j = true ∧ s.txc.trialFrom.isNone = true := ⟨hdue, by rw [hfrom]; rfl⟩
  show execTunerTrialStep g s = _
  simp only [execTunerTrialStep, hjob, if_pos hmay, htrial]
  refine if_neg ?_
  rintro (⟨hdown, -⟩ | ⟨-, hfull⟩)
  · exact absurd hdown (by decide)
  · exact hroom.ne hfull

theorem leaves_tunerTrialStep {j : TxJob} {g : BitVec 8} (hjob : s.txc.job = some j) (hdue : trialDue s j = true) (hfrom : s.txc.trialFrom = none)
    (htrial : s.txc.trial = 0) (hroom : tuneBank (s.rd RFE.TUNE) 0 < 63) :
    Leaves (.tunerTrialStep g) s (fun t => tuneBank (t.rd RFE.TUNE) 0 = tuneBank (s.rd RFE.TUNE) 0 + 1 ∧ t.txc.trialFrom = some (s.rd RFE.TUNE) ∧
      t.txc.trial = 1 ∧ t.fld RFE.TUNESTAT 7 0 = g.toNat ∧ (g.toNat ≤ s.fld RFE.TUNECFG 7 0 → OnlyRegs s t [RFE.TUNE, RFE.TUNESTAT])) := by
  obtain ⟨htxc, -, -, -, hshown, honly⟩ := reflect_facts (s.upJob (fun j => { j with tried := true })) j g.toNat
  obtain ⟨hpath, hpwr⟩ : testB s.txc.path 1 = false ∧ 20 ≤ j.pwr := by
    simp only [trialDue, Bool.and_eq_true, Bool.not_eq_true', decide_eq_true_eq] at hdue
    tauto
  refine ⟨_, exec_tunerTrialStep hjob hdue hfrom htrial hroom, ?_, rfl, ?_, ?_, fun hle => ?_⟩
  · exact (State.fld_setFld_self (trialMeasured s j g) RFE.TUNE _ (by decide) (by decide)).trans (Nat.mod_eq_of_lt (by omega))
  · have hnext : (reflect (s.upJob (fun j => { j with tried := true })) j g.toNat).txc.trial = 0 := (congrArg Txc.trial htxc).trans htrial
    show ((reflect _ j g.toNat).txc.trial + 1) % 6 = 1
    rw [hnext]
  · exact (State.fld_setFld_ne (trialMeasured s j g) (by decide) _ _ _ _ _).trans ((hshown hpwr hpath).trans (Nat.mod_eq_of_lt g.isLt))
  · exact onlyRegs_trans (honly hle) (onlyRegs_wr (trialMeasured s j g) List.mem_cons_self _) (by simp)

/-- 10 R257: |Γ| measured at the judgement of a trial, which ends it. -/
def trialJudged (s : State) (g : Nat) : State :=
  let u := s.upTxc (fun t => { t with trialFrom := none })
  match u.txc.job with | some j => reflect u j g | none => u

theorem trialJudged_facts (s : State) (g : Nat) : let t := trialJudged s g
    t.txc = { s.txc with trialFrom := none } ∧ t.fld RFE.TUNESTAT 31 16 = s.fld RFE.TUNESTAT 31 16 ∧ t.rd RFE.TUNECFG = s.rd RFE.TUNECFG ∧
    (s.txc.job = none ∨ g ≤ s.fld RFE.TUNECFG 7 0 → OnlyRegs s t [RFE.TUNESTAT]) := by
  unfold trialJudged
  simp only [State.upTxc_txc]
  cases hjob : s.txc.job with
  | none => exact ⟨by simp [hjob], rfl, rfl, fun _ => (StartUp.onlyRegs_of_kept rfl rfl)⟩
  | some j =>
    obtain ⟨htxc, hcount, -, hcfg, -, honly⟩ := reflect_facts (s.upTxc (fun t => { t with trialFrom := none })) j g
    exact ⟨htxc.trans (by simp [hjob]), hcount, hcfg, fun hle => honly (hle.resolve_left (by simp))⟩

theorem exec_tunerTrialJudge {w : Word} {g : BitVec 8} (hfrom : s.txc.trialFrom = some w) :
    exec (.tunerTrialJudge g) s = if g.toNat + orIfZero 1 (s.fld RFE.TUNECFG 15 8) ≤ s.txc.gamma ∧ s.txc.tuneWait.isNone = true
      then .next ((trialJudged s g.toNat).bump RFE.TUNESTAT 31 16 1) else .next ((trialJudged s g.toNat).wr RFE.TUNE w) := by
  obtain ⟨htxc, -, hcfg, -⟩ := trialJudged_facts s g.toNat
  have hexec : exec (.tunerTrialJudge g) s = if g.toNat + orIfZero 1 ((trialJudged s g.toNat).fld RFE.TUNECFG 15 8) ≤ (trialJudged s g.toNat).txc.gamma ∧
      (trialJudged s g.toNat).txc.tuneWait.isNone = true
      then .next ((trialJudged s g.toNat).bump RFE.TUNESTAT 31 16 1) else .next ((trialJudged s g.toNat).wr RFE.TUNE w) := by
    show execTunerTrialJudge g s = _
    rw [execTunerTrialJudge, hfrom]
    rfl
  rw [hexec, fld_of_rd hcfg, htxc]

theorem leaves_tunerTrialJudge_reverted {w : Word} {g : BitVec 8} (hfrom : s.txc.trialFrom = some w)
    (hworse : s.txc.gamma < g.toNat + orIfZero 1 (s.fld RFE.TUNECFG 15 8)) :
    Leaves (.tunerTrialJudge g) s (fun t => t.rd RFE.TUNE = w ∧ t.txc.trialFrom = none ∧
      (s.txc.job = none ∨ g.toNat ≤ s.fld RFE.TUNECFG 7 0 → OnlyRegs s t [RFE.TUNE, RFE.TUNESTAT])) := by
  obtain ⟨htxc, -, -, honly⟩ := trialJudged_facts s g.toNat
  have hexec := exec_tunerTrialJudge (g := g) hfrom
  rw [if_neg (by omega)] at hexec
  exact ⟨_, hexec, State.rd_wr_self _ _ _, congrArg Txc.trialFrom htxc, fun hle =>
    onlyRegs_trans (honly hle) (onlyRegs_wr _ List.mem_cons_self _) (by simp)⟩

theorem leaves_tunerTrialJudge_kept {w : Word} {g : BitVec 8} (hfrom : s.txc.trialFrom = some w)
    (hbetter : g.toNat + orIfZero 1 (s.fld RFE.TUNECFG 15 8) ≤ s.txc.gamma) (hwait : s.txc.tuneWait = none) :
    Leaves (.tunerTrialJudge g) s (fun t => t.fld RFE.TUNESTAT 31 16 = min (s.fld RFE.TUNESTAT 31 16 + 1) 0xFFFF ∧ t.txc.trialFrom = none ∧
      (s.txc.job = none ∨ g.toNat ≤ s.fld RFE.TUNECFG 7 0 → OnlyRegs s t [RFE.TUNESTAT])) := by
  obtain ⟨htxc, hcount, -, honly⟩ := trialJudged_facts s g.toNat
  have hexec := exec_tunerTrialJudge (g := g) hfrom
  rw [if_pos ⟨hbetter, by rw [hwait]; rfl⟩] at hexec
  refine ⟨_, hexec, ?_, congrArg Txc.trialFrom htxc, fun hle => DramControl.onlyRegs_then (honly hle) List.mem_cons_self _⟩
  rw [State.fld_bump_self _ _ (by decide) (by decide), hcount]
  rfl

theorem leaves_tunestatRead (h : Reaches s who RFE.TUNESTAT false) :
    Leaves (.tunestatRead who) s (fun t => t.rdata = s.rd RFE.TUNESTAT ∧ t.fld RFE.TUNESTAT 15 8 = 0 ∧ OnlyRegs s t [RFE.TUNESTAT]) := by
  have hhook : regRead s who RFE.TUNESTAT = (s.rd RFE.TUNESTAT, tuneStatRead s) := rfl
  have hread := access_read h
  rw [hhook] at hread
  exact ⟨_, congrArg Host.Outcome.next hread, rfl, State.fld_setFld_self s _ _ (by decide) (by decide), onlyRegs_setFld s _ _ _ _⟩

/-! ### The synthesiser -/

theorem leaves_synthLock {j : TxJob} (hcal : s.bit RFE.STATUS 1 = false) (hjob : s.txc.job = some j) (hwatch : s.bit CAL.CTRL 9 = false) :
    Leaves (.synthLock false) s (fun t => t.bit RFE.STATUS 0 = true ∧
      (j.begun = true → j.step ≤ 1 → t.txc.job = some { j with lockAt := s.uptime }) ∧ OnlyRegs s t [RFE.STATUS]) := by
  have hexec : exec (.synthLock false) s = .next ((s.setBit RFE.STATUS 0 true).when (j.begun && decide (j.step ≤ 1))
      (fun u => u.upJob (fun j => { j with lockAt := s.uptime }))) := by
    have hstill : (s.setBit RFE.STATUS 0 true).bit CAL.CTRL 9 = false := (State.bit_setBit_ne s (by decide) _ _ _).trans hwatch
    show execSynthLock false s = _
    simp only [execSynthLock, hcal, Bool.false_eq_true, if_false, hstill, State.when, State.setBit_txc, hjob]
    rfl
  refine ⟨_, hexec, ?_, fun hbegun hstep => ?_, ?_⟩
  all_goals unfold State.when
  · have hset := State.bit_setBit_self s RFE.STATUS (i := 0) true (by decide)
    split <;> exact hset
  · rw [if_pos (by simp [hbegun, hstep])]
    simp [State.upJob, hjob]
  · have honly := onlyRegs_setFld s RFE.STATUS 0 0 (natBit true)
    split <;> exact honly

theorem leaves_vcoCalibrationDone (hcal : s.bit RFE.STATUS 1 = true) :
    Leaves .vcoCalibrationDone s (fun t => t.bit RFE.STATUS 2 = false ∧ t.cal.band = s.cal.calAt ∧
      t.bit RFE.STATUS 1 = (decide (s.cal.calAt + 10000000 < s.fld RFE.LOFREQ 29 0) || decide (s.fld RFE.LOFREQ 29 0 + 10000000 < s.cal.calAt)) ∧
      OnlyRegs s t [RFE.STATUS]) := by
  refine ⟨_, if_pos hcal, ?_, rfl, State.bit_setBit_self _ _ _ (by decide), ?_⟩
  · exact (State.bit_setBit_apart _ _ _ (by decide) (by decide)).trans (State.bit_setBit_self s _ _ (by decide))
  · exact DramControl.onlyRegs_then (t := (s.setBit RFE.STATUS 2 false).upCal _) (onlyRegs_setFld s _ _ _ _) List.mem_cons_self _

/-- 10 R265: a write of `RFE.CTRL` with VCOCAL, but for the active path. -/
theorem rfeCtrlWrite_vcocal (s : State) {w : Word} (h : testB w.toNat 2 = true) :
    ∃ f, rfeCtrlWrite s w = ((s.wr RFE.CTRL (w &&& 3)).setBit RFE.STATUS 2 true).upTxc f := by
  simp only [rfeCtrlWrite, State.when, h, if_true]
  split
  · exact ⟨_, rfl⟩
  · exact ⟨id, rfl⟩

theorem leaves_rfeVcocal (h : Reaches s who RFE.CTRL true) :
    Leaves (.rfeVcocal who v) s (fun t => t.bit RFE.STATUS 2 = true ∧ t.rd RFE.CTRL = vSet v 2 &&& 3 ∧ OnlyRegs s t [RFE.CTRL, RFE.STATUS]) := by
  obtain ⟨f, hwrite⟩ := rfeCtrlWrite_vcocal s (w := vSet v 2) (by simp [testB_vSet])
  have haccess : s.access who RFE.CTRL (some (vSet v 2)) = rfeCtrlWrite s (vSet v 2) := access_write h rfl
  refine ⟨_, congrArg Host.Outcome.next (haccess.trans hwrite), State.bit_setBit_self (s.wr RFE.CTRL _) _ _ (by decide), ?_, ?_⟩
  · exact (State.rd_setBit_ne (s.wr RFE.CTRL _) (by decide) _ _).trans (State.rd_wr_self s _ _)
  · exact DramControl.onlyRegs_then (onlyRegs_wr s List.mem_cons_self _) (by simp) _

/-! ### Live calibration -/

theorem leaves_calPendingApply {w : Word} (hfree : busyCnt s = 0) (hdc : s.cal.dc = some w) (hiq : s.cal.iq = none) :
    Leaves .calPendingApply s (fun t => t.rd CAL.RXDC = w ∧ t.bit CAL.STATUS 0 = true ∧ t.cal.dc = none ∧ OnlyRegs s t [CAL.RXDC, CAL.STATUS]) := by
  have hexec : exec .calPendingApply s =
      .next (((s.wr CAL.RXDC w).setBit CAL.STATUS 0 true).upCal (fun c => { c with dc := none, iq := none })) := by
    show execCalPendingApply s = _
    simp only [execCalPendingApply, hfree, ne_eq, not_true_eq_false, if_false, hdc, State.setBit_cal, State.wr_cal, hiq]
  refine ⟨_, hexec, ?_, State.bit_setBit_self (s.wr CAL.RXDC w) _ _ (by decide), rfl, ?_⟩
  · exact (State.rd_setBit_ne (s.wr CAL.RXDC w) (by decide) _ _).trans (State.rd_wr_self s _ _)
  · exact DramControl.onlyRegs_then (onlyRegs_wr s List.mem_cons_self _) (by simp) _

/-- 10 R259: a trim entry that CAL writes. -/
def trimLearned (s : State) (i : Nat) (e : Int) : State := (s.setFld (RTC.TTAB i) 23 0 (unsint 24 e)).setBit (RTC.TTAB i) 31 true

theorem unsint_lt (n : Nat) (x : Int) : unsint n x < 2 ^ n := by
  have hpos : (0 : Int) < 2 ^ n := by positivity
  have hlo := Int.emod_nonneg x hpos.ne'
  have hhi := Int.emod_lt_of_pos x hpos
  simp only [unsint, Int.ofNat_eq_natCast, Nat.cast_pow, Nat.cast_ofNat]
  zify
  rwa [Int.toNat_of_nonneg hlo]

theorem trimLearned_facts (s : State) (i : Nat) (e : Int) {l : List Nat} (hi : RTC.TTAB i ∈ l) : let t := trimLearned s i e
    t.fld (RTC.TTAB i) 23 0 = unsint 24 e ∧ t.bit (RTC.TTAB i) 31 = true ∧ OnlyRegs s t l := by
  refine ⟨?_, State.bit_setBit_self _ _ _ (by decide), DramControl.onlyRegs_then (onlyRegs_wr s hi _) hi _⟩
  exact (State.fld_setBit_apart _ _ _ (by decide) (by decide)).trans
    ((State.fld_setFld_self s _ _ (by decide) (by decide)).trans (Nat.mod_eq_of_lt (unsint_lt 24 e)))

/-- 10 R259: the entry that a measurement gives does not depend on the temperature shown. -/
theorem trimEntry_temp (s : State) (x : Nat) (meas : Int) : trimEntry (s.setFld CAL.TEMP 15 0 x) meas = trimEntry s meas := by
  have hctrl := State.bit_setFld_ne s (a := CAL.TEMP) (b := CAL.CTRL) (by decide) 15 0 x 11
  have hxtal := State.fld_setFld_ne s (a := CAL.TEMP) (b := CAL.XTAL) (by decide) 15 0 x 23 0
  have hstep := State.fld_setFld_ne s (a := CAL.TEMP) (b := RTC.CAPSTEP) (by decide) 15 0 x 11 0
  have hcap := State.fld_setFld_ne s (a := CAL.TEMP) (b := RTC.TRIM) (by decide) 15 0 x 20 16
  simp only [trimEntry, xtalApplied, hctrl, hxtal, hstep, hcap]

theorem exec_rtcTrimLearn {t0 : BitVec 16} {p : BitVec 24} (hrun : s.bit CLK.STATUS 1 = true) (hon : s.bit CAL.CTRL 10 = true) :
    exec (.rtcTrimLearn t0 p) s =
      .next ((trimLearned (s.setFld CAL.TEMP 15 0 t0.toNat) (trimIndex t0.toInt) (trimEntry s p.toInt)).setBit CAL.STATUS 10 true) := by
  have hstill : (s.setFld CAL.TEMP 15 0 t0.toNat).bit CAL.CTRL 10 = true := (State.bit_setFld_ne s (by decide) _ _ _ _).trans hon
  show execRtcTrimLearn t0 p s = _
  simp only [execRtcTrimLearn, if_pos hrun, if_pos hstill, trimEntry_temp]
  rfl

theorem leaves_rtcTrimLearn {t0 : BitVec 16} {p : BitVec 24} (hrun : s.bit CLK.STATUS 1 = true) (hon : s.bit CAL.CTRL 10 = true) :
    Leaves (.rtcTrimLearn t0 p) s (fun t => t.fld (RTC.TTAB (trimIndex t0.toInt)) 23 0 = unsint 24 (trimEntry s p.toInt) ∧
      t.bit (RTC.TTAB (trimIndex t0.toInt)) 31 = true ∧ t.bit CAL.STATUS 10 = true ∧
      OnlyRegs s t [CAL.TEMP, CAL.STATUS, RTC.TTAB (trimIndex t0.toInt)]) := by
  obtain ⟨hentry, hvalid, honly⟩ := trimLearned_facts (s.setFld CAL.TEMP 15 0 t0.toNat) (trimIndex t0.toInt) (trimEntry s p.toInt)
    (l := [CAL.TEMP, CAL.STATUS, RTC.TTAB (trimIndex t0.toInt)]) (by simp)
  have hapart : RTC.TTAB (trimIndex t0.toInt) ≠ CAL.STATUS := by
    have hlt := trim_lt t0.toInt
    simp only [RTC.TTAB, CAL.STATUS]
    omega
  refine ⟨_, exec_rtcTrimLearn hrun hon, (State.fld_setBit_ne _ hapart _ _ _ _).trans hentry, (State.bit_setBit_ne _ hapart _ _ _).trans hvalid,
    State.bit_setBit_self _ _ _ (by decide), DramControl.onlyRegs_then (onlyRegs_trans (onlyRegs_setFld s CAL.TEMP _ _ _) honly (by simp)) (by simp) _⟩

/-! ### The statement -/

/-- Settles O46: each command of the decoder, of the transmitter and of its front end leaves what its own rule above says. -/
theorem decoderAndTransmitterFollowTheirSchedules : Obligations.DecoderAndTransmitterFollowTheirSchedules := by
  unfold Obligations.DecoderAndTransmitterFollowTheirSchedules
  intro who v s
  refine ⟨fun c l => leaves_codewordDecodeStart, fun c f us hcur hframe => ⟨leaves_codewordDecodeDone_failedFrame hcur hframe,
      leaves_codewordDecodeDone_decoded hcur hframe, leaves_codewordDecodeDone_next hcur hframe, leaves_codewordDecodeDone_last hcur hframe⟩,
    fun c l => leaves_altHypothesisStart, fun soft f hframe => ⟨fun mpdu => leaves_viterbiDecode_ok hframe, leaves_viterbiDecode_bad hframe⟩,
    exec_txCommit_disabled, fun js u j => exec_txCommit, fun j hjob => ?_, fun j => leaves_synthLock, leaves_vcoCalibrationDone, leaves_rfeVcocal,
    fun w g hfrom => ⟨leaves_tunerTrialJudge_reverted hfrom, leaves_tunerTrialJudge_kept hfrom⟩, fun w => leaves_calPendingApply,
    fun t0 p => leaves_rtcTrimLearn, leaves_tunestatRead, fun pin _ hidle => ?_, fun hoff => ?_⟩
  · refine ⟨exec_txDeferEnd hjob, fun hbegun hdue hclear => (exec_txDeferDeadline hjob hbegun hdue).trans (if_neg hclear),
      fun hbegun hdue hcls hbusy => (exec_txDeferDeadline hjob hbegun hdue).trans (if_pos ⟨hcls, hbusy⟩),
      fun p hbegun hdata hlock => ⟨fun hdue => (exec_txSequenceStep hjob hbegun hdata hlock).trans (if_neg (not_lt.2 hdue)),
        fun hearly => (exec_txSequenceStep hjob hbegun hdata hlock).trans (if_pos hearly)⟩,
      fun x hdata => ⟨fun hafter hdue => (exec_txLastSymbol_during hjob hdata hafter).trans (if_neg (not_lt.2 hdue)),
        fun hafter hearly => (exec_txLastSymbol_during hjob hdata hafter).trans (if_pos hearly), exec_txLastSymbol_cut hjob hdata⟩,
      exec_txLate hjob, exec_synthLockTimeout hjob, exec_synthLockLost hjob, fun g => leaves_tunerTrialStep hjob, exec_txAbort hjob, exec_txDisable hjob⟩
  · rw [femLevel, hidle]
    rfl
  · exact if_neg (by simp [hoff])

end Sys2Proof.DecoderAndTransmitter
end

section
/-! PROOF. The link (11 R275 to R293): reception up to the window, the MIC, relays at their start, FLOOR and the extension of the seen cache, and the writes of
LNK.CTRL and of the buffer pool.  A write of LNK.CTRL acts through the enables it moves, so its effect is said once for an enable that rises and once for one that falls. -/
namespace Sys2Proof.LinkController
open Sys2Proof.Machine Sys2Proof.Safety Sys2Proof.Reg

variable {s : State} {who : Nat} {v : Word}

/-! ### The crystal sample of a frame -/

/-- 10 R260: a frame's crystal sample touches no register but those of CAL. -/
theorem xtalSample_facts (s : State) (m : RxMeta) (source : Nat) : let t := xtalSample s m source
    t.lnk = s.lnk ∧ OnlyRegs s t [CAL.XTALSTAT, CAL.XTAL, CAL.STATUS] := by
  have honly {t : State} {a : Nat} (h : OnlyRegs s t [CAL.XTALSTAT, CAL.XTAL, CAL.STATUS]) (ha : a ∈ [CAL.XTALSTAT, CAL.XTAL, CAL.STATUS]) (hi lo x : Nat) :
      OnlyRegs s (t.setFld a hi lo x) [CAL.XTALSTAT, CAL.XTAL, CAL.STATUS] := DramControl.onlyRegs_then h ha _
  have hshown (f : Cal → Cal) (n d g : Nat) :
      OnlyRegs s ((((s.upCal f).setFld CAL.XTALSTAT 5 0 n).setFld CAL.XTALSTAT 13 8 d).setFld CAL.XTALSTAT 31 16 g) [CAL.XTALSTAT, CAL.XTAL, CAL.STATUS] :=
    honly (honly (honly (StartUp.onlyRegs_of_kept rfl rfl) (by simp) _ _ _) (by simp) _ _ _) (by simp) _ _ _
  unfold xtalSample
  dsimp only
  split_ifs
  · exact ⟨rfl, DramControl.onlyRegs_refl s _⟩
  · exact ⟨rfl, honly (honly (hshown _ _ _ _) (by simp) _ _ _) (by simp) _ _ _⟩
  · exact ⟨rfl, hshown _ _ _ _⟩

theorem xtalSample_disabled (h : s.bit CAL.CTRL 2 = false) (m : RxMeta) (source : Nat) : xtalSample s m source = s := if_pos (by simp [h])

/-! ### Reception -/

section Reception
variable {x : RxFrame} {l : List RxFrame} {b : Nat} {f : Machine.Frm}

/-- 10 R260: the source that LNK reports for the sample of a frame. -/
def frameSource (mpdu : List Byte) : Nat :=
  match parseFrame mpdu with
  | some f => if f.sam = 0 then noSource else f.src
  | none => noSource

/-- The oldest frame of FEC taken, with its crystal sample. -/
def frameSampled (s : State) (x : RxFrame) (l : List RxFrame) : State :=
  xtalSample (s.upLnk (fun k => { k with rx := l })) x.m (frameSource x.mpdu)

theorem frameSampled_facts (s : State) (x : RxFrame) (l : List RxFrame) :
    (frameSampled s x l).lnk = { s.lnk with rx := l } ∧ OnlyRegs s (frameSampled s x l) [CAL.XTALSTAT, CAL.XTAL, CAL.STATUS] :=
  xtalSample_facts (s.upLnk (fun k => { k with rx := l })) x.m (frameSource x.mpdu)

theorem frameSampled_rd (s : State) (x : RxFrame) (l : List RxFrame) {a : Nat} (h : a ∉ [CAL.XTALSTAT, CAL.XTAL, CAL.STATUS]) :
    (frameSampled s x l).rd a = s.rd a := (frameSampled_facts s x l).2.1 a h

/-- LNK.CTRL is none of the sample's registers. -/
theorem bit_ctrl_frameSampled (s : State) (x : RxFrame) (l : List RxFrame) (i : Nat) : (frameSampled s x l).bit LNK.CTRL i = s.bit LNK.CTRL i :=
  congrArg (fun w : Word => testB w.toNat i) (frameSampled_rd s x l (by decide))

/-- 11 R275, steps 2 to 4: whether a frame is discarded for its fields, its missing security, its network or its destination. -/
def frameRefused (s : State) (f : Machine.Frm) : Bool :=
  !frameValid f || (s.bit LNK.CTRL 4 && !f.sec && (f.type == 0 || f.type == 1 || f.type == 3 || f.type == 5)) ||
  !(f.type == 2 || f.nid == s.fld LNK.NID 15 0 || (f.type == 5 && f.nid == 0xFFFF)) ||
  !(f.type == 2 || f.type == 1 || f.type == 3 || (frameMatch s f).isSome)

theorem frameRefused_of_invalid (h : frameValid f = false) : frameRefused s f = true := by simp [frameRefused, h]

/-- A valid secured flood frame of the own network passes the steps before the window. -/
theorem frameRefused_flood (hvalid : frameValid f = true) (hsec : f.sec = true) (htype : f.type = 1) (hnid : f.nid = s.fld LNK.NID 15 0) :
    frameRefused s f = false := by
  simp [frameRefused, hvalid, hsec, htype, hnid]

/-- 11 R275, steps 1 to 7: what an enabled LNK makes of a frame. -/
def frameJudged (s : State) (x : RxFrame) : Out :=
  match freeBuf s with
  | none => .next (dropNoBuf s)
  | some b =>
    if 2 ^ bufLog s < x.mpdu.length then .next (dropNoBuf s)
    else match parseFrame x.mpdu with
      | none => .next (s.bump LNK.CNTRX 31 16 1)
      | some f =>
        if frameRefused s f then .next (s.bump LNK.CNTRX 31 16 1)
        else .next (rxWindow (if trackerAlone s f ∧ ¬ f.sec then trackerTake s x f else s) x f b)

theorem exec_lnkFrameReceive_disabled (hrx : s.lnk.rx = x :: l) (hoff : s.bit LNK.CTRL 0 = false) :
    exec .lnkFrameReceive s = .next ((frameSampled s x l).bump LNK.CNTRX 31 16 1) := by
  show execLnkFrameReceive s = _
  have hstill : (!(frameSampled s x l).bit LNK.CTRL 0) = true := by rw [bit_ctrl_frameSampled, hoff]; rfl
  rw [execLnkFrameReceive, hrx]
  exact if_pos hstill

theorem exec_lnkFrameReceive (hrx : s.lnk.rx = x :: l) (hon : s.bit LNK.CTRL 0 = true) :
    exec .lnkFrameReceive s = frameJudged (frameSampled s x l) x := by
  show execLnkFrameReceive s = _
  have hstill : ¬ (!(frameSampled s x l).bit LNK.CTRL 0) = true := by simp [bit_ctrl_frameSampled, hon]
  rw [execLnkFrameReceive, hrx]
  exact if_neg hstill

theorem frameJudged_noBuf (h : freeBuf s = none) : frameJudged s x = .next (dropNoBuf s) := by
  rw [frameJudged, h]

theorem frameJudged_unread (hfree : freeBuf s = some b) (hfits : x.mpdu.length ≤ 2 ^ bufLog s) (hparse : parseFrame x.mpdu = none) :
    frameJudged s x = .next (s.bump LNK.CNTRX 31 16 1) := by
  simp only [frameJudged, hfree, if_neg (Nat.not_lt.2 hfits), hparse]

theorem frameJudged_read (hfree : freeBuf s = some b) (hfits : x.mpdu.length ≤ 2 ^ bufLog s) (hparse : parseFrame x.mpdu = some f) :
    frameJudged s x = if frameRefused s f then .next (s.bump LNK.CNTRX 31 16 1)
      else .next (rxWindow (if trackerAlone s f ∧ ¬ f.sec then trackerTake s x f else s) x f b) := by
  simp only [frameJudged, hfree, if_neg (Nat.not_lt.2 hfits), hparse]

/-- A frame whose fields do not suit its type is lost. -/
theorem frameJudged_invalid (hfree : freeBuf s = some b) (hfits : x.mpdu.length ≤ 2 ^ bufLog s) (hparse : parseFrame x.mpdu = some f)
    (hbad : frameValid f = false) : frameJudged s x = .next (s.bump LNK.CNTRX 31 16 1) :=
  (frameJudged_read hfree hfits hparse).trans (if_pos (frameRefused_of_invalid hbad))

/-- A valid secured flood frame of the own network goes on to its window. -/
theorem frameJudged_flood (hfree : freeBuf s = some b) (hfits : x.mpdu.length ≤ 2 ^ bufLog s) (hparse : parseFrame x.mpdu = some f)
    (hvalid : frameValid f = true) (hsec : f.sec = true) (htype : f.type = 1) (hnid : f.nid = s.fld LNK.NID 15 0) :
    frameJudged s x = .next (rxWindow s x f b) := by
  rw [frameJudged_read hfree hfits hparse, frameRefused_flood hvalid hsec htype hnid, if_neg Bool.false_ne_true, if_neg fun h => h.2 hsec]

/-- A frame that is lost is counted, and leaves the frames behind it. -/
theorem leaves_frameLost (hexec : exec .lnkFrameReceive s = .next ((frameSampled s x l).bump LNK.CNTRX 31 16 1)) :
    Leaves .lnkFrameReceive s (fun t => t = (frameSampled s x l).bump LNK.CNTRX 31 16 1 ∧ t.lnk.rx = l ∧
      t.fld LNK.CNTRX 31 16 = min (s.fld LNK.CNTRX 31 16 + 1) 0xFFFF ∧ (s.bit CAL.CTRL 2 = false → OnlyRegs s t [LNK.CNTRX])) := by
  obtain ⟨hlnk, -⟩ := frameSampled_facts s x l
  refine ⟨_, hexec, rfl, congrArg Lnk.rx hlnk, ?_, fun hoff => ?_⟩
  · rw [State.fld_bump_self _ _ (by decide) (by decide), fld_of_rd (frameSampled_rd s x l (by decide))]
    rfl
  · rw [frameSampled, xtalSample_disabled (s := s.upLnk _) hoff]
    exact onlyRegs_setFld (s.upLnk (fun k => { k with rx := l })) LNK.CNTRX _ _ _

end Reception

/-! ### The MIC -/

section Mic
variable {w : MicWait} {l : List MicWait} {f : Machine.Frm} {b st : Nat} {plain : List Byte}

theorem exec_micVerifyDone_disabled (h : s.bit AES.CTRL 0 = false) : exec .micVerifyDone s = .next s := if_pos (by simp [h])

theorem exec_micVerifyDone (hon : s.bit AES.CTRL 0 = true) (hmic : s.lnk.mic = w :: l) (hparse : parseFrame w.x.mpdu = some f) :
    let r := micOpen (s.upLnk (fun k => { k with mic := l })) w.x.mpdu f
    exec .micVerifyDone s = .next (micResult (jobEvents (jobTally r.2.2 r.1) r.1) w f r.1 r.2.1) := by
  intro r
  show execMicVerifyDone s = _
  rw [execMicVerifyDone, if_neg (by simp [hon]), hmic]
  simp only [hparse, r]

/-- What a job's status makes of a frame that has a buffer and is no beacon. -/
theorem micResult_eq (hbuf : w.buf = some b) (htype : f.type ≠ 3) : micResult s w f st plain =
    if st = 2 then rxAccept s w.x plain f b
    else lnkStat (lnkEvent ((if st = 3 then (engineWrite s lnkInit (bufAt s b) plain true).2 else s).bump LNK.CNTSEC 15 0 1) 5) := by
  have hnot : ¬ (st = 2 ∧ f.type = 3 ∧ (w.trk = true ∨ (trkState s = 1 ∨ trkState s = 2 ∨ trkState s = 3))) := fun h => htype h.2.1
  simp only [micResult, if_neg hnot, hbuf]

theorem micResult_passed (hbuf : w.buf = some b) (htype : f.type ≠ 3) (hst : st = 2) : micResult s w f st plain = rxAccept s w.x plain f b :=
  (micResult_eq hbuf htype).trans (if_pos hst)

theorem micResult_failed (hbuf : w.buf = some b) (htype : f.type ≠ 3) (hst : st = 3) :
    micResult s w f st plain = lnkStat (lnkEvent ((engineWrite s lnkInit (bufAt s b) plain true).2.bump LNK.CNTSEC 15 0 1) 5) := by
  rw [micResult_eq hbuf htype, if_neg (by omega), if_pos hst]

theorem micResult_refused (hbuf : w.buf = some b) (htype : f.type ≠ 3) (hpass : st ≠ 2) (hfail : st ≠ 3) :
    micResult s w f st plain = lnkStat (lnkEvent (s.bump LNK.CNTSEC 15 0 1) 5) := by
  rw [micResult_eq hbuf htype, if_neg hpass, if_neg hfail]

end Mic

/-! ### Relays -/

section Relays
variable {k : Nat} {r : Relay}

theorem exec_relayStart (hk : s.lnk.relays[k]? = some r) (hwaits : r.offered = false) : exec (.relayStart k) s =
    if s.nt.toNat < r.start.toNat then .next s
    else if s.fld LNK.RELAYCFG 23 20 ≠ 0 ∧ s.fld LNK.RELAYCFG 23 20 * 4096000000 < s.lnk.spent + 16 * r.air then
      .next (relayGone (s.bump LNK.CNTRLYD 31 16 1) r)
    else .next (s.upLnk (fun l => { l with relays := l.relays.map (fun x => if x = r then { r with offered := true } else x) })) := by
  show execRelayStart k s = _
  simp only [execRelayStart, hk, hwaits, Bool.false_eq_true, false_or]

theorem exec_relayStart_early (hk : s.lnk.relays[k]? = some r) (hwaits : r.offered = false) (hearly : s.nt.toNat < r.start.toNat) :
    exec (.relayStart k) s = .next s := (exec_relayStart hk hwaits).trans (if_pos hearly)

theorem leaves_relayStart_offered (hk : s.lnk.relays[k]? = some r) (hwaits : r.offered = false) (hdue : r.start.toNat ≤ s.nt.toNat)
    (hcredit : s.fld LNK.RELAYCFG 23 20 = 0 ∨ s.lnk.spent + 16 * r.air ≤ s.fld LNK.RELAYCFG 23 20 * 4096000000) :
    Leaves (.relayStart k) s (fun t => t.lnk.relays = s.lnk.relays.map (fun x => if x = r then { r with offered := true } else x) ∧
      t.regs = s.regs ∧ t.mem = s.mem) := by
  refine ⟨_, (exec_relayStart hk hwaits).trans ((if_neg (by omega)).trans (if_neg ?_)), rfl, rfl, rfl⟩
  omega

theorem exec_relayStart_dropped (hk : s.lnk.relays[k]? = some r) (hwaits : r.offered = false) (hdue : r.start.toNat ≤ s.nt.toNat)
    (hduty : s.fld LNK.RELAYCFG 23 20 ≠ 0) (hspent : s.fld LNK.RELAYCFG 23 20 * 4096000000 < s.lnk.spent + 16 * r.air) :
    exec (.relayStart k) s = .next (relayGone (s.bump LNK.CNTRLYD 31 16 1) r) :=
  (exec_relayStart hk hwaits).trans ((if_neg (by omega)).trans (if_pos ⟨hduty, hspent⟩))

end Relays

/-! ### FLOOR and the extension of the seen cache -/

theorem leaves_floorExpire (hact : s.bit LNK.STATUS 2 = true) (hold : fcntExpired s (s.rd LNK.FLOOR) = true) :
    Leaves .floorExpire s (fun t => t.bit LNK.STATUS 2 = false ∧ OnlyRegs s t [LNK.STATUS]) :=
  ⟨_, if_pos ⟨hact, hold⟩, State.bit_setBit_self s _ _ (by decide), onlyRegs_setFld s _ _ _ _⟩

theorem exec_extClearDone_unread {u : State} (h : s.bit LNK.STATUS 1 = true)
    (hread : engineRead s lnkInit (s.fld LNK.SCEXT 31 12 * 4096) 524288 true = (none, u)) :
    exec .extClearDone s = .next (extLost u true) := by
  show execExtClearDone s = _
  simp only [execExtClearDone, if_pos h, hread]

theorem exec_extClearDone_read {u : State} {bs : List Byte} (h : s.bit LNK.STATUS 1 = true)
    (hread : engineRead s lnkInit (s.fld LNK.SCEXT 31 12 * 4096) 524288 true = (some bs, u)) :
    let w := engineWrite u lnkInit (s.fld LNK.SCEXT 31 12 * 4096) (clearV bs 0) true
    exec .extClearDone s = .next (if w.1 = true then extLost w.2 true
      else lnkEvent (((w.2.setBit LNK.STATUS 1 false).setBit LNK.STATUS 0 true).wr LNK.SCEXTSTAT 0) 6) := by
  intro w
  show execExtClearDone s = _
  have hwrite : engineWrite u lnkInit (s.fld LNK.SCEXT 31 12 * 4096) (clearV bs 0) true = w := rfl
  simp only [execExtClearDone, if_pos h, hread, hwrite]
  clear_value w
  obtain ⟨_ | _, t⟩ := w <;> rfl

/-- 11 R283: the extension ends its clearing ready, and lost where an access of it ends in an error. -/
theorem exec_extClearDone (h : s.bit LNK.STATUS 1 = true) :
    let base := s.fld LNK.SCEXT 31 12 * 4096
    let r := engineRead s lnkInit base 524288 true
    let w := engineWrite r.2 lnkInit base (clearV (r.1.getD []) 0) true
    exec .extClearDone s = .next (if r.1.isNone = true then extLost r.2 true else if w.1 = true then extLost w.2 true
      else lnkEvent (((w.2.setBit LNK.STATUS 1 false).setBit LNK.STATUS 0 true).wr LNK.SCEXTSTAT 0) 6) := by
  intro base r
  have hread : engineRead s lnkInit base 524288 true = r := rfl
  clear_value r
  obtain ⟨_ | bs, u⟩ := r
  · exact exec_extClearDone_unread h hread
  · exact exec_extClearDone_read h hread

/-! ### Writes of LNK.CTRL -/

section Control
variable {k : Nat}

theorem access_lnkCtrl (h : Reaches s who LNK.CTRL true) : s.access who LNK.CTRL (some v) = lnkCtrlWrite s v := access_write h rfl

/-- A write that sets one enable moves no other. -/
theorem ctrl_vSet (hkept : ∀ i, i < 5 → v.getLsbD i = s.bit LNK.CTRL i) (hk : k < 5) (hoff : s.bit LNK.CTRL k = false) {i : Nat} (hi : i < 5) :
    (!testB (s.rd LNK.CTRL).toNat i && testB (vSet v k).toNat i) = decide (i = k) ∧
    (testB (s.rd LNK.CTRL).toNat i && !testB (vSet v k).toNat i) = false := by
  rw [testB_vSet v k i (by omega), testB_toNat v, hkept i hi, State.bit]
  by_cases h : i = k
  · subst h
    rw [← State.bit, hoff]
    simp
  · simp [h]

/-- A write that clears one enable moves no other. -/
theorem ctrl_vClr (hkept : ∀ i, i < 5 → v.getLsbD i = s.bit LNK.CTRL i) (hk : k < 5) (hon : s.bit LNK.CTRL k = true) {i : Nat} (hi : i < 5) :
    (!testB (s.rd LNK.CTRL).toNat i && testB (vClr v k).toNat i) = false ∧
    (testB (s.rd LNK.CTRL).toNat i && !testB (vClr v k).toNat i) = decide (i = k) := by
  rw [testB_vClr v k i (by omega), testB_toNat v, hkept i hi, State.bit]
  by_cases h : i = k
  · subst h
    rw [← State.bit, hon]
    simp
  · simp [h]

/-- 11 R283, R284: an enable that rises. -/
theorem lnkCtrlWrite_rises (hkept : ∀ i, i < 5 → v.getLsbD i = s.bit LNK.CTRL i) (hk : k < 5) (hoff : s.bit LNK.CTRL k = false) :
    lnkCtrlWrite s (vSet v k) = lnkStat (((s.wr LNK.CTRL (vSet v k &&& 0x1F)).when (decide (0 = k) && s.lnk.fresh)
      (fun t => (floorNow t).upLnk (fun l => { l with fresh := false }))).when (decide (3 = k)) (fun t => t.setBit LNK.STATUS 1 true)) := by
  have hmoves {i : Nat} (hi : i < 5) := ctrl_vSet hkept hk hoff hi
  simp only [lnkCtrlWrite, hmoves (show 0 < 5 by decide), hmoves (show 1 < 5 by decide), hmoves (show 2 < 5 by decide), hmoves (show 3 < 5 by decide)]
  rfl

/-- 11 R283, R293: an enable that falls. -/
theorem lnkCtrlWrite_falls (hkept : ∀ i, i < 5 → v.getLsbD i = s.bit LNK.CTRL i) (hk : k < 5) (hon : s.bit LNK.CTRL k = true) :
    lnkCtrlWrite s (vClr v k) = lnkStat (((((s.wr LNK.CTRL (vClr v k &&& 0x1F)).when (decide (0 = k)) (fun t => dropRelays (dropAcks t))).when
      (decide (1 = k)) dropAcks).when (decide (2 = k)) dropRelays).when (decide (3 = k)) (fun t => extLost t false)) := by
  have hmoves {i : Nat} (hi : i < 5) := ctrl_vClr hkept hk hon hi
  simp only [lnkCtrlWrite, hmoves (show 0 < 5 by decide), hmoves (show 1 < 5 by decide), hmoves (show 2 < 5 by decide), hmoves (show 3 < 5 by decide)]
  rfl

variable (hreach : Reaches s who LNK.CTRL true) (hkept : ∀ i, i < 5 → v.getLsbD i = s.bit LNK.CTRL i)
include hreach hkept

theorem exec_lnkEnable (hoff : s.bit LNK.CTRL 0 = false) (hfresh : s.lnk.fresh = true) : exec (.lnkEnable who v) s =
    .next (lnkStat ((floorNow (s.wr LNK.CTRL (vSet v 0 &&& 0x1F))).upLnk (fun l => { l with fresh := false }))) := by
  refine congrArg Host.Outcome.next ((access_lnkCtrl hreach).trans ((lnkCtrlWrite_rises hkept (by decide) hoff).trans ?_))
  rw [hfresh]
  rfl

theorem exec_lnkDisable (hon : s.bit LNK.CTRL 0 = true) :
    exec (.lnkDisable who v) s = .next (lnkStat (dropRelays (dropAcks (s.wr LNK.CTRL (vClr v 0 &&& 0x1F))))) :=
  congrArg Host.Outcome.next ((access_lnkCtrl hreach).trans (lnkCtrlWrite_falls hkept (by decide) hon))

theorem exec_ackenDisable (hon : s.bit LNK.CTRL 1 = true) :
    exec (.ackenDisable who v) s = .next (lnkStat (dropAcks (s.wr LNK.CTRL (vClr v 1 &&& 0x1F)))) :=
  congrArg Host.Outcome.next ((access_lnkCtrl hreach).trans (lnkCtrlWrite_falls hkept (by decide) hon))

theorem exec_relayenDisable (hon : s.bit LNK.CTRL 2 = true) :
    exec (.relayenDisable who v) s = .next (lnkStat (dropRelays (s.wr LNK.CTRL (vClr v 2 &&& 0x1F)))) :=
  congrArg Host.Outcome.next ((access_lnkCtrl hreach).trans (lnkCtrlWrite_falls hkept (by decide) hon))

theorem exec_extenEnable (hoff : s.bit LNK.CTRL 3 = false) :
    exec (.extenEnable who v) s = .next (lnkStat ((s.wr LNK.CTRL (vSet v 3 &&& 0x1F)).setBit LNK.STATUS 1 true)) :=
  congrArg Host.Outcome.next ((access_lnkCtrl hreach).trans (lnkCtrlWrite_rises hkept (by decide) hoff))

theorem exec_extenDisable (hon : s.bit LNK.CTRL 3 = true) :
    exec (.extenDisable who v) s = .next (lnkStat (extLost (s.wr LNK.CTRL (vClr v 3 &&& 0x1F)) false)) :=
  congrArg Host.Outcome.next ((access_lnkCtrl hreach).trans (lnkCtrlWrite_falls hkept (by decide) hon))

end Control

/-! ### The buffer pool -/

section Pool
variable {base : Bool}

/-- The register of the pool that a command writes. -/
abbrev poolReg (base : Bool) : Nat := if base then LNK.POOLBASE else LNK.POOLCFG

/-- 11 R294: the bits of it that exist. -/
abbrev poolBits (base : Bool) : Word := if base then 0xFFFFFF80 else 0xF03FF

theorem poolReg_apart : ∀ base : Bool, poolReg base ≠ LNK.POOLSTAT ∧ poolReg base ≠ LNK.STATUS := by decide

theorem access_pool (h : Reaches s who (poolReg base) true) : s.access who (poolReg base) (some v) = poolWrite s base v := by
  refine access_write h ?_
  cases base <;> rfl

/-- The counts of LNK touch no register but POOLSTAT and STATUS. -/
theorem onlyRegs_lnkStat {t : State} {l : List Nat} (h : OnlyRegs s t l) (hpool : LNK.POOLSTAT ∈ l) (hstatus : LNK.STATUS ∈ l) : OnlyRegs s (lnkStat t) l :=
  DramControl.onlyRegs_then (DramControl.onlyRegs_then h hpool _) hstatus _

theorem leaves_poolConfigWrite_refused (h : Reaches s who (poolReg base) true)
    (hbusy : (List.range (s.fld LNK.POOLCFG 9 0)).any (bufBusy s) = true) :
    Leaves (.poolConfigWrite who base v) s (fun t => t.bit LNK.STATUS 3 = true ∧ OnlyRegs s t [LNK.STATUS]) :=
  ⟨_, congrArg Host.Outcome.next ((access_pool h).trans (if_pos hbusy)), State.bit_setBit_self s _ _ (by decide), onlyRegs_setFld s _ _ _ _⟩

/-- 11 R293: a write of a free pool, but for the counts that show it. -/
def poolMoved (s : State) (base : Bool) (v : Word) : State :=
  ((s.wr (poolReg base) (v &&& poolBits base)).setBit LNK.STATUS 3 false).upLnk (fun l => { l with bufs := [] })

theorem poolWrite_free (hfree : (List.range (s.fld LNK.POOLCFG 9 0)).any (bufBusy s) = false) : poolWrite s base v = lnkStat (poolMoved s base v) := by
  refine (if_neg (by simp [hfree])).trans ?_
  cases base <;> rfl

theorem leaves_poolConfigWrite (h : Reaches s who (poolReg base) true) (hfree : (List.range (s.fld LNK.POOLCFG 9 0)).any (bufBusy s) = false) :
    Leaves (.poolConfigWrite who base v) s (fun t => t.bit LNK.STATUS 3 = false ∧ t.lnk.bufs = [] ∧ t.rd (poolReg base) = v &&& poolBits base ∧
      OnlyRegs s t [LNK.STATUS, LNK.POOLSTAT, LNK.POOLBASE, LNK.POOLCFG]) := by
  obtain ⟨hrd, hbit, -, hlnk⟩ := lnkStat_facts (poolMoved s base v)
  obtain ⟨hpoolstat, hstatus⟩ := poolReg_apart base
  have hmem : poolReg base ∈ [LNK.STATUS, LNK.POOLSTAT, LNK.POOLBASE, LNK.POOLCFG] := by cases base <;> decide
  have hmoved : OnlyRegs s (poolMoved s base v) [LNK.STATUS, LNK.POOLSTAT, LNK.POOLBASE, LNK.POOLCFG] :=
    DramControl.onlyRegs_then (onlyRegs_wr s hmem _) (by simp) _
  refine ⟨_, congrArg Host.Outcome.next ((access_pool h).trans (poolWrite_free hfree)), (hbit 3 (by decide)).trans ?_, congrArg Lnk.bufs hlnk,
    (hrd _ hpoolstat hstatus).trans ?_, onlyRegs_lnkStat hmoved (by simp) (by simp)⟩
  · exact State.bit_setBit_self (s.wr (poolReg base) _) _ _ (by decide)
  · exact (State.rd_setBit_ne (s.wr (poolReg base) _) hstatus _ _).trans (State.rd_wr_self s _ _)

end Pool

/-! ### The statement -/

/-- Settles O47: each command of the link leaves what its own rule above says. -/
theorem linkTakesFramesAndDropsWhatItMust : Obligations.LinkTakesFramesAndDropsWhatItMust := by
  unfold Obligations.LinkTakesFramesAndDropsWhatItMust
  intro who v s
  refine ⟨fun x l hrx => ?_, exec_micVerifyDone_disabled, fun w l f b hon hmic hparse hbuf htype => ?_, fun k r hk hwaits => ?_, leaves_floorExpire,
    exec_extClearDone, fun hreach hkept => ?_, fun base hreach => ⟨leaves_poolConfigWrite_refused hreach, leaves_poolConfigWrite hreach⟩⟩
  · -- Reception
    refine ⟨fun hoff => leaves_frameLost (exec_lnkFrameReceive_disabled hrx hoff),
      fun hon hfree => (exec_lnkFrameReceive hrx hon).trans (frameJudged_noBuf hfree),
      fun b hon hfree hfits hparse => leaves_frameLost ((exec_lnkFrameReceive hrx hon).trans (frameJudged_unread hfree hfits hparse)),
      fun b f hon hfree hfits hparse => ⟨fun hbad => leaves_frameLost ((exec_lnkFrameReceive hrx hon).trans (frameJudged_invalid hfree hfits hparse hbad)),
        fun hvalid hsec htype hnid => (exec_lnkFrameReceive hrx hon).trans (frameJudged_flood hfree hfits hparse hvalid hsec htype ?_)⟩⟩
    exact hnid.trans (fld_of_rd (frameSampled_rd s x l (by decide)) 15 0).symm
  · -- The MIC
    exact ⟨fun hst => (exec_micVerifyDone hon hmic hparse).trans (congrArg _ (micResult_passed hbuf htype hst)),
      fun hst => (exec_micVerifyDone hon hmic hparse).trans (congrArg _ (micResult_failed hbuf htype hst)),
      fun hpass hfail => (exec_micVerifyDone hon hmic hparse).trans (congrArg _ (micResult_refused hbuf htype hpass hfail))⟩
  · exact ⟨exec_relayStart_early hk hwaits, leaves_relayStart_offered hk hwaits, exec_relayStart_dropped hk hwaits⟩
  · exact ⟨exec_lnkEnable hreach hkept, exec_lnkDisable hreach hkept, exec_ackenDisable hreach hkept, exec_relayenDisable hreach hkept,
      exec_extenEnable hreach hkept, exec_extenDisable hreach hkept⟩

end Sys2Proof.LinkController
end

section
/-! PROOF. Network time (12 R297 to R300) and the writes that move the tracker (12 R313).  Each register's write is said once in each of its cases; the
commands that write it are that write through the access. -/
namespace Sys2Proof.NetworkTime
open Sys2Proof.Machine Sys2Proof.Safety Sys2Proof.Reg

variable {s : State} {who : Nat} {v : Word}

/-! ### The source, the end of a slew and of a hold -/

theorem leaves_ntSourceChange (s : State) :
    Leaves .ntSourceChange s (fun t => t.bit LNK.NTSTAT 7 = (!s.bit CLK.STATUS 1) ∧ t.nt = s.nt ∧ OnlyRegs s t [LNK.NTSTAT]) :=
  ⟨_, rfl, State.bit_setBit_self s _ _ (by decide), rfl, onlyRegs_setFld s _ _ _ _⟩

theorem leaves_slewDone (hslewing : s.bit LNK.NTSTAT 4 = true) (hused : s.ntime.slew = 0) :
    Leaves .slewDone s (fun t => t.nt = s.nt ∧ t.bit LNK.NTSTAT 4 = false ∧ t.ntime = s.ntime ∧ OnlyRegs s t [LNK.NTSTAT]) :=
  ⟨_, if_pos ⟨hslewing, hused⟩, rfl, State.bit_setBit_self s _ _ (by decide), rfl, onlyRegs_setFld s _ _ _ _⟩

theorem leaves_backholdEnd (hheld : s.bit LNK.NTSTAT 5 = true) (hreached : s.ntime.top.toNat ≤ s.nt.toNat) :
    Leaves .backholdEnd s (fun t => t.bit LNK.NTSTAT 5 = false ∧ t.nt = s.nt ∧ OnlyRegs s t [LNK.NTSTAT]) :=
  ⟨_, if_pos ⟨hheld, hreached⟩, State.bit_setBit_self s _ _ (by decide), rfl, onlyRegs_setFld s _ _ _ _⟩

/-! ### Adjustments -/

theorem exec_ntAdjust (h : Reaches s who LNK.NTADJ true) : exec (.ntAdjust who v) s = .next (ntAdjust s v.toInt false) := by
  rw [← sint32]
  exact congrArg Host.Outcome.next (access_write h rfl)

theorem ntAdjust_slews {d : Int} (hup : d ≤ 32000) (hdown : -32000 ≤ d ∨ s.bit LNK.NTCFG 0 = false) : ntAdjust s d false = ntSlew s d := by
  refine if_neg ?_
  obtain hsmall | hforbidden := hdown
  · simp [hup, hsmall]
  · simp [hup, hforbidden]

theorem ntAdjust_steps {d : Int} (h : 32000 < d ∨ (d < -32000 ∧ s.bit LNK.NTCFG 0 = true)) :
    ntAdjust s d false = ntStep (ntSlew s 0) (s.nt + BitVec.ofInt 64 d) := by
  refine if_pos ?_
  obtain hforward | ⟨hback, hallowed⟩ := h
  · simp [hforward]
  · simp [hback, hallowed]

theorem leaves_ntAdjust_slew (h : Reaches s who LNK.NTADJ true) (hup : v.toInt ≤ 32000) (hdown : -32000 ≤ v.toInt ∨ s.bit LNK.NTCFG 0 = false) :
    Leaves (.ntAdjust who v) s (fun t => t.nt = s.nt ∧ t.ntime.slew = v.toInt ∧ t.bit LNK.NTSTAT 4 = (v.toInt != 0) ∧ OnlyRegs s t [LNK.NTSTAT]) :=
  ⟨_, (exec_ntAdjust h).trans (congrArg _ (ntAdjust_slews hup hdown)), rfl, rfl, State.bit_setBit_self s _ _ (by decide), onlyRegs_setFld s _ _ _ _⟩

/-- 12 R299: a step ends a slew and is an event; it holds sealing back where the time falls, and otherwise keeps a hold until its highest value is reached. -/
theorem leaves_ntAdjust_step (h : Reaches s who LNK.NTADJ true) (hstep : 32000 < v.toInt ∨ (v.toInt < -32000 ∧ s.bit LNK.NTCFG 0 = true)) :
    Leaves (.ntAdjust who v) s (fun t => t.nt = s.nt + BitVec.ofInt 64 v.toInt ∧ t.bit LNK.NTSTAT 4 = false ∧ t.bit LNK.TEVT 2 = true ∧
      t.bit LNK.NTSTAT 5 = (if t.nt.toNat < s.nt.toNat then true else s.bit LNK.NTSTAT 5 && decide (t.nt.toNat < s.ntime.top.toNat))) := by
  obtain ⟨hnt, hslewing, hevent, hheld⟩ := ntStep_facts s (s.nt + BitVec.ofInt 64 v.toInt)
  refine ⟨_, (exec_ntAdjust h).trans (congrArg _ (ntAdjust_steps hstep)), hnt, hslewing, hevent, ?_⟩
  rw [hnt, hheld]

theorem leaves_ntAdjust_forward (h : Reaches s who LNK.NTADJ true) (hlarge : 32000 < v.toInt) :
    Leaves (.ntAdjust who v) s (fun t => t.nt = s.nt + BitVec.ofInt 64 v.toInt ∧ t.bit LNK.NTSTAT 4 = false ∧ t.bit LNK.TEVT 2 = true ∧
      (s.nt.toNat < t.nt.toNat → t.bit LNK.NTSTAT 5 = (s.bit LNK.NTSTAT 5 && decide (t.nt.toNat < s.ntime.top.toNat)))) := by
  obtain ⟨t, hexec, hnt, hslewing, hevent, hheld⟩ := leaves_ntAdjust_step h (.inl hlarge)
  exact ⟨t, hexec, hnt, hslewing, hevent, fun hrises => hheld.trans (if_neg hrises.le.not_gt)⟩

theorem leaves_ntAdjust_backward (h : Reaches s who LNK.NTADJ true) (hlarge : v.toInt < -32000) (hallowed : s.bit LNK.NTCFG 0 = true) :
    Leaves (.ntAdjust who v) s (fun t => t.nt = s.nt + BitVec.ofInt 64 v.toInt ∧ t.bit LNK.NTSTAT 4 = false ∧ t.bit LNK.TEVT 2 = true ∧
      (t.nt.toNat < s.nt.toNat → t.bit LNK.NTSTAT 5 = true)) := by
  obtain ⟨t, hexec, hnt, hslewing, hevent, hheld⟩ := leaves_ntAdjust_step h (.inr ⟨hlarge, hallowed⟩)
  exact ⟨t, hexec, hnt, hslewing, hevent, fun hfalls => hheld.trans (if_pos hfalls)⟩

/-! ### Setting and reading the time -/

theorem leaves_ntSet (h : Reaches s who LNK.NTSETHI true) :
    Leaves (.ntSet who v) s (fun t => t.ntime.set = some (BitVec.ofNat 64 (v.toNat * 2 ^ 32 + (s.rd LNK.NTSETLO).toNat)) ∧ t.nt = s.nt ∧
      OnlyRegs s t [LNK.NTSETHI]) :=
  ⟨_, congrArg Host.Outcome.next (access_write h rfl), rfl, rfl, onlyRegs_wr s (List.mem_singleton_self _) v⟩

/-- 12 R300: the three registers of the latch show the same instant. -/
theorem ntLatch_rd (s : State) : (ntLatch s).rd LNK.NTLO = BitVec.ofNat 32 s.nt.toNat ∧ (ntLatch s).rd LNK.NTHI = BitVec.ofNat 32 (s.nt.toNat / 2 ^ 32) ∧
    (ntLatch s).rd LNK.NTSEC = BitVec.ofNat 32 (s.nt.toNat / 32000000) := by
  refine ⟨?_, ?_, State.rd_wr_self _ _ _⟩
  · exact (State.rd_wr_ne _ (by decide) _).trans ((State.rd_wr_ne _ (by decide) _).trans (State.rd_wr_self s _ _))
  · exact (State.rd_wr_ne _ (by decide) _).trans (State.rd_wr_self _ _ _)

theorem onlyRegs_ntLatch (s : State) : OnlyRegs s (ntLatch s) [LNK.NTLO, LNK.NTHI, LNK.NTSEC] :=
  DramControl.onlyRegs_then (DramControl.onlyRegs_then (onlyRegs_wr s (by simp) _) (by simp) _) (by simp) _

theorem leaves_ntRead (h : Reaches s who LNK.NTLO false) :
    Leaves (.ntRead who) s (fun t => t.rdata = BitVec.ofNat 32 s.nt.toNat ∧ t.rd LNK.NTHI = BitVec.ofNat 32 (s.nt.toNat / 2 ^ 32) ∧
      t.rd LNK.NTSEC = BitVec.ofNat 32 (s.nt.toNat / 32000000) ∧ OnlyRegs s t [LNK.NTLO, LNK.NTHI, LNK.NTSEC]) := by
  have hread : regRead s who LNK.NTLO = ((ntLatch s).rd LNK.NTLO, ntLatch s) := rfl
  obtain ⟨hlo, hhi, hsec⟩ := ntLatch_rd s
  refine ⟨_, congrArg Host.Outcome.next (access_read h), ?_⟩
  rw [hread]
  exact ⟨hlo, hhi, hsec, onlyRegs_ntLatch s⟩

/-! ### The tracker's state -/

theorem trkState_wr {a : Nat} (h : LNK.NTSTAT ≠ a) (w : Word) : trkState (s.wr a w) = trkState s := State.fld_wr_ne s h w 2 0

/-- 12 R313: a change of the tracker's state shows in NTSTAT, and in NTAGE on the way to UNSYNC. -/
theorem onlyRegs_setTrk (s : State) (k : Nat) {l : List Nat} (hstat : LNK.NTSTAT ∈ l) (hage : LNK.NTAGE ∈ l) : OnlyRegs s (setTrk s k) l := by
  obtain ⟨hrd, hmem, -⟩ := setTrk_facts s k
  exact ⟨fun a ha => hrd a (fun e => ha (e ▸ hstat)) (fun e => ha (e ▸ hage)), byte_of_mem hmem⟩

/-! ### Writes of BCNCFG -/

theorem access_bcncfg (h : Reaches s who LNK.BCNCFG true) : s.access who LNK.BCNCFG (some v) = bcnCfgWrite s v := access_write h rfl

/-- 12 R313: ROOT set outside ROOT. -/
theorem bcnCfgWrite_root (hroot : testB v.toNat 1 = true) (hst : trkState s ≠ 6) :
    bcnCfgWrite s v = receiverRelease ((setTrk (s.wr LNK.BCNCFG (v &&& 0xFF0F)) 6).upTrk (fun t => { t with window := false })) := by
  refine (if_pos hroot).trans (if_neg ?_)
  rwa [trkState_wr (by decide)]

/-- 12 R313: TRACKEN cleared without ROOT. -/
theorem bcnCfgWrite_off (hroot : testB v.toNat 1 = false) (hwas : s.bit LNK.BCNCFG 0 = true) (hen : testB v.toNat 0 = false) :
    bcnCfgWrite s v = receiverRelease ((setTrk (s.wr LNK.BCNCFG (v &&& 0xFF0F)) 7).upTrk (fun t => { t with window := false })) :=
  (if_neg (by simp [hroot])).trans (if_pos ⟨hwas, by simp [hen]⟩)

/-- 12 R313: TRACKEN set without ROOT, in ROOT or OFF. -/
theorem bcnCfgWrite_on (hroot : testB v.toNat 1 = false) (hen : testB v.toNat 0 = true) (hst : trkState s = 6 ∨ trkState s = 7) :
    bcnCfgWrite s v = setTrk (s.wr LNK.BCNCFG (v &&& 0xFF0F)) 0 := by
  refine (if_neg (by simp [hroot])).trans ((if_neg (by simp [hen])).trans (if_pos ⟨hen, ?_⟩))
  rwa [trkState_wr (by decide)]

theorem exec_trackerRoot (h : Reaches s who LNK.BCNCFG true) (hst : trkState s ≠ 6) : exec (.trackerRoot who v) s =
    .next (receiverRelease ((setTrk (s.wr LNK.BCNCFG (vSet v 1 &&& 0xFF0F)) 6).upTrk (fun t => { t with window := false }))) := by
  have hroot : testB (vSet v 1).toNat 1 = true := by simp [testB_vSet]
  exact congrArg Host.Outcome.next ((access_bcncfg h).trans (bcnCfgWrite_root hroot hst))

theorem exec_trackerDisable (h : Reaches s who LNK.BCNCFG true) (hwas : s.bit LNK.BCNCFG 0 = true) : exec (.trackerDisable who v) s =
    .next (receiverRelease ((setTrk (s.wr LNK.BCNCFG (vClr (vClr v 0) 1 &&& 0xFF0F)) 7).upTrk (fun t => { t with window := false }))) := by
  have hroot : testB (vClr (vClr v 0) 1).toNat 1 = false := by simp [testB_vClr]
  have hen : testB (vClr (vClr v 0) 1).toNat 0 = false := by simp [testB_vClr]
  exact congrArg Host.Outcome.next ((access_bcncfg h).trans (bcnCfgWrite_off hroot hwas hen))

/-- 12 R313: what the way to UNSYNC through a write of BCNCFG leaves. -/
theorem bcnUnsync_facts (s : State) (w : Word) : let t := setTrk (s.wr LNK.BCNCFG w) 0
    trkState t = 0 ∧ t.rd LNK.NTAGE = 0xFFFFFFFF ∧ t.nt = s.nt ∧ OnlyRegs s t [LNK.BCNCFG, LNK.NTSTAT, LNK.NTAGE] := by
  obtain ⟨-, -, hnt, hstate, hage, -⟩ := setTrk_facts (s.wr LNK.BCNCFG w) 0
  exact ⟨hstate, hage.trans (if_pos rfl), hnt,
    onlyRegs_trans (onlyRegs_wr s (List.mem_cons_self ..) w) (onlyRegs_setTrk _ 0 (by simp) (by simp)) fun _ hmem => hmem⟩

theorem leaves_trackerEnable (h : Reaches s who LNK.BCNCFG true) (hst : trkState s = 6 ∨ trkState s = 7) :
    Leaves (.trackerEnable who v) s (fun t => trkState t = 0 ∧ t.rd LNK.NTAGE = 0xFFFFFFFF ∧ t.nt = s.nt ∧
      OnlyRegs s t [LNK.BCNCFG, LNK.NTSTAT, LNK.NTAGE]) := by
  have hroot : testB (vClr (vSet v 0) 1).toNat 1 = false := by simp [testB_vClr]
  have hen : testB (vClr (vSet v 0) 1).toNat 0 = true := by simp [testB_vClr, testB_vSet]
  exact ⟨_, congrArg Host.Outcome.next ((access_bcncfg h).trans (bcnCfgWrite_on hroot hen hst)), bcnUnsync_facts s _⟩

/-! ### Writes of the parent -/

section Parent
variable {hi : Bool}

/-- The half of the parent's address that a command writes. -/
abbrev parentReg (hi : Bool) : Nat := if hi then LNK.PARENT1 else LNK.PARENT0

theorem access_parent (h : Reaches s who (parentReg hi) true) : s.access who (parentReg hi) (some v) = parentWrite s hi v := by
  refine access_write h ?_
  cases hi <;> rfl

/-- 12 R313: a write of the parent loses it in SYNCED, MISS1 and MISS2 only. -/
theorem parentWrite_eq (s : State) (hi : Bool) (v : Word) : parentWrite s hi v =
    if trkState s = 1 ∨ trkState s = 2 ∨ trkState s = 3 then trackerLost (s.wr (parentReg hi) v) false else s.wr (parentReg hi) v := by
  have hkeeps : trkState (s.wr (parentReg hi) v) = trkState s := trkState_wr (by cases hi <;> decide) v
  rw [← hkeeps]
  cases hi <;> rfl

theorem leaves_parentWrite_unsynced (h : Reaches s who (parentReg hi) true) (hst : trkState s = 0 ∨ 4 ≤ trkState s) :
    Leaves (.parentWrite who hi v) s (fun t => t.rd (parentReg hi) = v ∧ OnlyRegs s t [LNK.PARENT0, LNK.PARENT1]) := by
  have hmem : parentReg hi ∈ [LNK.PARENT0, LNK.PARENT1] := by cases hi <;> decide
  have hunsynced : ¬ (trkState s = 1 ∨ trkState s = 2 ∨ trkState s = 3) := by omega
  exact ⟨_, congrArg Host.Outcome.next ((access_parent h).trans ((parentWrite_eq s hi v).trans (if_neg hunsynced))),
    State.rd_wr_self s _ _, onlyRegs_wr s hmem _⟩

theorem exec_parentWrite_synced (h : Reaches s who (parentReg hi) true) (hst : trkState s = 1 ∨ trkState s = 2 ∨ trkState s = 3) :
    exec (.parentWrite who hi v) s =
      .next (receiverForce ((setTrk (s.wr (parentReg hi) v) 4).upTrk (fun t => { t with since := s.nt, search := 0, window := false }))) := by
  refine congrArg Host.Outcome.next ((access_parent h).trans ((parentWrite_eq s hi v).trans (if_pos hst)))

end Parent

/-! ### The statement -/

/-- Settles O48: each command on network time and each write that moves the tracker leaves what its own rule above says. -/
theorem networkTimeFollowsItsAdjustments : Obligations.NetworkTimeFollowsItsAdjustments := by
  unfold Obligations.NetworkTimeFollowsItsAdjustments
  intro who v s
  exact ⟨leaves_ntSourceChange s, leaves_slewDone, leaves_backholdEnd,
    fun hreach => ⟨leaves_ntAdjust_slew hreach, leaves_ntAdjust_forward hreach, leaves_ntAdjust_backward hreach⟩,
    leaves_ntSet, leaves_ntRead,
    fun hreach => ⟨fun hst => ⟨exec_trackerRoot hreach hst, bcnRoot_facts s (vSet v 1 &&& 0xFF0F)⟩, exec_trackerDisable hreach, leaves_trackerEnable hreach⟩,
    fun hi hreach => ⟨leaves_parentWrite_unsynced hreach, exec_parentWrite_synced hreach⟩⟩

end Sys2Proof.NetworkTime
end

section
/-! PROOF. The windows of the tracker (12 R313, R314, R316) and of the listen schedule (12 R309, R310, R312, R319): each opens, waits and closes by its instants. -/
namespace Sys2Proof.TrackerAndSchedule
open Sys2Proof.Machine Sys2Proof.Safety Sys2Proof.Reg

variable {s : State}

/-! ### The window of the expected beacon -/

theorem exec_beaconWindowOpen (hst : trkState s = 1 ∨ trkState s = 2 ∨ trkState s = 3) (hdue : beaconStart s ≤ s.nt.toNat + beaconGuard s) :
    exec .beaconWindowOpen s =
      .next (receiverForce ((beaconPlan s).upTrk (fun t => { t with window := true, applied := false, next := beaconEnd s }))) :=
  if_pos ⟨hst, hdue⟩

theorem exec_beaconWindowOpen_early (hearly : s.nt.toNat + beaconGuard s < beaconStart s) : exec .beaconWindowOpen s = .next s :=
  if_neg fun h => hearly.not_ge h.2

theorem exec_beaconWindowClose_early (hearly : s.nt.toNat < s.trk.next.toNat) : exec .beaconWindowClose s = .next s :=
  if_neg fun h => hearly.not_ge h.2.2.2

/-- The state as the window of the expected beacon has closed. -/
def beaconClosed (s : State) : State := s.upTrk (fun t => { t with window := false, applied := false })

/-- 12 R313: a miss counted, the expected instant one period on. -/
def beaconMissed (s : State) : State :=
  ((beaconClosed s).bump LNK.CNTBCN 31 16 1).upTrk (fun t => { t with x := t.x + BitVec.ofNat 64 (beaconPeriod s) })

/-- The count of misses is apart from the tracker's registers. -/
theorem fld_missCounted (s : State) {a : Nat} (h : a ≠ LNK.CNTBCN) (hi lo : Nat) :
    ((beaconClosed s).bump LNK.CNTBCN 31 16 1).fld a hi lo = s.fld a hi lo :=
  fld_of_rd (State.rd_bump_ne (beaconClosed s) h 31 16 1) hi lo

theorem trkState_beaconMissed (s : State) : trkState (beaconMissed s) = trkState s := fld_missCounted s (by decide) 2 0

theorem beaconMissed_eq (s : State) : beaconMissed s = ((beaconClosed s).bump LNK.CNTBCN 31 16 1).upTrk
    (fun t => { t with x := t.x + BitVec.ofNat 64 (beaconPeriod ((beaconClosed s).bump LNK.CNTBCN 31 16 1)) }) := by
  have hperiod : beaconPeriod ((beaconClosed s).bump LNK.CNTBCN 31 16 1) = beaconPeriod s :=
    congrArg (fun n => 32000000 * 2 ^ n) (fld_missCounted s (by decide) 3 0)
  rw [hperiod]
  rfl

/-- 12 R313: SYNCED, MISS1, MISS2 and then LOST in turn. -/
theorem trackerMiss_states (s : State) :
    (trkState s = 1 → trackerMiss (beaconClosed s) = beaconPlan (setTrk (beaconMissed s) 2)) ∧
    (trkState s = 2 → trackerMiss (beaconClosed s) = beaconPlan (setTrk (beaconMissed s) 3)) ∧
    (trkState s = 3 → trackerMiss (beaconClosed s) = trackerLost (beaconMissed s) true) := by
  rw [← trkState_beaconMissed s]
  exact tracker_miss (beaconClosed s) (beaconMissed s) (beaconMissed_eq s)

section Close
variable (hst : trkState s = 1 ∨ trkState s = 2 ∨ trkState s = 3) (hopen : s.trk.window = true) (hfree : busyCnt s = 0)
  (hdue : s.trk.next.toNat ≤ s.nt.toNat)
include hst hopen hfree hdue

theorem exec_beaconWindowClose : exec .beaconWindowClose s =
    .next (receiverRelease (if s.trk.applied then beaconClosed s else trackerMiss (beaconClosed s))) :=
  if_pos ⟨hopen, hfree, by omega, hdue⟩

theorem exec_beaconWindowClose_applied (happlied : s.trk.applied = true) : exec .beaconWindowClose s = .next (receiverRelease (beaconClosed s)) := by
  rw [exec_beaconWindowClose hst hopen hfree hdue, if_pos happlied]

theorem exec_beaconWindowClose_missed {t : State} (hmissed : s.trk.applied = false) (hmiss : trackerMiss (beaconClosed s) = t) :
    exec .beaconWindowClose s = .next (receiverRelease t) := by
  rw [exec_beaconWindowClose hst hopen hfree hdue, if_neg (by simp [hmissed]), hmiss]

end Close

/-! ### Searches -/

theorem exec_searchStart (hst : trkState s = 4) (hdue : s.trk.since.toNat + 2 * beaconPeriod s ≤ s.nt.toNat) :
    exec .searchStart s = .next (receiverRelease (planSearch (setTrk s 5) 1)) := if_pos ⟨hst, hdue⟩

theorem exec_searchStart_early (hearly : s.nt.toNat < s.trk.since.toNat + 2 * beaconPeriod s) : exec .searchStart s = .next s :=
  if_neg fun h => hearly.not_ge h.2

theorem exec_searchWindowOpen (hst : trkState s = 5) (hclosed : s.trk.window = false) (hdue : s.trk.next.toNat ≤ s.nt.toNat) :
    exec .searchWindowOpen s = .next (receiverForce (s.upTrk (fun t => { t with window := true, since := s.nt }))) :=
  if_pos ⟨hst, by simp [hclosed], hdue⟩

theorem exec_searchWindowEnd (hst : trkState s = 5) (hopen : s.trk.window = true)
    (hdue : s.trk.since.toNat + beaconPeriod s + 3200000 ≤ s.nt.toNat) :
    exec .searchWindowEnd s = .next (receiverRelease (planSearch s (s.trk.search + 1))) := if_pos ⟨hst, hopen, hdue⟩

/-- 12 R316: what planning a search leaves. -/
theorem planSearch_facts (s : State) (i : Nat) :
    (planSearch s i).trk.next = s.nt + BitVec.ofNat 64 (min (2 ^ i * beaconPeriod s) (1800 * 32000000)) ∧ (planSearch s i).trk.search = i ∧
      (planSearch s i).trk.window = false ∧ OnlyRegs s (planSearch s i) [LNK.BCNNEXT] :=
  ⟨rfl, rfl, rfl, onlyRegs_wr (s.upTrk _) (List.mem_singleton_self _) _⟩

/-! ### The own listen window -/

theorem exec_listenWindowOpen (hen : testB s.sched.cfg.toNat 0 = true) (hclosed : s.sched.own = false) (hdue : thisListen s ≤ s.nt.toNat) :
    exec .listenWindowOpen s = .next (schNext (receiverForce
      ((s.upSched (fun c => { c with own := true, ext := false, at_ := BitVec.ofNat 64 (thisListen s), win := c.cfg })).bump LNK.SCHCNT 15 0 1))) :=
  if_pos ⟨hen, by simp [hclosed], hdue⟩

theorem exec_listenWindowOpen_early (hearly : s.nt.toNat < thisListen s) : exec .listenWindowOpen s = .next s :=
  if_neg fun h => hearly.not_ge h.2.2

/-- 12 R310: the end of an own window that finds no activity. -/
abbrev listenEnd (s : State) : Nat := s.sched.at_.toNat + winTicks s.sched.win

/-- 12 R310: the latest end of an own window that the channel holds open. -/
abbrev listenLimit (s : State) : Nat := listenEnd s + 128000 * bitsOf s.sched.win 31 24

/-- 12 R310: an own window that stays open is counted once. -/
def listenExtended (s : State) : State := (if s.sched.ext then s else s.bump LNK.SCHCNT 31 16 1).upSched (fun c => { c with ext := true })

theorem listenExtended_facts (s : State) : (listenExtended s).sched = { s.sched with ext := true } ∧
    (listenExtended s).fld LNK.SCHCNT 31 16 = (if s.sched.ext then s.fld LNK.SCHCNT 31 16 else min (s.fld LNK.SCHCNT 31 16 + 1) 0xFFFF) ∧
    OnlyRegs s (listenExtended s) [LNK.SCHCNT] := by
  unfold listenExtended
  split
  · exact ⟨rfl, rfl, DramControl.onlyRegs_refl s _⟩
  · exact ⟨rfl, State.fld_bump_self s LNK.SCHCNT (by decide) (by decide), onlyRegs_setFld s _ _ _ _⟩

section Own
variable (hopen : s.sched.own = true)
include hopen

/-- 12 R310: an open own window waits, stays open or closes by its instants and the channel. -/
theorem exec_listenWindowClose : exec .listenWindowClose s =
    if s.nt.toNat < listenEnd s then .next s
    else if channelActive s ∧ s.nt.toNat < listenLimit s then .next (listenExtended s)
    else if busyCnt s ≠ 0 then .next s
    else .next (receiverRelease (s.upSched (fun c => { c with own := false, ext := false }))) := if_pos hopen

theorem exec_listenWindowClose_early (hearly : s.nt.toNat < listenEnd s) : exec .listenWindowClose s = .next s :=
  (exec_listenWindowClose hopen).trans (if_pos hearly)

theorem leaves_listenWindowClose_active (hdue : listenEnd s ≤ s.nt.toNat) (hactive : channelActive s = true) (hlimit : s.nt.toNat < listenLimit s) :
    Leaves .listenWindowClose s (fun t => t.sched = { s.sched with ext := true } ∧
      t.fld LNK.SCHCNT 31 16 = (if s.sched.ext then s.fld LNK.SCHCNT 31 16 else min (s.fld LNK.SCHCNT 31 16 + 1) 0xFFFF) ∧ OnlyRegs s t [LNK.SCHCNT]) :=
  ⟨_, (exec_listenWindowClose hopen).trans ((if_neg hdue.not_gt).trans (if_pos ⟨hactive, hlimit⟩)), listenExtended_facts s⟩

/-- From its end on a window that the channel cannot hold open closes unless a frame is in progress. -/
theorem exec_listenWindowClose_due (hdue : listenEnd s ≤ s.nt.toNat) (hidle : channelActive s = false ∨ listenLimit s ≤ s.nt.toNat) :
    exec .listenWindowClose s = if busyCnt s ≠ 0 then .next s
      else .next (receiverRelease (s.upSched (fun c => { c with own := false, ext := false }))) := by
  have hshut : ¬ (channelActive s = true ∧ s.nt.toNat < listenLimit s) := fun h =>
    hidle.elim (fun hquiet => by simp [hquiet] at h) (fun hlate => hlate.not_gt h.2)
  exact (exec_listenWindowClose hopen).trans ((if_neg hdue.not_gt).trans (if_neg hshut))

theorem exec_listenWindowClose_busy (hlimit : listenLimit s ≤ s.nt.toNat) (hbusy : busyCnt s ≠ 0) : exec .listenWindowClose s = .next s :=
  (exec_listenWindowClose_due hopen ((Nat.le_add_right _ _).trans hlimit) (.inr hlimit)).trans (if_pos hbusy)

theorem exec_listenWindowClose_closes (hdue : listenEnd s ≤ s.nt.toNat) (hidle : channelActive s = false ∨ listenLimit s ≤ s.nt.toNat)
    (hfree : busyCnt s = 0) :
    exec .listenWindowClose s = .next (receiverRelease (s.upSched (fun c => { c with own := false, ext := false }))) :=
  (exec_listenWindowClose_due hopen hdue hidle).trans (if_neg (not_not.2 hfree))

end Own

/-! ### Announced windows and the cycle boundary -/

section Announced
variable {x : BitVec 64} (hann : s.sched.ann = some x)
include hann

theorem exec_announcedWindowOpen : exec .announcedWindowOpen s =
    if s.nt.toNat < x.toNat then .next s
    else .next (receiverForce (s.upSched (fun c => { c with annOpen := true, annAt := x, annWin := s.sched.cfg, ann := none }))) := by
  show execAnnouncedWindowOpen s = _
  simp only [execAnnouncedWindowOpen, hann]

theorem exec_announcedWindowOpen_due (hdue : x.toNat ≤ s.nt.toNat) : exec .announcedWindowOpen s =
    .next (receiverForce (s.upSched (fun c => { c with annOpen := true, annAt := x, annWin := s.sched.cfg, ann := none }))) :=
  (exec_announcedWindowOpen hann).trans (if_neg hdue.not_gt)

theorem exec_announcedWindowOpen_early (hearly : s.nt.toNat < x.toNat) : exec .announcedWindowOpen s = .next s :=
  (exec_announcedWindowOpen hann).trans (if_pos hearly)

end Announced

theorem exec_announcedWindowClose (hopen : s.sched.annOpen = true)
    (hdue : s.sched.annAt.toNat + 32000 + winTicks s.sched.annWin ≤ s.nt.toNat) :
    exec .announcedWindowClose s = .next (receiverRelease (s.upSched (fun c => { c with annOpen := false }))) := if_pos ⟨hopen, hdue⟩

theorem leaves_scheduleCycleBoundary (s : State) :
    Leaves .scheduleCycleBoundary s (fun t => t.sched = { s.sched with cfg := s.rd LNK.SCHCFG } ∧ OnlyRegs s t [LNK.SCHNEXT]) :=
  ⟨_, rfl, rfl, onlyRegs_wr (s.upSched _) (List.mem_singleton_self _) _⟩

/-! ### The statement -/

/-- Settles O49: each window of the tracker and of the schedule follows its own rule above. -/
theorem trackerAndScheduleKeepTheirWindows : Obligations.TrackerAndScheduleKeepTheirWindows := by
  unfold Obligations.TrackerAndScheduleKeepTheirWindows
  intro s
  refine ⟨fun hst => ?_, exec_searchStart, exec_searchStart_early, fun hst => ⟨exec_searchWindowOpen hst, exec_searchWindowEnd hst⟩,
    planSearch_facts s, fun hen hclosed => ⟨exec_listenWindowOpen hen hclosed, exec_listenWindowOpen_early⟩, fun hopen => ?_,
    fun x hann => ⟨exec_announcedWindowOpen_due hann, exec_announcedWindowOpen_early hann⟩, exec_announcedWindowClose, leaves_scheduleCycleBoundary s⟩
  · -- The window of the expected beacon
    refine ⟨exec_beaconWindowOpen hst, exec_beaconWindowOpen_early, exec_beaconWindowClose_early, fun hopen hfree hdue => ?_⟩
    obtain ⟨hmiss1, hmiss2, hlost⟩ := trackerMiss_states s
    have hmissed {t : State} := exec_beaconWindowClose_missed (t := t) hst hopen hfree hdue
    exact ⟨exec_beaconWindowClose_applied hst hopen hfree hdue,
      fun hnone => ⟨fun h => hmissed hnone (hmiss1 h), fun h => hmissed hnone (hmiss2 h), fun h => hmissed hnone (hlost h)⟩⟩
  · -- The own listen window
    exact ⟨exec_listenWindowClose_early hopen, leaves_listenWindowClose_active hopen, exec_listenWindowClose_busy hopen, exec_listenWindowClose_closes hopen⟩

end Sys2Proof.TrackerAndSchedule
end

section
/-! PROOF. The fault log (20 R482, R489) and the step (95): an entry at the head of the ring, and the command at the front of the queue. -/
namespace Sys2Proof.FaultLog
open Sys2Proof.Machine Sys2Proof.Safety Sys2Proof.Reg

variable {s : State}

/-- 20 R489: REPEAT, read as a proposition. -/
theorem logRepeats_iff {cls : Nat} {loc : Word} : logRepeats s cls loc = true ↔
    s.fld FLT.LOGHEAD 31 16 ≠ 0 ∧ s.fld (FLT.LOG ((s.fld FLT.LOGHEAD 5 0 + 63) % 64) 2) 7 0 = cls % 256 ∧
      s.rd (FLT.LOG ((s.fld FLT.LOGHEAD 5 0 + 63) % 64) 3) = loc := by
  simp only [logRepeats, Bool.and_eq_true, decide_eq_true_eq, and_assoc]

/-- Word 2 of an entry of class 0x0C with REC, whose REPEAT is a condition. -/
theorem logWord2_vcore (p : Prop) [Decidable p] :
    logWord2 0x0C 0 0 (1 + if p then 4 else 0) = BitVec.ofNat 32 (0x0C + 0x1000000 * (1 + if p then 4 else 0)) := by
  split <;> rfl

/-- Settles O27: VCORE off its target is one entry of the log, `logFault_entry` says what that leaves in FLT, and an entry changes nothing
outside FLT and CUE. -/
theorem faultTakesOneLogEntry : Obligations.FaultTakesOneLogEntry := by
  unfold Obligations.FaultTakesOneLogEntry
  intro s
  obtain ⟨htime0, htime1, hword, hloc, hhead, hcount, hovf, hothers, -⟩ := logFault_entry s 0x0C 0 0 1 0
  refine ⟨_, rfl, htime0, htime1, hword.trans ?_, hloc, hhead, hcount, hovf, ?_, fun hfull => ?_, hothers,
    fun a hflt hcue => logFault_rd s _ _ _ _ _ hcue hflt, fun a => byte_of_mem (logFault_fields s _ _ _ _ _).1 a⟩
  · rw [logWord2_vcore]
    exact congrArg (fun n => BitVec.ofNat 32 (0x0C + 0x1000000 * (1 + n))) (if_congr logRepeats_iff rfl rfl)
  · simp [logFault_evt]
  · simp [logFault_evt, hfull]

/-- Settles O32: `step` on a queue with a front, and on the empty one. -/
theorem stepRunsTheFrontCommand : Obligations.StepRunsTheFrontCommand := by
  unfold Obligations.StepRunsTheFrontCommand
  refine ⟨fun c rest s => rfl, fun s hempty => ?_⟩
  rw [step, hempty]

end Sys2Proof.FaultLog
end

section
/-! PROOF. The monitors of clocks and cores, the watchdogs and error injection (20 R482 to R484, R488, R491, R493). -/
namespace Sys2Proof.Monitors
open Sys2Proof.Machine Sys2Proof.Safety Sys2Proof.Reg

variable {s : State} {who : Nat}

/-! ### Clocks -/

theorem exec_pllUnlock (pll : Fin 3) (hlocked : s.bit CLK.STATUS (2 + pll) = true) :
    exec (.pllUnlock pll) s = .next (if pll.val = 1 then linkClockLost (logFault (s.setBit CLK.STATUS (2 + pll) false) 0x0B 0 0 1 0)
      else logFault (s.setBit CLK.STATUS (2 + pll) false) 0x0B 0 0 1 0) := if_pos hlocked

theorem leaves_pllRelock (pll : Fin 3) (hlost : s.bit CLK.STATUS (2 + pll) = false) :
    Leaves (.pllRelock pll true) s (fun t => t.bit CLK.STATUS (2 + pll) = true ∧ OnlyRegs s t [CLK.STATUS]) :=
  ⟨_, if_neg (by simp [hlost]), State.bit_setBit_self s _ _ (by omega), onlyRegs_setFld s _ _ _ _⟩

/-- 20 R488: the failures of a PLL to relock that fall within the last second. -/
def recentFailures (s : State) (pll : Fin 3) : List (Nat × Nat) :=
  s.flt.relocks.filter (fun x => x.1 == pll.val && decide (s.uptime - x.2 ≤ 32000000))

/-- The state that a failed relock is logged from: its failures, the newest first. -/
def relockFailed (s : State) (pll : Fin 3) : State :=
  { s with flt := { s.flt with relocks :=
      ((pll.val, s.uptime) :: recentFailures s pll).take 3 ++ s.flt.relocks.filter (fun x => x.1 != pll.val) } }

theorem exec_pllRelock_third (pll : Fin 3) (hlost : s.bit CLK.STATUS (2 + pll) = false) (htwo : (recentFailures s pll).length = 2) :
    exec (.pllRelock pll false) s = .next (logFault (relockFailed s pll) 0x0B 0 1 0 0) := by
  have hthird : (((pll.val, s.uptime) :: recentFailures s pll).length == 3) = true := by simp [htwo]
  exact (if_neg (by simp [hlost])).trans (congrArg Host.Outcome.next (if_pos hthird))

/-- Word 2 of the entry of a PLL that does not lock again, REPEAT or not. -/
theorem bitsOf_relockWord (p : Prop) [Decidable p] : bitsOf (logWord2 0x0B 0 1 (0 + if p then 4 else 0)) 23 0 = 0x01000B := by
  split <;> rfl

theorem leaves_pllRelock_third (pll : Fin 3) (hlost : s.bit CLK.STATUS (2 + pll) = false) (htwo : (recentFailures s pll).length = 2) :
    Leaves (.pllRelock pll false) s (fun t => t.fld (FLT.LOG (s.fld FLT.LOGHEAD 5 0) 2) 23 0 = 0x01000B ∧ t.rd CLK.STATUS = s.rd CLK.STATUS) := by
  obtain ⟨-, -, hword, -⟩ := logFault_entry (relockFailed s pll) 0x0B 0 1 0 0
  exact ⟨_, exec_pllRelock_third pll hlost htwo, (congrArg (bitsOf · 23 0) hword).trans (bitsOf_relockWord _), logFault_rd _ _ _ _ _ _ (by decide) (by decide)⟩

theorem exec_hfxoFail (hrun : s.bit CLK.STATUS 1 = true) : exec .hfxoFail s =
    .next (linkClockLost { logFault (s.setFld CLK.STATUS 4 1 0) 0x22 0 0 0 0 with flt := { s.flt with hfxoTry := s.uptime } }) := if_pos hrun

/-- The clocks restored show HFXO and the three PLLs. -/
theorem fld_clocksOn (s : State) : (clocksOn s).fld CLK.STATUS 4 1 = 15 :=
  calc (clocksOn s).fld CLK.STATUS 4 1
    _ = ((s.setFld CLK.STATUS 4 1 15).setFld CLK.RCCAL 23 0 _).fld CLK.STATUS 4 1 := State.fld_setBit_apart _ _ _ (by decide) (by decide)
    _ = (s.setFld CLK.STATUS 4 1 15).fld CLK.STATUS 4 1 := State.fld_setFld_ne _ (by decide) _ _ _ _ _
    _ = 15 := State.fld_setFld_self s _ _ (by decide) (by decide)

theorem leaves_hfxoRestartTry (hoff : s.bit CLK.STATUS 1 = false) (hpwr : pwrState s ≤ 1) (hdue : s.flt.hfxoTry + 32000000 ≤ s.uptime) :
    Leaves (.hfxoRestartTry true) s (fun t => t.fld CLK.STATUS 4 1 = 15 ∧ OnlyRegs s t [CLK.STATUS, CLK.RCCAL] ∧
      t.flt = { s.flt with hfxoTry := s.uptime }) := by
  have hlate : ¬ s.uptime < s.flt.hfxoTry + ticksPerSecond := Nat.not_lt.2 hdue
  have hmay : (true && !s.bit CLK.STATUS 1 && decide (pwrState s ≤ 1)) = true := by simp [hoff, hpwr]
  exact ⟨_, (if_neg hlate).trans (if_pos hmay), fld_clocksOn _, StartUp.onlyRegs_clocksOn _, rfl⟩

/-! ### Watchdogs -/

theorem wdPre_lt (s : State) (p : Nat) : wdPre s p < 2 ^ 16 :=
  Nat.lt_of_le_of_lt (Nat.div_le_self _ _) (bitsOf_lt _ 15 0)

/-- 20 R483: the count of a core as its pre-expiry falls. -/
def preExpiryCount (s : State) (p : Fin 6) : State :=
  if wdPre s p < s.fld (FLT.WDSTAT p) 15 0 then s.setFld (FLT.WDSTAT p) 15 0 (wdPre s p) else s

theorem fld_preExpiryCount (s : State) (p : Fin 6) : (preExpiryCount s p).fld (FLT.WDSTAT p) 15 0 = min (s.fld (FLT.WDSTAT p) 15 0) (wdPre s p) := by
  unfold preExpiryCount
  split
  · next habove => rw [State.fld_setFld_self _ _ _ (by decide) (by decide), Nat.mod_eq_of_lt (wdPre_lt s p), Nat.min_eq_right habove.le]
  · next hbelow => rw [Nat.min_eq_left (Nat.not_lt.1 hbelow)]

theorem preExpiryCount_fields (s : State) (p : Fin 6) : (preExpiryCount s p).cores = s.cores ∧ (preExpiryCount s p).mem = s.mem := by
  unfold preExpiryCount
  split <;> exact ⟨rfl, rfl⟩

/-- The status of a watchdog lies in FLT, apart from its events. -/
theorem wdStat_apart (p : Fin 6) : FLT.WDSTAT p / 4096 ≠ 0x30014 ∧ FLT.WDSTAT p ≠ FLT.EVT := by
  simp only [FLT.WDSTAT, FLT.EVT]; omega

theorem wdPreExpire_eq (s : State) (p : Fin 6) : wdPreExpire s p = fltEvent ((preExpiryCount s p).setBit (FLT.WDSTAT p) 16 true) 1 := rfl

theorem leaves_watchdogPreExpiry (p : Fin 6) (hruns : wdRuns s p = true) (hdue : s.fld (FLT.WDSTAT p) 15 0 ≤ wdPre s p + 1) :
    Leaves (.watchdogPreExpiry p) s (fun t => t.bit (FLT.WDSTAT p) 16 = true ∧ t.bit FLT.EVT 1 = true ∧
      t.fld (FLT.WDSTAT p) 15 0 = min (s.fld (FLT.WDSTAT p) 15 0) (wdPre s p) ∧ t.cores = s.cores ∧ t.mem = s.mem) := by
  have hexec : exec (.watchdogPreExpiry p) s = .next (wdPreExpire s p) := congrArg _ (if_pos (by simp [hruns, hdue]))
  obtain ⟨hpage, hevt⟩ := wdStat_apart p
  obtain ⟨hcores, hmem⟩ := preExpiryCount_fields s p
  set u := (preExpiryCount s p).setBit (FLT.WDSTAT p) 16 true with hu
  have hstat : (fltEvent u 1).rd (FLT.WDSTAT p) = u.rd (FLT.WDSTAT p) := fltEvent_rd u 1 hpage hevt
  obtain ⟨humem, hucores, -⟩ := fltEvent_fields u 1
  refine ⟨_, hexec, ?_, ?_, ?_, hucores.trans hcores, humem.trans hmem⟩
  · exact (congrArg (fun w : Word => testB w.toNat 16) hstat).trans (State.bit_setBit_self _ _ _ (by decide))
  · rw [wdPreExpire_eq, fltEvent_bit _ _ _ (by decide)]
    simp
  · exact (fld_of_rd hstat 15 0).trans ((State.fld_setBit_apart _ _ _ (by decide) (by decide)).trans (fld_preExpiryCount s p))

theorem exec_watchdogExpiry (p : Fin 6) (hruns : wdRuns s p = true) (hlast : s.fld (FLT.WDSTAT p) 15 0 ≤ 1) :
    exec (.watchdogExpiry p) s =
      .next (coreFailure (logFault ((s.setFld (FLT.WDSTAT p) 15 0 0).setBit (FLT.WDSTAT p) 17 true) 0x09 p p 0 0) p 0) :=
  congrArg _ (if_pos (by simp [hruns, hlast]))

/-- The word of a kick holds the key and the number of its core. -/
theorem bitsOf_kickWord : ∀ p : Fin 6, bitsOf (BitVec.ofNat 32 (256 * p + 0xC3)) 7 0 = 0xC3 ∧ bitsOf (BitVec.ofNat 32 (256 * p + 0xC3)) 10 8 = p := by
  decide

theorem wdKick_key (s : State) (p : Fin 6) : wdKick s (BitVec.ofNat 32 (256 * p + 0xC3)) = wdRestart s p := by
  obtain ⟨hkey, hcore⟩ := bitsOf_kickWord p
  rw [wdKick, if_pos ⟨hkey, hcore.trans_lt p.isLt⟩, hcore]

theorem leaves_watchdogKick (p : Fin 6) (h : Reaches s who FLT.WDKICK true) :
    Leaves (.watchdogKick who (BitVec.ofNat 32 (256 * p + 0xC3))) s (fun t =>
      t.fld (FLT.WDSTAT p) 15 0 = s.fld (FLT.WDCFG p) 15 0 ∧ OnlyRegs s t [FLT.WDSTAT p]) := by
  refine ⟨wdRestart s p, congrArg _ ((access_write h rfl).trans (wdKick_key s p)), ?_, onlyRegs_setFld s _ _ _ _⟩
  rw [wdRestart, State.fld_setFld_self _ _ _ (by decide) (by decide)]
  exact Nat.mod_eq_of_lt (bitsOf_lt _ 15 0)

/-- Settles O29: each monitor and each watchdog by the lemma about its event. -/
theorem monitorsAndWatchdogsAct : Obligations.MonitorsAndWatchdogsAct := by
  unfold Obligations.MonitorsAndWatchdogsAct
  intro s
  exact ⟨exec_pllUnlock, fun pll hlost => ⟨leaves_pllRelock pll hlost, leaves_pllRelock_third pll hlost⟩, exec_hfxoFail, leaves_hfxoRestartTry,
    leaves_watchdogPreExpiry, exec_watchdogExpiry, fun who p => leaves_watchdogKick p⟩

/-! ### Injection -/

/-- The word that arms an injection of a kind at a core. -/
abbrev injWord (p : Fin 6) (k : Nat) : Word := BitVec.ofNat 32 (0x10000 + 256 * p + k)

/-- The fields of an arming word; ARM is set in it already. -/
theorem injWord_fields : ∀ (p : Fin 6) (k : Fin 7), vSet (injWord p k) 16 = injWord p k ∧ testB (injWord p k).toNat 16 = true ∧
    bitsOf (injWord p k) 10 8 = p ∧ bitsOf (injWord p k) 3 0 = k := by decide

theorem exec_injectArm {v : Word} (h : Reaches s who FLT.INJCTRL true) : exec (.injectArm who v) s = .next (injWrite s (vSet v 16)) :=
  congrArg _ (access_write h rfl)

theorem exec_injectArm_elsewhere {v : Word} (h : Reaches s who FLT.INJCTRL true) (hphase : s.phase ≠ 2) : exec (.injectArm who v) s = .next s :=
  (exec_injectArm h).trans (congrArg _ (if_pos hphase))

section Test
variable (hphase : s.phase = 2) {v : Word} {p : Fin 6} (harm : testB v.toNat 16 = true) (hcore : bitsOf v 10 8 = p)
include hphase harm

theorem injWrite_next (hkind : bitsOf v 3 0 = 3) : injWrite s v = s.plainWrite FLT.INJCTRL v true := by
  simp [injWrite, hphase, harm, hkind]

include hcore

theorem injWrite_watchdog (hkind : bitsOf v 3 0 = 4) :
    injWrite s v = wdExpire ((s.plainWrite FLT.INJCTRL v true).setBit FLT.INJCTRL 16 false) p 0x80 := by
  simp [injWrite, hphase, harm, hkind, hcore]

theorem injWrite_doubleFault (hkind : bitsOf v 3 0 = 5) :
    injWrite s v = doubleFault ((s.plainWrite FLT.INJCTRL v true).setBit FLT.INJCTRL 16 false) p 0x80 := by
  simp [injWrite, hphase, harm, hkind, hcore]

theorem injWrite_pllUnlock (hkind : bitsOf v 3 0 = 6) (hpll : p.val % 4 < 3) :
    injWrite s v = pllUnlock ((s.plainWrite FLT.INJCTRL v true).setBit FLT.INJCTRL 16 false) (p % 4) 0x80 := by
  simp [injWrite, hphase, harm, hkind, hcore, hpll]

end Test

theorem exec_injectArm_test (h : Reaches s who FLT.INJCTRL true) (p : Fin 6) (k : Fin 7) {t : State} (hwrite : injWrite s (injWord p k) = t) :
    exec (.injectArm who (injWord p k)) s = .next t :=
  (exec_injectArm h).trans (congrArg Host.Outcome.next ((congrArg (injWrite s) (injWord_fields p k).1).trans hwrite))

theorem leaves_curtainRecordClear (h : Reaches s who FLT.CURTCNT true) :
    Leaves (.curtainRecordClear who 0x80000000) s (fun t => t.rd FLT.CURT0 = 0 ∧ t.rd FLT.CURT1 = 0 ∧ t.rd FLT.CURTCNT = 0 ∧
      OnlyRegs s t [FLT.CURT0, FLT.CURT1, FLT.CURTCNT]) := by
  refine ⟨((s.wr FLT.CURT0 0).wr FLT.CURT1 0).wr FLT.CURTCNT 0, congrArg _ (access_write h rfl), ?_, ?_, State.rd_wr_self _ _ _, ?_⟩
  · rw [State.rd_wr_ne _ (by decide), State.rd_wr_ne _ (by decide), State.rd_wr_self]
  · rw [State.rd_wr_ne _ (by decide), State.rd_wr_self]
  · have h0 := onlyRegs_wr s (a := FLT.CURT0) (l := [FLT.CURT0, FLT.CURT1, FLT.CURTCNT]) (by decide) 0
    have h1 := onlyRegs_wr (s.wr FLT.CURT0 0) (a := FLT.CURT1) (l := [FLT.CURT0, FLT.CURT1, FLT.CURTCNT]) (by decide) 0
    have h2 := onlyRegs_wr ((s.wr FLT.CURT0 0).wr FLT.CURT1 0) (a := FLT.CURTCNT) (l := [FLT.CURT0, FLT.CURT1, FLT.CURTCNT]) (by decide) 0
    exact onlyRegs_trans (onlyRegs_trans h0 h1 fun _ => id) h2 fun _ => id

/-- Settles O30: a write of `FLT.INJCTRL` is `injWrite`, which outside TEST does nothing and in TEST acts by its kind. -/
theorem injectionFiresInTestOnly : Obligations.InjectionFiresInTestOnly := by
  unfold Obligations.InjectionFiresInTestOnly
  intro who p s
  refine ⟨fun h hphase v => exec_injectArm_elsewhere h hphase, fun h hphase => ?_, leaves_curtainRecordClear⟩
  obtain ⟨-, harm3, -, hkind3⟩ := injWord_fields p 3
  obtain ⟨-, harm4, hcore4, hkind4⟩ := injWord_fields p 4
  obtain ⟨-, harm5, hcore5, hkind5⟩ := injWord_fields p 5
  obtain ⟨-, harm6, hcore6, hkind6⟩ := injWord_fields p 6
  exact ⟨exec_injectArm_test h p 3 (injWrite_next hphase harm3 hkind3),
    exec_injectArm_test h p 4 (injWrite_watchdog hphase harm4 hcore4 hkind4),
    exec_injectArm_test h p 5 (injWrite_doubleFault hphase harm5 hcore5 hkind5),
    fun hpll => exec_injectArm_test h p 6 (injWrite_pllUnlock hphase harm6 hcore6 hkind6 hpll)⟩

end Sys2Proof.Monitors
end

section
/-! PROOF. The debug port (19 R470, 20 R495): halts, steps, and the packets that read and write words. -/
namespace Sys2Proof.DebugPort
open Sys2Proof.Machine Sys2Proof.Safety Sys2Proof.Reg

variable {s : State} {seq : Byte} {a : Nat}

/-! ### Halts and steps -/

/-- The number of a player or of the link pair among the cores. -/
abbrev portCore (p : Fin 5) : Fin 6 := ⟨p, by omega⟩

/-- The state with the HALT bit of one core alone. -/
abbrev haltAsked (s : State) (p : Fin 5) : State := s.wr DBG.HALT (BitVec.ofNat 32 (2 ^ p.val))

/-- 20 R495: a core halted at its boundary, its watchdog restarted. -/
def coreHalted (s : State) (p : Fin 6) : State :=
  (wdRestart (s.upCore p (fun c => { c with run := .debug })) p.val).setBit DBG.STATUS p.val true

/-- The mask of the port covers the cores below 5, in DBG mode or not. -/
theorem haltBit_masked : ∀ (debug : Bool) (p : Fin 5), let m := if debug then 0x3F else 0x1F
    BitVec.ofNat 32 (((BitVec.ofNat 32 (2 ^ p.val)).toNat &&& m) ||| ((0 : Word).toNat &&& (0x3F - m))) = BitVec.ofNat 32 (2 ^ p.val) := by decide

theorem access_halt (p : Fin 5) (h : Reaches s 0x10 DBG.HALT true) (hclear : s.rd DBG.HALT = 0) :
    s.access 0x10 DBG.HALT (some (BitVec.ofNat 32 (2 ^ p.val))) = dbgApply (haltAsked s p) := by
  refine (access_write h rfl).trans ?_
  show dbgApply (s.wr DBG.HALT (BitVec.ofNat 32 (((BitVec.ofNat 32 (2 ^ p.val)).toNat &&& dbgMask s) |||
    ((s.rd DBG.HALT).toNat &&& (0x3F - dbgMask s))))) = _
  rw [hclear]
  exact congrArg (fun w => dbgApply (s.wr DBG.HALT w)) (haltBit_masked (s.bit DBG.STATUS 8) p)

theorem haltAsked_bit (s : State) : ∀ (p : Fin 5) (r : Fin 6), (haltAsked s p).bit DBG.HALT r = decide (r = portCore p) := by
  have hbits : ∀ (p : Fin 5) (r : Fin 6), testB (BitVec.ofNat 32 (2 ^ p.val)).toNat r = decide (r = portCore p) := by decide
  intro p r
  rw [State.bit, State.rd_wr_self, hbits]

/-- The registers that a halt writes. -/
theorem onlyRegs_coreHalted (s : State) (p : Fin 6) : OnlyRegs s (coreHalted s p) [DBG.STATUS, FLT.WDSTAT p] := by
  have hwd := onlyRegs_setFld (s.upCore p (fun c => { c with run := .debug })) (FLT.WDSTAT p) 15 0 (s.fld (FLT.WDCFG p) 15 0)
  exact onlyRegs_trans (l := [FLT.WDSTAT p]) (m := [DBG.STATUS, FLT.WDSTAT p]) hwd
    ⟨fun b hb => State.rd_setBit_ne _ (fun e => hb (by simp [e])) _ _, fun _ => rfl⟩ (by simp)

/-- The registers of the debug port lie apart from the watchdogs. -/
theorem wdStat_ne_dbg (p : Fin 6) : DBG.HALT ≠ FLT.WDSTAT p ∧ DBG.STATUS ≠ FLT.WDSTAT p := by
  simp only [FLT.WDSTAT, DBG.HALT, DBG.STATUS]; omega

theorem coreHalted_core (s : State) (p q : Fin 6) : (coreHalted s p).core q = if q = p then { s.core p with run := .debug } else s.core q :=
  core_upCore s p q (fun c => { c with run := .debug })

theorem coreHalted_rd_halt (s : State) (p : Fin 6) : (coreHalted s p).rd DBG.HALT = s.rd DBG.HALT :=
  (onlyRegs_coreHalted s p).1 _ (by simpa using (wdStat_ne_dbg p).1)

/-- With one HALT bit set and no core halted, `dbgApply` halts that core and passes by the others. -/
theorem dbgApply_haltAsked (p : Fin 5) (hrun : (s.core (portCore p)).run = .running) (hxfer : (s.core (portCore p)).xfer = none)
    (hstall : (s.core (portCore p)).stall = none) (hnone : ∀ r, (s.core r).run ≠ .debug) :
    dbgApply (haltAsked s p) = coreHalted (haltAsked s p) (portCore p) := by
  have hq : dbgStep1 (haltAsked s p) (portCore p) = coreHalted (haltAsked s p) (portCore p) := by
    refine if_pos ⟨(haltAsked_bit s p _).trans (by simp), hrun, Option.isNone_iff_eq_none.2 hxfer, Option.isNone_iff_eq_none.2 hstall⟩
  have hother : ∀ r, r ≠ portCore p → (haltAsked s p).bit DBG.HALT r = false := fun r hr => by simp [haltAsked_bit, hr]
  rw [dbgApply_eq, ← hq]
  refine foldl_one dbgStep1 (portCore p) _ _ (List.nodup_finRange 6) (List.mem_finRange _) (fun r hr => ?_) (fun r hr => ?_)
  · exact dbgStep1_same (hother r hr) (hnone r)
  · rw [hq]
    refine dbgStep1_same ?_ ?_
    · rw [State.bit, coreHalted_rd_halt]
      exact hother r hr
    · rw [coreHalted_core, if_neg hr]
      exact hnone r

theorem leaves_dbgHalt (p : Fin 5) (h : Reaches s 0x10 DBG.HALT true) (hclear : s.rd DBG.HALT = 0)
    (hrun : (s.core (portCore p)).run = .running) (hxfer : (s.core (portCore p)).xfer = none) (hstall : (s.core (portCore p)).stall = none)
    (hnone : ∀ r, (s.core r).run ≠ .debug) :
    Leaves (.dbgHalt 0x10 (BitVec.ofNat 32 (2 ^ p.val))) s (fun t => t.rd DBG.HALT = BitVec.ofNat 32 (2 ^ p.val) ∧ t.bit DBG.STATUS p = true ∧
      t.core (portCore p) = { s.core (portCore p) with run := .debug } ∧ (∀ r, r ≠ portCore p → t.core r = s.core r) ∧
      OnlyRegs s t [DBG.HALT, DBG.STATUS, FLT.WDSTAT p] ∧ t.fld (FLT.WDSTAT p) 15 0 = s.fld (FLT.WDCFG p) 15 0) := by
  obtain ⟨hhalt, hstat⟩ := wdStat_ne_dbg (portCore p)
  have hcfg : FLT.WDCFG p ≠ DBG.HALT := by simp only [FLT.WDCFG, DBG.HALT]; omega
  refine ⟨coreHalted (haltAsked s p) (portCore p), congrArg _ ((access_halt p h hclear).trans (dbgApply_haltAsked p hrun hxfer hstall hnone)),
    ?_, State.bit_setBit_self _ _ _ (by omega), ?_, fun r hr => ?_, ?_, ?_⟩
  · rw [coreHalted_rd_halt, State.rd_wr_self]
  · rw [coreHalted_core, if_pos rfl]
    rfl
  · rw [coreHalted_core, if_neg hr]
    rfl
  · exact onlyRegs_trans (onlyRegs_wr s (List.mem_singleton_self _) _) (onlyRegs_trans (onlyRegs_coreHalted _ _) (DramControl.onlyRegs_refl _ _) (by simp)) (by simp)
  · refine (State.fld_setBit_ne _ hstat.symm _ _ _ _).trans ((State.fld_setFld_self _ _ _ (by decide) (by decide)).trans ?_)
    exact (Nat.mod_eq_of_lt (bitsOf_lt _ 15 0)).trans (State.fld_wr_ne s hcfg _ 15 0)

theorem exec_dbgHalt_other {who : Nat} {v : Word} (hwho : who ≠ 0x10) (h : Reaches s who DBG.HALT true) : exec (.dbgHalt who v) s = .next s :=
  congrArg _ (access_write h (congrArg (Prod.mk false) (if_pos hwho)))

/-- The word of a STEP names its core under either mask. -/
theorem stepWord_masked : ∀ (debug : Bool) (p : Fin 5),
    (BitVec.ofNat 32 (2 ^ p.val)).toNat &&& (if debug then 0x3F else 0x1F) = 2 ^ p.val := by decide

/-- 20 R495: what the cores named in `m` do with a STEP, core by core. -/
def stepNamed (m : Nat) (s : State) (p : Fin 6) : State :=
  if testB m p.val && (s.core p).run == .debug && s.dom (coreDom p) == .on then stepCore s p else s

theorem runSteps_eq (s : State) : runSteps s = (List.finRange 6).foldl (stepNamed s.flt.steps) { s with flt := { s.flt with steps := 0 } } := rfl

/-- The one core that a STEP names is the one that moves. -/
theorem runSteps_one (p : Fin 5) (hhalted : (s.core (portCore p)).run = .debug) (hon : s.dom (coreDom (portCore p)) = .on) (hnone : s.flt.steps = 0) :
    runSteps { s with flt := { s.flt with steps := 2 ^ p.val } } = stepCore s (portCore p) := by
  have hclear : ({ s with flt := { s.flt with steps := 0 } } : State) = s := by rw [← hnone]
  have hothers : ∀ (t : State) (r : Fin 6), r ≠ portCore p → stepNamed (2 ^ p.val) t r = t := fun t r hr => by
    simp [stepNamed, dbg_bits p r, hr]
  have hself : stepNamed (2 ^ p.val) s (portCore p) = stepCore s (portCore p) := by
    refine if_pos ?_
    rw [dbg_bits p, hhalted, hon]
    simp
  refine (runSteps_eq _).trans ?_
  show (List.finRange 6).foldl (stepNamed (2 ^ p.val)) { s with flt := { s.flt with steps := 0 } } = _
  rw [hclear, foldl_one (stepNamed (2 ^ p.val)) (portCore p) _ s (List.nodup_finRange 6) (List.mem_finRange _) (hothers s) (hothers _), hself]

theorem exec_dbgStep (p : Fin 5) (h : Reaches s 0x10 DBG.STEP true) (hhalted : (s.core (portCore p)).run = .debug)
    (hon : s.dom (coreDom (portCore p)) = .on) (hnone : s.flt.steps = 0) :
    exec (.dbgStep 0x10 (BitVec.ofNat 32 (2 ^ p.val))) s = .next (stepCore s (portCore p)) := by
  have haccess : s.access 0x10 DBG.STEP (some (BitVec.ofNat 32 (2 ^ p.val))) = { s with flt := { s.flt with steps := 2 ^ p.val } } :=
    (access_write h rfl).trans (congrArg (fun n => ({ s with flt := { s.flt with steps := n } } : State)) (stepWord_masked (s.bit DBG.STATUS 8) p))
  exact congrArg Host.Outcome.next ((congrArg runSteps haccess).trans (runSteps_one p hhalted hon hnone))

/-! ### Packets -/

/-- 19 R470: a packet that waits is answered BAD_CMD once the device is retired, else by what its command does. -/
theorem debugServe_packet {cmd : Byte} {pl : List Byte} (f : State → Byte → List Byte → State) (hdbg : s.svc.dbg = some (cmd :: seq :: pl)) :
    debugServe s cmd f = if lifecycle s = 3 then debugReply s cmd seq 1 [] else f s seq pl := by
  simp only [debugServe, hdbg, if_true]

section Retired
variable {pl : List Byte} (hretired : lifecycle s = 3)
include hretired

theorem exec_svcDbgrd_retired (hdbg : s.svc.dbg = some (0x0A :: seq :: pl)) : exec .svcDbgrd s = .next (debugReply s 0x0A seq 1 []) :=
  congrArg Host.Outcome.next ((debugServe_packet _ hdbg).trans (if_pos hretired))

theorem exec_svcDbgwr_retired (hdbg : s.svc.dbg = some (0x0B :: seq :: pl)) : exec .svcDbgwr s = .next (debugReply s 0x0B seq 1 []) :=
  congrArg Host.Outcome.next ((debugServe_packet _ hdbg).trans (if_pos hretired))

end Retired

section Served
variable (hserves : lifecycle s ≠ 3)
include hserves

/-- A DBGRD packet of an address and a count of one byte. -/
theorem exec_svcDbgrd {n : Nat} (hdbg : s.svc.dbg = some (0x0A :: seq :: (leBytes 4 a ++ leBytes 1 n))) (ha : a < 2 ^ 32) (hn : n < 256) :
    exec .svcDbgrd s = .next (if a % 4 ≠ 0 ∨ n = 0 ∨ 64 < n then debugReply s 0x0A seq 2 [] else
      debugReply (debugReads n s a).2.2 0x0A seq (if (debugReads n s a).2.1 then 0 else 17) ((debugReads n s a).1.flatMap (fun w => leBytes 4 w.toNat))) := by
  obtain ⟨htake, hdrop, hlen⟩ := take4 a (leBytes 1 n)
  have hcount : leNat (leBytes 1 n) = n := by rw [leNat_leBytes, Nat.pow_one, Nat.mod_eq_of_lt hn]
  refine congrArg Host.Outcome.next ((debugServe_packet _ hdbg).trans ((if_neg hserves).trans ?_))
  simp only [htake, hdrop, hlen, leNat4 a ha, hcount, leBytes_length]
  simp

/-- A DBGWR packet of an address and one word. -/
theorem exec_svcDbgwr {v : Word} (hdbg : s.svc.dbg = some (0x0B :: seq :: (leBytes 4 a ++ leBytes 4 v.toNat))) (ha : a < 2 ^ 32) :
    exec .svcDbgwr s = .next (if a % 4 ≠ 0 then debugReply s 0x0B seq 2 [] else
      debugReply (debugWrites [v] s a).2 0x0B seq (if (debugWrites [v] s a).1 then 0 else 17) []) := by
  obtain ⟨htake, hdrop, hlen⟩ := take4 a (leBytes 4 v.toNat)
  refine congrArg Host.Outcome.next ((debugServe_packet _ hdbg).trans ((if_neg hserves).trans ?_))
  simp only [htake, hdrop, hlen, leNat4 a ha, leWords4, leBytes_length]
  simp

/-- A DBGRD packet whose count is 0, whatever its address. -/
theorem exec_svcDbgrd_zero (hdbg : s.svc.dbg = some (0x0A :: seq :: (leBytes 4 a ++ [0]))) :
    exec .svcDbgrd s = .next (debugReply s 0x0A seq 2 []) := by
  obtain ⟨-, hdrop, -⟩ := take4 a [0]
  refine congrArg Host.Outcome.next ((debugServe_packet _ hdbg).trans ((if_neg hserves).trans (if_pos ?_)))
  exact .inr (.inr (.inl (congrArg leNat hdrop)))

end Served

/-- Settles O31: the port's registers act on one core, and each packet is answered by the first check that it fails. -/
theorem debugPortActsOnCores : Obligations.DebugPortActsOnCores := by
  unfold Obligations.DebugPortActsOnCores
  intro s
  refine ⟨leaves_dbgHalt, fun who v hwho => exec_dbgHalt_other hwho, exec_dbgStep, fun seq a n hdbg ha halign hserves => ?_,
    fun seq a v hdbg ha halign hserves => ?_, fun seq a v hserves ha hmis => ⟨fun hdbg => ?_, fun hdbg => ?_⟩,
    fun seq a hserves => exec_svcDbgrd_zero hserves, fun seq pl hretired => ⟨exec_svcDbgrd_retired hretired, exec_svcDbgwr_retired hretired⟩⟩
  · refine (exec_svcDbgrd hserves hdbg ha (by omega)).trans (congrArg _ (if_neg ?_))
    omega
  · exact (exec_svcDbgwr hserves hdbg ha).trans (congrArg _ (if_neg (not_not_intro halign)))
  · exact (exec_svcDbgrd hserves (n := 1) hdbg ha (by decide)).trans (congrArg _ (if_pos (.inl hmis)))
  · exact (exec_svcDbgwr hserves hdbg ha).trans (congrArg _ (if_pos hmis))

end Sys2Proof.DebugPort
end

section
/-! PROOF. Events of cue lines leave for their targets (14 R347, R348, R353, R354). -/
namespace Sys2Proof.CueEvents
open Sys2Proof.Machine Sys2Proof.Safety Sys2Proof.Reg Sys2Proof.DramControl

variable {s : State} {who : Nat}

/-! ### Software signals -/

theorem exec_cueSoftwareSignal (c : Fin 32) (h : Reaches s who CUE.SWSET0 true) :
    exec (.cueSoftwareSignal who false (BitVec.ofNat 32 (2 ^ c.val))) s = .next (if ownsChan s who c = true then cueSignal s c else s) :=
  congrArg _ ((access_write h rfl).trans (swset_one s who c))

theorem cueOnly_cueSignal (s : State) {c : Nat} (hc : c < 64) : CueOnly s (cueSignal s c) :=
  (cueOnly_chan s hc).trans (cueOnly_setBit _ (by simp only [CUE.CHSTAT]; omega) _ _)

/-- 14 R353: a signal shows the flag and SEEN. -/
theorem cueSignal_shows {c : Nat} (hc : c < 64) (hplain : s.svc.motionLine ≠ some c) :
    (cueSignal s c).bit (CUE.CHSTAT c) 0 = true ∧ (cueSignal s c).bit (CUE.CHSTAT c) 1 = true :=
  ⟨State.bit_setBit_self _ _ _ (by decide),
    (State.bit_setBit_apart _ _ _ (by decide) (by decide)).trans (emitChan_facts s c hc hplain).2⟩

/-- 14 R347: what was on its way stays so, and the event leaves for every target of its channel. -/
theorem cueSignal_leaves {c : Nat} (hc : c < 64) (hplain : s.svc.motionLine ≠ some c) :
    (∀ x ∈ cueTargets s c, x ∈ (cueSignal s c).cueQ) ∧ ∀ x ∈ s.cueQ, x ∈ (cueSignal s c).cueQ := by
  have hqueue : (cueSignal s c).cueQ = ((cueTargets s c).foldl cueArrive (s.setBit (CUE.CHSTAT c) 1 true)).cueQ :=
    (congrArg State.cueQ (emitChan_facts s c hc hplain).1 : (emitChan s c).cueQ = _)
  rw [hqueue]
  exact cueArrive_all _ _

theorem leaves_cueSoftwareSignal (c : Fin 32) (h : Reaches s who CUE.SWSET0 true) (howns : ownsChan s who c = true)
    (hplain : s.svc.motionLine ≠ some c) :
    Leaves (.cueSoftwareSignal who false (BitVec.ofNat 32 (2 ^ c.val))) s (fun t => t.bit (CUE.CHSTAT c) 0 = true ∧ t.bit (CUE.CHSTAT c) 1 = true ∧
      (∀ x ∈ cueTargets s c, x ∈ t.cueQ) ∧ (∀ x ∈ s.cueQ, x ∈ t.cueQ) ∧ t.mem = s.mem ∧ t.cores = s.cores ∧
      ∀ a, a / 4096 ≠ 0x30014 → t.rd a = s.rd a) := by
  have hc : c.val < 64 := by omega
  obtain ⟨hflag, hseen⟩ := cueSignal_shows hc hplain
  obtain ⟨htargets, hkept⟩ := cueSignal_leaves hc hplain
  obtain ⟨hmem, hcores, -⟩ := (cueOnly_cueSignal s hc).fields
  exact ⟨_, (exec_cueSoftwareSignal c h).trans (congrArg _ (if_pos howns)), hflag, hseen, htargets, hkept, hmem, hcores,
    fun a ha => (cueOnly_cueSignal s hc).rd ha⟩

theorem exec_cueSoftwareSignal_unowned (c : Fin 32) (h : Reaches s who CUE.SWSET0 true) (howns : ownsChan s who c = false) :
    exec (.cueSoftwareSignal who false (BitVec.ofNat 32 (2 ^ c.val))) s = .next s :=
  (exec_cueSoftwareSignal c h).trans (congrArg _ (if_neg (by simp [howns])))

/-! ### Producers -/

theorem exec_cueProducerEvent_unpowered (f : Fin 10) (i : Fin 64) (hoff : producerPowered s (famOf f) i = false) :
    exec (.cueProducerEvent f i) s = .next s := if_pos (by simp [hoff])

/-- 14 R349: RXQ is the fifth family, and no other. -/
theorem famOf_ne_rxq : ∀ f : Fin 10, f.val ≠ 4 → famOf f ≠ .rxq := by decide

theorem exec_cueProducerEvent (f : Fin 10) (i : Fin 64) (hon : producerPowered s (famOf f) i = true) (hf : f.val ≠ 4) :
    exec (.cueProducerEvent f i) s = .next (emitProducer s (famOf f) i) :=
  (if_neg (by simp [hon])).trans (if_neg (famOf_ne_rxq f hf))

theorem exec_cueProducerEvent_queue (c : Fin 64) (hslot : slotOn s c 6 .rxq (c % 16) = true) :
    exec (.cueProducerEvent 4 c) s = .next (emitChan s c) := congrArg Host.Outcome.next (if_pos hslot)

/-- The registers of a pin-event unit lie apart from what a level changes. -/
theorem setExt_rd_pev (s : State) (i : Fin 16) (p : Nat) (level : Bool) : (setExt s p level).rd (PIN.PEV i) = s.rd (PIN.PEV i) := by
  have hpage : PIN.PEV i / 4096 = 0x3002A := by simp only [PIN.PEV]; omega
  exact setExt_rd s p level (by rw [hpage]; decide) (by rw [hpage]; decide) (by rw [hpage]; decide)

theorem exec_pinEvent (i : Fin 16) (rising : Bool) (hpin : s.fld (PIN.PEV i) 5 0 < 48) :
    exec (.pinEvent i rising) s = .next (if s.bit (PIN.PEV i) 15 && edgeHit (s.fld (PIN.PEV i) 9 8) rising
      then emitProducer (setExt s (s.fld (PIN.PEV i) 5 0) rising) .pev i else setExt s (s.fld (PIN.PEV i) 5 0) rising) := by
  refine (if_neg hpin.not_ge).trans (congrArg Host.Outcome.next ?_)
  show State.when _ _ _ = _
  rw [State.when, State.bit, setExt_rd_pev, fld_of_rd (setExt_rd_pev s i _ rising)]
  rfl

/-- Settles O40: each event by the lemma about what it emits. -/
theorem cueEventsLeaveForTheirTargets : Obligations.CueEventsLeaveForTheirTargets := by
  unfold Obligations.CueEventsLeaveForTheirTargets
  intro who s
  exact ⟨leaves_cueSoftwareSignal, exec_cueSoftwareSignal_unowned, exec_cueProducerEvent_unpowered, exec_cueProducerEvent,
    exec_cueProducerEvent_queue, exec_pinEvent⟩

end Sys2Proof.CueEvents
end

section
/-! PROOF. The consumers of cue lines, the logic cells and the writes of their registers (14 R350, R351, R354, R355, R357, R358). -/
namespace Sys2Proof.CueConsumers
open Sys2Proof.Machine Sys2Proof.Safety Sys2Proof.Reg Sys2Proof.DramControl

variable {s : State} {who : Nat} {v : Word}

/-! ### Latches and interrupt inputs -/

theorem exec_cueConsumerTake_core (p : Fin 6) (hwait : s.cueQ.contains (.cons p) = true) :
    exec (.cueConsumerTake (.cons ⟨p, by omega⟩)) s = .next (takeLatch (unqueue s (.cons p)) p) := by
  refine (if_pos hwait).trans (congrArg Host.Outcome.next ?_)
  exact dif_pos p.isLt

/-- 14 R350: what a powered core's latch takes. -/
theorem takeLatch_on (p : Fin 6) (hon : s.dom (coreDom p) = .on) :
    takeLatch s p = if (s.core p).latch then setOvr s p else s.upCore p (fun c => { c with latch := true }) := by
  simp only [takeLatch, hon]

theorem leaves_cueConsumerTake_core (p : Fin 6) (hwait : s.cueQ.contains (.cons p) = true) (hon : s.dom (coreDom p) = .on) :
    Leaves (.cueConsumerTake (.cons ⟨p, by omega⟩)) s (fun t => t.cueQ = s.cueQ.filter (fun u => u != .cons p) ∧
      ((s.core p).latch = false → t.core p = { s.core p with latch := true } ∧ t.regs = s.regs) ∧
      ((s.core p).latch = true → t.bit CUE.OVR0 p = true ∧ t.core p = s.core p ∧ OnlyRegs s t [CUE.OVR0])) := by
  have hexec := (exec_cueConsumerTake_core p hwait).trans (congrArg Host.Outcome.next (takeLatch_on (s := unqueue s (.cons p)) p hon))
  cases hlatch : (s.core p).latch with
  | false =>
    refine ⟨_, hexec.trans (congrArg _ (if_neg (Bool.eq_false_iff.1 hlatch))), rfl, fun _ => ⟨?_, rfl⟩, fun h => Bool.noConfusion h⟩
    exact core_upCore_self (unqueue s (.cons p)) p (fun c => { c with latch := true })
  | true =>
    have hovr : setOvr (unqueue s (.cons p)) p = (unqueue s (.cons p)).setBit CUE.OVR0 p true := if_pos (by omega)
    refine ⟨_, hexec.trans (congrArg _ ((if_pos hlatch).trans hovr)), rfl, fun h => Bool.noConfusion h, fun _ => ⟨?_, rfl, ?_⟩⟩
    · exact State.bit_setBit_self _ _ _ (by omega)
    · exact onlyRegs_setFld (unqueue s (.cons p)) _ _ _ _

/-- The pending and the overrun bits of a core lie in two registers. -/
theorem irqPend_ne_irqOvr (p : Fin 6) : CUE.IRQPEND p ≠ CUE.IRQOVR p := by simp only [CUE.IRQPEND, CUE.IRQOVR]; omega

/-- 14 R351: an interrupt input. -/
theorem takeIrq_facts (s : State) (p : Fin 6) (j : Fin 16) : let t := takeIrq s p j
    t.bit (CUE.IRQPEND p) j = true ∧ t.bit (CUE.IRQOVR p) j = (s.bit (CUE.IRQPEND p) j || s.bit (CUE.IRQOVR p) j) ∧ t.cueQ = s.cueQ ∧
      OnlyRegs s t [CUE.IRQPEND p, CUE.IRQOVR p] := by
  have hne := irqPend_ne_irqOvr p
  have hj : j.val < 32 := by omega
  unfold takeIrq
  split
  · next hpend =>
    refine ⟨(State.bit_setBit_ne s hne _ _ _).trans hpend, ?_, rfl, fun b hb => State.rd_setBit_ne s (fun e => hb (by simp [e])) _ _, fun _ => rfl⟩
    rw [State.bit_setBit_self s _ _ hj, hpend, Bool.true_or]
  · next hfree =>
    refine ⟨State.bit_setBit_self s _ _ hj, ?_, rfl, fun b hb => State.rd_setBit_ne s (fun e => hb (by simp [e])) _ _, fun _ => rfl⟩
    rw [State.bit_setBit_ne s hne.symm, Bool.eq_false_iff.2 hfree, Bool.false_or]

theorem leaves_cueConsumerTake_irq (p : Fin 6) (j : Fin 16) (hwait : s.cueQ.contains (.irq p j) = true) :
    Leaves (.cueConsumerTake (.irq p j)) s (fun t => t.bit (CUE.IRQPEND p) j = true ∧
      t.bit (CUE.IRQOVR p) j = (s.bit (CUE.IRQPEND p) j || s.bit (CUE.IRQOVR p) j) ∧
      t.cueQ = s.cueQ.filter (fun u => u != .irq p j) ∧ OnlyRegs s t [CUE.IRQPEND p, CUE.IRQOVR p]) :=
  ⟨_, if_pos hwait, takeIrq_facts (unqueue s (.irq p j)) p j⟩

/-! ### Logic cells -/

theorem upCell_self (s : State) (k : Fin 16) (f : Cell → Cell) : (upCell s k f).cells[k] = f s.cells[k] :=
  Vector.getElem_set_self _

/-- 14 R357: F gives the output before the filter where MODE is 0. -/
theorem cellRaw_plain (k : Fin 16) (f : Bool) (hmode : s.fld (CUE.LCCFG k) 17 16 = 0) : cellRaw s k f = f := by
  simp only [cellRaw, hmode]

/-- A cell as its clock leaves it, with the filter off. -/
abbrev clockedCell (s : State) (k : Fin 16) : Cell :=
  { taken := 0, f := cellF s k (cellX s k 3), raw := cellF s k (cellX s k 3), hold := 0,
    changed := cellF s k (cellX s k 3) != s.bit (CUE.LCSTAT k) 0, fired := false }

theorem exec_logicCellClock_plain (k : Fin 16) (hchanged : s.cells[k].changed = false) (hfired : s.cells[k].fired = false)
    (hmode : s.fld (CUE.LCCFG k) 17 16 = 0) (hfilter : s.fld (CUE.LCCFG k) 27 24 = 0) :
    exec (.logicCellClock k) s =
      .next (upCell (s.setBit (CUE.LCSTAT k) 0 (cellF s k (cellX s k 3))) k (fun _ => clockedCell s k)) := by
  show execLogicCellClock k s = _
  have hout : (if (cellF s k (cellX s k 3) != s.bit (CUE.LCSTAT k) 0) = true then cellF s k (cellX s k 3) else s.bit (CUE.LCSTAT k) 0) =
      cellF s k (cellX s k 3) := by
    cases cellF s k (cellX s k 3) <;> cases s.bit (CUE.LCSTAT k) 0 <;> rfl
  simp only [execLogicCellClock, State.when, hchanged, hfired, cellRaw_plain k _ hmode, hfilter, Nat.zero_le, decide_true, Bool.and_true,
    Bool.false_and, Bool.false_eq_true, if_false, if_true, hout]

theorem leaves_logicCellClock (k : Fin 16) (hchanged : s.cells[k].changed = false) (hfired : s.cells[k].fired = false)
    (hmode : s.fld (CUE.LCCFG k) 17 16 = 0) (hfilter : s.fld (CUE.LCCFG k) 27 24 = 0) :
    Leaves (.logicCellClock k) s (fun t => t.bit (CUE.LCSTAT k) 0 = cellF s k (cellX s k 3) ∧ t.cells[k] = clockedCell s k ∧
      OnlyRegs s t [CUE.LCSTAT k]) :=
  ⟨_, exec_logicCellClock_plain k hchanged hfired hmode hfilter, State.bit_setBit_self s _ _ (by decide), upCell_self _ _ _,
    onlyRegs_setFld s _ _ _ _⟩

/-- 14 R358: a cell that is reset. -/
theorem cellReset_facts (s : State) (k : Fin 16) : (cellReset s k).rd (CUE.LCSTAT k) = 0 ∧ (cellReset s k).cells[k] = {} ∧
    OnlyRegs s (cellReset s k) [CUE.LCSTAT k] :=
  ⟨State.rd_wr_self s _ _, upCell_self _ _ _, onlyRegs_wr s (List.mem_singleton_self _) _⟩

theorem leaves_logicCellReset (k : Fin 16) (h : Reaches s who (CUE.LCCFG k) true) (howns : ownsCell s who k = true) :
    Leaves (.logicCellReset who k v) s (fun t => t.rd (CUE.LCSTAT k) = 0 ∧ t.cells[k] = {} ∧ OnlyRegs s t [CUE.LCCFG k, CUE.LCSTAT k]) := by
  have hrst : testB (vSet v 31).toNat 31 = true := by simp [testB_vSet]
  have hwrite : regWrite s who (CUE.LCCFG k) (vSet v 31) = (false, cellReset (s.wr (CUE.LCCFG k) (vSet v 31 &&& 0x0F0FFFFF)) k) := by
    rw [regWrite_lccfg]
    simp only [cellWrite, howns, hrst, if_true, Bool.not_true, Bool.false_eq_true, if_false]
  obtain ⟨hstat, hcell, -⟩ := cellReset_facts (s.wr (CUE.LCCFG k) (vSet v 31 &&& 0x0F0FFFFF)) k
  exact ⟨_, congrArg Host.Outcome.next (access_write h hwrite), hstat, hcell,
    onlyRegs_then (onlyRegs_wr s List.mem_cons_self _) (List.mem_cons_of_mem _ List.mem_cons_self) _⟩

theorem leaves_cellOwnerWrite (k : Fin 16) (h : Reaches s who (CUE.LCOWN k) true) (htrusted : s.trusted who = true) :
    Leaves (.cellOwnerWrite who k v) s (fun t => t.rd (CUE.LCOWN k) = v &&& 0xF ∧
      (bitsOf v 2 0 ≠ s.fld (CUE.LCOWN k) 2 0 → t.cells[k] = {} ∧ t.rd (CUE.LCSTAT k) = 0)) := by
  have hne : CUE.LCOWN k ≠ CUE.LCSTAT k := by simp only [CUE.LCOWN, CUE.LCSTAT]; omega
  have hwrite : regWrite s who (CUE.LCOWN k) v = (false, cellOwnWrite s k v) := by rw [regWrite_lcown, if_pos htrusted]
  obtain ⟨hstat, hcell, honly⟩ := cellReset_facts (s.wr (CUE.LCOWN k) (v &&& 0xF)) k
  refine ⟨cellOwnWrite s k v, congrArg _ (access_write h hwrite), ?_, fun hother => ?_⟩
  · by_cases hsame : bitsOf v 2 0 = s.fld (CUE.LCOWN k) 2 0
    · rw [cellOwnWrite, if_pos hsame, State.rd_wr_self]
    · rw [cellOwnWrite, if_neg hsame, honly.1 _ (by simp), State.rd_wr_self]
  · rw [cellOwnWrite, if_neg hother]
    exact ⟨hcell, hstat⟩

/-! ### Owners of channels, pending bits and overruns -/

/-- 14 R355: a channel that a trusted initiator gives another owner, SEC set. -/
theorem chanCfgWrite_owner (c : Nat) (howns : ownsChan s who c = true) (htrusted : s.trusted who = true)
    (hother : bitsOf v 10 8 ≠ s.fld (CUE.CHCFG c) 10 8) (hsec : v.getLsbD 12 = true) :
    chanCfgWrite s who c v = (false, ((s.wr (CUE.CHCFG c) (v &&& 0x17FF)).setFld (CUE.CHCFG c) 7 0 0).setBit (CUE.CHSTAT c) 0 false) := by
  simp only [chanCfgWrite, howns, htrusted, hother, testB_toNat, hsec, if_true, if_false, Bool.not_true, Bool.false_eq_true]

theorem leaves_channelOwnerWrite (c : Fin 64) (h : Reaches s who (CUE.CHCFG c) true) (htrusted : s.trusted who = true)
    (hother : bitsOf v 10 8 ≠ s.fld (CUE.CHCFG c) 10 8) (hsec : v.getLsbD 12 = true) :
    Leaves (.channelOwnerWrite who c v) s (fun t => t.fld (CUE.CHCFG c) 10 8 = bitsOf v 10 8 ∧ t.fld (CUE.CHCFG c) 7 0 = 0 ∧
      t.bit (CUE.CHSTAT c) 0 = false ∧ OnlyRegs s t [CUE.CHCFG c, CUE.CHSTAT c]) := by
  have hne : CUE.CHCFG c ≠ CUE.CHSTAT c := by simp only [CUE.CHCFG, CUE.CHSTAT]; omega
  have howns : ownsChan s who c = true := by simp [ownsChan, htrusted]
  have hwrite := (regWrite_chcfg s who v c).trans (chanCfgWrite_owner c.val howns htrusted hother hsec)
  have hcfg : CUE.CHCFG c ∈ [CUE.CHCFG c, CUE.CHSTAT c] := List.mem_cons_self
  refine ⟨_, congrArg Host.Outcome.next (access_write h hwrite), ?_, ?_, State.bit_setBit_self _ _ _ (by decide),
    onlyRegs_then (onlyRegs_then (onlyRegs_wr s hcfg _) hcfg _) (List.mem_cons_of_mem _ List.mem_cons_self) _⟩
  · rw [State.fld_setBit_ne _ hne, State.fld_setFld_apart _ _ _ (by decide) (by decide) (by decide), State.fld, State.rd_wr_self]
    exact bitsOf_and v _ 10 8 (by decide)
  · rw [State.fld_setBit_ne _ hne, State.fld_setFld_self _ _ _ (by decide) (by decide), Nat.zero_mod]

theorem exec_channelOwnerWrite_blocked (c : Fin 64) (h : Reaches s who (CUE.CHCFG c) true) (howns : ownsChan s who c = false) :
    exec (.channelOwnerWrite who c v) s = .next (curtainViolation s who (BitVec.ofNat 32 (CUE.CHCFG c)) true) :=
  congrArg _ (access_refused h ((regWrite_chcfg s who v c).trans (if_pos (by simp [howns]))))

theorem exec_irqpendClear (p : Fin 6) (h : Reaches s who (CUE.IRQPEND p) true) : exec (.irqpendClear who p v) s =
    .next (if isCoreOrTrusted s who p then s.wr (CUE.IRQPEND p) (s.rd (CUE.IRQPEND p) &&& ~~~ (v &&& 0xFFFF)) else s) :=
  congrArg _ (access_write h (regWrite_irqpend s who v p))

/-- The bits of a word, packed again. -/
theorem ofNat_packBits_self (v : Word) : BitVec.ofNat 32 (packBits 32 (testB v.toNat)) = v := by
  refine BitVec.eq_of_getLsbD_eq fun i hi => ?_
  rw [BitVec.getLsbD_ofNat, testBit_packBits, testB_toNat]
  simp [hi]

/-- 14 R354: a trusted initiator may clear the overrun of every consumer below 32. -/
theorem ovrWrite_trusted (htrusted : s.trusted who = true) : ovrWrite s who false v = s.wr CUE.OVR0 (s.rd CUE.OVR0 &&& ~~~ v) := by
  have hmay : ∀ k, mayClearOvr s who k = true := fun k => by simp [mayClearOvr, htrusted]
  have hmask : packBits 32 (fun b => testB v.toNat b && decide (b + 32 * natBit false < 41) && mayClearOvr s who (b + 32 * natBit false)) =
      packBits 32 (testB v.toNat) := by
    refine Nat.eq_of_testBit_eq fun i => ?_
    rw [testBit_packBits, testBit_packBits, hmay, Bool.and_true]
    by_cases hi : i < 32
    · have hreg : i + 32 * natBit false < 41 := Nat.lt_trans (show i + 0 < 32 from hi) (by decide)
      rw [decide_eq_true hreg, Bool.and_true]
    · simp [hi]
  show s.wr CUE.OVR0 (s.rd CUE.OVR0 &&& ~~~ BitVec.ofNat 32 (packBits 32 _)) = _
  rw [hmask, ofNat_packBits_self]

theorem exec_ovrClear_trusted (h : Reaches s who CUE.OVR0 true) (htrusted : s.trusted who = true) :
    exec (.ovrClear who false v) s = .next (s.wr CUE.OVR0 (s.rd CUE.OVR0 &&& ~~~ v)) :=
  congrArg _ ((access_write h rfl).trans (ovrWrite_trusted htrusted))

/-- Settles O41: each consumer, each cell and each write by its own rule above. -/
theorem cueConsumersTakeEvents : Obligations.CueConsumersTakeEvents := by
  unfold Obligations.CueConsumersTakeEvents
  intro who v s
  exact ⟨leaves_cueConsumerTake_core, leaves_cueConsumerTake_irq, leaves_logicCellClock, leaves_logicCellReset,
    fun c h => ⟨leaves_channelOwnerWrite c h, exec_channelOwnerWrite_blocked c h⟩, leaves_cellOwnerWrite, exec_irqpendClear, exec_ovrClear_trusted⟩

end Sys2Proof.CueConsumers
end

section
/-! PROOF. The two-wire buses (16 R381 to R389). -/
namespace Sys2Proof.TwoWireBuses
open Sys2Proof.Machine Sys2Proof.Safety Sys2Proof.Reg

variable {s : State} {who : Nat} {v : Word} {k : Fin 5}

/-! ### Commands and transfers -/

theorem exec_twbCmd (h : Reaches s who (TWB.CMD k) true) : exec (.twbCmd who k v) s = .next (twbCmd s k v) :=
  congrArg Host.Outcome.next (access_write h (regWrite_twb s who v k).1)

theorem leaves_twbCmd_refused (h : Reaches s who (TWB.CMD k) true)
    (hrefused : s.bit (TWB.STATUS k) 1 = true ∨ s.bit (TWB.CTRL k) 0 = false ∨ s.bit (TWB.CTRL k) 1 = false) :
    Leaves (.twbCmd who k v) s (fun t => t.bit (TWB.STATUS k) 6 = true ∧ t.twb = s.twb ∧ OnlyRegs s t [TWB.STATUS k]) := by
  have hcond : (twbActive s k || !s.bit (TWB.CTRL k) 0 || !s.bit (TWB.CTRL k) 1) = true := by
    simpa only [twbActive, Bool.or_eq_true, Bool.not_eq_true', or_assoc] using hrefused
  exact ⟨_, (exec_twbCmd h).trans (congrArg _ (if_pos hcond)), State.bit_setBit_self s _ _ (by decide), rfl, onlyRegs_setFld s _ _ _ _⟩

theorem exec_twbCmd_taken (h : Reaches s who (TWB.CMD k) true) (hidle : s.bit (TWB.STATUS k) 1 = false) (hen : s.bit (TWB.CTRL k) 0 = true)
    (hctl : s.bit (TWB.CTRL k) 1 = true) : exec (.twbCmd who k v) s =
      .next (twbStart (upTwb (((s.setBit (TWB.STATUS k) 6 false).setBit (TWB.STATUS k) 1 true).setFld (TWB.STATUS k) 15 8 0) k
        (fun b => { b with cmd := some v, moved := 0, inbox := [], ended := false })) k) :=
  (exec_twbCmd h).trans (congrArg _ (if_neg (by simp [twbActive, hidle, hen, hctl])))

section Transfer
variable {w : Word} (hcmd : s.twb[k].cmd = some w) (hbus : s.twb[k].onBus = true) (hends : s.twb[k].ended = false) {acked : Nat} {rx : List Byte}
include hcmd hbus hends

/-- 16 R382: a transfer whose bytes have had their time on the bus. -/
theorem exec_twbTransferDone {nack : Bool} (hlate : s.twb[k].since + twbTicks s k (twbBytes w acked nack rx) ≤ s.uptime) :
    exec (.twbTransferDone k acked nack rx) s = if nack then
        .next (twbStart (twbStop (twbEvent (twbDrop (s.setFld (TWB.STATUS k) 15 8 (min acked (cmdN w))) k) k 1) k) k)
      else if cmdRead w then
        .next (twbTake (upTwb (s.setFld (TWB.STATUS k) 15 8 (rx.take (cmdN w)).length) k (fun b => { b with inbox := rx.take (cmdN w), ended := true })) k)
      else if s.twb[k].moved < cmdN w then .next s
      else .next (twbFinish (s.setFld (TWB.STATUS k) 15 8 (cmdN w)) k) := by
  show execTwbTransferDone k acked nack rx s = _
  simp only [execTwbTransferDone, hcmd, hbus, hends, Nat.not_lt.2 hlate, decide_false, Bool.not_true, Bool.or_false, Bool.false_eq_true, if_false]

theorem exec_twbTransferDone_nack (hlate : s.twb[k].since + twbTicks s k (twbBytes w acked true rx) ≤ s.uptime) :
    exec (.twbTransferDone k acked true rx) s =
      .next (twbStart (twbStop (twbEvent (twbDrop (s.setFld (TWB.STATUS k) 15 8 (min acked (cmdN w))) k) k 1) k) k) :=
  (exec_twbTransferDone hcmd hbus hends hlate).trans (if_pos rfl)

theorem exec_twbTransferDone_read (hlate : s.twb[k].since + twbTicks s k (twbBytes w acked false rx) ≤ s.uptime) (hread : cmdRead w = true) :
    exec (.twbTransferDone k acked false rx) s = .next (twbTake (upTwb (s.setFld (TWB.STATUS k) 15 8 (rx.take (cmdN w)).length) k
      (fun b => { b with inbox := rx.take (cmdN w), ended := true })) k) :=
  (exec_twbTransferDone hcmd hbus hends hlate).trans ((if_neg Bool.false_ne_true).trans (if_pos hread))

theorem exec_twbTransferDone_written (hlate : s.twb[k].since + twbTicks s k (twbBytes w acked false rx) ≤ s.uptime) (hwrite : cmdRead w = false)
    (hall : cmdN w ≤ s.twb[k].moved) :
    exec (.twbTransferDone k acked false rx) s = .next (twbFinish (s.setFld (TWB.STATUS k) 15 8 (cmdN w)) k) :=
  (exec_twbTransferDone hcmd hbus hends hlate).trans
    ((if_neg Bool.false_ne_true).trans ((if_neg (Bool.eq_false_iff.1 hwrite)).trans (if_neg hall.not_gt)))

end Transfer

/-! ### Losses, timeouts and recovery -/

theorem exec_twbArbitrationLost (n : Nat) (hbus : s.twb[k].onBus = true) : exec (.twbArbitrationLost k n none) s =
    .next (twbEvent (twbFifo (upTwb (twbDrop (s.setFld (TWB.STATUS k) 15 8 (min 255 n)) k) k (fun b => { b with tx := [], free := false })) k) k 2) := by
  show execTwbArbitrationLost k n none s = _
  simp only [execTwbArbitrationLost, hbus, if_true, true_or]

theorem exec_twbMisplacedCondition_controller (st ninth : Bool) (hbus : s.twb[k].onBus = true) (hattn : s.twb[k].attnBus = false) :
    exec (.twbMisplacedCondition k st ninth) s = .next (twbEvent (twbRelease s k) k 3) := by
  show execTwbMisplacedCondition k st ninth s = _
  simp only [execTwbMisplacedCondition, hbus, hattn, true_or, if_true, State.when, Bool.false_eq_true, if_false]

section Target
variable (hbus : s.twb[k].onBus = false) (hattn : s.twb[k].attnBus = false) (htarget : s.bit (TWB.STATUS k) 2 = true)
include hbus hattn htarget

/-- 16 R385: a target by the condition, and whether it falls in the acknowledge of its transmission. -/
theorem exec_twbMisplacedCondition_target (st ninth : Bool) : exec (.twbMisplacedCondition k st ninth) s =
    if s.bit (TWB.STATUS k) 3 && ninth && st then .next s
    else .next (twbEvent (twbIdle (if st then s else twbStop s k) k) k (if s.bit (TWB.STATUS k) 3 && ninth then 7 else 3)) := by
  show execTwbMisplacedCondition k st ninth s = _
  simp only [execTwbMisplacedCondition, hbus, hattn, htarget, Bool.false_eq_true, or_self, if_false, if_true]

theorem exec_twbMisplacedCondition_ninth (hsends : s.bit (TWB.STATUS k) 3 = true) :
    exec (.twbMisplacedCondition k true true) s = .next s ∧
    exec (.twbMisplacedCondition k false true) s = .next (twbEvent (twbIdle (twbStop s k) k) k 7) := by
  constructor
  · rw [exec_twbMisplacedCondition_target hbus hattn htarget, hsends]
    rfl
  · rw [exec_twbMisplacedCondition_target hbus hattn htarget, hsends]
    rfl

theorem exec_twbMisplacedCondition_inside :
    exec (.twbMisplacedCondition k true false) s = .next (twbEvent (twbIdle s k) k 3) ∧
    exec (.twbMisplacedCondition k false false) s = .next (twbEvent (twbIdle (twbStop s k) k) k 3) := by
  constructor
  · simp only [exec_twbMisplacedCondition_target hbus hattn htarget, Bool.and_false, Bool.false_and, Bool.false_eq_true, if_false, if_true]
  · simp only [exec_twbMisplacedCondition_target hbus hattn htarget, Bool.and_false, Bool.false_eq_true, if_false]

end Target

theorem exec_twbSclTimeout (hrecover : (twbTimeout (twbEvent (s.setBit (TWB.STATUS k) 4 true) k 4) k).twb[k].recover = false) :
    exec (.twbSclTimeout k) s = .next (twbTimeout (twbEvent (s.setBit (TWB.STATUS k) 4 true) k 4) k) :=
  if_neg (Bool.eq_false_iff.1 hrecover)

theorem exec_twbSdaTimeout (hauto : (twbTimeout (twbEvent (s.setBit (TWB.STATUS k) 5 true) k 5) k).bit (TWB.CTRL k) 4 = true) :
    exec (.twbSdaTimeout k) s =
      .next (upTwb (twbTimeout (twbEvent (s.setBit (TWB.STATUS k) 5 true) k 5) k) k (fun b => { b with recover := true })) := if_pos hauto

theorem leaves_twbRecover (h : Reaches s who (TWB.RECOVER k) true) (hidle : s.bit (TWB.STATUS k) 1 = false) :
    Leaves (.twbRecover who k v) s (fun t => t.twb[k] = { s.twb[k] with recover := true } ∧ t.regs = s.regs ∧ t.mem = s.mem) := by
  have hgo : (testB (vSet v 0).toNat 0 && !twbActive s k) = true := by simp [testB_vSet, twbActive, hidle]
  have haccess := (access_write h (regWrite_twb s who (vSet v 0) k).2.1).trans (if_pos hgo)
  exact ⟨_, congrArg Host.Outcome.next haccess, upTwb_self s k _, rfl, rfl⟩

theorem exec_twbRecoverDone (hrecover : s.twb[k].recover = true) :
    let u := upTwb s k (fun b => { b with recover := false })
    exec (.twbRecoverDone k true) s = .next (twbEvent (twbStop (u.setBit (TWB.STATUS k) 5 false) k) k 10) ∧
    exec (.twbRecoverDone k false) s = .next (twbEvent u k 11) := ⟨if_pos hrecover, if_pos hrecover⟩

theorem exec_twbBusFree (hbus : s.twb[k].onBus = false) (hkeep : s.twb[k].keep = false) (hattn : s.twb[k].attnBus = false)
    (hhub : s.twb[k].hub = false) (hrest : twbRested s k = true) : exec (.twbBusFree k) s =
      .next (twbStart (upTwb ((s.setFld (TWB.STATUS k) 5 4 0).setBit (TWB.STATUS k) 0 false) k (fun b => { b with free := true })) k) := by
  show execTwbBusFree k s = _
  simp only [execTwbBusFree, hbus, hkeep, hattn, hhub, hrest, Bool.false_eq_true, not_true, or_self, if_false]

/-! ### Targets -/

section Addressed
variable (hserial : serialOn s = true) (hen : s.bit (TWB.CTRL k) 0 = true) (htgt : s.bit (TWB.CTRL k) 2 = true)
  (hbus : s.twb[k].onBus = false) (hattn : s.twb[k].attnBus = false) {a : TwbAddr}
include hserial hen htgt hbus hattn

theorem exec_twbTargetAddressed (hown : twbOwn s k a = true) : exec (.twbTargetAddressed k a) s = .next (twbAddressed s k a.read) := by
  show execTwbTargetAddressed k a s = _
  simp only [execTwbTargetAddressed, hserial, twbTarget, hen, htgt, hown, hbus, hattn, Bool.and_true, Bool.not_false, if_true]

end Addressed

theorem exec_twbTargetAddressed_other {a : TwbAddr} (hother : twbOwn s k a = false) : exec (.twbTargetAddressed k a) s = .next s :=
  if_neg (by simp only [hother, Bool.and_false, Bool.false_and, Bool.false_eq_true, not_false_eq_true])

theorem twbOwn_address {a : TwbAddr} (hten : s.bit (TWB.ADDR k) 15 = a.ten) (haddr : s.fld (TWB.ADDR k) (if a.ten then 9 else 6) 0 = a.addr.toNat) :
    twbOwn s k a = true := by simp [twbOwn, hten, haddr]

theorem twbOwn_generalCall (hgc : s.bit (TWB.CTRL k) 3 = true) : twbOwn s k ⟨0, false, false⟩ = true := by simp [twbOwn, hgc]

section Byte
variable {b : Byte} (htarget : s.bit (TWB.STATUS k) 2 = true) (hreceives : s.bit (TWB.STATUS k) 3 = false)
include htarget hreceives

/-- 16 R383: a byte for a target receiver, by the room of its FIFO. -/
theorem exec_twbTargetByte : exec (.twbTargetByte k b) s = if 8 ≤ s.twb[k].rx.length then .next s
    else .next (twbEvent (twbFifo (upTwb s k (fun t => { t with rx := t.rx ++ [b] })) k) k 9) := by
  show execTwbTargetByte k b s = _
  simp only [execTwbTargetByte, htarget, hreceives, Bool.not_true, Bool.false_eq_true, if_false]

theorem exec_twbTargetByte_room (hroom : s.twb[k].rx.length < 8) :
    exec (.twbTargetByte k b) s = .next (twbEvent (twbFifo (upTwb s k (fun t => { t with rx := t.rx ++ [b] })) k) k 9) :=
  (exec_twbTargetByte htarget hreceives).trans (if_neg hroom.not_ge)

theorem exec_twbTargetByte_full (hfull : 8 ≤ s.twb[k].rx.length) : exec (.twbTargetByte k b) s = .next s :=
  (exec_twbTargetByte htarget hreceives).trans (if_pos hfull)

end Byte

theorem exec_twbTargetStop (htarget : s.bit (TWB.STATUS k) 2 = true) :
    exec (.twbTargetStop k true) s = .next (twbEvent (twbStop (twbIdle s k) k) k 7) ∧
    exec (.twbTargetStop k false) s = .next (twbEvent (twbIdle s k) k 7) := ⟨if_pos htarget, if_pos htarget⟩

theorem leaves_twbWakeDetect (htgt : s.bit (TWB.CTRL k) 2 = true) (hod : s.dom Dom.periph = .od) (hpwr : pwrState s ≠ 3) :
    Leaves (.twbWakeDetect k) s (fun t => t.dom Dom.periph = .on ∧ t.bit (TWB.STATUS k) 0 = true ∧ OnlyRegs s t [TWB.STATUS k]) := by
  have hasleep : (s.bit (TWB.CTRL k) 2 && s.dom Dom.periph != .on) = true := by rw [htgt, hod]; rfl
  exact ⟨_, (if_pos hasleep).trans (if_neg hpwr), dom_on s _, State.bit_setBit_self _ _ _ (by decide), onlyRegs_setFld (s.setDom Dom.periph .on) _ _ _ _⟩

/-! ### Attention writes -/

/-- 16 R388: the register as a write with GO leaves it. -/
abbrev attnAsked (s : State) (who : Nat) (k : Fin 5) (v : Word) : State :=
  (s.plainWrite (TWB.ATTN k) (if k = 0 then vSet v 31 else vSet v 31 &&& ~~~ 0x10000) (s.trusted who)).setBit (TWB.ATTN k) 31 false

theorem exec_twbAttn (h : Reaches s who (TWB.ATTN k) true) :
    exec (.twbAttn who k v) s = .next (attnGo (attnAsked s who k v) k ((attnAsked s who k v).bit (TWB.ATTN k) 16)) := by
  have hgo : testB (vSet v 31).toNat 31 = true := by simp [testB_vSet]
  exact congrArg Host.Outcome.next ((access_write h (regWrite_twb s who (vSet v 31) k).2.2.1).trans (if_pos hgo))

/-- A write under access codes writes its register at most. -/
theorem plainWrite_frame (s : State) (a : Nat) (w : Word) (trusted : Bool) :
    (s.plainWrite a w trusted).twb = s.twb ∧ OnlyRegs s (s.plainWrite a w trusted) [a] := by
  unfold State.plainWrite
  split
  · exact ⟨rfl, Machine.onlyRegs_wr s (List.mem_singleton_self _) _⟩
  · exact ⟨rfl, DramControl.onlyRegs_refl s _⟩

theorem attnAsked_twb (s : State) (who : Nat) (k : Fin 5) (v : Word) : (attnAsked s who k v).twb = s.twb := (plainWrite_frame s _ _ _).1

theorem twbTarget_attnAsked (s : State) (who : Nat) (k : Fin 5) (v : Word) : twbTarget (attnAsked s who k v) k = twbTarget s k := by
  have hne : TWB.CTRL k ∉ [TWB.ATTN k] := by simp only [TWB.CTRL, TWB.ATTN, List.mem_singleton]; omega
  have honly : OnlyRegs s (attnAsked s who k v) [TWB.ATTN k] := DramControl.onlyRegs_then (plainWrite_frame s (TWB.ATTN k) (if k = 0 then vSet v 31 else vSet v 31 &&& ~~~ 0x10000) (s.trusted who)).2
    (List.mem_singleton_self _) _
  have hctrl : (attnAsked s who k v).rd (TWB.CTRL k) = s.rd (TWB.CTRL k) := honly.1 _ hne
  simp only [twbTarget, State.bit, hctrl]

theorem exec_twbAttn_discarded (h : Reaches s who (TWB.ATTN k) true) (hno : s.twb[k].attn.isSome = true ∨ twbTarget s k = false) :
    exec (.twbAttn who k v) s = .next (attnAsked s who k v) := by
  refine (exec_twbAttn h).trans (congrArg _ (if_pos ?_))
  rw [attnAsked_twb, twbTarget_attnAsked]
  simpa only [Bool.or_eq_true, Bool.not_eq_true'] using hno

theorem exec_twbAttnDone (hattn : s.twb[k].attnBus = true) (ok : Bool) : exec (.twbAttnDone k ok) s =
    .next (twbEvent (twbStop (upTwb s k (fun b => { b with attn := none, attnBus := false })) k) k (if ok then 12 else 13)) := if_pos hattn

/-! ### The FIFOs and the control register -/

section Tx
variable (h : Reaches s who (TWB.TXDATA k) true)
include h

theorem exec_twbTxdataWrite : exec (.twbTxdataWrite who k v) s = .next (twbTxWrite s k v) :=
  congrArg Host.Outcome.next (access_write h (regWrite_twb s who v k).2.2.2.1)

theorem exec_twbTxdataWrite_full (hfull : 8 ≤ s.twb[k].tx.length) : exec (.twbTxdataWrite who k v) s = .next s :=
  (exec_twbTxdataWrite h).trans (congrArg _ (if_pos hfull))

theorem exec_twbTxdataWrite_room (hroom : s.twb[k].tx.length < 8) : exec (.twbTxdataWrite who k v) s =
    .next (twbFeed (twbFifo (upTwb s k (fun b => { b with tx := b.tx ++ [BitVec.ofNat 8 v.toNat] })) k) k) :=
  (exec_twbTxdataWrite h).trans (congrArg _ (if_neg hroom.not_ge))

end Tx

theorem exec_twbRxdataRead {w : Word} {t : State} (h : Reaches s who (TWB.RXDATA k) false) (hread : twbRxRead s k = (w, t)) :
    exec (.twbRxdataRead who k) s = .next { t with rdata := w } := by
  have hreg := (regRead_twb s who k).trans hread
  refine congrArg Host.Outcome.next ((access_read h).trans ?_)
  rw [hreg]

theorem twbRxRead_empty (hempty : s.twb[k].rx = []) : twbRxRead s k = (0, s) := by simp only [twbRxRead, hempty]

theorem twbRxRead_oldest {b : Byte} {l : List Byte} (hrx : s.twb[k].rx = b :: l) :
    twbRxRead s k = (BitVec.ofNat 32 (256 + b.toNat), twbTake (upTwb s k (fun t => { t with rx := l })) k) := by simp only [twbRxRead, hrx]

theorem exec_twbDisable (h : Reaches s who (TWB.CTRL k) true) : exec (.twbDisable who k v) s = .next (twbCtrlWrite s k (vClr v 0) (s.trusted who)) :=
  congrArg Host.Outcome.next (access_write h (regWrite_twb s who (vClr v 0) k).2.2.2.2)

end Sys2Proof.TwoWireBuses
end

section
/-! PROOF. The clocked serial ports (16 R389 to R391), and the statement on serial ports. -/
namespace Sys2Proof.SerialPorts
open Sys2Proof.Machine Sys2Proof.Safety Sys2Proof.Reg Sys2Proof.TwoWireBuses

variable {s : State} {who : Nat} {v : Word} {k : Fin 2}

theorem upCsp_self (s : State) (k : Fin 2) (f : Csp → Csp) : (upCsp s k f).csp[k] = f s.csp[k] := Vector.getElem_set_self _

theorem leaves_cspWakeDetect (hslave : cspSlave s k = true) (hen : s.bit (CSP.CTRL k) 0 = true) (hod : s.dom Dom.periph = .od)
    (hpwr : pwrState s ≠ 3) :
    Leaves (.cspWakeDetect k) s (fun t => t.dom Dom.periph = .on ∧ t.bit (CSP.STATUS k) 1 = true ∧ OnlyRegs s t [CSP.STATUS k]) := by
  have hasleep : (cspSlave s k && s.bit (CSP.CTRL k) 0 && s.dom Dom.periph != .on) = true := by rw [hslave, hen, hod]; rfl
  exact ⟨_, (if_pos hasleep).trans (if_neg hpwr), dom_on s _, State.bit_setBit_self _ _ _ (by decide), onlyRegs_setFld (s.setDom Dom.periph .on) _ _ _ _⟩

section Tx
variable (h : Reaches s who (CSP.TXDATA k) true)
include h

theorem exec_cspTxdataWrite : exec (.cspTxdataWrite who k v) s = .next (cspTxWrite s k v) :=
  congrArg Host.Outcome.next (access_write h (regWrite_csp s who v k).1)

theorem exec_cspTxdataWrite_full (hfull : 8 ≤ s.csp[k].tx.length) : exec (.cspTxdataWrite who k v) s = .next s :=
  (exec_cspTxdataWrite h).trans (congrArg _ (if_pos hfull))

theorem exec_cspTxdataWrite_room (hroom : s.csp[k].tx.length < 8) : exec (.cspTxdataWrite who k v) s =
    .next (cspStart (cspFifo (upCsp s k (fun c => { c with tx := c.tx ++ [cspCut s k v] })) k) k) :=
  (exec_cspTxdataWrite h).trans (congrArg _ (if_neg hroom.not_ge))

end Tx

theorem exec_cspRxdataRead {w : Word} {t : State} (h : Reaches s who (CSP.RXDATA k) false) (hread : cspRxRead s k = (w, t)) :
    exec (.cspRxdataRead who k) s = .next { t with rdata := w } := by
  have hreg := (regRead_csp s who k).trans hread
  refine congrArg Host.Outcome.next ((access_read h).trans ?_)
  rw [hreg]

theorem cspRxRead_empty (hempty : s.csp[k].rx = []) : cspRxRead s k = (0, s) := by simp only [cspRxRead, hempty]

theorem cspRxRead_oldest {w : Word} {l : List Word} (hrx : s.csp[k].rx = w :: l) :
    cspRxRead s k = (w, cspStart (cspFifo (upCsp s k (fun c => { c with rx := l })) k) k) := by simp only [cspRxRead, hrx]

theorem exec_cspMasterFrameDone (w : Word) (hframe : s.csp[k].frame.isSome = true) (hlate : s.csp[k].since + cspTicks s k ≤ s.uptime) :
    exec (.cspMasterFrameDone k w) s = .next (cspStart (cspEvent
      ((cspFifo (upCsp s k (fun c => { c with frame := none, rx := c.rx ++ [cspIn s k w] })) k).setBit (CSP.STATUS k) 0 false) k 0) k) :=
  if_pos ⟨hframe, hlate⟩

theorem exec_cspSlaveFrameDone (w : Word) (hserves : cspServes s k = true) (hselected : s.bit (CSP.STATUS k) 1 = true) (htx : s.csp[k].tx ≠ [])
    (hroom : s.csp[k].rx.length < 8) : let u := upCsp s k (fun c => { c with tx := c.tx.drop 1 })
    exec (.cspSlaveFrameDone k w) s = .next (cspFifo (cspEvent (upCsp u k (fun c => { c with rx := c.rx ++ [cspIn u k w] })) k 0) k) := by
  intro u
  show execCspSlaveFrameDone k w s = _
  have hsends : s.csp[k].tx.isEmpty = false := by simpa using htx
  have hrx : u.csp[k].rx = s.csp[k].rx := by simp only [u, upCsp_self]
  have htakes : ¬ 8 ≤ u.csp[k].rx.length := by rw [hrx]; omega
  simp only [execCspSlaveFrameDone, hserves, hselected, hsends, Bool.and_true, if_true, Bool.false_eq_true, if_false]
  exact congrArg (fun t => Host.Outcome.next (cspFifo t k)) (if_neg htakes)

theorem exec_cspSelectRelease (hselected : s.bit (CSP.STATUS k) 1 = true) :
    exec (.cspSelectRelease k false) s = .next (cspEvent (s.setBit (CSP.STATUS k) 1 false) k 4) ∧
    exec (.cspSelectRelease k true) s = .next (cspEvent (cspEvent (s.setBit (CSP.STATUS k) 1 false) k 3) k 4) :=
  ⟨if_pos hselected, if_pos hselected⟩

section Disable
variable (h : Reaches s who (CSP.CTRL k) true)
include h

theorem exec_cspDisable : exec (.cspDisable who k v) s = .next (cspCtrlWrite s k (vClr v 0) (s.trusted who)) :=
  congrArg Host.Outcome.next (access_write h (regWrite_csp s who (vClr v 0) k).2)

theorem exec_cspDisable_window (howned : s.bit (CSP.STATUS k) 2 = true) : exec (.cspDisable who k v) s = .next s :=
  (exec_cspDisable h).trans (congrArg _ (if_pos howned))

theorem exec_cspDisable_port (hfree : s.bit (CSP.STATUS k) 2 = false) : exec (.cspDisable who k v) s =
    .next (cspStart ((s.plainWrite (CSP.CTRL k) (vClr v 0) (s.trusted who)).setBit (CSP.STATUS k) 1 false) k) := by
  have hoff : testB (vClr v 0).toNat 0 = false := by simp [testB_vClr]
  refine (exec_cspDisable h).trans (congrArg _ ((if_neg (Bool.eq_false_iff.1 hfree)).trans (congrArg (cspStart · k) ?_)))
  exact if_neg (Bool.eq_false_iff.1 hoff)

end Disable

theorem leaves_cspSlaveSelect (hserves : cspServes s k = true) :
    Leaves (.cspSlaveSelect k) s (fun t => t.bit (CSP.STATUS k) 1 = true ∧ OnlyRegs s t [CSP.STATUS k]) :=
  ⟨_, if_pos hserves, State.bit_setBit_self s _ _ (by decide), onlyRegs_setFld s _ _ _ _⟩

/-- Settles O52: each command and each event of a bus or of a port by its own rule above. -/
theorem serialPortsMoveTheirBytes : Obligations.SerialPortsMoveTheirBytes := by
  unfold Obligations.SerialPortsMoveTheirBytes
  intro who v s
  refine ⟨fun k => ⟨fun h => ⟨leaves_twbCmd_refused h, exec_twbCmd_taken h⟩, fun w acked rx hcmd hbus hends => ?_,
    exec_twbArbitrationLost, exec_twbMisplacedCondition_controller, fun hbus hattn htarget => ?_, fun _ _ => exec_twbSclTimeout,
    exec_twbSdaTimeout, leaves_twbRecover, exec_twbRecoverDone, fun hserial hen htgt hbus hattn a => ?_, fun b htarget hreceives => ?_,
    exec_twbTargetStop, fun h => ⟨exec_twbAttn h, exec_twbAttn_discarded h⟩, exec_twbAttnDone,
    fun h => ⟨exec_twbTxdataWrite_full h, exec_twbTxdataWrite_room h⟩, fun h => ⟨fun hempty => ?_, fun b l hrx => ?_⟩,
    exec_twbDisable, leaves_twbWakeDetect, exec_twbBusFree⟩, fun k => ?_⟩
  · exact ⟨exec_twbTransferDone_nack hcmd hbus hends, exec_twbTransferDone_read hcmd hbus hends, exec_twbTransferDone_written hcmd hbus hends⟩
  · exact ⟨exec_twbMisplacedCondition_ninth hbus hattn htarget, exec_twbMisplacedCondition_inside hbus hattn htarget⟩
  · have haddressed {a : TwbAddr} := exec_twbTargetAddressed (a := a) hserial hen htgt hbus hattn
    exact ⟨fun hten haddr => haddressed (twbOwn_address hten haddr), fun hcall hgc => hcall ▸ haddressed (twbOwn_generalCall hgc), exec_twbTargetAddressed_other⟩
  · exact ⟨exec_twbTargetByte_room htarget hreceives, exec_twbTargetByte_full htarget hreceives⟩
  · exact exec_twbRxdataRead h (twbRxRead_empty hempty)
  · exact exec_twbRxdataRead h (twbRxRead_oldest hrx)
  · exact ⟨leaves_cspWakeDetect, fun h => ⟨exec_cspTxdataWrite_full h, exec_cspTxdataWrite_room h⟩,
      fun h => ⟨fun hempty => exec_cspRxdataRead h (cspRxRead_empty hempty), fun w l hrx => exec_cspRxdataRead h (cspRxRead_oldest hrx)⟩,
      exec_cspMasterFrameDone, exec_cspSlaveFrameDone, exec_cspSelectRelease, fun h => ⟨exec_cspDisable_window h, exec_cspDisable_port h⟩,
      leaves_cspSlaveSelect⟩

end Sys2Proof.SerialPorts
end

section
/-! PROOF. The host window (16 R392 to R400, R403). -/
namespace Sys2Proof.HostWindow
open Sys2Proof.Machine Sys2Proof.Safety Sys2Proof.Reg

variable {s : State} {who : Nat} {v : Word}

/-! ### The start of a transaction -/

theorem exec_hwnTransactionStart_off (rd : Bool) (hoff : s.bit HWN.CTRL 0 = false) : exec (.hwnTransactionStart rd) s = .next s := by
  show execHwnTransactionStart rd s = _
  simp only [execHwnTransactionStart, hoff, Bool.not_false, Bool.true_or, if_true]

section On
variable (rd : Bool) (hon : s.bit HWN.CTRL 0 = true) (hserial : serialOn s = true)
include hon hserial

/-- 16 R394: the select of CSP0 takes the status byte and the firmware area as they stand. -/
theorem leaves_hwnTransactionStart_csp (hport : s.bit HWN.CTRL 1 = true) (hen : s.bit (CSP.CTRL 0) 0 = true) (hslave : s.bit (CSP.CTRL 0) 1 = true) :
    Leaves (.hwnTransactionStart rd) s (fun t => t.bit (CSP.STATUS 0) 1 = true ∧
      t.hwn = { s.hwn with tx := some { cmd := true, status := some (BitVec.ofNat 8 (hwnStatus s)), area := hwnArea s } } ∧ OnlyRegs s t [CSP.STATUS 0]) := by
  have hrole : hwnPortOn s = true := by simp only [hwnPortOn, hwnOnCsp, hport, hen, if_true, Bool.true_and]; exact hslave
  refine ⟨(s.setBit (CSP.STATUS 0) 1 true).upHwn (fun h => { h with tx := some { cmd := true, status := some (BitVec.ofNat 8 (hwnStatus s)), area := hwnArea s } }),
    ?_, State.bit_setBit_self s (CSP.STATUS 0) _ (by decide), rfl, onlyRegs_setFld s _ _ _ _⟩
  show execHwnTransactionStart rd s = _
  simp only [execHwnTransactionStart, hon, hserial, hrole, hwnOnCsp, hport, Bool.not_true, Bool.or_self, Bool.false_eq_true, if_false, if_true]

/-- 16 R395: the window is addressed on TWB0, which shows it as addressed. -/
theorem exec_hwnTransactionStart_twb (hport : s.bit HWN.CTRL 1 = false) (hen : s.bit (TWB.CTRL 0) 0 = true) (htarget : s.bit (TWB.CTRL 0) 2 = true)
    (hfree : s.hwn.tx = none) : let u := twbEvent (s.setBit (TWB.STATUS 0) 0 true) 0 6
    exec (.hwnTransactionStart rd) s = .next
      (u.upHwn (fun h => { h with tx := some { read := rd, cmd := !rd, status := if rd then some (BitVec.ofNat 8 (hwnStatus u)) else none, area := hwnArea u } })) := by
  have hrole : hwnPortOn s = true := by
    simp only [hwnPortOn, hwnOnCsp, hport, Bool.false_eq_true, if_false]
    exact Bool.and_eq_true_iff.2 ⟨hen, htarget⟩
  intro u
  show execHwnTransactionStart rd s = _
  simp only [execHwnTransactionStart, hon, hserial, hrole, hwnOnCsp, hport, hfree, Bool.not_true, Bool.or_self, Bool.false_eq_true, if_false]
  rfl

end On

/-! ### Bytes and the end -/

section Transaction
variable {x : HwnTx} (b : Byte) (htx : s.hwn.tx = some x)
include htx

/-- 16 R396: the command byte loads the pointer and, on CSP0, gives the direction. -/
theorem leaves_hwnByteCommit_pointer (hcmd : x.cmd = true) (hstatus : x.status = none) :
    Leaves (.hwnByteCommit b) s (fun t => t.hwn.ptr = b.toNat % 128 ∧
      t.hwn.tx = some { x with cmd := false, status := none, read := if hwnOnCsp s then testB b.toNat 7 else false } ∧ t.regs = s.regs ∧ t.mem = s.mem) := by
  refine ⟨s.upHwn (fun h => { h with ptr := b.toNat % 128, tx := some { x with cmd := false, status := none, read := if hwnOnCsp s then testB b.toNat 7 else false } }),
    ?_, rfl, rfl, rfl, rfl⟩
  show execHwnByteCommit b s = _
  simp only [execHwnByteCommit, htx, hcmd, hstatus, if_true]

theorem exec_hwnByteCommit_data (hcmd : x.cmd = false) (hstatus : x.status = none) :
    exec (.hwnByteCommit b) s = .next (if x.read then hwnRead s x else hwnWrite s x b) := by
  show execHwnByteCommit b s = _
  simp only [execHwnByteCommit, htx, hcmd, hstatus, Bool.false_eq_true, if_false]
  cases x.read <;> rfl

theorem exec_hwnTransactionEnd (hport : s.bit HWN.CTRL 1 = true) (hspan : x.span = none) (hread : x.read = false) :
    exec (.hwnTransactionEnd false) s = .next ((s.upHwn (fun h => { h with tx := none })).setBit (CSP.STATUS 0) 1 false) := by
  have hend : hwnEnd s x false = s.upHwn (fun h => { h with tx := none }) := by
    simp only [hwnEnd, hspan, hread, Bool.false_eq_true, if_false, Bool.false_and, State.when]
  show execHwnTransactionEnd false s = _
  simp only [execHwnTransactionEnd, htx, hend]
  exact congrArg Host.Outcome.next (if_pos hport)

end Transaction

/-! ### `HWN.CTRL` -/

theorem exec_hwnAttnSet (h : Reaches s who HWN.CTRL true) : exec (.hwnAttnSet who v) s = .next (hwnCtrlWrite s (vSet v 3)) :=
  congrArg Host.Outcome.next (access_write h rfl)

/-- 16 R400: EN cleared drops the transaction, the staged word and the holding word. -/
theorem leaves_hwnDisable (h : Reaches s who HWN.CTRL true) (hon : s.bit HWN.CTRL 0 = true) (hattn : v.getLsbD 3 = false ∨ s.bit HWN.CTRL 3 = true) :
    Leaves (.hwnDisable who v) s (fun t => t.hwn.tx = none ∧ t.hwn.stage = 0 ∧ t.hwn.hold = none ∧ t.bit (CSP.STATUS 0) 2 = false) := by
  have hclr : testB (vClr v 0).toNat 0 = false := by rw [testB_vClr v 0 0 (by decide), decide_eq_true rfl, Bool.not_true, Bool.and_false]
  have hask : (testB (vClr v 0).toNat 3 && !s.bit HWN.CTRL 3 && testB (vClr v 0).toNat 4) = false := by
    rw [testB_vClr v 0 3 (by decide), testB_toNat]
    rcases hattn with hclear | hset
    · rw [hclear]; rfl
    · rw [hset, Bool.not_true, Bool.and_false]; rfl
  refine ⟨_, congrArg Host.Outcome.next (access_write h rfl), ?_⟩
  simp only [hwnCtrlWrite, testB_hwn, hon, hclr, hask, Bool.false_and, Bool.not_false, Bool.and_true, if_true, State.when, Bool.false_eq_true, if_false]
  exact ⟨rfl, rfl, rfl, State.bit_setBit_self _ _ _ (by decide)⟩

end Sys2Proof.HostWindow
end

section
/-! PROOF. The commands of OTP and of the key slots (17 R404 to R407, R415, R416). -/
namespace Sys2Proof.KeyCommands
open Sys2Proof.Machine Sys2Proof.Safety Sys2Proof.Reg

variable {s : State} {who : Nat} {v : Word}

/-! ### OTP -/

theorem exec_otp_busy {w : Word} (h : Reaches s who KEY.OTPCMD true) (hbusy : s.keys.otpCmd = some w) :
    exec (.otpProgOwner who v) s = .next s ∧ exec (.otpRevoke who v) s = .next s ∧ exec (.otpBurnOwned who v) s = .next s ∧ exec (.otpBurnRetired who v) s = .next s := by
  have hdrop (k : Fin 9) (h1 : k.val ≠ 0) (h2 : k.val ≤ 4) : s.access who KEY.OTPCMD (some (withBits v 3 0 k.val)) = s :=
    (otp_start h (bits_self v k) h1 h2).1 w hbusy
  exact ⟨congrArg _ (hdrop 1 (by decide) (by decide)), congrArg _ (hdrop 2 (by decide) (by decide)),
    congrArg _ (hdrop 3 (by decide) (by decide)), congrArg _ (hdrop 4 (by decide) (by decide))⟩

theorem leaves_otp_taken (h : Reaches s who KEY.OTPCMD true) (hidle : s.keys.otpCmd = none) :
    ∀ c ∈ [(Instr.otpProgOwner who v, 1), (.otpRevoke who v, 2), (.otpBurnOwned who v, 3), (.otpBurnRetired who v, 4)],
      Leaves c.1 s (fun t => t.keys = { s.keys with otpCmd := some (withBits v 3 0 c.2) } ∧ t.bit KEY.OTPSTAT 0 = true ∧ OnlyRegs s t [KEY.OTPSTAT]) := by
  intro c hc
  simp only [List.mem_cons, List.not_mem_nil, or_false] at hc
  rcases hc with rfl | rfl | rfl | rfl
  · exact otp_leaves rfl h (bits_self v 1) (by decide) (by decide) hidle
  · exact otp_leaves rfl h (bits_self v 2) (by decide) (by decide) hidle
  · exact otp_leaves rfl h (bits_self v 3) (by decide) (by decide) hidle
  · exact otp_leaves rfl h (bits_self v 4) (by decide) (by decide) hidle

section OtpDone
variable {w : Word} {ok : Bool} (hcmd : s.keys.otpCmd = some w)
include hcmd

theorem exec_otpCommandDone : exec (.otpCommandDone ok) s =
    .next ((((otpRun s w ok).2.setFld KEY.OTPSTAT 7 4 (otpRun s w ok).1).setBit KEY.OTPSTAT 0 false).upKeys (fun k => { k with otpCmd := none })) := by
  show execOtpCommandDone ok s = _
  simp only [execOtpCommandDone, hcmd]

/-- A command that burns nothing leaves its result and only `KEY.OTPSTAT` changed. -/
theorem leaves_otpCommandDone_unburnt {res : Nat} (hrun : otpRun s w ok = (res, s)) (hres : res < 16) :
    Leaves (.otpCommandDone ok) s (fun t => t.fld KEY.OTPSTAT 7 4 = res ∧ t.bit KEY.OTPSTAT 0 = false ∧
      t.keys = { s.keys with otpCmd := none } ∧ OnlyRegs s t [KEY.OTPSTAT]) := by
  refine ⟨_, exec_otpCommandDone hcmd, ?_⟩
  rw [hrun]
  refine ⟨?_, State.bit_setBit_self _ _ _ (by decide), rfl, ?_⟩
  · have hfield : (s.setFld KEY.OTPSTAT 7 4 res).fld KEY.OTPSTAT 7 4 = res :=
      (State.fld_setFld_self s _ _ (by decide) (by decide)).trans (Nat.mod_eq_of_lt hres)
    exact (State.fld_setBit_apart _ _ (i := 0) _ (by decide) (by decide)).trans hfield
  · exact DramControl.onlyRegs_then (onlyRegs_setFld s _ _ _ _) List.mem_cons_self _

end OtpDone

/-- 17 R406: under 2.0 V nothing is burnt. -/
theorem otpRun_of_low (w : Word) (ok : Bool) (hlow : s.fld PWR.VBAT 11 0 < 2000) : otpRun s w ok = (1, s) := if_pos hlow

/-- 17 R406: RETIRED is burnt in OWNED only. -/
theorem otpRun_retire_of_phase {w : Word} (ok : Bool) (hvbat : 2000 ≤ s.fld PWR.VBAT 11 0) (hop : bitsOf w 3 0 = 4) (hphase : lifecycle s ≠ 2) :
    otpRun s w ok = (5, s) := by
  rw [otpRun, if_neg (by omega), hop]
  exact if_pos hphase

/-! ### Key slots -/

theorem leaves_key_command (h : Reaches s who KEY.CMD true) :
    ∀ c ∈ [(Instr.keyGenerate who v, 1), (.keyWrite who v, 2), (.keyDerive who v, 3), (.keyDelete who v, 4), (.keySetattr who v, 5), (.keyAttest who v, 6), (.keySignid who v, 7), (.keyRekey who v, 8)],
      (∀ w, s.keys.cmd = some w → Leaves c.1 s (fun t => t.bit KEY.STATUS 4 = true ∧ t.keys = s.keys ∧ OnlyRegs s t [KEY.STATUS])) ∧
      (s.keys.cmd = none → Leaves c.1 s (fun t => t.bit KEY.STATUS 0 = true ∧ t.bit KEY.STATUS 4 = false ∧ OnlyRegs s t [KEY.STATUS] ∧
        ∃ w : KeyCmd, t.keys = { s.keys with cmd := some w } ∧ w.cmd = withBits v 3 0 c.2 ∧ w.arg0 = s.rd KEY.ARG0 ∧ w.arg1 = s.rd KEY.ARG1 ∧ w.arg2 = s.rd KEY.ARG2 ∧ w.addr = (s.rd KEY.ADDR).toNat)) := by
  intro c hc
  simp only [List.mem_cons, List.not_mem_nil, or_false] at hc
  rcases hc with rfl | rfl | rfl | rfl | rfl | rfl | rfl | rfl
  · exact key_leaves rfl h (bits_self v 1) (by decide) (by decide)
  · exact key_leaves rfl h (bits_self v 2) (by decide) (by decide)
  · exact key_leaves rfl h (bits_self v 3) (by decide) (by decide)
  · exact key_leaves rfl h (bits_self v 4) (by decide) (by decide)
  · exact key_leaves rfl h (bits_self v 5) (by decide) (by decide)
  · exact key_leaves rfl h (bits_self v 6) (by decide) (by decide)
  · exact key_leaves rfl h (bits_self v 7) (by decide) (by decide)
  · exact key_leaves rfl h (bits_self v 8) (by decide) (by decide)

/-- 17 R415: without a root secret no slot command acts. -/
theorem keyRun_without_root (c : KeyCmd) (e : Bool) (h : s.bit KEY.STATUS 2 = false ∨ rootSecret s = none) : keyRun s c e = (9, s) := by
  have hroot : (if s.bit KEY.STATUS 2 = true then rootSecret s else none) = none := by
    rcases h with hoff | hnone
    · rw [hoff]; rfl
    · rw [hnone, ite_self]
  simp only [keyRun, hroot]

section Root
variable {root : List Byte} {c : KeyCmd} (hvalid : s.bit KEY.STATUS 2 = true) (hroot : rootSecret s = some root) (hlive : s.bit KEY.STATUS 3 = false)
include hvalid hroot hlive

theorem keyRun_unarmed (e : Bool) (hop : bitsOf c.cmd 3 0 ≠ 8) (harmed : s.bit KEY.STATUS 1 = false) : keyRun s c e = (9, s) := by
  simp only [keyRun, hvalid, hroot, hlive, hop, harmed, Bool.not_false, Bool.false_eq_true, if_false, if_true]

/-- 17 R415: DELETE writes a record of zeros. -/
theorem keyRun_delete (hop : bitsOf c.cmd 3 0 = 4) (harmed : s.bit KEY.STATUS 1 = true) :
    keyRun s c false = (0, slotWriteWords s (bitsOf c.cmd 12 8) 8 (List.replicate 64 0)) := by
  have hslot : slotCommand s c = (0, some (List.replicate 64 0), s) := by simp only [slotCommand, hop]
  simp only [keyRun, hvalid, hroot, hlive, hop, harmed, hslot, Bool.not_true, Bool.false_eq_true, if_false, if_true,
    Nat.reduceEqDiff]

/-- 17 R426: REKEY acts where no alarm condition stands. -/
theorem keyRun_rekey (hop : bitsOf c.cmd 3 0 = 8) (halarm : s.fld KEY.ALARM 3 0 = 0) : keyRun s c false = (0, rekey s root) := by
  simp only [keyRun, hvalid, hroot, hlive, hop, halarm, ne_eq, not_true, Bool.false_eq_true, if_false, if_true]

end Root

end Sys2Proof.KeyCommands
end

section
/-! PROOF. The obligation about the host window, OTP and the key slots. -/
namespace Sys2Proof.KeyCommands
open Sys2Proof.Machine Sys2Proof.Safety Sys2Proof.Reg Sys2Proof.HostWindow

theorem exec_keyCommandDone_of_run {s t : State} {c : KeyCmd} {e : Bool} {res : Nat} (hcmd : s.keys.cmd = some c) (hrun : keyRun s c e = (res, t)) :
    exec (.keyCommandDone e) s = .next (keyEnd t c res) := by
  rw [keyEnd_run hcmd, hrun]

/-- Settles O53: the clauses on the window, OTP and the key slots, each by the lemma on its command. -/
theorem hostWindowAndKeysTakeTheirCommands : Obligations.HostWindowAndKeysTakeTheirCommands := by
  intro who v s
  refine ⟨fun rd => ⟨exec_hwnTransactionStart_off rd, leaves_hwnTransactionStart_csp rd, exec_hwnTransactionStart_twb rd⟩,
    fun x b htx => ⟨leaves_hwnByteCommit_pointer b htx, exec_hwnByteCommit_data b htx, fun p hport hspan hread hp => ?_⟩,
    fun h => ⟨leaves_hwnDisable h, exec_hwnAttnSet h⟩,
    fun h => ⟨fun w hbusy => exec_otp_busy h hbusy, leaves_otp_taken h⟩,
    fun w ok hcmd => ⟨exec_otpCommandDone hcmd,
      fun hlow => leaves_otpCommandDone_unburnt hcmd (otpRun_of_low w ok hlow) (by decide), fun hvbat hop hphase => ?_⟩,
    fun h => leaves_key_command h,
    fun c e hcmd => ⟨keyEnd_run hcmd, fun hnone => exec_keyCommandDone_of_run hcmd (keyRun_without_root c e hnone),
      fun root hvalid hroot hlive => ⟨fun hop harmed => exec_keyCommandDone_of_run hcmd (keyRun_unarmed hvalid hroot hlive e hop harmed),
        fun hop harmed => exec_keyCommandDone_of_run hcmd (keyRun_delete hvalid hroot hlive hop harmed),
        fun hop halarm => exec_keyCommandDone_of_run hcmd (keyRun_rekey hvalid hroot hlive hop halarm)⟩⟩⟩
  · subst hp
    exact exec_hwnTransactionEnd htx hport hspan hread
  · obtain ⟨t, hexec, hresult, -, hkeys, hframe⟩ := leaves_otpCommandDone_unburnt hcmd (otpRun_retire_of_phase ok hvbat hop hphase) (by decide)
    exact ⟨t, hexec, hresult, hkeys, hframe⟩

end Sys2Proof.KeyCommands
end

section
/-! PROOF. The cipher jobs and the alarms (17 R419 to R426). -/
namespace Sys2Proof.CipherJobs
open Sys2Proof.Machine Sys2Proof.Safety Sys2Proof.Reg

variable {s : State}

theorem exec_job_start {s1 s2 : State} {q : Nat} {w : Word} {enq : Nat} {trust : Bool} {b : List Byte} (hnext : jobNext s = some q)
    (hpeek : qPeek s q = (some w, s1)) (htake : qTake s q = (some (w, enq, trust), s2))
    (hdesc : (engineRead s (jobInit (qTag s q (qHead s q)).1) w.toNat 64 true).1 = some b) :
    ∀ c ∈ [(Instr.jobEcbEncrypt, 1), (.jobEcbDecrypt, 2), (.jobCtr, 3), (.jobCbcMac, 4), (.jobCmacGenerate, 5), (.jobCmacVerify, 6), (.jobCcmSeal, 7), (.jobCcmOpen, 8)],
      (descOf b).op = c.2 → exec c.1 s = .next (jobTake s2 q w enq trust) := by
  have htakes {op : Nat} (hop : (descOf b).op = op) : Host.Outcome.next (jobStart op s) = (.next (jobTake s2 q w enq trust) : Out) :=
    congrArg Host.Outcome.next (job_take hnext hpeek htake hdesc hop)
  intro c hc
  simp only [List.mem_cons, List.not_mem_nil, or_false] at hc
  rcases hc with rfl | rfl | rfl | rfl | rfl | rfl | rfl | rfl <;> exact htakes

section Done
variable {j : Job} {l : List Job} (hjobs : s.keys.jobs = j :: l)
include hjobs

theorem exec_cipherJobDone_decided {st : Nat} (hstatus : j.status = some st) :
    exec .cipherJobDone s = .next (jobShow (jobEnd (s.upKeys (fun k => { k with jobs := l })) j st)) := by
  show execCipherJobDone s = _
  simp only [execCipherJobDone, hjobs, hstatus]

theorem exec_cipherJobDone_run (hstatus : j.status = none) : let u := s.upKeys (fun k => { k with jobs := l })
    exec .cipherJobDone s = .next (jobShow (jobEnd (jobRun u j).2 j (jobRun u j).1)) := by
  show execCipherJobDone s = _
  simp only [execCipherJobDone, hjobs, hstatus]

end Done

/-- 17 R425: an alarm that meets no work in flight. -/
theorem leaves_alarm (hpower : pwrState s ≠ 4) (hcmd : s.keys.cmd = none) (hjobs : s.keys.jobs = []) (hpka : s.keys.pka = none) (words : Nat) :
    ∀ c ∈ [(Instr.alarmSupplyGlitch words, 0), (.alarmClockGlitch words, 1), (.alarmTemperature words, 2), (.alarmTamp words, 3)],
      (c.2 = 3 → s.bit KEY.ALARM 16 = true) →
      Leaves c.1 s (fun t => t.keys.mem = none ∧ t.keys.wrap = none ∧ t.keys.tag = none ∧ t.keys.ident = none ∧ t.keys.cache = [] ∧ t.keys.otp = s.keys.otp ∧ t.mem = s.mem ∧
        t.bit KEY.STATUS 1 = false ∧ t.bit AES.STATUS 8 = false ∧ t.bit KEY.ALARM c.2 = true ∧ t.bit KEY.ALARM (8 + c.2) = true) := by
  intro c hc htamp
  have herased (i : Fin 4) := alarm_facts hpower hcmd hjobs hpka i words
  simp only [List.mem_cons, List.not_mem_nil, or_false] at hc
  rcases hc with rfl | rfl | rfl | rfl
  · exact ⟨_, rfl, herased 0⟩
  · exact ⟨_, rfl, herased 1⟩
  · exact ⟨_, rfl, herased 2⟩
  · exact ⟨_, congrArg Host.Outcome.next (if_pos (htamp rfl)), herased 3⟩

theorem leaves_alarmConditionEnd (i : Fin 4) : Leaves (.alarmConditionEnd i) s (fun t => t.bit KEY.ALARM i.val = false ∧ OnlyRegs s t [KEY.ALARM]) :=
  ⟨_, rfl, State.bit_setBit_self s _ _ (by omega), onlyRegs_setFld s _ _ _ _⟩

end Sys2Proof.CipherJobs
end

section
/-! PROOF. The public-key, hash and random-number units (17 R427 to R429, R432). -/
namespace Sys2Proof.CryptoUnits
open Sys2Proof.Machine Sys2Proof.Safety Sys2Proof.Reg Sys2Proof.CipherJobs

variable {s : State} {who : Nat} {v : Word}

/-! ### PKA -/

theorem leaves_pka_command (h : Reaches s who PKA.CMD true) :
    ∀ c ∈ [(Instr.pkaEcdsaSign who, 1), (.pkaEcdsaVerify who, 2), (.pkaEcdh who, 3), (.pkaKeygen who, 4), (.pkaPointCheck who, 5), (.pkaX25519 who, 6)],
      (∀ k, s.keys.pka = some k → exec c.1 s = .next s) ∧
      (s.keys.pka = none → keyHoldsPka s = true → exec c.1 s = .next (pkaEnd s 5)) ∧
      (s.keys.pka = none → keyHoldsPka s = false → Leaves c.1 s (fun t => t.keys = { s.keys with pka := some c.2 } ∧ t.bit PKA.STATUS 0 = true ∧ OnlyRegs s t [PKA.STATUS])) := by
  intro c hc
  simp only [List.mem_cons, List.not_mem_nil, or_false] at hc
  rcases hc with rfl | rfl | rfl | rfl | rfl | rfl
  · exact pka_leaves 1 rfl h (by decide)
  · exact pka_leaves 2 rfl h (by decide)
  · exact pka_leaves 3 rfl h (by decide)
  · exact pka_leaves 4 rfl h (by decide)
  · exact pka_leaves 5 rfl h (by decide)
  · exact pka_leaves 6 rfl h (by decide)

theorem exec_pkaDone {k : Nat} (hpka : s.keys.pka = some k) : exec .pkaDone s =
    .next (pkaEnd (if k = 4 ∧ (pkaOp s k).1 = 0 then (pkaOp s k).2 else pkaPut (pkaOp s k).2 0x400 (List.replicate 32 0)) (pkaOp s k).1) := by
  show execPkaDone s = _
  simp only [execPkaDone, hpka]

/-! ### HSH -/

/-- 17 R428: INIT takes the algorithm as written and starts an empty message. -/
theorem leaves_hshInit (h : Reaches s who HSH.CTRL true) : Leaves (.hshInit who v) s (fun t => t.rd HSH.STATUS = 0 ∧ t.keys.hash.part = [] ∧
    t.keys.hash.count = 0 ∧ t.keys.hash.go = none ∧ t.keys.hash.chain = (if t.bit HSH.CTRL 0 then h512.map BitVec.toNat else h256.map BitVec.toNat) ∧
    OnlyRegs s t [HSH.CTRL, HSH.STATUS]) := by
  have hinit : bitsOf (vSet v 1) 1 1 = 1 := by rw [bitsOf_one, testB_vSet v 1 1 (by decide)]; simp
  have hwrite : hshCtrlWrite s (vSet v 1) = _ := if_pos hinit
  refine ⟨_, congrArg Host.Outcome.next ((access_write h rfl).trans hwrite), State.rd_wr_self (s.plainWrite HSH.CTRL (vSet v 1) true) HSH.STATUS 0, rfl, rfl, rfl, ?_, ?_⟩
  · have halg : ((s.plainWrite HSH.CTRL (vSet v 1) true).wr HSH.STATUS 0).bit HSH.CTRL 0 = (s.plainWrite HSH.CTRL (vSet v 1) true).bit HSH.CTRL 0 := by
      simp only [State.bit, State.rd_wr_ne _ (show HSH.CTRL ≠ HSH.STATUS by decide)]
    exact (congrArg (fun b : Bool => if b then h512.map BitVec.toNat else h256.map BitVec.toNat) halg).symm
  · have hframe : OnlyRegs s ((s.plainWrite HSH.CTRL (vSet v 1) true).wr HSH.STATUS 0) [HSH.CTRL, HSH.STATUS] :=
      DramControl.onlyRegs_then (onlyRegs_trans (TwoWireBuses.plainWrite_frame s _ _ _).2 (DramControl.onlyRegs_refl _ _)
        fun _ ha => List.mem_singleton.1 ha ▸ List.mem_cons_self) (List.mem_cons_of_mem _ List.mem_cons_self) _
    exact hframe

section Feed
variable (h : Reaches s who HSH.GO true)
include h

theorem exec_hshGo : exec (.hshFeedMemory who) s = .next (hshGo s 1) ∧ exec (.hshFeedLast who) s = .next (hshGo s 3) ∧
    exec (.hshPushedLast who) s = .next (hshGo s 4) :=
  ⟨congrArg Host.Outcome.next (access_write h rfl), congrArg Host.Outcome.next (access_write h rfl), congrArg Host.Outcome.next (access_write h rfl)⟩

theorem exec_hshGo_busy (hbusy : s.keys.hash.go.isSome = true) :
    exec (.hshFeedMemory who) s = .next s ∧ exec (.hshFeedLast who) s = .next s ∧ exec (.hshPushedLast who) s = .next s := by
  have hdrop (w : Word) : hshGo s w = s := if_pos (.inl hbusy)
  have hexec := exec_hshGo h
  simpa only [hdrop] using hexec

end Feed

/-- 17 R428: a feed that is taken. -/
theorem leaves_hshGo {i : Instr} {w : Word} (hexec : exec i s = .next (hshGo s w)) (hidle : s.keys.hash.go = none)
    (hop : bitsOf w 2 0 ≠ 0 ∧ bitsOf w 2 0 ≠ 2) (hlen : bitsOf w 0 0 ≠ 1 ∨ bitsOf w 1 1 ≠ 0 ∨ (s.rd HSH.LEN).toNat % hshBlock s = 0) :
    Leaves i s (fun t => t.keys.hash = { s.keys.hash with go := some w } ∧ t.rd HSH.STATUS = 1 ∧ OnlyRegs s t [HSH.STATUS]) := by
  have hfree : ¬(s.keys.hash.go.isSome = true ∨ bitsOf w 2 0 = 0 ∨ bitsOf w 2 0 = 2) := by
    rw [hidle]
    rintro (hsome | hzero | htwo)
    · exact Bool.noConfusion hsome
    · exact hop.1 hzero
    · exact hop.2 htwo
  have hgood : ¬(bitsOf w 0 0 = 1 ∧ bitsOf w 1 1 = 0 ∧ (s.rd HSH.LEN).toNat % hshBlock s ≠ 0) := by
    rintro ⟨hmem, hlast, hbad⟩
    rcases hlen with hl | hl | hl
    · exact hl hmem
    · exact hl hlast
    · exact hbad hl
  have hgo : hshGo s w = _ := (if_neg hfree).trans (if_neg hgood)
  have hframe : OnlyRegs s (s.wr HSH.STATUS 1) [HSH.STATUS] := Machine.onlyRegs_wr s List.mem_cons_self _
  exact ⟨_, hexec.trans (congrArg Host.Outcome.next hgo), rfl, State.rd_wr_self s HSH.STATUS 1, hframe⟩

/-- 17 R432: a feed without LAST of a length that is no multiple of the block. -/
theorem leaves_hshFeedMemory_badlen (h : Reaches s who HSH.GO true) (hidle : s.keys.hash.go = none) (hbad : (s.rd HSH.LEN).toNat % hshBlock s ≠ 0) :
    Leaves (.hshFeedMemory who) s (fun t => t.bit HSH.STATUS 2 = true ∧ t.keys = s.keys ∧ OnlyRegs s t [HSH.STATUS]) := by
  have hfree : ¬(s.keys.hash.go.isSome = true ∨ bitsOf (1 : Word) 2 0 = 0 ∨ bitsOf (1 : Word) 2 0 = 2) := by rw [hidle]; decide
  have hgo : hshGo s 1 = _ := (if_neg hfree).trans (if_pos ⟨by decide, by decide, hbad⟩)
  exact ⟨_, (exec_hshGo h).1.trans (congrArg Host.Outcome.next hgo), State.bit_setBit_self s _ _ (by decide), rfl, onlyRegs_setFld s _ _ _ _⟩

theorem exec_hshDataPush (h : Reaches s who HSH.DATA true) : exec (.hshDataPush who v) s = .next (hshPush s v) :=
  congrArg Host.Outcome.next (access_write h rfl)

theorem exec_hshDataPush_busy (h : Reaches s who HSH.DATA true) (hbusy : s.keys.hash.go.isSome = true) : exec (.hshDataPush who v) s = .next s :=
  (exec_hshDataPush h).trans (congrArg _ (if_pos hbusy))

theorem exec_hshDataPush_idle (h : Reaches s who HSH.DATA true) (hidle : s.keys.hash.go = none) :
    exec (.hshDataPush who v) s = .next (hshFeed s (beBytes 4 v.toNat)) :=
  (exec_hshDataPush h).trans (congrArg _ (if_neg (by rw [hidle]; exact Bool.false_ne_true)))

/-- 17 R428: the message of pushed words is padded, and its digest shown. -/
theorem exec_hshDone_pushed (hgo : s.keys.hash.go = some 4) :
    let u := s.upKeys (fun k => { k with hash := { k.hash with go := none } })
    let t := hshFeed (hshFeed u []) (shaPad (hshBlock (hshFeed u [])) (hshFeed u []).keys.hash.count)
    exec .hshDone s = .next (emitProducer ((t.wrWords (HSH.DIGEST 0) (hshDigest t)).wr HSH.STATUS 2) .miscb 14) := by
  show execHshDone s = _
  simp only [execHshDone, hgo]
  rfl

section FromMemory
variable (hgo : s.keys.hash.go = some 1)
include hgo

theorem exec_hshDone_memory {bs : List Byte} {s1 : State} : let u := s.upKeys (fun k => { k with hash := { k.hash with go := none } })
    physRead u 0 (u.rd HSH.SRC).toNat (u.rd HSH.LEN).toNat = (some bs, s1) →
    exec .hshDone s = .next (emitProducer ((hshFeed s1 bs).wr HSH.STATUS 2) .miscb 14) := by
  intro u hread
  show execHshDone s = _
  simp only [execHshDone, hgo]
  rw [if_pos (by decide), hread]
  rfl

theorem exec_hshDone_memory_error {s1 : State} : let u := s.upKeys (fun k => { k with hash := { k.hash with go := none } })
    physRead u 0 (u.rd HSH.SRC).toNat (u.rd HSH.LEN).toNat = (none, s1) → exec .hshDone s = .next (s1.wr HSH.STATUS 8) := by
  intro u hread
  show execHshDone s = _
  simp only [execHshDone, hgo]
  rw [if_pos (by decide), hread]

end FromMemory

/-! ### RNG -/

section Rng

theorem exec_rngRestart (h : Reaches s who RNG.CTRL true) :
    exec (.rngRestart who) s = .next (rngStop ((s.plainWrite RNG.CTRL 3 true).setBit RNG.STATUS 2 true)) := by
  refine congrArg Host.Outcome.next ((access_write h rfl).trans ?_)
  show rngCtrlWrite s 3 = _
  simp only [rngCtrlWrite, show bitsOf (3 : Word) 0 0 = 1 by decide, show bitsOf (3 : Word) 1 1 = 1 by decide, show bitsOf (3 : Word) 2 2 = 0 by decide]
  rfl

theorem exec_rngReseed (h : Reaches s who RNG.CTRL true) (hon : s.bit RNG.CTRL 0 = true) :
    exec (.rngReseed who) s = .next (s.plainWrite RNG.CTRL 5 true).draw.2 := by
  refine congrArg Host.Outcome.next ((access_write h rfl).trans ?_)
  show rngCtrlWrite s 5 = _
  simp only [rngCtrlWrite, hon, show bitsOf (5 : Word) 0 0 = 1 by decide, show bitsOf (5 : Word) 1 1 = 0 by decide, show bitsOf (5 : Word) 2 2 = 1 by decide]
  rfl

theorem leaves_rngDataRead_empty (h : Reaches s who RNG.DATA false) (hempty : s.keys.fifo = []) :
    Leaves (.rngDataRead who) s (fun t => t.rdata = 0 ∧ t.bit RNG.EVT 1 = true ∧ OnlyRegs s t [RNG.EVT]) := by
  have hread : regRead s who RNG.DATA = (0, s.setBit RNG.EVT 1 true) := by
    show rngRead s = _
    simp only [rngRead, hempty]
  refine ⟨_, congrArg Host.Outcome.next (access_read h), ?_⟩
  rw [hread]
  exact ⟨rfl, State.bit_setBit_self s RNG.EVT true (by decide), onlyRegs_setFld s RNG.EVT 1 1 1⟩

/-- 17 R429: the next word in order; the FIFO is refilled behind it (log 40). -/
theorem leaves_rngDataRead_word (h : Reaches s who RNG.DATA false) {w : Word} {l : List Word} (hfifo : s.keys.fifo = w :: l) :
    Leaves (.rngDataRead who) s (fun t => t.rdata = w ∧ t.keys.fifo = l ++ [s.draw.1] ∧ OnlyRegs s t [RNG.STATUS]) := by
  have hread : regRead s who RNG.DATA = (w, rngShow (s.draw.2.upKeys (fun k => { k with fifo := l ++ [s.draw.1] }))) := by
    show rngRead s = _
    simp only [rngRead, hfifo]
  refine ⟨_, congrArg Host.Outcome.next (access_read h), ?_⟩
  rw [hread]
  exact ⟨rfl, rfl, onlyRegs_setFld s RNG.STATUS 7 4 _⟩

theorem exec_trngStartupDone (htest : s.bit RNG.STATUS 2 = true) (hon : s.bit RNG.CTRL 0 = true) : exec .trngStartupDone s =
    .next (rngShow (((s.drawBytes 16).2.setFld RNG.STATUS 2 0 1).upKeys (fun k => { k with fifo := leWords (s.drawBytes 16).1 }))) :=
  if_pos ⟨htest, hon⟩

/-- 17 R429: a failed test flushes the FIFO and stops the output. -/
theorem leaves_trngHealthFail (hon : s.bit RNG.CTRL 0 = true) : Leaves .trngHealthFail s (fun t => t.keys.fifo = [] ∧ t.bit RNG.STATUS 0 = false ∧
    t.bit RNG.STATUS 1 = true ∧ t.bit RNG.STATUS 2 = false ∧ t.bit RNG.EVT 0 = true ∧ t.mem = s.mem) := by
  have hexec : exec .trngHealthFail s = _ := if_neg (show ¬(!s.bit RNG.CTRL 0) = true by rw [hon]; decide)
  refine ⟨_, hexec, ?_⟩
  set failed := (s.setBit RNG.STATUS 1 true).setBit RNG.STATUS 2 false with hfailed
  have hfail : failed.bit RNG.STATUS 1 = true :=
    (State.bit_setBit_apart _ _ _ (by decide) (by decide)).trans (State.bit_setBit_self s _ _ (by decide))
  have hstopped {j : Nat} (hj : j < 4) : (rngStop failed).bit RNG.STATUS j = (failed.setBit RNG.STATUS 0 false).bit RNG.STATUS j :=
    State.bit_setFld_apart _ _ _ (by decide) (by decide) (.inl hj)
  have hshown (j : Nat) : (emitProducer ((rngStop failed).setBit RNG.EVT 0 true) .miscb 15).bit RNG.STATUS j = (rngStop failed).bit RNG.STATUS j :=
    (emitProducer_bit _ _ _ (by decide) j).trans (State.bit_setBit_ne _ (show RNG.STATUS ≠ RNG.EVT by decide) _ _ _)
  refine ⟨?_, ?_, ?_, ?_, ?_, ?_⟩
  · rw [emitProducer_keys]; rfl
  · exact (hshown 0).trans ((hstopped (by decide)).trans (State.bit_setBit_self _ _ _ (by decide)))
  · exact (hshown 1).trans ((hstopped (by decide)).trans ((State.bit_setBit_apart _ _ _ (by decide) (by decide)).trans hfail))
  · exact (hshown 2).trans ((hstopped (by decide)).trans ((State.bit_setBit_apart _ _ _ (by decide) (by decide)).trans (State.bit_setBit_self _ _ _ (by decide))))
  · exact (emitProducer_bit _ _ _ (by decide) 0).trans (State.bit_setBit_self _ _ _ (by decide))
  · rw [emitProducer_mem]; rfl

end Rng

/-- Settles O54: the clauses on the jobs, the alarms and the three units, each by the lemma on its command. -/
theorem cryptoUnitsRunTheirCommands : Obligations.CryptoUnitsRunTheirCommands := by
  intro who v s
  refine ⟨fun q w s1 s2 enq trust b hnext hpeek htake hdesc => exec_job_start hnext hpeek htake hdesc,
    fun j l hjobs => ⟨fun st hstatus => exec_cipherJobDone_decided hjobs hstatus, exec_cipherJobDone_run hjobs⟩,
    leaves_alarm, leaves_alarmConditionEnd, leaves_pka_command, fun k hpka => exec_pkaDone hpka, leaves_hshInit,
    fun h => ⟨fun k hgo => exec_hshGo_busy h (by rw [hgo]; rfl), fun hidle => ⟨leaves_hshFeedMemory_badlen h hidle, fun hlen => ?_, ?_, ?_⟩⟩,
    fun h => ⟨exec_hshDataPush_busy h, exec_hshDataPush_idle h⟩,
    ⟨exec_hshDone_pushed, fun bs s1 hgo => exec_hshDone_memory hgo, fun s1 hgo => exec_hshDone_memory_error hgo⟩,
    fun h => ⟨exec_rngRestart h, exec_rngReseed h⟩,
    fun h => ⟨leaves_rngDataRead_empty h, fun w l => leaves_rngDataRead_word h⟩,
    exec_trngStartupDone, leaves_trngHealthFail⟩
  · exact leaves_hshGo (exec_hshGo h).1 hidle (by decide) (.inr (.inr hlen))
  · exact leaves_hshGo (exec_hshGo h).2.1 hidle (by decide) (.inr (.inl (by decide)))
  · exact leaves_hshGo (exec_hshGo h).2.2 hidle (by decide) (.inl (by decide))

end Sys2Proof.CryptoUnits
end

section
/-! PROOF. The power states (18 R435 to R443). -/
namespace Sys2Proof.PowerStates
open Sys2Proof.Machine Sys2Proof.Safety Sys2Proof.Reg

variable {s : State} {who : Nat} {v : Word}

/-! ### Requests -/

/-- 18 R436: the state after a request was written that leads to phase `ph` toward `target`. -/
def requested (s : State) (w : Word) (ph target : Nat) (hold : Bool) : State :=
  showWaiting (setHold ((setPwr (s.wr PWR.REQ w) (pwrState s) ph).upPwr (fun p => { p with target := target })) hold)

theorem pwrState_lt (s : State) : pwrState s < 8 := bitsOf_lt _ _ _

theorem requested_facts (s : State) (w : Word) {ph : Nat} (hph : ph < 4) (target : Nat) (hold : Bool) : let t := requested s w ph target hold
    t.rd PWR.REQ = w ∧ pwrPhase t = ph ∧ pwrState t = pwrState s ∧ t.pwr = { s.pwr with target := target } ∧ t.bit FLC.STATUS 4 = hold ∧
      OnlyRegs s t [PWR.REQ, PWR.STATUS, FLC.STATUS] := by
  intro t
  obtain ⟨hstate, hphase, hrd, hmem, hpwr⟩ := setPwr_facts (s.wr PWR.REQ w) (pwrState s) ph
  set prep := setPwr (s.wr PWR.REQ w) (pwrState s) ph
  obtain ⟨hsrd, hsphase, hsstate, hspwr, hsmem, -⟩ := showWaiting_facts (setHold (prep.upPwr (fun p => { p with target := target })) hold)
  have hheld {a : Nat} (ha : a ≠ FLC.STATUS) : (setHold (prep.upPwr (fun p => { p with target := target })) hold).rd a = prep.rd a :=
    State.rd_setBit_ne _ ha _ _
  have hstatus := hheld (show PWR.STATUS ≠ FLC.STATUS by decide)
  refine ⟨?_, ?_, ?_, ?_, ?_, fun a ha => ?_, fun a => ?_⟩
  · exact (hsrd _ (by decide)).trans ((hheld (by decide)).trans ((hrd _ (by decide)).trans (State.rd_wr_self s _ _)))
  · exact hsphase.trans ((fld_of_rd hstatus 5 4).trans (hphase.trans (Nat.mod_eq_of_lt hph)))
  · exact hsstate.trans ((fld_of_rd hstatus 2 0).trans (hstate.trans (Nat.mod_eq_of_lt (pwrState_lt s))))
  · exact hspwr.trans (congrArg (fun p : Power => { p with target := target }) hpwr)
  · exact (congrArg (fun w : Word => testB w.toNat 4) (hsrd FLC.STATUS (by decide))).trans (State.bit_setBit_self _ _ _ (by decide))
  · obtain ⟨hreq, hst, hflc⟩ : a ≠ PWR.REQ ∧ a ≠ PWR.STATUS ∧ a ≠ FLC.STATUS := by simpa using ha
    exact (hsrd a hst).trans ((hheld hflc).trans ((hrd a hst).trans (State.rd_wr_ne s hreq _)))
  · exact byte_of_mem (hsmem.trans hmem) a

section Request
variable (h : Reaches s who PWR.REQ true)
include h

theorem leaves_powerRequest_prep {c : Nat} (hc : v.toNat % 8 = c) (hlow : 2 ≤ c) (hhigh : c ≤ 4) (hphase : pwrPhase s = 0 ∨ pwrPhase s = 1) :
    Leaves (.powerRequest who v) s (fun t => t.rd PWR.REQ = BitVec.ofNat 32 c ∧ pwrPhase t = 1 ∧ pwrState t = pwrState s ∧
      t.pwr = { s.pwr with target := c } ∧ t.bit FLC.STATUS 4 = decide (3 ≤ c) ∧ OnlyRegs s t [PWR.REQ, PWR.STATUS, FLC.STATUS]) := by
  obtain ⟨-, hprep, -⟩ := pwrReq_facts h hc hhigh (by omega)
  exact ⟨requested s (BitVec.ofNat 32 c) 1 c (decide (3 ≤ c)), congrArg Host.Outcome.next (hprep hphase (by omega)), requested_facts s _ (by decide) _ _⟩

theorem leaves_powerRequest_held {c : Nat} (hc : v.toNat % 8 = c) (hlow : 2 ≤ c) (hhigh : c ≤ 4) (hphase : pwrPhase s = 2 ∨ pwrPhase s = 3) :
    Leaves (.powerRequest who v) s (fun t => t.bit PWR.STATUS 6 = true ∧ t.pwr = { s.pwr with held := some c } ∧ OnlyRegs s t [PWR.REQ, PWR.STATUS]) := by
  obtain ⟨hheld, -⟩ := pwrReq_facts h hc hhigh (by omega)
  have hframe : OnlyRegs s ((s.wr PWR.REQ (BitVec.ofNat 32 c)).setBit PWR.STATUS 6 true) [PWR.REQ, PWR.STATUS] :=
    DramControl.onlyRegs_then (Machine.onlyRegs_wr s List.mem_cons_self _) (List.mem_cons_of_mem _ List.mem_cons_self) _
  exact ⟨_, congrArg Host.Outcome.next (hheld hphase), State.bit_setBit_self (s.wr PWR.REQ (BitVec.ofNat 32 c)) PWR.STATUS true (by decide), rfl, hframe⟩

theorem exec_powerRequest_reserved (hc : v.toNat % 8 = 1 ∨ 4 < v.toNat % 8) : exec (.powerRequest who v) s = .next s :=
  congrArg Host.Outcome.next ((access_write (t := pwrReqWrite s v) h rfl).trans (if_pos hc))

/-- 18 R436: RUN written in PREP cancels it. -/
theorem leaves_powerRequestCancel (hphase : pwrPhase s = 1) : Leaves (.powerRequestCancel who v) s (fun t => pwrPhase t = 0 ∧
    pwrState t = pwrState s ∧ t.pwr = { s.pwr with target := 0 } ∧ t.bit FLC.STATUS 4 = false ∧ OnlyRegs s t [PWR.REQ, PWR.STATUS, FLC.STATUS]) := by
  have hrun : (withBits v 2 0 0).toNat % 8 = 0 := bitsOf_withBits_self v 0 (show 2 < 32 by decide) (Nat.zero_le 2)
  obtain ⟨-, -, hcancel⟩ := pwrReq_facts h hrun (by decide) (by decide)
  obtain ⟨-, hfacts⟩ := requested_facts s (BitVec.ofNat 32 0) (ph := 0) (by decide) 0 false
  exact ⟨_, congrArg Host.Outcome.next (hcancel hphase rfl), hfacts⟩

end Request

/-! ### Commit, arrival and wakes -/

section Prep
variable {rest : Nat} (hphase : pwrPhase s = 1)
include hphase

theorem exec_powerCommit_ready (hready : prepWaiting s = 0) : exec (.powerCommit rest) s = .next (powerCommit s (keepDram s rest)) :=
  (if_neg (not_not_intro hphase)).trans (if_neg (not_not_intro hready))

theorem leaves_powerCommit_waiting (hwaits : prepWaiting s ≠ 0) : Leaves (.powerCommit rest) s (fun t =>
    t.fld PWR.STATUS 12 8 = prepWaiting s % 32 ∧ pwrPhase t = 1 ∧ t.pwr = s.pwr ∧ OnlyRegs s t [PWR.STATUS]) := by
  obtain ⟨-, hsphase, -, -, -, hshown⟩ := showWaiting_facts s
  have hexec : exec (.powerCommit rest) s = .next (showWaiting s) := (if_neg (not_not_intro hphase)).trans (if_pos hwaits)
  rw [if_pos hphase] at hshown
  exact ⟨_, hexec, hshown, hsphase.trans hphase, rfl, onlyRegs_setFld s _ _ _ _⟩

end Prep

theorem exec_powerStateReached (hphase : pwrPhase s = 2) (htarget : s.pwr.target ≠ 4) (hlatch : s.pwr.latch = []) :
    exec .powerStateReached s = .next (heldRequest ((pwrEvent (receiverRelease (clocksOff (setPwr s s.pwr.target 0))) 0).upPwr
      (fun p => { p with target := 0, latch := [], ran := false, fromRest := false }))) := by
  refine ((if_neg (not_not_intro hphase)).trans (if_neg htarget)).trans ?_
  rw [hlatch]
  rfl

theorem exec_wakeEvent (b : Fin 13) : let u := s.setBit PWR.WAKESTAT b.val true
    (wakeEnabled s b.val = false → exec (.wakeEvent b) s = .next s) ∧
    (wakeEnabled s b.val = true → pwrPhase u = 1 → exec (.wakeEvent b) s = .next (showWaiting (setHold ((setPwr (pwrEvent u 2) (pwrState u) 0).upPwr (fun p => { p with target := 0 })) false))) ∧
    (wakeEnabled s b.val = true → pwrPhase u = 2 → exec (.wakeEvent b) s = .next (u.upPwr (fun p => { p with latch := addOnce p.latch b.val }))) ∧
    (wakeEnabled s b.val = true → pwrPhase u = 0 → pwrState u = 3 → exec (.wakeEvent b) s = .next (startExit u b.val (wakesToRun u b.val) false)) ∧
    (wakeEnabled s b.val = true → pwrPhase u = 0 → pwrState u ≠ 3 → pwrState u ≠ 2 → exec (.wakeEvent b) s = .next u) := by
  obtain ⟨hoff, hprep, hdown, hrest, hrun⟩ := wake_phase s b.val
  exact ⟨fun he => congrArg _ (hoff he), fun he hp => congrArg _ (hprep he hp), fun he hp => congrArg _ (hdown he hp),
    fun he hp hs => congrArg _ (hrest he hp hs), fun he hp hn hm => congrArg _ (hrun he hp hn hm)⟩

section Exit
variable (hphase : pwrPhase s = 3)
include hphase

theorem exec_powerExitComplete_run (htoRun : s.pwr.toRun = true) : let r := pwrState s == 3
    let u := if r then ((setHold s false).setBit SYS.PLAYHOLD 4 true).upCore 4 (fun _ => { run := .held }) else setHold s false
    let d := (clocksOn (domsRun u)).setFld CLK.VCORE 6 0 65
    let w := if receiverWanted d = true ∧ ¬ d.bit RXC.STATUS 0 = true then receiverStart d else d
    exec .powerExitComplete s = .next (heldRequest ((bankStat (pwrEvent (policyRun (vcoreUpdate (prompterResume (setPwr w 0 0)))) 1)).upPwr
      (fun p => { p with ran := true, fromRest := false }))) := by
  intro r u d w
  have hto : u.pwr.toRun = true := by
    have hkept : u.pwr = s.pwr := by simp only [u]; split <;> rfl
    rw [hkept, htoRun]
  exact (if_neg (not_not_intro hphase)).trans (if_pos hto)

theorem exec_powerExitComplete_sense (htoRun : s.pwr.toRun = false) : let r := pwrState s == 3
    let u := if r then ((setHold s false).setBit SYS.PLAYHOLD 4 true).upCore 4 (fun _ => { run := .held }) else setHold s false
    let d := (List.range 16).foldl (fun (s : State) k => if s.dom (Dom.sram k) = .ret then s.setDom (Dom.sram k) .on else s) u
    let w := setPwr ((((d.setDom Dom.link .od).setDom Dom.nvm .od).setDom Dom.periph .od).setDom Dom.radio .od) 2 0
    exec .powerExitComplete s = .next (heldRequest ((bankStat (pwrEvent (if receiverWanted w then receiverForce w else w) 1)).upPwr
      (fun p => { p with fromRest := r }))) := by
  intro r u d w
  have hto : ¬ u.pwr.toRun = true := by
    have hkept : u.pwr = s.pwr := by simp only [u]; split <;> rfl
    rw [hkept, htoRun]
    exact Bool.false_ne_true
  exact (if_neg (not_not_intro hphase)).trans (if_neg hto)

end Exit

/-! ### DOZE and the return to REST -/

/-- What changes conditions of domains only leaves every register and memory. -/
theorem foldl_kept {α : Type} {f : State → α → State} (hf : ∀ t a, (f t a).regs = t.regs ∧ (f t a).mem = t.mem) (l : List α) (s : State) :
    (l.foldl f s).regs = s.regs ∧ (l.foldl f s).mem = s.mem :=
  List.foldlRecOn (motive := fun t : State => t.regs = s.regs ∧ t.mem = s.mem) l f ⟨rfl, rfl⟩
    fun t ⟨hregs, hmem⟩ a _ => ⟨(hf t a).1.trans hregs, (hf t a).2.trans hmem⟩

/-- The power state as written, where the domains change their conditions and the sequencer takes up its setting. -/
theorem vcoreUpdate_after_setPwr {t : State} {st : Nat} (hst : st < 8) (hregs : t.regs = (setPwr s st 0).regs) (hmem : t.mem = (setPwr s st 0).mem) :
    pwrState (vcoreUpdate t) = st ∧ pwrPhase (vcoreUpdate t) = 0 ∧ OnlyRegs s (vcoreUpdate t) [PWR.STATUS, CLK.VCORE, CLK.STATUS] := by
  obtain ⟨hstate, hphase, -⟩ := setPwr_facts s st 0
  have hstep := StartUp.onlyRegs_vcoreUpdate t
  have hrd : (vcoreUpdate t).rd PWR.STATUS = (setPwr s st 0).rd PWR.STATUS :=
    (hstep.1 _ (by decide)).trans (congrArg (fun r => sparseGet regReset r PWR.STATUS) hregs)
  have hset : OnlyRegs s (setPwr s st 0) [PWR.STATUS, CLK.VCORE, CLK.STATUS] :=
    DramControl.onlyRegs_then (Machine.onlyRegs_wr s List.mem_cons_self _) List.mem_cons_self _
  have hbefore : OnlyRegs s t [PWR.STATUS, CLK.VCORE, CLK.STATUS] := onlyRegs_trans hset (StartUp.onlyRegs_of_kept hregs hmem) fun _ ha => ha
  exact ⟨(fld_of_rd hrd 2 0).trans (hstate.trans (Nat.mod_eq_of_lt hst)), (fld_of_rd hrd 5 4).trans hphase,
    onlyRegs_trans hbefore (onlyRegs_trans hstep (DramControl.onlyRegs_refl _ _) fun _ ha => List.mem_cons_of_mem _ ha) fun _ ha => ha⟩

/-- 18 R435: the clocks of the prompter and of the players that are on stop. -/
def coresDoze (s : State) : State :=
  (List.finRange 4).foldl (fun (s : State) p => if s.dom (Dom.app p.val) = .on then s.setDom (Dom.app p.val) .cg else s) ((setPwr s 1 0).setDom Dom.prompt .cg)

/-- The clocks run again, from 50 MHz up (01 R14). -/
def coresRun (s : State) : State :=
  (List.finRange 4).foldl (fun (s : State) p => if s.dom (Dom.app p.val) = .cg then playerClocked (s.setDom (Dom.app p.val) .on) p.val else s)
    ((setPwr s 0 0).setDom Dom.prompt .on)

theorem coresDoze_kept (s : State) : (coresDoze s).regs = (setPwr s 1 0).regs ∧ (coresDoze s).mem = (setPwr s 1 0).mem :=
  foldl_kept (fun t a => by split <;> exact ⟨rfl, rfl⟩) _ _

theorem coresRun_kept (s : State) : (coresRun s).regs = (setPwr s 0 0).regs ∧ (coresRun s).mem = (setPwr s 0 0).mem :=
  foldl_kept (fun t a => by split <;> exact ⟨rfl, rfl⟩) _ _

/-- NVM rests when the flash controller is idle. -/
def nvmDoze (s : State) : State := if flcState s = 0 ∧ s.nvm.mbuf = [] then nvmDown s .od else s

/-- PERIPH rests when none of its blocks has work. -/
def periphDoze (s : State) : State := if serialIdle s then s.setDom Dom.periph .od else s

theorem nvmDoze_kept (s : State) : (nvmDoze s).regs = s.regs ∧ (nvmDoze s).mem = s.mem := by
  unfold nvmDoze
  split <;> exact ⟨rfl, rfl⟩

theorem periphDoze_kept (s : State) : (periphDoze s).regs = s.regs ∧ (periphDoze s).mem = s.mem := by
  unfold periphDoze
  split <;> exact ⟨rfl, rfl⟩

theorem leaves_dozeEnter (hauto : s.bit PWR.CFG 0 = true) (hstate : pwrState s = 0) (hphase : pwrPhase s = 0)
    (hquiet : (List.finRange 6).all (coreQuiet s) = true) :
    Leaves .dozeEnter s (fun t => pwrState t = 1 ∧ pwrPhase t = 0 ∧ OnlyRegs s t [PWR.STATUS, CLK.VCORE, CLK.STATUS]) := by
  have hexec : exec .dozeEnter s = .next (vcoreUpdate (periphDoze (nvmDoze (coresDoze s)))) := if_pos ⟨hauto, hstate, hphase, hquiet⟩
  obtain ⟨hcores, hcoresMem⟩ := coresDoze_kept s
  obtain ⟨hnvm, hnvmMem⟩ := nvmDoze_kept (coresDoze s)
  obtain ⟨hperiph, hperiphMem⟩ := periphDoze_kept (nvmDoze (coresDoze s))
  exact ⟨_, hexec, vcoreUpdate_after_setPwr (by decide) (hperiph.trans (hnvm.trans hcores)) (hperiphMem.trans (hnvmMem.trans hcoresMem))⟩

theorem leaves_dozeExit (hstate : pwrState s = 1) (hbusy : (List.finRange 6).all (coreQuiet s) = false) :
    Leaves .dozeExit s (fun t => pwrState t = 0 ∧ pwrPhase t = 0 ∧ OnlyRegs s t [PWR.STATUS, CLK.VCORE, CLK.STATUS]) := by
  have hexec : exec .dozeExit s = .next (vcoreUpdate (((coresRun s).setDom Dom.nvm .on).setDom Dom.periph .on)) :=
    if_pos ⟨hstate, Bool.eq_false_iff.1 hbusy⟩
  obtain ⟨hregs, hmem⟩ := coresRun_kept s
  exact ⟨_, hexec, vcoreUpdate_after_setPwr (by decide) (by rw [State.setDom_regs, State.setDom_regs, hregs]) (by rw [State.setDom_mem, State.setDom_mem, hmem])⟩

theorem exec_autoRestReturn (hauto : s.bit PWR.CFG 1 = true) (hstate : pwrState s = 2) (hphase : pwrPhase s = 0) (hrest : s.pwr.fromRest = true)
    (hran : s.pwr.ran = false) (hsheets : ∀ n, n < 32 → s.fld (HUB.SHSTAT n) 1 0 = 0) (hown : s.sched.own = false) (hann : s.sched.annOpen = false)
    (htrk : s.trk.window = false) (hrelays : s.lnk.relays = []) (hacks : s.lnk.acks = []) : exec .autoRestReturn s =
      .next (powerCommit (s.upPwr (fun p => { p with target := 3 })) (s.pwr.refresh && s.dom Dom.dramsys != .off)) := by
  have hidle : (List.range 32).all (fun n => s.fld (HUB.SHSTAT n) 1 0 == 0) = true :=
    List.all_eq_true.2 fun n hn => beq_iff_eq.2 (hsheets n (List.mem_range.1 hn))
  have hclosed : (!s.sched.own && !s.sched.annOpen && !s.trk.window) = true := by rw [hown, hann, htrk]; rfl
  exact if_pos ⟨hauto, hstate, hphase, hrest, Bool.eq_false_iff.1 hran, hidle, hclosed, List.isEmpty_iff.2 hrelays, List.isEmpty_iff.2 hacks⟩

end Sys2Proof.PowerStates
end

section
/-! PROOF. The supplies and the RTC (18 R447 to R457). -/
namespace Sys2Proof.BackupDomain
open Sys2Proof.Machine Sys2Proof.Safety Sys2Proof.Reg

variable {s : State} {who : Nat} {v : Word}

/-! ### Supplies -/

/-- 18 R447: a VBAT above every threshold, with nothing to power up, clears the three flags. -/
theorem leaves_vbatCheck {mv : BitVec 12} {bk : Nat} (hhigh : 2200 < mv.toNat) (hbk : 1500 ≤ bk) (hwarn : s.fld PWR.VBATWARN 11 0 ≤ mv.toNat)
    (hdram : s.dom Dom.dramsys ≠ .off ∨ pwrState s ≠ 0 ∨ pwrPhase s ≠ 0) : Leaves (.vbatCheck mv bk) s (fun t => t.fld PWR.VBAT 11 0 = mv.toNat ∧
      t.bit PWR.VBAT 16 = false ∧ t.bit PWR.VBAT 17 = false ∧ t.bit PWR.VBAT 18 = false ∧ OnlyRegs s t [PWR.VBAT]) := by
  have hlow : (if s.bit PWR.VBAT 17 = true then decide (mv.toNat ≤ 2200) else false) = false := by
    rw [decide_eq_false (show ¬ mv.toNat ≤ 2200 by omega), ite_self]
  set m := s.setFld PWR.VBAT 11 0 mv.toNat with hm
  set t := ((m.setBit PWR.VBAT 16 false).setBit PWR.VBAT 17 false).setBit PWR.VBAT 18 false with ht
  have hdram' : (!false && t.dom Dom.dramsys == .off && pwrState t == 0 && pwrPhase t == 0) = false := by
    have hother (hi lo : Nat) : t.fld PWR.STATUS hi lo = s.fld PWR.STATUS hi lo := by
      simp only [ht, hm, State.fld_setBit_ne _ (show PWR.STATUS ≠ PWR.VBAT by decide), State.fld_setFld_ne _ (show PWR.STATUS ≠ PWR.VBAT by decide)]
    have hdoms : t.dom Dom.dramsys = s.dom Dom.dramsys := rfl
    have hstate : pwrState t = pwrState s := hother 2 0
    have hphase : pwrPhase t = pwrPhase s := hother 5 4
    rw [hdoms, hstate, hphase]
    rcases hdram with h | h | h <;> simp [h]
  have hexec : exec (.vbatCheck mv bk) s = .next t := by
    show execVbatCheck mv bk s = _
    simp only [execVbatCheck, hlow, decide_eq_false (show ¬ mv.toNat < s.fld PWR.VBATWARN 11 0 by omega), decide_eq_false (show ¬ mv.toNat < 2000 by omega),
      decide_eq_false (show ¬ mv.toNat < 2100 by omega), decide_eq_false (show ¬ bk < 1500 by omega), State.when, Bool.false_eq_true, if_false, Bool.false_and, ← hm, ← ht]
    rw [hdram']
    rfl
  refine ⟨t, hexec, ?_, ?_, ?_, State.bit_setBit_self _ _ _ (by decide), ?_⟩
  · have hvalue : m.fld PWR.VBAT 11 0 = mv.toNat := (State.fld_setFld_self s _ _ (by decide) (by decide)).trans (Nat.mod_eq_of_lt mv.isLt)
    rw [ht, State.fld_setBit_apart _ _ _ (by decide) (by decide), State.fld_setBit_apart _ _ _ (by decide) (by decide),
      State.fld_setBit_apart _ _ _ (by decide) (by decide), hvalue]
  · exact (State.bit_setBit_apart _ _ _ (by decide) (by decide)).trans
      ((State.bit_setBit_apart _ _ _ (by decide) (by decide)).trans (State.bit_setBit_self m _ _ (by decide)))
  · exact (State.bit_setBit_apart _ _ _ (by decide) (by decide)).trans (State.bit_setBit_self _ _ _ (by decide))
  · refine ⟨fun a ha => ?_, fun _ => rfl⟩
    have hvbat : a ≠ PWR.VBAT := by simpa using ha
    rw [ht, State.rd_setBit_ne _ hvbat, State.rd_setBit_ne _ hvbat, State.rd_setBit_ne _ hvbat, hm, State.rd_setFld_ne _ hvbat]

theorem leaves_backupSupplySwitch (mv bk : Nat) :
    (bk + 100 < mv → 1750 ≤ mv → Leaves (.backupSupplySwitch mv bk) s (fun t => t.bit RTC.STATUS 5 = false ∧ OnlyRegs s t [RTC.STATUS])) ∧
    (mv ≤ bk + 50 ∨ mv < 1700 → Leaves (.backupSupplySwitch mv bk) s (fun t => t.bit RTC.STATUS 5 = true ∧ OnlyRegs s t [RTC.STATUS])) ∧
    (bk + 50 < mv → mv ≤ bk + 100 → 1700 ≤ mv → exec (.backupSupplySwitch mv bk) s = .next s) := by
  have hset (b : Bool) : (s.setBit RTC.STATUS 5 b).bit RTC.STATUS 5 = b ∧ OnlyRegs s (s.setBit RTC.STATUS 5 b) [RTC.STATUS] :=
    ⟨State.bit_setBit_self s _ _ (by decide), onlyRegs_setFld s _ _ _ _⟩
  refine ⟨fun h1 h2 => ⟨_, if_pos ⟨h1, h2⟩, hset false⟩, fun h => ⟨_, (if_neg (by omega)).trans (if_pos h), hset true⟩, fun h1 h2 h3 => ?_⟩
  exact (if_neg (by omega)).trans (if_neg (by omega))

/-! ### Staged values and the counts -/

section Apply
variable (h : Reaches s who RTC.CMD true)
include h

theorem exec_rtcApply : exec (.rtcApply who v) s =
    .next (if s.bit RTC.STATUS 3 = true then s.setBit RTC.STATUS 4 true else (s.setBit RTC.STATUS 3 true).upRtc (fun r => { r with apply := .asked })) := by
  have hgo : ¬(!testB (vSet v 0).toNat 0) = true := by simp [testB_vSet]
  exact congrArg Host.Outcome.next ((access_write (t := rtcCmd s (vSet v 0)) h rfl).trans (if_neg hgo))

theorem leaves_rtcApply_idle (hidle : s.bit RTC.STATUS 3 = false) : Leaves (.rtcApply who v) s (fun t => t.bit RTC.STATUS 3 = true ∧
    t.rtc = { s.rtc with apply := .asked } ∧ OnlyRegs s t [RTC.STATUS]) :=
  ⟨_, (exec_rtcApply h).trans (congrArg _ (if_neg (Bool.eq_false_iff.1 hidle))), State.bit_setBit_self s RTC.STATUS true (by decide), rfl, onlyRegs_setFld s _ _ _ _⟩

theorem leaves_rtcApply_busy (hbusy : s.bit RTC.STATUS 3 = true) : Leaves (.rtcApply who v) s (fun t => t.bit RTC.STATUS 4 = true ∧
    t.rtc = s.rtc ∧ OnlyRegs s t [RTC.STATUS]) :=
  ⟨_, (exec_rtcApply h).trans (congrArg _ (if_pos hbusy)), State.bit_setBit_self s RTC.STATUS true (by decide), rfl, onlyRegs_setFld s _ _ _ _⟩

end Apply

theorem leaves_rtcApplyTransfer (hasked : s.rtc.apply = .asked) : Leaves .rtcApplyTransfer s (fun t =>
    t.rtc = { s.rtc with apply := .moved, moving := s.rtc.staged, values := rtcValues s, staged := [] } ∧ t.regs = s.regs ∧ t.mem = s.mem) :=
  ⟨_, if_pos hasked, rfl, rfl, rfl⟩

/-- 18 R452: a time that is applied alone, while the oscillator runs. -/
theorem leaves_rtcApplyCommit_time (hmoved : s.rtc.apply = .moved) (hgroups : s.rtc.moving = [0]) (hruns : s.bit RTC.STATUS 1 = false) :
    Leaves .rtcApplyCommit s (fun t => t.rtc.secs = (s.rtc.values.getD 1 0).toNat + 2 ^ 32 * bitsOf (s.rtc.values.getD 2 0) 15 0 ∧
      t.rtc.sub = bitsOf (s.rtc.values.getD 0 0) 14 0 ∧ t.rtc.apply = .idle ∧ t.bit RTC.STATUS 0 = false ∧ t.bit RTC.STATUS 3 = false ∧
      OnlyRegs s t [RTC.STATUS]) := by
  set timed := s.upRtc (fun r => { r with sub := bitsOf (s.rtc.values.getD 0 0) 14 0, secs := (s.rtc.values.getD 1 0).toNat + 2 ^ 32 * bitsOf (s.rtc.values.getD 2 0) 15 0 }) with htimed
  have hexec : exec .rtcApplyCommit s = .next (((timed.setBit RTC.STATUS 0 false).setBit RTC.STATUS 3 false).upRtc (fun r => { r with apply := .idle, moving := [], values := [] })) := by
    have hosf : ¬ timed.bit RTC.STATUS 1 = true := Bool.eq_false_iff.1 hruns
    refine (if_neg (not_not_intro hmoved)).trans ?_
    simp only [hgroups, show ([0] : List Nat).contains 0 = true from rfl, show ([0] : List Nat).contains 1 = false from rfl,
      show ([0] : List Nat).contains 2 = false from rfl, show ([0] : List Nat).contains 3 = false from rfl, Bool.false_eq_true, false_and, if_false, if_true, ← htimed]
    rw [if_neg hosf]
  have hframe : OnlyRegs s ((timed.setBit RTC.STATUS 0 false).setBit RTC.STATUS 3 false) [RTC.STATUS] :=
    DramControl.onlyRegs_then (Machine.onlyRegs_wr s List.mem_cons_self _) List.mem_cons_self _
  exact ⟨_, hexec, rfl, rfl, rfl, (State.bit_setBit_apart _ _ _ (by decide) (by decide)).trans (State.bit_setBit_self timed _ _ (by decide)),
    State.bit_setBit_self (timed.setBit RTC.STATUS 0 false) RTC.STATUS _ (by decide), hframe⟩

/-- 18 R451: a read of SUBSEC takes the snapshot of the counts. -/
theorem rtcLatch_facts (s : State) : (rtcLatch s).rd RTC.SUBSEC = BitVec.ofNat 32 s.rtc.sub ∧ (rtcLatch s).rd RTC.SECLO = BitVec.ofNat 32 s.rtc.secs ∧
    (rtcLatch s).rd RTC.CALDATE = calDate s.rtc.secs ∧ (rtcLatch s).rd RTC.CALTIME = calTime s.rtc.secs ∧
    OnlyRegs s (rtcLatch s) [RTC.SUBSEC, RTC.SECLO, RTC.SECHI, RTC.CALDATE, RTC.CALTIME] := by
  unfold rtcLatch
  refine ⟨?_, ?_, ?_, State.rd_wr_self _ _ _, fun a ha => ?_, fun _ => rfl⟩
  · simp only [State.rd_wr_self, State.rd_wr_ne _ (show RTC.SUBSEC ≠ RTC.SECLO by decide), State.rd_wr_ne _ (show RTC.SUBSEC ≠ RTC.SECHI by decide),
      State.rd_wr_ne _ (show RTC.SUBSEC ≠ RTC.CALDATE by decide), State.rd_wr_ne _ (show RTC.SUBSEC ≠ RTC.CALTIME by decide)]
  · simp only [State.rd_wr_self, State.rd_wr_ne _ (show RTC.SECLO ≠ RTC.SECHI by decide), State.rd_wr_ne _ (show RTC.SECLO ≠ RTC.CALDATE by decide),
      State.rd_wr_ne _ (show RTC.SECLO ≠ RTC.CALTIME by decide)]
  · simp only [State.rd_wr_self, State.rd_wr_ne _ (show RTC.CALDATE ≠ RTC.CALTIME by decide)]
  · simp only [List.mem_cons, List.not_mem_nil, or_false, not_or] at ha
    obtain ⟨hsub, hlo, hhi, hdate, htime⟩ := ha
    simp only [State.rd_wr_ne _ hsub, State.rd_wr_ne _ hlo, State.rd_wr_ne _ hhi, State.rd_wr_ne _ hdate, State.rd_wr_ne _ htime]

theorem leaves_rtcSubsecRead (h : Reaches s who RTC.SUBSEC false) : Leaves (.rtcSubsecRead who) s (fun t => t.rdata = BitVec.ofNat 32 s.rtc.sub ∧
    t.rd RTC.SECLO = BitVec.ofNat 32 s.rtc.secs ∧ t.rd RTC.CALDATE = calDate s.rtc.secs ∧ t.rd RTC.CALTIME = calTime s.rtc.secs ∧
    OnlyRegs s t [RTC.SUBSEC, RTC.SECLO, RTC.SECHI, RTC.CALDATE, RTC.CALTIME]) := by
  have hread : regRead s who RTC.SUBSEC = ((rtcLatch s).rd RTC.SUBSEC, rtcLatch s) := rfl
  refine ⟨_, congrArg Host.Outcome.next (access_read h), ?_⟩
  rw [hread]
  exact rtcLatch_facts s

/-! ### Alarms and the trim -/

theorem emitProducer_pwr (s : State) (f : Fam) (i : Nat) : (emitProducer s f i).pwr = s.pwr := by
  obtain ⟨r, q, m, hproducer, -⟩ := cueOnly_producer s f i
  rw [hproducer]

section Alarm
variable (n : Fin 2) {a : Alarm} (ha : s.rtc.alarms[n] = a)
include ha

theorem exec_rtcAlarm_still (h : a.en = false ∨ a.fired = true ∨ rtcCount s < alarmCount a) : exec (.rtcAlarm n) s = .next s := by
  have hstill : (!a.en || a.fired || decide (rtcCount s < alarmCount a)) = true := by
    rcases h with hoff | hfired | hearly
    · rw [hoff]; rfl
    · rw [hfired, Bool.or_true, Bool.true_or]
    · rw [decide_eq_true hearly, Bool.or_true]
  rw [← ha] at hstill
  exact if_pos hstill

/-- 18 R453: an alarm without repetition fires at its instant and is disabled. -/
theorem exec_rtcAlarm_once (hen : a.en = true) (hfired : a.fired = false) (hnow : alarmCount a = rtcCount s) (hrep : a.rep = 0)
    (hmain : s.pwr.blackout = false) : exec (.rtcAlarm n) s =
      .next (wakeEvent ((((s.setBit RTC.EVT n.val true).when (s.bit RTC.IEN n.val) (fun s => emitProducer s .misca (14 + n.val))).upRtc
        (fun r => { r with alarms := r.alarms.set n { a with en := false, fired := true } })).setBit (RTC.ALMCFG n.val) 0 false) n.val) := by
  have hpower : ((s.setBit RTC.EVT n.val true).when (s.bit RTC.IEN n.val) (fun s => emitProducer s .misca (14 + n.val))).pwr = s.pwr := by
    unfold State.when
    split
    · exact emitProducer_pwr _ _ _
    · rfl
  show execRtcAlarm n s = _
  simp only [execRtcAlarm, ha, hen, hfired, hnow, hrep, Nat.lt_irrefl, decide_false, Bool.not_true, Bool.or_self, Bool.false_eq_true, if_false, if_true]
  refine if_neg fun hblack => ?_
  exact Bool.noConfusion (hmain.symm.trans ((congrArg Power.blackout hpower).symm.trans hblack.1))

end Alarm

section Trim
variable (temp : BitVec 16)

theorem exec_rtcTrimUpdate_still (h : s.bit RTC.TRIM 8 = false ∨ s.pwr.blackout = true) :
    exec (.rtcTrimUpdate temp) s = .next (s.setFld RTC.TEMP 15 0 temp.toNat) := by
  refine if_neg ?_
  have hauto : (s.setFld RTC.TEMP 15 0 temp.toNat).bit RTC.TRIM 8 = s.bit RTC.TRIM 8 := State.bit_setFld_ne s (by decide) _ _ _ _
  rintro ⟨hon, hmain⟩
  rcases h with h | h
  · exact Bool.noConfusion (h.symm.trans (hauto.symm.trans hon))
  · exact hmain h

theorem exec_rtcTrimUpdate (hmain : s.pwr.blackout = false) (hauto : s.bit RTC.TRIM 8 = true) : let u := s.setFld RTC.TEMP 15 0 temp.toNat
    exec (.rtcTrimUpdate temp) s =
      .next (u.setFld RTC.TRIM 20 16 (clampI 0 31 (16 + divRound (trimError u temp.toInt) (Int.ofNat (orIfZero 1000 (u.fld RTC.CAPSTEP 11 0))))).toNat) :=
  if_pos ⟨(State.bit_setFld_ne s (by decide) _ _ _ _).trans hauto, Bool.eq_false_iff.1 hmain⟩

end Trim

/-! ### The oscillator -/

/-- 18 R455: XO32_OK is the inverse of OSCSTOP. -/
theorem regRead_clkStatus_ok (t : State) (who : Nat) : (regRead t who CLK.STATUS).1.getLsbD 0 = !t.bit RTC.STATUS 1 := by
  have hread : (regRead t who CLK.STATUS).1 = withBits (t.rd CLK.STATUS) 0 0 (natBit (!t.bit RTC.STATUS 1)) := rfl
  rw [hread, getLsbD_withBits _ _ (by decide) (by decide), if_pos ⟨le_refl 0, le_refl 0⟩]
  cases t.bit RTC.STATUS 1 <;> rfl

theorem leaves_oscStopDetect : Leaves .oscStopDetect s (fun t => t.bit RTC.STATUS 1 = true ∧ t.bit RTC.STATUS 0 = true ∧
    (regRead t who CLK.STATUS).1.getLsbD 0 = false ∧ OnlyRegs s t [RTC.STATUS]) := by
  have hstop : ((s.setBit RTC.STATUS 1 true).setBit RTC.STATUS 0 true).bit RTC.STATUS 1 = true :=
    (State.bit_setBit_apart _ _ _ (by decide) (by decide)).trans (State.bit_setBit_self s _ _ (by decide))
  exact ⟨_, rfl, hstop, State.bit_setBit_self _ _ _ (by decide), (regRead_clkStatus_ok _ who).trans (congrArg not hstop),
    DramControl.onlyRegs_then (Machine.onlyRegs_wr s List.mem_cons_self _) List.mem_cons_self _⟩

/-- 18 R455: with HFXO on, RC16 needs no measurement. -/
theorem leaves_oscRestart_hfxo (hhfxo : s.bit CLK.STATUS 1 = true) : Leaves .oscRestart s (fun t => t.bit RTC.STATUS 1 = false ∧
    (regRead t who CLK.STATUS).1.getLsbD 0 = true ∧ OnlyRegs s t [RTC.STATUS]) := by
  have hexec : exec .oscRestart s = .next (s.setBit RTC.STATUS 1 false) := by
    show execOscRestart s = _
    simp only [execOscRestart, State.when, hhfxo, Bool.not_true, Bool.false_eq_true, if_false]
  have hruns : (s.setBit RTC.STATUS 1 false).bit RTC.STATUS 1 = false := State.bit_setBit_self s _ _ (by decide)
  exact ⟨_, hexec, hruns, (regRead_clkStatus_ok _ who).trans (congrArg not hruns), onlyRegs_setFld s _ _ _ _⟩

theorem leaves_oscRestart_rc (hhfxo : s.bit CLK.STATUS 1 = false) : Leaves .oscRestart s (fun t => t.bit RTC.STATUS 1 = false ∧
    (regRead t who CLK.STATUS).1.getLsbD 0 = true ∧ t.bit CLK.STATUS 5 = true ∧ OnlyRegs s t [RTC.STATUS, CLK.STATUS, CLK.RCCAL]) := by
  set restarted := s.setBit RTC.STATUS 1 false with hrestarted
  have hexec : exec .oscRestart s = .next (rcCalibrate restarted) := by
    show execOscRestart s = _
    simp only [execOscRestart, State.when, hhfxo, Bool.not_false, if_true, ← hrestarted]
  have hruns : (rcCalibrate restarted).bit RTC.STATUS 1 = false :=
    (State.bit_setBit_ne _ (by decide) _ _ _).trans ((State.bit_setFld_ne _ (by decide) _ _ _ _).trans (State.bit_setBit_self s _ _ (by decide)))
  refine ⟨_, hexec, hruns, (regRead_clkStatus_ok _ who).trans (congrArg not hruns), State.bit_setBit_self _ _ _ (by decide), fun a ha => ?_, fun _ => rfl⟩
  obtain ⟨hrtc, hclk, hrccal⟩ : a ≠ RTC.STATUS ∧ a ≠ CLK.STATUS ∧ a ≠ CLK.RCCAL := by simpa using ha
  exact (State.rd_setBit_ne _ hclk _ _).trans ((State.rd_setFld_ne _ hrccal _ _ _).trans (State.rd_setBit_ne s hrtc _ _))

/-- 18 R461: a flag of `RTC.STATUS` that is cleared where `c` holds. -/
def clearedIf (s : State) (i : Nat) (c : Prop) [Decidable c] : State := if c then s.setBit RTC.STATUS i false else s

theorem clearedIf_osf (s : State) {i : Nat} (hi : i < 32) (hne : i ≠ 0) (c : Prop) [Decidable c] :
    (clearedIf s i c).bit RTC.STATUS 0 = s.bit RTC.STATUS 0 := by
  unfold clearedIf
  split
  · exact State.bit_setBit_apart _ _ _ hi hne.symm
  · rfl

theorem onlyRegs_clearedIf {t : State} (h : OnlyRegs s t [RTC.STATUS]) (i : Nat) (c : Prop) [Decidable c] : OnlyRegs s (clearedIf t i c) [RTC.STATUS] := by
  unfold clearedIf
  split
  · exact DramControl.onlyRegs_then h List.mem_cons_self _
  · exact h

/-- 18 R455: OSF clears only while the oscillator runs. -/
theorem leaves_osfClear (h : Reaches s who RTC.STATUS true) : Leaves (.osfClear who v) s (fun t =>
    t.bit RTC.STATUS 0 = (s.bit RTC.STATUS 0 && s.bit RTC.STATUS 1) ∧ OnlyRegs s t [RTC.STATUS]) := by
  set w := vSet v 0 with hw
  have hwrite : rtcStatusWrite s w = clearedIf (clearedIf (clearedIf s 0 (testB w.toNat 0 ∧ (!s.bit RTC.STATUS 1) = true)) 2
    (testB w.toNat 2 ∧ true = true)) 4 (testB w.toNat 4 ∧ true = true) := rfl
  have hone : testB w.toNat 0 = true := by simp [hw, testB_vSet]
  refine ⟨_, congrArg Host.Outcome.next ((access_write (t := rtcStatusWrite s w) h rfl).trans hwrite), ?_,
    onlyRegs_clearedIf (onlyRegs_clearedIf (onlyRegs_clearedIf (DramControl.onlyRegs_refl s _) _ _) _ _) _ _⟩
  rw [clearedIf_osf _ (by decide) (by decide), clearedIf_osf _ (by decide) (by decide)]
  unfold clearedIf
  cases hstop : s.bit RTC.STATUS 1
  · rw [if_pos ⟨hone, rfl⟩, State.bit_setBit_self s _ _ (by decide), Bool.and_false]
  · rw [if_neg (fun hc => Bool.noConfusion hc.2), Bool.and_true]

theorem exec_blackoutWake (i : Fin 4) (hblack : s.pwr.blackout = true) (hwakes : wakesBlackout s i.val = true) :
    exec (.blackoutWake i) s = .next (blackoutWake s i.val) := if_pos ⟨hblack, hwakes⟩

end Sys2Proof.BackupDomain
end

section
/-! PROOF. The obligation about the power states and the RTC. -/
namespace Sys2Proof.PowerStates
open Sys2Proof.Machine Sys2Proof.Safety Sys2Proof.Reg Sys2Proof.BackupDomain

/-- Settles O55: the clauses on requests, transitions, supplies and the RTC, each by the lemma on its command. -/
theorem powerAndClockFollowTheirStates : Obligations.PowerAndClockFollowTheirStates := by
  intro who v s
  exact ⟨fun h => ⟨fun c hc hlow hhigh => ⟨leaves_powerRequest_prep h hc hlow hhigh, leaves_powerRequest_held h hc hlow hhigh⟩,
      exec_powerRequest_reserved h, leaves_powerRequestCancel h⟩,
    fun rest hphase => ⟨exec_powerCommit_ready hphase, leaves_powerCommit_waiting hphase⟩,
    exec_powerStateReached, exec_wakeEvent,
    fun hphase => ⟨exec_powerExitComplete_run hphase, exec_powerExitComplete_sense hphase⟩,
    leaves_dozeEnter, leaves_dozeExit, exec_autoRestReturn,
    fun mv bk hhigh hbk hwarn hdram => leaves_vbatCheck hhigh hbk hwarn hdram,
    leaves_backupSupplySwitch, rfl, fun h => ⟨leaves_rtcApply_idle h, leaves_rtcApply_busy h⟩, leaves_rtcApplyTransfer,
    leaves_rtcApplyCommit_time, leaves_rtcSubsecRead,
    fun n => ⟨exec_rtcAlarm_still n rfl, exec_rtcAlarm_once n rfl⟩,
    fun temp => ⟨exec_rtcTrimUpdate_still temp, exec_rtcTrimUpdate temp⟩,
    leaves_oscStopDetect, leaves_oscRestart_hfxo, leaves_oscRestart_rc, leaves_osfClear, exec_blackoutWake⟩

end Sys2Proof.PowerStates
end

section
/-! PROOF. The service port (19 R466 to R468). -/
namespace Sys2Proof.ServicePort
open Sys2Proof.Machine Sys2Proof.Safety Sys2Proof.Reg

variable {s : State} {who : Nat} {v : Word} {body : List Byte} {ok : Bool}

/-! ### Packets -/

section Deaf
variable (hdeaf : svcListens s = false ∨ svcNbuf s = 0)
include hdeaf

theorem exec_svcPacketReceive_deaf : exec (.svcPacketReceive body ok) s = .next s := by
  have hcond : (!svcListens s || svcNbuf s == 0) = true := by
    rcases hdeaf with h | h
    · rw [h]; rfl
    · rw [beq_iff_eq.2 h, Bool.or_true]
  exact if_pos hcond

theorem exec_svcGapTimeout_deaf : exec .svcGapTimeout s = .next s := by
  have hcond : ¬(svcListens s && svcNbuf s != 0) = true := by
    rcases hdeaf with h | h
    · rw [h]; exact Bool.false_ne_true
    · rw [h, Bool.and_eq_true]; exact fun hc => Bool.noConfusion hc.2
  exact if_neg hcond

end Deaf

theorem packet_good (hshort : 2 ≤ body.length) (hlong : body.length ≤ 1040) (hcrc : ok = true) :
    ¬(body.length < 2 ∨ 1040 < body.length ∨ ok = false) := by
  rintro (hlen | hlen | hbad)
  · omega
  · omega
  · exact Bool.noConfusion (hcrc.symm.trans hbad)

section Listening
variable (hlistens : svcListens s = true) (hbuf : svcNbuf s ≠ 0)
include hlistens hbuf

theorem svcHears : ¬(!svcListens s || svcNbuf s == 0) = true := by
  rw [hlistens, beq_eq_false_iff_ne.2 hbuf]
  exact Bool.false_ne_true

theorem leaves_svcPacketReceive_bad (hbad : body.length < 2 ∨ 1040 < body.length ∨ ok = false) : Leaves (.svcPacketReceive body ok) s (fun t =>
    t.bit SVC.EVT 1 = true ∧ t.fld SVC.CNT 31 16 = min (s.fld SVC.CNT 31 16 + 1) 0xFFFF ∧ t.fld SVC.CNT 15 0 = s.fld SVC.CNT 15 0 ∧
    (∃ m, t.svc = { s.svc with motionAt := m }) ∧ t.mem = s.mem) := by
  obtain ⟨hevent, hbadcount, hgoodcount, -, hsvc, hmem⟩ := svcDiscard_facts s 1 (by decide)
  exact ⟨_, (if_neg (svcHears hlistens hbuf)).trans (if_pos hbad), hevent, hbadcount, hgoodcount, hsvc, hmem⟩

theorem leaves_svcGapTimeout : Leaves .svcGapTimeout s (fun t => t.bit SVC.EVT 3 = true ∧ t.bit SVC.STATUS 0 = false ∧
    t.fld SVC.CNT 31 16 = min (s.fld SVC.CNT 31 16 + 1) 0xFFFF ∧ (∃ m, t.svc = { s.svc with motionAt := m }) ∧ t.mem = s.mem) := by
  have hcond : (svcListens s && svcNbuf s != 0) = true := by rw [hlistens, bne_iff_ne.2 hbuf]; rfl
  obtain ⟨hevent, hcount, -, hstatus, hsvc, hmem⟩ := svcDiscard_facts (s.setBit SVC.STATUS 0 false) 3 (by decide)
  rw [State.fld_setBit_ne s (show SVC.CNT ≠ SVC.STATUS by decide)] at hcount
  have hidle : (svcDiscard (s.setBit SVC.STATUS 0 false) 3).bit SVC.STATUS 0 = false :=
    (congrArg (fun w : Word => testB w.toNat 0) hstatus).trans (State.bit_setBit_self s _ _ (by decide))
  exact ⟨_, if_pos hcond, hevent, hidle, hcount, hsvc, hmem⟩

section Good
variable (hshort : 2 ≤ body.length) (hlong : body.length ≤ 1040) (hcrc : ok = true)
include hshort hlong hcrc

/-- 19 R470: a debug packet is kept for the hardware. -/
theorem leaves_svcPacketReceive_debug (hdebug : body.head? = some 0x0A ∨ body.head? = some 0x0B) : Leaves (.svcPacketReceive body ok) s (fun t =>
    t.bit SVC.EVT 0 = true ∧ t.fld SVC.CNT 15 0 = min (s.fld SVC.CNT 15 0 + 1) 0xFFFF ∧ t.fld SVC.CNT 31 16 = s.fld SVC.CNT 31 16 ∧
    (∃ m, t.svc = { s.svc with probing := false, dbg := some body, motionAt := m }) ∧ t.mem = s.mem) := by
  obtain ⟨hevent, hgoodcount, hbadcount, ⟨m, hsvc⟩, hmem⟩ := svcGood_facts s
  exact ⟨_, (if_neg (svcHears hlistens hbuf)).trans ((if_neg (packet_good hshort hlong hcrc)).trans (if_pos hdebug)), hevent, hgoodcount, hbadcount,
    ⟨m, congrArg (fun x : Svc => { x with dbg := some body }) hsvc⟩, hmem⟩

section Request
variable (hrd : body.head? ≠ some 0x0A) (hwr : body.head? ≠ some 0x0B)
include hrd hwr

theorem leaves_svcPacketReceive_nobuffer (hfull : svcFree s = none) : Leaves (.svcPacketReceive body ok) s (fun t =>
    t.bit SVC.EVT 2 = true ∧ t.fld SVC.CNT 31 16 = min (s.fld SVC.CNT 31 16 + 1) 0xFFFF ∧ (∃ m, t.svc = { s.svc with motionAt := m }) ∧ t.mem = s.mem) := by
  obtain ⟨hevent, hbadcount, -, -, hsvc, hmem⟩ := svcDiscard_facts s 2 (by decide)
  refine ⟨_, ((if_neg (svcHears hlistens hbuf)).trans ((if_neg (packet_good hshort hlong hcrc)).trans (if_neg (not_or.2 ⟨hrd, hwr⟩)))).trans ?_,
    hevent, hbadcount, hsvc, hmem⟩
  rw [hfull]

/-- 19 R467: a request is written into the lowest free buffer and its address enqueued, or discarded where the write fails. -/
theorem exec_svcPacketReceive_buffer (i : Nat) (hfree : svcFree s = some i) : let a := (s.rd SVC.RXBASE).toNat + 2048 * i
    let r := engineWrite s svcInit a (leBytes 2 body.length ++ body) true
    (r.1 = true → exec (.svcPacketReceive body ok) s = .next (svcDiscard r.2 2)) ∧
    (r.1 = false → exec (.svcPacketReceive body ok) s =
      .next (svcGood (qProduce (svcStat (r.2.upSvc (fun v => { v with used := addOnce v.used i }))) 120 svcInit (leBytes 4 a)).2)) := by
  intro a r
  have hexec : exec (.svcPacketReceive body ok) s = _ :=
    (if_neg (svcHears hlistens hbuf)).trans ((if_neg (packet_good hshort hlong hcrc)).trans (if_neg (not_or.2 ⟨hrd, hwr⟩)))
  simp only [hfree] at hexec
  refine ⟨fun hfails => hexec.trans ?_, fun hwritten => hexec.trans ?_⟩
  · rw [show engineWrite s svcInit a (leBytes 2 body.length ++ body) true = (true, r.2) from Prod.ext hfails rfl]
  · rw [show engineWrite s svcInit a (leBytes 2 body.length ++ body) true = (false, r.2) from Prod.ext hwritten rfl]

end Request
end Good
end Listening

/-! ### Replies and rates -/

section Reply
variable (hen : s.bit SVC.CTRL 0 = true) (hclock : svcClock s = true) (hpower : pwrState s ≤ 1)
include hen hclock hpower

theorem exec_svcReplyDone_service (hreply : s.svc.reply.isSome = true) :
    exec .svcReplyDone s = .next (svcEvent (svcStat (svcRate (s.upSvc (fun v => { v with reply := none })))) 4) := by
  obtain ⟨r, hr⟩ := Option.isSome_iff_exists.1 hreply
  show execSvcReplyDone s = _
  simp only [execSvcReplyDone, hen, hclock, hr, decide_eq_false (show ¬ 1 < pwrState s by omega), Bool.not_true, Bool.or_self, Bool.false_eq_true, if_false]

theorem leaves_svcReplyDone (hreply : s.svc.reply.isSome = true) (hrate : s.svc.newDiv = none) : Leaves .svcReplyDone s (fun t =>
    (∃ m, t.svc = { s.svc with reply := none, motionAt := m }) ∧ t.bit SVC.EVT 4 = true ∧ t.bit SVC.STATUS 1 = false ∧
    t.rd SVC.CTRL = s.rd SVC.CTRL ∧ t.mem = s.mem) := by
  set sent := s.upSvc (fun v => { v with reply := none }) with hsent
  have hsame : svcRate sent = sent := by
    have hnone : sent.svc.newDiv = none := hrate
    simp only [svcRate, hnone]
  have hexec := exec_svcReplyDone_service hen hclock hpower hreply
  rw [← hsent, hsame] at hexec
  obtain ⟨hssvc, hsmem, hsrd, hbusy, -⟩ := svcStat_facts sent
  obtain ⟨hevent, hrd, ⟨m, hsvc⟩, hmem⟩ := svcEvent_facts (svcStat sent) 4 (by decide)
  refine ⟨_, hexec, ⟨m, hsvc.trans (congrArg (fun x : Svc => { x with motionAt := m }) hssvc)⟩, hevent, ?_, ?_, hmem.trans hsmem⟩
  · exact (congrArg (fun w : Word => testB w.toNat 1) (hrd SVC.STATUS (by decide) (by decide))).trans hbusy
  · exact (hrd SVC.CTRL (by decide) (by decide)).trans (hsrd _ (by decide))

/-- 19 R468: the rate that a HELLO asked for applies behind its reply, on trial. -/
theorem leaves_svcReplyDone_rate (d : Nat) (hreply : s.svc.reply.isSome = true) (hrate : s.svc.newDiv = some d) (hd : d < 512) :
    Leaves .svcReplyDone s (fun t => (∃ m, t.svc = { s.svc with reply := none, newDiv := none, probing := true, probeAt := s.uptime, motionAt := m }) ∧
      t.fld SVC.CTRL 24 16 = d ∧ t.bit SVC.EVT 4 = true ∧ t.mem = s.mem) := by
  set sent := s.upSvc (fun v => { v with reply := none }) with hsent
  set rated := (sent.setFld SVC.CTRL 24 16 d).upSvc (fun v => { v with newDiv := none, probing := true, probeAt := s.uptime }) with hrated
  have happlied : svcRate sent = rated := by
    have hsome : sent.svc.newDiv = some d := hrate
    simp only [svcRate, hsome]
    rfl
  have hexec := exec_svcReplyDone_service hen hclock hpower hreply
  rw [← hsent, happlied] at hexec
  obtain ⟨hssvc, hsmem, hsrd, -⟩ := svcStat_facts rated
  obtain ⟨hevent, hrd, ⟨m, hsvc⟩, hmem⟩ := svcEvent_facts (svcStat rated) 4 (by decide)
  refine ⟨_, hexec, ⟨m, hsvc.trans (congrArg (fun x : Svc => { x with motionAt := m }) hssvc)⟩, ?_, hevent, hmem.trans hsmem⟩
  have hctrl : (svcEvent (svcStat rated) 4).rd SVC.CTRL = (sent.setFld SVC.CTRL 24 16 d).rd SVC.CTRL :=
    (hrd SVC.CTRL (by decide) (by decide)).trans (hsrd _ (by decide))
  exact (fld_of_rd hctrl 24 16).trans ((State.fld_setFld_self sent _ _ (by decide) (by decide)).trans (Nat.mod_eq_of_lt hd))

theorem exec_svcReplyDone_buffer (w : Word) (tr : Nat × Bool) (hreply : s.svc.reply = none) (hqueue : (qTake s 121).1 = some (w, tr)) :
    exec .svcReplyDone s = .next (svcEvent (engineWrite (qTake s 121).2 svcInit w.toNat [0, 0] true).2 4) := by
  have htake : qTake s 121 = (some (w, tr), (qTake s 121).2) := Prod.ext hqueue rfl
  show execSvcReplyDone s = _
  simp only [execSvcReplyDone, hen, hclock, hreply, decide_eq_false (show ¬ 1 < pwrState s by omega), Bool.not_true, Bool.or_self, Bool.false_eq_true, if_false]
  rw [htake]

end Reply

theorem leaves_svcRateRevert (hprobing : s.svc.probing = true) (hlate : s.svc.probeAt + ticksPerSecond ≤ s.uptime) : Leaves .svcRateRevert s (fun t =>
    t.fld SVC.CTRL 24 16 = 417 ∧ t.svc = { s.svc with probing := false } ∧ OnlyRegs s t [SVC.CTRL]) :=
  ⟨_, if_pos ⟨hprobing, hlate⟩, State.fld_setFld_self s SVC.CTRL 417 (by decide) (by decide), rfl, onlyRegs_setFld s _ _ _ _⟩

theorem exec_svcRateRevert_kept (h : s.svc.probing = false ∨ s.uptime < s.svc.probeAt + ticksPerSecond) : exec .svcRateRevert s = .next s := by
  refine if_neg fun ⟨hprobing, hlate⟩ => ?_
  rcases h with h | h
  · exact Bool.noConfusion (h.symm.trans hprobing)
  · omega

theorem leaves_svcRxfree (h : Reaches s who SVC.RXFREE true) : Leaves (.svcRxfree who v) s (fun t =>
    t.svc = { s.svc with used := s.svc.used.filter (fun i => i != bitsOf v 3 0) } ∧
    t.fld SVC.STATUS 11 8 = (below (svcNbuf s) (fun i => !t.svc.used.contains i)).length % 16 ∧ OnlyRegs s t [SVC.STATUS]) := by
  set freed := s.upSvc (fun x => { x with used := x.used.filter (fun i => i != bitsOf v 3 0) }) with hfreed
  obtain ⟨-, -, hrd, -, hcount⟩ := svcStat_facts freed
  have hframe : OnlyRegs s (svcStat freed) [SVC.STATUS] := ⟨fun a ha => hrd a (by simpa using ha), fun _ => rfl⟩
  exact ⟨_, congrArg Host.Outcome.next (access_write (t := svcRxfree s v) h rfl), rfl, hcount, hframe⟩

/-- Settles O56: the clauses on packets, replies, the rate and the buffers, each by the lemma on its command. -/
theorem servicePortTakesItsPackets : Obligations.ServicePortTakesItsPackets := by
  intro who v body ok s
  exact ⟨fun hdeaf => ⟨exec_svcPacketReceive_deaf hdeaf, exec_svcGapTimeout_deaf hdeaf⟩,
    fun hlistens hbuf => ⟨leaves_svcPacketReceive_bad hlistens hbuf,
      fun hshort hlong hcrc => ⟨leaves_svcPacketReceive_debug hlistens hbuf hshort hlong hcrc,
        fun hrd hwr => ⟨leaves_svcPacketReceive_nobuffer hlistens hbuf hshort hlong hcrc hrd hwr,
          exec_svcPacketReceive_buffer hlistens hbuf hshort hlong hcrc hrd hwr⟩⟩,
      leaves_svcGapTimeout hlistens hbuf⟩,
    fun hen hclock hpower => ⟨leaves_svcReplyDone hen hclock hpower, leaves_svcReplyDone_rate hen hclock hpower, exec_svcReplyDone_buffer hen hclock hpower⟩,
    leaves_svcRateRevert, exec_svcRateRevert_kept, leaves_svcRxfree⟩

end Sys2Proof.ServicePort
end

section
/-! PROOF. Requests on the service port (19 R468, R469, R472 to R475). -/
namespace Sys2Proof.ServiceRequests
open Sys2Proof.Machine Sys2Proof.Safety Sys2Proof.Reg

variable {s : State} {seq : Byte} {p : List Byte} {ok : Bool}

/-- 19 R468: a request is answered with CMD + 0x80, its SEQ, a STATUS and data. -/
def answered (seq : Byte) (p : List Byte) (t : State) (cmd : Byte) (st : Nat) (data : List Byte) : Out :=
  .next (svcReply t ([cmd, seq] ++ p) ([cmd + 0x80, seq, BitVec.ofNat 8 st] ++ data))

theorem exec_unserved {c : Instr} {cmd : Byte} {f : State → Option (Nat × List Byte) × State} (hexec : exec c s = .next (svcServe s cmd seq p f)) :
    (svcServer s = 0 → exec c s = .next s) ∧
    (svcServer s ≠ 0 → s.svc.last.1 = [cmd, seq] ++ p → exec c s = .next (svcStat (s.upSvc (fun v => { v with reply := some v.last.2 })))) :=
  ⟨fun hnobody => hexec.trans (congrArg _ (svcServe_none hnobody cmd seq p f)),
    fun hserver hrepeat => hexec.trans (congrArg _ (svcServe_repeat hserver hrepeat f))⟩

theorem exec_svc_unserved : ∀ cmd c, (cmd, c) ∈ [((1 : Byte), Instr.svcHello seq p), (2, .svcStatus seq p), (3, .svcLoad seq p ok), (4, .svcVerify seq p), (6, .svcProgress seq p), (7, .svcAbort seq p), (8, .svcAuth seq p)] →
    (svcServer s = 0 → exec c s = .next s) ∧
    (svcServer s ≠ 0 → s.svc.last.1 = [cmd, seq] ++ p → exec c s = .next (svcStat (s.upSvc (fun v => { v with reply := some v.last.2 })))) := by
  intro cmd c hc
  simp only [List.mem_cons, Prod.mk.injEq, List.not_mem_nil, or_false] at hc
  rcases hc with ⟨rfl, rfl⟩ | ⟨rfl, rfl⟩ | ⟨rfl, rfl⟩ | ⟨rfl, rfl⟩ | ⟨rfl, rfl⟩ | ⟨rfl, rfl⟩ | ⟨rfl, rfl⟩ <;> exact exec_unserved rfl

section Fresh
variable (himage : svcServer s = 1) (hlive : lifecycle s ≠ 3)

include himage in
/-- The trusted image serves outside RECOVERY. -/
theorem svcRecovery_of_image : svcRecovery s = false := by
  cases hrec : svcRecovery s
  · rfl
  · simp [svcServer, hrec] at himage

include himage hlive

/-- The answer of a fresh request is what its service makes of it. -/
theorem exec_answered {c : Instr} {cmd : Byte} {f : State → Option (Nat × List Byte) × State} {st : Nat} {data : List Byte} {t : State}
    (hexec : exec c s = .next (svcServe s cmd seq p f)) (hfresh : s.svc.last.1 ≠ [cmd, seq] ++ p) (hservice : f s = (some (st, data), t)) :
    exec c s = answered seq p t cmd st data :=
  hexec.trans (congrArg _ (svcServe_answer himage hlive hfresh hservice))

/-! ### Reports -/

theorem exec_svcHello_bad (hfresh : s.svc.last.1 ≠ [1, seq] ++ p) (hlen : p.length ≠ 2) : exec (.svcHello seq p) s = answered seq p s 1 2 [] :=
  exec_answered himage hlive rfl hfresh (if_pos hlen)

/-- 19 R468: HELLO identifies the node and names the rate that applies behind the reply. -/
theorem exec_svcHello_rate (hfresh : s.svc.last.1 ≠ [1, seq] ++ p) (hlen : p.length = 2) (hrate : leNat p ≠ 0) :
    exec (.svcHello seq p) s = answered seq p (s.upSvc (fun v => { v with newDiv := some (clamp 16 417 (leNat p)) })) 1 0
      (leBytes 4 (s.rd SYS.ID).toNat ++ beBytes 8 (ownEui s) ++ [BitVec.ofNat 8 (lifecycle s), BitVec.ofNat 8 s.phase, BitVec.ofNat 8 (s.fld SYS.BOOTSEL 0 0)] ++
        leBytes 4 (hdrFld (runHdr s) 8 4) ++ leBytes 2 (clamp 16 417 (leNat p))) := by
  refine exec_answered himage hlive rfl hfresh ((if_neg (not_not_intro hlen)).trans ?_)
  simp only [if_neg hrate]
  rfl

theorem exec_svcStatus (hfresh : s.svc.last.1 ≠ [2, seq] ++ p) : exec (.svcStatus seq p) s =
    answered seq p (if svcRecovery s then s else motionSeen s) 2 0 ([BitVec.ofNat 8 s.svc.ustate, BitVec.ofNat 8 (if svcRecovery s then 2 * natBit (svcLow s) else natBit (svcMoving s) + 2 * natBit (svcLow s) +
      4 * natBit (svcLocked s))] ++ leBytes 2 (s.fld PWR.VBAT 11 0) ++ leBytes 4 (svcPos s) ++ leBytes 4 (svcTotal s) ++ leBytes 2 (s.fld SYS.HEALTH 31 16)) :=
  exec_answered himage hlive rfl hfresh rfl

theorem exec_svcProgress (hfresh : s.svc.last.1 ≠ [6, seq] ++ p) (hloading : s.svc.ustate = 1) (htotal : svcTotal s ≠ 0) : exec (.svcProgress seq p) s =
    answered seq p s 6 0 ([1, BitVec.ofNat 8 (100 * svcPos s / svcTotal s)] ++ leBytes 4 (svcPos s) ++ leBytes 4 (svcTotal s)) := by
  refine exec_answered himage hlive rfl hfresh ?_
  simp only [hloading, if_neg htotal, if_true]
  rfl

theorem exec_svcAuth (hfresh : s.svc.last.1 ≠ [8, seq] ++ p) : let r := s.drawBytes 8
    exec (.svcAuth seq p) s = answered seq p (r.2.upSvc (fun v => { v with nonce := some (r.1, s.uptime) })) 8 0 r.1 :=
  exec_answered himage hlive rfl hfresh rfl

/-! ### LOAD -/

section Load
variable (hfresh : s.svc.last.1 ≠ [3, seq] ++ p)
include hfresh

theorem exec_svcLoad : exec (.svcLoad seq p ok) s = answered seq p (loadRun s p ok).2 3 (loadRun s p ok).1 (leBytes 4 (svcPos (loadRun s p ok).2)) :=
  exec_answered himage hlive rfl hfresh rfl

theorem exec_svcLoad_of_run {st : Nat} {t : State} (hrun : loadRun s p ok = (st, t)) : exec (.svcLoad seq p ok) s = answered seq p t 3 st (leBytes 4 (svcPos t)) := by
  rw [exec_svcLoad himage hlive hfresh, hrun]

end Load

end Fresh

theorem loadRun_badArg (hbad : p.length < 6 ∨ 1029 < p.length ∨ 1 < (p.getD 0 0).toNat) : loadRun s p ok = (2, s) := if_pos hbad

section GoodLoad
variable (hshort : 6 ≤ p.length) (hlong : p.length ≤ 1029) (hregion : (p.getD 0 0).toNat ≤ 1)
include hshort hlong hregion

theorem load_good : ¬(p.length < 6 ∨ 1029 < p.length ∨ 1 < (p.getD 0 0).toNat) := by
  rintro (h | h | h) <;> omega

theorem loadRun_refused (hrefusal : svcRefusal s ≠ 0) : loadRun s p ok = (svcRefusal s, svcRefused s) :=
  (if_neg (load_good hshort hlong hregion)).trans (if_pos hrefusal)

/-- 19 R473: nothing is loaded while an image is checked, activated or on trial. -/
theorem loadRun_busy (hrefusal : svcRefusal s = 0) (hstate : s.svc.ustate = 3 ∨ 5 ≤ s.svc.ustate) : loadRun s p ok = (3, s) :=
  (if_neg (load_good hshort hlong hregion)).trans ((if_neg (not_not_intro hrefusal)).trans (if_pos hstate))

/-- 19 R473: a LOAD of the block image goes on where the last one ended. -/
theorem loadRun_elsewhere (hrefusal : svcRefusal s = 0) (hstate : s.svc.ustate = 1) (hblock : s.svc.pos0 < hdrFld s.svc.hdr 28 4)
    (hplace : (p.getD 0 0).toNat ≠ 0 ∨ leNat ((p.drop 1).take 4) ≠ s.svc.pos0) : loadRun s p ok = (7, s) := by
  have hwant : ((p.getD 0 0).toNat, leNat ((p.drop 1).take 4)) ≠ (if s.svc.pos0 < hdrFld s.svc.hdr 28 4 then (0, s.svc.pos0) else (1, s.svc.pos1)) := by
    rw [if_pos hblock]
    intro heq
    obtain ⟨hreg, hoff⟩ := Prod.mk.inj heq
    exact hplace.elim (fun h => h hreg) (fun h => h hoff)
  exact (if_neg (load_good hshort hlong hregion)).trans ((if_neg (not_not_intro hrefusal)).trans
    ((if_neg (by omega)).trans ((if_neg (not_not_intro hstate)).trans (if_pos hwant))))

end GoodLoad

/-- 19 R471: a refused LOAD forgets at most the overruns that MOVING has seen. -/
theorem svcRefused_facts (s : State) : (svcRefused s).svc = s.svc ∧ OnlyRegs s (svcRefused s) [CUE.IRQOVR 5] := by
  have hseen : (motionSeen s).svc = s.svc ∧ OnlyRegs s (motionSeen s) [CUE.IRQOVR 5] := by
    unfold motionSeen
    split
    · exact ⟨rfl, Machine.onlyRegs_wr s List.mem_cons_self _⟩
    · exact ⟨rfl, DramControl.onlyRegs_refl s _⟩
  unfold svcRefused
  split
  · exact hseen
  · exact ⟨rfl, DramControl.onlyRegs_refl s _⟩

/-! ### VERIFY, ABORT and the owner statements -/

section Fresh
variable (himage : svcServer s = 1) (hlive : lifecycle s ≠ 3)
include himage hlive

theorem exec_svcLoad_refused (hfresh : s.svc.last.1 ≠ [3, seq] ++ p) (hrun : loadRun s p ok = (svcRefusal s, svcRefused s)) :
    exec (.svcLoad seq p ok) s = answered seq p (svcRefused s) 3 (svcRefusal s) (leBytes 4 (svcPos s)) := by
  have hpos : svcPos (svcRefused s) = svcPos s := congrArg (fun x : Svc => x.pos0 + x.pos1) (svcRefused_facts s).1
  rw [exec_svcLoad_of_run himage hlive hfresh hrun, hpos]

theorem exec_svcVerify_notStaged (hfresh : s.svc.last.1 ≠ [4, seq] ++ p) (hstate : s.svc.ustate ≠ 2) :
    exec (.svcVerify seq p) s = answered seq p s 4 9 [] := exec_answered himage hlive rfl hfresh (if_pos hstate)

/-- 19 R474: the check of the staged images decides whether they stay. -/
theorem exec_svcVerify (hfresh : s.svc.last.1 ≠ [4, seq] ++ p) (hstate : s.svc.ustate = 2) : let c := imageCheck s (updTarget s) true (updField s 8 4 0)
    exec (.svcVerify seq p) s = answered seq p (if c = 0 then s.upSvc (fun v => { v with ustate := 4 }) else stageClear s 0) 4 c (leBytes 4 (hdrFld s.svc.hdr 8 4)) := by
  intro c
  refine exec_answered himage hlive rfl hfresh ((if_neg (not_not_intro hstate)).trans ?_)
  have hminver : (if svcRecovery s = true then 0 else updField s 8 4 0) = updField s 8 4 0 :=
    if_neg (Bool.eq_false_iff.1 (svcRecovery_of_image himage))
  simp only [hminver]
  by_cases hgood : c = 0
  · rw [if_pos hgood, if_pos hgood, hgood]
  · rw [if_neg hgood, if_neg hgood]

section Abort
variable (hfresh : s.svc.last.1 ≠ [7, seq] ++ p)
include hfresh

theorem exec_svcAbort_draining (hstate : s.svc.ustate = 5) : exec (.svcAbort seq p) s = answered seq p s 7 3 [] :=
  exec_answered himage hlive rfl hfresh (if_pos hstate)

theorem exec_svcAbort_trial (hstate : s.svc.ustate = 6) : exec (.svcAbort seq p) s = answered seq p (fallback s) 7 0 [] :=
  exec_answered himage hlive rfl hfresh ((if_neg (by omega)).trans (if_pos hstate))

theorem exec_svcAbort_staged (hlow : 1 ≤ s.svc.ustate) (hhigh : s.svc.ustate ≤ 4) : exec (.svcAbort seq p) s = answered seq p (stageClear s 0) 7 0 [] :=
  exec_answered himage hlive rfl hfresh ((if_neg (by omega)).trans ((if_neg (by omega)).trans (if_pos ⟨hlow, hhigh⟩)))

end Abort

/-- 19 R469: a statement spends the nonce, and runs if its checks pass. -/
theorem exec_owner (hfresh : s.svc.last.1 ≠ [9, seq] ++ p) : ∀ op c,
    (op, c) ∈ [(1, Instr.ownerLock seq p), (2, .ownerUnlock seq p), (3, .ownerSetminver seq p), (4, .ownerAddkey seq p), (5, .ownerRevoke seq p), (6, .ownerBurnOwned seq p), (7, .ownerRetire seq p),
      (8, .ownerDebugUnlock seq p), (9, .ownerRecoveryUnlock seq p)] → (p.getD 4 0).toNat = op →
    let u := s.upSvc (fun v => { v with nonce := none })
    let arg := (p.drop 48).take 32
    (p.length ≠ 208 → exec c s = answered seq p u 9 2 []) ∧
    (p.length = 208 → ownerOk s p = false → exec c s = answered seq p u 9 14 []) ∧
    (p.length = 208 → ownerOk s p = true → exec c s = answered seq p (ownerRun u op arg).2 9 (ownerRun u op arg).1 []) := by
  intro op c hc hop u arg
  obtain ⟨hbad, hfails, hpasses⟩ := ownerServe_cases himage hlive hfresh hop
  have hexec : exec c s = .next (ownerServe op seq p s) := by
    simp only [List.mem_cons, Prod.mk.injEq, List.not_mem_nil, or_false] at hc
    rcases hc with ⟨rfl, rfl⟩ | ⟨rfl, rfl⟩ | ⟨rfl, rfl⟩ | ⟨rfl, rfl⟩ | ⟨rfl, rfl⟩ | ⟨rfl, rfl⟩ | ⟨rfl, rfl⟩ | ⟨rfl, rfl⟩ | ⟨rfl, rfl⟩ <;> rfl
  exact ⟨fun hlen => hexec.trans (congrArg _ (hbad hlen)), fun hlen ho => hexec.trans (congrArg _ (hfails hlen ho)),
    fun hlen ho => hexec.trans (congrArg _ (hpasses hlen ho))⟩

end Fresh

/-- 19 R469: LOCK and UNLOCK write the setting. -/
theorem ownerRun_lock (u : State) (arg : List Byte) {op : Nat} (hlow : 1 ≤ op) (hhigh : op ≤ 2) : ownerRun u op arg = (0, settingsSet u 0 1 (2 - op)) := by
  interval_cases op <;> rfl

theorem ownerRun_debugUnlock (u : State) (arg : List Byte) : ownerRun u 8 arg = (0, u.setBit DBG.STATUS 8 true) := rfl

/-- Settles O57: unserved and repeated requests, then every service by the lemma on its answer. -/
theorem serviceRequestsAreServed : Obligations.ServiceRequestsAreServed := by
  intro seq p ok s
  refine ⟨exec_svc_unserved, fun himage hlive => ?_⟩
  refine ⟨fun hfresh => ⟨exec_svcHello_bad himage hlive hfresh, exec_svcHello_rate himage hlive hfresh⟩,
    exec_svcStatus himage hlive, exec_svcProgress himage hlive, exec_svcAuth himage hlive,
    fun hfresh => ⟨exec_svcLoad himage hlive hfresh, fun hbad => exec_svcLoad_of_run himage hlive hfresh (loadRun_badArg hbad), fun hshort hlong hregion => ⟨?_, ?_, ?_⟩⟩,
    fun hfresh => ⟨exec_svcVerify_notStaged himage hlive hfresh, exec_svcVerify himage hlive hfresh⟩,
    fun hfresh => ⟨exec_svcAbort_draining himage hlive hfresh, exec_svcAbort_trial himage hlive hfresh, exec_svcAbort_staged himage hlive hfresh⟩,
    fun hfresh op c hc hop => ?_⟩
  · exact fun hrefusal => ⟨exec_svcLoad_refused himage hlive hfresh (loadRun_refused hshort hlong hregion hrefusal), (svcRefused_facts s).2⟩
  · exact fun hrefusal hstate => exec_svcLoad_of_run himage hlive hfresh (loadRun_busy hshort hlong hregion hrefusal hstate)
  · exact fun hrefusal hstate hblock hplace => exec_svcLoad_of_run himage hlive hfresh (loadRun_elsewhere hshort hlong hregion hrefusal hstate hblock hplace)
  · obtain ⟨hbad, hfails, hpasses⟩ := exec_owner himage hlive hfresh op c hc hop
    have hlow : 1 ≤ op := by
      simp only [List.mem_cons, Prod.mk.injEq, List.not_mem_nil, or_false] at hc
      omega
    exact ⟨hbad, hfails, hpasses, ownerRun_lock _ _ hlow, fun hop8 => (congrArg (ownerRun _ · _) hop8).trans (ownerRun_debugUnlock _ _)⟩

end Sys2Proof.ServiceRequests
end

section
/-! PROOF. Activation, trial and fallback of an image (19 R475, R476). -/
namespace Sys2Proof.Activation
open Sys2Proof.Machine Sys2Proof.Safety Sys2Proof.Reg

variable {s : State} {seq : Byte}

/-! ### ACTIVATE -/

/-- 19 R475: what ACTIVATE LIVE answers, or that its reply waits for the drain. -/
def liveService (s : State) : Option (Nat × List Byte) × State :=
  if activateCheck s ≠ 0 then (some (activateCheck s, []), if s.svc.ustate = 4 then svcRefused s else s)
  else if (s.svc.hdr.drop 36).take 32 ≠ ((runHdr s).drop 36).take 32 ∨ testB (hdrFld (manifest s (updTarget s)) 44 4) 0 = false then (some (15, []), s)
  else (none, (s.setBit STG.CTRL 1 false).upSvc (fun v => { v with ustate := 5, live := true, drainAt := s.uptime }))

/-- 19 R475: what ACTIVATE RESET answers. -/
def resetService (s : State) : Option (Nat × List Byte) × State :=
  if activateCheck s ≠ 0 then (some (activateCheck s, []), if s.svc.ustate = 4 then svcRefused s else s)
  else (some (0, []), (writeBurst s (updTarget s) 1 (newEpoch s)).upSvc (fun v => { v with ustate := 5, live := false }))

theorem exec_svcActivateLive (s : State) (seq : Byte) : exec (.svcActivateLive seq) s = .next (svcServe s 5 seq [0] liveService) := rfl

section Activate
variable (himage : svcServer s = 1) (hlive : lifecycle s ≠ 3)
include himage hlive

section Live
variable (hfresh : s.svc.last.1 ≠ [5, seq, 0])
include hfresh

theorem exec_svcActivateLive_refused (hcheck : activateCheck s ≠ 0) : exec (.svcActivateLive seq) s =
    .next (svcReply (if s.svc.ustate = 4 then svcRefused s else s) [5, seq, 0] [0x85, seq, BitVec.ofNat 8 (activateCheck s)]) :=
  (exec_svcActivateLive s seq).trans (congrArg _ (svcServe_answer himage hlive hfresh (if_pos hcheck)))

/-- 19 R475: LIVE needs the running image's THASH and LIVEOK. -/
theorem exec_svcActivateLive_notLive (hcheck : activateCheck s = 0)
    (hother : (s.svc.hdr.drop 36).take 32 ≠ ((runHdr s).drop 36).take 32 ∨ testB (hdrFld (manifest s (updTarget s)) 44 4) 0 = false) :
    exec (.svcActivateLive seq) s = .next (svcReply s [5, seq, 0] [0x85, seq, 15]) :=
  (exec_svcActivateLive s seq).trans (congrArg _ (svcServe_answer himage hlive hfresh ((if_neg (not_not_intro hcheck)).trans (if_pos hother))))

/-- 19 R475: dispatch stops and the drain begins; the reply comes when it ends. -/
theorem leaves_svcActivateLive (hcheck : activateCheck s = 0) (hhash : (s.svc.hdr.drop 36).take 32 = ((runHdr s).drop 36).take 32)
    (hok : testB (hdrFld (manifest s (updTarget s)) 44 4) 0 = true) : Leaves (.svcActivateLive seq) s (fun t => t.bit STG.CTRL 1 = false ∧
      t.svc = { s.svc with ustate := 5, live := true, actReq := [5, seq, 0], drainAt := s.uptime } ∧ OnlyRegs s t [STG.CTRL]) := by
  have hsame : ¬((s.svc.hdr.drop 36).take 32 ≠ ((runHdr s).drop 36).take 32 ∨ testB (hdrFld (manifest s (updTarget s)) 44 4) 0 = false) := by
    rw [hok]
    exact fun hother => hother.elim (fun hne => hne hhash) Bool.noConfusion
  have hservice : liveService s = (none, (s.setBit STG.CTRL 1 false).upSvc (fun v => { v with ustate := 5, live := true, drainAt := s.uptime })) :=
    (if_neg (not_not_intro hcheck)).trans (if_neg hsame)
  have hserved := svcServe_fresh (cmd := 5) (seq := seq) (p := [0]) himage hlive hfresh liveService
  rw [hservice] at hserved
  exact ⟨_, (exec_svcActivateLive s seq).trans (congrArg _ hserved), State.bit_setBit_self s STG.CTRL false (by decide), rfl, onlyRegs_setFld s STG.CTRL 1 1 0⟩

end Live

section Reset
variable (hfresh : s.svc.last.1 ≠ [5, seq, 1])
include hfresh

/-- 19 R475: the reset follows an ACTIVATE that is taken. -/
theorem exec_svcActivateReset {t : State} {st : Nat} (hservice : resetService s = (some (st, []), t)) :
    exec (.svcActivateReset seq) s = .next (if (activateCheck s == 0) = true then softReset (svcReply t [5, seq, 1] [0x85, seq, BitVec.ofNat 8 st])
      else svcReply t [5, seq, 1] [0x85, seq, BitVec.ofNat 8 st]) := by
  have htaken : (svcServer s != 0 && activateCheck s == 0 && s.svc.last.1 != [5, seq, 1] && decide (lifecycle s ≠ 3) && svcServer s != 3) = (activateCheck s == 0) := by
    rw [himage, bne_iff_ne.2 hfresh, decide_eq_true hlive, Bool.and_true, Bool.and_true]
    exact Bool.and_true _
  have hexec : exec (.svcActivateReset seq) s = .next (if (svcServer s != 0 && activateCheck s == 0 && s.svc.last.1 != [5, seq, 1] && decide (lifecycle s ≠ 3) && svcServer s != 3) = true then
      softReset (svcServe s 5 seq [1] resetService) else svcServe s 5 seq [1] resetService) := rfl
  rw [hexec, htaken, svcServe_answer himage hlive hfresh hservice]
  rfl

end Reset
end Activate

theorem activateCheck_cases (s : State) : (s.svc.ustate ≠ 4 → activateCheck s = 9) ∧ (s.svc.ustate = 4 → activateCheck s = svcRefusal s) :=
  ⟨fun h => if_pos h, fun h => if_neg (not_not_intro h)⟩

/-! ### The drain of a live activation -/

theorem exec_activateDrained_busy (htask : anyTask s = true) : exec .activateDrained s = .next s :=
  if_neg fun ⟨_, _, hnone⟩ => Bool.noConfusion (hnone.symm.trans htask)

section Drain
variable (hstate : s.svc.ustate = 5) (hlive : s.svc.live = true)
include hstate hlive

theorem exec_activateDrained (htask : anyTask s = false) : ∀ b e, b = 1 - s.fld SYS.BOOTSEL 0 0 → e = newEpoch s →
    let u := healthStart (liveSwitch (writeBurst (writeBurst s b 1 e) b 2 e) b)
    exec .activateDrained s = .next (actReply (u.upSvc (fun v => { v with ustate := 6, trialAt := u.uptime })) 0) := by
  rintro b e rfl rfl
  exact if_pos ⟨hstate, hlive, htask⟩

theorem exec_activateDrainTimeout (hlate : s.svc.drainAt + updField s 6 2 100 * (ticksPerSecond / 1000) ≤ s.uptime) :
    exec .activateDrainTimeout s = .next (actReply (dispatchRun ((s.setBit STG.CTRL 1 true).upSvc (fun v => { v with ustate := 4 }))) 16) :=
  if_pos ⟨hstate, hlive, hlate⟩

end Drain

theorem exec_activate_notDraining (h : s.svc.ustate ≠ 5 ∨ s.svc.live = false) : exec .activateDrained s = .next s ∧ exec .activateDrainTimeout s = .next s := by
  have hno : ¬(s.svc.ustate = 5 ∧ s.svc.live = true) := fun ⟨hstate, hlive⟩ => h.elim (fun hne => hne hstate) fun hoff => Bool.noConfusion (hoff.symm.trans hlive)
  exact ⟨if_neg fun ⟨hstate, hlive, _⟩ => hno ⟨hstate, hlive⟩, if_neg fun ⟨hstate, hlive, _⟩ => hno ⟨hstate, hlive⟩⟩

/-! ### READY and CONFIRM -/

theorem exec_serviceReady {t : State} (htake : serviceTake s 0x20 = (true, t)) :
    (t.svc.holdover = true → exec .serviceReady s = .next (dispatchRun (((t.upSvc (fun v => { v with ready := true })).setBit STG.CTRL 1 true).upSvc (fun v => { v with holdover := false })))) ∧
    (t.svc.holdover = false → exec .serviceReady s = .next (t.upSvc (fun v => { v with ready := true }))) := by
  have hexec : exec .serviceReady s = .next (if t.svc.holdover = true then
      dispatchRun (((t.upSvc (fun v => { v with ready := true })).setBit STG.CTRL 1 true).upSvc (fun v => { v with holdover := false }))
      else t.upSvc (fun v => { v with ready := true })) := by
    show execServiceReady s = _
    simp only [execServiceReady, htake]
    rfl
  exact ⟨fun h => hexec.trans (congrArg _ (if_pos h)), fun h => hexec.trans (congrArg _ (if_neg (Bool.eq_false_iff.1 h)))⟩

theorem exec_serviceConfirm {t : State} (htake : serviceTake s 0x21 = (true, t)) :
    (t.svc.ustate = 6 → exec .serviceConfirm s = .next (stageClear (healthStop (writeBurst t t.svc.runBlock 3 (blockEpoch t t.svc.runBlock))) 0)) ∧
    (t.svc.ustate ≠ 6 → exec .serviceConfirm s = .next t) := by
  have hexec : exec .serviceConfirm s = if t.svc.ustate = 6 then .next (stageClear (healthStop (writeBurst t t.svc.runBlock 3 (blockEpoch t t.svc.runBlock))) 0)
      else .next t := by
    show execServiceConfirm s = _
    simp only [execServiceConfirm, htake]
  exact ⟨fun h => hexec.trans (if_pos h), fun h => hexec.trans (if_neg h)⟩

/-! ### Timeouts -/

/-- 19 R476: no READY within 15 s. -/
theorem exec_readyTimeout (hstate : s.svc.ustate = 6) (hready : s.svc.ready = false) (hlate : s.svc.trialAt + 15 * ticksPerSecond ≤ s.uptime) :
    let u := showEpochs (flashRetire s s.svc.runBlock).2
    (u.svc.live = true → exec .readyTimeout s = .next (healthStop (stageClear (liveSwitch u (u.fld SYS.BOOTSEL 0 0)) 0))) ∧
    (u.svc.live = false → exec .readyTimeout s = .next (softReset u)) := by
  have hcond : (s.svc.ustate == 6 && !s.svc.ready && decide (s.svc.trialAt + 15 * ticksPerSecond ≤ s.uptime)) = true := by
    rw [hstate, hready, decide_eq_true hlate]; rfl
  have hexec : exec .readyTimeout s = .next (fallback s) := congrArg Host.Outcome.next (if_pos hcond)
  exact ⟨fun h => hexec.trans (congrArg _ (if_pos h)), fun h => hexec.trans (congrArg _ (if_neg (Bool.eq_false_iff.1 h)))⟩

theorem exec_readyTimeout_kept (h : s.svc.ustate ≠ 6 ∨ s.svc.ready = true ∨ s.uptime < s.svc.trialAt + 15 * ticksPerSecond) :
    exec .readyTimeout s = .next s := by
  refine congrArg Host.Outcome.next (if_neg ?_)
  simp only [Bool.and_eq_true, beq_iff_eq, Bool.not_eq_true', decide_eq_true_eq]
  rintro ⟨⟨hstate, hready⟩, hlate⟩
  rcases h with h | h | h
  · exact h hstate
  · exact Bool.noConfusion (hready.symm.trans h)
  · omega

/-- 07 R177 (log 43): the flash controller refuses to retire the active block. -/
theorem flashRetire_active : ∀ b, b = s.fld SYS.BOOTSEL 0 0 → flashRetire s b = (false, s) := by
  rintro b rfl
  exact if_pos (by rw [beq_self_eq_true, Bool.or_true])

theorem exec_holdoverTimeout (hover : s.svc.holdover = true) (hstate : s.svc.ustate = 0) (hlate : s.svc.pauseAt + 30 * ticksPerSecond ≤ s.uptime) :
    exec .holdoverTimeout s = .next (softReset s) := by
  have hcond : (s.svc.holdover && s.svc.ustate == 0 && decide (s.svc.pauseAt + 30 * ticksPerSecond ≤ s.uptime)) = true := by
    rw [hover, hstate, decide_eq_true hlate]; rfl
  exact congrArg Host.Outcome.next (if_pos hcond)

theorem exec_holdoverTimeout_kept (h : s.svc.holdover = false ∨ s.svc.ustate ≠ 0 ∨ s.uptime < s.svc.pauseAt + 30 * ticksPerSecond) :
    exec .holdoverTimeout s = .next s := by
  refine congrArg Host.Outcome.next (if_neg ?_)
  simp only [Bool.and_eq_true, beq_iff_eq, decide_eq_true_eq]
  rintro ⟨⟨hover, hstate⟩, hlate⟩
  rcases h with h | h | h
  · exact Bool.noConfusion (h.symm.trans hover)
  · exact h hstate
  · omega

/-- Settles O58: the clauses on activation, the drain, the trial and the fallback, each by the lemma on its command. -/
theorem activationRunsToTrialAndBack : Obligations.ActivationRunsToTrialAndBack := by
  intro seq s
  obtain ⟨hunstaged, hstaged⟩ := activateCheck_cases s
  refine ⟨fun himage hlive => ⟨fun hfresh => ⟨exec_svcActivateLive_refused himage hlive hfresh, exec_svcActivateLive_notLive himage hlive hfresh,
      leaves_svcActivateLive himage hlive hfresh⟩, fun hfresh => ⟨fun hcheck => ?_, fun hcheck => ?_⟩⟩,
    hunstaged, hstaged, fun hstate hlive => ⟨exec_activateDrained_busy, exec_activateDrained hstate hlive, exec_activateDrainTimeout hstate hlive⟩,
    exec_activate_notDraining, fun htake => exec_serviceReady (Prod.ext htake rfl), fun htake => exec_serviceConfirm (Prod.ext htake rfl),
    exec_readyTimeout, flashRetire_active, exec_readyTimeout_kept, exec_holdoverTimeout, exec_holdoverTimeout_kept⟩
  · exact (exec_svcActivateReset himage hlive hfresh (if_pos hcheck)).trans (congrArg _ (if_neg (by rw [beq_iff_eq]; exact hcheck)))
  · exact (exec_svcActivateReset himage hlive hfresh (if_neg (not_not_intro hcheck))).trans (congrArg _ (if_pos (beq_iff_eq.2 hcheck)))

end Sys2Proof.Activation
end
